-- ==== Sys2Proof/Word.lean ====
section
/-!
DEFINITION. The word types of the block: a register is 32 bits wide, a native word 72 bits (R6, R46), a message byte 8 bits.
-/
namespace Sys2Proof

/-- A register's 32 bits. -/
abbrev W32 := BitVec 32
/-- A native word of 72 bits. -/
abbrev W72 := BitVec 72
/-- A byte of a frame or a message. -/
abbrev Byte := BitVec 8
/-- A byte offset into BAR0, which is 64 MiB (R30). -/
abbrev Addr := BitVec 26

end Sys2Proof
end

