-- ==== Sys2Proof/Syntax.lean ====
section
/-!
DEFINITION. The commands the block takes, with their operands: one constructor of Instr for every row of the opcode table.
A command carries what reaches the block from outside: the requester and the data of a register access, the physical
readings an engine takes, the time of an edge. Instance numbers are Fin values of the instances the spec gives.
-/
namespace Sys2Proof

/-- A requester of register accesses, coded as ERR_ADDR.REQ codes it (R41). -/
inductive Req where
  | pcie | spi | cp
  deriving DecidableEq, Repr

/-- A head H0 to H3 (R15). -/
abbrev Head := Fin 4
/-- A channel CH0 to CH31 (R15). -/
abbrev Chan := Fin 32
/-- A cluster CL0 to CL31 (R16). -/
abbrev Clus := Fin 32
/-- A core, numbered 8 times its cluster plus its number in the cluster (R8). -/
abbrev Core := Fin 256
/-- A zone (R250). -/
abbrev Zone := Fin 4096
/-- An attention vector (R318). -/
abbrev Vec := Fin 512
/-- A memory controller (R273). -/
abbrev Mc := Fin 2
/-- A lamp port LP0 to LP3 (R331). -/
abbrev Port4 := Fin 4
/-- A port of the Ethernet or CAN pair. -/
abbrev Port2 := Fin 2
/-- A time-interval unit TDC0 to TDC39 (R110). -/
abbrev Unit40 := Fin 40

/-- Raw converter codes of a channel's six lanes over one span of samples, lane 0 first (R74, R76). -/
abbrev ChCodes := List (List Int)

/-- The compute slot of a register-form word (R226 to R229). -/
structure FormR where
  d : BitVec 4
  sa : BitVec 4
  sb : BitVec 4
  acc : BitVec 2
  cs : Bool
  cp : BitVec 3
  cpm : Bool
  md : BitVec 4
  deriving DecidableEq, Repr

/-- The compute slot of a constant-form word (R226 to R229). -/
structure FormK where
  d : BitVec 4
  sa : BitVec 4
  sb : BitVec 4
  acc : BitVec 2
  k : BitVec 7
  x : Bool
  deriving DecidableEq, Repr

/-- The compute slot of a field-form word, BITS and INS (R226 to R229). -/
structure FormF where
  d : BitVec 4
  sa : BitVec 4
  w : BitVec 7
  k : BitVec 7
  deriving DecidableEq, Repr

/-- One move slot of a word (R226). -/
structure MoveF where
  mop : BitVec 3
  space : BitVec 2
  ptr : BitVec 3
  pm : Bool
  greg : BitVec 4
  deriving DecidableEq, Repr

/-- What asks for an injected conversion of the housekeeping converter (R366). -/
inductive InjSrc where
  | tin (pin : Fin 8)
  | headok (h : Head)
  | tshot (h : Head)
  deriving DecidableEq, Repr

/-- What a training run finds (R289): the rank, step and byte lanes that failed, or none, and the result words in order of
their register offsets. -/
structure TrainResult where
  fail : Option (Bool × Fin 5 × BitVec 10)
  results : List (Nat × W32)
  deriving DecidableEq, Repr

/-- A bus access: its byte enables, and the word of a write (R33). -/
structure BusAccess where
  be : BitVec 4
  w : Option W32
  deriving DecidableEq, Repr

/-- Where a read goes, with its byte enables (R33). -/
structure ReadAt where
  addr : Addr
  be : BitVec 4
  deriving DecidableEq, Repr

/-- What a shot boundary takes in: the raw codes of the period it closes, the ticks by which an entry to FOLLOW or PPS lengthens the period
it opens (R99, R100), and whether t_shot lies half a REFCLK cycle after its edge (R112). -/
structure PeriodIn where
  codes : List ChCodes
  late : Nat := 0
  half : Bool := false
  deriving DecidableEq, Repr

/-- A write of register r of timing set n in the cycle of a hand-over (R49, R291). -/
structure TsetWrite where
  q : Req
  n : Fin 2
  r : Fin 7
  v : W32
  deriving DecidableEq, Repr

/-- A write of a DMA channel's LINK (link) or CFG shadow in the cycle of its hand-over (R49, R311). -/
structure ShadowWrite where
  q : Req
  link : Bool
  v : W32
  deriving DecidableEq, Repr

/-- A memory controller at a hand-over, with the TSET write that meets its cycle, if any (R49, R291). -/
structure McEdge where
  mc : Mc
  late : Option TsetWrite := none
  deriving DecidableEq, Repr

/-- The channel of a lane step, and whether its LANE_REQ bit is written 1 in the same cycle (R391). -/
structure SlotEdge where
  ch : Chan
  req : Bool := false
  deriving DecidableEq, Repr

/-- What the signature checker finds of images A and B (R433). -/
structure BootSigs where
  a : Bool
  b : Bool
  deriving DecidableEq, Repr

/-- A rank that goes idle, and whether a request arrives before its SRE (R296). -/
structure RankRest where
  rank : Bool
  arrived : Bool := false
  deriving DecidableEq, Repr

/-- A DMA channel at a hand-over, with the shadow write that meets its cycle, if any (R49, R311). -/
structure DmaEdge where
  chan : Fin 64
  late : Option ShadowWrite := none
  deriving DecidableEq, Repr

/-- An output of the precision converter: its raw value, and whether CTRL.RUN goes to 0 or an open input is detected in its cycle (R362). -/
structure PadcSample where
  xr : Int
  stopped : Bool := false
  opened : Bool := false
  deriving DecidableEq, Repr

/-- The six sums of an in-phase and quadrature pair in the statistics tap (R384). -/
structure IqSums where
  si : Int := 0
  sq : Int := 0
  sii : Int := 0
  sqq : Int := 0
  siq : Int := 0
  n : Nat := 0
  deriving DecidableEq, Repr

/-- The way an object access reaches the dictionary (R394). -/
inductive Path where
  | session (i : Fin 16)
  | can (c : Port2)
  | local
  | zone
  | control
  deriving DecidableEq, Repr

/-- A precision-time message (R410). -/
structure PtpMsg where
  kind : Byte
  domain : Byte
  source : List Byte
  seqId : BitVec 16
  correction : Int
  stamp : Nat
  body : List Byte
  deriving DecidableEq, Repr

/-- A CAN frame (R415). -/
structure CanFrame where
  id : BitVec 29
  ext : Bool
  fd : Bool
  brs : Bool
  rtr : Bool
  data : List Byte
  deriving DecidableEq, Repr

/-- An IP address (R401). -/
inductive IpAddr where
  | v4 (a : BitVec 32)
  | v6 (a : BitVec 128)
  deriving DecidableEq, Repr

/-- A challenged session, and the address its CONFIRM came from (R404, R405). -/
structure ConfirmAt where
  i : Fin 16
  ip : IpAddr
  deriving DecidableEq, Repr

/-- What an Ethernet frame carries, as far as a port acts on it or answers (R419): ARP and neighbour discovery with the address asked for,
ICMP echo with its data, a datagram to a UDP port. -/
inductive EthKind where
  | arpRequest (sender target : BitVec 32)
  | arpReply (sender target : BitVec 32)
  | solicit (sender target : BitVec 128)
  | advertise (sender target : BitVec 128)
  | echoRequest (src dst : IpAddr) (data : List Byte)
  | echoReply (src dst : IpAddr) (data : List Byte)
  | udp (port : Nat)
  | other
  deriving DecidableEq, Repr

/-- An Ethernet frame as the port receives it (R419): its length in bytes, whether its check sequence holds, its sender's MAC address, the
VID of its 802.1Q tag where it has one, and what it carries. -/
structure EthFrame where
  len : Nat
  fcsOk : Bool
  mac : BitVec 48
  vid : Option (BitVec 12)
  kind : EthKind
  deriving DecidableEq, Repr

/-- A gateable power domain (R427). -/
inductive Dom where
  | dspA | dspB | laneA | laneB | mem
  deriving DecidableEq, Repr

/-- A domain that is ready to gate; for MEM, with the TSET writes in the cycle of an SRE (R49, R427). -/
structure GateEdge where
  dom : Dom
  late : List McEdge := []
  deriving DecidableEq, Repr

/-- An operation of the non-volatile memory that can finish (R439). -/
inductive NvmOp where
  | config | calibration
  | image (b : Bool)
  | lifeRecord | secrets
  deriving DecidableEq, Repr

/-- An eNVM operation that ends, and whether its program verification is good (R442). -/
structure NvmEnd where
  op : NvmOp
  ok : Bool
  deriving DecidableEq, Repr


/-- The commands of the block: one constructor per row of the opcode table. -/
inductive Instr where
  /-- REGISTER_WRITE (R36): A normal-view write to a register field that has no row of its own replaces or refuses the value under its access code. -/
  | registerWrite (q : Req) (a : Addr) (be : BitVec 4) (v : W32) (hi : Option (BitVec 4 × W32))
  /-- SET_ALIAS_WRITE (R37): A write through the SET alias sets each written 1 bit in one indivisible read-modify-write. -/
  | setAliasWrite (q : Req) (a : Addr) (v : W32)
  /-- CLR_ALIAS_WRITE (R37): A write through the CLR alias clears each written 1 bit in one indivisible read-modify-write. -/
  | clrAliasWrite (q : Req) (a : Addr) (v : W32)
  /-- TGL_ALIAS_WRITE (R37): A write through the TGL alias inverts each written 1 bit in one indivisible read-modify-write. -/
  | tglAliasWrite (q : Req) (a : Addr) (v : W32)
  /-- UNMAPPED_ACCESS (R31): An access to an unmapped address reads 0 or is ignored and is recorded with cause UNMAPPED. -/
  | unmappedAccess (q : Req) (a : Addr) (w : BusAccess)
  /-- CLEARING_READ (R39): A normal-view read of an RC register returns its value and clears exactly the bits returned as 1. -/
  | clearingRead (q : Req) (a : ReadAt)
  /-- ACK_WRITE (R40): A write of ACK_SEQ to an _ACK register clears the fault bits of its RS register when it matches SEQ. -/
  | ackWrite (q : Req) (a : Addr) (v : W32)
  /-- LO_READ (R47): A read of LO of a 72-bit value returns bits [31:0] and copies bits [71:32] into the requester's snapshot. -/
  | loRead (q : Req) (a : ReadAt)
  /-- STAGE_WRITE (R48): A write of LO or MID of a 72-bit value goes to the requester's staging register. -/
  | stageWrite (q : Req) (a : Addr) (v : W32)
  /-- HI_COMMIT (R48): A write of HI commits the staged LO and MID with HI as one 72-bit update, or is refused with cause STAGE, and ends staging. -/
  | hiCommit (q : Req) (a : Addr) (v : W32)
  /-- BIT_ALIAS_WRITE (R45): A write to a word of the privileged bit-alias window sets one bit of a privileged register to bit 0 of the data. -/
  | bitAliasWrite (q : Req) (a : Addr) (v : W32)
  /-- HEADOK_FALL (R68): A fall of HEADOK(h) drives the head's GATE and LASEN low and its DACs to code 0 in hardware, and sets TRIP when armed. -/
  | headokFall (h : Head) (t : Nat)
  /-- HEADOK_RISE (R69): A rise of the filtered HEADOK(h) input starts the qualification count. -/
  | headokRise (h : Head)
  /-- HEADOK_QUALIFIED (R69): At the 329th ACLK edge after a rise that held high, the qualified HEADOK bit rises. -/
  | headokQualified (h : Head)
  /-- ARM_WRITE (R71): A window write of an ARM bit permits LASEN and, when written 0 with HEADOK at 1, clears TRIP. -/
  | armWrite (q : Req) (h : Head) (v : Bool)
  /-- PROBE_COMMIT (R62): A write of 1 to PROBE_COMMIT checks the staged probe set against R60 and R94 and makes it pending or refuses it. -/
  | probeCommit (q : Req) (h : Head)
  /-- CHIRP_GO (R56): A write of 1 to CHIRP_GO starts the synthesiser filling LEN samples of the chosen bank, or is refused with cause BUSY. -/
  | chirpGo (q : Req) (h : Head)
  /-- CHIRP_DONE (R56): The chirp synthesiser finishes writing the last sample and CHIRP_BUSY falls. -/
  | chirpDone (h : Head)
  /-- SHOT_BOUNDARY (R93): A shot boundary of a head falls: the index advances, pending settings take effect, the shot launches or is skipped, and lanes close their periods. -/
  | shotBoundary (h : Head) (raw : PeriodIn)
  /-- SUB_PROBE_LAUNCH (R58): At t_launch of sub-probe k the probe generator plays the active bank in its slot, with gates open around it. -/
  | subProbeLaunch (h : Head) (k : Fin 8)
  /-- LMON_EDGE (R67): A rising LMON edge is seen by the head supervisor and reaches the channel's TDC start vernier. -/
  | lmonEdge (ch : Chan) (e ofs : Nat)
  /-- LMON_MISS (R67): The supervisor window closes with no LMON edge, counts a miss and sets LMON_MISS after MISS_LIMIT consecutive misses. -/
  | lmonMiss (ch : Chan)
  /-- HEAD_TEMP_READING (R73): A valid head-temperature reading arrives and the launch fraction D is recomputed. -/
  | headTempReading (h : Head) (t : Int)
  /-- HEAD_TEMP_STALE (R73): STALE × 100 ms pass since the last valid reading, D goes to 0 and FAULT.STALE sets. -/
  | headTempStale (h : Head)
  /-- CAL_GO (R89): A write of 1 to CAL_GO arms a calibration slot for the next period, or is refused with cause BUSY. -/
  | calGo (q : Req) (ch : Chan)
  /-- CAL_SLOT_START (R89): At t_cal the masked lanes are switched to the injector and marked invalid. -/
  | calSlotStart (ch : Chan)
  /-- CAL_SLOT_END (R89): At t_cal + 56 + r × LEN the lanes reconnect, sums become readable and CAL_DONE sets. -/
  | calSlotEnd (ch : Chan) (raw : ChCodes)
  /-- SCHED_ENABLE (R93): A write of CFG.EN to 1 starts the scheduler, with the first boundary 256 ticks after EN is seen. -/
  | schedEnable (q : Req) (h : Head)
  /-- SCHED_LAST_PERIOD_END (R93): After EN goes to 0 the period in progress ends, the lanes close it and sampling continues until open trace windows close. -/
  | schedLastPeriodEnd (h : Head) (raw : List ChCodes)
  /-- FOLLOW_LOST (R99): The leader's EN goes to 0, the follower runs FREE and FOLLOW_LOST sets. -/
  | followLost (h : Head)
  /-- LOCAL_SECOND (R100): The local seconds field advances and each PPS-mode scheduler forms e and lengthens, shortens or enters ALIGN_WAIT. -/
  | localSecond (e0 e1 e2 e3 : Int)
  /-- ALIGN_WAIT_END (R100): The lengthened period ends at second + OFFSET and boundaries resume. -/
  | alignWaitEnd (h : Head)
  /-- SHOT_CAPTURE (R96): A write of 1 to CAPTURE copies the index and stamp of the most recent boundary into CAP_IDX and CAP_TS. -/
  | shotCapture (q : Req) (h : Head)
  /-- OCXO_CHECK_START (R102): The frequency check starts once REQ, ALLOW_OCXO, OCXO_RDY and REFIN presence all hold. -/
  | ocxoCheckStart (rdy refin : Bool)
  /-- OCXO_CHECK_DONE (R102): After 2 s of counting the checker writes FCHECK and either schedules the switch or sets CHECK_FAIL. -/
  | ocxoCheckDone (count : Nat)
  /-- OCXO_LOSS (R103): OCXO_RDY falls or REFIN ceases to be present, the PLL enters holdover and REF_LOSS sets. -/
  | ocxoLoss (rdy refin : Bool)
  /-- SOURCE_SWITCH_TIMEOUT (R104): A switch forced by loss is made at the 1 ms bound when no boundary came first. -/
  | sourceSwitchTimeout
  /-- REF_PLL_UNLOCK (R101): The REF PLL loses lock and FAULT.PLL_UNLOCK sets. -/
  | refPllUnlock
  /-- TIME_STEP_COMMIT (R108): A HI write of STEP adds the signed step to local time, raises TIME_STEP and sends PPS heads to ALIGN_WAIT. -/
  | timeStepCommit (q : Req) (v : W32)
  /-- TDC_EDGE (R114): An edge reaching a start or stop vernier is measured if first, counted in EXTRA, or ignored in hold-off. -/
  | tdcEdge (u : Unit40) (stop : Bool) (e ofs : Nat)
  /-- TDC_COMPLETE (R114): A unit completes 100 ns after its later first edge, forms the interval and flags, updates RESULT and raises attention. -/
  | tdcComplete (u : Unit40)
  /-- TDC_WINDOW_END (R111): The unit's window ends before start and stop are both seen, giving a TIMEOUT result. -/
  | tdcWindowEnd (u : Unit40)
  /-- TDC_ARM_GO (R117): A write of 1 to ARMu.GO arms a general unit or releases its hold. -/
  | tdcArmGo (q : Req) (u : Unit40)
  /-- TDC_DISARM (R118): A write of 1 to ARMu.DISARM closes an empty window and holds the general unit. -/
  | tdcDisarm (q : Req) (u : Unit40)
  /-- TDC_REARM (R117): A CONTINUOUS unit re-arms 100 ns after each completion. -/
  | tdcRearm (u : Unit40)
  /-- TIN_EDGE (R119): An edge on a TIN pin kept by its glitch filter reaches its TDC, gated arming or injected trigger. -/
  | tinEdge (pin : Fin 8) (rise : Bool) (e ofs : Nat)
  /-- TDC_LOOPS_LOCKED (R113): The TDC slow and fast loops lock after reset or EN, and SLOW_LOCK and FAST_LOCK read 1. -/
  | tdcLoopsLocked
  /-- TDC_UNLOCK (R113): A TDC loop loses lock while EN is 1 and FAULT.UNLOCK sets. -/
  | tdcUnlock (slow fast : Bool)
  /-- TDC_LATE (R126): The engine's input buffer reaches 8,192 samples with no TDC result, so the held q is used and TDC_LATE sets. -/
  | tdcLate (ch : Chan)
  /-- REPLICA_DONE (R130): Formation of the replica spectrum completes and REPLICA_BUSY falls. -/
  | replicaDone (ch : Chan)
  /-- TRACE_WINDOW_END (R123): The last trace window of a launched shot closes and the engine can write the record's gauge words. -/
  | traceWindowEnd (ch : Chan) (raw : ChCodes)
  /-- RECORD_COMPLETE (R136): The compression engine finishes writing a shot record into the cluster ring, or discards it when the ring is full. -/
  | recordComplete (ch : Chan)
  /-- OUT_RP_WRITE (R135): A write of OUT_RP frees consumed ring words or is refused with cause RANGE. -/
  | outRpWrite (q : Req) (ch : Chan) (v : W32)
  /-- FLUSH_DONE (R140): A totals flush completes its last bin write and FLUSH_SEQ becomes even. -/
  | flushDone (ch : Chan)
  /-- TOT_CLEAR (R142): A write of 1 to TOT_CLEAR makes the next flush replace the totals. -/
  | totClear (q : Req) (ch : Chan)
  /-- PHASE_RECORD (R149): The PHASE role takes an engine record whole and forms the combined increments and amplitudes of every row. -/
  | phaseRecord (ch : Chan)
  /-- UNWRAP_SHOT (R150): The UNWRAP role updates phase and quality of each gauge and row and forms the PHASE4 frame. -/
  | unwrapShot (ch : Chan)
  /-- HEADER_RING_CLEAR (R165): The chain zeroes the history header ring when HIST_EN goes to 1 or W changes. -/
  | headerRingClear (ch : Chan)
  /-- BAND_SAMPLE (R158): BAND takes one output sample of each gauge, rebuilds its increment and filters it through every enabled band. -/
  | bandSample (ch : Chan)
  /-- BAND_FRAME_END (R159): At the end of a band frame BAND forms the energies and writes the band frame. -/
  | bandFrameEnd (ch : Chan)
  /-- DTS_FLUSH_READ (R170): DTS acts at a completed flush, reads the totals and forms a window frame when enough batches are gathered. -/
  | dtsFlushRead (ch : Chan)
  /-- FUSE_SHOT (R183): FUSE takes row 0 of a PHASE4 frame and accumulates increments of each fused gauge. -/
  | fuseShot (ch : Chan)
  /-- FUSE_FRAME_END (R185): At a fused frame end FUSE forms the drift, the fused temperatures and any anchor update and writes the frame. -/
  | fuseFrameEnd (ch : Chan)
  /-- CORE_COMMIT (R210): The COMMIT command gives a core its role, advances EPOCH, clears registers and runs it from ENTRY. -/
  | coreCommit (q : Req) (c : Core) (role : BitVec 4)
  /-- CORE_HALT (R210): The HALT command stops a running core at its next instruction boundary. -/
  | coreHalt (q : Req) (c : Core)
  /-- CORE_RUN (R210): The RUN command resumes a halted core from PC. -/
  | coreRun (q : Req) (c : Core)
  /-- CORE_RELEASE (R210): The RELEASE command frees a halted or faulted core, advancing EPOCH and flushing its inbox. -/
  | coreRelease (q : Req) (c : Core)
  /-- VENDOR_RELOAD (R213): The control processor reloads every vendor role of a cluster after a vendor core faults. -/
  | vendorReload (c : Core)
  /-- ASSIGN_WRITE (R218): A write of CL ASSIGN changes the served channel or is refused with cause BUSY or RANGE. -/
  | assignWrite (q : Req) (cl : Clus) (v : W32)
  /-- MESSAGE_ARRIVE (R216): A message reaches its destination check and is appended to the inbox or bounced. -/
  | messageArrive (i : Nat)
  /-- MESSAGE_BOUNCE (R216): A bounced message reaches the sender's BOUNCE queue, or is dropped with BLOST. -/
  | messageBounce (i : Nat)
  /-- HOST_SEND (R217): A write to HOST_SEND sends the staged host message to a core of the cluster. -/
  | hostSend (q : Req) (cl : Clus)
  /-- HOST_OUT_POP (R217): A write to HOST_OUT_POP removes the head of HOST_OUT. -/
  | hostOutPop (q : Req) (cl : Clus)
  /-- HOST_BNC_POP (R217): A write to HOST_BNC_POP removes the head of HOST_BOUNCE. -/
  | hostBncPop (q : Req) (cl : Clus)
  /-- DSP_DOMAIN_GATED (R194): A DSP domain is gated, its cores go FREE with EPOCH advanced and their inbox messages bounce. -/
  | dspDomainGated (b : Bool)
  /-- NOP (R231): Instruction NOP does nothing in the compute slot. -/
  | nop (c : Core) (f : FormR) (x y : MoveF)
  /-- MOV (R232): Instruction MOV copies a whole word. -/
  | mov (c : Core) (f : FormR) (x y : MoveF)
  /-- ADD (R232): Instruction ADD adds with wrap and sets ZNVC. -/
  | add (c : Core) (f : FormR) (x y : MoveF)
  /-- ADDS (R232): Instruction ADDS adds with saturation. -/
  | adds (c : Core) (f : FormR) (x y : MoveF)
  /-- SUB (R232): Instruction SUB subtracts with wrap and sets ZNVC. -/
  | sub (c : Core) (f : FormR) (x y : MoveF)
  /-- SUBS (R232): Instruction SUBS subtracts with saturation. -/
  | subs (c : Core) (f : FormR) (x y : MoveF)
  /-- CMP (R232): Instruction CMP sets flags as SUB without writing a result. -/
  | cmp (c : Core) (f : FormR) (x y : MoveF)
  /-- NEG (R232): Instruction NEG negates with saturation. -/
  | neg (c : Core) (f : FormR) (x y : MoveF)
  /-- ABS (R232): Instruction ABS forms the saturated magnitude. -/
  | abs (c : Core) (f : FormR) (x y : MoveF)
  /-- MIN (R232): Instruction MIN takes the signed minimum. -/
  | min (c : Core) (f : FormR) (x y : MoveF)
  /-- MAX (R232): Instruction MAX takes the signed maximum. -/
  | max (c : Core) (f : FormR) (x y : MoveF)
  /-- AND (R232): Instruction AND forms a bitwise and. -/
  | and (c : Core) (f : FormR) (x y : MoveF)
  /-- OR (R232): Instruction OR forms a bitwise or. -/
  | or (c : Core) (f : FormR) (x y : MoveF)
  /-- XOR (R232): Instruction XOR forms a bitwise exclusive or. -/
  | xor (c : Core) (f : FormR) (x y : MoveF)
  /-- ANDN (R232): Instruction ANDN forms a and not b. -/
  | andn (c : Core) (f : FormR) (x y : MoveF)
  /-- MULL (R232): Instruction MULL multiplies whole words with wrap. -/
  | mull (c : Core) (f : FormR) (x y : MoveF)
  /-- DIVR (R232): Blocking instruction DIVR divides with rounding to nearest. -/
  | divr (c : Core) (f : FormR) (x y : MoveF)
  /-- LNQ (R232): Blocking instruction LNQ forms 2^24 ln(x). -/
  | lnq (c : Core) (f : FormR) (x y : MoveF)
  /-- MRS (R234): Instruction MRS copies a special register to a G register. -/
  | mrs (c : Core) (f : FormK) (x y : MoveF)
  /-- MSR (R234): Instruction MSR copies a G register to a special register. -/
  | msr (c : Core) (f : FormK) (x y : MoveF)
  /-- CADD (R233): Instruction CADD adds complex values with saturation. -/
  | cadd (c : Core) (f : FormR) (x y : MoveF)
  /-- CSUB (R233): Instruction CSUB subtracts complex values with saturation. -/
  | csub (c : Core) (f : FormR) (x y : MoveF)
  /-- CNEG (R233): Instruction CNEG negates both parts. -/
  | cneg (c : Core) (f : FormR) (x y : MoveF)
  /-- CONJ (R233): Instruction CONJ negates the imaginary part. -/
  | conj (c : Core) (f : FormR) (x y : MoveF)
  /-- CSWP (R233): Instruction CSWP swaps real and imaginary parts. -/
  | cswp (c : Core) (f : FormR) (x y : MoveF)
  /-- CMUL (R236): Instruction CMUL forms a rounded complex product of the selected kind. -/
  | cmul (c : Core) (f : FormR) (x y : MoveF)
  /-- CMAC (R236): Instruction CMAC accumulates an exact complex product into an accumulator with guard-overflow handling. -/
  | cmac (c : Core) (f : FormR) (x y : MoveF)
  /-- EXTC (R237): Instruction EXTC extracts both accumulator parts to a CQ36 word. -/
  | extc (c : Core) (f : FormK) (x y : MoveF)
  /-- EXTR (R237): Instruction EXTR extracts the real accumulator part to a whole word. -/
  | extr (c : Core) (f : FormK) (x y : MoveF)
  /-- EXTI (R237): Instruction EXTI extracts the imaginary accumulator part to a whole word. -/
  | exti (c : Core) (f : FormK) (x y : MoveF)
  /-- LDA (R237): Instruction LDA loads an accumulator from a G register shifted by K. -/
  | lda (c : Core) (f : FormK) (x y : MoveF)
  /-- ACLR (R237): Instruction ACLR clears an accumulator. -/
  | aclr (c : Core) (f : FormR) (x y : MoveF)
  /-- AMOV (R237): Instruction AMOV copies one accumulator to another. -/
  | amov (c : Core) (f : FormR) (x y : MoveF)
  /-- BFLY (R238): Instruction BFLY performs a scaled radix-2 butterfly and optionally updates BEXP.D. -/
  | bfly (c : Core) (f : FormR) (x y : MoveF)
  /-- STGEND (R239): Instruction STGEND performs the stage-end block-exponent update. -/
  | stgend (c : Core) (f : FormR) (x y : MoveF)
  /-- ANG (R240): Instruction ANG forms the phase angle of a complex value. -/
  | ang (c : Core) (f : FormR) (x y : MoveF)
  /-- MAG (R240): Instruction MAG forms the magnitude of a complex value. -/
  | mag (c : Core) (f : FormR) (x y : MoveF)
  /-- CIS (R240): Instruction CIS looks up cos_tab and sin_tab of a phase. -/
  | cis (c : Core) (f : FormR) (x y : MoveF)
  /-- ROT (R240): Instruction ROT rotates a complex value by a phase. -/
  | rot (c : Core) (f : FormR) (x y : MoveF)
  /-- UNW (R240): Instruction UNW forms the unwrapped step nearest the predictor. -/
  | unw (c : Core) (f : FormR) (x y : MoveF)
  /-- ASR (R241): Instruction ASR shifts right arithmetically. -/
  | asr (c : Core) (f : FormK) (x y : MoveF)
  /-- LSR (R241): Instruction LSR shifts right logically. -/
  | lsr (c : Core) (f : FormK) (x y : MoveF)
  /-- RNE (R241): Instruction RNE shifts right with rounding to nearest even. -/
  | rne (c : Core) (f : FormK) (x y : MoveF)
  /-- SHL (R241): Instruction SHL shifts left with saturation. -/
  | shl (c : Core) (f : FormK) (x y : MoveF)
  /-- SHLW (R241): Instruction SHLW shifts left with wrap. -/
  | shlw (c : Core) (f : FormK) (x y : MoveF)
  /-- SAT (R241): Instruction SAT saturates to a signed width. -/
  | sat (c : Core) (f : FormK) (x y : MoveF)
  /-- SATU (R241): Instruction SATU saturates to an unsigned width. -/
  | satu (c : Core) (f : FormK) (x y : MoveF)
  /-- WRAP (R241): Instruction WRAP wraps to a signed width. -/
  | wrap (c : Core) (f : FormK) (x y : MoveF)
  /-- CASR (R241): Instruction CASR shifts both complex parts right arithmetically. -/
  | casr (c : Core) (f : FormK) (x y : MoveF)
  /-- CRNE (R241): Instruction CRNE shifts both complex parts right with rounding. -/
  | crne (c : Core) (f : FormK) (x y : MoveF)
  /-- CSHL (R241): Instruction CSHL shifts both complex parts left with saturation. -/
  | cshl (c : Core) (f : FormK) (x y : MoveF)
  /-- BITS (R241): Instruction BITS extracts a bit field. -/
  | bits (c : Core) (f : FormF) (x y : MoveF)
  /-- INS (R241): Instruction INS inserts a bit field. -/
  | ins (c : Core) (f : FormF) (x y : MoveF)
  /-- CLS (R241): Instruction CLS counts leading sign bits. -/
  | cls (c : Core) (f : FormR) (x y : MoveF)
  /-- MOVE_LD (R226): Move slot LD loads a word from own memory, shared SRAM or port space into a G register. -/
  | moveLd (c : Core) (ySlot : Bool) (space : BitVec 2) (ptr : BitVec 3) (pm : Bool) (greg : BitVec 4)
  /-- MOVE_ST (R226): Move slot ST stores a G register to own memory, shared SRAM or port space. -/
  | moveSt (c : Core) (ySlot : Bool) (space : BitVec 2) (ptr : BitVec 3) (pm : Bool) (greg : BitVec 4)
  /-- MOVE_STD (R226): Move slot STD stores with block-exponent detect. -/
  | moveStd (c : Core) (ySlot : Bool) (space : BitVec 2) (ptr : BitVec 3) (pm : Bool) (greg : BitVec 4)
  /-- MOVE_MODIFY (R226): Move slot MODIFY only post-modifies its pointer. -/
  | moveModify (c : Core) (ySlot : Bool) (ptr : BitVec 3)
  /-- BR (R244): Instruction BR branches to TARGET when COND holds, popping loops. -/
  | br (c : Core) (cond : BitVec 4) (target : BitVec 11) (popn : BitVec 2)
  /-- CALL (R244): Instruction CALL saves the return address and goes to TARGET. -/
  | call (c : Core) (d : BitVec 4) (target : BitVec 11)
  /-- JMP (R244): Instruction JMP branches to the address in a G register when COND holds. -/
  | jmp (c : Core) (cond : BitVec 4) (a : BitVec 4) (popn : BitVec 2)
  /-- LOOP (R245): Instruction LOOP starts a hardware loop over the body to END. -/
  | loop (c : Core) (rc : Bool) (a : BitVec 4) (count : BitVec 16) (fin : BitVec 11)
  /-- HALT (R246): Instruction HALT takes the core to HALTED after earlier instructions complete. -/
  | halt (c : Core)
  /-- SEND (R246): Instruction SEND puts a four-word message into the send buffer for the fabric. -/
  | send (c : Core) (reg : BitVec 4)
  /-- RECV (R246): Instruction RECV takes the oldest inbox message or reports empty. -/
  | recv (c : Core) (reg : BitVec 4) (wait : Bool)
  /-- RBNC (R246): Instruction RBNC takes the oldest BOUNCE queue message or reports empty. -/
  | rbnc (c : Core) (reg : BitVec 4) (wait : Bool)
  /-- DBELL (R246): Instruction DBELL raises the core's doorbell vector. -/
  | dbell (c : Core)
  /-- LIG (R247): Immediate LIG loads a sign-extended 56-bit constant. -/
  | lig (c : Core) (reg : BitVec 4) (imm : BitVec 56)
  /-- LIH (R247): Immediate LIH loads bits [71:56] of a G register. -/
  | lih (c : Core) (reg : BitVec 4) (imm : BitVec 16)
  /-- LIS (R247): Immediate LIS loads a special register. -/
  | lis (c : Core) (sr : BitVec 7) (imm : BitVec 18)
  /-- ZONE_ENABLE (R254): A write of word 0 with EN 1 checks and enables a disabled zone in NORMAL. -/
  | zoneEnable (q : Req) (z : Zone) (v : W32)
  /-- ZONE_DISABLE (R270): A write of word 0 with EN 0 disables the zone, withdraws its requests and resets it to NORMAL. -/
  | zoneDisable (q : Req) (z : Zone) (v : W32)
  /-- ZONE_EVALUATE (R258): A frame of the zone's source is reduced to a measure and the zone's state machine steps. -/
  | zoneEvaluate (z : Zone)
  /-- ZONE_INPUT_WRITE (R264): An accepted write of sub-index 0x0B evaluates an INPUT zone. -/
  | zoneInputWrite (z : Zone) (v : Int)
  /-- ZONE_INPUT_TICK (R258): At each 100 ms tick an INPUT zone's time since its last write is checked against VOID_LIMIT. -/
  | zoneInputTick
  /-- REMOTE_WRITE_TIMEOUT (R263): No acknowledgement arrives within TIMEOUT, so the WRITE is sent again or fails with REM_FAIL. -/
  | remoteWriteTimeout (z : Zone)
  /-- REMOTE_WRITE_ACK (R263): The acknowledgement of a zone's remote WRITE arrives. -/
  | remoteWriteAck (z : Zone) (abort : W32)
  /-- REMOTE_REFRESH (R263): The REFRESH period expires and the current value is sent again. -/
  | remoteRefresh (z : Zone)
  /-- CAPTURE_SHOT_COPY (R266): A later shot's ring slot completes and is copied into the capture slot. -/
  | captureShotCopy (k : Fin 64)
  /-- CAPTURE_DONE (R266): The last shot of a capture is copied, CSTATE is written and CAP_DONE or CAP_TORN is queued. -/
  | captureDone (k : Fin 64)
  /-- CAP_FREE (R265): A write of CAP_FREE releases a capture slot, or is refused with cause BUSY. -/
  | capFree (q : Req) (v : W32)
  /-- EVQ_POP (R268): A write to EVQ_POP removes the head record of the event queue. -/
  | evqPop (q : Req)
  /-- DRAM_READ (R275): A read request is served by a memory controller and checked, corrected or poisoned by its ECC. -/
  | dramRead (a : Nat) (flip : BitVec 80)
  /-- DRAM_WRITE (R276): A write request is stored with its check bits, or with poisoned check bits. -/
  | dramWrite (a : Nat) (v : W72) (poison : Bool)
  /-- ROW_TIMEOUT (R283): A row left open is closed after PAGE.TIMEOUT cycles without access. -/
  | rowTimeout (m : Mc) (bank : Nat)
  /-- REFRESH_DUE (R287): tREFI expires and a REF is issued or postponed. -/
  | refreshDue (m : Mc) (rank : Bool) (queued : Bool)
  /-- RETRY_RETIRE (R285): A command retires from the retry buffer 32 MCLK cycles after issue with no alert. -/
  | retryRetire (m : Mc)
  /-- ALERT_N_FALL (R285): ALERT_n falls, the controller stops issuing and classes the alert by pulse length. -/
  | alertNFall (m : Mc)
  /-- CA_REPLAY (R285): After parity recovery the controller precharges and replays every unretired command. -/
  | caReplay (m : Mc)
  /-- TRAIN_GO (R289): A write of 1 to TRAIN_CTRL.GO starts full training. -/
  | trainGo (q : Req) (m : Mc)
  /-- TRAINING_DONE (R290): Training passes or stops at a failing step, recording TRAIN_STAT. -/
  | trainingDone (m : Mc) (r : TrainResult)
  /-- PERIODIC_TRAIN (R290): Every 128 ms steps ZQ and RG repeat inside a refresh slot. -/
  | periodicTrain (m : Mc) (r : TrainResult)
  /-- FREQ_GO (R292): A write of 1 to FREQ_CTRL.GO requests a change of timing set. -/
  | freqGo (q : Req) (m : Mc)
  /-- FREQ_CHANGE_SRE (R293): Once queues drain the controller issues SRE, hands over the shadow sets and stops the memory clock. -/
  | freqChangeSre (e : McEdge)
  /-- MEM_PLL_RELOCK (R293): The memory PLL relocks at the new rate, SRX is issued and mode registers are rewritten before training. -/
  | memPllRelock (m : Mc)
  /-- FREQ_CHANGE_DONE (R293): Training at the new rate passes, held requests resume and RESULT becomes DONE. -/
  | freqChangeDone (m : Mc) (r : TrainResult)
  /-- FREQ_CHANGE_RETURN (R294): Training at the new rate fails and the controller returns to the old set by another self-refresh. -/
  | freqChangeReturn (e : McEdge) (rgOk : Bool) (r : TrainResult)
  /-- IDLE_SELF_REFRESH (R295): A rank idle for IDLE_TIME enters self-refresh. -/
  | idleSelfRefresh (e : McEdge) (k : RankRest)
  /-- SELF_REFRESH_EXIT (R296): A request to a rank in self-refresh causes exit once tCKESR is met. -/
  | selfRefreshExit (m : Mc) (rank : Bool)
  /-- RGN_ENABLE (R299): A write of a region's EN is checked and enables or disables the region. -/
  | rgnEnable (q : Req) (k : Fin 16) (v : W32)
  /-- DMA_GO (R304): A write of CTRL.GO starts an idle channel's chain at the shadow LINK. -/
  | dmaGo (q : Req) (e : DmaEdge)
  /-- DMA_STOP (R305): A write of CTRL.STOP stops the channel at its next boundary or at once while waiting. -/
  | dmaStop (q : Req) (n : Fin 64)
  /-- DMA_BURST (R306): A granted channel moves one burst of words, waiting for a paced request if needed. -/
  | dmaBurst (n : Fin 64) (request : Bool) (host : List Byte) (fail : Bool)
  /-- DESC_COMPLETE (R308): A descriptor's writes have all been issued, DONE_CNT and LAST_TAG update and the vector may be raised. -/
  | descComplete (e : DmaEdge)
  /-- BAR2_READ (R317): A read through BAR2 returns packed DRAM bytes, marked poisoned where needed. -/
  | bar2Read (byte len : Nat)
  /-- BAR2_WRITE (R317): A write through BAR2 writes whole words or performs a read-modify-write. -/
  | bar2Write (byte : Nat) (data : List Byte)
  /-- EXPORT_POP (R319): A write to Q[v].POP removes the head entry of an export queue. -/
  | exportPop (q : Req) (v : Fin 128)
  /-- ATTN_EVENT (R321): An event of a vector is counted by moderation and raises the vector when COUNT is reached. -/
  | attnEvent (v : Vec)
  /-- MODERATION_TIMEOUT (R321): TIME µs pass since the first counted event and the vector raises. -/
  | moderationTimeout (v : Vec)
  /-- MSIX_UNMASK (R322): A vector is unmasked with Bus Master Enable at 1 and one held message is sent. -/
  | msixUnmask (v : Vec)
  /-- LAMP_FRAME_START (R331): At t_frame the port snapshots its buffer half, forms effective codes and asserts its DMA request. -/
  | lampFrameStart (p : Port4)
  /-- LAMP_SHIFT_DONE (R336): The last bit of a Sloe frame is sampled, the marker is checked and LE is raised or withheld. -/
  | lampShiftDone (p : Port4) (marker : W32) (slots : List (BitVec 16))
  /-- LAMP_FRAME_END (R337): LE falls, FRAME_CNT advances, FRAME_STAT sets and received status is accepted. -/
  | lampFrameEnd (p : Port4)
  /-- PSYNC (R337): A PWM period starts and PSYNC is high for 40 ticks. -/
  | psync (p : Port4)
  /-- BUS_REPLY (R339): A broadcast-bus POLL reply is received and checked. -/
  | busReply (p : Port4) (m : Nat) (bytes : List Byte)
  /-- BUS_REPLY_TIMEOUT (R339): A POLL reply does not begin or end in time and is discarded with FAULT.BUS. -/
  | busReplyTimeout (p : Port4) (m : Nat)
  /-- MATRIX_PLANE (R341): A plane period ends and the port blanks, latches the next word, selects its row and unblanks. -/
  | matrixPlane (p : Port4)
  /-- EMERG_BLANK_SET (R346): A window write sets a BLANK bit and the port blanks its field within 1 µs. -/
  | emergBlankSet (q : Req) (p : Port4)
  /-- EMERG_BLANK_CLEAR (R346): A window write clears a BLANK bit and the port releases blanking at its next frame. -/
  | emergBlankClear (q : Req) (p : Port4)
  /-- TH_STALE_EXPIRE (R333): A thermistor slot's reading becomes stale and FAULT.TH_STALE sets. -/
  | thStaleExpire (k : Fin 16)
  /-- PADC_PASS_START (R354): A PADC pass starts at PERIOD or after the previous pass. -/
  | padcPassStart (overrun : Bool)
  /-- PADC_OUTPUT (R353): A conversion completes, is corrected and averaged, and is written to the PADC ring. -/
  | padcOutput (xr : PadcSample)
  /-- PADC_RESULT_CONVERT (R359): The control processor converts a slot result to its physical value and delivers it to the destination. -/
  | padcResultConvert (k : Fin 16)
  /-- PADC_OPEN_DETECT (R357): A compliance comparator trips, the slot ends with an OPEN result. -/
  | padcOpenDetect
  /-- PADC_OPEN_RETRY_TIMEOUT (R357): Compliance does not hold within 1 ms of entry and another OPEN result is delivered. -/
  | padcOpenRetryTimeout
  /-- BURNOUT_TEST (R358): Requested burn-out tests run in the idle and each sets or clears its BO_RESULT bit. -/
  | burnoutTest (xs : List (Nat × Int))
  /-- HADC_REG_GO (R366): A write of REG_GO triggers a regular HADC pass. -/
  | hadcRegGo (q : Req)
  /-- HADC_REG_TIMER (R366): The REG_PERIOD timer expires and triggers a regular pass. -/
  | hadcRegTimer
  /-- HADC_INJ_GO (R367): A write of INJ_GO triggers the injected sequence. -/
  | hadcInjGo (q : Req)
  /-- HADC_INJ_TRIGGER (R367): A TIN, HEADOK-trip or t_shot trigger makes the injected sequence pending. -/
  | hadcInjTrigger (src : InjSrc)
  /-- HADC_CONVERSION_DONE (R367): An HADC conversion completes and the next is chosen by priority. -/
  | hadcConversionDone (rw : Nat)
  /-- REF_SETTLED (R364): The HADC reference settling time expires and REF_SETTLED reads 1. -/
  | refSettled
  /-- LOOP_TARGET_UPDATE (R369): A change of a loop's inputs forms a new TARGET and DAC code. -/
  | loopTargetUpdate (n : Fin 8)
  /-- LOOP_READBACK (R368): Every 100 µs the readback converter measures the loop current. -/
  | loopReadback (n : Fin 8) (ua : Nat)
  /-- LOOP_HOST_TIMEOUT (R370): VALUE is not written for HOST_TMO and the loop fails. -/
  | loopHostTimeout (n : Fin 8)
  /-- LOOP_MISMATCH (R370): Readback differs from TARGET for 10 ms and the loop fails with MISMATCH. -/
  | loopMismatch (n : Fin 8)
  /-- LOOP_OPEN (R371): DRV stays at its limit for 1 ms and the loop is open. -/
  | loopOpen (n : Fin 8)
  /-- QUINCE_TEMP_READ (R375): Every TEMP_CFG.PERIOD Quince reads the on-die sensors and marks due steps. -/
  | quinceTempRead (ms : Nat)
  /-- LANE_STEP_START (R378): A due LANE step places its slots in the natural gap and pre-checks the quiet measurement. -/
  | laneStepStart (ch : Chan)
  /-- LANE_STEP_SLOT_RESULT (R380): After each slot Quince post-checks quietness and forms offset, gain and skew measurements. -/
  | laneStepSlotResult (e : SlotEdge)
  /-- IQ_ACCUM_DONE (R384): An IQ accumulation of IQ_SHOTS shots ends and Quince forms or installs the matrix. -/
  | iqAccumDone (ch : Chan) (sx sy : IqSums)
  /-- PADC_CAL_STEP (R385): In a PADC idle Quince measures ZERO and REF34 for a gain code and installs OFS and GC. -/
  | padcCalStep (g : Fin 8) (zeroA refA zeroB refB : List Int)
  /-- MATCH_STEP (R386): In a PADC idle Quince measures each current source and updates its trim. -/
  | matchStep (va vb : List Int)
  /-- CAL_STORE (R388): Quince writes the calibration slot not in force with a new SEQ. -/
  | calStore (ok : Bool)
  /-- CAL_GO_ALL (R376): A write of GO.ALL marks every calibration step due. -/
  | calGoAll (q : Req)
  /-- CAL_GO_PADC (R376): A write of GO.PADC marks the PADC step due. -/
  | calGoPadc (q : Req)
  /-- CAL_GO_MATCH (R376): A write of GO.MATCH marks the MATCH step due. -/
  | calGoMatch (q : Req)
  /-- CAL_GO_STORE (R376): A write of GO.STORE marks a STORE due. -/
  | calGoStore (q : Req)
  /-- LANE_REQ (R376): A write of a LANE_REQ bit makes the channel's LANE step due. -/
  | laneReq (q : Req) (ch : Chan)
  /-- DICT_READ (R407): A READ request returns an entry's value or an abort code. -/
  | dictRead (p : Path) (idx : BitVec 16) (sub : Byte) (ofs : Nat)
  /-- DICT_WRITE (R395): A WRITE request sets an entry or is refused with an abort code. -/
  | dictWrite (p : Path) (idx : BitVec 16) (sub : Byte) (ty : Byte) (ofs : Nat) (more : Bool) (data : List Byte)
  /-- STORE (R398): A STORE snapshots every RWS entry and commits it to the configuration store. -/
  | store (p : Path) (ok : Bool)
  /-- RESTORE_DEFAULTS (R399): A write of the restore signature marks the stored set for replacement by defaults at the next boot. -/
  | restoreDefaults (p : Path) (sig : W32)
  /-- SUBSCRIBE_ADD (R408): SUBSCRIBE op 1 adds vectors to the session's subscriptions. -/
  | subscribeAdd (i : Fin 16) (lease : Nat) (vs : List Nat)
  /-- SUBSCRIBE_REMOVE (R408): SUBSCRIBE op 2 removes vectors from the session's subscriptions. -/
  | subscribeRemove (i : Fin 16) (vs : List Nat)
  /-- SUBSCRIBE_CLEAR (R408): SUBSCRIBE op 3 clears the session's subscriptions. -/
  | subscribeClear (i : Fin 16)
  /-- SUBSCRIPTION_LEASE_EXPIRE (R408): A subscription's lease runs out and it is removed. -/
  | subscriptionLeaseExpire (i : Fin 16) (v : Nat)
  /-- YARFEL_FRAME_RX (R402): A received Yarfel datagram is verified for tag and SEQ and dispatched or dropped. -/
  | yarfelFrameRx (ip : IpAddr) (bytes : List Byte)
  /-- SESSION_OPEN (R405): An OPEN frame is answered with a CHALLENGE and a new session identifier. -/
  | sessionOpen (ip : IpAddr) (client : BitVec 16) (role : Byte) (nonce : List Byte)
  /-- SESSION_CONFIRM (R405): A verified CONFIRM opens the session. -/
  | sessionConfirm (f : ConfirmAt) (verified : Bool)
  /-- SESSION_CONFIRM_TIMEOUT (R405): No CONFIRM arrives within 2 s and the pending session is discarded. -/
  | sessionConfirmTimeout (i : Fin 16)
  /-- SESSION_IDLE_TIMEOUT (R405): A session closes after its idle time without a verified frame. -/
  | sessionIdleTimeout (i : Fin 16)
  /-- BROADCAST_WRITE (R403): A broadcast WRITE under the estate key is applied to OPERATOR entries without reply. -/
  | broadcastWrite (src : BitVec 16) (seq : W32) (idx : BitVec 16) (sub : Byte) (ty : Byte) (data : List Byte)
  /-- LOCAL_GO (R420): A write of LOCAL_GO runs the request in LOCAL_BUF and writes the reply. -/
  | localGo (q : Req)
  /-- PTP_MESSAGE_RX (R411): A PTP message is received and the port state machine and servo act on it. -/
  | ptpMessageRx (n : Port2) (m : PtpMsg)
  /-- PTP_ANNOUNCE_INTERVAL (R412): The announce interval expires, Announce is sent and new PTP settings take effect. -/
  | ptpAnnounceInterval (n : Port2)
  /-- PTP_ANNOUNCE_TIMEOUT (R410): No Announce arrives within ANNOUNCE_TMO intervals and the port state changes. -/
  | ptpAnnounceTimeout (n : Port2)
  /-- PTP_SYNC_INTERVAL (R410): The Sync interval expires and a master port sends Sync and Follow_Up. -/
  | ptpSyncInterval (n : Port2)
  /-- NMT_START (R414): NMT command 0x01 makes the node operational. -/
  | nmtStart (c : Port2) (node : Byte)
  /-- NMT_STOP (R414): NMT command 0x02 stops the node. -/
  | nmtStop (c : Port2) (node : Byte)
  /-- NMT_PRE_OPERATIONAL (R414): NMT command 0x80 makes the node pre-operational. -/
  | nmtPreOperational (c : Port2) (node : Byte)
  /-- NMT_RESET_COMMUNICATION (R414): NMT command 0x82, or 0x81, resets PDO, SDO and heartbeat state and sends boot-up. -/
  | nmtResetCommunication (c : Port2) (node : Byte)
  /-- SDO_REQUEST (R414): An SDO request frame is served as expedited or segmented access, or aborted. -/
  | sdoRequest (c : Port2) (data : List Byte)
  /-- HEARTBEAT_PRODUCE (R414): The heartbeat producer time expires and the state byte is sent. -/
  | heartbeatProduce (c : Port2)
  /-- HEARTBEAT_LOSS (R414): A consumed node's heartbeat time expires, HB_LOSS sets and vector 235 raises. -/
  | heartbeatLoss (c : Port2) (node : BitVec 7)
  /-- TPDO_TRANSMIT (R416): A requested TPDO is sampled and sent once its inhibit time allows. -/
  | tpdoTransmit (c : Port2) (t : Fin 8)
  /-- TPDO_EVENT_TIMER (R416): A TPDO's event timer expires and requests a transmission. -/
  | tpdoEventTimer (c : Port2) (t : Fin 8)
  /-- RPDO_RECEIVE (R417): An RPDO frame is received and its mapped entries are written. -/
  | rpdoReceive (c : Port2) (r : Fin 4) (data : List Byte)
  /-- CAN_RX_FRAME (R418): A frame consumed by no service and passing a filter enters the receive queue and requests DMA. -/
  | canRxFrame (c : Port2) (f : CanFrame)
  /-- CAN_BUS_OFF (R422): A CAN port enters bus-off and BUS_OFF sets. -/
  | canBusOff (c : Port2)
  /-- CAN_BUS_OFF_RECOVERY (R422): With AUTO_REC, 128 × 11 recessive bits pass and the port leaves bus-off. -/
  | canBusOffRecovery (c : Port2)
  /-- ETHERNET_FRAME_RX (R419): An Ethernet frame is received and answered for ARP, NDP or ICMP, passed to UDP or dropped. -/
  | ethernetFrameRx (n : Port2) (f : EthFrame)
  /-- LINK_LOSS (R419): An Ethernet port loses link and LINK_LOSS sets. -/
  | linkLoss (n : Port2)
  /-- POR (R429): The AON supply comes into range and a power-on reset is taken. -/
  | por
  /-- RESET_N (R429): RESET_n held low for 1 µs causes a cold reset. -/
  | resetN
  /-- BROWNOUT (R429): A monitored rail below threshold for more than 2 µs causes a cold reset. -/
  | brownout
  /-- GLITCH (R429): The glitch detector fires and causes a cold reset. -/
  | glitch
  /-- SOFT_COLD (R447): A window write of RESET_CTRL.COLD causes a cold reset. -/
  | softCold (q : Req)
  /-- SOFT_WARM (R447): A window write of RESET_CTRL.WARM causes a warm reset. -/
  | softWarm (q : Req)
  /-- RETRY (R438): A window write of RESET_CTRL.RETRY clears FAILS and issues a warm reset. -/
  | retry (q : Req)
  /-- MINIMAL (R435): A window write of RESET_CTRL.MINIMAL issues a warm reset into minimal mode. -/
  | minimal (q : Req)
  /-- WATCHDOG (R429): The control processor's watchdog expires and causes a warm reset. -/
  | watchdog
  /-- DIE_HOT (R429): The junction exceeds 125 °C and reset is held until it falls below 110 °C. -/
  | dieHot
  /-- SUPPLY_WARN (R453): A rail comes within 3 % of its brownout threshold and SUPPLY_WARN sets. -/
  | supplyWarn
  /-- PERST_N (R431): PERST_n or a Function Level Reset resets only the PCIe endpoint. -/
  | perstN
  /-- BOOT_ATTEMPT (R435): The loader verifies an image, chooses store slots, trains DRAM and replays the configuration. -/
  | bootAttempt (sigs : BootSigs) (flips : List (Nat × BitVec 72))
  /-- BOOT_FAILURE (R435): A boot attempt fails, the reason is shifted into BOOT_WHY and a BOOT_RETRY reset or minimal mode follows. -/
  | bootFailure (why : Byte)
  /-- DRAM_FILL_DONE (R430): The cold-boot zero-fill of DRAM completes. -/
  | dramFillDone
  /-- BOOT_DONE (R435): Remaining entries are replayed, BOOT_STAT.DONE sets, FAILS clears and vector 239 raises. -/
  | bootDone
  /-- PWR_CTRL_WRITE (R427): A write of PWR_CTRL starts powering or gating the domains whose bits change. -/
  | pwrCtrlWrite (q : Req) (v : W32)
  /-- DOMAIN_POWERED (R427): A domain's switch reaches its on state, memories are zeroed and ON reads 1. -/
  | domainPowered (d : Dom)
  /-- DOMAIN_READY_TO_GATE (R427): A domain in transition becomes ready and its switch opens, ON reading 0. -/
  | domainReadyToGate (e : GateEdge)
  /-- DOMAIN_FAIL (R427): A switch does not reach its on state within 1 ms and DOMAIN_FAIL sets. -/
  | domainFail (d : Dom)
  /-- CCLK_SEL_CHANGE (R428): A write of CCLK_SEL stalls the cores until the core PLL relocks at the new frequency. -/
  | cclkSelChange (q : Req) (v : W32)
  /-- IMAGE_WRITE (R434): A segment written to an image entry erases, programs or verifies the firmware image. -/
  | imageWrite (p : Path) (b : Bool) (ofs : Nat) (more : Bool) (data : List Byte) (sigOk : Bool)
  /-- NVM_OPERATION_DONE (R442): An eNVM operation completes, setting its fault bits and raising vector 236. -/
  | nvmOperationDone (e : NvmEnd)
  /-- LIFE_GO (R445): A window write of STATE_CTRL.GO, or a write of 0x1F51, requests a life-cycle transition and a LIFE reset. -/
  | lifeGo (q : Req)
  /-- ALERT_N_RISE (R285): ALERT_n returns high, the pulse is classed as write CRC or CA parity by its length, and the parity recovery wait starts. -/
  | alertNRise (m : Mc) (tck : Nat)
  /-- CONFIGURATION_SPACE_WRITE (R322): A host write to PCIe configuration space sets Bus Master Enable, MSI-X enable or the function mask, and held pending vectors are sent. -/
  | configurationSpaceWrite (bme msixEn fmask : Bool)
  /-- VREFX_RANGE_CHANGE (R364): VREFX leaves or re-enters its 1.0 V to 2.5 V range, so REF_SETTLED falls with FAULT.REF or may rise again. -/
  | vrefxRangeChange (inRange : Bool)
  /-- LOOP_MISMATCH_CLEAR (R370): Readback stays within MISMATCH for 10 ms and the loop's mismatch failure clears. -/
  | loopMismatchClear (n : Fin 8)
  /-- LOOP_OPEN_CLEAR (R371): DRV stays out of its limit for 10 ms and STATUS.OPEN clears. -/
  | loopOpenClear (n : Fin 8)
  /-- DELAY_REQ_INTERVAL (R410): The LOG_DELAY interval expires and a slave port sends Delay_Req or Pdelay_Req. -/
  | delayReqInterval (n : Port2)
  /-- HEARTBEAT_RECEIVE (R414): A heartbeat frame of a consumed node arrives and restarts that node's consumer time. -/
  | heartbeatReceive (c : Port2) (node : BitVec 7) (state : Byte)
  /-- CAN_ERRSTATE_CHANGE (R422): Bus errors or error-free traffic change TEC and REC and move the port between error-active and error-passive. -/
  | canErrstateChange (c : Port2) (tec rec : Nat)
  /-- LINK_UP (R419): An Ethernet port gains PCS lock and, where enabled, completes auto-negotiation, so LINK reads 1. -/
  | linkUp (n : Port2) (anDone : Bool)
  /-- DIE_HOT_RELEASE (R429): The junction falls below 110 °C and the held DIE_HOT reset is released. -/
  | dieHotRelease
  /-- DIE_HOT_WARNING (R447): The junction rises above 110 °C and SYS.FAULT.DIE_HOT sets. -/
  | dieHotWarning
  /-- CORE_PLL_RELOCK (R428): The core PLL relocks at the new CCLK and the stalled cores resume. -/
  | corePllRelock
  /-- REF_PLL_RELOCK (R101): The REF PLL regains lock and PLL_LOCK reads 1. -/
  | refPllRelock
  /-- BO_REQ_INTERVAL (R387): 10 s pass since Quince last requested burn-out tests, and it writes BO_REQ for every enabled RTD or NTC slot. -/
  | boReqInterval
  /-- EXCITATION_COMPLIANCE_HELD (R357): Compliance of an open slot holds for 100 µs without a break, and the slot applies excitation and starts converting as a new entry. -/
  | excitationComplianceHeld
  deriving DecidableEq, Repr

end Sys2Proof
end

