-- ==== Sys2Proof/Decode.lean ====
section
/-!
DEFINITION. The command a word of the opcode table spells: the table gives the rows of this block no bits, so no word spells one.
The instruction words of the Soric cores are decoded in Machine/Operands.lean and Machine/Soric.lean.
-/
namespace Sys2Proof

/-- The command a word spells by the table's bits: none. -/
def decodeTableWord (_nbits _w : Nat) : Option Instr := none

end Sys2Proof
end

