-- ==== Sys2Proof/Machine/Arith.lean ====
section
/-!
DEFINITION. The integer functions of R14 with exact, unbounded arithmetic, the rounding divisions other rules spell out, and
the reading of bit fields as integers.
-/
namespace Sys2Proof.Machine

/-- asr(x, k): x over 2^k, rounding toward minus infinity (R14). -/
def asr (x : Int) (k : Nat) : Int := x / 2 ^ k

/-- rne(x, k): x over 2^k to nearest, ties to even (R14). -/
def rne (x : Int) (k : Nat) : Int :=
  let q := x / 2 ^ k
  let r := 2 * (x % 2 ^ k)
  if r < 2 ^ k then q else if 2 ^ k < r then q + 1 else if q % 2 = 0 then q else q + 1

/-- sat(x, n): x limited to the signed n-bit range (R14). -/
def sat (x : Int) (n : Nat) : Int := max (-(2 ^ (n - 1))) (min x (2 ^ (n - 1) - 1))

/-- satu(x, n): x limited to the unsigned n-bit range (R14). -/
def satu (x : Int) (n : Nat) : Int := max 0 (min x (2 ^ n - 1))

/-- wrap(x, n): x modulo 2^n in the signed n-bit range (R14). -/
def wrap (x : Int) (n : Nat) : Int :=
  let r := x % 2 ^ n
  if r < 2 ^ (n - 1) then r else r - 2 ^ n

/-- bits(x, m, l): bits m down to l of x as an unsigned value (R14). -/
def bits (x : Int) (m l : Nat) : Int := (x / 2 ^ l) % 2 ^ (m + 1 - l)

/-- divr(a, b): a over b to nearest, ties away from zero. -/
def divr (a b : Int) : Int :=
  if b = 0 then 0
  else
    let q := (2 * a.natAbs + b.natAbs) / (2 * b.natAbs)
    if (0 ≤ a) = (0 ≤ b) then (q : Int) else -(q : Int)

/-- Sum of a list of integers. -/
def sumInt (l : List Int) : Int := l.foldl (· + ·) 0

/-- Bits hi down to lo of a word, as a number. -/
def field {w : Nat} (v : BitVec w) (hi lo : Nat) : Nat := v.toNat / 2 ^ lo % 2 ^ (hi + 1 - lo)

/-- Bits hi down to lo of a word, read as a signed number. -/
def fieldS {w : Nat} (v : BitVec w) (hi lo : Nat) : Int := wrap (field v hi lo) (hi + 1 - lo)

/-- Bit i of a word. -/
def bitOf {w : Nat} (v : BitVec w) (i : Nat) : Bool := v.getLsbD i

/-- A word with bits hi down to lo replaced by the low bits of x. -/
def withField {w : Nat} (v : BitVec w) (hi lo x : Nat) : BitVec w :=
  let m : BitVec w := BitVec.ofNat w ((2 ^ (hi + 1 - lo) - 1) * 2 ^ lo)
  (v &&& ~~~m) ||| (BitVec.ofNat w (x * 2 ^ lo) &&& m)

/-- A word with one bit set to b. -/
def withBit {w : Nat} (v : BitVec w) (i : Nat) (b : Bool) : BitVec w :=
  if b then v ||| BitVec.ofNat w (2 ^ i) else v &&& ~~~(BitVec.ofNat w (2 ^ i))

/-- A truth value as 0 or 1. -/
def b2n (b : Bool) : Nat := if b then 1 else 0

/-- The words of a list of bits, least significant first. -/
def bitsToNat : List Bool → Nat
  | [] => 0
  | b :: r => b2n b + 2 * bitsToNat r

/-- A number in the two's complement of w bits. -/
def toW (w : Nat) (x : Int) : BitVec w := BitVec.ofInt w x

/-- The bytes of a number, least significant first. -/
def leBytes (n : Nat) : Nat → List Byte
  | 0 => []
  | k + 1 => BitVec.ofNat 8 n :: leBytes (n / 256) k

/-- The number whose bytes are given, least significant first. -/
def ofLeBytes : List Byte → Nat
  | [] => 0
  | b :: r => b.toNat + 256 * ofLeBytes r

/-- Integer square root, rounded down, by n halvings of the interval from lo. -/
def isqrtGo (x : Nat) : Nat → Nat → Nat
  | 0, lo => lo
  | n + 1, lo => let m := lo + 2 ^ n; if m * m ≤ x then isqrtGo x n m else isqrtGo x n lo

/-- Integer square root, rounded down. -/
def isqrt (x : Nat) : Nat := isqrtGo x (x.log2 / 2 + 1) 0

end Sys2Proof.Machine
end

