-- ==== Sys2Proof/Config.lean ====
section
/-!
DEFINITION. What an implementation fixes and the spec leaves open: free values, opaque constants that no proof can evaluate
(DESIGN CHOICE, log entry 4). A meaning that needs one applies it to the counter State.fresh and advances the counter.
-/
namespace Sys2Proof.Config

/-- A free value of 72 bits for each count (DESIGN CHOICE, log entry 4). -/
opaque freeWord : Nat → W72

/-- The delay of an internal source to the start (0) or stop (1) vernier of a time-interval unit, in steps of 2.5 ps: the spec gives
it no value (R110, DESIGN CHOICE, log entry 82). -/
opaque tdcPath : Nat → Nat → Nat

/-- RATE for what the proportional and integral terms of the PTP servo come to: the spec gives the gains no scale (R411, DESIGN CHOICE, log
entry 4). -/
opaque servoScale : Int → Int

end Sys2Proof.Config
end

