-- ==== Sys2Proof/Machine/Store.lean ====
section
/-!
DEFINITION. Sparse stores: every memory, table and register file of the block is a list of (key, value) pairs in one canonical
form, keys strictly rising and no entry equal to what an unlisted key reads as (DESIGN CHOICE, log entry 6).
-/
namespace Sys2Proof.Machine

/-- A sparse store of values of one type. -/
structure Store (α : Type) where
  cells : List (Nat × α)
  deriving DecidableEq, Repr

variable {α : Type}

/-- The value listed for a key, else the default. -/
def cellsGet (d : α) (k : Nat) : List (Nat × α) → α
  | [] => d
  | (j, v) :: r => if j = k then v else cellsGet d k r

/-- A list of cells without a key. -/
def cellsErase (k : Nat) : List (Nat × α) → List (Nat × α)
  | [] => []
  | (j, v) :: r => if j = k then cellsErase k r else (j, v) :: cellsErase k r

/-- A list of cells with a key set, kept in rising order. -/
def cellsPut (k : Nat) (x : α) : List (Nat × α) → List (Nat × α)
  | [] => [(k, x)]
  | (j, v) :: r => if k < j then (k, x) :: (j, v) :: r else if k = j then (k, x) :: r else (j, v) :: cellsPut k x r

/-- Keys strictly rise from a bound and no value is the default. -/
def cellsWf [DecidableEq α] (d : Nat → α) : Nat → List (Nat × α) → Bool
  | _, [] => true
  | lo, (j, v) :: r => decide (lo ≤ j) && decide (v ≠ d j) && cellsWf d (j + 1) r

/-- The store with nothing listed. -/
def Store.empty : Store α := ⟨[]⟩

/-- What key k reads, with d what an unlisted key reads. -/
def Store.get (m : Store α) (d : α) (k : Nat) : α := cellsGet d k m.cells

/-- The store with key k set to x; setting what an unlisted key reads removes the entry. -/
def Store.set [DecidableEq α] (m : Store α) (d : α) (k : Nat) (x : α) : Store α :=
  if x = d then ⟨cellsErase k m.cells⟩ else ⟨cellsPut k x m.cells⟩

/-- The store with a list of keys set in turn. -/
def Store.setMany [DecidableEq α] (d : α) : List (Nat × α) → Store α → Store α
  | [], m => m
  | (k, x) :: r, m => Store.setMany d r (m.set d k x)

/-- The keys listed whose values are not the default. -/
def Store.keys (m : Store α) : List Nat := m.cells.map Prod.fst

/-- The canonical form of a store whose unlisted key j reads d j. -/
def Store.wf [DecidableEq α] (d : Nat → α) (m : Store α) : Bool := cellsWf d 0 m.cells

/-- A store with every key in a range dropped, which then reads its default there. -/
def Store.dropRange (lo hi : Nat) (m : Store α) : Store α :=
  ⟨m.cells.filter fun c => !(decide (lo ≤ c.1) && decide (c.1 < hi))⟩

/-- The values at n keys from k upwards. -/
def Store.slice (m : Store α) (d : α) (k : Nat) : Nat → List α
  | 0 => []
  | n + 1 => m.get d k :: m.slice d (k + 1) n

end Sys2Proof.Machine
end

