-- ==== Sys2Proof/Machine/State.lean ====
section
/-!
DEFINITION. The state of the block as plain data. Registers live in two sparse stores keyed by their normal-view address (regs,
and wide for 72-bit values); the records below hold what the spec's engines keep beside their registers. Every record's default
is its value after reset (DESIGN CHOICE, log entry 6).
-/
namespace Sys2Proof.Machine

/-- The causes ERR records, named as R41 names them. -/
inductive Cause where
  | busy | enc | range | locked | stage | width | priv | unmapped
  deriving DecidableEq, Repr

/-- The bit of ERR a cause sets (R41). -/
def Cause.bit : Cause → Nat
  | busy => 0
  | enc => 1
  | range => 2
  | locked => 3
  | stage => 4
  | width => 5
  | priv => 6
  | unmapped => 7

/-- Why the block stops: nothing in the spec stops it, so no command raises a fault (safe). -/
inductive Fault where
  deriving DecidableEq, Repr

/-- Why a command has no meaning. -/
inductive Refusal where
  /-- Raised by the dispatch for a command whose meaning is not written; the machine stops (safe). -/
  | notModelled (mnemonic : String)
  deriving DecidableEq, Repr

/-! ## The bus and the outside -/

/-- What a requester has read and staged (R47, R48): the data of its last read, its snapshot of bits 71 to 32, and its staged LO
and MID with the register each was written to. -/
structure ReqSt where
  data : W32 := 0
  snap : BitVec 40 := 0
  lo : Option (Nat × W32) := none
  mid : Option (Nat × W32) := none
  deriving DecidableEq, Repr

/-- A message or signal the block has sent (DESIGN CHOICE, log entry 5). -/
inductive Out where
  /-- An MSI-X message of a vector: the write of its table entry's data to its table entry's address (R322). -/
  | msix (v : Nat) (addr : BitVec 64) (data : W32)
  /-- A zone's WRITE to a device's object is asked of the estate session: zone, device, index, sub-index, value of 8 bytes or 1 (R263). -/
  | remote (z dev idx sub : Nat) (wide : Bool) (value : Nat)
  /-- The DAC codes of one sub-probe of a head (R59). -/
  | probe (h k : Nat) (codes : List (Int × Int))
  /-- The gates around sub-probe k of a head: by channel the open and the close edge in steps of 78.125 ps from t_launch, none where
  the gate stays low (R66). -/
  | gate (h k : Nat) (edges : List (Option (Int × Int)))
  /-- LASEN of a head falls under a sub-probe: its gates close and its DACs go to code 0 (R51, R66, R68). -/
  | dark (h : Nat)
  /-- Bytes a DMA burst writes to the host from a byte address on, packed nine to a word (R298, R316). -/
  | host (byte : Nat) (bytes : List Byte)
  /-- A DMA burst reads the nine bytes of a word from the host at a byte address (R298, R316). -/
  | hostRead (byte : Nat)
  /-- The bytes of a BAR2 read, and whether its completion is marked poisoned (R317). -/
  | bar2 (bytes : List Byte) (poisoned : Bool)
  /-- The bits a Sloe chain port shifts: FRAME_CNT's marker and the codes in the order sent (R336). -/
  | lampFrame (p : Nat) (marker : W32) (codes : List Nat)
  /-- The level of a lamp port's LE at its end of frame: latched, and held long for a diagnostic frame (R335, R337). -/
  | lampLatch (p : Nat) (diag : Bool)
  /-- PSYNC rises (R337). -/
  | psync (p : Nat)
  /-- A message on a lamp port's broadcast bus (R338). -/
  | lampBus (p : Nat) (bytes : List Byte)
  /-- A byte on a lamp port's broadcast bus is cut off: the message in progress ends there (R346). -/
  | lampCut (p : Nat)
  /-- A plane of a matrix: row, plane, its 64 column bits and its lit ticks (R341). -/
  | matrix (p row plane : Nat) (cols : BitVec 64) (lit : Nat)
  /-- A Yarfel frame from an Ethernet port, under a VID where the port tags, to an IP address (R401, R404, R421). -/
  | yarfel (n : Nat) (vid : Option Nat) (ip : IpAddr) (bytes : List Byte)
  /-- A CAN frame on a port; an FD frame with or without bit-rate switching (R413). -/
  | can (c id : Nat) (fd brs : Bool) (bytes : List Byte)
  /-- An answer of an Ethernet port to ARP, NDP or ICMP echo, to a MAC address (R419). -/
  | eth (n : Nat) (vid : Option Nat) (mac : BitVec 48) (kind : EthKind)
  /-- A PTP message on a port with its time stamp (R109, R410). -/
  | ptp (n : Nat) (vid : Option Nat) (kind : Nat) (body : List Byte) (stamp : W72)
  /-- The bytes a read of an object returns, or its abort code (R396, R407). -/
  | object (abort : W32) (bytes : List Byte)
  deriving DecidableEq, Repr

/-! ## Heads (chapter 03) -/

/-- A probe set: what PROBE_COMMIT takes together (R62). -/
structure ProbeSet where
  bank : Nat := 0
  len : Nat := 1
  train : Nat := 0
  scale : Nat := 0x8000
  bw : Nat := 0
  slots : List W32 := List.replicate 8 0
  opens : List W32 := List.replicate 8 0
  closes : List W32 := List.replicate 8 0
  deriving DecidableEq, Repr

/-- A head's probe generator and supervisor beside the HEAD registers (R56 to R73). -/
structure HeadSt where
  act : ProbeSet := {}
  pend : Option ProbeSet := none
  peak : Nat := 0
  gateEn : BitVec 8 := 0
  acc : Nat := 0
  suspended : Bool := false
  settle : List Nat := List.replicate 8 0
  missRun : List Nat := List.replicate 8 0
  lmonOpen : BitVec 8 := 0
  lmonSeen : BitVec 8 := 0
  headok : Bool := false
  qualifying : Bool := false
  /-- The channels whose gates the sub-probe launched last opens, whether it plays, and when it was launched; State.gatePins gives
  the levels of the pins (R66). -/
  gates : BitVec 8 := 0
  playing : Bool := false
  playAt : Nat := 0
  /-- The edges of the gates around that sub-probe, by channel, and the number of the sub-probe that comes next (R66). -/
  edges : List (Option (Int × Int)) := []
  next : Nat := 0
  /-- MISS_LIMIT in force (R24, R67). -/
  missLimit : Nat := 8
  /-- The channels whose settle count the last boundary lowered (R65, R467). -/
  settled : BitVec 8 := 0
  /-- When the last valid temperature reading arrived. -/
  readAt : Nat := 0
  deriving DecidableEq, Repr

/-! ## Lanes (chapter 04) -/

/-- The corrections of one lane in use (R84). -/
structure LaneCorr where
  pga : Nat := 0
  ofs : Int := 0
  skew : Int := 0
  gcorr : Int := 0x4000
  deriving DecidableEq, Repr

/-- An I/Q matrix (R78). -/
structure IqMat where
  m11 : Int := 0x4000
  m12 : Int := 0
  m21 : Int := 0
  m22 : Int := 0x4000
  deriving DecidableEq, Repr

/-- A calibration slot of a period: its start tick, accumulated samples, r, lanes and source (R89). -/
structure CalSlot where
  start : Nat
  len : Nat
  r : Nat
  mask : BitVec 6
  src : Nat
  deriving DecidableEq, Repr

/-- The quiet-check and clip settings of one shot period (R24, R80, R86, R87). -/
structure QuietCfg where
  on : Bool := false
  start : Nat := 0
  len : Nat := 0
  limit : Nat := 0
  clip : Nat := 0
  deriving DecidableEq, Repr

/-- What governs the samples of one shot period of a channel (R81, R84). -/
structure PeriodSt where
  index : BitVec 48 := 0
  ticks : Nat := 0
  launched : Bool := false
  corr : List LaneCorr := List.replicate 6 {}
  mx : IqMat := {}
  my : IqMat := {}
  on : BitVec 6 := 0
  first : BitVec 6 := 0
  pgaNew : BitVec 6 := 0
  slot : Option CalSlot := none
  quiet : QuietCfg := {}
  deriving DecidableEq, Repr

/-- The lanes of one channel beside the LANE registers (R78 to R91). -/
structure LaneSt where
  cur : PeriodSt := {}
  prev : PeriodSt := {}
  ran : BitVec 6 := 0
  /-- The corrections the next boundary takes: what the registers hold, but for writes that HOLD keeps back (R84). -/
  next : List LaneCorr := List.replicate 6 {}
  nextMx : IqMat := {}
  nextMy : IqMat := {}
  armed : Bool := false
  slotDue : Bool := false
  /-- When the period in progress began (R82). -/
  openedAt : Nat := 0
  /-- The length of the last period of a stopped head, while samples are taken past its end (R93). -/
  tail : Option Nat := none
  words : List W72 := List.replicate 6 0
  /-- FAULT bits found by the close of a period, raised with those of the period that opens in the same cycle (R40). -/
  found : Nat := 0
  deriving DecidableEq, Repr

/-! ## Schedulers, time base and time-interval units (chapter 05) -/

/-- One head's shot scheduler beside the SHOT registers (R93 to R100). -/
structure SchedSt where
  index : BitVec 48 := 0
  stamp : W72 := 0
  period : Nat := 100000
  mark : Nat := 64
  mode : Nat := 0
  src : Nat := 0
  offset : Nat := 0
  /-- t_shot of the last boundary in ticks since reset, and the length the period that it opened is planned to have. -/
  tickAt : Nat := 0
  ticks : Nat := 0
  started : Bool := false
  ending : Bool := false
  launched : Bool := false
  launchedPrev : Bool := false
  tripped : Bool := false
  timeStep : Bool := false
  trippedPrev : Bool := false
  /-- ALIGN_WIN in force, and the ticks by which the period that begins at a coming boundary is changed, with the number of
  boundaries until then (R100). -/
  alignWin : Nat := 100
  extra : Int := 0
  extraIn : Nat := 0
  unsync : Bool := false
  /-- The trace windows of this shot, and what the previous shot's leave in this period, in ticks from t_shot (R95). -/
  wins : List (Nat × Nat) := []
  prevWins : List (Nat × Nat) := []
  deriving DecidableEq, Repr

/-- The time base (R101 to R108): local time in units of 2^-32 ns since 0, the REFCLK cycles since reset, which no step of local
time changes, and the source switch that waits. -/
structure TimeSt where
  now : Nat := 0
  up : Nat := 0
  switchTo : Option Bool := none
  deriving DecidableEq, Repr

/-- A time-interval unit beside the TDC registers (R110 to R118). -/
structure TdcSt where
  armed : Bool := false
  start : Option Nat := none
  startAt : W72 := 0
  stop : Option Nat := none
  extra : Nat := 0
  unlocked : Bool := false
  hold : Bool := false
  holdAfter : Bool := false
  count : BitVec 16 := 0
  /-- The shot that armed a channel unit (R112, R116). -/
  shot : BitVec 48 := 0
  deriving DecidableEq, Repr

/-! ## Compression engines (chapter 06) -/

/-- A shot record an engine has open (R136). -/
structure RecSt where
  index : BitVec 48
  stamp : W72
  skipped : Bool
  settle : Bool
  timeStep : Bool
  unsync : Bool
  train : Nat
  period : Nat
  probe : ProbeSet
  mark : Nat
  gaugeCount : Nat
  ffc : Int
  alignOfs : Int
  outShift : Nat
  /-- TRACE of the shot, and the spectrum in force for it with its size and exponent (R94, R132). -/
  trace : Nat
  spectrum : List (Int × Int)
  specSize : Nat
  er : Int
  /-- The samples taken, while the launch offset is awaited (R126): the six output streams and their V bits. -/
  span : Option (List (Array Int) × List (Array Bool)) := none
  q : Option Int := none
  hold : Bool := false
  tdc : BitVec 4 := 0
  extra : Nat := 0
  vzero : Nat := 0
  ef : Nat := 0
  ei : Nat := 0
  sats : Nat := 0
  gauges : Option (List W72) := none
  words : Option (List W72) := none
  deriving DecidableEq, Repr

/-- A record as the ring took it: where it starts in the count of words written, the words written, and whether it is whole
(R135, R151). -/
structure RecOut where
  start : Nat
  words : Nat
  full : Bool
  index : BitVec 48
  stamp : W72
  /-- Word 1 of the record, whose flags its frame carries even where the ring did not take it (R155). -/
  w1 : W72
  /-- The words PHASE took while the record was still being written, where the ring is shorter than the record (DESIGN CHOICE, log entry 108). -/
  early : List W72 := []
  deriving DecidableEq, Repr

/-- The batch a Raman accumulator fills (R138, R139). -/
structure BatchSt where
  j : Nat
  first : BitVec 48
  last : BitVec 48
  shots : Nat
  clean : Nat
  nb : Nat
  bank : Nat
  deriving DecidableEq, Repr

/-- A launched shot whose Raman samples are still to be taken (R138): its index, PROBE_SETTLE and the offset of its bins. -/
structure RamanShot where
  index : BitVec 48
  settle : Bool
  ofs : Nat
  deriving DecidableEq, Repr

/-- A compression engine beside the CE registers (R123 to R142). -/
structure CeSt where
  count : Nat := 0x400
  size : Nat := 3
  outShift : Nat := 0x1C
  ffc : Int := 0
  alignOfs : Int := 0
  ramanOfs : Nat := 0
  /-- The usable launch offsets of the last shots, newest first; the newest is the held value (R126, R467). -/
  held : List (BitVec 48 × Int) := []
  recs : List RecSt := []
  ramans : List RamanShot := []
  out : List RecOut := []
  written : Nat := 0
  dropped : Bool := false
  spectrum : List (Int × Int) := []
  specSize : Nat := 3
  er : Int := 0
  /-- The spectrum was lost with the engine's power and is formed again at its next boundary (R25). -/
  reform : Bool := false
  batch : Option BatchSt := none
  flush : Option (BatchSt × Bool) := none
  replace : Bool := true
  /-- FLUSH_SEQ as the flush in progress wrote it (R141). -/
  flushSeq : W32 := 0
  bank : Nat := 0
  deriving DecidableEq, Repr

/-! ## Memory controllers (chapter 12) -/

/-- What the last access left in a bank (R283): closed by refresh, timeout or replay, open with more accesses to its row queued, left
open, or closed by the predictor. -/
inductive RowSt where
  | idle
  | used (row : Nat)
  | left (row : Nat)
  | predicted (row : Nat)
  deriving DecidableEq, Repr

/-- One bank: its 2-bit history and its row (R283). -/
structure BankSt where
  h : Nat := 2
  row : RowSt := .idle
  deriving DecidableEq, Repr

/-- A command in the retry buffer, with its bank, row, column, local address and write data; an access may close its row by auto-precharge (R280,
R283, R285). -/
inductive RetryCmd where
  | act (bank row : Nat)
  | pre (bank : Nat)
  | prea (rank : Nat)
  | rd (bank col a : Nat) (shut : Bool)
  | wr (bank col a : Nat) (w : BitVec 80) (shut : Bool)
  | ref (rank : Nat)
  deriving DecidableEq, Repr

/-- A request in a controller's queues (R282): a read, or a write with its stored word, of a local address, the device address, when it
arrived in REFCLK cycles since reset, and whether it is the write-back of a corrected word (R277). -/
structure McReq where
  rd : Bool
  a : Nat
  dev : Nat
  w : BitVec 80 := 0
  came : Nat := 0
  back : Bool := false
  deriving DecidableEq, Repr

/-- A memory controller beside the MC registers (R282 to R296). -/
structure McSt where
  /-- The working copies of RATE, LAT, ROW, ACT, COL, REF and SRX of both sets. -/
  work : List W32 := (List.replicate 2 [0, 0x0010090B, 0x271C0B0B, 0x00140504, 0x62060C05, 0x01B81860, 0x052551C0]).flatten
  /-- The requests that wait, oldest first, and whether the write queue is being served down to WR_LOW (R282). -/
  queue : List McReq := []
  draining : Bool := false
  retry : List RetryCmd := []
  replays : Nat := 0
  alert : Bool := false
  waiting : Bool := false
  sr : BitVec 2 := 0
  postponed : List Nat := [0, 0]
  trained : Bool := false
  /-- The set a change goes to, and whether a change runs, its SRE is issued and the memory PLL has relocked (R292, R293). -/
  target : Nat := 0
  changing : Bool := false
  /-- A change was asked for while an alert kept the controller from issuing, and starts after the recovery (R285, R292). -/
  wants : Bool := false
  /-- The training that runs was asked for by TRAIN_CTRL.GO (R286). -/
  byGo : Bool := false
  inSre : Bool := false
  locked : Bool := false
  deriving DecidableEq, Repr

/-! ## Attention (chapter 13) -/

/-- One vector's moderation and its raises since reset (R321, R325). -/
structure VecSt where
  cnt : Nat := 0
  /-- When the first event that waits came, in REFCLK cycles since reset. -/
  t0 : Nat := 0
  nseq : W32 := 0
  /-- A NOTIFY that the full send buffer holds back, with the time of the last raise in it (R325). -/
  held : Option W72 := none
  deriving DecidableEq, Repr

/-- An export queue: its entries, oldest first, and whether one was lost since the last that was queued (R318, R319). -/
structure QueueSt where
  items : List W72 := []
  lost : Bool := false
  deriving DecidableEq, Repr

/-! ## The network (chapter 17) -/

/-- A Yarfel session (R402 to R408): open, or challenged and not yet confirmed. -/
structure SessionSt where
  active : Bool := false
  challenged : Bool := false
  role : Nat := 0
  /-- Opened under the estate key (R406). -/
  estate : Bool := false
  sid : W32 := 0
  client : Nat := 0
  /-- The OPEN came over IPv6. -/
  v6 : Bool := false
  key : List Byte := []
  rxMax : Nat := 0
  rxSeen : List Nat := []
  txSeq : Nat := 0
  replies : List (Nat × List Byte) := []
  subs : List Nat := []
  leases : List (Nat × Nat) := []
  opened : Nat := 0
  deriving DecidableEq, Repr

/-- A session this device opens to another of its estate (R405, R406): the nonce of its OPEN, and once CHALLENGE has verified its
identifier, key and numbers. -/
structure EstateSt where
  dev : Nat
  nonce : List Byte
  opened : Bool := false
  sid : W32 := 0
  key : List Byte := []
  txSeq : Nat := 0
  rxMax : Nat := 0
  rxSeen : List Nat := []
  deriving DecidableEq, Repr

/-- What the network keeps beside the NET registers: the local window busy, the sources of broadcasts with the highest number each
sent, most recent first, how many sessions were ever opened, the sessions to devices of the estate and the last REQ_ID chosen in them
(R403, R406, R407, R409, R420). -/
structure NetSt where
  localBusy : Bool := false
  /-- The header of the request the local window runs. -/
  localHdr : List Byte := []
  sources : List (Nat × Nat × List Nat) := []
  opened : Nat := 0
  peers : List Nat := []
  estate : List EstateSt := []
  reqId : Nat := 0
  deriving DecidableEq, Repr

/-- A segmented SDO transfer of a CAN port (R414). -/
structure SdoSt where
  idx : Nat
  sub : Nat
  upload : Bool
  toggle : Bool := false
  bytes : List Byte := []
  ofs : Nat := 0
  deriving DecidableEq, Repr

/-- A CAN port beside the CAN registers (R413 to R418). -/
structure CanSt where
  sdo : Option SdoSt := none
  /-- Consumed nodes heard since reset, and lost (R414). -/
  heard : List Nat := []
  lost : List Nat := []
  /-- Receive entries written to the ring (R418). -/
  written : Nat := 0
  deriving DecidableEq, Repr

/-- A PTP port (R410, R411). -/
structure PtpSt where
  /-- The portState code of the standard; 1 INITIALIZING. -/
  state : Nat := 1
  parent : Option (List Byte) := none
  foreign : List (List Byte) := []
  heard : Bool := false
  syncRx : Option (Nat × Nat) := none
  delayTx : Option Nat := none
  delay : Int := 0
  inLock : Nat := 0
  outLock : Nat := 0
  /-- The sum of the offsets the servo has taken, in 2^-32 ns (R411). -/
  sum : Int := 0
  /-- Sequence numbers of Announce, Sync and delay requests sent. -/
  seqNos : List Nat := [0, 0, 0]
  /-- The last difference of receive and origin time of a Sync, and the times of a peer delay response (R411). -/
  ms : Int := 0
  pd : Option (Nat × Nat) := none
  /-- Announce intervals a PRE_MASTER port still waits before it is MASTER. -/
  qual : Nat := 0
  /-- The settings of 0x2010 in force, sub-index 1 first (R412). -/
  cfg : List Nat := [0, 248, 248, 1, 0, 1, 0, 3, 1000000, 1000, 4194312]
  deriving DecidableEq, Repr

/-! ## Data movement (chapter 13) -/

/-- A DMA channel beside the DMA registers: the working LINK, the descriptor in progress with the destination words moved, a STOP
that waits, and a poisoned source word seen (R304 to R311). -/
structure DmaSt where
  link : Option Nat := none
  desc : Option (List W72) := none
  moved : Nat := 0
  stop : Bool := false
  poisoned : Bool := false
  /-- The words a descriptor has taken from the event queue, by source offset: each is popped once (R298, R315). -/
  stream : List (Nat × W72) := []
  deriving DecidableEq, Repr

/-! ## Lamp ports (chapter 14) -/

/-- A lamp port beside the LAMP registers (R328 to R348). -/
structure LampSt where
  /-- A frame is in progress: its effective codes and eligible outputs, whether it is diagnostic, and whether its snapshot was
  blanked or began before BLANK was last cleared (R346). -/
  inFrame : Bool := false
  codes : List Nat := []
  elig : List Bool := []
  diag : Bool := false
  snapBlank : Bool := false
  /-- The marker the frame was sent with (R336). -/
  marker : W32 := 0
  /-- The return stream is in: its status slots by output, or none where the marker failed and the latch is withheld (R336). -/
  shifted : Bool := false
  slots : Option (List (BitVec 16)) := none
  /-- Eligible outputs of the frames latched last, newest first. -/
  past : List (List Bool) := []
  /-- What the modules hold: pending codes and whether they are diagnostic, the codes in force and the codes shown (R335). -/
  pend : Option (List Nat × Bool) := none
  active : List Nat := []
  shown : List Nat := []
  /-- Bus replies still owed, by module (R339), and the next plane of a matrix with the words of its snapshot (R340). -/
  polls : List Nat := []
  row : Nat := 0
  plane : Option Nat := none
  /-- The row whose code stands on ROWSEL (R341). -/
  shownRow : Nat := 0
  words : List W72 := []
  /-- The port's DMA request stands (R347). -/
  request : Bool := false
  deriving DecidableEq, Repr

/-! ## Front end (chapter 15) -/

/-- A slot result that waits for its conversion (R359). -/
structure PadcDue where
  slot : Nat
  r : Int
  isOpen : Bool
  stamp : W72
  deriving DecidableEq, Repr

/-- The PADC beside the PFE registers (R353 to R358). -/
structure PadcSt where
  inPass : Bool := false
  slot : Nat := 0
  phase : Nat := 0
  settle : Nat := 0
  hist : List Int := []
  outs : List Int := []
  m0 : Int := 0
  sat : Bool := false
  waitComp : Bool := false
  mark : Nat := 0
  request : Bool := false
  due : List PadcDue := []
  /-- The slots whose burn-out tests run in this idle (R358). -/
  tests : W32 := 0
  /-- m0, m1 and OPEN of each slot's last result (R387). -/
  last : List (Int × Int × Bool) := List.replicate 16 (0, 0, false)
  deriving DecidableEq, Repr

/-- A conversion of the HADC in progress: a regular or an injected slot, or a temperature sensor of Quince's (R366, R367, R375). -/
inductive HadcConv where
  | reg (i : Nat)
  | inj (i : Nat)
  | quince (k : Nat)
  deriving DecidableEq, Repr

/-- The HADC beside the HK registers (R364 to R367): the conversion in progress, the next regular and injected slots, and the sensor that a
Quince read has come to. -/
structure HadcSt where
  conv : Option HadcConv := none
  reg : Option Nat := none
  inj : Option Nat := none
  quince : Option Nat := none
  /-- The settling time of the reference is over; VREFX lies outside its range (R364). -/
  timed : Bool := false
  vrefxOut : Bool := false
  injCodes : List Nat := [0, 0, 0, 0]
  mark : Nat := 0
  request : Bool := false
  deriving DecidableEq, Repr

/-- A loop beside the LOOP registers (R369 to R371). -/
structure LoopOutSt where
  timedOut : Bool := false
  mismatch : Bool := false
  isOpen : Bool := false
  deriving DecidableEq, Repr

/-! ## Quince (chapter 16) -/

/-- A lane or IQ step in progress on a head (R378 to R384): the channel, the attempts begun, the slots that have ended and how many of
their periods have passed the quiet check, and what each measured, by slot and lane. -/
structure LaneStep where
  ch : Nat
  iq : Bool := false
  attempts : Nat := 0
  slot : Nat := 0
  checked : Nat := 0
  started : Bool := false
  /-- Offsets of the SHORT slots and gain and skew of the TONE slots, by slot and lane. -/
  meas : List (List (Int × Int)) := []
  iqA : Option (List Int) := none
  /-- The statistics tap of an IQ step: the sums of both polarisations and the shots taken (R384). -/
  tapX : IqSums := {}
  tapY : IqSums := {}
  tapShots : Nat := 0
  deriving DecidableEq, Repr

/-- A calibration slot of the eNVM (R388): written at all, the SEQ of its header, its body by register address, its CRC-32, and the SEQ its
commit record carries, if that is written. -/
structure CalSlotNv where
  written : Bool := false
  seq : W32 := 0
  body : List (Nat × Nat) := []
  crc : W32 := 0
  commit : Option W32 := none
  deriving DecidableEq, Repr

/-- Quince beside the CAL registers (R375 to R391). -/
structure QuinceSt where
  laneDue : BitVec 32 := 0
  iqDue : BitVec 32 := 0
  padcDue : Bool := false
  matchDue : Bool := false
  swapDue : Bool := false
  storeDue : Bool := false
  storing : Bool := false
  /-- A step ended DONE since the last store, and before the STORE in progress began. -/
  since : Bool := false
  before : Bool := false
  lanes : List (Option LaneStep) := [none, none, none, none]
  padcTcal : Option Int := none
  matchTcal : Option Int := none
  padcLeft : Nat := 0
  padcAttempts : Nat := 0
  matchAttempts : Nat := 0
  /-- When each lane target, the PADC and MATCH were last calibrated, and the last store was made, in REFCLK cycles since reset (R376). -/
  takenAt : List Nat := List.replicate 34 0
  storedAt : Nat := 0
  deriving DecidableEq, Repr

/-! ## eNVM and boot (chapter 18) -/

/-- A configuration slot of the eNVM (R439): as a calibration slot; its body lists numbers and strings by entry, and the MEM entries by
register address (DESIGN CHOICE, log entry 53). -/
structure CfgSlotNv where
  written : Bool := false
  seq : W32 := 0
  nums : List (Nat × Nat) := []
  strs : List (Nat × List Byte) := []
  mem : List (Nat × W32) := []
  crc : W32 := 0
  commit : Option W32 := none
  deriving DecidableEq, Repr

/-- A firmware image in the eNVM (R433, R434). -/
structure ImageNv where
  written : Bool := false
  valid : Bool := false
  version : W32 := 0
  bytes : List Byte := []
  /-- Verified, and valid once its operations are done. -/
  ok : Bool := false
  /-- An operation of its write has failed program verification (R442). -/
  bad : Bool := false
  deriving DecidableEq, Repr

/-- The eNVM and what the loader keeps (R388, R433 to R445). Slot and image A come first, B second. -/
structure NvmSt where
  cal : CalSlotNv × CalSlotNv := ({}, {})
  cfg : CfgSlotNv × CfgSlotNv := ({}, {})
  img : ImageNv × ImageNv := ({}, {})
  /-- A transition the pending record names (R445), and a restore of defaults that is marked (R399). -/
  pending : Option Nat := none
  restore : Bool := false
  /-- Operations in progress, oldest first. -/
  ops : List NvmOp := []
  /-- A transition asked for waits for the operations in progress. -/
  lifeAsked : Option Nat := none
  /-- The snapshot a STORE in progress writes. -/
  snap : CfgSlotNv := {}
  /-- The STOREs that run and wait, oldest first: who asked, how the reply is framed (DESIGN CHOICE, log entry 17), and whether the eNVM takes it
  (R398). -/
  waiters : List (Path × Nat × Bool) := []
  /-- The erases of each sector, keyed by sector (R440). -/
  erases : Store Nat := .empty
  /-- The bits of each eNVM word, check bits included, that have flipped since it was programmed, keyed by word (R440). -/
  flips : Store (BitVec 72) := .empty
  deriving DecidableEq, Repr

/-- Where the device stands between resets (R429 to R438). -/
structure BootSt where
  /-- Reset is held while the die is too hot (R429). -/
  held : Bool := false
  /-- The cause of the reset that a source has brought in this cycle (R454). -/
  cause : Option Nat := none
  /-- DRAM is still to be filled before DONE. -/
  fill : Bool := false
  filled : Bool := false
  /-- An image is verified and running. -/
  running : Bool := false
  manual : Bool := false
  /-- The image last started or tried: B when true (R436). -/
  tried : Bool := false
  deriving DecidableEq, Repr

/-! ## Clusters and cores (chapters 09 and 10) -/

/-- A message: its header and three payload words (R215). -/
structure Msg where
  h : W72
  w1 : W72
  w2 : W72
  w3 : W72
  deriving DecidableEq, Repr

/-- The states of a core (R210). -/
inductive CoreMode where
  | free | halted | running | fault
  deriving DecidableEq, Repr

/-- An active hardware loop: its body, and whether it runs from the loop cache already (R202, R245). -/
structure LoopSt where
  first : Nat
  last : Nat
  again : Bool := false
  deriving DecidableEq, Repr

/-- A Soric core (R200 to R216, R245). -/
structure CoreSt where
  mode : CoreMode := .free
  vendor : Bool := false
  role : BitVec 4 := 0
  epoch : BitVec 12 := 0
  g : List W72 := List.replicate 16 0
  acc : List (Int × Int) := List.replicate 4 (0, 0)
  p : List (BitVec 16) := List.replicate 8 0
  m : List (BitVec 16) := List.replicate 8 0
  l : List (BitVec 18) := List.replicate 8 0
  b : List (BitVec 16) := List.replicate 8 0
  lc : List (BitVec 16) := List.replicate 2 0
  bexp : BitVec 10 := 0
  /-- SSTAT without its live bits. -/
  sstat : BitVec 16 := 0
  pc : Nat := 0
  govPc : Nat := 0
  faultPc : Nat := 0
  why : Nat := 0
  /-- The loop stack, outermost first. -/
  loops : List LoopSt := []
  inbox : List Msg := []
  bounce : List Msg := []
  /-- CCLK cycles since COMMIT, and the cycle from which each dependent use may issue (R249). -/
  cycle : Nat := 0
  ready : Store Nat := .empty
  deriving DecidableEq, Repr

/-- A cluster beside the CL registers: the port semaphores and the host queues (R198, R217). -/
structure ClusterSt where
  sems : List W72 := List.replicate 8 0
  hostOut : List Msg := []
  hostBnc : List Msg := []
  /-- The core last granted at each of the 16 banks (R195). -/
  granted : List Nat := List.replicate 16 7
  deriving DecidableEq, Repr

/-! ## Zones (chapter 11) -/

/-- A frame reduced over a zone's range: the measure with its gauge, the gauges counted, the flags and the stamp and index the
zone's event carries (R255 to R257, R267). -/
structure EvalSt where
  m : Option Int := none
  gauge : Nat := 0
  counted : Nat := 0
  clipped : Bool := false
  unsync : Bool := false
  timeStep : Bool := false
  stamp : W72 := 0
  index : Nat := 0
  deriving DecidableEq, Repr

/-- What an event or a capture keeps of a state change (R267). -/
structure ChangeSt where
  ev : EvalSt := {}
  old : Nat := 0
  new : Nat := 0
  acts : Nat := 0
  fail : Nat := 0
  deriving DecidableEq, Repr

/-- A WRITE of a zone that awaits acknowledgement: how often it was repeated, its value of 8 bytes or 1, and its REQ_ID (R263, R407). -/
structure RemoteSt where
  tries : Nat := 0
  wide : Bool
  value : Nat
  reqId : Nat
  deriving DecidableEq, Repr

/-- A zone beside its table words (R258 to R264, R271). -/
structure ZoneSt where
  st : Nat := 0
  prev : Nat := 0
  clipped : Bool := false
  cu : Nat := 0
  cd : Nat := 0
  vc : Nat := 0
  m : Int := 0
  index : Nat := 0
  /-- The zone's lamp and loop requests stand: from its enabling until they are withdrawn (R261, R270). -/
  asks : Bool := false
  /-- Frames reduced and not yet evaluated, oldest first. -/
  due : List EvalSt := []
  /-- A remote WRITE awaits acknowledgement. -/
  remote : Option RemoteSt := none
  last : ChangeSt := {}
  deriving DecidableEq, Repr

/-- A capture slot in use (R265, R266). -/
structure CapSt where
  zone : Nat
  ch : Nat
  base : Nat
  s : Nat
  first : Nat
  last : Nat
  next : Nat
  w : Nat
  lost : Nat := 0
  short : Bool := false
  copying : Bool := true
  /-- A restart that changes W has ended it at the last shot copied. -/
  ended : Bool := false
  change : ChangeSt := {}
  deriving DecidableEq, Repr

/-- A write of a zone to an object of its own device that waits to be applied (R263). -/
structure SelfWrite where
  zone : Nat
  idx : Nat
  sub : Nat
  wide : Bool
  value : Nat
  deriving DecidableEq, Repr

/-- A TPDO: a transmission asked for, and when it was last sent (R416). -/
structure TpdoSt where
  asked : Bool := false
  sentAt : Option Nat := none
  deriving DecidableEq, Repr

/-! ## Vendor chains (chapters 07 and 08) -/

/-- The settings of the vibration chain in force for a shot (R145, R146). -/
structure VibCfg where
  len : Nat := 8
  mode : Nat := 1
  mask : Nat := 3
  slotMin : Nat := 256
  fade : Nat := 1024
  weak : Nat := 4096
  tie : Nat := 8
  /-- The configured gauge count and the train code. -/
  count : Nat := 0
  train : Nat := 0
  deriving DecidableEq, Repr

/-- The settings of FUSE whose change restarts it (R182, R187). -/
structure FuseCfg where
  favg : Nat
  fdec : Nat
  fk : Int
  deriving DecidableEq, Repr

/-- A shot a chain has seen begin: what governs it (R146, R150, R187). -/
structure ChainShot where
  index : BitVec 48
  stamp : W72
  cfg : VibCfg
  restart : Bool
  /-- BAND_EN has a bit set at the shot's boundary (R144, R160). -/
  band : Bool
  fuse : Option FuseCfg
  fuseRestart : Bool
  deriving DecidableEq, Repr

/-- What PHASE hands to UNWRAP for a shot: the record's words 1 and 2, its clips, whether it is held, the increments and the
amplitudes by row (R149, R151). -/
structure IncSt where
  shot : ChainShot
  w1 : W72
  w2 : W72
  clips : Nat
  hold : Bool
  dropped : Bool
  dc : List (List Int)
  amp : List (List Nat)
  deriving DecidableEq, Repr

/-- What UNWRAP hands to FUSE for a shot: header word 1 and row 0 as phases and qualities (R183). -/
structure FuseIn where
  shot : ChainShot
  w1 : W72
  row : List (Int × Nat)
  deriving DecidableEq, Repr

/-- One band's filter for one gauge (R158). -/
structure FiltSt where
  y1 : Int := 0
  y2 : Int := 0
  es : Int := 0
  deriving DecidableEq, Repr

/-- BAND's state for one gauge (R157 to R159). -/
structure BandG where
  phiLast : Int := 0
  vb : Int := 0
  x1 : Int := 0
  x2 : Int := 0
  filt : List FiltSt := List.replicate 8 {}
  n0 : Nat := 0
  n1 : Nat := 0
  n2 : Nat := 0
  deriving DecidableEq, Repr

/-- A band's settings in force (R145). -/
structure BandCfg where
  on : Bool := false
  kind : Nat := 0
  b0 : Int := 0
  a1 : Int := 0
  a2 : Int := 0
  deriving DecidableEq, Repr

/-- BAND's frame in progress (R157 to R160). -/
structure BandSt where
  active : Bool := false
  /-- The next output sample to take, and whether a frame is open at it. -/
  next : Nat := 0
  inFrame : Bool := false
  start : Nat := 0
  log2k : Nat := 8
  en : Nat := 0
  cfg : List BandCfg := List.replicate 8 {}
  flags : Nat := 0
  restart : Bool := true
  stamp : W72 := 0
  train : Nat := 0
  /-- The frame's last sample is taken and the frame waits to be formed. -/
  due : Bool := false
  /-- The settings of the chain whose shots are taken. -/
  vib : VibCfg := {}
  /-- Restarts to come: once every shot below the first number is taken, BAND goes on at the second with new settings (R160). -/
  stops : List (Nat × Nat × VibCfg) := []
  /-- The first shot for which the ring did not allow band frames, while it does not (R163). -/
  susp : Option Nat := none
  deriving DecidableEq, Repr

/-- FUSE's state for one output gauge of the frame in progress (R183, R184, R191). -/
structure FuseO where
  phiLast : Int := 0
  vb : Int := 0
  sum : Int := 0
  any0 : Bool := false
  any1 : Bool := false
  all0 : Bool := true
  deriving DecidableEq, Repr

/-- A DTS window as FUSE takes it: its first and last index and T_R of each pitch-1 gauge that has grade DEGRADED or GOOD
(R186). -/
structure DtsWin where
  first : Nat
  last : Nat
  temps : List (Option Int)
  deriving DecidableEq, Repr

/-- FUSE's frame in progress and its anchors (R183 to R187). -/
structure FuseSt where
  inFrame : Bool := false
  flags : Nat := 0
  restart : Bool := true
  stamp : W72 := 0
  first : Nat := 0
  train : Nat := 0
  due : Option ChainShot := none
  tcPrev : Option Int := none
  anchors : Nat := 0
  p : List Int := []
  o : List Int := []
  /-- The last index and tp(j) of each frame since the last window. -/
  kept : List (Nat × List Int) := []
  windows : List DtsWin := []
  deriving DecidableEq, Repr

/-- DTS of a channel (R170, R171, R177). -/
structure DtsSt where
  expect : Option Nat := none
  formed : Option (Nat × Nat) := none
  restart : Bool := true
  /-- The even channel of a pair waits for the odd channel's flush of this last index. -/
  waiting : Option Nat := none
  deriving DecidableEq, Repr

/-- What the temperature roles keep of a shot: its stamp, its train code, L_r of its probe, whether it was unsynchronised, and the
flags of its engine record (R168, R175, R190). -/
structure ShotLog where
  index : Nat
  stamp : W72
  train : Nat
  lr : Nat
  unsync : Bool
  flags : Nat := 0
  deriving DecidableEq, Repr

/-- The vendor chains of a channel (R146, R150, R187, R213). -/
structure ChainSt where
  on : Bool := false
  /-- The roles were reloaded: the next boundary restarts the chains. -/
  restart : Bool := false
  cfg : VibCfg := {}
  fuseCfg : Option FuseCfg := none
  /-- FUSE restarts at the next shot with a record (R187). -/
  fuseDue : Bool := false
  shots : List ChainShot := []
  incs : List IncSt := []
  fuseIn : List FuseIn := []
  /-- ROWS and W of the history ring in force (R163), whether its header ring is to be cleared, and the first and last shots whose
  slots were completed since (R165). -/
  histRows : Nat := 1
  histW : Nat := 0
  clearDue : Bool := false
  firstSlot : Option Nat := none
  lastSlot : Nat := 0
  /-- The shots whose slots are intact, as runs of successive indices, oldest first (R162). -/
  slots : List (Nat × Nat) := []
  band : BandSt := {}
  fuse : FuseSt := {}
  dts : DtsSt := {}
  /-- The shots begun, oldest first, and whether the last boundary belonged to a running chain or accumulator. -/
  log : List ShotLog := []
  logOn : Bool := false
  deriving DecidableEq, Repr

/-! ## The state of the block -/

/-- The whole state (INVENTORY.md, State). -/
structure State where
  /-- The commands that wait, first in first out (the model's own). -/
  pending : List Instr := []
  /-- Values fixed by no rule are drawn by this counter (the model's own, DESIGN CHOICE, log entry 4). -/
  fresh : Nat := 0
  /-- What the block has sent on its pins and links, oldest first (the model's own, DESIGN CHOICE, log entry 5). -/
  tx : List Out := []
  /-- The 32-bit registers, keyed by normal-view address; an unlisted one holds its reset value. -/
  regs : Store W32 := .empty
  /-- The 72-bit registers, keyed by the address of LO; an unlisted one holds 0. -/
  wide : Store W72 := .empty
  /-- The three requesters, keyed by their REQ code. -/
  reqs : Store ReqSt := .empty
  /-- The local time and the source switch. -/
  time : TimeSt := {}
  /-- The heads, keyed by head. -/
  heads : Store HeadSt := .empty
  /-- Probe memory words, keyed by 16384 h + 8192 b + w. -/
  probe : Store W72 := .empty
  /-- The lanes, keyed by channel. -/
  lanes : Store LaneSt := .empty
  /-- The shot schedulers, keyed by head. -/
  scheds : Store SchedSt := .empty
  /-- The time-interval units, keyed by unit. -/
  tdcs : Store TdcSt := .empty
  /-- The compression engines, keyed by channel. -/
  ces : Store CeSt := .empty
  /-- Raman accumulators, keyed by 262144 ch + 131072 bank + 65536 (ST) + bin. -/
  raman : Store Int := .empty
  /-- DRAM words of 72 data and 8 check bits, keyed by 4294967296 m + local address (R273, R279). -/
  dram : Store (BitVec 80) := .empty
  /-- The word the last DRAM read delivered, and its poisoned tag (DESIGN CHOICE, log entry 3). -/
  dramOut : W72 × Bool := (0, false)
  /-- DRAM banks, keyed by 64 m + 16 rank + 4 bank group + bank. -/
  banks : Store BankSt := .empty
  /-- The memory controllers, keyed by channel. -/
  mcs : Store McSt := .empty
  /-- The cores, keyed by 8 cl + c. -/
  cores : Store CoreSt := .empty
  /-- The clusters. -/
  clusters : Store ClusterSt := .empty
  /-- The vendor chains, keyed by channel. -/
  chains : Store ChainSt := .empty
  /-- Previous phases of valid branches, keyed by 65536 (16 ch + 2 k + p) + gauge (R149). -/
  branches : Store (Option Int) := .empty
  /-- Phase and predictor, keyed by 65536 (8 ch + row) + gauge (R150). -/
  phis : Store (Int × Int) := .empty
  /-- BAND's gauges, keyed by 65536 ch + gauge. -/
  bands : Store BandG := .empty
  /-- FUSE's output gauges, keyed by 65536 ch + gauge. -/
  fuses : Store FuseO := .empty
  /-- Valid coil readings of a head with their stamps, newest first (R167). -/
  coils : Store (List (W72 × Int)) := .empty
  /-- The last frame of a channel and kind, keyed by 4 ch + kind: 0 PHASE4, 1 band, 2 DTS, 3 FUSE. -/
  frames : Store (List W72) := .empty
  /-- Cluster SRAM words, keyed by 65536 cl + address (R195). -/
  sram : Store W72 := .empty
  /-- Core data memories, keyed by 16384 core + 4096 k + address, k being 0 for X, 1 for Y and 2 for C (R201). -/
  cmem : Store W72 := .empty
  /-- Instruction memories, keyed by 2048 core + address (R201). -/
  imem : Store (BitVec 64) := .empty
  /-- Messages on their way to their destination check, oldest first (R216). -/
  fabric : List Msg := []
  /-- Bounced messages on their way back, oldest first (R216). -/
  returning : List Msg := []
  /-- Zone table words, keyed by 8 z + w (R251). -/
  zones : Store W72 := .empty
  /-- The zones, keyed by zone. -/
  zoneSts : Store ZoneSt := .empty
  /-- The event queue, oldest record first, four words each; records dropped since the last LOST record; EVSEQ (R267, R268). -/
  evq : List (List W72) := []
  evLost : Nat := 0
  evSeq : W32 := 0
  /-- Capture slots in use, keyed by slot. -/
  caps : Store (Option CapSt) := .empty
  /-- Zone writes to this device that wait, oldest first. -/
  selfWrites : List SelfWrite := []
  /-- TPDOs, keyed by 8 c + t. -/
  tpdos : Store TpdoSt := .empty
  /-- Numbers held by dictionary entries, keyed by 256 times the index plus the sub-index (R393). -/
  od : Store Nat := .empty
  /-- Strings held by dictionary entries, keyed likewise; role keys among them. -/
  odBytes : Store (List Byte) := .empty
  /-- The cores wait for the core PLL (R428). -/
  stalled : Bool := false
  /-- The attention vectors. -/
  vecs : Store VecSt := .empty
  /-- The export queues, keyed by v. -/
  queues : Store QueueSt := .empty
  /-- MSI-X table words 0 to 2047 and pending-bit array words 2048 to 2063, of 32 bits each. -/
  msix : Store W32 := .empty
  /-- Yarfel sessions. -/
  sessions : Store SessionSt := .empty
  /-- The MSI-X function mask (R322). -/
  funcMask : Bool := false
  /-- The DMA channels, and descriptor words keyed by 4 d + w (R300). -/
  dmas : Store DmaSt := .empty
  /-- The channel granted last at each PRIO (R306). -/
  dmaLast : List Nat := [63, 63, 63, 63]
  descs : Store W72 := .empty
  /-- The lamp ports; group-map words keyed by 128 p + e; output status keyed by 65536 p + o; when each thermistor slot's reading
  arrived (R332, R333, R344). -/
  lamps : Store LampSt := .empty
  groups : Store W72 := .empty
  lampOuts : Store (BitVec 18) := .empty
  thAt : Store Nat := .empty
  /-- The front end, the housekeeping converter and the loops. -/
  padc : PadcSt := {}
  hadc : HadcSt := {}
  loopOuts : Store LoopOutSt := .empty
  /-- Quince. -/
  quince : QuinceSt := {}
  /-- The network, the CAN ports, the PTP ports. -/
  net : NetSt := {}
  cans : Store CanSt := .empty
  ptps : Store PtpSt := .empty
  /-- The eNVM and the loader. -/
  nvm : NvmSt := {}
  boot : BootSt := {}
  deriving DecidableEq, Repr

/-- The block right after power-on reset (R10, R429, R447): every register at its reset value but BOOT_STAT.COLD, which the cold
reset sets; RESET_WHY is POR, DRAM waits to be filled, the queue is empty. -/
def State.reset : State := { regs := ⟨[(0xC, 0x20)]⟩, boot := { fill := true } }

end Sys2Proof.Machine
end

