-- ==== Sys2Proof/Machine/RegMap.lean ====
section
/-!
DEFINITION. The register map: every row of every block's map (R30, R32, R41 and the map rules named at each block), with the
access of its fields (R36), its reset value and the field ranges whose violation refuses a write (R11, R41). The registers that
hold no writable field and the reserved rows are listed too, since a row of the map is mapped (R32).
-/
namespace Sys2Proof.Machine

/-- The blocks of the register map (R30). -/
inductive Blk where
  | sys | life | nvm | time | tdc | shot | cal | hk | pfe | loop | lamp | zone | dma | attn | net | can | head | lane | ce | cl | mc
  deriving DecidableEq, Repr

/-- How an address of the map behaves as a whole: a register of fields (R36), an RS register (R40), its ACK register (R40), a
privileged register (R44), a 72-bit value in LO, MID and HI, readable only or writable (R46 to R48). -/
inductive RegKind where
  | plain | rs | ack | priv | wideRO | wideRW
  deriving DecidableEq, Repr

/-- One range a field must keep, and the cause a write outside it is refused with. -/
structure FieldChk where
  hi : Nat
  lo : Nat
  signed : Bool
  min : Int
  max : Int
  cause : Cause
  deriving DecidableEq, Repr

/-- One row of a block's map: n registers, stride bytes apart, and the access masks of its fields (R36). -/
structure RegRow where
  off : Nat
  n : Nat := 1
  stride : Nat := 0x4000
  kind : RegKind := .plain
  reset : Nat := 0
  step : Nat := 0
  rw : Nat := 0
  lk : Nat := 0
  rwl : Nat := 0
  w1p : Nat := 0
  wo : Nat := 0
  rc : Nat := 0
  chk : List FieldChk := []
  deriving DecidableEq, Repr

/-- The base of a block's first instance (R30). -/
def Blk.base : Blk → Nat
  | .sys => 0x0
  | .life => 0x10000
  | .nvm => 0x20000
  | .time => 0x30000
  | .tdc => 0x40000
  | .shot => 0x50000
  | .cal => 0x60000
  | .hk => 0x70000
  | .pfe => 0x80000
  | .loop => 0x90000
  | .lamp => 0xa0000
  | .zone => 0xb0000
  | .dma => 0xc0000
  | .attn => 0xd0000
  | .net => 0xe0000
  | .can => 0xf0000
  | .head => 0x100000
  | .lane => 0x200000
  | .ce => 0x400000
  | .cl => 0x600000
  | .mc => 0x800000

/-- How many instances of a block there are (R30). -/
def Blk.count : Blk → Nat
  | .sys => 1
  | .life => 1
  | .nvm => 1
  | .time => 1
  | .tdc => 1
  | .shot => 1
  | .cal => 1
  | .hk => 1
  | .pfe => 1
  | .loop => 1
  | .lamp => 1
  | .zone => 1
  | .dma => 1
  | .attn => 1
  | .net => 1
  | .can => 1
  | .head => 4
  | .lane => 32
  | .ce => 32
  | .cl => 32
  | .mc => 2

/-- The registers every block has (R41). -/
def errRows : List RegRow :=
  [{ off := 0x3FF0, kind := .rs }, { off := 0x3FF4, kind := .ack }, { off := 0x3FF8 }, { off := 0x3FFC }]

/-- The rows of the SYS map (R447). -/
def sysRows : List RegRow :=
  [{ off := 0x0, reset := 0x32500001 },
   { off := 0x4 },
   { off := 0x8 },
   { off := 0xc },
   { off := 0x10, kind := .priv, w1p := 0xf },
   { off := 0x14, kind := .priv, rw := 0xf },
   { off := 0x18, reset := 0x1f, rw := 0x1f },
   { off := 0x1c, reset := 0x1f },
   { off := 0x20, reset := 0x8, rw := 0x1f0f, chk := [⟨3, 0, false, 0, 12, .enc⟩] },
   { off := 0x24, rw := 0xffffffff },
   { off := 0x30, kind := .rs },
   { off := 0x34, kind := .ack }]

/-- The rows of the LIFE map (R448). -/
def lifeRows : List RegRow :=
  [{ off := 0x0 },
   { off := 0x4, kind := .priv, lk := 0x80000000, rwl := 0x30, w1p := 0x1 },
   { off := 0x8 },
   { off := 0xc },
   { off := 0x10, kind := .rs },
   { off := 0x14, kind := .ack }]

/-- The rows of the NVM map (R449). -/
def nvmRows : List RegRow :=
  [{ off := 0x0, lk := 0x80000000, rwl := 0xf },
   { off := 0x4, kind := .priv, reset := 0x6, rw := 0x7 },
   { off := 0x8 },
   { off := 0xc },
   { off := 0x10, kind := .rs },
   { off := 0x14, kind := .ack }]

/-- The rows of the TIME map (R121). -/
def timeRows : List RegRow :=
  [{ off := 0x0, rw := 0x1 },
   { off := 0x4 },
   { off := 0x8, reset := 0x7, lk := 0x80000000, rwl := 0x7 },
   { off := 0xc, rw := 0xffff },
   { off := 0x10 },
   { off := 0x14, rw := 0xffffffff, chk := [⟨31, 0, true, -8589935, 8589935, .range⟩] },
   { off := 0x18, rw := 0x1 },
   { off := 0x20, kind := .wideRO },
   { off := 0x2c },
   { off := 0x30, kind := .wideRW },
   { off := 0x40, kind := .rs },
   { off := 0x44, kind := .ack }]

/-- The rows of the TDC map (R122). -/
def tdcRows : List RegRow :=
  [{ off := 0x0, reset := 0x1, rw := 0x1 },
   { off := 0x4 },
   { off := 0x8, kind := .rs },
   { off := 0xc, kind := .ack },
   { off := 0x100, n := 32, stride := 0x40, reset := 0x1, rw := 0x1 },
   { off := 0x900, n := 8, stride := 0x40, rw := 0x37ff7 },
   { off := 0x104, n := 32, stride := 0x40, reset := 0x11f4, rw := 0xff33ff },
   { off := 0x904, n := 8, stride := 0x40, reset := 0x10, rw := 0xff0031 },
   { off := 0x108, n := 32, stride := 0x40 },
   { off := 0x908, n := 8, stride := 0x40, reset := 0x2710, rw := 0xffffff, chk := [⟨23, 0, false, 1, 16777215, .range⟩] },
   { off := 0x10c, n := 32, stride := 0x40 },
   { off := 0x90c, n := 8, stride := 0x40, w1p := 0x3 },
   { off := 0x110, n := 40, stride := 0x40, kind := .wideRO },
   { off := 0x11c, n := 40, stride := 0x40, rc := 0x3 },
   { off := 0x120, n := 40, stride := 0x40, rw := 0xffff },
   { off := 0x124, n := 40, stride := 0x40 },
   { off := 0x128, n := 40, stride := 0x40, rw := 0xffffffff },
   { off := 0x12c, n := 40, stride := 0x40, rw := 0xffffffff },
   { off := 0x130, n := 40, stride := 0x40, kind := .wideRO },
   { off := 0x13c, n := 40, stride := 0x40 }]

/-- The rows of the SHOT map (R120). -/
def shotRows : List RegRow :=
  [{ off := 0x0, n := 4, stride := 0x100, rw := 0x331 },
   { off := 0x4, n := 4, stride := 0x100, reset := 0x186a0, rw := 0xffffff, chk := [⟨23, 0, false, 1200, 16777215, .range⟩] },
   { off := 0x8, n := 4, stride := 0x100, reset := 0x40, rw := 0xff },
   { off := 0xc, n := 4, stride := 0x100, rw := 0xfffffff },
   { off := 0x10, n := 4, stride := 0x100, reset := 0x64, rw := 0xffff },
   { off := 0x14, n := 4, stride := 0x100 },
   { off := 0x18, n := 4, stride := 0x100 },
   { off := 0x1c, n := 4, stride := 0x100 },
   { off := 0x20, n := 4, stride := 0x100, w1p := 0x1 },
   { off := 0x24, n := 4, stride := 0x100, kind := .wideRO },
   { off := 0x30, n := 4, stride := 0x100, kind := .wideRO },
   { off := 0x3c, n := 4, stride := 0x100 },
   { off := 0x400, kind := .rs },
   { off := 0x404, kind := .ack }]

/-- The rows of the CAL map (R392). -/
def calRows : List RegRow :=
  [{ off := 0x0, reset := 0x13f, rw := 0x13f },
   { off := 0x4 },
   { off := 0x8, w1p := 0xf },
   { off := 0xc, rw := 0xffffffff },
   { off := 0x10, reset := 0x642010, rw := 0xffffffff, chk := [⟨31, 16, false, 10, 10000, .range⟩, ⟨15, 8, false, 1, 255, .range⟩, ⟨7, 0, false, 1, 255, .range⟩] },
   { off := 0x14, reset := 0x5a0003c, rw := 0xffffffff, chk := [⟨15, 0, false, 1, 65535, .range⟩] },
   { off := 0x18, reset := 0x80010, rw := 0xffffffff },
   { off := 0x1c, reset := 0x2030040, rw := 0xff0fffff },
   { off := 0x20, reset := 0x200, rw := 0x7ff, chk := [⟨10, 0, false, 64, 1024, .range⟩] },
   { off := 0x24, reset := 0x32ff07, rw := 0xffffff0f, chk := [⟨3, 0, false, 1, 14, .range⟩] },
   { off := 0x28, reset := 0x1000000, rw := 0xffff0000, chk := [⟨31, 16, false, 16, 65535, .range⟩] },
   { off := 0x30, n := 4, stride := 0x4 },
   { off := 0x40 },
   { off := 0x44 },
   { off := 0x48, rw := 0xffffffff },
   { off := 0x4c, rw := 0xffffffff },
   { off := 0x80, kind := .rs },
   { off := 0x84, kind := .ack },
   { off := 0x100, n := 32, stride := 0x4 }]

/-- The rows of the HK map (R373). TRIMj comes from the factory with no value stated: it holds 0x4000_0000, a gain of 1.0 and no offset (DESIGN
CHOICE, DESIGN CHOICE, log entry 12). -/
def hkRows0 : List RegRow :=
  [{ off := 0x0, rw := 0x33 },
   { off := 0x4 },
   { off := 0x8, reset := 0x1, rw := 0x3300003f, chk := [⟨5, 0, false, 1, 32, .range⟩] },
   { off := 0xc, reset := 0x3e8, rw := 0xfffff, chk := [⟨19, 0, false, 1, 1000000, .range⟩] },
   { off := 0x10, w1p := 0x1 },
   { off := 0x14, reset := 0x1, rw := 0x33070007, chk := [⟨2, 0, false, 1, 4, .range⟩] },
   { off := 0x18, w1p := 0x1 },
   { off := 0x1c, rw := 0x3f3f3f3f, chk := [⟨5, 0, false, 0, 39, .range⟩, ⟨13, 8, false, 0, 39, .range⟩, ⟨21, 16, false, 0, 39, .range⟩, ⟨29, 24, false, 0, 39, .range⟩] },
   { off := 0x20, n := 8, stride := 0x4, rw := 0x3f3f3f3f, chk := [⟨5, 0, false, 0, 39, .range⟩, ⟨13, 8, false, 0, 39, .range⟩, ⟨21, 16, false, 0, 39, .range⟩, ⟨29, 24, false, 0, 39, .range⟩] },
   { off := 0x40, n := 16, stride := 0x4 },
   { off := 0x80, n := 2, stride := 0x4 },
   { off := 0x88, rc := 0x1 },
   { off := 0x8c, rw := 0xffffffff },
   { off := 0x90, rw := 0xffffffff },
   { off := 0x94, rw := 0xfffffff },
   { off := 0x98, reset := 0x1, rw := 0xffff, chk := [⟨15, 0, false, 1, 65535, .range⟩] },
   { off := 0x9c },
   { off := 0xa0, reset := 0x10, rw := 0xffff, chk := [⟨15, 0, false, 1, 65535, .range⟩] },
   { off := 0xa4 },
   { off := 0xc0, n := 3, stride := 0x4, reset := 0x40000000 }]

/-- The rows of the HK map, continued. -/
def hkRows1 : List RegRow :=
  [{ off := 0xe0, kind := .rs },
   { off := 0xe4, kind := .ack }]

/-- All rows of the HK map. -/
def hkRows : List RegRow := hkRows0 ++ hkRows1

/-- The rows of the PFE map (R372). -/
def pfeRows0 : List RegRow :=
  [{ off := 0x0, rw := 0x1 },
   { off := 0x4 },
   { off := 0x8, reset := 0x3e80001, rw := 0xffff001f, chk := [⟨4, 0, false, 1, 16, .range⟩] },
   { off := 0xc },
   { off := 0x10, rw := 0xffff },
   { off := 0x14 },
   { off := 0x18, reset := 0x400000, rw := 0xffffff },
   { off := 0x1c, rw := 0xfffffff },
   { off := 0x20, reset := 0x1, rw := 0xffff, chk := [⟨15, 0, false, 1, 65535, .range⟩] },
   { off := 0x24 },
   { off := 0x28, reset := 0x10, rw := 0xffff, chk := [⟨15, 0, false, 1, 65535, .range⟩] },
   { off := 0x2c, rw := 0xffffffff },
   { off := 0x30, kind := .rs },
   { off := 0x34, kind := .ack },
   { off := 0x40, n := 4, stride := 0x4, rw := 0xff },
   { off := 0x80, n := 8, stride := 0x4, rw := 0xffffff },
   { off := 0xa0, n := 8, stride := 0x4, reset := 0x400000, rw := 0xffffff },
   { off := 0x100, n := 16, stride := 0x10, rw := 0xffff00ff },
   { off := 0x104, n := 16, stride := 0x10, rw := 0xfc00bfbf },
   { off := 0x108, n := 16, stride := 0x10, reset := 0x9c40, rw := 0xff07ffff, chk := [⟨18, 0, false, 125, 400000, .range⟩] }]

/-- The rows of the PFE map, continued. -/
def pfeRows1 : List RegRow :=
  [{ off := 0x10c, n := 16, stride := 0x10, rw := 0x8fff003f, chk := [⟨27, 24, false, 0, 3, .enc⟩] },
   { off := 0x200, n := 16, stride := 0x4 },
   { off := 0x240, n := 16, stride := 0x4 }]

/-- All rows of the PFE map. -/
def pfeRows : List RegRow := pfeRows0 ++ pfeRows1

/-- The rows of the LOOP map (R374). -/
def loopRows : List RegRow :=
  [{ off := 0x0, reset := 0x6924cd26, lk := 0x80000000, rwl := 0x7fffffff },
   { off := 0x4 },
   { off := 0x10, kind := .rs },
   { off := 0x14, kind := .ack },
   { off := 0x100, n := 8, stride := 0x20, rw := 0xffff000b },
   { off := 0x104, n := 8, stride := 0x20, reset := 0xe10, rw := 0xffff, chk := [⟨15, 0, false, 0, 25000, .range⟩] },
   { off := 0x108, n := 8, stride := 0x20 },
   { off := 0x10c, n := 8, stride := 0x20 },
   { off := 0x110, n := 8, stride := 0x20 },
   { off := 0x114, n := 8, stride := 0x20, reset := 0xc8, rw := 0xfff, chk := [⟨11, 0, false, 50, 4095, .range⟩] },
   { off := 0x118, n := 8, stride := 0x20 },
   { off := 0x11c, n := 8, stride := 0x20 }]

/-- The rows of the LAMP map (R349). -/
def lampRows0 : List RegRow :=
  [{ off := 0x0, kind := .priv, rw := 0xf },
   { off := 0x4, reset := 0xfffffff, lk := 0x80000000, rwl := 0xfffffff },
   { off := 0x8, rc := 0xff },
   { off := 0x10, kind := .rs },
   { off := 0x14, kind := .ack },
   { off := 0x18, reset := 0xa, rw := 0xff, chk := [⟨7, 0, false, 1, 255, .range⟩] },
   { off := 0x40, n := 16, stride := 0x4, rw := 0x83ff00ff },
   { off := 0x80, n := 16, stride := 0x4, reset := 0x3c002d0, rw := 0xffffffff },
   { off := 0xc0, n := 16, stride := 0x4 },
   { off := 0x100, n := 4, stride := 0x80, rw := 0x331, chk := [⟨5, 4, false, 0, 2, .enc⟩, ⟨9, 8, false, 0, 2, .enc⟩] },
   { off := 0x104, n := 4, stride := 0x80, reset := 0x50, rw := 0xff007f },
   { off := 0x108, n := 4, stride := 0x80, reset := 0x1, rw := 0x7ff },
   { off := 0x10c, n := 4, stride := 0x80, reset := 0x9c40, rw := 0xffff, chk := [⟨15, 0, false, 400, 65535, .range⟩] },
   { off := 0x110, n := 4, stride := 0x80, rw := 0xffffff },
   { off := 0x114, n := 4, stride := 0x80, rw := 0xfffffff },
   { off := 0x118, n := 4, stride := 0x80, rw := 0x7 },
   { off := 0x11c, n := 4, stride := 0x80, reset := 0x40, rw := 0x1ffff, chk := [⟨15, 0, false, 1, 65535, .range⟩] },
   { off := 0x120, n := 4, stride := 0x80, rw := 0xffff },
   { off := 0x124, n := 4, stride := 0x80, reset := 0xf0081400, rw := 0xffffffff, chk := [⟨23, 16, false, 1, 255, .range⟩] },
   { off := 0x128, n := 4, stride := 0x80 }]

/-- The rows of the LAMP map, continued. -/
def lampRows1 : List RegRow :=
  [{ off := 0x12c, n := 4, stride := 0x80, rw := 0xffffffff },
   { off := 0x130, n := 4, stride := 0x80, rw := 0xffffffff },
   { off := 0x134, n := 4, stride := 0x80, rw := 0xffffffff },
   { off := 0x138, n := 4, stride := 0x80, rw := 0xffffffff },
   { off := 0x13c, n := 4, stride := 0x80, rw := 0xffffffff },
   { off := 0x140, n := 8, stride := 0x4, rw := 0xffffffff },
   { off := 0x160, n := 8, stride := 0x4 },
   { off := 0x1c0, n := 8, stride := 0x4, rw := 0xffffffff },
   { off := 0x1e0, n := 8, stride := 0x4 },
   { off := 0x240, n := 8, stride := 0x4, rw := 0xffffffff },
   { off := 0x260, n := 8, stride := 0x4 },
   { off := 0x2c0, n := 8, stride := 0x4, rw := 0xffffffff },
   { off := 0x2e0, n := 8, stride := 0x4 }]

/-- All rows of the LAMP map. -/
def lampRows : List RegRow := lampRows0 ++ lampRows1

/-- The rows of the ZONE map (R272). -/
def zoneRows : List RegRow :=
  [{ off := 0x0, reset := 0x1, rw := 0x3 },
   { off := 0x4 },
   { off := 0x8, rc := 0x3 },
   { off := 0xc },
   { off := 0x10, reset := 0x100, rw := 0x7ff, chk := [⟨10, 0, false, 1, 1024, .range⟩] },
   { off := 0x14, w1p := 0x1 },
   { off := 0x18, rw := 0xffffffff },
   { off := 0x1c, rw := 0xffffffff },
   { off := 0x20, n := 4, stride := 0xc, kind := .wideRO },
   { off := 0x50, rw := 0xfffffff },
   { off := 0x54, reset := 0x1, rw := 0xffff, chk := [⟨15, 0, false, 1, 65535, .range⟩] },
   { off := 0x58, rw := 0x7f, chk := [⟨6, 0, false, 0, 64, .range⟩] },
   { off := 0x5c, wo := 0x3f },
   { off := 0x60 },
   { off := 0x64 },
   { off := 0x68, reset := 0x30a, rw := 0xfff, chk := [⟨7, 0, false, 1, 255, .range⟩] },
   { off := 0x6c, rw := 0xffffffff },
   { off := 0x80, kind := .rs },
   { off := 0x84, kind := .ack }]

/-- The rows of the DMA map (R326). -/
def dmaRows0 : List RegRow :=
  [{ off := 0x0 },
   { off := 0x4 },
   { off := 0x8, kind := .rs },
   { off := 0xc, kind := .ack },
   { off := 0x10 },
   { off := 0x100, n := 64, stride := 0x40, w1p := 0x3 },
   { off := 0x104, n := 64, stride := 0x40, reset := 0x10000, rw := 0x3f030310, chk := [⟨29, 24, false, 0, 9, .enc⟩] },
   { off := 0x108, n := 64, stride := 0x40, rw := 0x1fff },
   { off := 0x10c, n := 64, stride := 0x40, reset := 0x10000 },
   { off := 0x110, n := 64, stride := 0x40 },
   { off := 0x114, n := 64, stride := 0x40 },
   { off := 0x118, n := 64, stride := 0x40 },
   { off := 0x11c, n := 64, stride := 0x40, rw := 0xffffffff },
   { off := 0x120, n := 64, stride := 0x40, rw := 0xffffffff },
   { off := 0x124, n := 64, stride := 0x40, rw := 0xffffffff },
   { off := 0x128, n := 64, stride := 0x40 },
   { off := 0x12c, n := 64, stride := 0x40 },
   { off := 0x130, n := 64, stride := 0x40 },
   { off := 0x134, n := 64, stride := 0x40 },
   { off := 0x138, n := 64, stride := 0x40 }]

/-- The rows of the DMA map, continued. -/
def dmaRows1 : List RegRow :=
  [{ off := 0x13c, n := 64, stride := 0x40 },
   { off := 0x1800, n := 16, stride := 0x20, rw := 0x80071f00 },
   { off := 0x1804, n := 16, stride := 0x20, rw := 0xffffffff },
   { off := 0x1808, n := 16, stride := 0x20, rw := 0xffffffff },
   { off := 0x180c, n := 16, stride := 0x20, rw := 0xffffffff },
   { off := 0x1810, n := 16, stride := 0x20, rw := 0xf },
   { off := 0x1814, n := 16, stride := 0x20 },
   { off := 0x1818, n := 16, stride := 0x20 },
   { off := 0x181c, n := 16, stride := 0x20 }]

/-- All rows of the DMA map. -/
def dmaRows : List RegRow := dmaRows0 ++ dmaRows1

/-- The rows of the ATTN map (R327). -/
def attnRows : List RegRow :=
  [{ off := 0x0, rw := 0x2 },
   { off := 0x4 },
   { off := 0x8, rw := 0xff },
   { off := 0xc },
   { off := 0x40, n := 16, stride := 0x4, rc := 0xffffffff },
   { off := 0x80, n := 16, stride := 0x4, rw := 0xffffffff },
   { off := 0x100, n := 64, stride := 0x4, rw := 0xffffffff },
   { off := 0x200, n := 192, stride := 0x4, reset := 0x1, rw := 0xffff00ff },
   { off := 0x800, n := 128, stride := 0x20, kind := .wideRO },
   { off := 0x80c, n := 128, stride := 0x20 },
   { off := 0x810, n := 128, stride := 0x20, w1p := 0x1 },
   { off := 0x814, n := 128, stride := 0x20, rw := 0x1 },
   { off := 0x818, n := 128, stride := 0x20, rw := 0xffffffff },
   { off := 0x81c, n := 128, stride := 0x20 },
   { off := 0x1800, kind := .rs },
   { off := 0x1804, kind := .ack }]

/-- The rows of the NET map (R421). -/
def netRows : List RegRow :=
  [{ off := 0x0, rw := 0x3 },
   { off := 0x4 },
   { off := 0x8, rw := 0xffffffff },
   { off := 0xc, rw := 0xffffffff },
   { off := 0x10, rw := 0xffffffff },
   { off := 0x20, rw := 0x7ff, chk := [⟨10, 0, false, 24, 1056, .range⟩] },
   { off := 0x24, w1p := 0x1 },
   { off := 0x28, rc := 0x1 },
   { off := 0x40, kind := .rs },
   { off := 0x44, kind := .ack },
   { off := 0x100, n := 2, stride := 0x40, rw := 0xfff001f, chk := [⟨2, 1, false, 0, 1, .enc⟩] },
   { off := 0x104, n := 2, stride := 0x40 },
   { off := 0x108, n := 2, stride := 0x40 },
   { off := 0x10c, n := 2, stride := 0x40 },
   { off := 0x110, n := 2, stride := 0x40, rw := 0xffffffff },
   { off := 0x114, n := 2, stride := 0x40, rw := 0xffffffff },
   { off := 0x118, n := 2, stride := 0x40, rw := 0xffffffff },
   { off := 0x11c, n := 2, stride := 0x40, rw := 0xffffffff },
   { off := 0x1000, n := 264, stride := 0x4, rw := 0xffffffff }]

/-- The rows of the CAN map (R422). -/
def canRows : List RegRow :=
  [{ off := 0x0, kind := .rs },
   { off := 0x4, kind := .ack },
   { off := 0x100, n := 2, stride := 0x80, reset := 0x120, rw := 0x7077f, chk := [⟨18, 16, false, 0, 1, .range⟩, ⟨10, 8, false, 0, 3, .enc⟩, ⟨6, 4, false, 0, 3, .enc⟩] },
   { off := 0x104, n := 2, stride := 0x80, reset := 0x1, rw := 0x7f, chk := [⟨6, 0, false, 1, 127, .range⟩] },
   { off := 0x108, n := 2, stride := 0x80 },
   { off := 0x10c, n := 2, stride := 0x80 },
   { off := 0x110, n := 2, stride := 0x80, rw := 0xffffffff },
   { off := 0x114, n := 2, stride := 0x80, rw := 0xffffffff },
   { off := 0x118, n := 2, stride := 0x80, rw := 0xffffffff },
   { off := 0x11c, n := 2, stride := 0x80 },
   { off := 0x120, n := 2, stride := 0x80, rw := 0xfffffff },
   { off := 0x124, n := 2, stride := 0x80, reset := 0x1, rw := 0xffff },
   { off := 0x140, n := 8, stride := 0x8, rw := 0xdfffffff },
   { off := 0x144, n := 8, stride := 0x8, rw := 0x1fffffff },
   { off := 0x1c0, n := 8, stride := 0x8, rw := 0xdfffffff },
   { off := 0x1c4, n := 8, stride := 0x8, rw := 0x1fffffff }]

/-- The rows of the HEAD map (R73). -/
def headRows0 : List RegRow :=
  [{ off := 0x0, rw := 0xff03 },
   { off := 0x4, reset := 0x10 },
   { off := 0x8, reset := 0x1, rw := 0x317fff, chk := [⟨14, 0, false, 1, 16384, .range⟩] },
   { off := 0xc, reset := 0x8000, rw := 0xffff },
   { off := 0x10, rw := 0xffff, chk := [⟨15, 0, false, 0, 18000, .range⟩] },
   { off := 0x14, w1p := 0x1 },
   { off := 0x18, lk := 0x80000000, rwl := 0x3fff, chk := [⟨13, 0, false, 0, 8192, .range⟩] },
   { off := 0x1c, rw := 0x7ff00ff },
   { off := 0x20, n := 8, stride := 0x4, rw := 0xffffffff },
   { off := 0x40, rw := 0xffffffff },
   { off := 0x44, rw := 0xffffffff },
   { off := 0x48, reset := 0x1, rw := 0x137fff, chk := [⟨14, 0, false, 1, 16384, .range⟩] },
   { off := 0x4c, rw := 0x1ffff },
   { off := 0x50, w1p := 0x1 },
   { off := 0x54, reset := 0x46003c0, rw := 0xffffffff },
   { off := 0x58, reset := 0xa10, rw := 0xffff, chk := [⟨15, 8, false, 1, 255, .range⟩] },
   { off := 0x5c },
   { off := 0x60 },
   { off := 0x64, reset := 0x8, rw := 0xff },
   { off := 0x68, rw := 0xffffffff }]

/-- The rows of the HEAD map, continued. -/
def headRows1 : List RegRow :=
  [{ off := 0x6c, rw := 0xffffffff },
   { off := 0x80, n := 8, stride := 0x8, rw := 0xfffff },
   { off := 0x84, n := 8, stride := 0x8, rw := 0xfffff },
   { off := 0xc0, n := 8, stride := 0x4, rw := 0xffff },
   { off := 0xe0, kind := .rs },
   { off := 0xe4, kind := .ack }]

/-- All rows of the HEAD map. -/
def headRows : List RegRow := headRows0 ++ headRows1

/-- The rows of the LANE map (R92). -/
def laneRows0 : List RegRow :=
  [{ off := 0x0, reset := 0x3f, rw := 0x1013f },
   { off := 0x4, rc := 0x2000000 },
   { off := 0x8, rw := 0xffffff },
   { off := 0xc, reset := 0x400, rw := 0x7ff, chk := [⟨10, 0, false, 16, 1024, .range⟩] },
   { off := 0x10, reset := 0x1000, rw := 0xffffffff },
   { off := 0x14, reset := 0x1, rw := 0xffff },
   { off := 0x18, rw := 0xffffff },
   { off := 0x1c, reset := 0x400, rw := 0x3f0307ff, chk := [⟨10, 0, false, 64, 1024, .range⟩] },
   { off := 0x20, w1p := 0x1 },
   { off := 0x40, reset := 0x4000, rw := 0xffffffff },
   { off := 0x44, reset := 0x40000000, rw := 0xffffffff },
   { off := 0x48, reset := 0x4000, rw := 0xffffffff },
   { off := 0x4c, reset := 0x40000000, rw := 0xffffffff },
   { off := 0x80, kind := .rs },
   { off := 0x84, kind := .ack },
   { off := 0x100, n := 6, stride := 0x40, rw := 0x7 },
   { off := 0x104, n := 6, stride := 0x40, rw := 0xffff, chk := [⟨15, 0, true, -4096, 4095, .range⟩] },
   { off := 0x108, n := 6, stride := 0x40, rw := 0x7f },
   { off := 0x10c, n := 6, stride := 0x40, reset := 0x4000, rw := 0xffff, chk := [⟨15, 0, false, 8192, 32767, .range⟩] },
   { off := 0x110, n := 6, stride := 0x40, rw := 0xffffffff }]

/-- The rows of the LANE map, continued. -/
def laneRows1 : List RegRow :=
  [{ off := 0x114, n := 6, stride := 0x40, rw := 0xffffffff },
   { off := 0x118, n := 6, stride := 0x40 },
   { off := 0x11c, n := 6, stride := 0x40 },
   { off := 0x120, n := 6, stride := 0x40 },
   { off := 0x124, n := 6, stride := 0x40, kind := .wideRO },
   { off := 0x130, n := 6, stride := 0x40 },
   { off := 0x134, n := 6, stride := 0x40 },
   { off := 0x138, n := 6, stride := 0x40 },
   { off := 0x13c, n := 6, stride := 0x40 }]

/-- All rows of the LANE map. -/
def laneRows : List RegRow := laneRows0 ++ laneRows1

/-- The rows of the CE map (R143). -/
def ceRows0 : List RegRow :=
  [{ off := 0x0, rw := 0x3 },
   { off := 0x4 },
   { off := 0x8, reset := 0x400, rw := 0xffff },
   { off := 0xc, reset := 0x1c03, rw := 0x3f03 },
   { off := 0x10, rw := 0xffffffff },
   { off := 0x14, rw := 0xffffff },
   { off := 0x18, rw := 0xffffff },
   { off := 0x1c },
   { off := 0x20 },
   { off := 0x24, rw := 0xffff },
   { off := 0x28, reset := 0x10000, rw := 0x1ffff, chk := [⟨16, 0, false, 1024, 65536, .range⟩] },
   { off := 0x2c },
   { off := 0x30, rw := 0xffffffff },
   { off := 0x34, rw := 0xff },
   { off := 0x38, rw := 0xfffffff },
   { off := 0x3c, w1p := 0x1 },
   { off := 0x40 },
   { off := 0x44, rw := 0xffffffff },
   { off := 0x48, rw := 0xffffffff },
   { off := 0x4c, rw := 0xffffffff }]

/-- The rows of the CE map, continued. -/
def ceRows1 : List RegRow :=
  [{ off := 0x50, rw := 0xffffffff },
   { off := 0x80, kind := .rs },
   { off := 0x84, kind := .ack }]

/-- All rows of the CE map. -/
def ceRows : List RegRow := ceRows0 ++ ceRows1

/-- The rows of the CL map (R222). -/
def clRows0 : List RegRow :=
  [{ off := 0x0, reset := 0x100, step := 0x1, rw := 0x11f },
   { off := 0x4, reset := 0x10000 },
   { off := 0x8, rw := 0x377 },
   { off := 0xc, rw := 0xffffffff },
   { off := 0x10, rw := 0x107 },
   { off := 0x14, rw := 0xffffffff },
   { off := 0x20, n := 4, stride := 0xc, kind := .wideRW },
   { off := 0x50, w1p := 0x1 },
   { off := 0x54 },
   { off := 0x60, n := 4, stride := 0xc, kind := .wideRO },
   { off := 0x90, w1p := 0x1 },
   { off := 0xa0, n := 4, stride := 0xc, kind := .wideRO },
   { off := 0xd0, w1p := 0x1 },
   { off := 0xe0, kind := .rs },
   { off := 0xe4, kind := .ack },
   { off := 0x400, n := 8, stride := 0x80, rw := 0xf00, w1p := 0xf },
   { off := 0x404, n := 8, stride := 0x80 },
   { off := 0x408, n := 8, stride := 0x80, rw := 0x7ff },
   { off := 0x40c, n := 8, stride := 0x80 },
   { off := 0x410, n := 8, stride := 0x80 }]

/-- The rows of the CL map, continued. -/
def clRows1 : List RegRow :=
  [{ off := 0x414, n := 8, stride := 0x80 },
   { off := 0x418, n := 8, stride := 0x80 },
   { off := 0x41c, n := 8, stride := 0x80 },
   { off := 0x420, n := 8, stride := 0x80, rw := 0xffffffff },
   { off := 0x424, n := 8, stride := 0x80, rw := 0xffffffff },
   { off := 0x428, n := 8, stride := 0x80, rw := 0xffffffff },
   { off := 0x42c, n := 8, stride := 0x80 },
   { off := 0x430, n := 8, stride := 0x80 }]

/-- All rows of the CL map. -/
def clRows : List RegRow := clRows0 ++ clRows1

/-- The rows of the MC map (R297). -/
def mcRows0 : List RegRow :=
  [{ off := 0x0, rw := 0xb },
   { off := 0x4 },
   { off := 0x8, rw := 0x113, chk := [⟨1, 0, false, 0, 2, .enc⟩] },
   { off := 0xc },
   { off := 0x10, reset := 0x1001830, rw := 0xffffffff, chk := [⟨31, 16, false, 1, 65535, .range⟩, ⟨7, 0, false, 2, 64, .range⟩] },
   { off := 0x14, reset := 0x40, rw := 0xffff },
   { off := 0x18, reset := 0xa, rw := 0x1f, chk := [⟨3, 0, false, 6, 14, .range⟩] },
   { off := 0x1c, reset := 0x1, rw := 0xffffffff },
   { off := 0x20, reset := 0x6400, rw := 0xffff01, chk := [⟨23, 8, false, 1, 65535, .range⟩] },
   { off := 0x24, rw := 0x10, w1p := 0x1 },
   { off := 0x28, rc := 0x3 },
   { off := 0x2c, reset := 0x100, rw := 0x100, w1p := 0x1 },
   { off := 0x30 },
   { off := 0x40, rw := 0xffffffff },
   { off := 0x44, rw := 0xffffffff },
   { off := 0x48, rw := 0xffffffff },
   { off := 0x4c, rw := 0xffffffff },
   { off := 0x50, rw := 0xffffffff },
   { off := 0x54, rw := 0xffffffff },
   { off := 0x58, rw := 0xffffffff }]

/-- The rows of the MC map, continued. -/
def mcRows1 : List RegRow :=
  [{ off := 0x5c, rw := 0xffffffff },
   { off := 0x60, kind := .wideRO },
   { off := 0x6c },
   { off := 0x70, kind := .rs },
   { off := 0x74, kind := .ack },
   { off := 0x100, n := 2, stride := 0x40, rw := 0x7, chk := [⟨2, 0, false, 0, 6, .enc⟩] },
   { off := 0x104, n := 2, stride := 0x40, reset := 0x10090b, rw := 0x1731f1f, chk := [⟨22, 20, false, 0, 4, .enc⟩, ⟨17, 16, false, 0, 2, .enc⟩, ⟨12, 8, false, 9, 20, .range⟩, ⟨4, 0, false, 9, 24, .range⟩] },
   { off := 0x108, n := 2, stride := 0x40, reset := 0x271c0b0b, rw := 0xffffffff },
   { off := 0x10c, n := 2, stride := 0x40, reset := 0x140504, rw := 0xffffff },
   { off := 0x110, n := 2, stride := 0x40, reset := 0x62060c05, rw := 0xffffffff },
   { off := 0x114, n := 2, stride := 0x40, reset := 0x1b81860, rw := 0x1fffffff },
   { off := 0x118, n := 2, stride := 0x40, reset := 0x52551c0, rw := 0x1fffffff },
   { off := 0x11c, n := 2, stride := 0x40 },
   { off := 0x400, n := 10, stride := 0x8 },
   { off := 0x404, n := 10, stride := 0x8 },
   { off := 0x450, n := 10, stride := 0x8 },
   { off := 0x454, n := 10, stride := 0x8 }]

/-- All rows of the MC map. -/
def mcRows : List RegRow := mcRows0 ++ mcRows1

/-- The rows of a block, its error registers last. -/
def Blk.rows : Blk → List RegRow
  | .sys => sysRows ++ errRows
  | .life => lifeRows ++ errRows
  | .nvm => nvmRows ++ errRows
  | .time => timeRows ++ errRows
  | .tdc => tdcRows ++ errRows
  | .shot => shotRows ++ errRows
  | .cal => calRows ++ errRows
  | .hk => hkRows ++ errRows
  | .pfe => pfeRows ++ errRows
  | .loop => loopRows ++ errRows
  | .lamp => lampRows ++ errRows
  | .zone => zoneRows ++ errRows
  | .dma => dmaRows ++ errRows
  | .attn => attnRows ++ errRows
  | .net => netRows ++ errRows
  | .can => canRows ++ errRows
  | .head => headRows ++ errRows
  | .lane => laneRows ++ errRows
  | .ce => ceRows ++ errRows
  | .cl => clRows ++ errRows
  | .mc => mcRows ++ errRows

/-- Every block, in the order of R30. -/
def allBlks : List Blk := [.sys, .life, .nvm, .time, .tdc, .shot, .cal, .hk, .pfe, .loop, .lamp, .zone, .dma, .attn, .net, .can, .head, .lane, .ce, .cl, .mc]

/-- The address of a block instance's offset 0. -/
def Blk.at (b : Blk) (i : Nat) : Nat := b.base + 0x10000 * i

/-- The block and instance an address below 0x0100_0000 lies in, if any (R30, R31). -/
def blockAt (a : Nat) : Option (Blk × Nat) :=
  (allBlks.find? fun b => decide (b.base ≤ a) && decide (a < b.base + 0x10000 * b.count)).map
    fun b => (b, (a - b.base) / 0x10000)

/-- The element and the word (0 LO, 1 MID, 2 HI) of a row that a normal-view offset names. -/
def RegRow.hit (r : RegRow) (off : Nat) : Option (Nat × Nat) :=
  if off < r.off then none
  else
    let k := (off - r.off) / r.stride
    let w := (off - r.off) % r.stride
    let wide := r.kind = .wideRO ∨ r.kind = .wideRW
    if k < r.n ∧ (w = 0 ∨ wide ∧ (w = 4 ∨ w = 8)) then some (k, w / 4) else none

/-- The row of a list an offset names, with its element and word. -/
def findRow (off : Nat) : List RegRow → Option (RegRow × Nat × Nat)
  | [] => none
  | r :: rest =>
    match r.hit off with
    | some (k, w) => some (r, k, w)
    | none => findRow off rest

/-- The row of a block an offset names; the queue registers of the attention unit exist for v mod 4 other than 3 (R327). -/
def Blk.row (b : Blk) (off : Nat) : Option (RegRow × Nat × Nat) :=
  match b, findRow off b.rows with
  | .attn, some (r, v, w) => if 0x800 ≤ r.off ∧ r.off < 0x820 ∧ v % 4 = 3 then none else some (r, v, w)
  | _, x => x

/-- The reset value of the register at a normal-view address (R10). -/
def resetOf (a : Nat) : W32 :=
  match blockAt a with
  | some (b, i) =>
    match b.row ((a - b.at i)) with
    | some (r, _, _) => BitVec.ofNat 32 (r.reset + r.step * i)
    | none => 0
  | none => 0

/-- The offset of ERR in every block (R41). -/
def errOff : Nat := 0x3FF0

/-- The address of SYS chipId at offset 0x0. -/
abbrev Reg.sysChipId : Nat := 0x0
/-- The address of SYS resetWhy at offset 0x4. -/
abbrev Reg.sysResetWhy : Nat := 0x4
/-- The address of SYS bootWhy at offset 0x8. -/
abbrev Reg.sysBootWhy : Nat := 0x8
/-- The address of SYS bootStat at offset 0xc. -/
abbrev Reg.sysBootStat : Nat := 0xc
/-- The address of SYS resetCtrl at offset 0x10. -/
abbrev Reg.sysResetCtrl : Nat := 0x10
/-- The address of SYS optInterlock at offset 0x14. -/
abbrev Reg.sysOptInterlock : Nat := 0x14
/-- The address of SYS pwrCtrl at offset 0x18. -/
abbrev Reg.sysPwrCtrl : Nat := 0x18
/-- The address of SYS pwrStat at offset 0x1c. -/
abbrev Reg.sysPwrStat : Nat := 0x1c
/-- The address of SYS clkCtrl at offset 0x20. -/
abbrev Reg.sysClkCtrl : Nat := 0x20
/-- The address of SYS wdogCnt at offset 0x24. -/
abbrev Reg.sysWdogCnt : Nat := 0x24
/-- The address of SYS fault at offset 0x30. -/
abbrev Reg.sysFault : Nat := 0x30
/-- The address of SYS faultAck at offset 0x34. -/
abbrev Reg.sysFaultAck : Nat := 0x34
/-- The address of LIFE state at offset 0x0. -/
abbrev Reg.lifeState : Nat := 0x10000
/-- The address of LIFE stateCtrl at offset 0x4. -/
abbrev Reg.lifeStateCtrl : Nat := 0x10004
/-- The address of LIFE transCnt at offset 0x8. -/
abbrev Reg.lifeTransCnt : Nat := 0x10008
/-- The address of LIFE rollbackMin at offset 0xc. -/
abbrev Reg.lifeRollbackMin : Nat := 0x1000c
/-- The address of LIFE fault at offset 0x10. -/
abbrev Reg.lifeFault : Nat := 0x10010
/-- The address of LIFE faultAck at offset 0x14. -/
abbrev Reg.lifeFaultAck : Nat := 0x10014
/-- The address of NVM prot at offset 0x0. -/
abbrev Reg.nvmProt : Nat := 0x20000
/-- The address of NVM writeCtrl at offset 0x4. -/
abbrev Reg.nvmWriteCtrl : Nat := 0x20004
/-- The address of NVM status at offset 0x8. -/
abbrev Reg.nvmStatus : Nat := 0x20008
/-- The address of NVM wear at offset 0xc. -/
abbrev Reg.nvmWear : Nat := 0x2000c
/-- The address of NVM fault at offset 0x10. -/
abbrev Reg.nvmFault : Nat := 0x20010
/-- The address of NVM faultAck at offset 0x14. -/
abbrev Reg.nvmFaultAck : Nat := 0x20014
/-- The address of TIME srcCtrl at offset 0x0. -/
abbrev Reg.timeSrcCtrl : Nat := 0x30000
/-- The address of TIME srcStatus at offset 0x4. -/
abbrev Reg.timeSrcStatus : Nat := 0x30004
/-- The address of TIME srcPolicy at offset 0x8. -/
abbrev Reg.timeSrcPolicy : Nat := 0x30008
/-- The address of TIME xtalTrim at offset 0xc. -/
abbrev Reg.timeXtalTrim : Nat := 0x3000c
/-- The address of TIME fcheck at offset 0x10. -/
abbrev Reg.timeFcheck : Nat := 0x30010
/-- The address of TIME rate at offset 0x14. -/
abbrev Reg.timeRate : Nat := 0x30014
/-- The address of TIME sync at offset 0x18. -/
abbrev Reg.timeSync : Nat := 0x30018
/-- The address of TIME now at offset 0x20. -/
abbrev Reg.timeNow : Nat := 0x30020
/-- The address of TIME step at offset 0x30. -/
abbrev Reg.timeStep : Nat := 0x30030
/-- The address of TIME fault at offset 0x40. -/
abbrev Reg.timeFault : Nat := 0x30040
/-- The address of TIME faultAck at offset 0x44. -/
abbrev Reg.timeFaultAck : Nat := 0x30044
/-- The address of TDC ctrl at offset 0x0. -/
abbrev Reg.tdcCtrl : Nat := 0x40000
/-- The address of TDC status at offset 0x4. -/
abbrev Reg.tdcStatus : Nat := 0x40004
/-- The address of TDC fault at offset 0x8. -/
abbrev Reg.tdcFault : Nat := 0x40008
/-- The address of TDC faultAck at offset 0xc. -/
abbrev Reg.tdcFaultAck : Nat := 0x4000c
/-- The address of TDC cfg at offset 0x100. -/
abbrev Reg.tdcCfg (k : Nat) : Nat := 0x40100 + 0x40 * k
/-- The address of TDC cfgG at offset 0x900. -/
abbrev Reg.tdcCfgG (k : Nat) : Nat := 0x40900 + 0x40 * k
/-- The address of TDC inCfg at offset 0x104. -/
abbrev Reg.tdcInCfg (k : Nat) : Nat := 0x40104 + 0x40 * k
/-- The address of TDC inCfgG at offset 0x904. -/
abbrev Reg.tdcInCfgG (k : Nat) : Nat := 0x40904 + 0x40 * k
/-- The address of TDC window at offset 0x108. -/
abbrev Reg.tdcWindow (k : Nat) : Nat := 0x40108 + 0x40 * k
/-- The address of TDC windowG at offset 0x908. -/
abbrev Reg.tdcWindowG (k : Nat) : Nat := 0x40908 + 0x40 * k
/-- The address of TDC arm at offset 0x10c. -/
abbrev Reg.tdcArm (k : Nat) : Nat := 0x4010c + 0x40 * k
/-- The address of TDC armG at offset 0x90c. -/
abbrev Reg.tdcArmG (k : Nat) : Nat := 0x4090c + 0x40 * k
/-- The address of TDC result at offset 0x110. -/
abbrev Reg.tdcResult (k : Nat) : Nat := 0x40110 + 0x40 * k
/-- The address of TDC rstat at offset 0x11c. -/
abbrev Reg.tdcRstat (k : Nat) : Nat := 0x4011c + 0x40 * k
/-- The address of TDC ofsAdj at offset 0x120. -/
abbrev Reg.tdcOfsAdj (k : Nat) : Nat := 0x40120 + 0x40 * k
/-- The address of TDC trim at offset 0x124. -/
abbrev Reg.tdcTrim (k : Nat) : Nat := 0x40124 + 0x40 * k
/-- The address of TDC extraCnt at offset 0x128. -/
abbrev Reg.tdcExtraCnt (k : Nat) : Nat := 0x40128 + 0x40 * k
/-- The address of TDC toutCnt at offset 0x12c. -/
abbrev Reg.tdcToutCnt (k : Nat) : Nat := 0x4012c + 0x40 * k
/-- The address of TDC tstart at offset 0x130. -/
abbrev Reg.tdcTstart (k : Nat) : Nat := 0x40130 + 0x40 * k
/-- The address of SHOT cfg at offset 0x0. -/
abbrev Reg.shotCfg (k : Nat) : Nat := 0x50000 + 0x100 * k
/-- The address of SHOT period at offset 0x4. -/
abbrev Reg.shotPeriod (k : Nat) : Nat := 0x50004 + 0x100 * k
/-- The address of SHOT mark at offset 0x8. -/
abbrev Reg.shotMark (k : Nat) : Nat := 0x50008 + 0x100 * k
/-- The address of SHOT offset at offset 0xc. -/
abbrev Reg.shotOffset (k : Nat) : Nat := 0x5000c + 0x100 * k
/-- The address of SHOT alignWin at offset 0x10. -/
abbrev Reg.shotAlignWin (k : Nat) : Nat := 0x50010 + 0x100 * k
/-- The address of SHOT status at offset 0x14. -/
abbrev Reg.shotStatus (k : Nat) : Nat := 0x50014 + 0x100 * k
/-- The address of SHOT ngapStart at offset 0x18. -/
abbrev Reg.shotNgapStart (k : Nat) : Nat := 0x50018 + 0x100 * k
/-- The address of SHOT ngapLen at offset 0x1c. -/
abbrev Reg.shotNgapLen (k : Nat) : Nat := 0x5001c + 0x100 * k
/-- The address of SHOT capture at offset 0x20. -/
abbrev Reg.shotCapture (k : Nat) : Nat := 0x50020 + 0x100 * k
/-- The address of SHOT capIdx at offset 0x24. -/
abbrev Reg.shotCapIdx (k : Nat) : Nat := 0x50024 + 0x100 * k
/-- The address of SHOT capTs at offset 0x30. -/
abbrev Reg.shotCapTs (k : Nat) : Nat := 0x50030 + 0x100 * k
/-- The address of SHOT fault at offset 0x400. -/
abbrev Reg.shotFault : Nat := 0x50400
/-- The address of SHOT faultAck at offset 0x404. -/
abbrev Reg.shotFaultAck : Nat := 0x50404
/-- The address of CAL ctrl at offset 0x0. -/
abbrev Reg.calCtrl : Nat := 0x60000
/-- The address of CAL status at offset 0x4. -/
abbrev Reg.calStatus : Nat := 0x60004
/-- The address of CAL go at offset 0x8. -/
abbrev Reg.calGo : Nat := 0x60008
/-- The address of CAL laneReq at offset 0xc. -/
abbrev Reg.calLaneReq : Nat := 0x6000c
/-- The address of CAL tempCfg at offset 0x10. -/
abbrev Reg.calTempCfg : Nat := 0x60010
/-- The address of CAL ageCfg at offset 0x14. -/
abbrev Reg.calAgeCfg : Nat := 0x60014
/-- The address of CAL tolA at offset 0x18. -/
abbrev Reg.calTolA : Nat := 0x60018
/-- The address of CAL tolB at offset 0x1c. -/
abbrev Reg.calTolB : Nat := 0x6001c
/-- The address of CAL laneLen at offset 0x20. -/
abbrev Reg.calLaneLen : Nat := 0x60020
/-- The address of CAL padcCfg at offset 0x24. -/
abbrev Reg.calPadcCfg : Nat := 0x60024
/-- The address of CAL iqCfg at offset 0x28. -/
abbrev Reg.calIqCfg : Nat := 0x60028
/-- The address of CAL temp at offset 0x30. -/
abbrev Reg.calTemp (k : Nat) : Nat := 0x60030 + 0x4 * k
/-- The address of CAL last at offset 0x40. -/
abbrev Reg.calLast : Nat := 0x60040
/-- The address of CAL storeSeq at offset 0x44. -/
abbrev Reg.calStoreSeq : Nat := 0x60044
/-- The address of CAL doneCnt at offset 0x48. -/
abbrev Reg.calDoneCnt : Nat := 0x60048
/-- The address of CAL failCnt at offset 0x4c. -/
abbrev Reg.calFailCnt : Nat := 0x6004c
/-- The address of CAL fault at offset 0x80. -/
abbrev Reg.calFault : Nat := 0x60080
/-- The address of CAL faultAck at offset 0x84. -/
abbrev Reg.calFaultAck : Nat := 0x60084
/-- The address of CAL laneStat at offset 0x100. -/
abbrev Reg.calLaneStat (k : Nat) : Nat := 0x60100 + 0x4 * k
/-- The address of HK ctrl at offset 0x0. -/
abbrev Reg.hkCtrl : Nat := 0x70000
/-- The address of HK status at offset 0x4. -/
abbrev Reg.hkStatus : Nat := 0x70004
/-- The address of HK regCfg at offset 0x8. -/
abbrev Reg.hkRegCfg : Nat := 0x70008
/-- The address of HK regPeriod at offset 0xc. -/
abbrev Reg.hkRegPeriod : Nat := 0x7000c
/-- The address of HK regGo at offset 0x10. -/
abbrev Reg.hkRegGo : Nat := 0x70010
/-- The address of HK injCfg at offset 0x14. -/
abbrev Reg.hkInjCfg : Nat := 0x70014
/-- The address of HK injGo at offset 0x18. -/
abbrev Reg.hkInjGo : Nat := 0x70018
/-- The address of HK injSlots at offset 0x1c. -/
abbrev Reg.hkInjSlots : Nat := 0x7001c
/-- The address of HK regSlot at offset 0x20. -/
abbrev Reg.hkRegSlot (k : Nat) : Nat := 0x70020 + 0x4 * k
/-- The address of HK regRes at offset 0x40. -/
abbrev Reg.hkRegRes (k : Nat) : Nat := 0x70040 + 0x4 * k
/-- The address of HK injRes at offset 0x80. -/
abbrev Reg.hkInjRes (k : Nat) : Nat := 0x70080 + 0x4 * k
/-- The address of HK injStat at offset 0x88. -/
abbrev Reg.hkInjStat : Nat := 0x70088
/-- The address of HK regMiss at offset 0x8c. -/
abbrev Reg.hkRegMiss : Nat := 0x7008c
/-- The address of HK injMiss at offset 0x90. -/
abbrev Reg.hkInjMiss : Nat := 0x70090
/-- The address of HK ringBase at offset 0x94. -/
abbrev Reg.hkRingBase : Nat := 0x70094
/-- The address of HK ringLen at offset 0x98. -/
abbrev Reg.hkRingLen : Nat := 0x70098
/-- The address of HK ringWp at offset 0x9c. -/
abbrev Reg.hkRingWp : Nat := 0x7009c
/-- The address of HK ringWm at offset 0xa0. -/
abbrev Reg.hkRingWm : Nat := 0x700a0
/-- The address of HK pass at offset 0xa4. -/
abbrev Reg.hkPass : Nat := 0x700a4
/-- The address of HK trim at offset 0xc0. -/
abbrev Reg.hkTrim (k : Nat) : Nat := 0x700c0 + 0x4 * k
/-- The address of HK fault at offset 0xe0. -/
abbrev Reg.hkFault : Nat := 0x700e0
/-- The address of HK faultAck at offset 0xe4. -/
abbrev Reg.hkFaultAck : Nat := 0x700e4
/-- The address of PFE ctrl at offset 0x0. -/
abbrev Reg.pfeCtrl : Nat := 0x80000
/-- The address of PFE status at offset 0x4. -/
abbrev Reg.pfeStatus : Nat := 0x80004
/-- The address of PFE seqCfg at offset 0x8. -/
abbrev Reg.pfeSeqCfg : Nat := 0x80008
/-- The address of PFE pass at offset 0xc. -/
abbrev Reg.pfePass : Nat := 0x8000c
/-- The address of PFE boReq at offset 0x10. -/
abbrev Reg.pfeBoReq : Nat := 0x80010
/-- The address of PFE boResult at offset 0x14. -/
abbrev Reg.pfeBoResult : Nat := 0x80014
/-- The address of PFE boLimit at offset 0x18. -/
abbrev Reg.pfeBoLimit : Nat := 0x80018
/-- The address of PFE ringBase at offset 0x1c. -/
abbrev Reg.pfeRingBase : Nat := 0x8001c
/-- The address of PFE ringLen at offset 0x20. -/
abbrev Reg.pfeRingLen : Nat := 0x80020
/-- The address of PFE ringWp at offset 0x24. -/
abbrev Reg.pfeRingWp : Nat := 0x80024
/-- The address of PFE ringWm at offset 0x28. -/
abbrev Reg.pfeRingWm : Nat := 0x80028
/-- The address of PFE satCnt at offset 0x2c. -/
abbrev Reg.pfeSatCnt : Nat := 0x8002c
/-- The address of PFE fault at offset 0x30. -/
abbrev Reg.pfeFault : Nat := 0x80030
/-- The address of PFE faultAck at offset 0x34. -/
abbrev Reg.pfeFaultAck : Nat := 0x80034
/-- The address of PFE ixTrim at offset 0x40. -/
abbrev Reg.pfeIxTrim (k : Nat) : Nat := 0x80040 + 0x4 * k
/-- The address of PFE ofs at offset 0x80. -/
abbrev Reg.pfeOfs (k : Nat) : Nat := 0x80080 + 0x4 * k
/-- The address of PFE gc at offset 0xa0. -/
abbrev Reg.pfeGc (k : Nat) : Nat := 0x800a0 + 0x4 * k
/-- The address of PFE slotRoute at offset 0x100. -/
abbrev Reg.pfeSlotRoute (k : Nat) : Nat := 0x80100 + 0x10 * k
/-- The address of PFE slotExc at offset 0x104. -/
abbrev Reg.pfeSlotExc (k : Nat) : Nat := 0x80104 + 0x10 * k
/-- The address of PFE slotConv at offset 0x108. -/
abbrev Reg.pfeSlotConv (k : Nat) : Nat := 0x80108 + 0x10 * k
/-- The address of PFE slotDest at offset 0x10c. -/
abbrev Reg.pfeSlotDest (k : Nat) : Nat := 0x8010c + 0x10 * k
/-- The address of PFE result at offset 0x200. -/
abbrev Reg.pfeResult (k : Nat) : Nat := 0x80200 + 0x4 * k
/-- The address of PFE rstat at offset 0x240. -/
abbrev Reg.pfeRstat (k : Nat) : Nat := 0x80240 + 0x4 * k
/-- The address of LOOP range at offset 0x0. -/
abbrev Reg.loopRange : Nat := 0x90000
/-- The address of LOOP status at offset 0x4. -/
abbrev Reg.loopStatus : Nat := 0x90004
/-- The address of LOOP fault at offset 0x10. -/
abbrev Reg.loopFault : Nat := 0x90010
/-- The address of LOOP faultAck at offset 0x14. -/
abbrev Reg.loopFaultAck : Nat := 0x90014
/-- The address of LOOP cfg at offset 0x100. -/
abbrev Reg.loopCfg (k : Nat) : Nat := 0x90100 + 0x20 * k
/-- The address of LOOP value at offset 0x104. -/
abbrev Reg.loopValue (k : Nat) : Nat := 0x90104 + 0x20 * k
/-- The address of LOOP target at offset 0x108. -/
abbrev Reg.loopTarget (k : Nat) : Nat := 0x90108 + 0x20 * k
/-- The address of LOOP readback at offset 0x10c. -/
abbrev Reg.loopReadback (k : Nat) : Nat := 0x9010c + 0x20 * k
/-- The address of LOOP dac at offset 0x110. -/
abbrev Reg.loopDac (k : Nat) : Nat := 0x90110 + 0x20 * k
/-- The address of LOOP mismatch at offset 0x114. -/
abbrev Reg.loopMismatch (k : Nat) : Nat := 0x90114 + 0x20 * k
/-- The address of LAMP emerg at offset 0x0. -/
abbrev Reg.lampEmerg : Nat := 0xa0000
/-- The address of LAMP portLimit at offset 0x4. -/
abbrev Reg.lampPortLimit : Nat := 0xa0004
/-- The address of LAMP frameStat at offset 0x8. -/
abbrev Reg.lampFrameStat : Nat := 0xa0008
/-- The address of LAMP fault at offset 0x10. -/
abbrev Reg.lampFault : Nat := 0xa0010
/-- The address of LAMP faultAck at offset 0x14. -/
abbrev Reg.lampFaultAck : Nat := 0xa0014
/-- The address of LAMP thStale at offset 0x18. -/
abbrev Reg.lampThStale : Nat := 0xa0018
/-- The address of LAMP thCfg at offset 0x40. -/
abbrev Reg.lampThCfg (k : Nat) : Nat := 0xa0040 + 0x4 * k
/-- The address of LAMP thLim at offset 0x80. -/
abbrev Reg.lampThLim (k : Nat) : Nat := 0xa0080 + 0x4 * k
/-- The address of LAMP thTemp at offset 0xc0. -/
abbrev Reg.lampThTemp (k : Nat) : Nat := 0xa00c0 + 0x4 * k
/-- The address of LAMP cfg at offset 0x100. -/
abbrev Reg.lampCfg (k : Nat) : Nat := 0xa0100 + 0x80 * k
/-- The address of LAMP timing at offset 0x104. -/
abbrev Reg.lampTiming (k : Nat) : Nat := 0xa0104 + 0x80 * k
/-- The address of LAMP chain at offset 0x108. -/
abbrev Reg.lampChain (k : Nat) : Nat := 0xa0108 + 0x80 * k
/-- The address of LAMP pwmPer at offset 0x10c. -/
abbrev Reg.lampPwmPer (k : Nat) : Nat := 0xa010c + 0x80 * k
/-- The address of LAMP frameMin at offset 0x110. -/
abbrev Reg.lampFrameMin (k : Nat) : Nat := 0xa0110 + 0x80 * k
/-- The address of LAMP valBase at offset 0x114. -/
abbrev Reg.lampValBase (k : Nat) : Nat := 0xa0114 + 0x80 * k
/-- The address of LAMP ctrl at offset 0x118. -/
abbrev Reg.lampCtrl (k : Nat) : Nat := 0xa0118 + 0x80 * k
/-- The address of LAMP diag at offset 0x11c. -/
abbrev Reg.lampDiag (k : Nat) : Nat := 0xa011c + 0x80 * k
/-- The address of LAMP ageLimit at offset 0x120. -/
abbrev Reg.lampAgeLimit (k : Nat) : Nat := 0xa0120 + 0x80 * k
/-- The address of LAMP mxCfg at offset 0x124. -/
abbrev Reg.lampMxCfg (k : Nat) : Nat := 0xa0124 + 0x80 * k
/-- The address of LAMP stat at offset 0x128. -/
abbrev Reg.lampStat (k : Nat) : Nat := 0xa0128 + 0x80 * k
/-- The address of LAMP frameCnt at offset 0x12c. -/
abbrev Reg.lampFrameCnt (k : Nat) : Nat := 0xa012c + 0x80 * k
/-- The address of LAMP chainErrCnt at offset 0x130. -/
abbrev Reg.lampChainErrCnt (k : Nat) : Nat := 0xa0130 + 0x80 * k
/-- The address of LAMP busErrCnt at offset 0x134. -/
abbrev Reg.lampBusErrCnt (k : Nat) : Nat := 0xa0134 + 0x80 * k
/-- The address of LAMP openCnt at offset 0x138. -/
abbrev Reg.lampOpenCnt (k : Nat) : Nat := 0xa0138 + 0x80 * k
/-- The address of LAMP poisonCnt at offset 0x13c. -/
abbrev Reg.lampPoisonCnt (k : Nat) : Nat := 0xa013c + 0x80 * k
/-- The address of LAMP dark0 at offset 0x140. -/
abbrev Reg.lampDark0 (k : Nat) : Nat := 0xa0140 + 0x4 * k
/-- The address of LAMP dark1 at offset 0x1c0. -/
abbrev Reg.lampDark1 (k : Nat) : Nat := 0xa01c0 + 0x4 * k
/-- The address of LAMP dark2 at offset 0x240. -/
abbrev Reg.lampDark2 (k : Nat) : Nat := 0xa0240 + 0x4 * k
/-- The address of LAMP dark3 at offset 0x2c0. -/
abbrev Reg.lampDark3 (k : Nat) : Nat := 0xa02c0 + 0x4 * k
/-- The address of ZONE ctrl at offset 0x0. -/
abbrev Reg.zoneCtrl : Nat := 0xb0000
/-- The address of ZONE status at offset 0x4. -/
abbrev Reg.zoneStatus : Nat := 0xb0004
/-- The address of ZONE evqStat at offset 0x8. -/
abbrev Reg.zoneEvqStat : Nat := 0xb0008
/-- The address of ZONE evqLevel at offset 0xc. -/
abbrev Reg.zoneEvqLevel : Nat := 0xb000c
/-- The address of ZONE evqWm at offset 0x10. -/
abbrev Reg.zoneEvqWm : Nat := 0xb0010
/-- The address of ZONE evqPop at offset 0x14. -/
abbrev Reg.zoneEvqPop : Nat := 0xb0014
/-- The address of ZONE evqLost at offset 0x18. -/
abbrev Reg.zoneEvqLost : Nat := 0xb0018
/-- The address of ZONE evalCnt at offset 0x1c. -/
abbrev Reg.zoneEvalCnt : Nat := 0xb001c
/-- The address of ZONE evqHead at offset 0x20. -/
abbrev Reg.zoneEvqHead (k : Nat) : Nat := 0xb0020 + 0xc * k
/-- The address of ZONE capBase at offset 0x50. -/
abbrev Reg.zoneCapBase : Nat := 0xb0050
/-- The address of ZONE capSlot at offset 0x54. -/
abbrev Reg.zoneCapSlot : Nat := 0xb0054
/-- The address of ZONE capCount at offset 0x58. -/
abbrev Reg.zoneCapCount : Nat := 0xb0058
/-- The address of ZONE capFree at offset 0x5c. -/
abbrev Reg.zoneCapFree : Nat := 0xb005c
/-- The address of ZONE capBusyLo at offset 0x60. -/
abbrev Reg.zoneCapBusyLo : Nat := 0xb0060
/-- The address of ZONE capBusyHi at offset 0x64. -/
abbrev Reg.zoneCapBusyHi : Nat := 0xb0064
/-- The address of ZONE remCfg at offset 0x68. -/
abbrev Reg.zoneRemCfg : Nat := 0xb0068
/-- The address of ZONE remFailCnt at offset 0x6c. -/
abbrev Reg.zoneRemFailCnt : Nat := 0xb006c
/-- The address of ZONE fault at offset 0x80. -/
abbrev Reg.zoneFault : Nat := 0xb0080
/-- The address of ZONE faultAck at offset 0x84. -/
abbrev Reg.zoneFaultAck : Nat := 0xb0084
/-- The address of DMA runLo at offset 0x0. -/
abbrev Reg.dmaRunLo : Nat := 0xc0000
/-- The address of DMA runHi at offset 0x4. -/
abbrev Reg.dmaRunHi : Nat := 0xc0004
/-- The address of DMA fault at offset 0x8. -/
abbrev Reg.dmaFault : Nat := 0xc0008
/-- The address of DMA faultAck at offset 0xc. -/
abbrev Reg.dmaFaultAck : Nat := 0xc000c
/-- The address of DMA faultCh at offset 0x10. -/
abbrev Reg.dmaFaultCh : Nat := 0xc0010
/-- The address of DMA ctrl at offset 0x100. -/
abbrev Reg.dmaCtrl (k : Nat) : Nat := 0xc0100 + 0x40 * k
/-- The address of DMA cfg at offset 0x104. -/
abbrev Reg.dmaCfg (k : Nat) : Nat := 0xc0104 + 0x40 * k
/-- The address of DMA link at offset 0x108. -/
abbrev Reg.dmaLink (k : Nat) : Nat := 0xc0108 + 0x40 * k
/-- The address of DMA cfgAct at offset 0x10c. -/
abbrev Reg.dmaCfgAct (k : Nat) : Nat := 0xc010c + 0x40 * k
/-- The address of DMA status at offset 0x110. -/
abbrev Reg.dmaStatus (k : Nat) : Nat := 0xc0110 + 0x40 * k
/-- The address of DMA cur at offset 0x114. -/
abbrev Reg.dmaCur (k : Nat) : Nat := 0xc0114 + 0x40 * k
/-- The address of DMA remain at offset 0x118. -/
abbrev Reg.dmaRemain (k : Nat) : Nat := 0xc0118 + 0x40 * k
/-- The address of DMA doneCnt at offset 0x11c. -/
abbrev Reg.dmaDoneCnt (k : Nat) : Nat := 0xc011c + 0x40 * k
/-- The address of DMA orphanCnt at offset 0x120. -/
abbrev Reg.dmaOrphanCnt (k : Nat) : Nat := 0xc0120 + 0x40 * k
/-- The address of DMA poisonCnt at offset 0x124. -/
abbrev Reg.dmaPoisonCnt (k : Nat) : Nat := 0xc0124 + 0x40 * k
/-- The address of DMA lastTag at offset 0x128. -/
abbrev Reg.dmaLastTag (k : Nat) : Nat := 0xc0128 + 0x40 * k
/-- The address of DMA rgnCfg at offset 0x1800. -/
abbrev Reg.dmaRgnCfg (k : Nat) : Nat := 0xc1800 + 0x20 * k
/-- The address of DMA rgnBaseLo at offset 0x1804. -/
abbrev Reg.dmaRgnBaseLo (k : Nat) : Nat := 0xc1804 + 0x20 * k
/-- The address of DMA rgnBaseHi at offset 0x1808. -/
abbrev Reg.dmaRgnBaseHi (k : Nat) : Nat := 0xc1808 + 0x20 * k
/-- The address of DMA rgnSizeLo at offset 0x180c. -/
abbrev Reg.dmaRgnSizeLo (k : Nat) : Nat := 0xc180c + 0x20 * k
/-- The address of DMA rgnSizeHi at offset 0x1810. -/
abbrev Reg.dmaRgnSizeHi (k : Nat) : Nat := 0xc1810 + 0x20 * k
/-- The address of ATTN ctrl at offset 0x0. -/
abbrev Reg.attnCtrl : Nat := 0xd0000
/-- The address of ATTN status at offset 0x4. -/
abbrev Reg.attnStatus : Nat := 0xd0004
/-- The address of ATTN pinCfg at offset 0x8. -/
abbrev Reg.attnPinCfg : Nat := 0xd0008
/-- The address of ATTN pinState at offset 0xc. -/
abbrev Reg.attnPinState : Nat := 0xd000c
/-- The address of ATTN latch at offset 0x40. -/
abbrev Reg.attnLatch (k : Nat) : Nat := 0xd0040 + 0x4 * k
/-- The address of ATTN notify at offset 0x80. -/
abbrev Reg.attnNotify (k : Nat) : Nat := 0xd0080 + 0x4 * k
/-- The address of ATTN route at offset 0x100. -/
abbrev Reg.attnRoute (k : Nat) : Nat := 0xd0100 + 0x4 * k
/-- The address of ATTN mod at offset 0x200. -/
abbrev Reg.attnMod (k : Nat) : Nat := 0xd0200 + 0x4 * k
/-- The address of ATTN qHead at offset 0x800. -/
abbrev Reg.attnQHead (k : Nat) : Nat := 0xd0800 + 0x20 * k
/-- The address of ATTN qLevel at offset 0x80c. -/
abbrev Reg.attnQLevel (k : Nat) : Nat := 0xd080c + 0x20 * k
/-- The address of ATTN qPop at offset 0x810. -/
abbrev Reg.attnQPop (k : Nat) : Nat := 0xd0810 + 0x20 * k
/-- The address of ATTN qCfg at offset 0x814. -/
abbrev Reg.attnQCfg (k : Nat) : Nat := 0xd0814 + 0x20 * k
/-- The address of ATTN qLostCnt at offset 0x818. -/
abbrev Reg.attnQLostCnt (k : Nat) : Nat := 0xd0818 + 0x20 * k
/-- The address of ATTN fault at offset 0x1800. -/
abbrev Reg.attnFault : Nat := 0xd1800
/-- The address of ATTN faultAck at offset 0x1804. -/
abbrev Reg.attnFaultAck : Nat := 0xd1804
/-- The address of NET ctrl at offset 0x0. -/
abbrev Reg.netCtrl : Nat := 0xe0000
/-- The address of NET sessActive at offset 0x4. -/
abbrev Reg.netSessActive : Nat := 0xe0004
/-- The address of NET authFailCnt at offset 0x8. -/
abbrev Reg.netAuthFailCnt : Nat := 0xe0008
/-- The address of NET replayCnt at offset 0xc. -/
abbrev Reg.netReplayCnt : Nat := 0xe000c
/-- The address of NET bulkDropCnt at offset 0x10. -/
abbrev Reg.netBulkDropCnt : Nat := 0xe0010
/-- The address of NET localLen at offset 0x20. -/
abbrev Reg.netLocalLen : Nat := 0xe0020
/-- The address of NET localGo at offset 0x24. -/
abbrev Reg.netLocalGo : Nat := 0xe0024
/-- The address of NET localStat at offset 0x28. -/
abbrev Reg.netLocalStat : Nat := 0xe0028
/-- The address of NET fault at offset 0x40. -/
abbrev Reg.netFault : Nat := 0xe0040
/-- The address of NET faultAck at offset 0x44. -/
abbrev Reg.netFaultAck : Nat := 0xe0044
/-- The address of NET portCfg at offset 0x100. -/
abbrev Reg.netPortCfg (k : Nat) : Nat := 0xe0100 + 0x40 * k
/-- The address of NET portStatus at offset 0x104. -/
abbrev Reg.netPortStatus (k : Nat) : Nat := 0xe0104 + 0x40 * k
/-- The address of NET portMacLo at offset 0x108. -/
abbrev Reg.netPortMacLo (k : Nat) : Nat := 0xe0108 + 0x40 * k
/-- The address of NET portMacHi at offset 0x10c. -/
abbrev Reg.netPortMacHi (k : Nat) : Nat := 0xe010c + 0x40 * k
/-- The address of NET portRxFrames at offset 0x110. -/
abbrev Reg.netPortRxFrames (k : Nat) : Nat := 0xe0110 + 0x40 * k
/-- The address of NET portTxFrames at offset 0x114. -/
abbrev Reg.netPortTxFrames (k : Nat) : Nat := 0xe0114 + 0x40 * k
/-- The address of NET portRxDrop at offset 0x118. -/
abbrev Reg.netPortRxDrop (k : Nat) : Nat := 0xe0118 + 0x40 * k
/-- The address of NET portFcsErr at offset 0x11c. -/
abbrev Reg.netPortFcsErr (k : Nat) : Nat := 0xe011c + 0x40 * k
/-- The address of NET localBuf at offset 0x1000. -/
abbrev Reg.netLocalBuf (k : Nat) : Nat := 0xe1000 + 0x4 * k
/-- The address of CAN fault at offset 0x0. -/
abbrev Reg.canFault : Nat := 0xf0000
/-- The address of CAN faultAck at offset 0x4. -/
abbrev Reg.canFaultAck : Nat := 0xf0004
/-- The address of CAN cfg at offset 0x100. -/
abbrev Reg.canCfg (k : Nat) : Nat := 0xf0100 + 0x80 * k
/-- The address of CAN node at offset 0x104. -/
abbrev Reg.canNode (k : Nat) : Nat := 0xf0104 + 0x80 * k
/-- The address of CAN status at offset 0x108. -/
abbrev Reg.canStatus (k : Nat) : Nat := 0xf0108 + 0x80 * k
/-- The address of CAN errcnt at offset 0x10c. -/
abbrev Reg.canErrcnt (k : Nat) : Nat := 0xf010c + 0x80 * k
/-- The address of CAN txCnt at offset 0x110. -/
abbrev Reg.canTxCnt (k : Nat) : Nat := 0xf0110 + 0x80 * k
/-- The address of CAN rxCnt at offset 0x114. -/
abbrev Reg.canRxCnt (k : Nat) : Nat := 0xf0114 + 0x80 * k
/-- The address of CAN lostCnt at offset 0x118. -/
abbrev Reg.canLostCnt (k : Nat) : Nat := 0xf0118 + 0x80 * k
/-- The address of CAN rxqLevel at offset 0x11c. -/
abbrev Reg.canRxqLevel (k : Nat) : Nat := 0xf011c + 0x80 * k
/-- The address of CAN ringBase at offset 0x120. -/
abbrev Reg.canRingBase (k : Nat) : Nat := 0xf0120 + 0x80 * k
/-- The address of CAN ringLen at offset 0x124. -/
abbrev Reg.canRingLen (k : Nat) : Nat := 0xf0124 + 0x80 * k
/-- The address of CAN fid0 at offset 0x140. -/
abbrev Reg.canFid0 (k : Nat) : Nat := 0xf0140 + 0x8 * k
/-- The address of CAN fmask0 at offset 0x144. -/
abbrev Reg.canFmask0 (k : Nat) : Nat := 0xf0144 + 0x8 * k
/-- The address of CAN fid1 at offset 0x1c0. -/
abbrev Reg.canFid1 (k : Nat) : Nat := 0xf01c0 + 0x8 * k
/-- The address of CAN fmask1 at offset 0x1c4. -/
abbrev Reg.canFmask1 (k : Nat) : Nat := 0xf01c4 + 0x8 * k
/-- The address of HEAD ctrl at offset 0x0. -/
abbrev Reg.headCtrl (i : Nat) : Nat := 0x100000 + 0x10000 * i
/-- The address of HEAD status at offset 0x4. -/
abbrev Reg.headStatus (i : Nat) : Nat := 0x100004 + 0x10000 * i
/-- The address of HEAD probeCfg at offset 0x8. -/
abbrev Reg.headProbeCfg (i : Nat) : Nat := 0x100008 + 0x10000 * i
/-- The address of HEAD probeScale at offset 0xc. -/
abbrev Reg.headProbeScale (i : Nat) : Nat := 0x10000c + 0x10000 * i
/-- The address of HEAD probeBw at offset 0x10. -/
abbrev Reg.headProbeBw (i : Nat) : Nat := 0x100010 + 0x10000 * i
/-- The address of HEAD probeCommit at offset 0x14. -/
abbrev Reg.headProbeCommit (i : Nat) : Nat := 0x100014 + 0x10000 * i
/-- The address of HEAD probeLimit at offset 0x18. -/
abbrev Reg.headProbeLimit (i : Nat) : Nat := 0x100018 + 0x10000 * i
/-- The address of HEAD coil at offset 0x1c. -/
abbrev Reg.headCoil (i : Nat) : Nat := 0x10001c + 0x10000 * i
/-- The address of HEAD slot at offset 0x20. -/
abbrev Reg.headSlot (i : Nat) (k : Nat) : Nat := 0x100020 + 0x10000 * i + 0x4 * k
/-- The address of HEAD chirpF0 at offset 0x40. -/
abbrev Reg.headChirpF0 (i : Nat) : Nat := 0x100040 + 0x10000 * i
/-- The address of HEAD chirpRate at offset 0x44. -/
abbrev Reg.headChirpRate (i : Nat) : Nat := 0x100044 + 0x10000 * i
/-- The address of HEAD chirpCfg at offset 0x48. -/
abbrev Reg.headChirpCfg (i : Nat) : Nat := 0x100048 + 0x10000 * i
/-- The address of HEAD chirpAmp at offset 0x4c. -/
abbrev Reg.headChirpAmp (i : Nat) : Nat := 0x10004c + 0x10000 * i
/-- The address of HEAD chirpGo at offset 0x50. -/
abbrev Reg.headChirpGo (i : Nat) : Nat := 0x100050 + 0x10000 * i
/-- The address of HEAD thermLim at offset 0x54. -/
abbrev Reg.headThermLim (i : Nat) : Nat := 0x100054 + 0x10000 * i
/-- The address of HEAD thermCfg at offset 0x58. -/
abbrev Reg.headThermCfg (i : Nat) : Nat := 0x100058 + 0x10000 * i
/-- The address of HEAD headTemp at offset 0x5c. -/
abbrev Reg.headHeadTemp (i : Nat) : Nat := 0x10005c + 0x10000 * i
/-- The address of HEAD duty at offset 0x60. -/
abbrev Reg.headDuty (i : Nat) : Nat := 0x100060 + 0x10000 * i
/-- The address of HEAD missLimit at offset 0x64. -/
abbrev Reg.headMissLimit (i : Nat) : Nat := 0x100064 + 0x10000 * i
/-- The address of HEAD clampCnt at offset 0x68. -/
abbrev Reg.headClampCnt (i : Nat) : Nat := 0x100068 + 0x10000 * i
/-- The address of HEAD skipCnt at offset 0x6c. -/
abbrev Reg.headSkipCnt (i : Nat) : Nat := 0x10006c + 0x10000 * i
/-- The address of HEAD gateOpen at offset 0x80. -/
abbrev Reg.headGateOpen (i : Nat) (k : Nat) : Nat := 0x100080 + 0x10000 * i + 0x8 * k
/-- The address of HEAD gateClose at offset 0x84. -/
abbrev Reg.headGateClose (i : Nat) (k : Nat) : Nat := 0x100084 + 0x10000 * i + 0x8 * k
/-- The address of HEAD miss at offset 0xc0. -/
abbrev Reg.headMiss (i : Nat) (k : Nat) : Nat := 0x1000c0 + 0x10000 * i + 0x4 * k
/-- The address of HEAD fault at offset 0xe0. -/
abbrev Reg.headFault (i : Nat) : Nat := 0x1000e0 + 0x10000 * i
/-- The address of HEAD faultAck at offset 0xe4. -/
abbrev Reg.headFaultAck (i : Nat) : Nat := 0x1000e4 + 0x10000 * i
/-- The address of LANE ctrl at offset 0x0. -/
abbrev Reg.laneCtrl (i : Nat) : Nat := 0x200000 + 0x10000 * i
/-- The address of LANE status at offset 0x4. -/
abbrev Reg.laneStatus (i : Nat) : Nat := 0x200004 + 0x10000 * i
/-- The address of LANE quietStart at offset 0x8. -/
abbrev Reg.laneQuietStart (i : Nat) : Nat := 0x200008 + 0x10000 * i
/-- The address of LANE quietCfg at offset 0xc. -/
abbrev Reg.laneQuietCfg (i : Nat) : Nat := 0x20000c + 0x10000 * i
/-- The address of LANE quietLimit at offset 0x10. -/
abbrev Reg.laneQuietLimit (i : Nat) : Nat := 0x200010 + 0x10000 * i
/-- The address of LANE clipLimit at offset 0x14. -/
abbrev Reg.laneClipLimit (i : Nat) : Nat := 0x200014 + 0x10000 * i
/-- The address of LANE calStart at offset 0x18. -/
abbrev Reg.laneCalStart (i : Nat) : Nat := 0x200018 + 0x10000 * i
/-- The address of LANE calCfg at offset 0x1c. -/
abbrev Reg.laneCalCfg (i : Nat) : Nat := 0x20001c + 0x10000 * i
/-- The address of LANE calGo at offset 0x20. -/
abbrev Reg.laneCalGo (i : Nat) : Nat := 0x200020 + 0x10000 * i
/-- The address of LANE mxA at offset 0x40. -/
abbrev Reg.laneMxA (i : Nat) : Nat := 0x200040 + 0x10000 * i
/-- The address of LANE mxB at offset 0x44. -/
abbrev Reg.laneMxB (i : Nat) : Nat := 0x200044 + 0x10000 * i
/-- The address of LANE myA at offset 0x48. -/
abbrev Reg.laneMyA (i : Nat) : Nat := 0x200048 + 0x10000 * i
/-- The address of LANE myB at offset 0x4c. -/
abbrev Reg.laneMyB (i : Nat) : Nat := 0x20004c + 0x10000 * i
/-- The address of LANE fault at offset 0x80. -/
abbrev Reg.laneFault (i : Nat) : Nat := 0x200080 + 0x10000 * i
/-- The address of LANE faultAck at offset 0x84. -/
abbrev Reg.laneFaultAck (i : Nat) : Nat := 0x200084 + 0x10000 * i
/-- The address of LANE pga at offset 0x100. -/
abbrev Reg.lanePga (i : Nat) (k : Nat) : Nat := 0x200100 + 0x10000 * i + 0x40 * k
/-- The address of LANE offset at offset 0x104. -/
abbrev Reg.laneOffset (i : Nat) (k : Nat) : Nat := 0x200104 + 0x10000 * i + 0x40 * k
/-- The address of LANE skew at offset 0x108. -/
abbrev Reg.laneSkew (i : Nat) (k : Nat) : Nat := 0x200108 + 0x10000 * i + 0x40 * k
/-- The address of LANE gcorr at offset 0x10c. -/
abbrev Reg.laneGcorr (i : Nat) (k : Nat) : Nat := 0x20010c + 0x10000 * i + 0x40 * k
/-- The address of LANE clipCnt at offset 0x110. -/
abbrev Reg.laneClipCnt (i : Nat) (k : Nat) : Nat := 0x200110 + 0x10000 * i + 0x40 * k
/-- The address of LANE satCnt at offset 0x114. -/
abbrev Reg.laneSatCnt (i : Nat) (k : Nat) : Nat := 0x200114 + 0x10000 * i + 0x40 * k
/-- The address of LANE qe at offset 0x118. -/
abbrev Reg.laneQe (i : Nat) (k : Nat) : Nat := 0x200118 + 0x10000 * i + 0x40 * k
/-- The address of LANE qstat at offset 0x11c. -/
abbrev Reg.laneQstat (i : Nat) (k : Nat) : Nat := 0x20011c + 0x10000 * i + 0x40 * k
/-- The address of LANE calSum at offset 0x120. -/
abbrev Reg.laneCalSum (i : Nat) (k : Nat) : Nat := 0x200120 + 0x10000 * i + 0x40 * k
/-- The address of LANE calSq at offset 0x124. -/
abbrev Reg.laneCalSq (i : Nat) (k : Nat) : Nat := 0x200124 + 0x10000 * i + 0x40 * k
/-- The address of LANE calC at offset 0x130. -/
abbrev Reg.laneCalC (i : Nat) (k : Nat) : Nat := 0x200130 + 0x10000 * i + 0x40 * k
/-- The address of LANE calS at offset 0x134. -/
abbrev Reg.laneCalS (i : Nat) (k : Nat) : Nat := 0x200134 + 0x10000 * i + 0x40 * k
/-- The address of CE ctrl at offset 0x0. -/
abbrev Reg.ceCtrl (i : Nat) : Nat := 0x400000 + 0x10000 * i
/-- The address of CE status at offset 0x4. -/
abbrev Reg.ceStatus (i : Nat) : Nat := 0x400004 + 0x10000 * i
/-- The address of CE gauges at offset 0x8. -/
abbrev Reg.ceGauges (i : Nat) : Nat := 0x400008 + 0x10000 * i
/-- The address of CE fftCfg at offset 0xc. -/
abbrev Reg.ceFftCfg (i : Nat) : Nat := 0x40000c + 0x10000 * i
/-- The address of CE ffc at offset 0x10. -/
abbrev Reg.ceFfc (i : Nat) : Nat := 0x400010 + 0x10000 * i
/-- The address of CE alignOfs at offset 0x14. -/
abbrev Reg.ceAlignOfs (i : Nat) : Nat := 0x400014 + 0x10000 * i
/-- The address of CE tauInit at offset 0x18. -/
abbrev Reg.ceTauInit (i : Nat) : Nat := 0x400018 + 0x10000 * i
/-- The address of CE tauLast at offset 0x1c. -/
abbrev Reg.ceTauLast (i : Nat) : Nat := 0x40001c + 0x10000 * i
/-- The address of CE replica at offset 0x20. -/
abbrev Reg.ceReplica (i : Nat) : Nat := 0x400020 + 0x10000 * i
/-- The address of CE outBase at offset 0x24. -/
abbrev Reg.ceOutBase (i : Nat) : Nat := 0x400024 + 0x10000 * i
/-- The address of CE outLen at offset 0x28. -/
abbrev Reg.ceOutLen (i : Nat) : Nat := 0x400028 + 0x10000 * i
/-- The address of CE outWp at offset 0x2c. -/
abbrev Reg.ceOutWp (i : Nat) : Nat := 0x40002c + 0x10000 * i
/-- The address of CE outRp at offset 0x30. -/
abbrev Reg.ceOutRp (i : Nat) : Nat := 0x400030 + 0x10000 * i
/-- The address of CE ramanCfg at offset 0x34. -/
abbrev Reg.ceRamanCfg (i : Nat) : Nat := 0x400034 + 0x10000 * i
/-- The address of CE totBase at offset 0x38. -/
abbrev Reg.ceTotBase (i : Nat) : Nat := 0x400038 + 0x10000 * i
/-- The address of CE totClear at offset 0x3c. -/
abbrev Reg.ceTotClear (i : Nat) : Nat := 0x40003c + 0x10000 * i
/-- The address of CE batch at offset 0x40. -/
abbrev Reg.ceBatch (i : Nat) : Nat := 0x400040 + 0x10000 * i
/-- The address of CE holdCnt at offset 0x44. -/
abbrev Reg.ceHoldCnt (i : Nat) : Nat := 0x400044 + 0x10000 * i
/-- The address of CE dropCnt at offset 0x48. -/
abbrev Reg.ceDropCnt (i : Nat) : Nat := 0x400048 + 0x10000 * i
/-- The address of CE satCnt at offset 0x4c. -/
abbrev Reg.ceSatCnt (i : Nat) : Nat := 0x40004c + 0x10000 * i
/-- The address of CE exclCnt at offset 0x50. -/
abbrev Reg.ceExclCnt (i : Nat) : Nat := 0x400050 + 0x10000 * i
/-- The address of CE fault at offset 0x80. -/
abbrev Reg.ceFault (i : Nat) : Nat := 0x400080 + 0x10000 * i
/-- The address of CE faultAck at offset 0x84. -/
abbrev Reg.ceFaultAck (i : Nat) : Nat := 0x400084 + 0x10000 * i
/-- The address of CL assign at offset 0x0. -/
abbrev Reg.clAssign (i : Nat) : Nat := 0x600000 + 0x10000 * i
/-- The address of CL status at offset 0x4. -/
abbrev Reg.clStatus (i : Nat) : Nat := 0x600004 + 0x10000 * i
/-- The address of CL win at offset 0x8. -/
abbrev Reg.clWin (i : Nat) : Nat := 0x600008 + 0x10000 * i
/-- The address of CL conflictCnt at offset 0xc. -/
abbrev Reg.clConflictCnt (i : Nat) : Nat := 0x60000c + 0x10000 * i
/-- The address of CL noteCfg at offset 0x10. -/
abbrev Reg.clNoteCfg (i : Nat) : Nat := 0x600010 + 0x10000 * i
/-- The address of CL noteLost at offset 0x14. -/
abbrev Reg.clNoteLost (i : Nat) : Nat := 0x600014 + 0x10000 * i
/-- The address of CL hostMsg at offset 0x20. -/
abbrev Reg.clHostMsg (i : Nat) (k : Nat) : Nat := 0x600020 + 0x10000 * i + 0xc * k
/-- The address of CL hostSend at offset 0x50. -/
abbrev Reg.clHostSend (i : Nat) : Nat := 0x600050 + 0x10000 * i
/-- The address of CL hostQ at offset 0x54. -/
abbrev Reg.clHostQ (i : Nat) : Nat := 0x600054 + 0x10000 * i
/-- The address of CL hostOut at offset 0x60. -/
abbrev Reg.clHostOut (i : Nat) (k : Nat) : Nat := 0x600060 + 0x10000 * i + 0xc * k
/-- The address of CL hostOutPop at offset 0x90. -/
abbrev Reg.clHostOutPop (i : Nat) : Nat := 0x600090 + 0x10000 * i
/-- The address of CL hostBnc at offset 0xa0. -/
abbrev Reg.clHostBnc (i : Nat) (k : Nat) : Nat := 0x6000a0 + 0x10000 * i + 0xc * k
/-- The address of CL hostBncPop at offset 0xd0. -/
abbrev Reg.clHostBncPop (i : Nat) : Nat := 0x6000d0 + 0x10000 * i
/-- The address of CL fault at offset 0xe0. -/
abbrev Reg.clFault (i : Nat) : Nat := 0x6000e0 + 0x10000 * i
/-- The address of CL faultAck at offset 0xe4. -/
abbrev Reg.clFaultAck (i : Nat) : Nat := 0x6000e4 + 0x10000 * i
/-- The address of CL coreCtrl at offset 0x400. -/
abbrev Reg.clCoreCtrl (i : Nat) (k : Nat) : Nat := 0x600400 + 0x10000 * i + 0x80 * k
/-- The address of CL coreState at offset 0x404. -/
abbrev Reg.clCoreState (i : Nat) (k : Nat) : Nat := 0x600404 + 0x10000 * i + 0x80 * k
/-- The address of CL coreEntry at offset 0x408. -/
abbrev Reg.clCoreEntry (i : Nat) (k : Nat) : Nat := 0x600408 + 0x10000 * i + 0x80 * k
/-- The address of CL corePc at offset 0x40c. -/
abbrev Reg.clCorePc (i : Nat) (k : Nat) : Nat := 0x60040c + 0x10000 * i + 0x80 * k
/-- The address of CL coreRoleEpoch at offset 0x410. -/
abbrev Reg.clCoreRoleEpoch (i : Nat) (k : Nat) : Nat := 0x600410 + 0x10000 * i + 0x80 * k
/-- The address of CL coreSstat at offset 0x414. -/
abbrev Reg.clCoreSstat (i : Nat) (k : Nat) : Nat := 0x600414 + 0x10000 * i + 0x80 * k
/-- The address of CL coreGovPc at offset 0x418. -/
abbrev Reg.clCoreGovPc (i : Nat) (k : Nat) : Nat := 0x600418 + 0x10000 * i + 0x80 * k
/-- The address of CL coreFaultPc at offset 0x41c. -/
abbrev Reg.clCoreFaultPc (i : Nat) (k : Nat) : Nat := 0x60041c + 0x10000 * i + 0x80 * k
/-- The address of CL coreCycles at offset 0x420. -/
abbrev Reg.clCoreCycles (i : Nat) (k : Nat) : Nat := 0x600420 + 0x10000 * i + 0x80 * k
/-- The address of CL coreStalls at offset 0x424. -/
abbrev Reg.clCoreStalls (i : Nat) (k : Nat) : Nat := 0x600424 + 0x10000 * i + 0x80 * k
/-- The address of CL coreBounceCnt at offset 0x428. -/
abbrev Reg.clCoreBounceCnt (i : Nat) (k : Nat) : Nat := 0x600428 + 0x10000 * i + 0x80 * k
/-- The address of CL coreMsgq at offset 0x42c. -/
abbrev Reg.clCoreMsgq (i : Nat) (k : Nat) : Nat := 0x60042c + 0x10000 * i + 0x80 * k
/-- The address of CL coreBexp at offset 0x430. -/
abbrev Reg.clCoreBexp (i : Nat) (k : Nat) : Nat := 0x600430 + 0x10000 * i + 0x80 * k
/-- The address of MC ctrl at offset 0x0. -/
abbrev Reg.mcCtrl (i : Nat) : Nat := 0x800000 + 0x10000 * i
/-- The address of MC status at offset 0x4. -/
abbrev Reg.mcStatus (i : Nat) : Nat := 0x800004 + 0x10000 * i
/-- The address of MC geom at offset 0x8. -/
abbrev Reg.mcGeom (i : Nat) : Nat := 0x800008 + 0x10000 * i
/-- The address of MC capacity at offset 0xc. -/
abbrev Reg.mcCapacity (i : Nat) : Nat := 0x80000c + 0x10000 * i
/-- The address of MC sched at offset 0x10. -/
abbrev Reg.mcSched (i : Nat) : Nat := 0x800010 + 0x10000 * i
/-- The address of MC page at offset 0x14. -/
abbrev Reg.mcPage (i : Nat) : Nat := 0x800014 + 0x10000 * i
/-- The address of MC nrf at offset 0x18. -/
abbrev Reg.mcNrf (i : Nat) : Nat := 0x800018 + 0x10000 * i
/-- The address of MC nrfSeed at offset 0x1c. -/
abbrev Reg.mcNrfSeed (i : Nat) : Nat := 0x80001c + 0x10000 * i
/-- The address of MC srCfg at offset 0x20. -/
abbrev Reg.mcSrCfg (i : Nat) : Nat := 0x800020 + 0x10000 * i
/-- The address of MC freqCtrl at offset 0x24. -/
abbrev Reg.mcFreqCtrl (i : Nat) : Nat := 0x800024 + 0x10000 * i
/-- The address of MC freqStat at offset 0x28. -/
abbrev Reg.mcFreqStat (i : Nat) : Nat := 0x800028 + 0x10000 * i
/-- The address of MC trainCtrl at offset 0x2c. -/
abbrev Reg.mcTrainCtrl (i : Nat) : Nat := 0x80002c + 0x10000 * i
/-- The address of MC trainStat at offset 0x30. -/
abbrev Reg.mcTrainStat (i : Nat) : Nat := 0x800030 + 0x10000 * i
/-- The address of MC ceCnt at offset 0x40. -/
abbrev Reg.mcCeCnt (i : Nat) : Nat := 0x800040 + 0x10000 * i
/-- The address of MC ueCnt at offset 0x44. -/
abbrev Reg.mcUeCnt (i : Nat) : Nat := 0x800044 + 0x10000 * i
/-- The address of MC poisonCnt at offset 0x48. -/
abbrev Reg.mcPoisonCnt (i : Nat) : Nat := 0x800048 + 0x10000 * i
/-- The address of MC parCnt at offset 0x4c. -/
abbrev Reg.mcParCnt (i : Nat) : Nat := 0x80004c + 0x10000 * i
/-- The address of MC crcCnt at offset 0x50. -/
abbrev Reg.mcCrcCnt (i : Nat) : Nat := 0x800050 + 0x10000 * i
/-- The address of MC replayCnt at offset 0x54. -/
abbrev Reg.mcReplayCnt (i : Nat) : Nat := 0x800054 + 0x10000 * i
/-- The address of MC nrfCnt at offset 0x58. -/
abbrev Reg.mcNrfCnt (i : Nat) : Nat := 0x800058 + 0x10000 * i
/-- The address of MC srCnt at offset 0x5c. -/
abbrev Reg.mcSrCnt (i : Nat) : Nat := 0x80005c + 0x10000 * i
/-- The address of MC ueLog at offset 0x60. -/
abbrev Reg.mcUeLog (i : Nat) : Nat := 0x800060 + 0x10000 * i
/-- The address of MC fault at offset 0x70. -/
abbrev Reg.mcFault (i : Nat) : Nat := 0x800070 + 0x10000 * i
/-- The address of MC faultAck at offset 0x74. -/
abbrev Reg.mcFaultAck (i : Nat) : Nat := 0x800074 + 0x10000 * i
/-- The address of MC tsetRate at offset 0x100. -/
abbrev Reg.mcTsetRate (i : Nat) (k : Nat) : Nat := 0x800100 + 0x10000 * i + 0x40 * k
/-- The address of MC tsetLat at offset 0x104. -/
abbrev Reg.mcTsetLat (i : Nat) (k : Nat) : Nat := 0x800104 + 0x10000 * i + 0x40 * k
/-- The address of MC tsetRow at offset 0x108. -/
abbrev Reg.mcTsetRow (i : Nat) (k : Nat) : Nat := 0x800108 + 0x10000 * i + 0x40 * k
/-- The address of MC tsetAct at offset 0x10c. -/
abbrev Reg.mcTsetAct (i : Nat) (k : Nat) : Nat := 0x80010c + 0x10000 * i + 0x40 * k
/-- The address of MC tsetCol at offset 0x110. -/
abbrev Reg.mcTsetCol (i : Nat) (k : Nat) : Nat := 0x800110 + 0x10000 * i + 0x40 * k
/-- The address of MC tsetRef at offset 0x114. -/
abbrev Reg.mcTsetRef (i : Nat) (k : Nat) : Nat := 0x800114 + 0x10000 * i + 0x40 * k
/-- The address of MC tsetSrx at offset 0x118. -/
abbrev Reg.mcTsetSrx (i : Nat) (k : Nat) : Nat := 0x800118 + 0x10000 * i + 0x40 * k
/-- The address of MC trA0 at offset 0x400. -/
abbrev Reg.mcTrA0 (i : Nat) (k : Nat) : Nat := 0x800400 + 0x10000 * i + 0x8 * k
/-- The address of MC trB0 at offset 0x404. -/
abbrev Reg.mcTrB0 (i : Nat) (k : Nat) : Nat := 0x800404 + 0x10000 * i + 0x8 * k
/-- The address of MC trA1 at offset 0x450. -/
abbrev Reg.mcTrA1 (i : Nat) (k : Nat) : Nat := 0x800450 + 0x10000 * i + 0x8 * k
/-- The address of MC trB1 at offset 0x454. -/
abbrev Reg.mcTrB1 (i : Nat) (k : Nat) : Nat := 0x800454 + 0x10000 * i + 0x8 * k

end Sys2Proof.Machine
end

