-- ==== Sys2Proof/Machine/Ops.lean ====
section
/-!
DEFINITION. The named operations over registers and stores: reading and setting a register by its address, its fields and its
bits, 72-bit values (R46), and the per-instance records of the engines.
-/
namespace Sys2Proof.Machine

/-! ## Registers -/

/-- The stored value of the register at a normal-view address. -/
def State.reg (s : State) (a : Nat) : W32 := s.regs.get (resetOf a) a

/-- Set the stored value of a register. -/
def State.setReg (s : State) (a : Nat) (v : W32) : State := { s with regs := s.regs.set (resetOf a) a v }

/-- Bits hi down to lo of a register. -/
def State.fld (s : State) (a hi lo : Nat) : Nat := field (s.reg a) hi lo

/-- Bits hi down to lo of a register, signed. -/
def State.fldS (s : State) (a hi lo : Nat) : Int := fieldS (s.reg a) hi lo

/-- Set bits hi down to lo of a register. -/
def State.setFld (s : State) (a hi lo x : Nat) : State := s.setReg a (withField (s.reg a) hi lo x)

/-- Bit i of a register. -/
def State.rbit (s : State) (a i : Nat) : Bool := bitOf (s.reg a) i

/-- Set bit i of a register. -/
def State.setRbit (s : State) (a i : Nat) (b : Bool) : State := s.setReg a (withBit (s.reg a) i b)

/-- Advance a counter register by n, modulo 2^32. -/
def State.count (s : State) (a n : Nat) : State := s.setReg a (s.reg a + BitVec.ofNat 32 n)

/-- The stored 72-bit value whose LO lies at an address (R46). -/
def State.wreg (s : State) (a : Nat) : W72 := s.wide.get 0 a

/-- Set a stored 72-bit value. -/
def State.setWreg (s : State) (a : Nat) (v : W72) : State := { s with wide := s.wide.set 0 a v }

/-! ## Whether the device works at all -/

/-- The device is scrapped (R443). -/
def State.scrapped (s : State) : Bool := decide (s.fld Reg.lifeState 1 0 = 3)

/-- The boot ended in minimal mode (R437). -/
def State.minimal (s : State) : Bool := s.rbit Reg.sysBootStat 1

/-- Nothing but resets and the optical interlock acts: reset is held over a hot die, or the device is scrapped (R429, R443). -/
def State.shut (s : State) : Bool := s.boot.held || s.scrapped

/-- No probe leaves the device (R437, R443). -/
def State.noProbe (s : State) : Bool := s.shut || s.minimal

/-! ## Requesters -/

/-- The REQ code of a requester (R41). -/
def Req.code : Req → Nat
  | .pcie => 0
  | .spi => 1
  | .cp => 2

/-- A requester's state. -/
def State.req (s : State) (q : Req) : ReqSt := s.reqs.get {} (Req.code q)

/-- Set a requester's state. -/
def State.setReq (s : State) (q : Req) (r : ReqSt) : State := { s with reqs := s.reqs.set {} (Req.code q) r }

/-- Record the data a read returned to a requester. -/
def State.answer (s : State) (q : Req) (v : W32) : State := s.setReq q { s.req q with data := v }

/-- Send a message or signal out of the block (DESIGN CHOICE, log entry 5). -/
def State.emit (s : State) (o : Out) : State := { s with tx := s.tx ++ [o] }

/-- Local time as a TS72 word (R106). -/
def ts72 (now : Nat) : W72 :=
  let ns := now / 2 ^ 32
  let sec := ns / 1000000000
  BitVec.ofNat 72 (sec % 2 ^ 32 * 2 ^ 40 + ns % 1000000000 * 2 ^ 10 + now % 2 ^ 32 / 2 ^ 22)

/-- The present local time as a TS72 word (R106). -/
def State.stamp (s : State) : W72 := ts72 s.time.now

/-! ## Records of the engines -/

def State.head (s : State) (h : Nat) : HeadSt := s.heads.get {} h
def State.setHead (s : State) (h : Nat) (x : HeadSt) : State := { s with heads := s.heads.set {} h x }
def State.lane (s : State) (ch : Nat) : LaneSt := s.lanes.get {} ch
def State.setLane (s : State) (ch : Nat) (x : LaneSt) : State := { s with lanes := s.lanes.set {} ch x }
def State.sched (s : State) (h : Nat) : SchedSt := s.scheds.get {} h
def State.setSched (s : State) (h : Nat) (x : SchedSt) : State := { s with scheds := s.scheds.set {} h x }
def State.tdc (s : State) (u : Nat) : TdcSt := s.tdcs.get {} u
def State.setTdc (s : State) (u : Nat) (x : TdcSt) : State := { s with tdcs := s.tdcs.set {} u x }
def State.ce (s : State) (ch : Nat) : CeSt := s.ces.get {} ch
def State.setCe (s : State) (ch : Nat) (x : CeSt) : State := { s with ces := s.ces.set {} ch x }
def State.mc (s : State) (m : Nat) : McSt := s.mcs.get {} m
def State.setMc (s : State) (m : Nat) (x : McSt) : State := { s with mcs := s.mcs.set {} m x }
def State.vec (s : State) (v : Nat) : VecSt := s.vecs.get {} v
def State.setVec (s : State) (v : Nat) (x : VecSt) : State := { s with vecs := s.vecs.set {} v x }
def State.queue (s : State) (v : Nat) : QueueSt := s.queues.get {} v
def State.setQueue (s : State) (v : Nat) (x : QueueSt) : State := { s with queues := s.queues.set {} v x }
def State.session (s : State) (i : Nat) : SessionSt := s.sessions.get {} i
def State.setSession (s : State) (i : Nat) (x : SessionSt) : State := { s with sessions := s.sessions.set {} i x }

def State.core (s : State) (c : Nat) : CoreSt := s.cores.get {} c
def State.setCore (s : State) (c : Nat) (x : CoreSt) : State := { s with cores := s.cores.set {} c x }
def State.cluster (s : State) (cl : Nat) : ClusterSt := s.clusters.get {} cl
def State.setCluster (s : State) (cl : Nat) (x : ClusterSt) : State := { s with clusters := s.clusters.set {} cl x }

def State.chain (s : State) (ch : Nat) : ChainSt := s.chains.get {} ch
def State.setChain (s : State) (ch : Nat) (x : ChainSt) : State := { s with chains := s.chains.set {} ch x }

def State.zone (s : State) (z : Nat) : ZoneSt := s.zoneSts.get {} z
def State.setZone (s : State) (z : Nat) (x : ZoneSt) : State := { s with zoneSts := s.zoneSts.set {} z x }
def State.cap (s : State) (k : Nat) : Option CapSt := s.caps.get none k
def State.setCap (s : State) (k : Nat) (x : Option CapSt) : State := { s with caps := s.caps.set none k x }
def State.tpdo (s : State) (i : Nat) : TpdoSt := s.tpdos.get {} i
def State.setTpdo (s : State) (i : Nat) (x : TpdoSt) : State := { s with tpdos := s.tpdos.set {} i x }

def State.dma (s : State) (n : Nat) : DmaSt := s.dmas.get {} n
def State.setDma (s : State) (n : Nat) (x : DmaSt) : State := { s with dmas := s.dmas.set {} n x }
def State.lamp (s : State) (p : Nat) : LampSt := s.lamps.get {} p
def State.setLamp (s : State) (p : Nat) (x : LampSt) : State := { s with lamps := s.lamps.set {} p x }
def State.loopOut (s : State) (n : Nat) : LoopOutSt := s.loopOuts.get {} n
def State.setLoopOut (s : State) (n : Nat) (x : LoopOutSt) : State := { s with loopOuts := s.loopOuts.set {} n x }
def State.can (s : State) (c : Nat) : CanSt := s.cans.get {} c
def State.setCan (s : State) (c : Nat) (x : CanSt) : State := { s with cans := s.cans.set {} c x }
def State.ptp (s : State) (n : Nat) : PtpSt := s.ptps.get {} n
def State.setPtp (s : State) (n : Nat) (x : PtpSt) : State := { s with ptps := s.ptps.set {} n x }

/-! ## Free values -/

/-- The next free value (DESIGN CHOICE, log entry 4). -/
def State.free (s : State) : W72 := Config.freeWord s.fresh

/-- Free values drawn so far move on by one. -/
def State.drawn (s : State) : State := { s with fresh := s.fresh + 1 }

/-! ## Iteration -/

/-- Do f for every number of a list, in order. -/
def forEach {σ : Type} (l : List Nat) (f : Nat → σ → σ) (s : σ) : σ := l.foldl (fun t i => f i t) s

/-- Element i of a list, or a default. -/
def nth {α : Type} (l : List α) (i : Nat) (d : α) : α := l.getD i d

/-- A list with element i replaced, where it exists. -/
def setNth {α : Type} (l : List α) (i : Nat) (x : α) : List α := l.set i x

/-- When a condition holds, do f. -/
def State.when (s : State) (c : Bool) (f : State → State) : State := if c then f s else s

end Sys2Proof.Machine
end

