-- ==== Sys2Proof/Machine/DictTab.lean ====
section
/-!
DEFINITION. The table of the object dictionary (R393 to R400, and the entries of R145, R162, R167, R169, R182, R251, R262, R360 and
R412): types, access, defaults and ranges, and the stored values of entries. Entries that stand for registers, tables or live
values are read and written by the dictionary's meanings.
-/
namespace Sys2Proof.Machine

/-- The types of R394. -/
inductive OdType where
  | bool | i8 | i16 | i32 | i64 | u8 | u16 | u32 | u64 | r32 | r64 | str | oct | dom | w72 | ts72
  deriving DecidableEq, Repr

/-- The code of a type (R394). -/
def odCode : OdType → Nat
  | .bool => 0x01
  | .i8 => 0x02
  | .i16 => 0x03
  | .i32 => 0x04
  | .i64 => 0x15
  | .u8 => 0x05
  | .u16 => 0x06
  | .u32 => 0x07
  | .u64 => 0x1B
  | .r32 => 0x08
  | .r64 => 0x11
  | .str => 0x09
  | .oct => 0x0A
  | .dom => 0x0F
  | .w72 => 0x80
  | .ts72 => 0x81

/-- The bytes of a fixed-length type; 0 for the others (R394). -/
def odBytesOf : OdType → Nat
  | .bool | .i8 | .u8 => 1
  | .i16 | .u16 => 2
  | .i32 | .u32 | .r32 => 4
  | .i64 | .u64 | .r64 => 8
  | .w72 | .ts72 => 9
  | _ => 0

/-- A type holds a signed number. -/
def odSigned : OdType → Bool
  | .i8 | .i16 | .i32 | .i64 => true
  | _ => false

/-- The access codes of R395; no entry of the table is RWL. -/
inductive OdAcc where
  | const | ro | wo | rw | rws
  deriving DecidableEq, Repr

/-- One row: n indices from idx in steps of stride, m sub-indices from sub, type, access, default, range, and whether TPDOs and
RPDOs may map it (R393, R417). -/
structure OdRow where
  idx : Nat
  n : Nat
  stride : Nat
  sub : Nat
  m : Nat
  type : OdType
  acc : OdAcc
  dflt : Nat
  range : Option (Int × Int)
  tx : Bool
  rx : Bool
  deriving DecidableEq, Repr

/-- Communication and identity (R399, R400, R414, R434, R445). -/
def odComm : List OdRow := [
  ⟨0x1000, 1, 0x0, 0x0, 1, .u32, .const, 0, none, false, false⟩,
  ⟨0x1001, 1, 0x0, 0x0, 1, .u8, .ro, 0, none, false, false⟩,
  ⟨0x1008, 1, 0x0, 0x0, 1, .str, .const, 0, none, false, false⟩,
  ⟨0x100A, 1, 0x0, 0x0, 1, .str, .ro, 0, none, false, false⟩,
  ⟨0x1010, 1, 0x0, 0x1, 1, .u32, .rw, 1, none, false, false⟩,
  ⟨0x1011, 1, 0x0, 0x1, 1, .u32, .rw, 1, none, false, false⟩,
  ⟨0x1016, 1, 0x0, 0x1, 4, .u32, .rws, 0, none, false, false⟩,
  ⟨0x1017, 1, 0x0, 0x0, 1, .u16, .rws, 1000, none, false, false⟩,
  ⟨0x1018, 1, 0x0, 0x1, 1, .u32, .const, 2647, none, false, false⟩,
  ⟨0x1018, 1, 0x0, 0x2, 1, .u32, .const, 12880, none, false, false⟩,
  ⟨0x1018, 1, 0x0, 0x3, 1, .u32, .const, 0, none, false, false⟩,
  ⟨0x1018, 1, 0x0, 0x4, 1, .u32, .const, 0, none, false, false⟩,
  ⟨0x1400, 8, 0x1, 0x1, 1, .u32, .rws, 0, none, false, false⟩,
  ⟨0x1400, 8, 0x1, 0x2, 1, .u8, .rws, 255, some (254, 255), false, false⟩,
  ⟨0x1600, 8, 0x1, 0x0, 1, .u8, .rws, 0, some (0, 16), false, false⟩,
  ⟨0x1600, 8, 0x1, 0x1, 16, .u32, .rws, 0, none, false, false⟩,
  ⟨0x1800, 16, 0x1, 0x1, 1, .u32, .rws, 0, none, false, false⟩,
  ⟨0x1800, 16, 0x1, 0x2, 1, .u8, .rws, 255, some (254, 255), false, false⟩,
  ⟨0x1800, 16, 0x1, 0x3, 1, .u16, .rws, 0, none, false, false⟩,
  ⟨0x1800, 16, 0x1, 0x4, 1, .u8, .rws, 0, none, false, false⟩,
  ⟨0x1800, 16, 0x1, 0x5, 1, .u16, .rws, 0, none, false, false⟩,
  ⟨0x1A00, 16, 0x1, 0x0, 1, .u8, .rws, 0, some (0, 16), false, false⟩,
  ⟨0x1A00, 16, 0x1, 0x1, 16, .u32, .rws, 0, none, false, false⟩,
  ⟨0x1F10, 1, 0x0, 0x0, 1, .u8, .ro, 0, none, false, false⟩,
  ⟨0x1F50, 1, 0x0, 0x1, 2, .dom, .wo, 0, none, false, false⟩,
  ⟨0x1F51, 1, 0x0, 0x1, 1, .u8, .wo, 0, none, false, false⟩,
  ⟨0x1F80, 5, 0x1, 0x0, 1, .oct, .wo, 0, none, false, false⟩]

/-- Device, network, PTP and coil entries (R400, R412, R167). -/
def odDevice : List OdRow := [
  ⟨0x2000, 1, 0x0, 0x1, 1, .u16, .rws, 0, none, false, false⟩,
  ⟨0x2000, 1, 0x0, 0x2, 1, .u32, .rws, 4026450850, none, false, false⟩,
  ⟨0x2000, 1, 0x0, 0x3, 1, .oct, .rws, 0, none, false, false⟩,
  ⟨0x2000, 1, 0x0, 0x4, 1, .u16, .rws, 60, some (10, 3600), false, false⟩,
  ⟨0x2001, 2, 0x1, 0x1, 1, .u32, .rws, 0, none, false, false⟩,
  ⟨0x2001, 2, 0x1, 0x2, 1, .u8, .rws, 0, some (0, 32), false, false⟩,
  ⟨0x2001, 2, 0x1, 0x3, 1, .u32, .rws, 0, none, false, false⟩,
  ⟨0x2001, 2, 0x1, 0x4, 1, .oct, .rws, 0, none, false, false⟩,
  ⟨0x2001, 2, 0x1, 0x5, 1, .u8, .rws, 0, some (0, 128), false, false⟩,
  ⟨0x2010, 1, 0x0, 0x1, 1, .u8, .rws, 0, some (0, 127), false, false⟩,
  ⟨0x2010, 1, 0x0, 0x2, 1, .u8, .rws, 248, some (0, 255), false, false⟩,
  ⟨0x2010, 1, 0x0, 0x3, 1, .u8, .rws, 248, some (0, 255), false, false⟩,
  ⟨0x2010, 1, 0x0, 0x4, 1, .u8, .rws, 1, some (1, 2), false, false⟩,
  ⟨0x2010, 1, 0x0, 0x5, 1, .i8, .rws, 0, some (-3, 1), false, false⟩,
  ⟨0x2010, 1, 0x0, 0x6, 1, .i8, .rws, 1, some (0, 3), false, false⟩,
  ⟨0x2010, 1, 0x0, 0x7, 1, .i8, .rws, 0, some (-3, 4), false, false⟩,
  ⟨0x2010, 1, 0x0, 0x8, 1, .u8, .rws, 3, some (2, 10), false, false⟩,
  ⟨0x2010, 1, 0x0, 0x9, 1, .u32, .rws, 1000000, some (1000, 1000000000), false, false⟩,
  ⟨0x2010, 1, 0x0, 0xA, 1, .u32, .rws, 1000, some (10, 100000), false, false⟩,
  ⟨0x2010, 1, 0x0, 0xB, 1, .u32, .rws, 4194312, none, false, false⟩,
  ⟨0x2010, 1, 0x0, 0xC, 1, .u16, .ro, 0, none, false, false⟩,
  ⟨0x2100, 256, 0x1, 0x1, 1, .u16, .rw, 0, none, false, false⟩,
  ⟨0x2100, 256, 0x1, 0x2, 1, .oct, .rw, 0, none, false, false⟩,
  ⟨0x2100, 256, 0x1, 0x3, 1, .u16, .rw, 0, none, false, false⟩,
  ⟨0x2402, 4, 0x40, 0x1, 1, .i32, .ro, 0, none, false, false⟩,
  ⟨0x2402, 4, 0x40, 0x2, 1, .ts72, .ro, 0, none, false, false⟩,
  ⟨0x2402, 4, 0x40, 0x3, 1, .bool, .ro, 0, none, false, false⟩,
  ⟨0x2402, 4, 0x40, 0x4, 1, .u16, .rws, 1000, some (10, 60000), false, false⟩]

/-- The entries of a channel (R145, R169, R182). -/
def odChannel : List OdRow := [
  ⟨0x2810, 32, 0x40, 0x1, 1, .bool, .rws, 0, none, false, false⟩,
  ⟨0x2810, 32, 0x40, 0x2, 1, .u8, .rws, 8, some (1, 32), false, false⟩,
  ⟨0x2810, 32, 0x40, 0x3, 1, .u8, .rws, 1, some (0, 1), false, false⟩,
  ⟨0x2810, 32, 0x40, 0x4, 1, .u8, .rws, 3, some (1, 3), false, false⟩,
  ⟨0x2810, 32, 0x40, 0x5, 1, .u32, .rws, 256, none, false, false⟩,
  ⟨0x2810, 32, 0x40, 0x6, 1, .u32, .rws, 1024, none, false, false⟩,
  ⟨0x2810, 32, 0x40, 0x7, 1, .u32, .rws, 4096, none, false, false⟩,
  ⟨0x2810, 32, 0x40, 0x8, 1, .u8, .rws, 8, some (4, 12), false, false⟩,
  ⟨0x2810, 32, 0x40, 0x9, 1, .u8, .rws, 0, none, false, false⟩,
  ⟨0x2810, 32, 0x40, 0xA, 1, .u8, .rws, 8, some (6, 12), false, false⟩,
  ⟨0x2810, 32, 0x40, 0xB, 1, .u32, .rws, 1550120, some (1260000, 1675000), false, false⟩,
  ⟨0x2810, 32, 0x40, 0xC, 1, .r32, .rws, 1061662228, none, false, false⟩,
  ⟨0x2810, 32, 0x40, 0xD, 1, .r32, .ro, 0, none, false, false⟩,
  ⟨0x2811, 32, 0x40, 0x1, 1, .u8, .rws, 0, some (0, 2), false, false⟩,
  ⟨0x2811, 32, 0x40, 0x2, 3, .i32, .rws, 0, none, false, false⟩,
  ⟨0x2811, 32, 0x40, 0x5, 1, .u8, .rws, 0, some (0, 2), false, false⟩,
  ⟨0x2811, 32, 0x40, 0x6, 3, .i32, .rws, 0, none, false, false⟩,
  ⟨0x2811, 32, 0x40, 0x9, 1, .u8, .rws, 0, some (0, 2), false, false⟩,
  ⟨0x2811, 32, 0x40, 0xA, 3, .i32, .rws, 0, none, false, false⟩,
  ⟨0x2811, 32, 0x40, 0xD, 1, .u8, .rws, 0, some (0, 2), false, false⟩,
  ⟨0x2811, 32, 0x40, 0xE, 3, .i32, .rws, 0, none, false, false⟩,
  ⟨0x2811, 32, 0x40, 0x11, 1, .u8, .rws, 0, some (0, 2), false, false⟩,
  ⟨0x2811, 32, 0x40, 0x12, 3, .i32, .rws, 0, none, false, false⟩,
  ⟨0x2811, 32, 0x40, 0x15, 1, .u8, .rws, 0, some (0, 2), false, false⟩,
  ⟨0x2811, 32, 0x40, 0x16, 3, .i32, .rws, 0, none, false, false⟩,
  ⟨0x2811, 32, 0x40, 0x19, 1, .u8, .rws, 0, some (0, 2), false, false⟩,
  ⟨0x2811, 32, 0x40, 0x1A, 3, .i32, .rws, 0, none, false, false⟩,
  ⟨0x2811, 32, 0x40, 0x1D, 1, .u8, .rws, 0, some (0, 2), false, false⟩,
  ⟨0x2811, 32, 0x40, 0x1E, 3, .i32, .rws, 0, none, false, false⟩,
  ⟨0x2812, 32, 0x40, 0x1, 1, .bool, .rws, 0, none, false, false⟩,
  ⟨0x2812, 32, 0x40, 0x2, 1, .u16, .rws, 32, some (1, 4096), false, false⟩,
  ⟨0x2812, 32, 0x40, 0x3, 1, .u32, .rws, 633100000, some (400000000, 900000000), false, false⟩,
  ⟨0x2812, 32, 0x40, 0x4, 1, .i32, .rws, 5878, none, false, false⟩,
  ⟨0x2812, 32, 0x40, 0x5, 1, .i16, .rws, 0, some (-256, 4095), false, false⟩,
  ⟨0x2812, 32, 0x40, 0x6, 1, .u8, .rws, 1, some (1, 255), false, false⟩,
  ⟨0x2812, 32, 0x40, 0x7, 1, .u16, .rws, 0, none, false, false⟩,
  ⟨0x2812, 32, 0x40, 0x8, 1, .u16, .rws, 0, some (0, 256), false, false⟩,
  ⟨0x2812, 32, 0x40, 0x9, 1, .bool, .rws, 0, none, false, false⟩,
  ⟨0x2812, 32, 0x40, 0xA, 1, .u32, .rws, 0, none, false, false⟩,
  ⟨0x2812, 32, 0x40, 0xB, 1, .i32, .ro, 0, none, false, false⟩,
  ⟨0x2812, 32, 0x40, 0xC, 1, .u32, .ro, 0, none, false, false⟩,
  ⟨0x2813, 32, 0x40, 0x1, 1, .bool, .rws, 0, none, false, false⟩,
  ⟨0x2813, 32, 0x40, 0x2, 1, .u8, .rws, 8, some (1, 64), false, false⟩,
  ⟨0x2813, 32, 0x40, 0x3, 1, .u32, .rws, 2000, some (16, 16777216), false, false⟩,
  ⟨0x2813, 32, 0x40, 0x4, 1, .i32, .rws, 610170078, none, false, false⟩,
  ⟨0x2813, 32, 0x40, 0x5, 1, .u8, .rws, 4, some (0, 12), false, false⟩,
  ⟨0x2813, 32, 0x40, 0x6, 1, .bool, .rws, 1, none, false, false⟩,
  ⟨0x2813, 32, 0x40, 0x7, 1, .u8, .rws, 2, some (1, 255), false, false⟩,
  ⟨0x2813, 32, 0x40, 0x8, 1, .u32, .ro, 0, none, false, false⟩]

/-- Zones, front end, loops, history and live values (R251, R360, R162, R400). -/
def odRest : List OdRow := [
  ⟨0x3000, 4096, 0x1, 0x1, 8, .w72, .rws, 0, none, false, false⟩,
  ⟨0x3000, 4096, 0x1, 0x9, 2, .w72, .ro, 0, none, false, false⟩,
  ⟨0x3000, 4096, 0x1, 0xB, 1, .i64, .wo, 0, some (-140737488355328, 140737488355327), false, true⟩,
  ⟨0x3000, 4096, 0x1, 0xC, 1, .u8, .ro, 0, none, true, false⟩,
  ⟨0x3000, 4096, 0x1, 0xD, 1, .i64, .ro, 0, none, true, false⟩,
  ⟨0x4410, 16, 0x1, 0x1, 1, .r64, .rws, 0x4059000000000000, none, false, false⟩,
  ⟨0x4410, 16, 0x1, 0x2, 1, .r64, .rws, 0x3f7002264aed641c, none, false, false⟩,
  ⟨0x4410, 16, 0x1, 0x3, 1, .r64, .rws, 0xbea360afee19ce88, none, false, false⟩,
  ⟨0x4410, 16, 0x1, 0x4, 1, .r64, .rws, 0xbd9265a3a9d75ffa, none, false, false⟩,
  ⟨0x4410, 16, 0x1, 0x5, 1, .r64, .rws, 0x40a9c80000000000, none, false, false⟩,
  ⟨0x4410, 16, 0x1, 0x6, 1, .r64, .rws, 0x3f52803544856b0e, none, false, false⟩,
  ⟨0x4410, 16, 0x1, 0x7, 1, .r64, .rws, 0x3f2eaf6d965b769e, none, false, false⟩,
  ⟨0x4410, 16, 0x1, 0x8, 1, .r64, .rws, 0x3e778e22534d4036, none, false, false⟩,
  ⟨0x4410, 16, 0x1, 0x9, 1, .r64, .ro, 0, none, false, false⟩,
  ⟨0x4410, 16, 0x1, 0xA, 1, .ts72, .ro, 0, none, false, false⟩,
  ⟨0x4410, 16, 0x1, 0xB, 1, .r64, .rws, 0x4004000000000000, none, false, false⟩,
  ⟨0x4420, 1, 0x0, 0x1, 1, .i32, .ro, 0, none, false, false⟩,
  ⟨0x4420, 1, 0x0, 0x2, 1, .ts72, .ro, 0, none, false, false⟩,
  ⟨0x4430, 8, 0x1, 0x1, 1, .u16, .rw, 0, none, true, true⟩,
  ⟨0x4810, 32, 0x1, 0x1, 1, .bool, .rws, 0, none, false, false⟩,
  ⟨0x4810, 32, 0x1, 0x2, 1, .u64, .rws, 0, none, false, false⟩,
  ⟨0x4810, 32, 0x1, 0x3, 1, .u64, .rws, 0, none, false, false⟩,
  ⟨0x4810, 32, 0x1, 0x4, 1, .u64, .rws, 0, none, false, false⟩,
  ⟨0x4810, 32, 0x1, 0x5, 1, .u32, .rws, 20000, some (2, 16777216), false, false⟩,
  ⟨0x4810, 32, 0x1, 0x6, 1, .u32, .ro, 0, none, false, false⟩,
  ⟨0x4810, 32, 0x1, 0x7, 1, .u64, .ro, 0, none, false, false⟩,
  ⟨0x4810, 32, 0x1, 0x8, 1, .u64, .ro, 0, none, false, false⟩,
  ⟨0x6000, 32, 0x1, 0x1, 1, .u64, .ro, 0, none, true, false⟩,
  ⟨0x6000, 32, 0x1, 0x2, 1, .u16, .ro, 0, none, true, false⟩,
  ⟨0x6000, 32, 0x1, 0x3, 1, .u64, .ro, 0, none, true, false⟩,
  ⟨0x6000, 32, 0x1, 0x4, 1, .bool, .ro, 0, none, true, false⟩,
  ⟨0x6040, 4, 0x1, 0x1, 1, .i16, .ro, 0, none, true, false⟩,
  ⟨0x6040, 4, 0x1, 0x2, 1, .u32, .ro, 0, none, true, false⟩]

/-- Every row. -/
def odTable : List OdRow := odComm ++ odDevice ++ odChannel ++ odRest

/-- An index belongs to a row. -/
def odHas (r : OdRow) (idx : Nat) : Bool :=
  decide (r.idx ≤ idx) &&
    (if r.stride = 0 then decide (idx = r.idx)
     else decide ((idx - r.idx) % r.stride = 0) && decide ((idx - r.idx) / r.stride < r.n))

/-- The rows of an index. -/
def odRows (idx : Nat) : List OdRow := odTable.filter fun r => odHas r idx

/-- The row of an entry. -/
def odRow (idx sub : Nat) : Option OdRow :=
  (odRows idx).find? fun r => decide (r.sub ≤ sub) && decide (sub < r.sub + r.m)

/-- The highest sub-index of an index (R393). -/
def odTop (idx : Nat) : Nat := (odRows idx).foldl (fun x r => max x (r.sub + r.m - 1)) 0

/-- The key of an entry. -/
def odKey (idx sub : Nat) : Nat := idx * 256 + sub

/-- The value of an entry before anything is written, without the defaults that follow a node identifier (R414). -/
def odDefault (idx sub : Nat) : Nat := match odRow idx sub with | some r => r.dflt | none => 0

/-- The stored value of an entry, in the bits of its type. -/
def State.odv (s : State) (idx sub : Nat) : Nat := s.od.get (odDefault idx sub) (odKey idx sub)

/-- Set the stored value of an entry. -/
def State.setOdv (s : State) (idx sub v : Nat) : State := { s with od := s.od.set (odDefault idx sub) (odKey idx sub) v }

/-- A stored value read as signed in w bits. -/
def State.odvS (s : State) (idx sub w : Nat) : Int := wrap (s.odv idx sub) w

/-- Set a signed value of w bits. -/
def State.setOdvS (s : State) (idx sub w : Nat) (v : Int) : State := s.setOdv idx sub (v % 2 ^ w).toNat

/-- The stored bytes of a string entry. -/
def State.odStr (s : State) (idx sub : Nat) : List Byte := s.odBytes.get [] (odKey idx sub)

/-- Set the bytes of a string entry. -/
def State.setOdStr (s : State) (idx sub : Nat) (b : List Byte) : State :=
  { s with odBytes := s.odBytes.set [] (odKey idx sub) b }

/-! ## Entries of a channel -/

/-- The indices of channel ch's vibration, band-filter, DTS, FUSE and history entries (R145, R169, R182, R162). -/
def odVib (ch : Nat) : Nat := 0x2810 + 0x40 * ch
def odBand (ch : Nat) : Nat := 0x2811 + 0x40 * ch
def odDts (ch : Nat) : Nat := 0x2812 + 0x40 * ch
def odFuse (ch : Nat) : Nat := 0x2813 + 0x40 * ch
def odHist (ch : Nat) : Nat := 0x4810 + ch

/-- The enables that load vendor roles (R219, R220). -/
def State.vibEn (s : State) (ch : Nat) : Bool := decide (s.odv (odVib ch) 1 ≠ 0)
def State.bandEn (s : State) (ch : Nat) : Nat := s.odv (odVib ch) 9
def State.dtsEn (s : State) (ch : Nat) : Bool := decide (s.odv (odDts ch) 1 ≠ 0)
def State.double (s : State) (ch : Nat) : Bool := decide (s.odv (odDts ch) 9 ≠ 0)
def State.fuseEn (s : State) (ch : Nat) : Bool := decide (s.odv (odFuse ch) 1 ≠ 0)
def State.histEn (s : State) (ch : Nat) : Bool := decide (s.odv (odHist ch) 1 ≠ 0)

/-- A channel is the odd member of an enabled pair (R169, R177). -/
def State.oddOfPair (s : State) (ch : Nat) : Bool :=
  decide (ch % 2 = 1) && s.double (ch - 1) && s.dtsEn (ch - 1)

/-! ## Zone words (R251 to R253) -/

/-- Word w of zone z. -/
def State.zoneWord (s : State) (z w : Nat) : W72 := s.zones.get 0 (8 * z + w)

/-- A zone is enabled (R252). -/
def zoneEn (w : W72) : Bool := w.getLsbD 71

/-- The source and channel of a zone's word 0 (R252). -/
def zoneSrc (w : W72) : Nat := field w 70 68
def zoneCh (w : W72) : Nat := field w 58 54

/-- The enabled zones, in number order. -/
def State.enabledZones (s : State) : List Nat :=
  (s.zones.cells.filter fun c => decide (c.1 % 8 = 0) && zoneEn c.2).map fun c => c.1 / 8

/-- An enabled zone reads a channel's frames; an INPUT zone reads none (R252, R255). -/
def State.zoneReads (s : State) (ch : Nat) : Bool :=
  s.enabledZones.any fun z => decide (zoneSrc (s.zoneWord z 0) ≠ 4) && decide (zoneCh (s.zoneWord z 0) = ch)

end Sys2Proof.Machine
end

