-- ==== Sys2Proof/Machine/Frames.lean ====
section
/-!
DEFINITION. Yarfel frames (R401, R402, R405, R407): SHA-256 and HMAC-SHA-256 over bytes, the frame, sequence numbers, session keys, and
sending in a session.
-/
namespace Sys2Proof.Machine

/-! ## SHA-256 and HMAC (R402, R405) -/

/-- The largest x with x ^ k at most t among those that agree with acc from bit b up, found bit after bit from the top. -/
def intRoot (k t : Nat) : Nat → Nat → Nat
  | 0, acc => acc
  | b + 1, acc => intRoot k t b (if (acc + 2 ^ b) ^ k ≤ t then acc + 2 ^ b else acc)

/-- The first 32 fraction bits of the k-th root of a number below 512: what SHA-256 takes its constants from. -/
def rootFraction (k n : Nat) : W32 := BitVec.ofNat 32 (intRoot k (n * 2 ^ (32 * k)) 37 0)

/-- The primes up to 311, 64 of them. -/
def shaPrimes : List Nat :=
  (List.range 312).filter fun n => decide (1 < n) && (List.range 16).all fun d => decide (d + 2 ≥ n) || n % (d + 2) != 0

/-- n bytes of a number, most significant first. -/
def beBytes (n x : Nat) : List Byte := (leBytes x n).reverse

/-- A number from its bytes, most significant first. -/
def ofBeBytes (l : List Byte) : Nat := ofLeBytes l.reverse

/-- The message padded to a whole number of 64-byte blocks. -/
def shaPad (m : List Byte) : List Byte :=
  m ++ [0x80] ++ List.replicate ((119 - m.length % 64) % 64) 0 ++ beBytes 8 (8 * m.length)

/-- A word of SHA-256's sigma functions: two rotations and a third term. -/
def shaSigma (x : W32) (r1 r2 : Nat) (third : W32) : W32 := x.rotateRight r1 ^^^ x.rotateRight r2 ^^^ third

/-- SHA-256 in the middle of a block: the working values, newest of each quarter first, and the next 16 words of the schedule. -/
structure ShaSt where
  abcd : List W32
  efgh : List W32
  next : List W32

/-- One round under the k-th root of the round's prime; the schedule gains the word 16 rounds ahead. -/
def ShaSt.round (s : ShaSt) (prime : Nat) : ShaSt :=
  let a := nth s.abcd 0 0
  let e := nth s.efgh 0 0
  let choose := nth s.efgh 2 0 ^^^ (e &&& (nth s.efgh 1 0 ^^^ nth s.efgh 2 0))
  let most := (a &&& (nth s.abcd 1 0 ||| nth s.abcd 2 0)) ||| (nth s.abcd 1 0 &&& nth s.abcd 2 0)
  let t := shaSigma e 6 11 (e.rotateRight 25) + choose + nth s.efgh 3 0 + rootFraction 3 prime + nth s.next 0 0
  let w1 := nth s.next 1 0
  let w14 := nth s.next 14 0
  let word := nth s.next 9 0 + shaSigma w14 17 19 (w14 >>> 10) + nth s.next 0 0 + shaSigma w1 7 18 (w1 >>> 3)
  { abcd := (shaSigma a 2 13 (a.rotateRight 22) + most + t) :: s.abcd.take 3
    efgh := (nth s.abcd 3 0 + t) :: s.efgh.take 3
    next := s.next.drop 1 ++ [word] }

/-- The hash value after one more block of 64 bytes. -/
def shaBlock (h : List W32) (block : List Byte) : List W32 :=
  let words := (List.range 16).map fun i => BitVec.ofNat 32 (ofBeBytes ((block.drop (4 * i)).take 4))
  let s := shaPrimes.foldl ShaSt.round { abcd := h.take 4, efgh := h.drop 4, next := words }
  List.zipWith (· + ·) h (s.abcd ++ s.efgh)

/-- SHA-256: it starts from the square roots of the first eight primes. -/
def sha256 (m : List Byte) : List Byte :=
  let p := shaPad m
  ((List.range (p.length / 64)).foldl (fun h i => shaBlock h ((p.drop (64 * i)).take 64))
    ((shaPrimes.take 8).map (rootFraction 2))).flatMap fun w => beBytes 4 w.toNat

/-- HMAC-SHA-256 under a key of at most 64 bytes. -/
def hmac (key m : List Byte) : List Byte :=
  let k := (key ++ List.replicate 64 0).take 64
  sha256 (k.map (· ^^^ 0x5c) ++ sha256 (k.map (· ^^^ 0x36) ++ m))

/-- The tag of a frame's header and payload under a key (R402). -/
def frameTag (key body : List Byte) : List Byte := (hmac key body).take 16

/-! ## Frames (R401) -/

/-- The header of a frame. -/
structure FrameHdr where
  type : Nat
  flags : Nat
  role : Nat
  src : Nat
  dst : Nat
  session : Nat
  seq : Nat
  reqId : Nat
  len : Nat

/-- The 24 bytes of a header. -/
def FrameHdr.bytes (f : FrameHdr) : List Byte :=
  [1, BitVec.ofNat 8 f.type, BitVec.ofNat 8 f.flags, BitVec.ofNat 8 f.role] ++ leBytes f.src 2 ++ leBytes f.dst 2 ++
    leBytes f.session 4 ++ leBytes f.seq 4 ++ leBytes f.reqId 2 ++ leBytes f.len 2 ++ leBytes 0 4

/-- Bytes a to a + n - 1 of a list as a number, least significant first. -/
def leAt (l : List Byte) (a n : Nat) : Nat := ofLeBytes ((l.drop a).take n)

/-- The header that the first 24 bytes of a list hold. -/
def frameHdr (l : List Byte) : FrameHdr where
  type := leAt l 1 1
  flags := leAt l 2 1
  role := leAt l 3 1
  src := leAt l 4 2
  dst := leAt l 6 2
  session := leAt l 8 4
  seq := leAt l 12 4
  reqId := leAt l 16 2
  len := leAt l 18 2

/-- The device's own address (R400, entry 0x2000 sub-index 1). -/
def State.devAddr (s : State) : Nat := s.odv 0x2000 1

/-- Yarfel runs (R421, R443). -/
def State.yarfelOn (s : State) : Bool := s.rbit Reg.netCtrl 0 && !s.shut

/-- A port is enabled and its link is up. -/
def State.portUp (s : State) (n : Nat) : Bool := s.rbit (Reg.netPortCfg n) 0 && s.rbit (Reg.netPortStatus n) 0 && !s.shut

/-- The VID of the tag a port's frames carry, none where it does not tag (R421, DESIGN CHOICE, log entry 67). -/
def State.portVid (s : State) (n : Nat) : Option Nat :=
  if s.rbit (Reg.netPortCfg n) 4 then some (s.fld (Reg.netPortCfg n) 27 16) else none

/-- The bytes of an IP address, most significant first, and the address such bytes are. -/
def ipBytes : IpAddr → List Byte
  | .v4 a => beBytes 4 a.toNat
  | .v6 a => beBytes 16 a.toNat
def ipIsV6 : IpAddr → Bool
  | .v4 _ => false
  | .v6 _ => true
def ipOf (l : List Byte) : IpAddr := if l.length = 4 then .v4 (BitVec.ofNat 32 (ofBeBytes l)) else .v6 (BitVec.ofNat 128 (ofBeBytes l))

/-- The IP address of the estate group (R400, entry 0x2000). -/
def State.groupIp (s : State) (v6 : Bool) : IpAddr :=
  if v6 then .v6 (BitVec.ofNat 128 (ofBeBytes (s.odStr 0x2000 3))) else .v4 (BitVec.ofNat 32 (s.odv 0x2000 2))

/-- The addresses of a port (R400, entry 0x2001 + n): its IPv4 and IPv6 address, and the IPv6 link-local address that its MAC address forms
(R419). -/
def State.portIp4 (s : State) (n : Nat) : BitVec 32 := BitVec.ofNat 32 (s.odv (0x2001 + n) 1)
def State.portIp6 (s : State) (n : Nat) : BitVec 128 := BitVec.ofNat 128 (ofBeBytes (s.odStr (0x2001 + n) 4))
def State.portMac (s : State) (n : Nat) : BitVec 48 := BitVec.ofNat 16 (s.fld (Reg.netPortMacHi n) 15 0) ++ s.reg (Reg.netPortMacLo n)
def State.linkLocal (s : State) (n : Nat) : BitVec 128 :=
  let m := s.portMac n
  0xFE80000000000000#64 ++ (m.extractLsb' 24 24 ^^^ 0x020000#24) ++ 0xFFFE#16 ++ m.extractLsb' 0 24

/-- An address is one of a port's own; the address 0 is none (R419). -/
def State.ownIp (s : State) (n : Nat) : IpAddr → Bool
  | .v4 a => decide (a ≠ 0) && decide (a = s.portIp4 n)
  | .v6 a => decide (a ≠ 0) && (decide (a = s.portIp6 n) || decide (a = s.linkLocal n))

/-- A port's prefix holds an address (R400). -/
def State.onLink (s : State) (n : Nat) : IpAddr → Bool
  | .v4 a => decide (a >>> (32 - min 32 (s.odv (0x2001 + n) 2)) = s.portIp4 n >>> (32 - min 32 (s.odv (0x2001 + n) 2)))
  | .v6 a => decide (a >>> (128 - min 128 (s.odv (0x2001 + n) 5)) = s.portIp6 n >>> (128 - min 128 (s.odv (0x2001 + n) 5)))

/-- The ports a datagram leaves from: every port that is up for the estate group, else the first whose prefix holds the address, else the
first that is up (R401, R404, DESIGN CHOICE, log entry 67). -/
def State.routes (s : State) (ip : IpAddr) : List Nat :=
  let ups := [0, 1].filter s.portUp
  if ip = s.groupIp false ∨ ip = s.groupIp true then ups
  else match ups.find? fun n => s.onLink n ip with
    | some n => [n]
    | none => ups.take 1

/-- A datagram leaves for an IP address while Yarfel runs: a frame sent on each port it takes (R401, R421). -/
def State.datagram (s : State) (ip : IpAddr) (bytes : List Byte) : State :=
  if s.yarfelOn then
    forEach (s.routes ip) (fun n t => (t.emit (.yarfel n (t.portVid n) ip bytes)).count (Reg.netPortTxFrames n) 1) s
  else s

/-- The IP address a unicast frame to a device goes to: its peer entry's, or the estate group address, the IPv6 one where the session came over
IPv6 (R404, DESIGN CHOICE, log entry 67). -/
def State.peerIp (s : State) (dev : Nat) (v6 : Bool := false) : IpAddr :=
  match s.net.peers.find? fun k => decide (s.odv (0x2100 + k) 1 = dev) with
  | some k => ipOf (s.odStr (0x2100 + k) 2)
  | none => s.groupIp v6

/-- A frame of a session goes out to its peer, numbered and tagged (R401, R402). -/
def State.sessionSend (s : State) (i type flags reqId : Nat) (payload : List Byte) : State :=
  let x := s.session i
  let h : FrameHdr := { type := type, flags := flags, role := x.role, src := s.devAddr, dst := x.client, session := x.sid.toNat,
                        seq := (x.txSeq + 1) % 2 ^ 32, reqId := reqId, len := payload.length }
  let body := h.bytes ++ payload
  (s.setSession i { x with txSeq := x.txSeq + 1 }).datagram (s.peerIp x.client x.v6) (body ++ frameTag x.key body)

/-- The flags of a reply: RESP, ERR with an abort code, MORE while bytes remain (R407). -/
def replyFlags (abort : W32) (more : Bool) : Nat := 1 + (if abort = 0 then 0 else 4) + (if more then 8 else 0)

/-- A reply of a session, kept among its last 8 (R407). -/
def State.sessionReply (s : State) (i type flags reqId : Nat) (payload : List Byte) : State :=
  let x := s.session i
  let kept := (x.replies ++ [(reqId, BitVec.ofNat 8 type :: BitVec.ofNat 8 flags :: payload)])
  (s.setSession i { x with replies := kept.drop (kept.length - 8) }).sessionSend i type flags reqId payload

/-! ## Sequence numbers and keys (R402, R405) -/

/-- The window of 64 below the highest number accepted takes a number once: the highest and the numbers seen after it. -/
def seqAccept (mx : Nat) (seen : List Nat) (n : Nat) : Option (Nat × List Nat) :=
  if mx < n then some (n, (n :: seen).filter fun k => decide (n ≤ k + 64))
  else if n < mx ∧ mx ≤ n + 64 ∧ !seen.contains n then some (mx, n :: seen)
  else none

/-- A session role's key; keys never written are zero bytes (DESIGN CHOICE, log entry 17). -/
def State.roleKey (s : State) (estate : Bool) (role : Nat) : List Byte := s.odStr (if estate then 0x1F84 else 0x1F80 + role) 0

/-- The session key of R405. -/
def sessionKey (key : List Byte) (sid client dev role : Nat) (nc nd : List Byte) : List Byte :=
  hmac key ([0x59, 0x52, 0x46, 0x4C] ++ leBytes sid 4 ++ nc ++ nd ++ leBytes client 2 ++ leBytes dev 2 ++ leBytes role 1)

/-- A nonce of 16 bytes from the entropy source: free values (DESIGN CHOICE, log entry 4). -/
def State.drawNonce (s : State) : List Byte × State :=
  (leBytes (field s.free 63 0) 8 ++ leBytes (field s.drawn.free 63 0) 8, s.drawn.drawn)

end Sys2Proof.Machine
end

