-- ==== Sys2Proof/Machine/Attention.lean ====
section
/-!
DEFINITION. The attention unit (R318 to R327) and the fault registers of every block (R40, R41): events, moderation, raises,
MSI-X, pins, NOTIFY, export queues, the RS registers and the refusal of a write.
-/
namespace Sys2Proof.Machine

/-! ## MSI-X -/

/-- What an unlisted word of the MSI-X window reads: the vector control words come up masked (PRESUMED, log entry 9). -/
def msixDefault (i : Nat) : W32 := if i < 2048 ∧ i % 4 = 3 then 1 else 0

/-- A word of the MSI-X table or pending-bit array (R322). -/
def State.msixWord (s : State) (i : Nat) : W32 := s.msix.get (msixDefault i) i

/-- Set a word of the MSI-X table or pending-bit array. -/
def State.setMsixWord (s : State) (i : Nat) (v : W32) : State := { s with msix := s.msix.set (msixDefault i) i v }

/-- Whether a vector's pending bit is set (R322). -/
def State.msixPending (s : State) (v : Nat) : Bool := bitOf (s.msixWord (2048 + v / 32)) (v % 32)

/-- Set or clear a vector's pending bit. -/
def State.setMsixPending (s : State) (v : Nat) (b : Bool) : State :=
  s.setMsixWord (2048 + v / 32) (withBit (s.msixWord (2048 + v / 32)) (v % 32) b)

/-- MSI-X is enabled (R327, STATUS bit 0). -/
def State.msixOn (s : State) : Bool := s.rbit Reg.attnStatus 0

/-- Bus Master Enable (R327, STATUS bit 1). -/
def State.bme (s : State) : Bool := s.rbit Reg.attnStatus 1

/-- A vector is masked by its own mask or by the function mask (R322). -/
def State.msixMasked (s : State) (v : Nat) : Bool := bitOf (s.msixWord (4 * v + 3)) 0 || s.funcMask

/-- Send the message of a vector: its table entry's data to its table entry's address (R322). -/
def State.msixSend (s : State) (v : Nat) : State :=
  s.emit (.msix v (s.msixWord (4 * v + 1) ++ s.msixWord (4 * v)) (s.msixWord (4 * v + 2)))

/-- What MSI-X does with a raise: the pending bit while masked or without Bus Master Enable, else one message unless MSI-X is
disabled (R322). -/
def State.msixRaise (s : State) (v : Nat) : State :=
  if s.msixMasked v || !s.bme then s.setMsixPending v true
  else if s.msixOn then s.msixSend v
  else s

/-- Send the one message a pending vector owes once it is unmasked and Bus Master Enable is 1 (R322). -/
def State.msixRelease (s : State) (v : Nat) : State :=
  if s.msixOn && s.msixPending v && !s.msixMasked v && s.bme then (s.setMsixPending v false).msixSend v else s

/-! ## Raises -/

/-- A session is open and subscribed to a vector (R325). -/
def State.subscribed (s : State) (v i : Nat) : Bool := (s.session i).active && (s.session i).subs.contains v

/-- Send one NOTIFY of a vector, with the time of its raise, to every session subscribed to it (R325,
R408); its REQ_ID is 0 (DESIGN CHOICE, log entry 94). -/
def State.notifySend (s : State) (v : Nat) (stamp : W72) : State :=
  forEach (List.range 16) (fun i t =>
    if t.subscribed v i then
      t.sessionSend i 4 0 0 (leBytes v 2 ++ [0, 0] ++ leBytes (t.vec v).nseq.toNat 4 ++ leBytes stamp.toNat 9 ++ [0, 0, 0])
    else t) s

/-- The NOTIFY of a vector that waits goes out where the send buffer has room, and otherwise stays, with the raises it stands for
(R325); how full the buffer is, is a free value (DESIGN CHOICE, log entry 94). -/
def State.notifyFlush (s : State) (v : Nat) : State :=
  match (s.vec v).held with
  | none => s
  | some stamp =>
    if s.free.getLsbD 0 then s.drawn else (s.drawn.setVec v { s.vec v with held := none }).notifySend v stamp

/-- NOTIFY of a raise of a vector: while the buffer is full, raises coalesce into the next NOTIFY of the vector (R325). -/
def State.notify (s : State) (v : Nat) : State :=
  if s.rbit Reg.attnCtrl 1 && s.rbit (Reg.attnNotify (v / 32)) (v % 32) && (List.range 16).any (s.subscribed v) then
    (s.setVec v { s.vec v with held := some s.stamp }).notifyFlush v
  else s

/-- Every NOTIFY that waits is offered to the send buffer again (R325). -/
def State.notifyWaiting (s : State) : State := forEach s.vecs.keys (fun v t => t.notifyFlush v) s

/-- A raise of a vector: NSEQ advances, LATCH sets, and MSI-X and NOTIFY act; the pins follow LATCH (R322, R324, R325). -/
def State.raise (s : State) (v : Nat) : State :=
  let s := s.setVec v { s.vec v with nseq := (s.vec v).nseq + 1 }
  let s := s.setRbit (Reg.attnLatch (v / 32)) (v % 32) true
  (s.msixRaise v).notify v

/-- Whether the count or the time of moderation is reached (R321). -/
def State.modReached (s : State) (v : Nat) : Bool :=
  let m := Reg.attnMod v
  decide (max (s.fld m 7 0) 1 ≤ (s.vec v).cnt) ||
    (decide (s.fld m 31 16 ≠ 0) && decide (s.fld m 31 16 * 100 ≤ s.time.up - (s.vec v).t0))

/-- An event of a vector: vectors 0 to 191 are moderated, the others raise at each event, the reserved ones never (R320, R321). -/
def State.event (s : State) (v : Nat) : State :=
  if v < 192 then
    let n := (s.vec v).cnt + 1
    let s := s.setVec v { s.vec v with cnt := n, t0 := if n = 1 then s.time.up else (s.vec v).t0 }
    if s.modReached v then (s.setVec v { s.vec v with cnt := 0 }).raise v else s
  else if 240 ≤ v ∧ v < 256 then s
  else s.raise v

/-! ## RS registers and refusals -/

/-- Set fault bits of the RS register at an address: SEQ advances once when a bit goes from 0 to 1, which raises vector 224, and
for the CAN block vector 235 too (R40, R323, R422). -/
def State.fault (s : State) (a : Nat) (m : Nat) : State :=
  let old := s.reg a
  let new := BitVec.ofNat 32 (m % 2 ^ 24) &&& ~~~old
  if new = 0 then s
  else
    let s := s.setReg a (withField (old ||| new) 31 24 (field old 31 24 + 1))
    let s := s.event 224
    if a = Reg.canFault then s.event 235 else s

/-- Acknowledge an RS register: a matching ACK_SEQ clears its fault bits (R40). -/
def State.ack (s : State) (a : Nat) (v : W32) : State :=
  if field v 7 0 = s.fld a 31 24 then s.setReg a (s.reg a &&& 0xFF000000) else s

/-- Record a refused or misdirected access in the ERR of the block at a base address (R41). -/
def State.err (s : State) (base : Nat) (c : Cause) (off : Nat) (q : Req) : State :=
  let s := if s.fld (base + errOff) 23 0 = 0 then
      s.setReg (base + errOff + 8) (BitVec.ofNat 32 (Req.code q * 2 ^ 16 + off % 2 ^ 16)) else s
  s.fault (base + errOff) (2 ^ c.bit)

/-- The first field range a value breaks (R11, R41). -/
def fieldsRefuse (v : W32) : List FieldChk → Option Cause
  | [] => none
  | c :: rest =>
    let x : Int := if c.signed then fieldS v c.hi c.lo else (field v c.hi c.lo : Int)
    if x < c.min ∨ c.max < x then some c.cause else fieldsRefuse v rest

/-- A write of v to the RW bits of a shadow register in the cycle of its hand-over: refused by the block's rules or by its field ranges,
else kept in the shadow, which done reports (R49, R291, R311). -/
def State.lateWrite (s : State) (base off : Nat) (r : RegRow) (check : W32 → Option Cause) (q : Req) (v : W32) (done : State → State) :
    State :=
  let old := s.reg (base + off)
  let mask := BitVec.ofNat 32 r.rw
  let new := (old &&& ~~~mask) ||| (v &&& mask)
  match (if check new = some .busy then check new else (fieldsRefuse new r.chk).or (check new)) with
  | some c => s.err base c off q
  | none => done (s.setReg (base + off) new)

/-! ## Export queues -/

/-- A frame of a channel enters export queue v, or is dropped; its vector is raised either way (R318, R319). -/
def State.export (s : State) (v : Nat) (loc len addr : Nat) : State :=
  let s :=
    if s.rbit (Reg.attnQCfg v) 0 then
      let q := s.queue v
      if q.items.length < 64 then
        let e := BitVec.ofNat 72 (loc % 4 * 2 ^ 70 + b2n q.lost * 2 ^ 69 + len % 2 ^ 24 * 2 ^ 40 + addr % 2 ^ 36)
        s.setQueue v { items := q.items ++ [e], lost := false }
      else ((s.setQueue v { q with lost := true }).count (Reg.attnQLostCnt v) 1).fault Reg.attnFault 1
    else s
  s.event v

/-- Remove the head of export queue v; nothing for an empty queue (R319). -/
def State.exportPop (s : State) (v : Nat) : State :=
  if (s.queue v).items = [] then s else s.setQueue v { s.queue v with items := (s.queue v).items.drop 1 }

/-! ## Pins -/

/-- Every RS register of the device. -/
def allRs : List Nat :=
  allBlks.flatMap fun b => (List.range b.count).flatMap fun i =>
    (b.rows.filter fun r => r.kind = .rs).map fun r => b.at i + r.off

/-- Any RS register has a fault bit set (R324). -/
def State.anyFault (s : State) : Bool := allRs.any fun a => decide (s.fld a 23 0 ≠ 0)

/-- The pin a vector is routed to, if any (R327, ROUTE). -/
def State.route (s : State) (v : Nat) : Option Nat :=
  let c := s.fld (Reg.attnRoute (v / 8)) (4 * (v % 8) + 3) (4 * (v % 8))
  if 8 ≤ c then some (c - 8) else none

/-- The level of pin p (R324). -/
def State.pinLevel (s : State) (p : Nat) : Bool :=
  s.rbit Reg.attnPinCfg p &&
    ((List.range 512).any fun v => s.route v = some p ∧
      (s.rbit (Reg.attnLatch (v / 32)) (v % 32) ∨ v = 224 ∧ s.anyFault))

/-- PIN_STATE (R327). -/
def State.pinState (s : State) : W32 :=
  BitVec.ofNat 32 (bitsToNat ((List.range 8).map s.pinLevel))

end Sys2Proof.Machine
end

