-- ==== Sys2Proof/Machine/Dram.lean ====
section
/-!
DEFINITION. DRAM and its two controllers (R273 to R297): the code that guards a word, capacity and address mapping, the served
read and write, the page predictor, neighbour refresh, the retry buffer, training, frequency change and self-refresh.
-/
namespace Sys2Proof.Machine

/-! ## The code of a stored word -/

/-- How many bits of a byte value are set. -/
def weight8 (x : Nat) : Nat := ((List.range 8).filter fun i => x / 2 ^ i % 2 = 1).length

/-- The columns h(0) to h(71): the 8-bit values of weight three, then the first sixteen of weight five (R274). -/
def eccColumns : List Nat :=
  ((List.range 256).filter fun x => weight8 x = 3) ++ (((List.range 256).filter fun x => weight8 x = 5).take 16)

/-- The exclusive or of the columns of the data bits that are 1. -/
def eccFold (d : W72) : List Nat → Nat → BitVec 8 → BitVec 8
  | [], _, c => c
  | h :: r, j, c => eccFold d r (j + 1) (if d.getLsbD j then c ^^^ BitVec.ofNat 8 h else c)

/-- The check bits of a data word (R274). -/
def eccCheck (d : W72) : BitVec 8 := eccFold d eccColumns 0 0

/-- A stored word: check bits above the data; poisoned words hold inverted check bits (R274, R276). -/
def eccStore (d : W72) (poison : Bool) : BitVec 80 :=
  (if poison then eccCheck d ^^^ 0x7F else eccCheck d) ++ d

/-- What a read of a stored word finds (R275). -/
inductive EccClass where
  | good | corrected | poison | bad
  deriving DecidableEq, Repr

/-- The syndrome of a stored word (R275). -/
def eccSyndrome (w : BitVec 80) : BitVec 8 := w.extractLsb' 72 8 ^^^ eccCheck (w.extractLsb' 0 72)

/-- The word a read delivers and its class (R275). -/
def eccRead (w : BitVec 80) : W72 × EccClass :=
  let d : W72 := w.extractLsb' 0 72
  let y := (eccSyndrome w).toNat
  if y = 0 then (d, .good)
  else match eccColumns.findIdx? (· == y) with
    | some j => (d ^^^ BitVec.ofNat 72 (2 ^ j), .corrected)
    | none =>
      if (List.range 8).any fun i => y = 2 ^ i then (d, .corrected)
      else if y = 0x7F then (d, .poison) else (d, .bad)

/-! ## Capacity and mapping -/

/-- The words of channel m in all its ranks (R278). -/
def State.mcCapacity (s : State) (m : Nat) : Nat :=
  s.fld (Reg.mcGeom m) 1 0 * (if s.rbit (Reg.mcGeom m) 4 then 2 ^ 31 else 2 ^ 30)

/-- D, the words of DRAM (R279). -/
def State.dramWords (s : State) : Nat := s.mcCapacity 0 + s.mcCapacity 1

/-- The channel and local address of a device address below D (R279). -/
def State.dramMap (s : State) (a : Nat) : Nat × Nat :=
  if s.rbit (Reg.mcGeom 0) 8 then
    ((a / 2 ^ 8 + a / 2 ^ 16 + a / 2 ^ 24 + a / 2 ^ 32) % 2, 256 * (a / 512) + a % 256)
  else if a < s.mcCapacity 0 then (0, a) else (1, a - s.mcCapacity 0)

/-- Rank, bank key, row and column of a local address (R280). -/
def State.dramRow (s : State) (m a : Nat) : Nat × Nat × Nat × Nat :=
  let dense := s.rbit (Reg.mcGeom m) 4
  let row := a / 2 ^ 14 % (if dense then 2 ^ 17 else 2 ^ 16)
  let bg := (a / 2 ^ 3 % 4) ^^^ (row % 4)
  let ba := (a / 2 ^ 12 % 4) ^^^ (row / 4 % 4)
  let rank := if s.fld (Reg.mcGeom m) 1 0 = 2 then a / (if dense then 2 ^ 31 else 2 ^ 30) % 2 else 0
  (rank, 64 * m + 16 * rank + 4 * bg + ba, row, 8 * (a / 2 ^ 5 % 128) + a % 8)

/-- The key of a local address in the DRAM store. -/
def dramKey (m a : Nat) : Nat := 4294967296 * m + a

/-- The stored word at a local address. -/
def State.dramCell (s : State) (m a : Nat) : BitVec 80 := s.dram.get 0 (dramKey m a)

/-- Set the stored word at a local address. -/
def State.setDramCell (s : State) (m a : Nat) (w : BitVec 80) : State :=
  { s with dram := s.dram.set 0 (dramKey m a) w }

def State.bank (s : State) (k : Nat) : BankSt := s.banks.get {} k
def State.setBank (s : State) (k : Nat) (b : BankSt) : State := { s with banks := s.banks.set {} k b }

/-! ## Serving requests -/

/-- A command enters the retry buffer. With 32 entries unretired the controller waits until the oldest retires, which ends a run of
replays (R285, R286, DESIGN CHOICE, log entry 10). -/
def State.retryPush (s : State) (m : Nat) (c : RetryCmd) : State :=
  let x := s.mc m
  if x.retry.length < 32 then s.setMc m { x with retry := x.retry ++ [c] }
  else s.setMc m { x with retry := x.retry.drop 1 ++ [c], replays := 0 }

/-- The LFSR of R288 advanced one step: x^32 + x^22 + x^2 + x + 1, shifting left. -/
def lfsrStep (x : W32) : W32 :=
  (x <<< 1) ||| (if (bitOf x 31 ^^ bitOf x 21 ^^ bitOf x 1 ^^ bitOf x 0) then 1 else 0)

/-- The LFSR advanced n steps. -/
def lfsrRun : Nat → W32 → W32
  | 0, x => x
  | n + 1, x => lfsrRun n (lfsrStep x)

/-- The rows beside a row that a neighbour refresh takes, those outside the bank left out (R288). -/
def neighbours (row span rows : Nat) : List Nat :=
  ((List.range (2 * span + 1)).filter fun i => i ≠ span ∧ span ≤ row + i ∧ row + i - span < rows).map fun i => row + i - span

/-- An ACT of a row draws from the LFSR: the rows whose neighbour refresh it queues (R288). -/
def State.actDraw (s : State) (m row : Nat) : List Nat × State :=
  if s.rbit (Reg.mcCtrl m) 3 then
    let x := lfsrRun 16 (s.reg (Reg.mcNrfSeed m))
    let s := s.setReg (Reg.mcNrfSeed m) x
    if x.toNat % 2 ^ s.fld (Reg.mcNrf m) 3 0 = 0 then
      (neighbours row (if s.rbit (Reg.mcNrf m) 4 then 2 else 1) (if s.rbit (Reg.mcGeom m) 4 then 2 ^ 17 else 2 ^ 16), s)
    else ([], s)
  else ([], s)

/-- An ACT of a row enters the retry buffer and draws (R285, R288). -/
def State.activate (s : State) (m bank row : Nat) : List Nat × State := (s.retryPush m (.act bank row)).actDraw m row

/-- The neighbour refreshes queued for a bank are served: an ACT and a PRE of each row, which counts; each ACT draws in its turn. The
first number bounds the rows (R288, DEDUCED, log entry 93). -/
def State.neighbourRefresh (m bank : Nat) : Nat → List Nat → State → State
  | 0, _, s => s
  | _, [], s => s
  | n + 1, r :: rest, s =>
    let (more, s) := s.activate m bank r
    State.neighbourRefresh m bank n (rest ++ more) ((s.retryPush m (.pre bank)).count (Reg.mcNrfCnt m) 1)

/-- The history after an access, from what the last one left (R283). -/
def historyNext (b : BankSt) (row : Nat) : Nat :=
  match b.row with
  | .idle | .used _ => b.h
  | .left r | .predicted r => if r = row then min (b.h + 1) 3 else b.h - 1

/-- The row of a bank that is open. -/
def BankSt.openRow (b : BankSt) : Option Nat :=
  match b.row with
  | .used r | .left r => some r
  | .idle | .predicted _ => none

/-- An access opens its row where another one or none is open, and the history learns: the neighbour refreshes it queues (R283). -/
def State.rowOpen (s : State) (m bank row : Nat) : List Nat × State :=
  let h := historyNext (s.bank bank) row
  let (ns, t) := match (s.bank bank).openRow with
    | some r => if r = row then ([], s) else (s.retryPush m (.pre bank)).activate m bank row
    | none => s.activate m bank row
  (ns, t.setBank bank { h := h, row := .used row })

/-- What the predictor does with the open row of a bank after an access, the last one queued for it or not: it leaves it open or closes it,
at once where the timeout is 0; a neighbour refresh that waits closes it (R283, R288, R297). -/
def State.rowClose (s : State) (m bank row : Nat) (last : Bool) (ns : List Nat) : State :=
  let b := s.bank bank
  let shut := s.fld (Reg.mcPage m) 15 0 = 0 ∨ ns ≠ []
  let s :=
    if last ∧ b.h < 2 then s.setBank bank { b with row := .predicted row }
    else if shut then (s.retryPush m (.pre bank)).setBank bank { b with row := .idle }
    else s.setBank bank { b with row := if last then .left row else .used row }
  State.neighbourRefresh m bank 4096 ns s

/-- The channel has failed (R286). -/
def State.mcFailed (s : State) (m : Nat) : Bool := s.rbit (Reg.mcStatus m) 6

/-- Requests of a channel wait: an alert or its recovery (R285), a change of timing set (R293), training (R289), or EN at 0 (R297). -/
def State.mcWaits (s : State) (m : Nat) : Bool :=
  (s.mc m).alert || (s.mc m).waiting || (s.mc m).changing || s.rbit (Reg.mcStatus m) 1 || !s.rbit (Reg.mcCtrl m) 0

/-- A request waits: its channel does, or its rank is in self-refresh (R296). -/
def State.mcHeld (s : State) (m a : Nat) : Bool := s.mcWaits m || bitOf (s.mc m).sr (s.dramRow m a).1

/-- Serve a request that meets its row: the command, the check of a read, its counts and log, the write-back of a corrected word, which
joins the queue unless a requester's write of the word waits there (R275, R277, R285). -/
def State.mcCommand (s : State) (m bank col : Nat) (r : McReq) (shut : Bool) : State :=
  if !r.rd then (s.retryPush m (.wr bank col r.a r.w shut)).setDramCell m r.a r.w
  else
    let s := s.retryPush m (.rd bank col r.a shut)
    let w := s.dramCell m r.a
    let (d, c) := eccRead w
    let s := { s with dramOut := (d, c = .poison || c = .bad) }
    let log (poison : Bool) : W72 := BitVec.ofNat 72 (b2n poison * 2 ^ 44 + (eccSyndrome w).toNat * 2 ^ 36 + r.dev)
    match c with
    | .good => s
    | .corrected =>
      let s := (s.count (Reg.mcCeCnt m) 1).fault (Reg.mcFault m) 1
      if s.rbit (Reg.mcCtrl m) 1 && !(s.mc m).queue.any fun x => !x.rd && decide (x.a = r.a) then
        s.setMc m { s.mc m with queue := (s.mc m).queue ++ [{ rd := false, a := r.a, dev := r.dev, w := eccStore d false, came := s.time.up, back := true }] }
      else s
    | .poison => ((s.setWreg (Reg.mcUeLog m) (log true)).count (Reg.mcPoisonCnt m) 1).fault (Reg.mcFault m) 4
    | .bad => ((s.setWreg (Reg.mcUeLog m) (log false)).count (Reg.mcUeCnt m) 1).fault (Reg.mcFault m) 2

/-- Serve one request: its row opens, its command is issued, and the row is left open or closed (R283, R285, R288). -/
def State.mcServeOne (s : State) (m : Nat) (r : McReq) : State :=
  let (_, bank, row, col) := s.dramRow m r.a
  let last := !(s.mc m).queue.any fun x => (s.dramRow m x.a).2.1 = bank ∧ (s.dramRow m x.a).2.2.1 = row
  let (ns, t) := s.rowOpen m bank row
  (t.mcCommand m bank col r (last && decide ((t.bank bank).h < 2))).rowClose m bank row last ns

/-- The MCLK cycles a request has waited: MCLK is a quarter of the data rate of the set in force (R273, R282). -/
def State.mcAge (s : State) (m : Nat) (r : McReq) : Nat :=
  let code := (nth (s.mc m).work (7 * s.fld (Reg.mcStatus m) 5 5) 0).toNat
  (s.time.up - r.came) * nth [1600, 1866, 2133, 2400, 2666, 2933, 3200] code 1600 / 400

/-- A queue may serve its entry i: its rank is not in self-refresh, and no older request waits for the same address. -/
def State.mcReady (s : State) (m : Nat) (q : List McReq) (i : Nat) (r : McReq) : Bool :=
  !bitOf (s.mc m).sr (s.dramRow m r.a).1 && !(q.take i).any fun x => decide (x.a = r.a)

/-- The place of the request a controller serves next: one that has waited AGE_LIMIT, else from the queue being served one to an open row,
else its oldest (R282). -/
def State.mcPick (s : State) (m : Nat) (writes : Bool) : Option Nat :=
  let q := (s.mc m).queue
  let ready := ((List.range q.length).zip q).filter fun p => s.mcReady m q p.1 p.2
  let old := ready.filter fun p => decide (s.fld (Reg.mcSched m) 31 16 ≤ s.mcAge m p.2)
  let side := ready.filter fun p => p.2.rd = !writes
  let near := side.filter fun p => (s.bank (s.dramRow m p.2.a).2.1).openRow = some (s.dramRow m p.2.a).2.2.1
  ((old ++ near ++ side ++ ready).map Prod.fst).head?

/-- Writes are served once WR_HIGH of them wait, until WR_LOW do; reads otherwise (R282). -/
def State.mcDrains (s : State) (m : Nat) : Bool :=
  let n := ((s.mc m).queue.filter fun r => !r.rd).length
  if (s.mc m).draining then decide (s.fld (Reg.mcSched m) 15 8 < n) else decide (s.fld (Reg.mcSched m) 7 0 ≤ n)

/-- Serve up to n requests of a channel in the controller's order, unless they wait (R282). -/
def State.mcServe (m : Nat) : Nat → State → State
  | 0, s => s
  | n + 1, s =>
    if s.mcWaits m || decide ((s.mc m).queue = []) then s
    else
      let w := s.mcDrains m
      match s.mcPick m w with
      | none => s
      | some i =>
        let x := s.mc m
        let s := s.setMc m { x with queue := x.queue.eraseIdx i, draining := w }
        State.mcServe m n (s.mcServeOne m (nth x.queue i ⟨false, 0, 0, 0, 0, false⟩))

/-- Serve every request of a channel that can be, write-backs among them (R277, R282). -/
def State.mcDrain (s : State) (m : Nat) : State := State.mcServe m (2 * (s.mc m).queue.length) s

/-- A request reaches a channel: it is served, or joins the queue where it waits (R282, R293, R296). -/
def State.mcRequest (s : State) (m : Nat) (r : McReq) : State :=
  if s.mcHeld m r.a then s.setMc m { s.mc m with queue := (s.mc m).queue ++ [r] } else (s.mcServeOne m r).mcDrain m

/-- The newest write queued for a local address (R282). -/
def State.mcForward (s : State) (m a : Nat) : Option (BitVec 80) :=
  (((s.mc m).queue.filter fun r => !r.rd && decide (r.a = a)).getLast?).map McReq.w

/-- A read of a device address: the word delivered and whether it is tagged poisoned, with what the controller counts, logs and
writes back. A word with a queued write is answered from the queue; one that waits is answered as it will be served (R275, R277, R281,
R282, R286; DEDUCED, log entry 93). -/
def State.dramRead (s : State) (a : Nat) : (W72 × Bool) × State :=
  if s.dramWords ≤ a then ((0, true), s.fault (Reg.mcFault 0) (2 ^ 7))
  else
    let (m, l) := s.dramMap a
    if s.mcFailed m then ((0, true), s)
    else
      let give (w : BitVec 80) : W72 × Bool := ((eccRead w).1, (eccRead w).2 = .poison || (eccRead w).2 = .bad)
      match s.mcForward m l with
      | some w => (give w, s)
      | none => (give (s.dramCell m l), s.mcRequest m { rd := true, a := l, dev := a, came := s.time.up })

/-- A write of a device address, tagged poisoned or not; it cancels a write-back of the word that waits (R276, R277, R281, R286). -/
def State.dramWrite (s : State) (a : Nat) (v : W72) (poison : Bool) : State :=
  if s.dramWords ≤ a then s.fault (Reg.mcFault 0) (2 ^ 7)
  else
    let (m, l) := s.dramMap a
    if s.mcFailed m then s
    else
      let x := s.mc m
      let s := if x.queue = [] then s else s.setMc m { x with queue := x.queue.filter fun r => !(r.back && decide (r.a = l)) }
      s.mcRequest m { rd := false, a := l, dev := a, w := eccStore v poison, came := s.time.up }

/-- Write words at consecutive device addresses. -/
def State.dramWriteMany : List W72 → Nat → State → State
  | [], _, s => s
  | v :: r, a, s => State.dramWriteMany r (a + 1) (s.dramWrite a v false)

/-- Read n words at consecutive device addresses, each with its poisoned tag. -/
def State.dramReadMany : Nat → Nat → State → List (W72 × Bool) × State
  | 0, _, s => ([], s)
  | n + 1, a, s =>
    let (w, s) := s.dramRead a
    let (ws, s) := State.dramReadMany n (a + 1) s
    (w :: ws, s)

/-! ## The commands of the controllers -/

/-- DRAM_READ (R275): bits of the stored word may have flipped; the delivered word and its tag are kept, by the service of the read where it
waits. -/
def execDramRead (a : Nat) (flip : BitVec 80) (s : State) : Host.Outcome State Fault Refusal :=
  if s.shut then .next s
  else
    let m := s.dramMap a
    let s := if a < s.dramWords then s.setDramCell m.1 m.2 (s.dramCell m.1 m.2 ^^^ flip) else s
    let waits := decide (a < s.dramWords) && !s.mcFailed m.1 && (s.mcForward m.1 m.2).isNone && s.mcHeld m.1 m.2
    let (w, t) := s.dramRead a
    .next (if waits then t else { t with dramOut := w })

/-- DRAM_WRITE (R276). -/
def execDramWrite (a : Nat) (v : W72) (poison : Bool) (s : State) : Host.Outcome State Fault Refusal :=
  if s.shut then .next s else .next (s.dramWrite a v poison)

/-- The controller issues nothing: an alert stands, or the recovery from one (R285). -/
def State.mcStill (s : State) (m : Nat) : Bool := (s.mc m).alert || (s.mc m).waiting

/-- ROW_TIMEOUT (R283): a row left open is closed, which changes no history; not while an alert or its recovery stands (R285). -/
def execRowTimeout (m : Mc) (bank : Nat) (s : State) : Host.Outcome State Fault Refusal :=
  let k := 64 * m.val + bank % 32
  match (s.bank k).row with
  | .left _ => .next (if s.mcStill m then s else (s.retryPush m (.pre k)).setBank k { s.bank k with row := .idle })
  | _ => .next s

/-- The banks of a rank. -/
def rankBanks (m rank : Nat) : List Nat := (List.range 16).map (64 * m + 16 * rank + ·)

/-- The open rows of a rank are closed without touching the histories; what the predictor closed stays so (R283). -/
def State.closeRank (s : State) (m rank : Nat) : State :=
  forEach (rankBanks m rank) (fun k t => if (t.bank k).openRow.isSome then t.setBank k { t.bank k with row := .idle } else t) s

/-- PREA to a rank (R285, R295). -/
def State.precharge (s : State) (m rank : Nat) : State := (s.retryPush m (.prea rank)).closeRank m rank

/-- Issue n REF commands to a rank, its open rows closed first. -/
def State.refreshes (s : State) (m rank n : Nat) : State :=
  let s := if (rankBanks m rank).any fun k => (s.bank k).openRow.isSome then s.precharge m rank else s
  forEach (List.range n) (fun _ t => t.retryPush m (.ref rank)) s

/-- The refreshes a rank is owed are n. -/
def State.owe (s : State) (m rank n : Nat) : State := s.setMc m { s.mc m with postponed := setNth (s.mc m).postponed rank n }

/-- REFRESH_DUE (R287): with requests queued up to 8 refreshes are postponed; otherwise the one due and those owed are issued. While an alert
keeps the controller from issuing, one that is due stays owed, a ninth too (R285). A rank in self-refresh refreshes itself. -/
def execRefreshDue (m : Mc) (rank : Bool) (queued : Bool) (s : State) : Host.Outcome State Fault Refusal :=
  let r := b2n rank
  let owed := nth (s.mc m).postponed r 0
  .next (if s.fld (Reg.mcGeom m) 1 0 ≤ r || bitOf (s.mc m).sr r then s
    else if s.mcStill m || queued && decide (owed < 8) then s.owe m r (owed + 1)
    else if queued then s.refreshes m r 1
    else (s.refreshes m r (owed + 1)).owe m r 0)

/-- The refreshes of a rank that may not be postponed any longer are issued (R287). -/
def State.refreshOverdue (s : State) (m rank : Nat) : State :=
  let owed := nth (s.mc m).postponed rank 0
  if 8 < owed then (s.refreshes m rank (owed - 8)).owe m rank 8 else s

/-- RETRY_RETIRE (R285): the oldest command retires, which ends a run of replays. -/
def execRetryRetire (m : Mc) (s : State) : Host.Outcome State Fault Refusal :=
  if (s.mc m).retry = [] ∨ (s.mc m).alert ∨ (s.mc m).waiting then .next s
  else .next (s.setMc m { s.mc m with retry := (s.mc m).retry.drop 1, replays := 0 })

/-- ALERT_N_FALL (R285): the controller stops issuing. -/
def execAlertNFall (m : Mc) (s : State) : Host.Outcome State Fault Refusal :=
  if s.shut then .next s else .next ((s.setMc m { s.mc m with alert := true }).setRbit (Reg.mcStatus m) 16 true)

/-- ALERT_N_RISE (R285): a low of up to 24 tCK is a write CRC error, a longer one a CA parity error; the recovery wait starts. -/
def execAlertNRise (m : Mc) (tck : Nat) (s : State) : Host.Outcome State Fault Refusal :=
  if !(s.mc m).alert then .next s
  else
    let s := (s.setMc m { s.mc m with alert := false, waiting := true }).setRbit (Reg.mcStatus m) 16 false
    if tck ≤ 24 then .next ((s.count (Reg.mcCrcCnt m) 1).fault (Reg.mcFault m) (2 ^ 4))
    else .next ((s.count (Reg.mcParCnt m) 1).fault (Reg.mcFault m) (2 ^ 3))

/-- A replayed access with auto-precharge closes its row again (R283, R285). -/
def State.replayShut (s : State) (bank : Nat) (shut : Bool) : State :=
  match shut, (s.bank bank).openRow with
  | true, some row => s.setBank bank { s.bank bank with row := .predicted row }
  | _, _ => s

/-- The effect of one replayed command; a replayed read gives its data again (R285). -/
def State.replayOne (s : State) (m : Nat) : RetryCmd → State
  | .act bank row => s.setBank bank { s.bank bank with row := .left row }
  | .pre bank => s.setBank bank { s.bank bank with row := .idle }
  | .prea rank => s.closeRank m rank
  | .rd bank _ a shut =>
    let (d, c) := eccRead (s.dramCell m a)
    State.replayShut { s with dramOut := (d, c = .poison || c = .bad) } bank shut
  | .wr bank _ a w shut => (s.setDramCell m a w).replayShut bank shut
  | .ref _ => s

/-- The channel fails: FAILED and CA_FATAL set and EN reads 0; a read that waits delivers a poisoned word, a write that waits is discarded
(R286). -/
def State.mcFail (s : State) (m : Nat) : State :=
  let s := if (s.mc m).queue.any McReq.rd then { s with dramOut := (0, true) } else s
  let s := s.setMc m { s.mc m with queue := [] }
  ((s.setRbit (Reg.mcStatus m) 6 true).setRbit (Reg.mcCtrl m) 0 false).fault (Reg.mcFault m) (2 ^ 5)

/-! ### Training -/

/-- Copy the shadow timing sets to the working copies: the hand-over of every SRE (R291). -/
def State.tsetHandOver (s : State) (m : Nat) : State :=
  let sets := [0, 1].flatMap (fun n => (List.range 7).map (fun r => s.reg (Reg.mcTsetRate m n + 4 * r)))
  s.setMc m { s.mc m with work := sets }

/-- TRAIN_STAT of an outcome (R289, R297): the failing lanes, rank and step, or PASS. -/
def trainStat (f : Option (Bool × Fin 5 × BitVec 10)) : W32 :=
  match f with
  | none => BitVec.ofNat 32 (2 ^ 8)
  | some (rank, step, lanes) => BitVec.ofNat 32 (lanes.toNat * 2 ^ 16 + b2n rank * 2 ^ 4 + (step.val + 2))

/-- Set the result registers a training run found, in the bits of a mask. -/
def State.trainStore (s : State) (m : Nat) (mask : W32) (rs : List (Nat × W32)) : State :=
  rs.foldl (fun t (r : Nat × W32) =>
    if 0x400 ≤ r.1 ∧ r.1 < 0x4A0 ∧ r.1 % 4 = 0 then
      let a := 0x800000 + 0x10000 * m + r.1
      let mask := mask &&& (if r.1 % 8 = 0 then 0x03FF03FF else 0x007FFFFF)
      t.setReg a ((t.reg a &&& ~~~mask) ||| (r.2 &&& mask)) else t) s

/-- The local address of word i of the last row of bank group 3, bank 3 of a rank (R280, R289). -/
def State.lastRowWord (s : State) (m rank i : Nat) : Nat :=
  let dense := s.rbit (Reg.mcGeom m) 4
  rank * (if dense then 2 ^ 31 else 2 ^ 30) + ((if dense then 2 ^ 17 else 2 ^ 16) - 1) * 2 ^ 14 + i / 8 * 32 + i % 8

/-- Step WD ends on a rank: its last row is written back with correct check bits; a word that carries poison, or cannot be corrected, is
poisoned (R276, R289, DEDUCED, log entry 93). -/
def State.rowRestored (s : State) (m rank : Nat) : State :=
  forEach (List.range 1024) (fun i t =>
    let a := t.lastRowWord m rank i
    let (d, c) := eccRead (t.dramCell m a)
    t.setDramCell m a (eccStore d (c = .poison || c = .bad))) s

/-- The ranks on which step WD has run when a training run ends (R289). -/
def State.ranksWritten (s : State) (m : Nat) (f : Option (Bool × Fin 5 × BitVec 10)) : Nat :=
  match f with
  | none => s.fld (Reg.mcGeom m) 1 0
  | some (rank, step, _) => b2n rank + if step = 4 then 1 else 0

/-- A training run may end so: the rank that failed is present. -/
def State.trainFits (s : State) (m : Nat) (r : TrainResult) : Bool :=
  match r.fail with
  | none => true
  | some (rank, _, _) => decide (b2n rank < s.fld (Reg.mcGeom m) 1 0)

/-- A training run ends: it passes, or stops at its failing step with the results in force kept. The histories return to 2 either way (R283,
R289, R290). -/
def State.trainEnd (s : State) (m : Nat) (r : TrainResult) : State :=
  let s := (s.setReg (Reg.mcTrainStat m) (trainStat r.fail)).setRbit (Reg.mcStatus m) 1 false
  let s := forEach (List.range (s.ranksWritten m r.fail)) (fun k t => t.rowRestored m k) s
  let s := forEach (List.range 32) (fun i t => t.setBank (64 * m + i) {}) s
  match r.fail with
  | none =>
    let s := s.trainStore m 0xFFFFFFFF r.results
    s.setMc m { s.mc m with trained := true }
  | some _ => s.fault (Reg.mcFault m) (2 ^ 6)

/-- Training starts, every rank out of self-refresh (R289). -/
def State.trainStart (s : State) (m : Nat) : State := (s.setMc m { s.mc m with sr := 0, byGo := false }).setRbit (Reg.mcStatus m) 1 true

/-- A change of timing set starts: what is queued is served, every rank leaving self-refresh, the banks are precharged, and new requests wait
(R293). While an alert or its recovery stands, it waits (R285). -/
def State.freqStart (s : State) (m n : Nat) : State :=
  if s.mcStill m then (s.setMc m { s.mc m with target := n, wants := true }).setRbit (Reg.mcStatus m) 4 false else
  let s := ((s.setMc m { s.mc m with sr := 0 }).setRbit (Reg.mcStatus m) 4 false).mcDrain m
  let s := forEach (List.range (s.fld (Reg.mcGeom m) 1 0)) (fun k t => t.precharge m k) s
  s.setMc m { s.mc m with target := n, changing := true, wants := false, inSre := false, locked := false }

/-- A full training is turned away while one or a change runs (R297). -/
def State.trainBusy (s : State) (m : Nat) : Bool := s.rbit (Reg.mcStatus m) 1 || (s.mc m).changing

/-- A request for a change is turned away while one is pending or runs (R292). -/
def State.freqBusy (s : State) (m : Nat) : Bool := s.rbit (Reg.mcStatus m) 4 || s.rbit (Reg.mcStatus m) 3

/-- Write 1 to TRAIN_CTRL.GO (R289, R297). -/
def State.trainGo (s : State) (m : Nat) (q : Req) : State :=
  if s.trainBusy m then s.err (0x800000 + 0x10000 * m) .busy 0x2C q
  else
    let t := s.trainStart m
    t.setMc m { t.mc m with byGo := true }

/-- TRAIN_GO (R289). -/
def execTrainGo (q : Req) (m : Mc) (s : State) : Host.Outcome State Fault Refusal := .next (if s.shut then s else s.trainGo m q)

/-- Training ends (R286, R290, R292): a pass starts a pending change, and clears FAILED where TRAIN_CTRL.GO had asked for it; a failure rejects
the change. What waited is served. -/
def State.trainOver (s : State) (m : Nat) (r : TrainResult) : State :=
  let t := s.trainEnd m r
  let pend := t.rbit (Reg.mcStatus m) 4
  match r.fail with
  | none =>
    let t := if (t.mc m).byGo then (t.setRbit (Reg.mcStatus m) 6 false).setMc m { t.mc m with replays := 0 } else t
    if pend then t.freqStart m (t.mc m).target else t.mcDrain m
  | some _ => (if pend then (t.setRbit (Reg.mcStatus m) 4 false).setFld (Reg.mcFreqStat m) 1 0 2 else t).mcDrain m

/-- A periodic training may run and end so (R290): steps ZQ and RG repeat while PERIODIC is 1, on a channel that is present and neither trains, changes nor has
failed; only RG can fail. -/
def State.periodicMay (s : State) (m : Nat) (r : TrainResult) : Bool :=
  s.rbit (Reg.mcTrainCtrl m) 8 && decide (s.fld (Reg.mcGeom m) 1 0 ≠ 0) && !s.trainBusy m && !s.mcFailed m && !s.mcStill m &&
    (match r.fail with | none => true | some (_, k, _) => decide (k = 1)) && s.trainFits m r

/-- A periodic training ends: RG gives the read-gate delays, or fails (R290). -/
def State.periodicEnd (s : State) (m : Nat) (r : TrainResult) : State :=
  let s := s.setReg (Reg.mcTrainStat m) (trainStat r.fail)
  match r.fail with
  | none => s.trainStore m 0x03FF0000 (r.results.filter fun x => decide (x.1 % 8 = 0))
  | some _ => s.fault (Reg.mcFault m) (2 ^ 6)

/-! ### Frequency change -/

/-- Write 1 to FREQ_CTRL.GO (R292): behind a training the request waits, for the set it names. -/
def State.freqGo (s : State) (m n : Nat) (q : Req) : State :=
  if s.freqBusy m then s.err (0x800000 + 0x10000 * m) .busy 0x24 q
  else if n = s.fld (Reg.mcStatus m) 5 5 then s.err (0x800000 + 0x10000 * m) .range 0x24 q
  else if s.rbit (Reg.mcStatus m) 1 then (s.setMc m { s.mc m with target := n }).setRbit (Reg.mcStatus m) 4 true
  else s.freqStart m n

/-- FREQ_GO (R292). -/
def execFreqGo (q : Req) (m : Mc) (s : State) : Host.Outcome State Fault Refusal :=
  .next (if s.shut then s else s.freqGo m (s.fld (Reg.mcFreqCtrl m) 4 4) q)

/-- Whether a write that leaves v in an MC register meets a field that training made, of the set in force (R291). -/
def State.tsetFixed (s : State) (m off : Nat) (v : W32) : Bool :=
  let act := 0x100 + 0x40 * s.fld (Reg.mcStatus m) 5 5
  off == act || (off == act + 4 && decide ((v ^^^ s.reg (0x800000 + 0x10000 * m + off)) &&& 0x00731F1F ≠ 0))

/-- A TSET write in the cycle of an SRE stays in the shadow for the next hand-over, and LATE_SHADOW sets (R49, R291). -/
def State.tsetLate (s : State) (m : Nat) : Option TsetWrite → State
  | none => s
  | some x =>
    let off := 0x100 + 0x40 * x.n.val + 4 * x.r.val
    match Blk.mc.row off with
    | none => s
    | some (r, _, _) =>
      s.lateWrite (0x800000 + 0x10000 * m) off r (fun v => if s.tsetFixed m off v then some .busy else none) x.q x.v
        (fun t => t.fault (Reg.mcFault m) (2 ^ 8))

/-- SRE to a rank: it enters self-refresh and SR_CNT counts (R295). -/
def State.rankSre (s : State) (m rank : Nat) : State :=
  (s.setMc m { s.mc m with sr := withBit (s.mc m).sr rank true }).count (Reg.mcSrCnt m) 1

/-- A rank enters self-refresh: PREA, then SRE with the hand-over (R291, R295). -/
def State.enterSr (s : State) (m rank : Nat) : State := ((s.precharge m rank).tsetHandOver m).rankSre m rank

/-- CA_REPLAY (R285, R286): every rank is precharged, every unretired command replayed, refreshes that may wait no longer issued, and requests
go on; a change that was asked for meanwhile starts. A third replay in a row that an alert cuts short fails the channel. -/
def execCaReplay (m : Mc) (s : State) : Host.Outcome State Fault Refusal :=
  if !(s.mc m).waiting then .next s
  else if 3 ≤ (s.mc m).replays then .next ((s.setMc m { s.mc m with waiting := false, retry := [], wants := false }).mcFail m)
  else
    let s := (s.closeRank m 0).closeRank m 1
    let s := (s.mc m).retry.foldl (fun t c => t.replayOne m c) s
    let s := (s.setMc m { s.mc m with waiting := false, replays := (s.mc m).replays + 1 }).count (Reg.mcReplayCnt m) 1
    let s := ((s.refreshOverdue m 0).refreshOverdue m 1).mcDrain m
    .next (if (s.mc m).wants then s.freqStart m (s.mc m).target else s)

/-- FREQ_CHANGE_SRE (R293): SRE goes to every rank, the shadow sets are handed over and the memory clock stops. -/
def execFreqChangeSre (e : McEdge) (s : State) : Host.Outcome State Fault Refusal :=
  let m := e.mc.val
  if !(s.mc m).changing ∨ (s.mc m).inSre ∨ s.mcStill m then .next s
  else
    let s := (s.tsetHandOver m).setRbit (Reg.mcStatus m) 3 true
    let s := forEach (List.range (s.fld (Reg.mcGeom m) 1 0)) (fun k t => t.rankSre m k) s
    .next ((s.setMc m { s.mc m with inSre := true, locked := false, retry := [] }).tsetLate m e.late)

/-- MEM_PLL_RELOCK (R293): SRX is issued with the new set in force and training starts. -/
def execMemPllRelock (m : Mc) (s : State) : Host.Outcome State Fault Refusal :=
  if !(s.mc m).inSre ∨ (s.mc m).locked then .next s
  else
    let s := s.setMc m { s.mc m with locked := true }
    .next ((s.setFld (Reg.mcStatus m) 5 5 (s.mc m).target).trainStart m)

/-- A change is over: FREQ_BUSY falls and FREQ_STAT takes the result (R293, R294). -/
def State.freqOver (s : State) (m code : Nat) : State :=
  let s := (s.setRbit (Reg.mcStatus m) 3 false).setFld (Reg.mcFreqStat m) 1 0 code
  s.setMc m { s.mc m with changing := false, inSre := false, locked := false }

/-- FREQ_CHANGE_DONE (R293): training at the new rate passes and held requests resume. -/
def execFreqChangeDone (m : Mc) (r : TrainResult) (s : State) : Host.Outcome State Fault Refusal :=
  if !(s.mc m).locked ∨ r.fail ≠ none then .next s
  else .next (((s.trainEnd m r).freqOver m 1).mcDrain m)

/-- A change of timing set is undone (R294): a second SRE brings the old set back, whose training results were kept; step RG at the old rate
gives the read-gate delays, or fails the channel. -/
def State.freqReturn (s : State) (m : Nat) (late : Option TsetWrite) (rgOk : Bool) (r : TrainResult) : State :=
  let s := s.trainEnd m r
  let s := forEach (List.range (s.fld (Reg.mcGeom m) 1 0)) (fun k t => t.precharge m k) s
  let s := forEach (List.range (s.fld (Reg.mcGeom m) 1 0)) (fun k t => t.rankSre m k) (s.tsetHandOver m)
  let s := ((s.setFld (Reg.mcStatus m) 5 5 (1 - (s.mc m).target)).freqOver m 2).tsetLate m late
  let s := s.setMc m { s.mc m with sr := 0 }
  if rgOk then (s.trainStore m 0x03FF0000 (r.results.filter fun x => decide (x.1 % 8 = 0))).mcDrain m else s.mcFail m

/-! ### Self-refresh -/

/-- IDLE_SELF_REFRESH (R285, R295, R296): a rank for which no request waits enters self-refresh, unless an alert stands; a request that arrives before SRE ends the entry with its
PREA standing. -/
def execIdleSelfRefresh (e : McEdge) (k : RankRest) (s : State) : Host.Outcome State Fault Refusal :=
  let m := e.mc.val
  let rank := b2n k.rank
  let asked := (s.mc m).queue.any fun r => decide ((s.dramRow m r.a).1 = rank)
  if s.rbit (Reg.mcSrCfg m) 0 ∧ rank < s.fld (Reg.mcGeom m) 1 0 ∧ ¬bitOf (s.mc m).sr rank ∧ ¬s.trainBusy m ∧ ¬s.mcStill m ∧ ¬asked then
    .next (if k.arrived then s.precharge m rank else (s.enterSr m rank).tsetLate m e.late)
  else .next s

/-- SELF_REFRESH_EXIT (R296): a rank for which a request waits leaves self-refresh, and the request is served. -/
def execSelfRefreshExit (m : Mc) (rank : Bool) (s : State) : Host.Outcome State Fault Refusal :=
  let wanted := (s.mc m).queue.any fun r => decide ((s.dramRow m r.a).1 = b2n rank)
  if wanted && !(s.mc m).changing then .next ((s.setMc m { s.mc m with sr := withBit (s.mc m).sr (b2n rank) false }).mcDrain m)
  else .next s

/-! ### Writes of the MC registers -/

/-- Whether a write that leaves a value in an MC register is refused, beyond the ranges of its fields (R278, R282, R288, R291, R297). -/
def mcCheck (s : State) (m off : Nat) (v : W32) : Option Cause :=
  let other := 1 - m
  match off with
  | 0x0 =>
    if bitOf v 0 then
      if s.fld (Reg.mcGeom m) 1 0 = 0 then some .range
      else if s.rbit (Reg.mcStatus m) 1 ∧ ¬s.rbit (Reg.mcCtrl m) 0 then some .busy else none
    else none
  | 0x8 =>
    if s.rbit (Reg.mcCtrl 0) 0 ∨ s.rbit (Reg.mcCtrl 1) 0 then some .busy
    else if bitOf v 8 ∧ m = 0 ∧ (field v 1 0 = 0 ∨ field v 4 0 ≠ s.fld (Reg.mcGeom other) 4 0) then some .range
    else none
  | 0x10 => if field v 7 0 ≤ field v 15 8 then some .range else none
  | 0x1C => if v = 0 then some .range else none
  | 0x100 | 0x104 | 0x140 | 0x144 => if s.tsetFixed m off v then some .busy else none
  | _ => none

/-- What STATUS and CAPACITY of a controller read (R278, R297). -/
def mcLive (s : State) (m off : Nat) : W32 :=
  match off with
  | 0x4 =>
    let st := withBit (s.reg (Reg.mcStatus m)) 2 (decide ((s.mc m).sr ≠ 0))
    withBit st 0 (s.rbit (Reg.mcCtrl m) 0 && (s.mc m).trained && !s.mcFailed m)
  | 0xC => BitVec.ofNat 32 (s.mcCapacity m / 2 ^ 20)
  | _ => s.reg (0x800000 + 0x10000 * m + off)

end Sys2Proof.Machine
end

