-- ==== Sys2Proof/Machine/Trig.lean ====
section
/-!
DEFINITION. The functions the spec defines as the integer nearest to a real value: the cosine and sine tables (R56), the windows
(R56), the skew and interpolator taps (R79, R133), ang and mag (R148) and lnq (R172). Each is computed in fixed point with
prec fraction bits, far more than any of the integers asked for needs (DESIGN CHOICE, log entry 11).
-/
namespace Sys2Proof.Machine

/-- The fraction bits of the fixed-point values below. -/
def prec : Nat := 200

/-- One in fixed point. -/
def fxOne : Int := 2 ^ prec

/-- The product of two fixed-point values. -/
def fxMul (a b : Int) : Int := a * b / 2 ^ prec

/-- Pi in fixed point, by Machin's formula from the arc tangents of 1/5 and 1/239. -/
def fxAtanInv (x : Int) : Nat → Int → Int → Int
  | 0, _, _ => 0
  | n + 1, p, k => p / k + fxAtanInv x n (-(p / (x * x))) (k + 2)

/-- Pi in fixed point. -/
def fxPi : Int := 16 * fxAtanInv 5 60 (fxOne / 5) 1 - 4 * fxAtanInv 239 20 (fxOne / 239) 1

/-- The alternating series of x with terms t, t x² / ((k + 1)(k + 2)), ... -/
def fxSeries (x2 : Int) : Nat → Int → Nat → Int
  | 0, _, _ => 0
  | n + 1, t, k => t + fxSeries x2 n (-(fxMul t x2 / ((k + 1) * (k + 2)))) (k + 2)

/-- Cosine of a fixed-point angle of magnitude up to pi / 4. -/
def fxCosSmall (a : Int) : Int := fxSeries (fxMul a a) 30 fxOne 0

/-- Sine of a fixed-point angle of magnitude up to pi / 4. -/
def fxSinSmall (a : Int) : Int := fxSeries (fxMul a a) 30 a 1

/-- Cosine of n / d of a turn for n / d from 0 to 1/4. -/
def fxCosQuarter (n d : Nat) : Int :=
  if 8 * n ≤ d then fxCosSmall (2 * fxPi * n / d)
  else fxSinSmall (2 * fxPi * (d - 4 * n) / (4 * d))

/-- Cosine of n / d of a turn. -/
def fxCos (n d : Nat) : Int :=
  let n := n % d
  let n := if d < 2 * n then d - n else n
  if 4 * n ≤ d then fxCosQuarter n d else -(fxCosQuarter (d - 2 * n) (2 * d))

/-- Sine of n / d of a turn. -/
def fxSin (n d : Nat) : Int := fxCos (4 * n + 3 * d) (4 * d)

/-- The integer nearest to a fixed-point value. -/
def fxNearest (a : Int) : Int := (a + fxOne / 2) / 2 ^ prec

/-- cos_tab (R56). -/
def cosTab (j : Nat) : Int := fxNearest (131071 * fxCos j 65536)

/-- sin_tab (R56). -/
def sinTab (j : Nat) : Int := fxNearest (131071 * fxSin j 65536)

/-- The taper of the Tukey windows at sample m of t (R56). -/
def taper (m t : Nat) : Int := if m < t then fxNearest (32768 * (fxOne - fxCos m (2 * t))) else 65536

/-- win(n) of a window code and length (R56). -/
def window (code len n : Nat) : Int :=
  let m := min n (len - 1 - n)
  match code with
  | 0 => 65536
  | 1 => taper m (len / 20)
  | 2 => taper m (len / 8)
  | _ => if len ≤ 1 then 65536 else fxNearest (32768 * (fxOne - fxCos n (len - 1)))

/-- The raw tap of t = (m − 3) − f / p as an integer (R79, R133). -/
def tapRaw (p f m : Nat) : Int :=
  let num : Int := p * ((m : Int) - 3) - f
  let a := num.natAbs
  if a = 0 then 32768
  else
    let sinc := fxSin a (2 * p) * 2 ^ prec / (fxPi * a / p)
    let w := (42 * fxOne + 50 * fxCos a (8 * p) + 8 * fxCos a (4 * p)) / 100
    fxNearest (32768 * fxMul sinc w)

/-- The taps of phase f of p, the balancing tap making them sum to 32,768 (R79, R133). -/
def taps (p f : Nat) : List Int :=
  let raw := (List.range 8).map (tapRaw p f)
  let b := if 2 * f < p then 3 else 4
  let rest := sumInt raw - raw.getD b 0
  raw.set b (32768 - rest)

/-- Whether the angle of (x, y), y ≥ 0, is more than n / 131072 of a turn, n up to 65536. -/
def angleOver (x y : Int) (n : Nat) : Bool :=
  decide (0 < y * fxCos n 131072 - x * fxSin n 131072)

/-- The largest j below the angle of (x, y) by steps of 2^n pu, y ≥ 0. -/
def angGo (x y : Int) : Nat → Nat → Nat
  | 0, j => j
  | n + 1, j => if j + 2 ^ n ≤ 32768 ∧ angleOver x y (2 * (j + 2 ^ n) - 1) then angGo x y n (j + 2 ^ n) else angGo x y n j

/-- ang(x, y) (R148). -/
def ang (x y : Int) : Int :=
  if x = 0 ∧ y = 0 then 0
  else
    let j : Int := if y = 0 then (if 0 < x then 0 else 32768) else angGo x y.natAbs 16 0
    let r := if y < 0 then -j else j
    if r = 32768 then -32768 else r

/-- mag(x, y) (R148). -/
def mag (x y : Int) : Int := isqrt (x * x + y * y).natAbs

/-- The series of the inverse hyperbolic tangent of z, terms from power k. -/
def fxAtanh (z2 : Int) : Nat → Int → Int → Int
  | 0, _, _ => 0
  | n + 1, p, k => p / k + fxAtanh z2 n (fxMul p z2) (k + 2)

/-- The natural logarithm of a / b in fixed point, for a / b from 1 to 2. -/
def fxLnSmall (a b : Nat) : Int :=
  let z : Int := ((a : Int) - b) * 2 ^ prec / (a + b)
  2 * fxAtanh (fxMul z z) 64 z 1

/-- The natural logarithm of an integer from 1 upwards, in fixed point. -/
def fxLn (x : Nat) : Int :=
  let k := x.log2
  fxLnSmall x (2 ^ k) + k * fxLnSmall 2 1

/-- lnq(x), for x from 1 upwards (R172). -/
def lnq (x : Nat) : Int := fxNearest (2 ^ 24 * fxLn x)

end Sys2Proof.Machine
end

