-- ==== Sys2Proof/Machine/Heads.lean ====
section
/-!
DEFINITION. Optical heads, probe synthesis and optical safety (R50 to R73): the interlock, the probe sets and their rules, the
chirp synthesiser, the probe generator, the launch supervisor and the temperature derating.
-/
namespace Sys2Proof.Machine

/-- The block base of head h. -/
def headBase (h : Nat) : Nat := 0x100000 + 0x10000 * h

/-! ## The interlock -/

/-- Qualified HEADOK of head h (R69). -/
def State.headokBit (s : State) (h : Nat) : Bool := s.rbit Reg.sysOptInterlock (8 + h)

/-- LASEN(h): ARM, HEADOK, LASER_REQ and not TRIP (R70). -/
def State.lasen (s : State) (h : Nat) : Bool :=
  s.rbit Reg.sysOptInterlock h && s.headokBit h && s.rbit (Reg.headCtrl h) 1 && !s.rbit Reg.sysOptInterlock (16 + h)

/-- OPT_INTERLOCK as read, with the live LASEN bits (R70). -/
def State.optInterlock (s : State) : W32 :=
  (List.range 4).foldl (fun v h => withBit v (24 + h) (s.lasen h)) (s.reg Reg.sysOptInterlock)

/-- The probe generator of head h runs: RUN is in force and the scheduler runs (R93). -/
def State.headRunning (s : State) (h : Nat) : Bool := s.rbit (Reg.headStatus h) 0 && (s.sched h).started

/-- STATUS of head h as read (R73): the stored bits with RUNNING, SETTLE, HEADOK and LASEN live. -/
def State.headStatus (s : State) (h : Nat) : W32 :=
  let v := withBit (s.reg (Reg.headStatus h)) 0 (s.headRunning h)
  let v := (List.range 8).foldl (fun v j => withBit v (16 + j) (decide (nth (s.head h).settle j 0 ≠ 0))) v
  withBit (withBit v 2 (s.headokBit h)) 1 (s.lasen h)

/-- Light may leave a head: LASEN is high, reset is over, and neither minimal mode nor the end of the device's life keeps it dark (R51,
R437, R443). -/
def State.lit (s : State) (h : Nat) : Bool := s.lasen h && !s.noProbe

/-- Where LASEN of a head is low, its gates close and its DACs go to code 0 (R51, R66). -/
def State.darken (s : State) (h : Nat) : State :=
  let x := s.head h
  if !s.lasen h && (x.playing || decide (x.gates ≠ 0)) then
    (s.setHead h { x with gates := 0, playing := false }).emit (.dark h)
  else s

/-- The qualified HEADOK of a head falls: its bit clears, and TRIP sets where ARM is 1 (R69, R70). The gates, the laser enable
and the DACs go off with it (R68). -/
def State.headokFallen (s : State) (h : Nat) : State :=
  let trip := s.headokBit h && s.rbit Reg.sysOptInterlock h
  let s := s.setHead h { s.head h with headok := false, qualifying := false }
  let s := (s.setRbit Reg.sysOptInterlock (8 + h) false).darken h
  if trip then (s.setRbit Reg.sysOptInterlock (16 + h) true).fault (Reg.headFault h) 1 else s

/-- HEADOK_RISE (R69): the filtered input rises and the qualification count starts. -/
def execHeadokRise (h : Head) (s : State) : Host.Outcome State Fault Refusal :=
  .next (s.setHead h { s.head h with headok := true, qualifying := true })

/-- HEADOK_QUALIFIED (R69): the qualified bit rises where the input has stayed high. -/
def execHeadokQualified (h : Head) (s : State) : Host.Outcome State Fault Refusal :=
  if (s.head h).headok && (s.head h).qualifying then
    .next ((s.setHead h { s.head h with qualifying := false }).setRbit Reg.sysOptInterlock (8 + h.val) true)
  else .next s

/-- Write ARM bit h; 0 clears TRIP while HEADOK is 1 (R71). -/
def State.armWrite (s : State) (h : Nat) (v : Bool) : State :=
  let t := (s.setRbit Reg.sysOptInterlock h v).darken h
  if !v && s.headokBit h then t.setRbit Reg.sysOptInterlock (16 + h) false else t

/-- ARM_WRITE (R71, R443). -/
def execArmWrite (_q : Req) (h : Head) (v : Bool) (s : State) : Host.Outcome State Fault Refusal :=
  .next (if s.shut then s else s.armWrite h v)

/-! ## Probe memory -/

/-- The key of word w of a bank (R55). -/
def probeKey (h bank w : Nat) : Nat := 16384 * h + 8192 * (bank % 2) + w % 8192

/-- Sample n of a bank: I and Q, signed Q1.17 (R54). -/
def State.probeSample (s : State) (h bank n : Nat) : Int × Int :=
  let w := s.probe.get 0 (probeKey h bank (n / 2))
  if n % 2 = 0 then (fieldS w 35 18, fieldS w 17 0) else (fieldS w 71 54, fieldS w 53 36)

/-- Set sample n of a bank. -/
def State.setProbeSample (s : State) (h bank n : Nat) (i q : Int) : State :=
  let k := probeKey h bank (n / 2)
  let w := s.probe.get 0 k
  let x := (i % 2 ^ 18).toNat * 2 ^ 18 + (q % 2 ^ 18).toNat
  let w := if n % 2 = 0 then withField w 35 0 x else withField w 71 36 x
  { s with probe := s.probe.set 0 k w }

/-- A write of a probe-memory word, refused with cause BUSY in the active bank of a running head or the bank the synthesiser
fills (R55). -/
def State.probeWordWrite (s : State) (h bank w : Nat) (v : W72) (q : Req) : State :=
  let active := s.headRunning h && decide ((s.head h).act.bank = bank)
  let filling := s.rbit (Reg.headStatus h) 5 && decide (s.fld (Reg.headChirpCfg h) 20 20 = bank)
  if active || filling then s.err (headBase h) .busy (0x40000 * h + 0x20000 * bank + 16 * w) q
  else { s with probe := s.probe.set 0 (probeKey h bank w) v }

/-! ## The chirp synthesiser -/

/-- The chirp of R56 from sample n: n counted down from the length, phase and frequency words. -/
def chirpFrom (amp : Nat) (code len : Nat) (rate : Int) : Nat → Nat → Nat → Int → List (Int × Int)
  | 0, _, _, _ => []
  | k + 1, n, ph, fr =>
    let j := ph / 2 ^ 16
    let a := rne (amp * window code len n) 16
    (sat (rne (a * cosTab j) 17) 18, sat (rne (a * sinTab j) 17) 18) ::
      chirpFrom amp code len rate k (n + 1) (((ph : Int) + fr) % 2 ^ 32).toNat (wrap (fr + rate) 32)

/-- The samples the synthesiser writes (R56). -/
def State.chirp (s : State) (h : Nat) : List (Int × Int) :=
  let len := s.fld (Reg.headChirpCfg h) 14 0
  chirpFrom (s.fld (Reg.headChirpAmp h) 16 0) (s.fld (Reg.headChirpCfg h) 17 16) len
    (s.fldS (Reg.headChirpRate h) 31 0) len 0 0 (s.fldS (Reg.headChirpF0 h) 31 0)

/-- Write samples from n upwards into a bank. -/
def State.fillProbe (h bank : Nat) : List (Int × Int) → Nat → State → State
  | [], _, s => s
  | (i, q) :: r, n, s => State.fillProbe h bank r (n + 1) (s.setProbeSample h bank n i q)

/-- Write 1 to CHIRP_GO (R56, R57). -/
def State.chirpGo (s : State) (h : Nat) (q : Req) : State :=
  let bank := s.fld (Reg.headChirpCfg h) 20 20
  let active := s.headRunning h && decide ((s.head h).act.bank = bank)
  let pend := match (s.head h).pend with | some p => decide (p.bank = bank) | none => false
  if s.rbit (Reg.headStatus h) 5 || active || pend then s.err (headBase h) .busy 0x50 q
  else s.setRbit (Reg.headStatus h) 5 true

/-- CHIRP_GO (R56, R443). -/
def execChirpGo (q : Req) (h : Head) (s : State) : Host.Outcome State Fault Refusal := .next (if s.shut then s else s.chirpGo h q)

/-- CHIRP_DONE (R56): the last sample is written and CHIRP_BUSY falls. -/
def execChirpDone (h : Head) (s : State) : Host.Outcome State Fault Refusal :=
  if s.rbit (Reg.headStatus h) 5 then
    .next ((State.fillProbe h (s.fld (Reg.headChirpCfg h) 20 20) (s.chirp h) 0 s).setRbit (Reg.headStatus h) 5 false)
  else .next s

/-! ## Probe sets and their rules -/

/-- The staged probe set (R62). -/
def State.staged (s : State) (h : Nat) : ProbeSet where
  bank := s.fld (Reg.headProbeCfg h) 16 16
  len := s.fld (Reg.headProbeCfg h) 14 0
  train := s.fld (Reg.headProbeCfg h) 21 20
  scale := s.fld (Reg.headProbeScale h) 15 0
  bw := s.fld (Reg.headProbeBw h) 15 0
  slots := (List.range 8).map fun k => s.reg (Reg.headSlot h k)
  opens := (List.range 8).map fun j => s.reg (Reg.headGateOpen h j)
  closes := (List.range 8).map fun j => s.reg (Reg.headGateClose h j)

/-- N, the sub-probes of a train code; also the pitch multiplier M (R19). -/
def trainLen (train : Nat) : Nat := 2 ^ train

/-- A gate edge in units of 78.125 ps from t_launch (R66). -/
def gateEdge (v : W32) : Int := fieldS v 19 0

/-- The gate rules of R60 for channel j of a head, at a period of p ticks. -/
def gateOk (p : Nat) (ps : ProbeSet) (j : Nat) : Bool :=
  let o := gateEdge (nth ps.opens j 0)
  let c := gateEdge (nth ps.closes j 0)
  decide (c - o + 512 ≤ 64 * (p / trainLen ps.train : Nat)) && decide (32 ≤ c - o) && decide (-1536 ≤ o)

/-- The slot rules of R60. -/
def slotsOk (ps : ProbeSet) : Bool :=
  let f := (ps.slots.take (trainLen ps.train)).map fun w => fieldS w 31 0
  (f.all fun x => decide (x.natAbs * 800000000 + ps.bw * 5000 * 2 ^ 32 ≤ 90000000 * 2 ^ 32)) &&
  ((List.range f.length).all fun a => (List.range a).all fun b =>
    decide ((ps.bw * 10000 + 4000000) * 2 ^ 32 ≤ (nth f a 0 - nth f b 0).natAbs * 800000000))

/-- The rules of R60 for a set at a period of p ticks, the gate rules over the channels of a mask. -/
def probeRulesOk (p : Nat) (ps : ProbeSet) (gates : BitVec 8) : Bool :=
  slotsOk ps && decide (ps.len ≤ 4 * (p / trainLen ps.train)) &&
    (List.range 8).all fun j => !gates.getLsbD j || gateOk p ps j

/-- G, the gauges of a channel at a train (R124). -/
def State.gauges (s : State) (ch train : Nat) : Nat :=
  (s.fld (Reg.ceGauges ch) 15 0 + trainLen train - 1) / trainLen train

/-- The trace of a head in ticks, with counts the gauge counts at pitch 1 (R94). -/
def traceTicks (ps : ProbeSet) (gates : BitVec 8) (counts : List Nat) : Nat :=
  let m := trainLen ps.train
  let g1 := (List.range 8).foldl (fun x j =>
    if gates.getLsbD j then max x ((nth counts j 0 + m - 1) / m * m) else x) 0
  (ps.len + 3) / 4 + 2 * g1

/-- The written gauge counts of a head's channels. -/
def State.counts (s : State) (h : Nat) : List Nat := (List.range 8).map fun j => s.fld (Reg.ceGauges (8 * h + j)) 15 0

/-- NG is at least 1,200 ticks (R94). -/
def gapOk (p : Nat) (ps : ProbeSet) (gates : BitVec 8) (counts : List Nat) : Bool :=
  decide (1224 + traceTicks ps gates counts ≤ p)

/-- The throughput bound of R20 for channel j. -/
def rateOk (p : Nat) (ps : ProbeSet) (counts : List Nat) (j : Nat) : Bool :=
  let m := trainLen ps.train
  decide (2 * ((nth counts j 0 + m - 1) / m * m) ≤ p)

/-- S of a channel's FFT_CFG (R129). -/
def State.fftSize (s : State) (ch : Nat) : Nat := 1024 * 2 ^ s.fld (Reg.ceFftCfg ch) 1 0

/-- S is at least twice Lr for channel j of head h (R129). -/
def State.sizeOk (s : State) (h j : Nat) (ps : ProbeSet) : Bool :=
  decide (2 * ((ps.len + 3) / 4) ≤ s.fftSize (8 * h + j))

/-- Every rule that a set, a period, the gates and the gauge counts of a head must keep together (R20, R60, R94, R129). -/
def State.setOk (s : State) (h p : Nat) (ps : ProbeSet) (gates : BitVec 8) (counts : List Nat) : Bool :=
  probeRulesOk p ps gates && gapOk p ps gates counts &&
    (List.range 8).all fun j => !gates.getLsbD j || (rateOk p ps counts j && s.sizeOk h j ps)

/-- The sets of a head that a later write must not break: the one in force and a pending one. -/
def HeadSt.sets (x : HeadSt) : List ProbeSet := x.act :: x.pend.toList

/-- The written GATE_EN of a head. -/
def State.gateEn (s : State) (h : Nat) : BitVec 8 := BitVec.ofNat 8 (s.fld (Reg.headCtrl h) 15 8)

/-- The nominal period P in force of a head: its own, or its leader's in FOLLOW mode (R58). -/
def State.period (s : State) (h : Nat) : Nat :=
  if (s.sched h).mode = 1 then (s.sched (s.sched h).src).period else (s.sched h).period

/-- The written period of a head: its own, or its leader's in FOLLOW mode (R99). -/
def State.writtenPeriod (s : State) (h : Nat) : Nat :=
  if s.fld (Reg.shotCfg h) 5 4 = 1 then s.fld (Reg.shotPeriod (s.fld (Reg.shotCfg h) 9 8)) 23 0
  else s.fld (Reg.shotPeriod h) 23 0

/-- Every period that may govern a head before a further write: the one in force, the one written to the leader it follows, and the written
mode's own, in force and written (R94, R99, DEDUCED, log entry 100). -/
def State.periods (s : State) (h : Nat) : List Nat :=
  let x := s.sched h
  let l := s.fld (Reg.shotCfg h) 9 8
  s.period h :: s.writtenPeriod h ::
    ((if x.mode = 1 then [s.fld (Reg.shotPeriod x.src) 23 0] else []) ++
      if s.fld (Reg.shotCfg h) 5 4 = 1 then [(s.sched l).period] else [])

/-- When sub-probe k of the present shot of a head is due, in ticks since reset (R58). -/
def State.launchTick (s : State) (h k : Nat) : Nat := (s.sched h).tickAt + 24 + k * s.period h / trainLen (s.head h).act.train

/-- The level of each gate of a head, low where no light may leave it: high from the open to the close edge that the sub-probe launched
last was given, and around the place of the next sub-probe of a launched shot (R66). -/
def State.gatePins (s : State) (h : Nat) : BitVec 8 :=
  let x := s.head h
  let y := s.sched h
  let since : Int := 128 * (s.time.up - x.playAt : Nat)
  let due : Int := 128 * (s.time.up : Int) - 64 * s.launchTick h x.next
  let coming := y.launched && y.started && !y.tripped && decide (x.next < trainLen x.act.train)
  let within (o c t : Int) : Bool := decide (o ≤ t) && decide (t < c)
  if s.lit h then
    BitVec.ofNat 8 (bitsToNat ((List.range 8).map fun j =>
      (x.gates.getLsbD j && (match nth x.edges j none with | some e => within e.1 e.2 since | none => false)) ||
      (coming && x.gateEn.getLsbD j && within (gateEdge (nth x.act.opens j 0)) (gateEdge (nth x.act.closes j 0)) due)))
  else 0

/-- The staged set of a head may be committed: it keeps every rule at the period in force, and the natural gap and the throughput
bound at every period already accepted that may govern it (R20, R60, R62, R94, R129). -/
def State.commitOk (s : State) (h : Nat) : Bool :=
  let ps := s.staged h
  let g := s.gateEn h
  let c := s.counts h
  s.setOk h (s.period h) ps g c && (s.periods h).all fun p => gapOk p ps g c &&
    (List.range 8).all fun j => !g.getLsbD j || rateOk p ps c j

/-- Write 1 to PROBE_COMMIT (R60, R62, R94, R129). -/
def State.probeCommit (s : State) (h : Nat) (q : Req) : State :=
  let ps := s.staged h
  if s.commitOk h then
    (s.setHead h { s.head h with pend := some ps }).setRbit (Reg.headStatus h) 6 true
  else s.err (headBase h) .range 0x14 q

/-! ## The probe generator -/

/-- The two DAC codes of a sample before the clamp (R59). -/
def dacCode (mi mq : Int) (ph scale : Nat) : Int × Int :=
  let j := ph / 2 ^ 16
  let yi := rne (mi * cosTab j - mq * sinTab j) 17
  let yq := rne (mi * sinTab j + mq * cosTab j) 17
  (sat (rne (rne (yi * scale) 15) 4) 14, sat (rne (rne (yq * scale) 15) 4) 14)

/-- A code limited to the peak (R59). -/
def clampCode (peak : Int) (c : Int) : Int := max (-peak) (min c peak)

/-- The DAC codes of a sub-probe and the samples the clamp changed (R59). -/
def playFrom (s : State) (h bank scale : Nat) (peak : Int) (slot : Nat) : Nat → Nat → Nat → List (Int × Int) × Nat
  | 0, _, _ => ([], 0)
  | k + 1, n, ph =>
    let (mi, mq) := s.probeSample h bank n
    let (ci, cq) := dacCode mi mq ph scale
    let di := clampCode peak ci
    let dq := clampCode peak cq
    let (r, c) := playFrom s h bank scale peak slot k (n + 1) ((ph + slot) % 2 ^ 32)
    ((di, dq) :: r, c + if di ≠ ci ∨ dq ≠ cq then 1 else 0)

/-- The probe generator plays sub-probe k: the codes leave the DACs, code 0 where no light may leave the head, clamped samples of R59's path
count, and the gates open around it where it may (R51, R59, R66, R72). -/
def State.play (s : State) (h k : Nat) : State :=
  let x := s.head h
  let on := s.lit h
  let (codes, clamps) := playFrom s h x.act.bank x.act.scale x.peak (nth x.act.slots k 0).toNat x.act.len 0 0
  let edges := (List.range 8).map fun j =>
    if on && x.gateEn.getLsbD j then some (gateEdge (nth x.act.opens j 0), gateEdge (nth x.act.closes j 0)) else none
  let s := s.setHead h { x with gates := if on then x.gateEn else 0, playing := on, playAt := s.time.up, edges := edges, next := k + 1 }
  let s := if clamps = 0 then s else (s.count (Reg.headClampCnt h) clamps).fault (Reg.headFault h) (2 ^ 3)
  (s.emit (.probe h k (if on then codes else codes.map fun _ => (0, 0)))).emit (.gate h k edges)

/-- The launch supervisor opens its windows at sub-probe 0 (R67). -/
def State.lmonArm (s : State) (h : Nat) : State :=
  s.setHead h { s.head h with lmonOpen := (s.head h).gateEn, lmonSeen := 0 }

/-- The supervisor of channel j sees an edge (R67). -/
def State.lmonSeen (s : State) (h j : Nat) : State :=
  let x := s.head h
  if x.lmonOpen.getLsbD j then
    s.setHead h { x with lmonSeen := withBit x.lmonSeen j true, missRun := setNth x.missRun j 0 }
  else s

/-- LMON_MISS (R67): the window closes with no edge; the miss counts, and a run of MISS_LIMIT misses sets the fault. -/
def execLmonMiss (ch : Chan) (s : State) : Host.Outcome State Fault Refusal :=
  if s.shut then .next s
  else
    let h := ch.val / 8
    let j := ch.val % 8
    let x := s.head h
    if !x.lmonOpen.getLsbD j || x.lmonSeen.getLsbD j then .next s
    else
      let n := nth x.missRun j 0 + 1
      let limit := x.missLimit
      let hit := decide (limit ≠ 0) && decide (limit ≤ n)
      let s := s.setHead h { x with
        lmonOpen := withBit x.lmonOpen j false
        gates := withBit x.gates j false
        missRun := setNth x.missRun j (if hit then 0 else n) }
      let s := s.setFld (Reg.headMiss h j) 15 0 (min (s.fld (Reg.headMiss h j) 15 0 + 1) 65535)
      .next (if hit then s.fault (Reg.headFault h) (2 ^ (8 + j)) else s)

/-! ## Head temperature -/

/-- Show a new launch fraction D: DUTY, SUSPENDED and DERATING (R73). -/
def State.setDuty (s : State) (h d : Nat) : State :=
  ((s.setFld (Reg.headDuty h) 16 0 d).setRbit (Reg.headStatus h) 4 (decide (d = 0))).setRbit (Reg.headStatus h) 3
    (decide (0 < d) && decide (d < 65536))

/-- D and the suspension after a valid reading t (R73). -/
def derate (t warn limit : Int) (hyst : Nat) (suspended : Bool) : Nat × Bool :=
  if limit ≤ t then (0, true)
  else if suspended ∧ limit - hyst < t then (0, true)
  else if t ≤ warn then (65536, false)
  else ((65536 * (limit - t) / (limit - warn)).toNat, false)

/-- A valid head-temperature reading in 1/16 °C (R73). -/
def State.headTemp (s : State) (h : Nat) (t : Int) : State :=
  let x := s.head h
  let (d, sus) := derate t (s.fldS (Reg.headThermLim h) 15 0) (s.fldS (Reg.headThermLim h) 31 16)
    (s.fld (Reg.headThermCfg h) 7 0) x.suspended
  let s := s.setReg (Reg.headHeadTemp h) (BitVec.ofNat 32 (2 ^ 16 + (t % 2 ^ 16).toNat))
  let s := (s.setHead h { x with suspended := sus, readAt := s.time.up }).setDuty h d
  if sus && !x.suspended then s.fault (Reg.headFault h) 2 else s

/-- HEAD_TEMP_READING (R73). -/
def execHeadTempReading (h : Head) (t : Int) (s : State) : Host.Outcome State Fault Refusal :=
  if s.shut then .next s else .next (s.headTemp h t)

/-- The reading held goes stale: D is 0 and FAULT.STALE sets (R73). -/
def State.headStale (s : State) (h : Nat) : State :=
  if s.rbit (Reg.headHeadTemp h) 16 && !s.rbit (Reg.headHeadTemp h) 17 then
    ((s.setRbit (Reg.headHeadTemp h) 17 true).setDuty h 0).fault (Reg.headFault h) 4
  else s

/-- HEAD_TEMP_STALE (R73). -/
def execHeadTempStale (h : Head) (s : State) : Host.Outcome State Fault Refusal := .next (s.headStale h)

/-- After a write of THERM_CFG the age of the reading held is judged by the new STALE (R73, DEDUCED, log entry 13). -/
def State.thermCfgWritten (s : State) (h : Nat) : State :=
  let old := decide (s.fld (Reg.headThermCfg h) 15 8 * 10000000 ≤ s.time.up - (s.head h).readAt)
  if old then s.headStale h
  else if s.rbit (Reg.headHeadTemp h) 17 then s.setRbit (Reg.headHeadTemp h) 17 false else s

/-! ## Writes of the HEAD registers -/

/-- Whether a write that leaves v in a HEAD register is refused, beyond the ranges of its fields (R57, R63, R73, R94). -/
def headCheck (s : State) (h off : Nat) (v : W32) : Option Cause :=
  match off with
  | 0x0 =>
    let gates := BitVec.ofNat 8 (field v 15 8)
    let set := gates &&& ~~~(s.gateEn h)
    let c := s.counts h
    let bad := (s.head h).sets.any fun ps => (s.periods h).any fun p =>
      !gapOk p ps gates c || (List.range 8).any fun j =>
        set.getLsbD j && !(gateOk p ps j && rateOk p ps c j && s.sizeOk h j ps)
    if set ≠ 0 ∧ bad then some .range else none
  | 0x1C =>
    let n := field v 26 16
    if n ≠ 0 ∧ (n < 16 ∨ 1024 < n) then some .range else none
  | 0x54 => if fieldS v 31 16 ≤ fieldS v 15 0 then some .range else none
  | 0x40 | 0x44 | 0x48 | 0x4C => if s.rbit (Reg.headStatus h) 5 then some .busy else none
  | _ => none

end Sys2Proof.Machine
end

