-- ==== Sys2Proof/Machine/Lanes.lean ====
section
/-!
DEFINITION. Receiver lanes (R74 to R92): the digital front, clips and lane status words, corrections in use, the quiet-check and
calibration slots. A channel's raw codes come as six lists, each with 8 codes before the first sample of its span and 8 after the
last, which the skew filter reaches (DESIGN CHOICE, log entry 3).
-/
namespace Sys2Proof.Machine

/-- The block base of channel ch's lanes. -/
def laneBase (ch : Nat) : Nat := 0x200000 + 0x10000 * ch

/-- How many codes a list carries before and after its span. -/
def pad : Nat := 8

/-- A coherent lane, XI to YQ (R74). -/
def coherent (p : Nat) : Bool := decide (p < 4)

/-- The lists of a channel's codes as arrays, six of them. -/
def codesOf (raw : ChCodes) : List (Array Int) := (List.range 6).map fun p => (nth raw p []).toArray

/-- Code n of a span. -/
def codeAt (c : Array Int) (n : Int) : Int := if n + pad < 0 then 0 else c.getD (n + pad).toNat 0

/-- The samples of a span. -/
def spanLen (c : Array Int) : Nat := c.size - 2 * pad

/-- A code is the lowest or the highest of its converter (R80). -/
def clips (p : Nat) (x : Int) : Bool :=
  if coherent p then x = -2048 || x = 2047 else x = -8192 || x = 8191

/-- u(n): the code at Q1.15 scale less the offset (R78). -/
def laneU (p : Nat) (k : LaneCorr) (x : Int) : Int := x * (if coherent p then 16 else 4) - k.ofs

/-- g(n): skew filter and gain correction of one lane (R78). -/
def laneG (p : Nat) (k : LaneCorr) (tap : List Int) (c : Array Int) (n : Nat) : Int :=
  let d := k.skew + 64
  let kk := d / 64
  let sum := (List.range 8).foldl (fun a m => a + nth tap m 0 * laneU p k (codeAt c ((n : Int) - m - kk + 4))) 0
  rne (rne sum 15 * k.gcorr) 14

/-- The skew taps a lane uses (R79). -/
def laneTaps (k : LaneCorr) : List Int := taps 64 ((k.skew + 64) % 64).toNat

/-- g of the six lanes over a span under one period's corrections (R78). A disabled lane delivers 0, to its pair's matrix too (R81, DEDUCED,
DEDUCED, log entry 80). The skew filter's neighbours across a shot boundary are taken with the corrections of the period the output lies in
(DESIGN CHOICE, log entry 81). -/
def laneGs (per : PeriodSt) (cs : List (Array Int)) : List (List Int) :=
  (List.range 6).map fun p =>
    let k := nth per.corr p {}
    let tap := laneTaps k
    let c := nth cs p #[]
    (List.range (spanLen c)).map fun n => if per.on.getLsbD p then laneG p k tap c n else 0

/-- The streams that leave the matrices of a period, before the last saturation (R78). -/
def laneMix (per : PeriodSt) (g : List (List Int)) : List (List Int) :=
  let pair (m : IqMat) (i q : List Int) : List Int × List Int :=
    ((i.zip q).map (fun (x : Int × Int) => rne (m.m11 * x.1 + m.m12 * x.2) 14),
     (i.zip q).map (fun (x : Int × Int) => rne (m.m21 * x.1 + m.m22 * x.2) 14))
  let x := pair per.mx (nth g 0 []) (nth g 1 [])
  let y := pair per.my (nth g 2 []) (nth g 3 [])
  [x.1, x.2, y.1, y.2, nth g 4 [], nth g 5 []].mapIdx fun p l => if per.on.getLsbD p then l else l.map fun _ => 0

/-- The six corrected streams of a span under one period's corrections, before the last saturation (R78). -/
def laneOuts (per : PeriodSt) (cs : List (Array Int)) : List (List Int) := laneMix per (laneGs per cs)

/-- A lane is in a period's calibration slot at sample n (R81, R89). -/
def inSlot (per : PeriodSt) (p n : Nat) : Bool :=
  match per.slot with
  | none => false
  | some c =>
    let t := if coherent p then n else 2 * n
    c.mask.getLsbD p && decide (c.start ≤ t) && decide (t < c.start + 56 + c.r * c.len)

/-- V of sample n of lane p in a period (R81). -/
def invalid (per : PeriodSt) (p n : Nat) : Bool :=
  !per.on.getLsbD p || per.first.getLsbD p || (per.pgaNew.getLsbD p && decide (n < 64)) || inSlot per p n

/-- The corrections the registers hold for a channel (R84). -/
def State.writtenCorr (s : State) (ch : Nat) : List LaneCorr :=
  (List.range 6).map fun p =>
    { pga := s.fld (Reg.lanePga ch p) 2 0, ofs := s.fldS (Reg.laneOffset ch p) 15 0,
      skew := s.fldS (Reg.laneSkew ch p) 6 0, gcorr := s.fld (Reg.laneGcorr ch p) 15 0 }

/-- The quiet-check and clip settings the registers hold (R92). -/
def State.writtenQuiet (s : State) (ch : Nat) : QuietCfg :=
  { on := s.rbit (Reg.laneCtrl ch) 8, start := s.fld (Reg.laneQuietStart ch) 23 0, len := s.fld (Reg.laneQuietCfg ch) 10 0,
    limit := s.fld (Reg.laneQuietLimit ch) 31 0, clip := s.fld (Reg.laneClipLimit ch) 15 0 }

/-- The matrix two registers hold (R92). -/
def State.writtenMat (s : State) (a b : Nat) : IqMat :=
  { m11 := s.fldS a 15 0, m12 := s.fldS a 31 16, m21 := s.fldS b 15 0, m22 := s.fldS b 31 16 }

/-- What the next boundary takes is what the registers hold, unless HOLD keeps it back: run after every write of them (R84). -/
def State.laneStage (s : State) (ch : Nat) : State :=
  if s.rbit (Reg.laneCtrl ch) 16 then s
  else s.setLane ch { s.lane ch with
    next := s.writtenCorr ch, nextMx := s.writtenMat (Reg.laneMxA ch) (Reg.laneMxB ch)
    nextMy := s.writtenMat (Reg.laneMyA ch) (Reg.laneMyB ch) }

/-- The corrections of a lane domain that is powered again come from the registers just restored, whatever HOLD says; its gains stay
(R25, R85). -/
def State.laneRestored (s : State) (ch : Nat) : State :=
  let x := s.lane ch
  let held := s.rbit (Reg.laneCtrl ch) 16
  let mx := s.writtenMat (Reg.laneMxA ch) (Reg.laneMxB ch)
  let my := s.writtenMat (Reg.laneMyA ch) (Reg.laneMyB ch)
  s.setLane ch { x with
    cur := { x.cur with corr := (s.writtenCorr ch).mapIdx fun p k => { k with pga := (nth x.cur.corr p {}).pga }, mx := mx, my := my }
    next := (s.writtenCorr ch).mapIdx fun p k => if held then { k with pga := (nth x.next p {}).pga } else k
    nextMx := mx, nextMy := my }

/-- STATUS of a channel's lanes as read: SETTLE bit p is 1 while lane p's 64 samples after a PGA change last (R82). -/
def State.laneStatusLive (s : State) (ch : Nat) : W32 :=
  let age := 2 * (s.time.up - (s.lane ch).openedAt)
  (List.range 6).foldl (fun v p => if (if coherent p then 64 else 128) ≤ age then withBit v (8 + p) false else v)
    (s.reg (Reg.laneStatus ch))

/-! ## Closing a period -/

/-- The quiet measurement of a lane: valid, samples used and energy (R86, R87). An invalid one counts the samples of its window
(DESIGN CHOICE, log entry 89). -/
def quiet (p : Nat) (per : PeriodSt) (c : Array Int) : Bool × Nat × Nat :=
  if !per.quiet.on then (false, 0, 0)
  else
    let n0 := if coherent p then per.quiet.start else (per.quiet.start + 1) / 2
    let cnt := min per.quiet.len (spanLen c - n0)
    let k := nth per.corr p {}
    let sum := (List.range cnt).foldl (fun a i => a + laneU p k (codeAt c ((n0 + i : Nat) : Int)) ^ 2) 0
    let hit := (List.range cnt).any fun i => inSlot per p (n0 + i)
    if cnt < 16 || hit || !per.on.getLsbD p then (false, cnt, 0)
    else (true, cnt, (satu (sum / cnt) 32).toNat)

/-- Close lane p of a channel's period: the status word, the FAULT bits, counters and QE (R80, R83, R86). -/
def State.closeLane (s : State) (ch : Nat) (per : PeriodSt) (outs : List Int) (c : Array Int) (p : Nat) : W72 × Nat × State :=
  let n := spanLen c
  let on := per.on.getLsbD p
  let cl := if on then ((List.range n).filter fun i => clips p (codeAt c (i : Int))).length else 0
  let st := if on then (outs.filter fun x => sat x 16 ≠ x).length else 0
  let (qv, cnt, qe) := quiet p per c
  let fail := qv && decide (per.quiet.limit < qe)
  let inv := if on && per.pgaNew.getLsbD p then min 64 n else 0
  let cal := match per.slot with | some k => k.mask.getLsbD p | none => false
  let limit := per.quiet.clip
  let s := (s.count (Reg.laneClipCnt ch p) cl).count (Reg.laneSatCnt ch p) st
  let s := s.setReg (Reg.laneQstat ch p) (BitVec.ofNat 32 (b2n qv * 2 ^ 16 + cnt))
  let s := if qv then s.setReg (Reg.laneQe ch p) (BitVec.ofNat 32 qe) else s
  let s := if qv then s.setRbit (Reg.laneStatus ch) (16 + p) fail else s
  let s := s.setRbit (Reg.laneStatus ch) p (decide (cl ≠ 0))
  let bits := (if limit ≠ 0 ∧ limit ≤ cl then 2 ^ p else 0) ||| (if fail then 2 ^ (8 + p) else 0) |||
    (if st ≠ 0 then 2 ^ 16 else 0)
  (BitVec.ofNat 72 (per.index.toNat % 2 ^ 16 * 2 ^ 56 + min cl 65535 * 2 ^ 40 + min st 255 * 2 ^ 32 + inv * 2 ^ 16 +
      (nth per.corr p {}).pga * 2 ^ 13 + b2n cal * 2 ^ 12 + b2n qv * 2 ^ 11 + b2n fail * 2 ^ 10 +
      b2n (!per.launched) * 2 ^ 9 + p), bits, s)

/-- Close the period of a channel's six lanes (R83): the status words are kept for the record of its shot. -/
def State.closeLanes (s : State) (ch : Nat) (raw : ChCodes) : State :=
  let x := s.lane ch
  let cs := codesOf raw
  let outs := laneOuts x.cur cs
  let (ws, bits, s) := (List.range 6).foldl (fun (acc : List W72 × Nat × State) p =>
    let (w, b, t) := acc.2.2.closeLane ch x.cur (nth outs p []) (nth cs p #[]) p
    (acc.1 ++ [w], acc.2.1 ||| b, t)) ([], 0, s)
  s.setLane ch { s.lane ch with words := ws, found := bits, prev := { x.cur with ticks := spanLen (nth cs 0 #[]) } }

/-- The FAULT bits found at a boundary of a channel's lanes set in one cycle (R40, R80, R86, R90). -/
def State.laneFaults (s : State) (ch more : Nat) : State :=
  let x := s.lane ch
  (s.setLane ch { x with found := 0 }).fault (Reg.laneFault ch) (x.found ||| more)

/-! ## Opening a period -/

/-- The lane domain of a channel is on and not asked off: a write that asks it off stops its channels at their next boundaries (R427). -/
def State.lanePowered (s : State) (ch : Nat) : Bool := s.rbit Reg.sysPwrStat (2 + ch / 16) && s.rbit Reg.sysPwrCtrl (2 + ch / 16)

/-- A slot armed for a period: its place and lanes (R89). -/
def State.slotOf (s : State) (ch : Nat) : CalSlot :=
  let mask := BitVec.ofNat 6 (s.fld (Reg.laneCalCfg ch) 29 24)
  { start := s.fld (Reg.laneCalStart ch) 23 0, len := s.fld (Reg.laneCalCfg ch) 10 0,
    r := if mask.getLsbD 4 || mask.getLsbD 5 then 2 else 1, mask := mask, src := s.fld (Reg.laneCalCfg ch) 17 16 }

/-- Open the period of a shot on a channel's lanes: corrections, power, and the armed slot, which is refused where it crosses the
next boundary, meets a trace window of the channel's engine or takes no lane (R81, R84, R85, R90). Where the head had stopped (not ran'),
the samples past its last period reach up to this boundary, since ticks after t_shot of the last shot (R93). -/
def State.openLanes (s : State) (ch : Nat) (index : BitVec 48) (launched : Bool) (ticks : Nat) (windows : List (Nat × Nat)) (ran' : Bool)
    (since : Nat) : State :=
  let x := s.lane ch
  let corr := x.next
  let mx := x.nextMx
  let my := x.nextMy
  let on := if s.lanePowered ch then BitVec.ofNat 6 (s.fld (Reg.laneCtrl ch) 5 0) else 0
  let pgaNew := BitVec.ofNat 6 (bitsToNat ((List.range 6).map fun p =>
    decide ((nth corr p {}).pga ≠ (nth x.cur.corr p {}).pga)))
  let c := s.slotOf ch
  let stop := c.start + 56 + c.r * c.len
  let bad := decide (ticks < stop) || decide (c.mask = 0) ||
    windows.any fun w => decide (w.1 < stop) && decide (c.start < w.2)
  let slot := if x.armed && !bad then some c else none
  let s := s.setLane ch { x with
    cur := { index := index, ticks := ticks, launched := launched, corr := corr, mx := mx, my := my, on := on,
             first := on &&& ~~~x.ran, pgaNew := pgaNew &&& on, slot := slot,
             quiet := s.writtenQuiet ch }
    ran := on, armed := false, slotDue := slot.isSome, openedAt := s.time.up
    prev := if x.tail.isSome && !ran' then { x.prev with ticks := max x.prev.ticks since } else x.prev
    tail := if ran' then none else x.tail }
  let s := s.setFld (Reg.laneStatus ch) 13 8 (pgaNew &&& on).toNat
  s.laneFaults ch (if x.armed && bad then 2 ^ 17 else 0)

/-- The lanes of a stopped head go on sampling past the period just closed, where a trace window of its shot is open (R93). -/
def State.laneTail (s : State) (ch : Nat) (on : Bool) : State :=
  s.setLane ch { s.lane ch with tail := if on then some (s.lane ch).prev.ticks else none }

/-! ## Calibration slots -/

/-- Write 1 to CAL_GO (R89, R91). A slot accepted at its boundary counts as armed until it runs (DEDUCED, log entry 88). -/
def State.calGo (s : State) (ch : Nat) (q : Req) : State :=
  if (s.lane ch).armed || (s.lane ch).slotDue || s.rbit (Reg.laneStatus ch) 24 then s.err (laneBase ch) .busy 0x20 q
  else s.setLane ch { s.lane ch with armed := true }

/-- CAL_GO (R89). -/
def execCalGo (q : Req) (ch : Chan) (s : State) : Host.Outcome State Fault Refusal := .next (if s.shut then s else s.calGo ch q)

/-- CAL_SLOT_START (R89): at t_cal CAL_BUSY reads 1. -/
def execCalSlotStart (ch : Chan) (s : State) : Host.Outcome State Fault Refusal :=
  if (s.lane ch).slotDue then
    .next ((s.setLane ch { s.lane ch with slotDue := false }).setRbit (Reg.laneStatus ch) 24 true)
  else .next s

/-- The sums of one lane over the accumulated samples of a slot (R89). -/
def State.slotSums (s : State) (ch p : Nat) (k : LaneCorr) (xs : List Int) : State :=
  let step := if coherent p then 4096 else 8192
  let us := xs.map (laneU p k)
  let ix := us.zip (List.range us.length)
  let sum := sumInt us
  let sq := sumInt (us.map fun u => u * u)
  let c := rne (sumInt (ix.map fun (x : Int × Nat) => x.1 * cosTab (x.2 * step % 65536))) 17
  let d := rne (sumInt (ix.map fun (x : Int × Nat) => x.1 * sinTab (x.2 * step % 65536))) 17
  let s := (s.setReg (Reg.laneCalSum ch p) (toW 32 sum)).setWreg (Reg.laneCalSq ch p) (toW 72 sq)
  (s.setReg (Reg.laneCalC ch p) (toW 32 c)).setReg (Reg.laneCalS ch p) (toW 32 d)

/-- A slot ends (R89): the lanes reconnect, the sums are readable and CAL_DONE sets; raw is each lane's LEN accumulated codes. -/
def State.calSlotEnd (s : State) (ch : Nat) (raw : ChCodes) : State :=
  match (s.lane ch).cur.slot with
  | none => s
  | some c =>
    let corr := (s.lane ch).cur.corr
    let s := (List.range 6).foldl (fun t p =>
      if c.mask.getLsbD p then t.slotSums ch p (nth corr p {}) ((nth raw p []).take c.len) else t) s
    (s.setRbit (Reg.laneStatus ch) 24 false).setRbit (Reg.laneStatus ch) 25 true

/-- Whether a write that leaves v in a LANE register is refused, beyond the ranges of its fields (R89, R91). -/
def laneCheck (s : State) (ch off : Nat) (v : W32) : Option Cause :=
  let busy := (s.lane ch).armed || (s.lane ch).slotDue || s.rbit (Reg.laneStatus ch) 24
  match off with
  | 0x18 => if busy then some .busy else if bitOf v 0 then some .range else none
  | 0x1C => if busy then some .busy else none
  | _ => none

end Sys2Proof.Machine
end

