-- ==== Sys2Proof/Machine/Tdc.lean ====
section
/-!
DEFINITION. The time-interval units (R110 to R119): edges and their stamps, the interval, the result word, arming and holding.
An edge comes with its stamp e = 160 K + F in steps of 2.5 ps and its offset from the REFCLK edge before it in the same steps.
-/
namespace Sys2Proof.Machine

/-- The block base of the time-interval units. -/
def tdcBase : Nat := 0x40000

/-- CFG of unit u (R122). -/
def tdcCfgAt (u : Nat) : Nat := tdcBase + 0x100 + 0x40 * u

/-- The modulus of edge stamps (R110). -/
def stampMod : Nat := 160 * 2 ^ 40

/-- a over b to nearest, ties to even, for b positive. -/
def rdivEven (a : Int) (b : Nat) : Int :=
  let q := a / b
  let r := 2 * (a % b)
  if r < b then q else if (b : Int) < r then q + 1 else if q % 2 = 0 then q else q + 1

/-- A time in units of 2^-10 ns as a TS72 word (R106). -/
def ts72Of10 (t : Nat) : W72 := ts72 (t * 2 ^ 22)

/-- TSTART of an edge ofs steps of 2.5 ps after the REFCLK edge at local time now (R115). -/
def tstart (now ofs : Nat) : W72 := ts72Of10 (now / 2 ^ 22 + (rdivEven (ofs * 64) 25).toNat)

/-- d: the stamp difference brought to the signed range (R110). -/
def stampDiff (stop start : Nat) : Int :=
  let d := ((stop : Int) - start) % stampMod
  if (80 * 2 ^ 40 : Int) ≤ d then d - stampMod else d

/-- Both locking loops are locked (R113). -/
def State.tdcLocked (s : State) : Bool := s.rbit Reg.tdcStatus 0 && s.rbit Reg.tdcStatus 1

/-- Unit u arms: its window opens with nothing seen; a channel unit keeps the shot that arms it (R112, R114, R116, R117). A channel unit whose
window is still open when the next launched shot arms it starts anew, and the measurement in it gives no result (DESIGN CHOICE, log entry
102). -/
def State.tdcArm (s : State) (u : Nat) : State :=
  s.setTdc u { s.tdc u with
    armed := true, start := none, startAt := 0, stop := none, extra := 0, unlocked := !s.tdcLocked, holdAfter := false
    shot := if u < 32 then (s.sched (u / 8)).index else 0 }

/-- The source code of an input of a general unit (R117). -/
def State.tdcSrc (s : State) (u : Nat) (stop : Bool) : Nat := if stop then s.fld (tdcCfgAt u) 11 8 else s.fld (tdcCfgAt u) 7 4

/-- HOLDOFF of an input, in units of 10 ns: that of the LMON or TIN input the edges come from; the internal sources have none
(R114, R122, DESIGN CHOICE, log entry 82). -/
def State.tdcHoldoff (s : State) (u : Nat) (stop : Bool) : Nat :=
  if u < 32 then (if stop then 0 else s.fld (tdcBase + 0x104 + 0x40 * u) 23 16)
  else if s.tdcSrc u stop < 8 then s.fld (tdcBase + 0x104 + 0x40 * (32 + s.tdcSrc u stop)) 23 16
  else 0

/-- An edge reaches the start or stop vernier of unit u, ofs steps after the REFCLK edge at local time now (R114). -/
def State.tdcEdgeAt (s : State) (now u : Nat) (stop : Bool) (e ofs : Nat) : State :=
  let x := s.tdc u
  if !x.armed then s
  else
    match if stop then x.stop else x.start with
    | none =>
      if stop then s.setTdc u { x with stop := some (e % stampMod) }
      else s.setTdc u { x with start := some (e % stampMod), startAt := tstart now ofs }
    | some first =>
      let d := (((e : Int) - first) % stampMod).toNat
      if d < s.tdcHoldoff u stop * 4000 then s
      else (s.setTdc u { x with extra := min (x.extra + 1) 3 }).count (Reg.tdcExtraCnt u) 1

/-- An edge reaches a vernier after the present REFCLK edge (R114). -/
def State.tdcEdge (s : State) (u : Nat) (stop : Bool) (e ofs : Nat) : State := s.tdcEdgeAt s.time.now u stop e ofs

/-- An internal source gives an edge, steps of 2.5 ps after the present REFCLK edge: it reaches every general unit that names it after
the delay of its path; the stamp counts from reset (R110, R117, DESIGN CHOICE, log entry 82). -/
def State.sourceEdge (s : State) (code steps : Nat) : State :=
  forEach ((List.range 8).map (· + 32)) (fun u t =>
    let go (stop : Bool) (t : State) : State :=
      if t.tdcSrc u stop = code then
        let d := steps + Config.tdcPath u (b2n stop)
        t.tdcEdgeAt (t.time.now + d / 4000 * (10 * 2 ^ 32 + t.fldS Reg.timeRate 31 0).toNat) u stop (4000 * t.time.up + d) (d % 4000)
      else t
    go true (go false t)) s

/-- What a unit found at completion: the interval and the flags UNLOCKED, TIMEOUT, ORDER, NEAR (R111). -/
structure TdcFound where
  iv : Int
  unlocked : Bool
  timeout : Bool
  order : Bool
  near : Bool
  extra : Nat

/-- The interval and flags of unit u (R110, R111). -/
def State.tdcFound (s : State) (u : Nat) : TdcFound :=
  let x := s.tdc u
  match x.start, x.stop with
  | some a, some b =>
    let iv := stampDiff b a - s.fldS (Reg.tdcTrim u) 15 0 - s.fldS (Reg.tdcOfsAdj u) 15 0
    { iv := iv, unlocked := x.unlocked, timeout := false, extra := x.extra,
      order := decide (iv < -1) && s.rbit (tdcCfgAt u) 0, near := decide (iv.natAbs ≤ 1) }
  | _, _ => { iv := 0, unlocked := x.unlocked, timeout := true, order := false, near := false, extra := x.extra }

/-- The result word (R112). -/
def tdcWord (tag : Nat) (f : TdcFound) (startSeen stopSeen : Bool) : W72 :=
  BitVec.ofNat 72 (tag % 2 ^ 16 * 2 ^ 56 + b2n f.unlocked * 2 ^ 55 + b2n f.timeout * 2 ^ 54 + b2n f.order * 2 ^ 53 +
    b2n f.near * 2 ^ 52 + b2n startSeen * 2 ^ 51 + b2n stopSeen * 2 ^ 50 + f.extra % 4 * 2 ^ 48 +
    (f.iv % 2 ^ 48).toNat)

/-- Unit u completes: RESULT, TSTART and RSTAT are written, a timeout counts and vector 227 is raised (R111, R114, R320). TAG of a
general unit counts the results before this one (R112, DESIGN CHOICE, log entry 83). -/
def State.tdcFinish (s : State) (u : Nat) : State :=
  let x := s.tdc u
  let f := s.tdcFound u
  let tag := if u < 32 then x.shot.toNat else x.count.toNat
  let s := s.setTdc u { x with armed := false, hold := x.hold || x.holdAfter, holdAfter := false, count := x.count + 1 }
  let s := s.setWreg (Reg.tdcResult u) (tdcWord tag f x.start.isSome x.stop.isSome)
  let s := s.setWreg (Reg.tdcTstart u) x.startAt
  let s := if s.rbit (Reg.tdcRstat u) 0 then s.setRbit (Reg.tdcRstat u) 1 true else s.setRbit (Reg.tdcRstat u) 0 true
  let s := if f.timeout then s.count (Reg.tdcToutCnt u) 1 else s
  s.event 227

/-- TDC_EDGE (R114): an edge from outside, so on no input that an internal source feeds: the stop of a channel unit is the marker's (R116). -/
def execTdcEdge (u : Unit40) (stop : Bool) (e ofs : Nat) (s : State) : Host.Outcome State Fault Refusal :=
  .next (if u.val < 32 then (if stop then s else s.tdcEdge u stop e ofs) else if s.tdcSrc u stop < 8 then s.tdcEdge u stop e ofs else s)

/-- LMON_EDGE (R67, R114): the launch supervisor sees the edge and the channel's unit takes it as its start. -/
def execLmonEdge (ch : Chan) (e ofs : Nat) (s : State) : Host.Outcome State Fault Refusal :=
  if s.shut then .next s else .next ((s.lmonSeen (ch.val / 8) (ch.val % 8)).tdcEdge ch false e ofs)

/-- ARM_MODE of a general unit (R117). -/
def State.armMode (s : State) (u : Nat) : Nat := s.fld (tdcCfgAt u) 2 1

/-- TDC_REARM (R117): a CONTINUOUS unit that is not held arms again. -/
def execTdcRearm (u : Unit40) (s : State) : Host.Outcome State Fault Refusal :=
  if 32 ≤ u.val ∧ s.armMode u = 1 ∧ ¬(s.tdc u).armed ∧ ¬(s.tdc u).hold then .next (s.tdcArm u) else .next s

/-- The hold of a general unit is released: a CONTINUOUS unit arms at once (R118). -/
def State.tdcRelease (s : State) (u : Nat) : State :=
  let s := s.setTdc u { s.tdc u with hold := false }
  if s.armMode u = 1 then s.tdcArm u else s

/-- Write 1 to ARM.GO of unit u (R117, R118). A unit in CONTINUOUS, GATED or SHOT mode that is neither armed nor held ignores it, and nothing
is recorded (DESIGN CHOICE, log entry 103). -/
def State.tdcGo (s : State) (u : Nat) (q : Req) : State :=
  if (s.tdc u).armed then s.err tdcBase .busy (0x10C + 0x40 * u) q
  else
    let held := (s.tdc u).hold
    let s := if held then s.tdcRelease u else s
    if s.armMode u = 0 then s.tdcArm u else s

/-- Write 1 to ARM.DISARM of unit u (R118). -/
def State.tdcDisarm (s : State) (u : Nat) : State :=
  let x := s.tdc u
  if x.hold then s
  else if x.armed then
    if x.start.isSome || x.stop.isSome then s.setTdc u { x with holdAfter := true }
    else s.setTdc u { x with armed := false, hold := true }
  else s.setTdc u { x with hold := true }

/-- A write of ARM of a general unit: both bits are refused with cause RANGE (R118); ARM of a channel unit is reserved. -/
def State.tdcArmWrite (s : State) (u : Nat) (v : W32) (q : Req) : State :=
  if u < 32 then s
  else if bitOf v 0 && bitOf v 1 then s.err tdcBase .range (0x10C + 0x40 * u) q
  else if bitOf v 0 then s.tdcGo u q
  else if bitOf v 1 then s.tdcDisarm u
  else s

/-- TDC_ARM_GO (R117). -/
def execTdcArmGo (q : Req) (u : Unit40) (s : State) : Host.Outcome State Fault Refusal := .next (if s.shut then s else s.tdcArmWrite u 1 q)

/-- TDC_DISARM (R118). -/
def execTdcDisarm (q : Req) (u : Unit40) (s : State) : Host.Outcome State Fault Refusal := .next (if s.shut then s else s.tdcArmWrite u 2 q)

/-- TDC_LOOPS_LOCKED (R113): both loops lock while EN is 1. -/
def execTdcLoopsLocked (s : State) : Host.Outcome State Fault Refusal :=
  if s.shut then .next s else if s.rbit Reg.tdcCtrl 0 then .next (s.setFld Reg.tdcStatus 1 0 3) else .next s

/-- Every armed unit has seen a loop unlocked (R111). -/
def State.tdcMarkUnlocked (s : State) : State :=
  forEach (List.range 40) (fun u t => if (t.tdc u).armed then t.setTdc u { t.tdc u with unlocked := true } else t) s

/-- TDC_UNLOCK (R113). -/
def execTdcUnlock (slow fast : Bool) (s : State) : Host.Outcome State Fault Refusal :=
  if s.shut then .next s
  else
    if !s.rbit Reg.tdcCtrl 0 || !((slow && s.rbit Reg.tdcStatus 0) || (fast && s.rbit Reg.tdcStatus 1)) then .next s
    else
      let s := s.when slow (·.setRbit Reg.tdcStatus 0 false)
      let s := s.when fast (·.setRbit Reg.tdcStatus 1 false)
      .next (s.tdcMarkUnlocked.fault Reg.tdcFault 1)

/-- A GATED unit arms at the rising level of its pin (R117). -/
def State.gateRise (s : State) (pin : Nat) : State :=
  forEach ((List.range 8).map (· + 32)) (fun u t =>
    if t.armMode u = 2 ∧ t.fld (tdcCfgAt u) 14 12 = pin ∧ ¬(t.tdc u).armed ∧ ¬(t.tdc u).hold then t.tdcArm u else t) s

/-- A GATED unit's open window closes when the level falls (R117). -/
def State.gateFall (s : State) (pin : Nat) : State :=
  forEach ((List.range 8).map (· + 32)) (fun u t =>
    if t.armMode u = 2 ∧ t.fld (tdcCfgAt u) 14 12 = pin ∧ (t.tdc u).armed then t.tdcFinish u else t) s

/-- TIN_EDGE (R117, R119): a kept edge reaches the units that name its pin, then the gates act. -/
def execTinEdge (pin : Fin 8) (rise : Bool) (e ofs : Nat) (s : State) : Host.Outcome State Fault Refusal :=
  let falling := s.rbit (tdcBase + 0x104 + 0x40 * (32 + pin.val)) 0
  let s := if falling = rise then s
    else forEach ((List.range 8).map (· + 32)) (fun u t =>
      let t := if t.tdcSrc u false = pin.val then t.tdcEdge u false e ofs else t
      if t.tdcSrc u true = pin.val then t.tdcEdge u true e ofs else t) s
  .next (if rise then s.gateRise pin else s.gateFall pin)

/-- SHOT-armed units arm at t_shot of their head (R117). -/
def State.tdcShot (s : State) (h : Nat) : State :=
  forEach ((List.range 8).map (· + 32)) (fun u t =>
    if t.armMode u = 3 ∧ t.fld (tdcCfgAt u) 17 16 = h ∧ ¬(t.tdc u).armed ∧ ¬(t.tdc u).hold then t.tdcArm u else t) s

/-- Whether a write that leaves v in a TDC register is refused, beyond the ranges of its fields (R117). -/
def tdcCheck (s : State) (off : Nat) (v : W32) : Option Cause :=
  if off < 0x100 then none
  else
    let u := (off - 0x100) / 0x40
    let o := (off - 0x100) % 0x40
    if o = 0 ∨ o = 4 ∨ o = 8 then
      if o = 0 ∧ 32 ≤ u ∧ (0xD ≤ field v 7 4 ∨ 0xD ≤ field v 11 8) then some .enc
      else if (s.tdc u).armed then some .busy else none
    else none

/-- What an accepted write of a TDC register does beside storing it (R113, R117, R118). -/
def tdcEffect (s : State) (off : Nat) (v : W32) (q : Req) : State :=
  if off = 0 then
    if bitOf v 0 then s else (s.setFld Reg.tdcStatus 1 0 0).tdcMarkUnlocked
  else if off < 0x100 then s
  else
    let u := (off - 0x100) / 0x40
    let o := (off - 0x100) % 0x40
    if 32 ≤ u ∧ o = 0 then s.tdcRelease u
    else if o = 0xC then s.tdcArmWrite u v q
    else s

end Sys2Proof.Machine
end

