-- ==== Sys2Proof/Machine/Compression.lean ====
section
/-!
DEFINITION. Compression engines (R123 to R143): the launch offset, mixing, the replica spectrum, overlap-save fast convolution,
alignment and decimation, the shot record up to its gauge words, and the Raman accumulators with their totals in DRAM.
-/
namespace Sys2Proof.Machine

/-- The block base of engine ch. -/
def ceBase (ch : Nat) : Nat := 0x400000 + 0x10000 * ch

/-! ## The launch offset -/

/-- q of a launch offset tau (R125). -/
def tauQ (tau : Int) : Int := (tau * 32 + 125) / 250

/-- q the engine holds: the last usable one, or that of TAU_INIT (R126). -/
def State.heldQ (s : State) (ch : Nat) (alignOfs : Int) : Int :=
  match (s.ce ch).held with
  | (_, q) :: _ => q
  | [] => tauQ (s.fldS (Reg.ceTauInit ch) 23 0 + alignOfs)

/-- Change the first record of a list that satisfies a test. -/
def updFirst {α : Type} (p : α → Bool) (f : α → α) : List α → List α
  | [] => []
  | x :: r => if p x then f x :: r else x :: updFirst p f r

/-- A record still waits for its launch offset. -/
def RecSt.waitsQ (r : RecSt) : Bool := !r.skipped && r.q.isNone

/-! ## The transform -/

/-- A block of complex samples. -/
abbrev Cplx := Array (Int × Int)

/-- The k low bits of i in reverse order. -/
def bitRev : Nat → Nat → Nat
  | 0, _ => 0
  | k + 1, i => i % 2 * 2 ^ k + bitRev k (i / 2)

/-- The largest magnitude of any component of a block. -/
def maxComp (x : Cplx) : Nat := x.foldl (fun m c => max m (max c.1.natAbs c.2.natAbs)) 0

/-- One output of a stage of half-span h and scaling sh, before saturation (R131). -/
def butterfly (x : Cplx) (h sh : Nat) (fwd : Bool) (i : Nat) : Int × Int :=
  let j := i % (2 * h)
  let lo := i - j + j % h
  let (ar, ai) := x.getD lo (0, 0)
  let (br, bi) := x.getD (lo + h) (0, 0)
  let t := j % h * 32768 / h
  let wr := cosTab t
  let wi := if fwd then -sinTab t else sinTab t
  let tr := rne (br * wr - bi * wi) 17
  let ti := rne (br * wi + bi * wr) 17
  if j < h then (rne (ar + tr) sh, rne (ai + ti) sh) else (rne (ar - tr) sh, rne (ai - ti) sh)

/-- How many components of a block a saturation to n bits changes. -/
def satCount (n : Nat) (x : Cplx) : Nat :=
  x.foldl (fun c v => c + (if sat v.1 n ≠ v.1 then 1 else 0) + (if sat v.2 n ≠ v.2 then 1 else 0)) 0

/-- A block saturated to n bits. -/
def satBlock (n : Nat) (x : Cplx) : Cplx := x.map fun v => (sat v.1 n, sat v.2 n)

/-- The stages of the transform from half-span h: the block, its exponent and the saturations (R131). -/
def fftStages (fwd : Bool) : Nat → Nat → Cplx → Nat → Nat → Cplx × Nat × Nat
  | 0, _, x, e, c => (x, e, c)
  | k + 1, h, x, e, c =>
    let mx := maxComp x
    let sh := if mx < 2 ^ 33 then 0 else if mx < 2 ^ 34 then 1 else 2
    let sh := if 31 < e + sh then 31 - e else sh
    let y := ((Array.range x.size).map (butterfly x h sh fwd))
    fftStages fwd k (2 * h) (satBlock 36 y) (e + sh) (c + satCount 36 y)

/-- fft of a block of 2^k samples: result, block exponent, saturations (R131). -/
def fft (x : Cplx) (k : Nat) (fwd : Bool) : Cplx × Nat × Nat :=
  fftStages fwd k 1 ((Array.range (2 ^ k)).map fun i => x.getD (bitRev k i) (0, 0)) 0 0

/-- log2 of S of a SIZE code (R129). -/
def sizeLog (size : Nat) : Nat := 10 + size

/-! ## Replica -/

/-- Lr of a probe length (R128). -/
def lrOf (len : Nat) : Nat := (len + 3) / 4

/-- The replica of a probe set (R128). -/
def State.replica (s : State) (h : Nat) (ps : ProbeSet) : List (Int × Int) :=
  (List.range (lrOf ps.len)).map fun m =>
    let v := (List.range 4).foldl (fun (a : Int × Int) i =>
      if 4 * m + i < ps.len then
        let x := s.probeSample h ps.bank (4 * m + i)
        (a.1 + x.1, a.2 + x.2)
      else a) (0, 0)
    (rne v.1 2, rne v.2 2)

/-- The shift that brings the largest component of a spectrum into [2^34, 2^35), 0 for an all-zero spectrum (R130). -/
def normShift (x : Cplx) : Nat := if maxComp x = 0 then 0 else 34 - (maxComp x).log2

/-- The replica spectrum rc and its exponent (R130). -/
def spectrum (rep : List (Int × Int)) (k : Nat) : List (Int × Int) × Int :=
  let (rs, e, _) := fft rep.toArray k true
  let l := normShift rs
  ((rs.map fun c => (c.1 * 2 ^ l, -c.2 * 2 ^ l)).toList, (e : Int) - l)

/-- The engine forms the spectrum of a probe set at its boundary; REPLICA_BUSY reads 1 until REPLICA_DONE (R130). -/
def State.replicaForm (s : State) (h ch : Nat) (ps : ProbeSet) (size : Nat) : State :=
  let (rc, er) := spectrum (s.replica h ps) (sizeLog size)
  let s := s.setCe ch { s.ce ch with spectrum := rc, specSize := size, er := er, reform := false }
  let s := s.setReg (Reg.ceReplica ch) (BitVec.ofNat 32 ((er % 256).toNat * 2 ^ 16 + lrOf ps.len))
  s.setRbit (Reg.ceStatus ch) 2 true

/-- REPLICA_DONE (R130). -/
def execReplicaDone (ch : Chan) (s : State) : Host.Outcome State Fault Refusal :=
  .next (s.setRbit (Reg.ceStatus ch) 2 false)

/-! ## Mixing, correlation and decimation -/

/-- The mixed input of a sub-probe: sample n of its trace, (0, 0) where V is 1 (R127). -/
def mixed (w : Int) (q : Int) (li lq : Array Int) (v : Array Bool) (first len : Nat) : Cplx :=
  let ph0 := rne (w * q) 8
  (Array.range len).map fun n =>
    if v.getD (first + n) true then (0, 0)
    else
      let j := (((n : Int) * w - ph0) % 2 ^ 32).toNat / 2 ^ 16
      let a := li.getD (first + n) 0
      let b := lq.getD (first + n) 0
      (4 * (a * cosTab j + b * sinTab j), 4 * (b * cosTab j - a * sinTab j))

/-- What the blocks of a correlation give: outputs, largest ea and ei, saturations inside and at the output. -/
structure CorrOut where
  y : Array (Int × Int) := #[]
  ea : Nat := 0
  ei : Nat := 0
  inner : Nat := 0
  outer : Nat := 0

/-- One block of the correlation (R132). -/
def corrBlock (a : Cplx) (rc : Cplx) (k hop : Nat) (er : Int) (outShift : Nat) (o : CorrOut) (b : Nat) : CorrOut :=
  let (as, ea, c1) := fft ((Array.range (2 ^ k)).map fun i => a.getD (b * hop + i) (0, 0)) k true
  let z := (Array.range (2 ^ k)).map fun i =>
    let u := as.getD i (0, 0)
    let r := rc.getD i (0, 0)
    (rne (u.1 * r.1 - u.2 * r.2) 36, rne (u.1 * r.2 + u.2 * r.1) 36)
  let (ys, ei, c2) := fft (satBlock 36 z) k false
  let sh : Int := (ea : Int) + ei + er + 36 - k - outShift
  let y := ((Array.range hop).map fun n =>
    let v := ys.getD n (0, 0)
    if 0 ≤ sh then (v.1 * 2 ^ sh.toNat, v.2 * 2 ^ sh.toNat) else (rne v.1 (-sh).toNat, rne v.2 (-sh).toNat))
  { y := o.y ++ satBlock 36 y, ea := max o.ea ea, ei := max o.ei ei,
    inner := o.inner + c1 + satCount 36 z + c2, outer := o.outer + satCount 36 y }

/-- The correlation over n blocks (R132). -/
def corrBlocks (a rc : Cplx) (k hop : Nat) (er : Int) (outShift n : Nat) : CorrOut :=
  (List.range n).foldl (corrBlock a rc k hop er outShift) {}

/-- z(g) before saturation (R133). -/
def gaugeOut (y : Cplx) (tap : List Int) (c : Int) : Int × Int :=
  let at' (i : Int) : Int × Int := if i < 0 then (0, 0) else y.getD i.toNat (0, 0)
  let v := (List.range 8).foldl (fun (a : Int × Int) (m : Nat) =>
    let x := at' (c + (m : Int) - 3)
    (a.1 + nth tap m 0 * x.1, a.2 + nth tap m 0 * x.2)) (0, 0)
  (rne v.1 15, rne v.2 15)

/-- A CQ36 word, I above Q (R133). -/
def cq36 (z : Int × Int) : W72 := BitVec.ofNat 72 ((z.1 % 2 ^ 36).toNat * 2 ^ 36 + (z.2 % 2 ^ 36).toNat)

/-- The gauges of one sub-probe and polarisation, with what the record reports. -/
structure GaugeOut where
  z : List W72
  ea : Nat
  ei : Nat
  inner : Nat
  outer : Nat

/-- Correlate, align and decimate one input (R132 to R134). -/
def gaugesOf (a rc : Cplx) (k lr : Nat) (er : Int) (outShift m g : Nat) (q : Int) : GaugeOut :=
  let hop := 2 * ((2 ^ k - lr + 1) / 2)
  let ni := q / 256
  let tap := taps 256 (q % 256).toNat
  let last : Int := 2 * m * ((g : Int) - 1) + ni + 4
  let n := if last < 0 ∨ hop = 0 then 0 else last.toNat / hop + 1
  let o := corrBlocks a rc k hop er outShift n
  let zs := ((Array.range g).map fun (i : Nat) => gaugeOut o.y tap (2 * m * (i : Int) + ni))
  { z := ((satBlock 36 zs).map cq36).toList, ea := o.ea, ei := o.ei, inner := o.inner, outer := o.outer + satCount 36 zs }

/-- The samples of a span as they pass to the engine, by lane: the corrected, saturated outputs, C and V (R78, R81); with g before the
matrices (R384). -/
structure SpanOut where
  out : List (Array Int)
  g : List (Array Int)
  c : List (Array Bool)
  v : List (Array Bool)

/-- The samples of a span over the period of the shot and the one after it; how many of each lane lie in the first of them. V of samples past the
end of a stopped head's last period is that of its period (R81, R93, DESIGN CHOICE, log entry 106). -/
def State.spanOuts (s : State) (ch : Nat) (index : BitVec 48) (raw : ChCodes) : SpanOut :=
  let x := s.lane ch
  let cs := codesOf raw
  let now := decide (x.cur.index = index)
  let per := if now then x.cur else x.prev
  let ga := laneGs per cs
  let gb := if now then ga else laneGs x.cur cs
  let a := laneMix per ga
  let b := if now then a else laneMix x.cur gb
  let cut (p : Nat) : Nat := if coherent p then per.ticks else (per.ticks + 1) / 2
  let join (u w : List (List Int)) : List (Array Int) := (List.range 6).map fun p =>
    ((((nth u p []).zip (nth w p [])).zip (List.range (nth u p []).length)).map fun (v : (Int × Int) × Nat) =>
      if now ∨ v.2 < cut p then v.1.1 else v.1.2).toArray
  let outs := (join a b).map fun l => l.map fun v => sat v 16
  let vs := (List.range 6).map fun p =>
    ((List.range (nth a p []).length).map fun n =>
      if now ∨ n < cut p then invalid per p n else invalid x.cur p (n - cut p)).toArray
  let clip := (List.range 6).map fun p => ((List.range (spanLen (nth cs p #[]))).map fun (n : Nat) => clips p (codeAt (nth cs p #[]) n)).toArray
  { out := outs, g := join ga gb, c := clip, v := vs }

/-- The gauge words of a record, and the record with its saturations, exponents and VZERO (R127 to R136). A shot launched before any spectrum has
been formed is correlated with an empty one, and its outputs are 0 (DESIGN CHOICE, log entry 106). -/
def gaugeWords (r : RecSt) (q : Int) (outs : List (Array Int)) (vs : List (Array Bool)) :
    RecSt × Nat × Nat :=
  let m := trainLen r.train
  let g := (r.gaugeCount + m - 1) / m
  let lr := lrOf r.probe.len
  let trace := r.trace
  let rc := r.spectrum.toArray
  let k := sizeLog r.specSize
  let one (sub pol : Nat) : GaugeOut × Nat :=
    let li := nth outs (2 * pol) #[]
    let lq := nth outs (2 * pol + 1) #[]
    let v := (Array.range li.size).map fun n =>
      (nth vs (2 * pol) #[]).getD n true || (nth vs (2 * pol + 1) #[]).getD n true
    let first := 24 + sub * r.period / m
    let w := wrap (4 * fieldS (nth r.probe.slots sub 0) 31 0 + r.ffc) 32
    let a := mixed w q li lq v first trace
    let zeros := ((List.range trace).filter fun n => v.getD (first + n) true).length
    (gaugesOf a rc k lr r.er r.outShift m g q, zeros)
  let all := (List.range m).map fun sub => (one sub 0, one sub 1)
  let zs := all.flatMap fun o => (o.1.1.z.zip o.2.1.z).flatMap fun (v : W72 × W72) => [v.1, v.2]
  let outs' := all.flatMap fun o => [o.1, o.2]
  let inner := (outs'.map fun o => o.1.inner).foldl (· + ·) 0
  let outer := (outs'.map fun o => o.1.outer).foldl (· + ·) 0
  ({ r with gauges := some zs
            vzero := (outs'.map fun o => o.2).foldl (· + ·) 0
            ef := (outs'.map fun o => o.1.ea).foldl max 0
            ei := (outs'.map fun o => o.1.ei).foldl max 0
            sats := inner + outer }, inner, outer)

/-! ## Raman accumulators -/

/-- The key of bin b of a bank: AS, or ST above it (R137). -/
def ramanKey (ch bank st b : Nat) : Nat := 262144 * ch + 131072 * (bank % 2) + 65536 * st + b

/-- BATCH as the open batch gives it; 0 where none is open (R143, DESIGN CHOICE, log entry 86). -/
def State.showBatch (s : State) (ch : Nat) : State :=
  match (s.ce ch).batch with
  | none => s.setReg (Reg.ceBatch ch) 0
  | some b => s.setReg (Reg.ceBatch ch) (BitVec.ofNat 32 (b.j % 256 * 2 ^ 9 + b.shots))

/-- Add the Raman samples of a shot into the bins of a bank (R137, R138). -/
def State.ramanAdd (s : State) (ch bank nb first : Nat) (as st : Array Int) : State :=
  let add (m : Store Int) (b : Nat) : Store Int :=
    let ka := ramanKey ch bank 0 b
    let kb := ramanKey ch bank 1 b
    let m := m.set 0 ka (m.get 0 ka + as.getD (first + b) 0)
    m.set 0 kb (m.get 0 kb + st.getD (first + b) 0)
  { s with raman := (List.range nb).foldl add s.raman }

/-- A launched shot enters the batch that covers it, or is excluded whole (R138). -/
def State.ramanShot (s : State) (ch : Nat) (r : RamanShot) (outs : List (Array Int)) (vs : List (Array Bool)) : State :=
  let ce := s.ce ch
  let covers (b : BatchSt) : Bool := decide (b.first.toNat ≤ r.index.toNat)
  let flushing := match ce.flush with
    | some (b, _) => covers b && decide (r.index.toNat ≤ b.last.toNat)
    | none => false
  let opened := match ce.batch with | some b => covers b | none => false
  match (if opened then ce.batch else if flushing then ce.flush.map Prod.fst else none) with
  | none => s
  | some b =>
    let first := 12 + r.ofs
    let bad := r.settle || (List.range b.nb).any fun i =>
      (nth vs 4 #[]).getD (first + i) true || (nth vs 5 #[]).getD (first + i) true
    if bad then s.count (Reg.ceExclCnt ch) 1
    else
      let s := s.ramanAdd ch b.bank b.nb first (nth outs 4 #[]) (nth outs 5 #[])
      let b' := { b with shots := b.shots + 1 }
      if opened then (s.setCe ch { s.ce ch with batch := some b' }).showBatch ch
      else s.setCe ch { s.ce ch with flush := (s.ce ch).flush.map fun f => (b', f.2) }

/-- A launched record whose trace is still to be taken. -/
def RecSt.lacksTrace (r : RecSt) : Bool := !r.skipped && r.gauges.isNone && r.span.isNone

/-- A launched record that lacks its gauge words. -/
def RecSt.lacksGauges (r : RecSt) : Bool := !r.skipped && r.gauges.isNone

/-- The engine takes samples of shot i: it has a record of it that was launched, or accumulates its Raman samples. -/
def CeSt.takesShot (x : CeSt) (i : BitVec 48) : Bool :=
  (x.recs.any fun r => r.lacksGauges && decide (r.index = i)) || x.ramans.any fun a => decide (a.index = i)

/-- The index of the shot whose trace is the oldest still to be taken. -/
def CeSt.traceDue (x : CeSt) : Option (BitVec 48) :=
  match x.recs.find? RecSt.lacksTrace, x.ramans.head? with
  | some r, some a => some (if a.index.toNat < r.index.toNat then a.index else r.index)
  | some r, none => some r.index
  | none, some a => some a.index
  | none, none => none

/-- The record of shot i takes its gauge words (R127 to R136). -/
def State.traceGauges (s : State) (ch : Nat) (i : BitVec 48) (outs : List (Array Int)) (vs : List (Array Bool)) : State :=
  let mine (r : RecSt) : Bool := r.lacksGauges && decide (r.index = i)
  match (s.ce ch).recs.find? mine with
  | none => s
  | some r =>
    let (r', inner, outer) := gaugeWords r (r.q.getD 0) outs vs
    let s := s.setCe ch { s.ce ch with recs := updFirst mine (fun _ => { r' with span := none }) (s.ce ch).recs }
    let s := s.count (Reg.ceSatCnt ch) (inner + outer)
    s.fault (Reg.ceFault ch) ((if inner ≠ 0 then 2 ^ 4 else 0) + (if outer ≠ 0 then 2 ^ 3 else 0))

/-- The samples of a shot in the input buffer at its end, one for each tick of each of its windows: those of overlapping windows count once
in each (R126, DESIGN CHOICE, log entry 104). -/
def RecSt.samples (r : RecSt) : Nat := trainLen r.train * r.trace

/-- TDC_LATE for shot i of an engine, where it still waits for its launch offset (R126). -/
def State.tdcLateFor (s : State) (ch : Nat) (i : BitVec 48) : State :=
  let mine (r : RecSt) : Bool := r.waitsQ && decide (r.index = i)
  match (s.ce ch).recs.find? mine with
  | none => s
  | some r =>
    let q := s.heldQ ch r.alignOfs
    let s := s.setCe ch { s.ce ch with recs := updFirst mine (fun x => { x with q := some q, hold := true }) (s.ce ch).recs }
    ((s.count (Reg.ceHoldCnt ch) 1).setReg (Reg.ceTauLast ch) (toW 32 q)).fault (Reg.ceFault ch) 2

/-- TDC_LATE for the record that waits, if one does and has samples enough to fill the input buffer (R126). -/
def State.tdcLate (s : State) (ch : Nat) : State :=
  match (s.ce ch).recs.find? RecSt.waitsQ with
  | none => s
  | some r => if 8192 ≤ r.samples then s.tdcLateFor ch r.index else s

/-- The usable launch offset of a shot is the held value from now on; those of the two shots before stay, for a trip to go back to
(R126, R467). -/
def CeSt.holds (x : CeSt) (i : BitVec 48) (q : Int) : CeSt := { x with held := ((i, q) :: x.held).take 3 }

/-- The engine takes the result of its unit for the shot that armed it, where that shot still waits (R125, R126); its gauge words follow
at once where its trace is over. -/
def State.ceTakeTdc (s : State) (ch : Nat) (i : BitVec 48) (f : TdcFound) : State :=
  let mine (r : RecSt) : Bool := r.waitsQ && decide (r.index = i)
  match (s.ce ch).recs.find? mine with
  | none => s
  | some r =>
    let usable := !f.timeout && !f.unlocked
    let q := if usable then tauQ (r.mark * 2000 - f.iv + r.alignOfs) else s.heldQ ch r.alignOfs
    let bits := BitVec.ofNat 4 (b2n f.unlocked * 8 + b2n f.timeout * 4 + b2n f.order * 2 + b2n f.near)
    let upd := fun (x : RecSt) => { x with q := some q, hold := !usable, tdc := bits, extra := f.extra }
    let x := if usable then (s.ce ch).holds i q else s.ce ch
    let s := s.setCe ch { x with recs := updFirst mine upd x.recs }
    let s := s.setReg (Reg.ceTauLast ch) (toW 32 q)
    let s := if usable then s else (s.count (Reg.ceHoldCnt ch) 1).fault (Reg.ceFault ch) 1
    match r.span with
    | some (outs, vs) => s.traceGauges ch i outs vs
    | none => s

/-- Unit u completes; a channel unit hands its result to its engine (R114, R116). -/
def State.tdcEnd (s : State) (u : Nat) : State :=
  let f := s.tdcFound u
  let i := (s.tdc u).shot
  let t := s.tdcFinish u
  if u < 32 then t.ceTakeTdc u i f else t

/-- TDC_COMPLETE (R114): both first edges are seen and measured. -/
def execTdcComplete (u : Unit40) (s : State) : Host.Outcome State Fault Refusal :=
  if (s.tdc u).armed ∧ (s.tdc u).start.isSome ∧ (s.tdc u).stop.isSome then .next (s.tdcEnd u) else .next s

/-- TDC_WINDOW_END (R111): the window ends; what was not seen gives a TIMEOUT. -/
def execTdcWindowEnd (u : Unit40) (s : State) : Host.Outcome State Fault Refusal :=
  if (s.tdc u).armed then .next (s.tdcEnd u) else .next s

/-- TDC_LATE (R126). -/
def execTdcLate (ch : Chan) (s : State) : Host.Outcome State Fault Refusal := .next (s.tdcLate ch)

/-- The Raman samples of shot i are accumulated (R137, R138). -/
def State.traceRaman (s : State) (ch : Nat) (i : BitVec 48) (outs : List (Array Int)) (vs : List (Array Bool)) : State :=
  match (s.ce ch).ramans with
  | [] => s
  | a :: rest => if a.index = i then State.ramanShot (s.setCe ch { s.ce ch with ramans := rest }) ch a outs vs else s

/-- The record of shot i has taken its trace: the gauge words are formed once its launch offset is known. Where the input buffer
filled before, the held value is used; a shorter trace waits for the unit's result (R126). -/
def State.traceRecord (s : State) (ch : Nat) (i : BitVec 48) (outs : List (Array Int)) (vs : List (Array Bool)) : State :=
  let mine (r : RecSt) : Bool := r.lacksTrace && decide (r.index = i)
  match (s.ce ch).recs.find? mine with
  | none => s
  | some r =>
    if r.q.isSome then s.traceGauges ch i outs vs
    else if 8192 ≤ r.samples then (s.tdcLateFor ch i).traceGauges ch i outs vs
    else s.setCe ch { s.ce ch with recs := updFirst mine (fun x => { x with span := some (outs, vs) }) (s.ce ch).recs }

/-- The samples that the lanes of a stopped head took past the end of its last period are clipped and saturated like any others
(R78, R80, R93). -/
def State.tailCounts (s : State) (ch : Nat) (raw : ChCodes) : State :=
  match (s.lane ch).tail with
  | none => s
  | some ticks =>
    let per := (s.lane ch).prev
    let cs := codesOf raw
    let outs := laneOuts per cs
    let at' (p t : Nat) : Nat := if coherent p then t else (t + 1) / 2
    let still := decide ((s.lane ch).cur.index = per.index)
    let past (p n : Nat) : Bool := decide (at' p ticks ≤ n) && (still || decide (n < at' p per.ticks)) && per.on.getLsbD p
    let s := s.setLane ch { s.lane ch with tail := none }
    let sats (p : Nat) : Nat := (((nth outs p []).zipIdx).filter fun x => past p x.2 && decide (sat x.1 16 ≠ x.1)).length
    let s := (List.range 6).foldl (fun t p =>
      (t.count (Reg.laneClipCnt ch p)
        ((List.range (spanLen (nth cs p #[]))).filter fun (n : Nat) => past p n && clips p (codeAt (nth cs p #[]) n)).length).count
          (Reg.laneSatCnt ch p) (sats p)) s
    if (List.range 6).any fun p => decide (sats p ≠ 0) then s.fault (Reg.laneFault ch) (2 ^ 16) else s

/-- The sums of a polarisation with the samples of one window of a span, but those of V or C (R384). -/
def iqAdd (x : SpanOut) (pol first trace : Nat) (acc : IqSums) : IqSums :=
  let gi := nth x.g (2 * pol) #[]
  let gq := nth x.g (2 * pol + 1) #[]
  let used (l : List (Array Bool)) (n : Nat) : Bool := (nth l (2 * pol) #[]).getD n true || (nth l (2 * pol + 1) #[]).getD n true
  (((List.range trace).map (first + ·)).filter fun n => !used x.v n && !used x.c n).foldl (fun t n =>
    let i := gi.getD n 0
    let q := gq.getD n 0
    { si := t.si + i, sq := t.sq + q, sii := t.sii + i * i, sqq := t.sqq + q * q, siq := t.siq + i * q, n := t.n + 1 }) acc

/-- The statistics tap takes a launched shot's trace windows for the IQ step of its channel, until IQ_SHOTS shots are in (R384). -/
def State.iqTap (s : State) (ch : Nat) (i : BitVec 48) (x : SpanOut) : State :=
  match nth s.quince.lanes (ch / 8) none, (s.ce ch).recs.find? (fun r => decide (r.index = i)) with
  | some st, some r =>
    if st.ch = ch ∧ st.iq ∧ !r.skipped ∧ st.tapShots < s.fld Reg.calIqCfg 31 16 then
      let m := trainLen r.train
      let all (pol : Nat) (acc : IqSums) : IqSums :=
        (List.range m).foldl (fun t k => iqAdd x pol (24 + k * r.period / m) r.trace t) acc
      let y := { st with tapX := all 0 st.tapX, tapY := all 1 st.tapY, tapShots := st.tapShots + 1 }
      { s with quince := { s.quince with lanes := setNth s.quince.lanes (ch / 8) (some y) } }
    else s
  | _, _ => s

/-- TRACE_WINDOW_END (R93, R123): the trace windows of the oldest shot that waits for it are over: its record's gauge words are formed
where it has a record, and its Raman samples are accumulated where the accumulators run; raw holds the six lanes' codes from
t_shot on. With it end the samples that the lanes took past the last period of a stopped head, whether or not an engine takes them. -/
def execTraceWindowEnd (ch : Chan) (raw : ChCodes) (s : State) : Host.Outcome State Fault Refusal :=
  let last := (s.lane ch).prev.index
  let ends := match (s.ce ch).traceDue with | none => true | some i => decide (last.toNat ≤ i.toNat)
  let t := if ends then s.tailCounts ch raw else s
  match (s.ce ch).traceDue with
  | none => .next t
  | some i =>
    if (s.lane ch).tail.isSome ∧ last.toNat < i.toNat then .next t else
    let x := s.spanOuts ch i raw
    let s := t
    .next (((s.iqTap ch i x).traceRaman ch i x.out x.v).traceRecord ch i x.out x.v)

/-! ## Batches and totals -/

/-- The first word of an engine's totals region (R143). -/
def State.totBase (s : State) (ch : Nat) : Nat := s.fld (Reg.ceTotBase ch) 27 0 * 256

/-- A flush starts: FLUSH_SEQ of its totals region advances, to an odd value but where it was found odd (DESIGN CHOICE, log entry 106); a poisoned
FLUSH_SEQ makes the flush replace the totals and counts from 0 (R140 to R142). -/
def State.flushStart (s : State) (ch : Nat) : State :=
  let a := s.totBase ch + 3
  let ((w, bad), s) := s.dramRead a
  let v := ((if bad then 0 else field w 31 0) + 1) % 2 ^ 32
  let x := s.ce ch
  let s := s.setCe ch { x with flushSeq := BitVec.ofNat 32 v, flush := x.flush.map fun f => (f.1, f.2 || bad) }
  let s := if bad then s.fault (Reg.ceFault ch) (2 ^ 6) else s
  s.dramWrite a (BitVec.ofNat 72 v) false

/-- FLUSH_SEQ at the end of a flush: it advances again, from the value the flush wrote where the word has been poisoned since (R141). -/
def State.flushSeqEnd (s : State) (ch : Nat) : State :=
  let a := s.totBase ch + 3
  let ((w, bad), s) := s.dramRead a
  s.dramWrite a (BitVec.ofNat 72 ((if bad then (s.ce ch).flushSeq.toNat + 1 else field w 31 0 + 1) % 2 ^ 32)) false

/-- The shots of a batch whose traces are not over. -/
def CeSt.coveredBy (x : CeSt) (b : BatchSt) (last : Nat) : List RamanShot :=
  x.ramans.filter fun a => decide (b.first.toNat ≤ a.index.toNat) && decide (a.index.toNat ≤ last)

/-- The open batch closes, its last covered index being last: its flush starts, or it is discarded while a flush still runs
(R140). -/
def State.batchClose (s : State) (ch : Nat) (last : BitVec 48) : State :=
  match (s.ce ch).batch with
  | none => s
  | some b =>
    if (s.ce ch).flush.isSome then
      let x := s.ce ch
      let open' := x.coveredBy b last.toNat
      ((s.setCe ch { x with batch := none, ramans := x.ramans.filter fun a => !open'.contains a }).count (Reg.ceExclCnt ch)
        (b.shots + open'.length)).fault (Reg.ceFault ch) (2 ^ 5)
    else
      let s := s.setCe ch { s.ce ch with
        batch := none, flush := some ({ b with last := last }, (s.ce ch).replace), replace := false }
      (s.setRbit (Reg.ceStatus ch) 3 true).flushStart ch

/-- A batch opens at index i in the bank no flush holds, its bins cleared; p is the period at that boundary, and CLEAN keeps to it while the batch
lasts (R137 to R139, DESIGN CHOICE, log entry 106). -/
def State.batchOpen (s : State) (ch : Nat) (i : BitVec 48) (p : Nat) (ps : ProbeSet) : State :=
  let ce := s.ce ch
  let n := trainLen ps.train
  let nb := min (ce.count + (lrOf ps.len + 1) / 2 - ce.ramanOfs) 65536
  let clean := if n = 1 then nb else min nb ((p / n + 1) / 2 - ce.ramanOfs)
  let bank := match ce.flush with | some (b, _) => 1 - b.bank | none => 1 - ce.bank
  let s := { s with raman := s.raman.dropRange (ramanKey ch bank 0 0) (ramanKey ch bank 0 0 + 131072) }
  s.setCe ch { ce with
    batch := some { j := i.toNat / 256, first := i, last := i, shots := 0, clean := clean, nb := nb, bank := bank }
    bank := bank }

/-- Add one bank's bins to the totals from address a, or write them afresh (R140, R142). -/
def State.flushBins (ch bank st a : Nat) (old : List (W72 × Bool)) (fresh : Bool) : Nat → Nat → State → State
  | 0, _, s => s
  | n + 1, b, s =>
    let v := s.raman.get 0 (ramanKey ch bank st b)
    let t : W72 := if fresh then 0 else (nth old b (0, false)).1
    State.flushBins ch bank st a old fresh n (b + 1) (s.dramWrite (a + b) (t + toW 72 v) false)

/-- FLUSH_DONE (R140 to R142): the batch enters the totals, which a poisoned word makes a replacing flush. No flush is done before
every shot of its batch has been added or excluded (DEDUCED, log entry 87). -/
def execFlushDone (ch : Chan) (s : State) : Host.Outcome State Fault Refusal :=
  match (s.ce ch).flush with
  | none => .next s
  | some (b, replace) =>
    if (s.ce ch).coveredBy b b.last.toNat ≠ [] then .next s else
    let a := s.totBase ch
    let (old0, s) := if replace then ([], s) else State.dramReadMany 8 a s
    let (oldA, s) := if replace then ([], s) else State.dramReadMany b.nb (a + 8) s
    let (oldB, s) := if replace then ([], s) else State.dramReadMany b.nb (a + 65544) s
    let ((_, badSeq), s) := s.dramRead (a + 3)
    let bad := badSeq || (old0 ++ oldA ++ oldB).any Prod.snd
    let s := if bad then s.fault (Reg.ceFault ch) (2 ^ 6) else s
    let fresh := replace || bad
    let s := s.dramWrite a (if fresh then BitVec.ofNat 72 b.first.toNat else (nth old0 0 (0, false)).1) false
    let s := s.dramWrite (a + 1) (BitVec.ofNat 72 b.last.toNat) false
    let shots := (if fresh then 0 else field (nth old0 2 (0, false)).1 31 0) + b.shots
    let s := s.dramWrite (a + 2) (BitVec.ofNat 72 (shots % 2 ^ 32)) false
    let s := s.dramWrite (a + 4) (BitVec.ofNat 72 (b.clean * 2 ^ 17 + b.nb)) false
    let s := if fresh then State.dramWriteMany [0, 0, 0] (a + 5) s else s
    let s := State.flushBins ch b.bank 0 (a + 8) oldA fresh b.nb 0 s
    let s := State.flushBins ch b.bank 1 (a + 65544) oldB fresh b.nb 0 s
    let s := s.flushSeqEnd ch
    .next ((s.setCe ch { s.ce ch with flush := none }).setRbit (Reg.ceStatus ch) 3 false)

/-- Write 1 to TOT_CLEAR: the next flush replaces the totals (R142). -/
def State.totClear (s : State) (ch : Nat) : State := s.setCe ch { s.ce ch with replace := true }

/-- TOT_CLEAR (R142). -/
def execTotClear (_q : Req) (ch : Chan) (s : State) : Host.Outcome State Fault Refusal := .next (if s.shut then s else s.totClear ch)

/-! ## The engine at a shot boundary -/

/-- What the boundary of a head hands to an engine. -/
structure EngineShot where
  index : BitVec 48
  stamp : W72
  launched : Bool
  gated : Bool
  settle : Bool
  timeStep : Bool
  unsync : Bool
  period : Nat
  mark : Nat
  trace : Nat
  probe : ProbeSet
  /-- A pending probe set took effect. -/
  newSet : Bool
  /-- A probe field changed that restarts the channel's totals (R142). -/
  changed : Bool

/-- The engine's part of a shot boundary: fields take effect, the replica is formed where needed, the Raman batch closes or opens,
and a gate-enabled channel's running engine opens the record of the shot (R24, R130, R136, R138, R140, R142). A channel that is not gate-enabled
accumulates nothing, whatever RAMAN_EN says, and RUNNING and RAMAN_RUN show the enables as of the last boundary, gate-enabled or not (DESIGN
CHOICE, log entry 106). -/
def State.engineBoundary (s : State) (h ch : Nat) (e : EngineShot) : State :=
  let old := s.ce ch
  let count := s.fld (Reg.ceGauges ch) 15 0
  let size := s.fld (Reg.ceFftCfg ch) 1 0
  let ramanOfs := s.fld (Reg.ceRamanCfg ch) 7 0
  let powered := s.lanePowered ch
  let run := s.rbit (Reg.ceCtrl ch) 0 && powered
  let raman := s.rbit (Reg.ceCtrl ch) 1 && powered
  let ramanWas := s.rbit (Reg.ceStatus ch) 1
  let restart := e.changed || decide (count ≠ old.count) || decide (ramanOfs ≠ old.ramanOfs)
  -- the batch that ends here
  let s := if ramanWas && (restart || !raman || decide (e.index.toNat % 256 = 0)) then s.batchClose ch (e.index - 1) else s
  let s := s.setCe ch { s.ce ch with
    count := count, size := size, outShift := s.fld (Reg.ceFftCfg ch) 13 8, ffc := s.fldS (Reg.ceFfc ch) 31 0
    alignOfs := s.fldS (Reg.ceAlignOfs ch) 23 0, ramanOfs := ramanOfs
    replace := (s.ce ch).replace || (restart && ramanWas) || (raman && !ramanWas) }
  let s := (s.setRbit (Reg.ceStatus ch) 0 run).setRbit (Reg.ceStatus ch) 1 raman
  let s := if e.newSet || decide (size ≠ old.size) || (old.reform && powered) then s.replicaForm h ch e.probe size else s
  let s := if raman && e.gated && (s.ce ch).batch.isNone then s.batchOpen ch e.index e.period e.probe else s
  let s := s.showBatch ch
  let s := if raman && e.gated && e.launched then
      s.setCe ch { s.ce ch with ramans := (s.ce ch).ramans ++ [⟨e.index, e.settle, ramanOfs⟩] } else s
  if run && e.gated then
    let r : RecSt := {
      index := e.index, stamp := e.stamp, skipped := !e.launched, settle := e.settle, timeStep := e.timeStep,
      unsync := e.unsync, train := e.probe.train, period := e.period, probe := e.probe, mark := e.mark,
      gaugeCount := count, trace := e.trace, spectrum := (s.ce ch).spectrum, specSize := (s.ce ch).specSize, er := (s.ce ch).er
      ffc := (s.ce ch).ffc, alignOfs := (s.ce ch).alignOfs, outShift := (s.ce ch).outShift }
    s.setCe ch { s.ce ch with recs := (s.ce ch).recs ++ [r] }
  else s

/-- The status words of the period that closed join the record of its shot (R83, R136). -/
def State.recordWords (s : State) (ch : Nat) : State :=
  let x := s.lane ch
  let p (r : RecSt) : Bool := decide (r.index = x.prev.index) && r.words.isNone
  s.setCe ch { s.ce ch with recs := updFirst p (fun r => { r with words := some x.words }) (s.ce ch).recs }

/-- A shot in flight at a trip is treated as skipped in full (R467). -/
def State.recordTripped (s : State) (ch : Nat) (i : BitVec 48) : State :=
  s.setCe ch { s.ce ch with
    ramans := (s.ce ch).ramans.filter fun a => decide (a.index ≠ i)
    held := (s.ce ch).held.filter fun a => decide (a.1 ≠ i)
    recs := (s.ce ch).recs.map fun r => if r.index = i then { r with skipped := true, gauges := none, span := none, vzero := 0 } else r }

/-- The open record of a launched shot carries PROBE_SETTLE, as do its Raman samples: a shot before it turned out skipped (R65, R467). -/
def State.recordSettles (s : State) (ch : Nat) (i : BitVec 48) : State :=
  s.setCe ch { s.ce ch with
    ramans := (s.ce ch).ramans.map fun a => if a.index = i then { a with settle := true } else a
    recs := (s.ce ch).recs.map fun r => if r.index = i ∧ !r.skipped then { r with settle := true } else r }

/-- The open record of a shot carries TIME_STEP (R104). -/
def State.recordStepped (s : State) (ch : Nat) (i : BitVec 48) : State :=
  s.setCe ch { s.ce ch with recs := (s.ce ch).recs.map fun r => if r.index = i then { r with timeStep := true } else r }

/-- A lane domain is gated: the engine loses its state at the boundary its channel stops (R25, DEDUCED, log entry 14). -/
def State.engineLost (s : State) (ch : Nat) : State :=
  let s := s.setCe ch { (s.ce ch) with
    held := [], recs := [], batch := none, flush := none, ramans := [], replace := true, spectrum := [], er := 0, reform := true }
  ((s.setFld (Reg.ceStatus ch) 3 0 0).setReg (Reg.ceReplica ch) 0).setReg (Reg.ceBatch ch) 0

/-! ## Writes of the CE registers -/

/-- Whether a write that leaves v in a CE register is refused, beyond the ranges of its fields and the totals' place
(R124, R129, R135, R142, R143). -/
def ceCheck (s : State) (ch off : Nat) (v : W32) : Option Cause :=
  let h := ch / 8
  let busy := s.rbit (Reg.ceCtrl ch) 1 || s.rbit (Reg.ceStatus ch) 3
  match off with
  | 0x8 =>
    let c := field v 15 0
    if c = 0 ∨ 62720 < c then some .range
    else if !(s.gateEn h).getLsbD (ch % 8) then none
    else
      let cs := setNth (s.counts h) (ch % 8) c
      if (s.head h).sets.any fun ps => (s.periods h).any fun p => !(gapOk p ps (s.gateEn h) cs && rateOk p ps cs (ch % 8)) then some .range
      else none
  | 0xC =>
    if (s.head h).sets.any fun ps => 1024 * 2 ^ field v 1 0 < 2 * lrOf ps.len then some .range else none
  | 0x24 =>
    if s.rbit (Reg.ceCtrl ch) 0 then some .busy
    else if 65536 < field v 15 0 + s.fld (Reg.ceOutLen ch) 16 0 then some .range else none
  | 0x28 =>
    if s.rbit (Reg.ceCtrl ch) 0 then some .busy
    else if 65536 < field v 16 0 + s.fld (Reg.ceOutBase ch) 15 0 then some .range else none
  | 0x30 => if s.fld (Reg.ceOutLen ch) 16 0 < (s.reg (Reg.ceOutWp ch) - v).toNat then some .range else none
  | 0x34 | 0x38 => if busy then some .busy else none
  | _ => none

/-- CTRL.EN goes from 0 to 1: the ring counts start at 0 and no q is held (R126, R135). -/
def State.engineEnabled (s : State) (ch : Nat) : State :=
  ((s.setReg (Reg.ceOutWp ch) 0).setReg (Reg.ceOutRp ch) 0).setCe ch
    { s.ce ch with written := 0, held := [], dropped := false, out := [] }

/-- OUT_RP_WRITE (R135) as a field write: it frees consumed words or is refused with cause RANGE. -/
def State.outRpWrite (s : State) (ch : Nat) (v : W32) (q : Req) : State :=
  match ceCheck s ch 0x30 v with
  | some c => s.err (ceBase ch) c 0x30 q
  | none => s.setReg (Reg.ceOutRp ch) v

/-- OUT_RP_WRITE (R135). -/
def execOutRpWrite (q : Req) (ch : Chan) (v : W32) (s : State) : Host.Outcome State Fault Refusal :=
  .next (if s.shut then s else s.outRpWrite ch v q)

end Sys2Proof.Machine
end

