-- ==== Sys2Proof/Machine/TimeBase.lean ====
section
/-!
DEFINITION. The time base (R101 to R109): local time, its rate and its steps, the reference source with its check, loss and
switch, and what a local second does to the heads in PPS mode (R100).
-/
namespace Sys2Proof.Machine

/-- The block base of the time base. -/
def timeBase : Nat := 0x30000

/-- The units of local time in 2^32 seconds, 2^-32 ns each (R106, R107). -/
def timeMod : Nat := 2 ^ 32 * 1000000000 * 2 ^ 32

/-- The units of local time in a second. -/
def secondLen : Nat := 1000000000 * 2 ^ 32

/-- What local time advances by at one REFCLK cycle (R107). -/
def State.timeInc (s : State) : Nat := (10 * 2 ^ 32 + s.fldS (Reg.timeRate) 31 0).toNat

/-- Local time after n REFCLK cycles (R107). -/
def State.advance (s : State) (n : Nat) : State :=
  { s with time := { s.time with now := (s.time.now + n * s.timeInc) % timeMod, up := s.time.up + n } }

/-- REFCLK cycles until the seconds field advances next. -/
def State.toSecond (s : State) : Nat :=
  let r := secondLen - s.time.now % secondLen
  if s.timeInc = 0 then 0 else (r + s.timeInc - 1) / s.timeInc

/-! ## Running heads -/

/-- The scheduler of a head runs, in a device that senses (R93, R443). -/
def State.schedOn (s : State) (h : Nat) : Bool := s.rbit (Reg.shotCfg h) 0 && !s.shut

/-- The lowest-numbered head whose scheduler runs (R104). -/
def State.lowestOn (s : State) : Option Nat := (List.range 4).find? s.schedOn

/-- The open records of a head's current shot carry TIME_STEP (R104). -/
def State.stepShot (s : State) (h : Nat) : State :=
  forEach (List.range 8) (fun j t => t.recordStepped (8 * h + j) (s.sched h).index) s

/-- The next shot of a head carries TIME_STEP (R104, R108). -/
def State.stepNext (s : State) (h : Nat) : State := s.setSched h { s.sched h with timeStep := true }

/-! ## portState codes (R410) -/

def pInit : Nat := 1
def pFaulty : Nat := 2
def pDisabled : Nat := 3
def pListening : Nat := 4
def pPreMaster : Nat := 5
def pMaster : Nat := 6
def pPassive : Nat := 7
def pUncalibrated : Nat := 8
def pSlave : Nat := 9

/-! ## SYNCED (R411) -/

/-- SYNC.SYNCED is written. -/
def State.setSynced (s : State) (b : Bool) : State := s.setRbit Reg.timeSync 0 b

/-- A port follows a master. -/
def followsMaster (st : Nat) : Bool := decide (st = pSlave) || decide (st = pUncalibrated)

/-- With no port following a master, MASTER and PASSIVE write SYNCED from SRC_STATUS.ACTIVE (R411). -/
def State.masterSynced (s : State) : State :=
  let st (n : Nat) : Nat := (s.ptp n).state
  if followsMaster (st 0) || followsMaster (st 1) then s
  else if [st 0, st 1].any fun x => decide (x = pMaster) || decide (x = pPassive) then s.setSynced (s.rbit Reg.timeSrcStatus 0)
  else s

/-! ## Sources -/

/-- The switch of source that waits is made, with further faults of its cycle; the boundary of one head may carry it (R40, R104). -/
def State.switchSource (s : State) (at' : Option Nat) (faults : Nat := 0) : State :=
  match s.time.switchTo with
  | none => s
  | some ocxo =>
    let s := { s with time := { s.time with switchTo := none } }
    let s := (s.setRbit Reg.timeSrcStatus 0 ocxo).setRbit Reg.timeSrcStatus 2 false
    let s := s.fault Reg.timeFault (1 ||| faults)
    forEach (List.range 4) (fun h t =>
      if at' = some h then t.stepNext h else if t.schedOn h then t.stepShot h else t) s.masterSynced

/-- A switch is asked for: at once where no scheduler runs, else at the next boundary of the lowest running head; the faults of its cycle set
together (R40, R104). -/
def State.askSwitch (s : State) (ocxo : Bool) (faults : Nat := 0) : State :=
  let s := { s with time := { s.time with switchTo := some ocxo } }
  if s.lowestOn.isNone then s.switchSource none faults else s.fault Reg.timeFault faults

/-- The OCXO_RDY pin and the presence of REFIN as they stand (R102). -/
def State.setOcxo (s : State) (rdy refin : Bool) : State :=
  (s.setRbit Reg.timeSrcStatus 4 rdy).setRbit Reg.timeSrcStatus 5 refin

/-- OCXO_CHECK_START (R102): the check starts where all its conditions hold; else the request waits. -/
def execOcxoCheckStart (rdy refin : Bool) (s : State) : Host.Outcome State Fault Refusal :=
  let s := s.setOcxo rdy refin
  let go := !s.shut && s.rbit Reg.timeSrcCtrl 0 && s.rbit Reg.timeSrcPolicy 0 && rdy && refin && !s.rbit Reg.timeSrcStatus 0
  .next (s.when go (·.setRbit Reg.timeSrcStatus 1 true))

/-- OCXO_CHECK_DONE (R102): FCHECK takes the error of the count; within 2,000 ppb the switch is asked for. -/
def execOcxoCheckDone (count : Nat) (s : State) : Host.Outcome State Fault Refusal :=
  if !s.rbit Reg.timeSrcStatus 1 then .next s
  else
    let e : Int := ((count : Int) - 20000000) * 50
    let s := (s.setReg Reg.timeFcheck (toW 32 e)).setRbit Reg.timeSrcStatus 1 false
    .next (if e.natAbs ≤ 2000 then s.askSwitch true else s.fault Reg.timeFault 4)

/-- OCXO_LOSS (R102, R103): a check is abandoned; the active OCXO is lost into holdover and the crystal is asked for. -/
def execOcxoLoss (rdy refin : Bool) (s : State) : Host.Outcome State Fault Refusal :=
  let s := s.setOcxo rdy refin
  if rdy && refin || s.shut then .next s
  else
    let s := s.setRbit Reg.timeSrcStatus 1 false
    if s.rbit Reg.timeSrcStatus 0 && !s.rbit Reg.timeSrcStatus 2 then
      let s := s.setRbit Reg.timeSrcStatus 2 true
      let s := if s.rbit Reg.timeSrcPolicy 1 then s else s.setRbit Reg.timeSrcCtrl 0 false
      .next (s.askSwitch false 2)
    else if s.time.switchTo = some true then .next { s with time := { s.time with switchTo := none } }
    else .next s

/-- SOURCE_SWITCH_TIMEOUT (R104): a switch that a loss forced is made 1 ms after it. -/
def execSourceSwitchTimeout (s : State) : Host.Outcome State Fault Refusal :=
  .next (if s.rbit Reg.timeSrcStatus 2 then s.switchSource none else s)

/-- REF_PLL_UNLOCK (R101): the REF PLL loses lock. -/
def execRefPllUnlock (s : State) : Host.Outcome State Fault Refusal :=
  if s.shut then .next s else .next (if s.rbit Reg.timeSrcStatus 3 then (s.setRbit Reg.timeSrcStatus 3 false).fault Reg.timeFault 8 else s)

/-- REF_PLL_RELOCK (R101): the REF PLL has lock. -/
def execRefPllRelock (s : State) : Host.Outcome State Fault Refusal :=
  if s.shut then .next s else .next (s.setRbit Reg.timeSrcStatus 3 true)

/-- A write of SRC_CTRL: REQ at 0 abandons a check and a switch to the OCXO, and asks for the crystal (R102, R121). -/
def State.srcCtrlWritten (s : State) : State :=
  if s.rbit Reg.timeSrcCtrl 0 then s
  else
    let s := s.setRbit Reg.timeSrcStatus 1 false
    let s := if s.time.switchTo = some true then { s with time := { s.time with switchTo := none } } else s
    if s.rbit Reg.timeSrcStatus 0 && s.time.switchTo.isNone then s.askSwitch false else s

/-- A write of SRC_POLICY: a check whose ALLOW_OCXO goes to 0 ends, and the request waits (R102). -/
def State.srcPolicyWritten (s : State) : State := if s.rbit Reg.timeSrcPolicy 0 then s else s.setRbit Reg.timeSrcStatus 1 false

/-! ## PPS heads -/

/-- A head is in PPS mode and its boundaries occur (R100). -/
def State.ppsOn (s : State) (h : Nat) : Bool := decide ((s.sched h).mode = 2) && (s.sched h).started

/-- A head enters ALIGN_WAIT; a correction that waits is dropped (R100). -/
def State.alignWait (s : State) (h : Nat) : State :=
  ((s.setSched h { s.sched h with extra := 0, extraIn := 0 }).setRbit (Reg.shotStatus h) 3 true).setRbit (Reg.shotStatus h) 2 false

/-- The heads of a test enter ALIGN_WAIT and lose alignment in one cycle (R40, R100). -/
def State.alignLost (s : State) (lost : Nat → Bool) : State :=
  (forEach ((List.range 4).filter lost) (fun h t => t.alignWait h) s).fault Reg.shotFault (bitsToNat ((List.range 4).map lost))

/-- Ticks by which a period may be shortened (R100): NG less 1,200, and what the gates of a train leave. -/
def State.shortenMax (s : State) (h : Nat) : Int :=
  let x := s.head h
  let ps := x.act
  let p := s.period h
  let counts := (List.range 8).map fun j => (s.ce (8 * h + j)).count
  let ng : Int := (p : Int) - 24 - traceTicks ps x.gateEn counts - 1200
  let n := trainLen ps.train
  let last : Int := (p : Int) - ((n - 1) * p / n : Nat)
  let need : Int := (List.range 8).foldl (fun m j =>
    if x.gateEn.getLsbD j then max m ((gateEdge (nth ps.closes j 0) - gateEdge (nth ps.opens j 0) + 512 + 63) / 64) else m) 0
  max 0 (if n = 1 then ng else min ng (last - need))

/-- A head in PPS mode forms an error beyond its window at a local second (R100). -/
def State.ppsLost (s : State) (h : Nat) (e : Int) : Bool :=
  s.ppsOn h && !s.rbit (Reg.shotStatus h) 3 && decide (((s.sched h).alignWin : Int) < e.natAbs)

/-- How many boundaries of a head fall before the period that ends at the boundary due e ticks after its second plus OFFSET begins,
from the local second on. A period in progress is 0, and its length is its next boundary's own; a boundary that has fallen already
leaves the next period to take the change (R100, DEDUCED, log entry 37). -/
def State.ppsAhead (s : State) (h : Nat) (e : Int) : Nat :=
  let due := ((s.sched h).offset : Int) + e
  if due ≤ 0 then 1 else due.toNat / s.period h

/-- What a head in PPS mode does with its error e at a local second, where it keeps its alignment (R100). -/
def State.ppsSecond (s : State) (h : Nat) (e : Int) : State :=
  if !s.ppsOn h || s.rbit (Reg.shotStatus h) 3 || s.ppsLost h e then s
  else
    let s := s.setRbit (Reg.shotStatus h) 2 true
    s.setSched h { s.sched h with
      extra := if e ≤ 0 then -e else -(min e (s.shortenMax h))
      extraIn := if e = 0 then 0 else s.ppsAhead h e }

/-- The seconds field has advanced: each PPS head takes its error, and the local PPS reaches the units that name it (R100, R117). -/
def State.secondPassed (s : State) (e0 e1 e2 e3 : Int) : State :=
  let lost (h : Nat) : Bool := s.ppsLost h (nth [e0, e1, e2, e3] h 0)
  let t := (((s.ppsSecond 0 e0).ppsSecond 1 e1).ppsSecond 2 e2).ppsSecond 3 e3
  (t.alignLost lost).sourceEdge 8 0

/-- LOCAL_SECOND (R100, R107, R117): local time reaches its next second. -/
def execLocalSecond (e0 e1 e2 e3 : Int) (s : State) : Host.Outcome State Fault Refusal :=
  .next (if s.shut then s else (s.advance s.toSecond).secondPassed e0 e1 e2 e3)

/-- The error of a head at the present local second, from the places of its boundaries: the boundary due nearest to the second plus OFFSET
less that instant, in ticks (R100). -/
def State.ppsError (s : State) (h : Nat) : Int :=
  let x := s.sched h
  let p := max 1 (s.period h)
  let d := ((x.tickAt + x.ticks : Nat) - (2 * s.time.up + x.offset : Nat) : Int) % p
  if 2 * d ≤ p then d else d - p

/-- One REFCLK cycle passes, and with it perhaps a local second (R100, R107, R117). -/
def State.cycle (s : State) : State :=
  let t := s.advance 1
  if s.time.now / secondLen = t.time.now / secondLen then t
  else t.secondPassed (t.ppsError 0) (t.ppsError 1) (t.ppsError 2) (t.ppsError 3)

/-- ALIGN_WAIT_END (R100): the lengthened period ends and boundaries resume. -/
def execAlignWaitEnd (h : Head) (s : State) : Host.Outcome State Fault Refusal :=
  .next (if s.rbit (Reg.shotStatus h) 3 then
      (s.setRbit (Reg.shotStatus h) 3 false).setRbit (Reg.shotStatus h) 2 true
    else s)

/-! ## Steps -/

/-- A committed step of local time, in units of 2^-10 ns (R108); while a PTP port is SLAVE it clears SYNCED (R411). -/
def State.timeStep (s : State) (v : W72) : State :=
  let now := (((s.time.now : Int) + v.toInt * 2 ^ 22) % timeMod).toNat
  let s := { s with time := { s.time with now := now } }
  let s := s.setWreg Reg.timeStep v
  let s := if [0, 1].any (fun n => decide ((s.ptp n).state = 9)) then s.setRbit Reg.timeSync 0 false else s
  let s := forEach (List.range 4) (fun h t => if t.schedOn h then t.stepNext h else t) s
  s.alignLost s.ppsOn

end Sys2Proof.Machine
end

