-- ==== Sys2Proof/Machine/Clusters.lean ====
section
/-!
DEFINITION. Clusters and their cores as the outside sees them (R193 to R221): service of a channel, vendor roles, core commands,
messages and the host queues, power, and the record an engine writes into the ring.
-/
namespace Sys2Proof.Machine

/-- The block base of cluster cl. -/
def clBase (cl : Nat) : Nat := 0x600000 + 0x10000 * cl

/-- The number of core c of cluster cl. -/
def coreOf (cl c : Nat) : Nat := 8 * cl + c

/-- The DSP domain of a cluster is powered (R194, R222). -/
def State.dspPowered (s : State) (cl : Nat) : Bool := s.rbit (Reg.clStatus cl) 16

/-- The channel a cluster serves (R218). -/
def State.served (s : State) (cl : Nat) : Option Nat :=
  if s.rbit (Reg.clAssign cl) 8 then some (s.fld (Reg.clAssign cl) 4 0) else none

/-- The cluster that serves a channel (R218). -/
def State.clusterOf (s : State) (ch : Nat) : Option Nat := (List.range 32).find? fun cl => decide (s.served cl = some ch)

/-- A core holds a user role (R210, R220). -/
def CoreSt.user (x : CoreSt) : Bool := decide (x.mode ≠ .free) && !x.vendor

/-- Any vendor role is loaded on a cluster (R197). -/
def State.vendorOn (s : State) (cl : Nat) : Bool := (List.range 8).any fun c => (s.core (coreOf cl c)).vendor

/-- Any core of the device holds a vendor role (R193). -/
def State.anyVendor (s : State) : Bool := (List.range 32).any s.vendorOn

/-! ## Messages -/

/-- The fields of a header (R215). -/
def msgDcl (m : Msg) : Nat := field m.h 71 67
def msgDcore (m : Msg) : Nat := field m.h 66 64
def msgRole (m : Msg) : Nat := field m.h 63 60
def msgEpoch (m : Msg) : Nat := field m.h 59 48
def msgKind (m : Msg) : Nat := field m.h 47 46
def msgScl (m : Msg) : Nat := field m.h 45 41
def msgScore (m : Msg) : Nat := field m.h 40 38
def msgHost (m : Msg) : Bool := m.h.getLsbD 17

/-- A header with what hardware fills at a send: SKIND, the sender's fields, REASON 0, BOUNCED 0, and 0 in its zero bit (R12, R215). -/
def sendHeader (h : W72) (kind scl score role epoch : Nat) : W72 :=
  withBit (withField (withField h 47 19 (kind * 2 ^ 27 + scl * 2 ^ 22 + score * 2 ^ 19 + role * 2 ^ 15 + epoch * 2 ^ 3)) 18 18 0) 16 false

/-- A message marked bounced with a reason (R216). -/
def bounced (m : Msg) (reason : Nat) : Msg := { m with h := withBit (withField m.h 21 19 reason) 18 true }

/-- The reasons of R215. -/
def notRunning : Nat := 1
def badEpoch : Nat := 3

/-- HOST_OUT or HOST_BOUNCE of a cluster changes: the mailbox attention where one goes from empty to non-empty (R217). -/
def State.mailbox (s : State) (cl : Nat) (was : Bool) : State := if was then s.event (192 + cl) else s

/-- A message that failed its check goes back to its sender; one that the control processor sent through HOST_SEND goes where the
host's go (R199, R216, R217; DESIGN CHOICE, log entry 90). -/
def State.bounceBack (s : State) (m : Msg) (reason : Nat) : State :=
  let cl := msgScl m
  match msgKind m with
  | 0 => { s with returning := s.returning ++ [bounced m reason] }
  | 1 | 2 =>
    let x := s.cluster cl
    if 8 ≤ x.hostBnc.length then s.fault (Reg.clFault cl) (2 ^ 10)
    else (s.setCluster cl { x with hostBnc := x.hostBnc ++ [bounced m reason] }).mailbox cl (x.hostBnc = [])
  | 3 => (s.count (Reg.clNoteLost cl) 1).fault (Reg.clFault cl) (2 ^ 11)
  | _ => s

/-- The first failing check of a message at its destination core, or none (R216). -/
def State.msgFails (s : State) (m : Msg) : Option Nat :=
  let x := s.core (coreOf (msgDcl m) (msgDcore m))
  if !s.dspPowered (msgDcl m) || (x.mode ≠ .halted && x.mode ≠ .running) then some 1
  else if msgRole m ≠ x.role.toNat then some 2
  else if msgEpoch m ≠ x.epoch.toNat then some 3
  else if 16 ≤ x.inbox.length then some 4
  else none

/-- A message reaches its destination (R216, R217). -/
def State.deliver (s : State) (m : Msg) : State :=
  if msgHost m then
    let cl := msgScl m
    let x := s.cluster cl
    if 16 ≤ x.hostOut.length then s.bounceBack m 4
    else (s.setCluster cl { x with hostOut := x.hostOut ++ [m] }).mailbox cl (x.hostOut = [])
  else
    match s.msgFails m with
    | some r => s.bounceBack m r
    | none =>
      let c := coreOf (msgDcl m) (msgDcore m)
      s.setCore c { s.core c with inbox := (s.core c).inbox ++ [m] }

/-- Two messages go from one sender to one destination. -/
def sameWay (a b : Msg) : Bool :=
  decide (field a.h 47 38 = field b.h 47 38) && (msgHost a == msgHost b) &&
    (msgHost a || decide (field a.h 71 64 = field b.h 71 64))

/-- The first element of a list that satisfies a test, and the list without it. -/
def takeFirst {α : Type} (p : α → Bool) : List α → Option (α × List α)
  | [] => none
  | x :: r => if p x then some (x, r) else (takeFirst p r).map fun y => (y.1, x :: y.2)

/-- MESSAGE_ARRIVE (R216): a message on its way reaches its check, behind none of its sender to the same destination. -/
def execMessageArrive (i : Nat) (s : State) : Host.Outcome State Fault Refusal :=
  match s.fabric[i]? with
  | none => .next s
  | some m =>
    match takeFirst (sameWay m) s.fabric with
    | none => .next s
    | some (x, r) => .next (State.deliver { s with fabric := r } x)

/-- A bounced message reaches its sender's BOUNCE queue (R216). -/
def State.bounceArrive (s : State) (m : Msg) : State :=
  let cl := msgScl m
  let c := coreOf cl (msgScore m)
  let x := s.core c
  let s := s.count (Reg.clCoreBounceCnt cl (msgScore m)) 1
  if 8 ≤ x.bounce.length then
    (s.setCore c { x with sstat := x.sstat ||| 0x200 }).fault (Reg.clFault cl) (2 ^ 12)
  else s.setCore c { x with bounce := x.bounce ++ [m] }

/-- MESSAGE_BOUNCE (R216). -/
def execMessageBounce (i : Nat) (s : State) : Host.Outcome State Fault Refusal :=
  match s.returning[i]? with
  | none => .next s
  | some m =>
    match takeFirst (sameWay m) s.returning with
    | none => .next s
    | some (x, r) => .next (State.bounceArrive { s with returning := r } x)

/-! ## Roles -/

/-- A core takes a new life: registers cleared, mode, vendor, role and pc as given, EPOCH one on; its inbox bounces with a reason
and its BOUNCE queue empties (R200, R210, R214). -/
def State.renewCore (s : State) (c : Nat) (mode : CoreMode) (vendor : Bool) (role : BitVec 4) (pc reason : Nat) : State :=
  let x := s.core c
  let s := s.setCore c { mode := mode, vendor := vendor, role := role, epoch := x.epoch + 1, pc := pc }
  x.inbox.foldl (fun t m => t.bounceBack m reason) s

/-- A core goes FREE: ROLE 0 and EPOCH one on, its inbox bounces and its BOUNCE queue empties; its registers keep (R210, R214). -/
def State.releaseCore (s : State) (c : Nat) : State :=
  let x := s.core c
  let s := s.setCore c { x with mode := .free, vendor := false, role := 0, epoch := x.epoch + 1, inbox := [], bounce := [] }
  x.inbox.foldl (fun t m => t.bounceBack m notRunning) s

/-- The vendor roles the enables of a channel require, by core (R219). -/
def State.roleNeeds (s : State) (ch : Nat) : List (Nat × BitVec 4) :=
  (if s.vibEn ch then [(0, 1), (1, 1), (2, 2)] else []) ++
  (if s.vibEn ch && decide (s.bandEn ch ≠ 0) then [(3, 3), (4, 3)] else []) ++
  (if s.dtsEn ch || s.fuseEn ch || s.oddOfPair ch || s.zoneReads ch then [(5, 4)] else [])

/-- The vendor role that core c of a cluster needs, by the enables in force (R219, R220). -/
def State.needed (s : State) (cl c : Nat) : Option (BitVec 4) :=
  match s.served cl with
  | none => none
  | some ch => (s.roleNeeds ch).findSome? fun x => if x.1 = c then some x.2 else none

/-- The control processor loads and unloads the vendor roles of a cluster (R219). -/
def State.vendorLoad (s : State) (cl : Nat) : State :=
  if !s.dspPowered cl || !s.rbit Reg.sysPwrCtrl (cl / 16) then s
  else forEach (List.range 6) (fun c t =>
    let x := t.core (coreOf cl c)
    match t.needed cl c with
    | some r => if x.vendor || x.user then t else t.renewCore (coreOf cl c) .running true r 0 badEpoch
    | none => if x.vendor then t.renewCore (coreOf cl c) .free false 0 0 notRunning else t) s

/-- The roles of every cluster follow the enables. -/
def State.vendorLoadAll (s : State) : State := forEach (List.range 32) (fun cl t => t.vendorLoad cl) s

/-- A core of a list, on the cluster that serves a channel, holds a user role (R220). -/
def State.userHolds (s : State) (ch : Nat) (cores : List Nat) : Bool :=
  match s.clusterOf ch with
  | none => false
  | some cl => cores.any fun c => (s.core (coreOf cl c)).user

/-- The ring of a channel's engine overlaps the vendor region (R197). -/
def State.ringInVendor (s : State) (ch : Nat) : Bool :=
  decide (s.fld (Reg.ceOutBase ch) 15 0 < 0x4000) && decide (s.fld (Reg.ceOutLen ch) 16 0 ≠ 0)

/-! ## The owned DMA channels (R312) -/

/-- The owner of a channel: host, vendor pipeline or zone engine (R312). -/
def State.dmaOwner (s : State) (n : Nat) : Nat :=
  if 56 ≤ n ∧ n ≤ 61 ∧ s.anyVendor then 1 else if 62 ≤ n ∧ s.rbit Reg.zoneCtrl 1 then 2 else 0

/-- Any channel is owned by other than the host. -/
def State.dmaOwned (s : State) : Bool := s.anyVendor || s.rbit Reg.zoneCtrl 1

/-- The host runs one of the channels from a to b (R312). -/
def State.dmaHostRuns (s : State) (a b : Nat) : Bool :=
  (List.range (b + 1 - a)).any fun i => (s.dma (a + i)).desc.isSome && decide (s.dmaOwner (a + i) = 0)

/-- A vendor enable of a channel is refused where a cluster serves it: the ring of its engine lies in the vendor region, or, where
the enable loads a role on a powered cluster, the host runs a DMA channel that the vendor pipeline would own (R197, R312). -/
def State.vendorBlocked (s : State) (ch : Nat) (loads : Bool) : Bool :=
  match s.clusterOf ch with
  | some cl => s.ringInVendor ch || (loads && s.dspPowered cl && s.dmaHostRuns 56 61)
  | none => false

/-- VENDOR_RELOAD (R211, R213): a core that holds a vendor role faults; the vendor roles of its cluster are loaded again and the chains of its
channel restart. -/
def execVendorReload (c : Core) (s : State) : Host.Outcome State Fault Refusal :=
  let cl := c.val / 8
  if !(s.core c).vendor then .next s
  else
    let s := s.fault (Reg.clFault cl) (2 ^ (c.val % 8))
    let s := forEach (List.range 8) (fun c t =>
      let x := t.core (coreOf cl c)
      if x.vendor then t.renewCore (coreOf cl c) .running true x.role 0 badEpoch else t) s
    let s := s.fault (Reg.clFault cl) (2 ^ 8)
    match s.served cl with
    | none => .next s
    | some ch => .next (s.setChain ch { s.chain ch with restart := true })

/-! ## Core commands (R210) -/

/-- The offset of CORE[c].CTRL. -/
def coreCtrlOff (c : Nat) : Nat := 0x400 + 0x80 * c

/-- A core halts: the instructions it has issued complete first, loads included (R250, DEDUCED, log entry 91). -/
def State.haltCore (s : State) (c : Nat) : State :=
  let x := s.core c
  let t := (x.ready.cells.map Prod.snd).foldl max x.cycle
  (s.setCore c { x with mode := .halted, cycle := t, ready := .empty }).count (Reg.clCoreCycles (c / 8) (c % 8)) (t - x.cycle)

/-- A write that leaves v in CORE[c].CTRL; a user core that is released goes to the vendor role that needs it, where one does (R210,
R219). -/
def State.coreCtrlWrite (s : State) (cl c : Nat) (v : W32) (q : Req) : State :=
  let x := s.core (coreOf cl c)
  let role := BitVec.ofNat 4 (field v 11 8)
  let cmds := ((List.range 4).filter fun i => bitOf v i).length
  let store (t : State) : State := t.setFld (Reg.clCoreCtrl cl c) 11 8 role.toNat
  let busy (b : Bool) (t : State) : State := if x.vendor || b then s.err (clBase cl) .busy (coreCtrlOff c) q else t
  if 1 < cmds then s.err (clBase cl) .range (coreCtrlOff c) q
  else if bitOf v 0 then
    busy (x.mode = .running || (s.needed cl c).isSome || !s.dspPowered cl)
      (if role.toNat < 8 then s.err (clBase cl) .range (coreCtrlOff c) q
       else (store s).renewCore (coreOf cl c) .running false role (s.fld (Reg.clCoreEntry cl c) 10 0) badEpoch)
  else if bitOf v 1 then busy (x.mode ≠ .running) ((store s).haltCore (coreOf cl c))
  else if bitOf v 2 then busy (x.mode ≠ .halted) ((store s).setCore (coreOf cl c) { x with mode := .running })
  else if bitOf v 3 then
    busy (x.mode = .free || x.mode = .running) (((store s).releaseCore (coreOf cl c)).vendorLoad cl)
  else store s

/-- The core that a number from 0 to 255 names: its cluster and its place. -/
def coreCl (c : Core) : Nat := c.val / 8
def corePl (c : Core) : Nat := c.val % 8

/-- CORE_COMMIT (R210). -/
def execCoreCommit (q : Req) (c : Core) (role : BitVec 4) (s : State) : Host.Outcome State Fault Refusal :=
  .next (if s.shut then s else s.coreCtrlWrite (coreCl c) (corePl c) (BitVec.ofNat 32 (role.toNat * 256 + 1)) q)

/-- The value a write of one command bit leaves in CTRL, the ROLE field as it stands. -/
def State.coreCmd (s : State) (c : Core) (bit : Nat) : W32 :=
  BitVec.ofNat 32 (s.fld (Reg.clCoreCtrl (coreCl c) (corePl c)) 11 8 * 256 + 2 ^ bit)

/-- CORE_HALT (R210). -/
def execCoreHalt (q : Req) (c : Core) (s : State) : Host.Outcome State Fault Refusal :=
  .next (if s.shut then s else s.coreCtrlWrite (coreCl c) (corePl c) (s.coreCmd c 1) q)

/-- CORE_RUN (R210). -/
def execCoreRun (q : Req) (c : Core) (s : State) : Host.Outcome State Fault Refusal :=
  .next (if s.shut then s else s.coreCtrlWrite (coreCl c) (corePl c) (s.coreCmd c 2) q)

/-- CORE_RELEASE (R210). -/
def execCoreRelease (q : Req) (c : Core) (s : State) : Host.Outcome State Fault Refusal :=
  .next (if s.shut then s else s.coreCtrlWrite (coreCl c) (corePl c) (s.coreCmd c 3) q)

/-! ## Host queues (R217) -/

/-- Write 1 to HOST_SEND. -/
def State.hostSend (s : State) (cl : Nat) (q : Req) : State :=
  let w (i : Nat) : W72 := s.wreg (Reg.clHostMsg cl i)
  if field (w 0) 71 67 ≠ cl then s.err (clBase cl) .range 0x50 q
  else { s with fabric := s.fabric ++ [{ h := sendHeader (w 0) (if q = .cp then 2 else 1) cl 0 0 0, w1 := w 1, w2 := w 2, w3 := w 3 }] }

/-- HOST_SEND (R217). -/
def execHostSend (q : Req) (cl : Clus) (s : State) : Host.Outcome State Fault Refusal := .next (if s.shut then s else s.hostSend cl q)

/-- The mailbox attention of a pop that leaves either queue non-empty (R217). -/
def State.popped (s : State) (cl : Nat) : State :=
  let x := s.cluster cl
  if x.hostOut ≠ [] ∨ x.hostBnc ≠ [] then s.event (192 + cl) else s

/-- Write 1 to HOST_OUT_POP. -/
def State.hostOutPop (s : State) (cl : Nat) : State :=
  let x := s.cluster cl
  if x.hostOut = [] then s else (s.setCluster cl { x with hostOut := x.hostOut.drop 1 }).popped cl

/-- Write 1 to HOST_BNC_POP. -/
def State.hostBncPop (s : State) (cl : Nat) : State :=
  let x := s.cluster cl
  if x.hostBnc = [] then s else (s.setCluster cl { x with hostBnc := x.hostBnc.drop 1 }).popped cl

/-- HOST_OUT_POP (R217). -/
def execHostOutPop (_q : Req) (cl : Clus) (s : State) : Host.Outcome State Fault Refusal := .next (if s.shut then s else s.hostOutPop cl)

/-- HOST_BNC_POP (R217). -/
def execHostBncPop (_q : Req) (cl : Clus) (s : State) : Host.Outcome State Fault Refusal := .next (if s.shut then s else s.hostBncPop cl)

/-! ## Live registers (R222) -/

/-- The code of a core's state (R222). -/
def CoreMode.code : CoreMode → Nat
  | .free => 0
  | .halted => 1
  | .running => 2
  | .fault => 3

/-- SSTAT with its live bits (R205). -/
def CoreSt.status (x : CoreSt) : BitVec 16 :=
  withBit (withBit x.sstat 8 (x.inbox ≠ [])) 7 (x.bounce ≠ [])

/-- STATUS of a cluster as read. -/
def State.clStatus (s : State) (cl : Nat) : W32 :=
  let x := s.cluster cl
  let bitsOf (p : CoreSt → Bool) : Nat := bitsToNat ((List.range 8).map fun c => p (s.core (coreOf cl c)))
  BitVec.ofNat 32 (b2n (x.hostOut ≠ [] || x.hostBnc ≠ []) * 2 ^ 17 + b2n (s.dspPowered cl) * 2 ^ 16 +
    bitsOf (fun y => y.mode = .running) * 2 ^ 8 + bitsOf CoreSt.vendor)

/-- The live value of a CL register, where it has one. -/
def State.clLive (s : State) (cl off : Nat) : Option W32 :=
  if off = 0x4 then some (s.clStatus cl)
  else if off = 0x54 then
    some (BitVec.ofNat 32 ((s.cluster cl).hostBnc.length * 2 ^ 8 + (s.cluster cl).hostOut.length))
  else if 0x400 ≤ off ∧ off < 0x800 then
    let x := s.core (coreOf cl ((off - 0x400) / 0x80))
    match (off - 0x400) % 0x80 with
    | 0x04 => some (BitVec.ofNat 32 ((if x.mode = .fault then x.why else 0) * 2 ^ 8 + b2n x.vendor * 2 ^ 4 + CoreMode.code x.mode))
    | 0x0C => some (BitVec.ofNat 32 x.pc)
    | 0x10 => some (BitVec.ofNat 32 (x.role.toNat * 2 ^ 16 + x.epoch.toNat))
    | 0x14 => some (BitVec.ofNat 32 x.status.toNat)
    | 0x18 => some (BitVec.ofNat 32 x.govPc)
    | 0x1C => some (BitVec.ofNat 32 x.faultPc)
    | 0x2C => some (BitVec.ofNat 32 (x.bounce.length * 2 ^ 8 + x.inbox.length))
    | 0x30 => some (BitVec.ofNat 32 x.bexp.toNat)
    | _ => none
  else none

/-- Word i of a message. -/
def Msg.word (m : Msg) (i : Nat) : W72 :=
  match i with
  | 0 => m.h
  | 1 => m.w1
  | 2 => m.w2
  | _ => m.w3

/-- The 72-bit value of a queue head whose LO lies at an offset; 0 for an empty queue (R222). -/
def State.clWide (s : State) (cl off : Nat) : Option W72 :=
  let at' (l : List Msg) (i : Nat) : W72 := match l with | [] => 0 | m :: _ => m.word i
  if 0x60 ≤ off ∧ off < 0x90 then some (at' (s.cluster cl).hostOut ((off - 0x60) / 12))
  else if 0xA0 ≤ off ∧ off < 0xD0 then some (at' (s.cluster cl).hostBnc ((off - 0xA0) / 12))
  else none

/-- Whether a write that leaves v in a CL register is refused, beyond CTRL and ASSIGN (R221, R222). -/
def clCheck (s : State) (cl off : Nat) (v : W32) : Option Cause :=
  if off = 0x8 then
    if 4 < field v 2 0 then some .enc else if field v 9 8 ≠ 0 ∧ field v 2 0 ≠ 0 then some .range else none
  else if 0x400 ≤ off ∧ off < 0x800 ∧ (off - 0x400) % 0x80 = 8 then
    if (s.core (coreOf cl ((off - 0x400) / 0x80))).mode = .running then some .busy else none
  else none

/-! ## Power (R194) -/

/-- The memories of the sixteen clusters from lo on are zero (R25). -/
def State.dspZeroed (s : State) (lo : Nat) : State :=
  { s with
    sram := s.sram.dropRange (65536 * lo) (65536 * (lo + 16))
    cmem := s.cmem.dropRange (131072 * lo) (131072 * (lo + 16))
    imem := s.imem.dropRange (16384 * lo) (16384 * (lo + 16)) }

/-- The roles of a channel's chain lose their memories: its shots under way and what the roles keep of others are gone (R25, R194). -/
def State.chainLost (s : State) (ch : Nat) : State :=
  let x := s.chain ch
  s.setChain ch { x with
    on := false, shots := [], incs := [], fuseIn := [], band := {}
    fuse := {}, dts := { restart := x.dts.restart } }

/-- A DSP domain is gated: its cores go FREE, its memories are lost (R25, R194). -/
def State.dspGated (s : State) (b : Bool) : State :=
  let lo := if b then 16 else 0
  let s := forEach ((List.range 16).map (· + lo)) (fun cl t =>
    let t := t.setRbit (Reg.clStatus cl) 16 false
    forEach (List.range 8) (fun c u => u.renewCore (coreOf cl c) .free false 0 0 notRunning) t) s
  let s := forEach (List.range 32) (fun ch t =>
    match t.clusterOf ch with
    | some cl => if lo ≤ cl ∧ cl < lo + 16 then t.chainLost ch else t
    | none => t) s
  s.dspZeroed lo

/-- DSP_DOMAIN_GATED (R194); b names DSPB. A domain that is gated already stays as it is. -/
def execDspDomainGated (b : Bool) (s : State) : Host.Outcome State Fault Refusal :=
  .next (if s.rbit Reg.sysPwrStat (8 + b2n b) && !s.rbit Reg.sysPwrCtrl (b2n b) && s.rbit Reg.sysPwrStat (b2n b) then
    ((s.dspGated b).setRbit Reg.sysPwrStat (b2n b) false).setRbit Reg.sysPwrStat (8 + b2n b) false
  else s)

/-- A DSP domain is powered again: its memories are zeroed, its clusters can be reached and the vendor roles load (R25, R219). -/
def State.dspOn (s : State) (b : Bool) : State :=
  let lo := if b then 16 else 0
  let s := s.dspZeroed lo
  forEach ((List.range 16).map (· + lo)) (fun cl t => (t.setRbit (Reg.clStatus cl) 16 true).vendorLoad cl) s

/-! ## The record of an engine -/

/-- Words 1 and 2 of a record (R136). -/
def RecSt.word1 (r : RecSt) (dropped : Bool) : W72 :=
  BitVec.ofNat 72 (b2n r.skipped * 2 ^ 71 + b2n r.settle * 2 ^ 70 + b2n r.timeStep * 2 ^ 69 + b2n r.unsync * 2 ^ 68 +
    b2n (r.hold && !r.skipped) * 2 ^ 67 + b2n dropped * 2 ^ 66 + r.train % 4 * 2 ^ 64 + min r.vzero 65535 * 2 ^ 48 + r.index.toNat)
def RecSt.word2 (r : RecSt) : W72 :=
  let g := (r.gaugeCount + trainLen r.train - 1) / trainLen r.train
  if r.skipped then BitVec.ofNat 72 (g % 2 ^ 16 * 2 ^ 56)
  else BitVec.ofNat 72 (g % 2 ^ 16 * 2 ^ 56 + r.tdc.toNat * 2 ^ 52 + r.extra % 4 * 2 ^ 50 + r.ef % 32 * 2 ^ 45 +
    r.ei % 32 * 2 ^ 40 + min r.sats 255 * 2 ^ 32 + ((r.q.getD 0) % 2 ^ 32).toNat)

/-- A record is complete: its period has closed and a launched shot has its gauge words (R136). -/
def RecSt.ready (r : RecSt) : Bool := r.words.isSome && (r.skipped || r.gauges.isSome)

/-- Words into the ring of a channel from the written count on (R135). -/
def State.ringWrite (cl base len : Nat) : List W72 → Nat → State → State
  | [], _, s => s
  | w :: r, n, s =>
    State.ringWrite cl base len r (n + 1)
      { s with sram := s.sram.set 0 (65536 * cl + (base + n % len) % 65536) w }

/-- A record notice to the configured core, or its loss (R199). -/
def State.notice (s : State) (cl : Nat) (wp : W32) (len : Nat) (index : BitVec 48) : State :=
  let c := s.fld (Reg.clNoteCfg cl) 2 0
  let x := s.core (coreOf cl c)
  let h : W72 := BitVec.ofNat 72 (cl * 2 ^ 67 + c * 2 ^ 64 + x.role.toNat * 2 ^ 60 + x.epoch.toNat * 2 ^ 48)
  s.deliver { h := sendHeader h 3 cl 0 0 0, w1 := BitVec.ofNat 72 (len % 2 ^ 32 * 2 ^ 32 + wp.toNat),
              w2 := BitVec.ofNat 72 index.toNat, w3 := 0 }

/-- The flags of a record join what the temperature roles keep of its shot (R190). -/
def State.logFlags (s : State) (ch : Nat) (index : BitVec 48) (flags : Nat) : State :=
  s.setChain ch { s.chain ch with
    log := (s.chain ch).log.map fun x => if x.index = index.toNat then { x with flags := flags } else x }

/-- A complete record goes into the ring as far as it fits, the rest is discarded, and a notice is sent (R135, R136, R194, R199). PHASE consumes
the record it waits for as it is written, once it has taken those before, so that it fits whatever its length (R18, R135, DESIGN CHOICE, log
entry 108). A shot whose
record is cut short sets DROPPED for DTS, as the record that carries the flag does (R190, DESIGN CHOICE, log entry 107). -/
def State.recordWrite (s : State) (ch : Nat) (r : RecSt) : State :=
  let ce := s.ce ch
  let base := s.fld (Reg.ceOutBase ch) 15 0
  let len := s.fld (Reg.ceOutLen ch) 16 0
  let used := (s.reg (Reg.ceOutWp ch) - s.reg (Reg.ceOutRp ch)).toNat
  let n := 9 + (if r.skipped then 0 else (r.gauges.getD []).length)
  let cl := s.clusterOf ch
  let open' := match cl with | some c => s.dspPowered c | none => false
  let awaited := (s.chain ch).shots.any fun x => decide (x.index = r.index)
  let paced := awaited && decide (ce.out = [])
  let free := if !open' then 0 else if paced then n else len - used
  let fits := decide (n ≤ free)
  let body := [r.stamp, r.word1 (ce.dropped && fits), r.word2] ++ r.words.getD [] ++ (if r.skipped then [] else r.gauges.getD [])
  let m := min n free
  let wp := s.reg (Reg.ceOutWp ch)
  let s := State.ringWrite (cl.getD 0) base len (body.take m) ce.written s
  let s := s.count (Reg.ceOutWp ch) m
  let s := if len < used + m then s.setReg (Reg.ceOutRp ch) (s.reg (Reg.ceOutWp ch) - BitVec.ofNat 32 len) else s
  let s := s.logFlags ch r.index (field (r.word1 (ce.dropped || !fits)) 71 66)
  let s := s.setCe ch { s.ce ch with
    written := ce.written + m, dropped := if fits then false else true
    out := if awaited then (s.ce ch).out ++ [⟨ce.written, m, fits, r.index, r.stamp, r.word1 false, body.take (m - len)⟩] else (s.ce ch).out }
  if fits then
    match cl with
    | none => s
    | some c => if s.rbit (Reg.clNoteCfg c) 8 then s.notice c wp n r.index else s
  else (s.count (Reg.ceDropCnt ch) (n - m)).fault (Reg.ceFault ch) (2 ^ 2)

/-- RECORD_COMPLETE (R136): the oldest record, once complete, leaves the engine. -/
def execRecordComplete (ch : Chan) (s : State) : Host.Outcome State Fault Refusal :=
  match (s.ce ch).recs with
  | [] => .next s
  | r :: rest =>
    if r.ready then .next (State.recordWrite (s.setCe ch { s.ce ch with recs := rest }) ch r) else .next s

end Sys2Proof.Machine
end

