-- ==== Sys2Proof/Machine/Estate.lean ====
section
/-!
DEFINITION. Verified frames and the peer table (R402, R404), and the sessions this device opens to others of its estate (R405, R406):
OPEN, CHALLENGE, CONFIRM and the frames a session carries.
-/
namespace Sys2Proof.Machine

/-- A frame whose tag does not verify (R402). -/
def State.authFail (s : State) : State := (s.count Reg.netAuthFailCnt 1).fault Reg.netFault 4

/-- A frame whose number is not accepted (R402). -/
def State.replayFail (s : State) : State := (s.count Reg.netReplayCnt 1).fault Reg.netFault 8

/-! ## The peer table (R404) -/

/-- The sender of a verified frame enters the peer table; its UDP port is a free value (DESIGN CHOICE, log entry 4). -/
def State.learnPeer (s : State) (addr : Nat) (ip : IpAddr) : State :=
  let used := s.net.peers
  let k := match used.find? fun k => decide (s.odv (0x2100 + k) 1 = addr) with
    | some k => k
    | none => match (List.range 256).find? fun k => !used.contains k with
      | some k => k
      | none => used.headD 0
  let s := { s with net := { s.net with peers := used.erase k ++ [k] } }
  let e := 0x2100 + k
  (((s.setOdv e 1 addr).setOdStr e 2 (ipBytes ip)).setOdv e 3 (field s.free 15 0)).drawn

/-! ## Sessions to the estate (R405, R406) -/

/-- The session of this device to another, kept anew. -/
def State.setEstate (s : State) (e : EstateSt) : State :=
  { s with net := { s.net with estate := s.net.estate.filter (fun x => decide (x.dev ≠ e.dev)) ++ [e] } }

/-- The session of this device to another is given up: a next frame opens a new one (DESIGN CHOICE, log entry 95). -/
def State.estateDrop (s : State) (dev : Nat) : State :=
  { s with net := { s.net with estate := s.net.estate.filter fun x => decide (x.dev ≠ dev) } }

/-- A frame of a session of this device to another: numbered and tagged under the session's key (R401, R402). -/
def State.estateSend (s : State) (e : EstateSt) (type reqId : Nat) (payload : List Byte) : State :=
  let h : FrameHdr := { type := type, flags := 0, role := 1, src := s.devAddr, dst := e.dev, session := e.sid.toNat,
                        seq := (e.txSeq + 1) % 2 ^ 32, reqId := reqId, len := payload.length }
  let body := h.bytes ++ payload
  (s.setEstate { e with txSeq := e.txSeq + 1 }).datagram (s.peerIp e.dev) (body ++ frameTag e.key body)

/-- OPEN to a device with role OPERATOR and a nonce of its own (R405, R406); its SEQ is 1 (DESIGN CHOICE, log entry 95). -/
def State.estateOpen (s : State) (dev : Nat) : State :=
  let (nonce, s) := s.drawNonce
  let h : FrameHdr := { type := 0, flags := 0, role := 1, src := s.devAddr, dst := dev, session := 0, seq := 1, reqId := 0, len := 20 }
  (s.setEstate { dev := dev, nonce := nonce }).datagram (s.peerIp dev) (h.bytes ++ [1, 1, 0, 0] ++ nonce ++ List.replicate 16 0)

/-- A frame to a device of the estate goes out in the session with it; where none is open, an OPEN goes out and the frame waits. -/
def State.estateWrite (s : State) (dev reqId : Nat) (payload : List Byte) : State :=
  match s.net.estate.find? fun e => decide (e.dev = dev) with
  | some e => if e.opened then s.estateSend e 2 reqId payload else s.estateOpen dev
  | none => s.estateOpen dev

end Sys2Proof.Machine
end

