-- ==== Sys2Proof/Machine/History.lean ====
section
/-!
DEFINITION. The history ring of a channel (R162 to R165) as the dictionary and the roles see it, the settings of the vibration
chain that shape it, and where a vendor role's frames go.
-/
namespace Sys2Proof.Machine

/-! ## The settings of the chain -/

/-- The settings of the vibration entry as written, with the gauge count and train in force (R145, R146). -/
def State.vibCfg (s : State) (ch : Nat) : VibCfg where
  len := s.odv (odVib ch) 2
  mode := s.odv (odVib ch) 3
  mask := s.odv (odVib ch) 4
  slotMin := s.odv (odVib ch) 5
  fade := s.odv (odVib ch) 6
  weak := s.odv (odVib ch) 7
  tie := s.odv (odVib ch) 8
  count := (s.ce ch).count
  train := (s.head (ch / 8)).act.train

/-- ROWS (R147). -/
def vibRows (c : VibCfg) : Nat := if c.mode = 1 then trainLen c.train else 1

/-- G (R124). -/
def vibG (c : VibCfg) : Nat := (c.count + trainLen c.train - 1) / trainLen c.train

/-- W (R163). -/
def vibW (c : VibCfg) : Nat := vibRows c * ((vibG c + 3) / 4)

/-- h1 and h2 of R149. -/
def vibH1 (c : VibCfg) : Nat := c.len / 2
def vibH2 (c : VibCfg) : Nat := c.len - c.len / 2

/-- The settings whose change restarts the chain (R146). -/
def vibShape (c : VibCfg) : Nat × Nat × Nat × Nat × Nat := (c.len, c.mode, c.mask, vibG c, c.train)

/-! ## The ring -/

/-- W and ROWS in force, or as configured before the chain's first shot (R163). -/
def State.histW (s : State) (ch : Nat) : Nat := if (s.chain ch).histW = 0 then vibW (s.vibCfg ch) else (s.chain ch).histW
def State.histRows (s : State) (ch : Nat) : Nat :=
  if (s.chain ch).histW = 0 then vibRows (s.vibCfg ch) else (s.chain ch).histRows

/-- SHOTS of a channel's ring; 0 while it is off or suspended (R162, R163). -/
def State.ringShots (s : State) (ch : Nat) : Nat :=
  let w := s.histW ch
  let n := if w = 0 then 0 else min (s.odv (odHist ch) 5) (s.odv (odHist ch) 3 / w)
  if s.histEn ch ∧ 2 ≤ n then n else 0

/-- LAST (R162, R165). -/
def State.ringLast (s : State) (ch : Nat) : Nat := if (s.chain ch).firstSlot.isSome then (s.chain ch).lastSlot else 0

/-- OLDEST (R162, R165). -/
def State.ringOldest (s : State) (ch : Nat) : Nat :=
  match (s.chain ch).slots with
  | [] => 0
  | r :: _ => r.1

/-- Runs of indices without those of the slot that shot i takes in a ring of n slots (R163). -/
def runsWithout (n i : Nat) (runs : List (Nat × Nat)) : List (Nat × Nat) :=
  runs.flatMap fun r =>
    let m := r.1 + (((i : Int) - r.1) % n).toNat
    if m ≤ r.2 then [(r.1, m - 1), (m + 1, r.2)].filter fun x => decide (x.1 ≤ x.2) && decide (x.1 ≠ m) else [r]

/-- Runs of indices with a newest one. -/
def runsWith (i : Nat) : List (Nat × Nat) → List (Nat × Nat)
  | [] => [(i, i)]
  | [r] => if r.2 + 1 = i then [(r.1, i)] else [r, (i, i)]
  | r :: q => r :: runsWith i q

/-- HIST_EN goes to 1: the header ring is to be cleared before a slot is written (R165). -/
def State.histStart (s : State) (ch : Nat) : State :=
  s.setChain ch { s.chain ch with clearDue := true, firstSlot := none, lastSlot := 0, slots := [] }

/-! ## Regions of the DRAM -/

/-- Two spans of words meet. -/
def spansMeet (a n b m : Nat) : Bool := decide (n ≠ 0) && decide (m ≠ 0) && decide (a < b + m) && decide (b < a + n)

/-- The data and header regions of a channel's history ring (R162). -/
def State.histSpans (s : State) (ch : Nat) : List (Nat × Nat) :=
  [(s.odv (odHist ch) 2, s.odv (odHist ch) 3), (s.odv (odHist ch) 4, 4 * s.odv (odHist ch) 5)]

/-- The words of a totals region (R140). -/
def totWords : Nat := 65544 + 65536

/-- A span meets the totals region of a channel whose accumulators run (R162). -/
def State.meetsTotals (s : State) (x : Nat × Nat) : Bool :=
  (List.range 32).any fun ch => s.rbit (Reg.ceCtrl ch) 1 && spansMeet x.1 x.2 (s.totBase ch) totWords

/-- A span meets the enabled history regions of a channel other than one (R162). -/
def State.meetsHistory (s : State) (but : Option Nat) (x : Nat × Nat) : Bool :=
  (List.range 32).any fun ch => decide (some ch ≠ but) && s.histEn ch &&
    (s.histSpans ch).any fun y => spansMeet x.1 x.2 y.1 y.2

/-- The spans of DRAM that hold something: enabled history rings, totals that are filled, captures, and frames whose entries wait. -/
def State.dramUsed (s : State) : List (Nat × Nat) :=
  ((List.range 32).flatMap fun ch =>
    (if s.histEn ch then s.histSpans ch else []) ++ (if s.rbit (Reg.ceCtrl ch) 1 then [(s.totBase ch, totWords)] else []) ++
    ([0, 1, 2].flatMap fun k => (s.queue (4 * ch + k)).items).filterMap fun e =>
      if field e 71 70 = 1 then some (field e 35 0, field e 63 40) else none) ++
  ((List.range 64).filterMap fun k => (s.cap k).map fun c => (c.base, s.fld Reg.zoneCapSlot 15 0 * 256))

/-! ## Frames -/

/-- The place of a frame of n words in the first words of an SRAM, free but clear of given spans: those of the frames whose entries wait (R197, R319),
of a ring. -/
def framePlace (size n : Nat) (f : W72) (held : List (Nat × Nat)) : Option Nat :=
  if size < n then none
  else
    let tries := f.toNat % (size + 1 - n) :: 0 :: held.map fun h => h.1 + h.2
    tries.find? fun a => decide (a + n ≤ size) && held.all fun h => decide (a + n ≤ h.1) || decide (h.1 + h.2 ≤ a)

/-- The frames of a channel that wait in SRAM, by address and length (R318, R319). -/
def State.framesHeld (s : State) (ch : Nat) : List (Nat × Nat) :=
  ([0, 1, 2].flatMap fun k => (s.queue (4 * ch + k)).items).filterMap fun e =>
    if field e 71 70 = 0 then some (field e 35 0, field e 63 40) else none

/-- Words of a frame into a cluster's SRAM. -/
def State.sramWords (s : State) (cl a : Nat) (ws : List W72) : State :=
  { s with sram := Store.setMany 0 (ws.mapIdx fun i w => (65536 * cl + a + i, w)) s.sram }

/-- The place of a frame of n words in a DRAM of size words: free, but clear of what the DRAM holds. -/
def dramPlace (n size : Nat) (f : W72) (used : List (Nat × Nat)) : Option Nat :=
  if size < n then none
  else
    (f.toNat % (size - n + 1) :: 0 :: used.map fun u => u.1 + u.2).find? fun a =>
      decide (a + n ≤ size) && used.all fun u => !spansMeet a n u.1 u.2

/-- A vendor role puts a frame out: it is kept as the channel's last of its kind, its words lie in the vendor region where they
fit, else elsewhere in the cluster's SRAM clear of the engine's ring, else in DRAM, and it enters the export queue of its channel (R160, R192, R318; where it lies is left open, DESIGN CHOICE, log
entry 15). -/
def State.frameOut (s : State) (ch kind : Nat) (ws : List W72) : State :=
  let v := 4 * ch + min kind 2
  let s := { s with frames := s.frames.set [] (4 * ch + kind) ws }
  let f := s.free
  let inSram := (s.clusterOf ch).bind fun cl =>
    let ring := (s.fld (Reg.ceOutBase ch) 15 0, s.fld (Reg.ceOutLen ch) 16 0)
    let a := match framePlace 0x4000 ws.length f (s.framesHeld ch) with
      | some a => some a
      | none => framePlace 0x10000 ws.length f (ring :: s.framesHeld ch)
    if s.dspPowered cl then a.map fun a => (cl, a) else none
  match inSram with
  | some (cl, a) => (s.drawn.sramWords cl a ws).export v 0 ws.length a
  | none =>
    match dramPlace ws.length s.dramWords f s.dramUsed with
    | some a => (State.dramWriteMany ws a s.drawn).export v 1 ws.length a
    | none => s.drawn.export v 1 ws.length (f.toNat % 2 ^ 36)

end Sys2Proof.Machine
end

