-- ==== Sys2Proof/Machine/Zones.lean ====
section
/-!
DEFINITION. Zones, events and back-look captures (R250 to R272): the zone table and its write rules, the reduction of a frame, the
state machine, the actions, the event queue, remote writes, and captures of the history ring.
-/
namespace Sys2Proof.Machine

/-- The block base of the zone engine. -/
def zoneBase : Nat := 0xB0000

/-! ## Fields of the table (R252, R253) -/

def zoneRed (w : W72) : Nat := field w 67 66
def zoneBand (w : W72) : Nat := field w 65 63
def zoneQmin (w : W72) : Nat := field w 62 61
def zoneBelow (w : W72) : Bool := w.getLsbD 60
def zoneFailsafe (w : W72) : Bool := w.getLsbD 59
def zoneFirst (w : W72) : Nat := field w 53 37
def zoneLast (w : W72) : Nat := field w 36 20
def zoneOn (w : W72) : Nat := field w 19 12
def zoneOff (w : W72) : Nat := field w 11 4

/-- WARN and ALARM of a zone, HYST, VOID_LIMIT and the ACT bits. -/
def State.zoneWarn (s : State) (z : Nat) : Int := fieldS (s.zoneWord z 1) 47 0
def State.zoneAlarm (s : State) (z : Nat) : Int := fieldS (s.zoneWord z 2) 47 0
def State.zoneHyst (s : State) (z : Nat) : Nat := field (s.zoneWord z 3) 47 0
def State.zoneVoid (s : State) (z : Nat) : Nat := field (s.zoneWord z 3) 71 56
def State.zoneAct (s : State) (z : Nat) : Nat := field (s.zoneWord z 4) 69 64

/-- One ACT bit of a zone: 0 EVENT, 1 LAMP, 2 LOOP, 3 CAN, 4 REMOTE, 5 CAPTURE. -/
def State.zoneActs (s : State) (z i : Nat) : Bool := (s.zoneWord z 4).getLsbD (64 + i)

/-! ## Writing the table (R254) -/

/-- Zones of one channel enabled for STEP. -/
def State.stepZones (s : State) (ch : Nat) : Nat :=
  (s.enabledZones.filter fun z => decide (zoneSrc (s.zoneWord z 0) = 1) && decide (zoneCh (s.zoneWord z 0) = ch)).length

/-- The ranges of a zone's own words are broken: the second check of R254. -/
def State.zoneRangeBad (s : State) (z : Nat) (v : W72) : Bool :=
  let w5 := s.zoneWord z 5
  let loopBad := s.zoneActs z 2 && [field w5 47 32, field w5 31 16, field w5 15 0].any fun x => decide (x < 3600 ∨ 21000 < x)
  decide (zoneLast v < zoneFirst v) || decide (zoneOn v = 0) || decide (zoneOff v = 0) ||
    (if zoneBelow v then decide (s.zoneWarn z < s.zoneAlarm z) else decide (s.zoneAlarm z < s.zoneWarn z)) || loopBad

/-- The checks of a word 0 that enables a zone, in their order (R254); the vendor enable it may be is checked last (R197, R312). -/
def State.zoneCheck (s : State) (z : Nat) (v : W72) : Option Cause :=
  let src := zoneSrc v
  let ch := zoneCh v
  if 4 < src ∨ zoneRed v = 3 ∨ (s.zoneActs z 5 ∧ field (s.zoneWord z 4) 37 36 = 3) ∨
      ((src = 1 ∨ src = 4) ∧ zoneRed v ≠ 0) ∨ (src ≠ 2 ∧ src ≠ 3 ∧ zoneQmin v ≠ 0) ∨ ((src = 2 ∨ src = 3) ∧ zoneQmin v = 0) then
    some .enc
  else if s.zoneRangeBad z v then some .range
  else if src = 2 ∧ ch % 2 = 1 ∧ s.double (ch - 1) then some .range
  else if src = 1 ∧ 64 ≤ s.stepZones ch then some .range
  else if src ≠ 4 ∧ (s.userHolds ch [5] ∨ s.vendorBlocked ch true) then some .busy
  else none

/-- The serving cluster of a zone's channel loads or unloads its roles (R219). -/
def State.zoneRoles (s : State) (ch : Nat) : State :=
  match s.clusterOf ch with | some cl => s.vendorLoad cl | none => s

/-- Word w of zone z stored. -/
def State.setZoneWord (s : State) (z w : Nat) (v : W72) : State := { s with zones := s.zones.set 0 (8 * z + w) v }

/-- A zone returns to NORMAL with no event, its requests withdrawn and its WRITE abandoned; a WRITE to this device itself is still applied
(R270). -/
def State.zoneRest (s : State) (z : Nat) : State :=
  let x := s.zone z
  s.setZone z { prev := x.prev, m := x.m, index := x.index, clipped := x.clipped }

/-- The lamp and loop requests of a zone stand (R261). -/
def State.zoneAsks (s : State) (z : Nat) : State := s.setZone z { s.zone z with asks := true }

/-! ## Status (R271) -/

/-- Status words of a zone. -/
def State.zoneStatus (s : State) (z w : Nat) : W72 :=
  let x := s.zone z
  if w = 0 then
    BitVec.ofNat 72 (x.st * 2 ^ 70 + x.prev * 2 ^ 68 + b2n x.clipped * 2 ^ 67 + x.cu % 256 * 2 ^ 56 + x.cd % 256 * 2 ^ 48 +
      (x.m % 2 ^ 48).toNat)
  else BitVec.ofNat 72 (min x.vc 65535 * 2 ^ 56 + x.index % 2 ^ 48)

/-! ## Events (R267 to R269) -/

/-- A record enters the queue behind a LOST record where one is owed, or is dropped (R268). -/
def State.evPush (s : State) (ch : Nat) (rec : W32 → List W72) : State :=
  let level := s.evq.length
  let owed := decide (s.evLost ≠ 0)
  let need := if owed then 2 else 1
  if 1024 < level + need then
    (({ s with evLost := s.evLost + 1, evSeq := s.evSeq + 1 }.count Reg.zoneEvqLost 1).fault Reg.zoneFault 1).event 238
  else
    let lost : List W72 := [s.stamp, BitVec.ofNat 72 (6 * 2 ^ 68), BitVec.ofNat 72 (s.evLost % 2 ^ 32), BitVec.ofNat 72 s.evSeq.toNat]
    let s := if owed then { s with evq := s.evq ++ [lost], evLost := 0, evSeq := s.evSeq + 1 } else s
    let s := { s with evq := s.evq ++ [rec s.evSeq], evSeq := s.evSeq + 1 }
    let s := if level = 0 then s.setRbit Reg.zoneEvqStat 0 true else s
    let wm := s.fld Reg.zoneEvqWm 10 0
    let s := if level < wm ∧ wm ≤ s.evq.length then s.setRbit Reg.zoneEvqStat 1 true else s
    s.event (4 * ch + 3)

/-- A record of a kind about a zone's change (R267). -/
def evRecord (kind z ch : Nat) (c : ChangeSt) (short : Bool) (w2 : W72) (seq : W32) : List W72 :=
  [c.ev.stamp,
   BitVec.ofNat 72 (kind * 2 ^ 68 + b2n c.ev.clipped * 2 ^ 67 + b2n short * 2 ^ 66 + b2n c.ev.unsync * 2 ^ 65 +
     b2n c.ev.timeStep * 2 ^ 64 + z * 2 ^ 52 + c.new * 2 ^ 50 + c.old * 2 ^ 48 + c.ev.index % 2 ^ 48),
   w2,
   BitVec.ofNat 72 (min c.ev.counted 65535 * 2 ^ 56 + c.acts * 2 ^ 48 + c.fail * 2 ^ 40 + ch * 2 ^ 32 + seq.toNat)]

/-- Word 2 of a STATE record: the gauge and the measure, 0 where there is none. -/
def evMeasure (e : EvalSt) : W72 :=
  match e.m with
  | some m => BitVec.ofNat 72 (e.gauge % 2 ^ 17 * 2 ^ 55 + (m % 2 ^ 48).toNat)
  | none => 0

/-- Write 1 to EVQ_POP. -/
def State.evPop (s : State) : State := { s with evq := s.evq.drop 1 }

/-- EVQ_POP (R268, R269). -/
def execEvqPop (_q : Req) (s : State) : Host.Outcome State Fault Refusal := .next (if s.shut then s else s.evPop)

/-! ## TPDO requests (R262, R416) -/

/-- The COB-ID of a TPDO as its entry reads: one less than the number kept, where 0 stands for the default that follows the node
(R414). -/
def State.tpdoCob (s : State) (c t : Nat) : Nat :=
  let node := s.fld (Reg.canNode c) 6 0
  let d := if t < 4 then 0x80000000 + 0x180 + 0x100 * t + node else 0x80000000
  match s.odv (0x1800 + 8 * c + t) 1 with
  | 0 => d
  | n + 1 => n

/-- The port is operational (R414). -/
def State.canOperational (s : State) (c : Nat) : Bool := decide (s.fld (Reg.canStatus c) 15 8 = 5)

/-- A request for a TPDO that can be sent; none where it is not valid or the port is not operational (R262). -/
def State.tpdoAsk (s : State) (c t : Nat) : Option State :=
  if 2 ^ 31 ≤ s.tpdoCob c t ∨ !s.canOperational c then none
  else some (s.setTpdo (8 * c + t) { s.tpdo (8 * c + t) with asked := true })

/-! ## Remote writes (R263) -/

/-- The value a REMOTE write of a zone carries: the state, or the measure in 8 bytes. -/
def State.remoteValue (s : State) (z : Nat) : Bool × Nat :=
  if (s.zoneWord z 6).getLsbD 31 then (true, ((s.zone z).m % 2 ^ 64).toNat) else (false, (s.zone z).st)

/-- The type and bytes of a zone's WRITE. -/
def remoteData (wide : Bool) (value : Nat) : Nat × List Byte :=
  if wide then (odCode .i64, leBytes value 8) else (odCode .u8, leBytes value 1)

/-- A zone's WRITE as a frame in the estate session (R407). -/
def State.remoteFrame (s : State) (z : Nat) (r : RemoteSt) : State :=
  let w := s.zoneWord z 6
  let d := remoteData r.wide r.value
  s.estateWrite (field w 71 56) r.reqId (leBytes (field w 55 40) 2 ++ leBytes (field w 39 32) 1 ++ leBytes d.1 1 ++ leBytes 0 4 ++ d.2)

/-- A zone's WRITE goes out, or waits to be applied where the device is this one (R263). -/
def State.remotePut (s : State) (z : Nat) (r : RemoteSt) : State :=
  let w := s.zoneWord z 6
  let dev := field w 71 56
  let s := s.setZone z { s.zone z with remote := some r }
  if dev = s.odv 0x2000 1 then
    { s with selfWrites := (s.selfWrites.filter fun x => x.zone ≠ z) ++ [⟨z, field w 55 40, field w 39 32, r.wide, r.value⟩] }
  else (s.emit (.remote z dev (field w 55 40) (field w 39 32) r.wide r.value)).remoteFrame z r

/-- The zone's present value goes out as a new WRITE, in place of one still awaiting acknowledgement (R263). -/
def State.remoteSend (s : State) (z : Nat) : State :=
  let v := s.remoteValue z
  let n := (s.net.reqId + 1) % 2 ^ 16
  State.remotePut { s with net := { s.net with reqId := n } } z { wide := v.1, value := v.2, reqId := n }

/-- A zone's WRITE to a device awaits acknowledgement. -/
def State.awaits (s : State) (z dev : Nat) : Bool := (s.zone z).remote.isSome && decide (field (s.zoneWord z 6) 71 56 = dev)

/-- A CHALLENGE answers this device's OPEN: once its tag verifies, CONFIRM goes out and the WRITEs that wait follow it (R405, R406). -/
def State.estateChallenge (s : State) (ip : IpAddr) (h : FrameHdr) (body tag nd : List Byte) : State :=
  match s.net.estate.find? fun e => decide (e.dev = h.src) && !e.opened with
  | none => s.authFail
  | some e =>
    let key := sessionKey (s.roleKey true 1) h.session s.devAddr h.src 1 e.nonce nd
    if tag ≠ frameTag key body then s.authFail
    else
      let e := { e with opened := true, sid := BitVec.ofNat 32 h.session, key := key, rxMax := h.seq, rxSeen := [h.seq] }
      let s := (s.learnPeer h.src ip).estateSend e 0 0 ([3, 1, 0, 0] ++ List.replicate 16 0)
      forEach s.enabledZones (fun z t =>
        match (t.zone z).remote with
        | some r => if t.awaits z e.dev then t.remoteFrame z r else t
        | none => t) s

/-- A zone's WRITE failed (R263). Its event carries the stamp and INDEX of the zone's last change of state, 0 where there was none, also where
the WRITE was a refresh (R267, DESIGN CHOICE, log entry 99). -/
def State.remoteFail (s : State) (z : Nat) : State :=
  let x := s.zone z
  let s := s.setZone z { x with remote := none }
  let s := s.evPush (zoneCh (s.zoneWord z 0)) (evRecord 5 z (zoneCh (s.zoneWord z 0)) x.last false (evMeasure x.last.ev))
  (s.count Reg.zoneRemFailCnt 1).fault Reg.zoneFault (2 ^ 3)

/-- REMOTE_WRITE_TIMEOUT (R263): no acknowledgement came in time; the WRITE is sent again, or it fails. -/
def execRemoteWriteTimeout (z : Zone) (s : State) : Host.Outcome State Fault Refusal :=
  match (s.zone z).remote with
  | none => .next s
  | some r => .next (if r.tries < s.fld Reg.zoneRemCfg 11 8 then s.remotePut z { r with tries := r.tries + 1 }
      else (s.estateDrop (field (s.zoneWord z 6) 71 56)).remoteFail z)

/-- The reply to a zone's WRITE: an abort code counts as a failure (R263, R406). -/
def State.remoteAck (s : State) (z : Nat) (abort : W32) : State :=
  if (s.zone z).remote = none then s
  else if abort = 0 then s.setZone z { s.zone z with remote := none } else s.remoteFail z

/-- REMOTE_WRITE_ACK (R263, R406). -/
def execRemoteWriteAck (z : Zone) (abort : W32) (s : State) : Host.Outcome State Fault Refusal := .next (s.remoteAck z abort)

/-- REMOTE_REFRESH (R263): REFRESH x 100 ms have passed and the current value is sent again. -/
def execRemoteRefresh (z : Zone) (s : State) : Host.Outcome State Fault Refusal :=
  if zoneEn (s.zoneWord z 0) ∧ s.zoneActs z 4 ∧ field (s.zoneWord z 6) 15 0 ≠ 0 then .next (s.remoteSend z) else .next s

/-! ## Captures (R265, R266) -/

/-- The slot address of capture slot k. -/
def State.capBase (s : State) (k : Nat) : Nat :=
  s.fld Reg.zoneCapBase 27 0 * 256 + k * (s.fld Reg.zoneCapSlot 15 0 * 256)

/-- The header of a capture (R266). -/
def capHeader (c : CapSt) (cstate : Nat) : List W72 :=
  [c.change.ev.stamp,
   BitVec.ofNat 72 (cstate * 2 ^ 68 + b2n c.short * 2 ^ 67 + c.zone * 2 ^ 52 + c.s % 2 ^ 48),
   BitVec.ofNat 72 (c.first % 2 ^ 48), BitVec.ofNat 72 (c.last % 2 ^ 48), BitVec.ofNat 72 (c.w % 2 ^ 32),
   BitVec.ofNat 72 (c.lost % 2 ^ 32), 0, 0]

/-- CAP_BUSY shows the slots in use. -/
def State.capShow (s : State) : State :=
  let v (lo : Nat) : W32 := BitVec.ofNat 32 (bitsToNat ((List.range 32).map fun i => (s.cap (lo + i)).isSome))
  (s.setReg Reg.zoneCapBusyLo (v 0)).setReg Reg.zoneCapBusyHi (v 32)

/-- A capture of a zone's change starts in a free slot, or a CAP_NOSLOT event is queued (R265). -/
def State.capStart (s : State) (z : Nat) (c : ChangeSt) : State :=
  let ch := zoneCh (s.zoneWord z 0)
  let w := s.histW ch
  let pre := field (s.zoneWord z 7) 47 24
  let post := field (s.zoneWord z 7) 23 0
  let first := max (c.ev.index - pre) (s.ringOldest ch)
  let room := (s.fld Reg.zoneCapSlot 15 0 * 256 - 8) / (4 + w)
  let last := min (c.ev.index + post) (first + room - 1)
  let free := (List.range (s.fld Reg.zoneCapCount 6 0)).find? fun k => (s.cap k).isNone
  let ok := s.histEn ch && decide (s.ringShots ch ≠ 0) && s.rbit Reg.zoneCtrl 1 && decide (max first c.ev.index ≤ last) &&
    decide (room ≠ 0)
  match (if ok then free else none) with
  | none => (s.evPush ch (evRecord 4 z ch c false 0)).fault Reg.zoneFault (2 ^ 1)
  | some k =>
    let cap : CapSt := { zone := z, ch := ch, base := s.capBase k, s := c.ev.index, first := first, last := last, next := first,
                         w := w, short := decide (last < c.ev.index + post), change := c }
    State.dramWriteMany (capHeader cap 0) cap.base (s.setCap k (some cap)).capShow

/-- Words with their poisoned tags written from an address on. -/
def State.dramCopy : List (W72 × Bool) → Nat → State → State
  | [], _, s => s
  | (w, bad) :: r, a, s => State.dramCopy r (a + 1) (s.dramWrite a w bad)

/-- Header word 1 of a ring slot shows an intact PHASE4 frame of a shot (R164). -/
def intactHeader (w : W72) (i : Nat) : Bool := decide (field w 63 56 = 1) && decide (field w 47 0 = i)

/-- The ring slot of a shot under the read rule of R164: header and data, or none where it is not intact. -/
def State.slotRead (s : State) (ch i w : Nat) : Option (List (W72 × Bool)) × State :=
  let n := max (s.ringShots ch) 1
  let h := s.odv (odHist ch) 4 + 4 * (i % n)
  let (before, s) := s.dramRead (h + 1)
  let (data, s) := State.dramReadMany w (s.odv (odHist ch) 2 + i % n * w) s
  let (head, s) := State.dramReadMany 4 h s
  let (after, s) := s.dramRead (h + 1)
  if intactHeader before.1 i ∧ intactHeader after.1 i then (some (head ++ data), s) else (none, s)

/-- CAPTURE_SHOT_COPY (R266): the next shot of a capture is copied once its slot is complete. -/
def execCaptureShotCopy (k : Fin 64) (s : State) : Host.Outcome State Fault Refusal :=
  match s.cap k with
  | none => .next s
  | some c =>
    if !c.copying ∨ c.ended ∨ c.last < c.next ∨ (s.chain c.ch).firstSlot.isNone ∨ s.ringLast c.ch < c.next then .next s
    else
      let (slot, s) := s.slotRead c.ch c.next c.w
      let a := c.base + 8 + (c.next - c.first) * (4 + c.w)
      let c' := { c with next := c.next + 1, lost := c.lost + b2n slot.isNone }
      .next (State.dramCopy (slot.getD (List.replicate (4 + c.w) (0, false))) a (s.setCap k (some c')))

/-- CAPTURE_DONE (R266): the last shot has been copied; CSTATE is written last and the event queued. -/
def execCaptureDone (k : Fin 64) (s : State) : Host.Outcome State Fault Refusal :=
  match s.cap k with
  | none => .next s
  | some c =>
    if !c.copying ∨ (c.next ≤ c.last ∧ !c.ended) then .next s
    else
      let torn := decide (c.lost ≠ 0)
      let h := capHeader c (if torn then 2 else 1)
      let s := s.setCap k (some { c with copying := false })
      let s := State.dramWriteMany (h.drop 2) (c.base + 2) s
      let s := s.dramWrite c.base (nth h 0 0) false
      let s := s.dramWrite (c.base + 1) (nth h 1 0) false
      let w2 : W72 := BitVec.ofNat 72 (k.val * 2 ^ 55 + c.last % 2 ^ 48)
      let s := s.evPush c.ch (evRecord (if torn then 3 else 2) c.zone c.ch c.change c.short w2)
      .next (if torn then s.fault Reg.zoneFault (2 ^ 2) else s)

/-- A restart that changes W ends the captures of a channel at the last shot copied (R266); before the first copy its last shot is the
one before its first, modulo 2^48 (DESIGN CHOICE, log entry 50). -/
def State.capEnd (s : State) (ch : Nat) : State :=
  forEach (List.range 64) (fun k t =>
    match t.cap k with
    | some c => if c.ch = ch ∧ c.copying ∧ c.next ≤ c.last then
        t.setCap k (some { c with last := (c.next + 2 ^ 48 - 1) % 2 ^ 48, ended := true })
      else t
    | none => t) s

/-- A write of CAP_FREE (R265, R266). -/
def State.capFree (s : State) (v : W32) (q : Req) : State :=
  let k := field v 5 0
  match s.cap k with
  | none => s
  | some c => if c.copying then s.err zoneBase .busy 0x5C q else (s.setCap k none).capShow

/-- CAP_FREE (R265). -/
def execCapFree (q : Req) (v : W32) (s : State) : Host.Outcome State Fault Refusal := .next (if s.shut then s else s.capFree v q)

/-! ## State machine and actions (R258 to R260) -/

/-- The action level of a state (R259): 0 NORMAL, 1 WARN, 2 ALARM. -/
def State.zoneLevel (s : State) (z : Nat) : Nat :=
  let x := s.zone z
  if x.st = 3 then if zoneFailsafe (s.zoneWord z 0) then 2 else x.prev else x.st

/-- CAP_ON admits a change to a state (R253). -/
def State.capOn (s : State) (z new : Nat) : Bool :=
  match field (s.zoneWord z 4) 37 36 with
  | 0 => decide (new = 2)
  | 1 => decide (new = 1) || decide (new = 2)
  | _ => true

/-- The actions of a state change (R260, R262). -/
def State.zoneChanged (s : State) (z old : Nat) (e : EvalSt) : State :=
  let x := s.zone z
  let w4 := s.zoneWord z 4
  let ch := zoneCh (s.zoneWord z 0)
  let s := s.setZone z { x with asks := true }
  let cap := s.zoneActs z 5 && s.capOn z x.st
  let tpdo := if s.zoneActs z 3 then s.tpdoAsk (b2n (w4.getLsbD 35)) (field w4 34 32) else none
  let fail := if s.zoneActs z 3 && tpdo.isNone then 8 else 0
  let s := tpdo.getD s
  let acts := s.zoneAct z % 32 + (if cap then 32 else 0)
  let c : ChangeSt := { ev := e, old := old, new := x.st, acts := acts, fail := fail }
  let s := s.setZone z { s.zone z with last := c }
  let s := if s.zoneActs z 0 then s.evPush ch (evRecord 1 z ch c false (evMeasure e)) else s
  let s := if x.st = 3 then s.fault Reg.zoneFault (2 ^ 4) else s
  let s := if s.zoneActs z 4 then s.remoteSend z else s
  if cap then s.capStart z c else s

/-- The state a zone takes at a measure, with its counters (R258). -/
def zoneMove (below : Bool) (warn alarm : Int) (hyst on off : Nat) (x : ZoneSt) (m : Int) : ZoneSt :=
  let beyond (t : Int) : Bool := if below then m ≤ t else t ≤ m
  let back (t : Int) : Bool := if below then t + hyst < m else m < t - hyst
  let up := if beyond alarm then 2 else if beyond warn then 1 else 0
  if x.st = 3 then { x with st := up, cu := 0, cd := 0, vc := 0 }
  else
    let hold := if !back alarm then 2 else if !back warn then 1 else 0
    let d := max up (min hold x.st)
    let x := { x with vc := 0 }
    if x.st < d then
      if on ≤ x.cu + 1 then { x with st := d, cu := 0, cd := 0 } else { x with cu := x.cu + 1, cd := 0 }
    else if d < x.st then
      if off ≤ x.cd + 1 then { x with st := d, cu := 0, cd := 0 } else { x with cd := x.cd + 1, cu := 0 }
    else { x with cu := 0, cd := 0 }

/-- VOID after VOID_LIMIT evaluations or ticks without a measure (R258). -/
def voidMove (limit : Nat) (x : ZoneSt) : ZoneSt :=
  let x := { x with vc := x.vc + 1 }
  if limit ≠ 0 ∧ limit ≤ x.vc ∧ x.st ≠ 3 then { x with prev := x.st, st := 3 } else x

/-- One evaluation of a zone (R258). -/
def State.zoneEval (s : State) (z : Nat) (e : EvalSt) : State :=
  let w := s.zoneWord z 0
  let old := (s.zone z).st
  let s := s.count Reg.zoneEvalCnt 1
  let x := { s.zone z with clipped := e.clipped, index := e.index }
  let x := match e.m with
    | some m => zoneMove (zoneBelow w) (s.zoneWarn z) (s.zoneAlarm z) (s.zoneHyst z) (zoneOn w) (zoneOff w) { x with m := m } m
    | none => voidMove (s.zoneVoid z) x
  let s := s.setZone z x
  if x.st = old then s else s.zoneChanged z old e

/-- A zone of lower number still has the same frame to evaluate: zones are treated in their order (R260). -/
def State.zoneBefore (s : State) (z : Nat) (e : EvalSt) : Bool :=
  let w := s.zoneWord z 0
  s.enabledZones.any fun y => decide (y < z) && decide (zoneSrc (s.zoneWord y 0) = zoneSrc w) && decide (zoneCh (s.zoneWord y 0) = zoneCh w) &&
    (s.zone y).due.any fun d => decide (d.stamp = e.stamp) && decide (d.index = e.index)

/-- ZONE_EVALUATE (R258, R260): the oldest reduced frame of an enabled zone is evaluated while the engine runs, once no zone of lower number
awaits it. -/
def execZoneEvaluate (z : Zone) (s : State) : Host.Outcome State Fault Refusal :=
  match (s.zone z).due with
  | [] => .next s
  | e :: r =>
    if s.zoneBefore z e then .next s
    else
    let s := s.setZone z { s.zone z with due := r }
    if zoneEn (s.zoneWord z 0) ∧ s.rbit Reg.zoneCtrl 0 then .next (s.zoneEval z e) else .next s

/-- The evaluations a zone has begun, one for each frame reduced for it, are finished with their actions (R270, DEDUCED, log entry 109). -/
def State.zoneFinish (s : State) (z : Nat) : State :=
  if zoneEn (s.zoneWord z 0) && s.rbit Reg.zoneCtrl 0 then (s.zone z).due.foldl (fun t e => t.zoneEval z e) s else s

/-- A write of word w of zone z: refused, or the state it leaves (R254, R270). -/
def State.zoneWrite (s : State) (z w : Nat) (v : W72) : Cause ⊕ State :=
  let on := zoneEn (s.zoneWord z 0)
  if w ≠ 0 then if on then .inl .busy else .inr (s.setZoneWord z w v)
  else if !zoneEn v then
    let old := zoneCh (s.zoneWord z 0)
    let s := ((s.zoneFinish z).setZoneWord z 0 v).zoneRest z
    .inr (if on then s.zoneRoles old else s)
  else if on then .inl .busy
  else
    match s.zoneCheck z v with
    | some c => .inl c
    | none => .inr ((((s.setZoneWord z 0 v).zoneRest z).zoneAsks z).zoneRoles (zoneCh v))

/-- The bus offset of a zone word, as ERR_ADDR records it (R254). -/
def zoneOff16 (z w : Nat) : Nat := 0x80 * z + 0x10 * w

/-- A committed write of a zone word, its refusal recorded in ZONE.ERR (R251, R254). -/
def State.zoneCommit (s : State) (z w : Nat) (v : W72) (q : Req) : State :=
  match s.zoneWrite z w v with
  | .inl c => s.err zoneBase c (zoneOff16 z w) q
  | .inr t => t

/-- A write of a zone's INPUT sub-index, by one of the causes of R264 refused. -/
def State.zoneInput (s : State) (z : Nat) (v : Int) : Option State :=
  let w := s.zoneWord z 0
  if !zoneEn w ∨ zoneSrc w ≠ 4 ∨ v < -2 ^ 47 ∨ 2 ^ 47 - 1 < v then none
  else if !s.rbit Reg.zoneCtrl 0 then some s
  else some (s.zoneEval z { m := some v, counted := 0, stamp := s.stamp })

/-- ZONE_INPUT_WRITE (R264). -/
def execZoneInputWrite (z : Zone) (v : Int) (s : State) : Host.Outcome State Fault Refusal := .next ((s.zoneInput z v).getD s)

/-- ZONE_INPUT_TICK (R258): 100 ms more since the last accepted write of every enabled INPUT zone. -/
def execZoneInputTick (s : State) : Host.Outcome State Fault Refusal :=
  if !s.rbit Reg.zoneCtrl 0 then .next s
  else .next (forEach (s.enabledZones.filter fun z => decide (zoneSrc (s.zoneWord z 0) = 4)) (fun z t =>
    let old := (t.zone z).st
    let x := voidMove (t.zoneVoid z) (t.zone z)
    let t := t.setZone z x
    if x.st = old then t else t.zoneChanged z old { stamp := t.stamp }) s)

/-! ## Reducing a frame (R255 to R257) -/

/-- What a frame shows a zone: its gauges, the rows a gauge stands for, the value of a counted gauge, and its header's flags. -/
structure FrameView where
  nt : Nat
  rows : Nat := 1
  value : Nat → Option Int
  stamp : W72
  index : Nat
  unsync : Bool
  timeStep : Bool

/-- The value that is largest or smallest with the lowest gauge, over counted gauges in rising order. -/
def pickBest (least : Bool) : List (Nat × Int) → Option (Nat × Int) → Option (Nat × Int)
  | [], b => b
  | (g, v) :: r, none => pickBest least r (some (g, v))
  | (g, v) :: r, some b =>
    pickBest least r (some (if (if least then decide (v < b.2) else decide (b.2 < v)) then (g, v) else b))

/-- A frame reduced over the range of a zone's word 0 (R256, R257). -/
def reduceFrame (w : W72) (f : FrameView) : EvalSt :=
  let first := zoneFirst w
  let last := min (zoneLast w) (f.nt - 1)
  let n := if f.nt ≤ first then 0 else last + 1 - first
  let vs := ((List.range n).map (· + first)).filterMap fun g => (f.value g).map fun v => (g, v)
  let e : EvalSt := { counted := vs.length * f.rows, clipped := decide (f.nt ≤ zoneLast w), stamp := f.stamp, index := f.index,
                      unsync := f.unsync, timeStep := f.timeStep }
  if vs = [] then e
  else if zoneSrc w = 1 then { e with m := some (sumInt (vs.map Prod.snd)) }
  else if zoneRed w = 2 then { e with m := some (divr (sumInt (vs.map Prod.snd)) vs.length) }
  else
    match pickBest (zoneRed w = 1) vs none with
    | some (g, v) => { e with m := some v, gauge := g }
    | none => e

/-- A frame of a source and channel is reduced for every enabled zone that reads it; view depends on the zone's word 0 (R255). -/
def State.zoneFrame (s : State) (src ch : Nat) (view : W72 → FrameView) : State :=
  if !s.rbit Reg.zoneCtrl 0 then s
  else forEach (s.enabledZones.filter fun z =>
      decide (zoneSrc (s.zoneWord z 0) = src) && decide (zoneCh (s.zoneWord z 0) = ch)) (fun z t =>
    let w := t.zoneWord z 0
    t.setZone z { t.zone z with due := (t.zone z).due ++ [reduceFrame w (view w)] }) s

/-! ## Requests of zones (R261) -/

/-- The lowest ceiling zones request for a group of a lamp port (R261). -/
def State.zoneCeiling (s : State) (p group : Nat) : Nat :=
  s.enabledZones.foldl (fun m z =>
    let w4 := s.zoneWord z 4
    if (s.zone z).asks ∧ s.zoneActs z 1 ∧ field w4 63 62 = p ∧ field w4 61 54 = group then
      min m (match s.zoneLevel z with | 0 => 255 | 1 => field w4 53 46 | _ => field w4 45 38)
    else m) 255

/-- The request a loop output takes: of the highest action level, of the lowest zone among equals (R261). -/
def State.zoneLoop (s : State) (n : Nat) : Option Nat :=
  (s.enabledZones.foldl (fun (b : Option (Nat × Nat)) z =>
    let w5 := s.zoneWord z 5
    if (s.zone z).asks ∧ s.zoneActs z 2 ∧ field w5 50 48 = n then
      let l := s.zoneLevel z
      let v := match l with | 0 => field w5 47 32 | 1 => field w5 31 16 | _ => field w5 15 0
      match b with
      | some (l', _) => if l' < l then some (l, v) else b
      | none => some (l, v)
    else b) none).map Prod.snd

/-! ## Assignment (R218, R270) -/

/-- Every enabled zone of a channel returns to NORMAL with no event. -/
def State.zonesRest (s : State) (ch : Nat) : State :=
  forEach (s.enabledZones.filter fun z => decide (zoneCh (s.zoneWord z 0) = ch)) (fun z t => (t.zoneFinish z).zoneRest z) s

/-- The cause that refuses a write of ASSIGN (R218). -/
def State.assignCheck (s : State) (cl : Nat) (v : W32) : Option Cause :=
  let running (ch : Nat) : Bool := s.rbit (Reg.ceCtrl ch) 0
  let new := field v 4 0
  let oldRuns := match s.served cl with | some ch => running ch | none => false
  if oldRuns || (bitOf v 8 && running new) || s.vendorOn cl then some .busy
  else if bitOf v 8 && (List.range 32).any fun k => decide (k ≠ cl) && decide (s.served k = some new) then some .range
  else none

/-- A write that leaves v in ASSIGN of a cluster (R218, R219, R270). -/
def State.assignWrite (s : State) (cl : Nat) (v : W32) (q : Req) : State :=
  match s.assignCheck cl v with
  | some c => s.err (clBase cl) c 0 q
  | none =>
    let old := s.served cl
    let s := s.setReg (Reg.clAssign cl) (v &&& 0x11F)
    let new := s.served cl
    if new = old then s
    else
      let s := match old with | some ch => s.zonesRest ch | none => s
      let s := match new with | some ch => s.zonesRest ch | none => s
      s.vendorLoad cl

/-- ASSIGN_WRITE (R218). -/
def execAssignWrite (q : Req) (cl : Clus) (v : W32) (s : State) : Host.Outcome State Fault Refusal :=
  .next (if s.shut then s else s.assignWrite cl v q)

/-! ## The ZONE block (R272) -/

/-- The live value of a ZONE register, where it has one. -/
def State.zoneLive (s : State) (off : Nat) : Option W32 :=
  match off with
  | 0x4 => some (BitVec.ofNat 32 (b2n ((List.range 64).any fun k => match s.cap k with | some c => c.copying | none => false) * 2 +
      b2n (s.rbit Reg.zoneCtrl 0)))
  | 0xC => some (BitVec.ofNat 32 s.evq.length)
  | _ => none

/-- The words of the head record; 0 for an empty queue. -/
def State.zoneWide (s : State) (off : Nat) : Option W72 :=
  if 0x20 ≤ off ∧ off < 0x50 then some (nth (nth s.evq 0 []) ((off - 0x20) / 12) 0) else none

/-- Whether a write that leaves v in a ZONE register is refused, beyond the ranges of its fields (R272). -/
def zoneRegCheck (s : State) (off : Nat) : Option Cause :=
  if (off = 0x50 ∨ off = 0x54 ∨ off = 0x58) ∧ s.rbit Reg.zoneCtrl 1 then some .busy else none

end Sys2Proof.Machine
end

