-- ==== Sys2Proof/Machine/Lamps.lean ====
section
/-!
DEFINITION. Lamp-field ports (R328 to R349): frames of a Sloe chain and of the broadcast bus, matrix planes, thermistor ceilings,
open-lamp diagnosis and emergency blanking.
-/
namespace Sys2Proof.Machine

/-- The block base of the lamp ports. -/
def lampBase : Nat := 0xA0000

/-- A port runs, its mode, field size, bit divider and PWM period (R329). -/
def State.lampOn (s : State) (p : Nat) : Bool := s.rbit (Reg.lampCfg p) 0
def State.lampMode (s : State) (p : Nat) : Nat := s.fld (Reg.lampCfg p) 5 4
def State.lampLen (s : State) (p : Nat) : Nat := s.fld (Reg.lampChain p) 10 0
def State.lampPer (s : State) (p : Nat) : Nat := s.fld (Reg.lampPwmPer p) 15 0

/-- BLANK of a port as EMERG holds it (R346). -/
def State.lampBlank (s : State) (p : Nat) : Bool := s.rbit Reg.lampEmerg p

/-- The port ceiling PCEIL (R334). -/
def State.portCeil (s : State) (p : Nat) : Nat := s.fld Reg.lampPortLimit (7 * p + 6) (7 * p)

/-- DARK of a group (R349). -/
def State.lampDark (s : State) (p g : Nat) : Bool := s.rbit (lampBase + 0x140 + 0x80 * p + 4 * (g / 32)) (g % 32)

/-- The group of a module (R332). -/
def State.lampGroup (s : State) (p m : Nat) : Nat :=
  field (s.groups.get 0 (128 * p + m / 8)) (8 * (m % 8) + 7) (8 * (m % 8))

/-! ## Thermistor slots (R333) -/

/-- tk of a thermistor slot. -/
def State.thCeil (s : State) (k : Nat) : Nat :=
  let t := s.fldS (Reg.lampThTemp k) 15 0
  let limit := s.fldS (Reg.lampThLim k) 31 16
  let warn := s.fldS (Reg.lampThLim k) 15 0
  if !s.rbit (Reg.lampThTemp k) 16 || s.rbit (Reg.lampThTemp k) 17 then s.fld (Reg.lampThCfg k) 7 0
  else if limit ≤ t then 0
  else if t ≤ warn then 255
  else (255 * (limit - t) / (limit - warn)).toNat

/-- The lowest ceiling of the enabled slots mapped to a group (R333). -/
def State.thermCeil (s : State) (p g : Nat) : Nat :=
  (List.range 16).foldl (fun m k =>
    let c := Reg.lampThCfg k
    if s.rbit c 31 ∧ s.fld c 25 24 = p ∧ s.fld c 23 16 = g then min m (s.thCeil k) else m) 255

/-- A valid reading of a lamp-board thermistor arrives, in 1/16 °C (R333). -/
def State.thReading (s : State) (k : Nat) (t : Int) : State :=
  { s.setReg (Reg.lampThTemp k) (BitVec.ofNat 32 (2 ^ 16 + (t % 2 ^ 16).toNat)) with thAt := s.thAt.set 0 k s.time.up }

/-- The reading of a slot goes stale (R333). -/
def State.thStale (s : State) (k : Nat) : State :=
  if s.rbit (Reg.lampThTemp k) 16 && !s.rbit (Reg.lampThTemp k) 17 then (s.setRbit (Reg.lampThTemp k) 17 true).fault Reg.lampFault 8
  else s

/-- TH_STALE_EXPIRE (R333). -/
def execThStaleExpire (k : Fin 16) (s : State) : Host.Outcome State Fault Refusal := .next (s.thStale k)

/-- After a write of TH_STALE the readings held are judged by the new value (R333, DEDUCED, log entry 13). -/
def State.thStaleWritten (s : State) : State :=
  forEach (List.range 16) (fun k t =>
    let old := decide (t.fld Reg.lampThStale 7 0 * 10000000 ≤ t.time.up - t.thAt.get 0 k)
    if old then t.thStale k else if t.rbit (Reg.lampThTemp k) 17 then t.setRbit (Reg.lampThTemp k) 17 false else t) s

/-! ## The snapshot (R331, R345) -/

/-- The next frame of a port is diagnostic (R345). -/
def State.diagDue (s : State) (p : Nat) : Bool :=
  s.rbit (Reg.lampDiag p) 16 && decide ((s.reg (Reg.lampFrameCnt p)).toNat % max (s.fld (Reg.lampDiag p) 15 0) 1 = 0)

/-- The effective code of an output and whether it is eligible (R331): c is its code, dark that of its group. -/
def lampCode (c gc per pceil : Nat) (diagEn dark blank diag : Bool) : Nat × Bool :=
  let lim := min (gc * per / 255) (pceil * per / 127)
  let e := min c lim
  let elig := diagEn && !dark && !blank && decide (64 ≤ lim)
  (if blank then 0 else if diag && elig && decide (e < 64) then 64 else e, elig)

/-- The codes of the buffer words, four outputs a word; a poisoned word gives zeros (R330, R331). -/
def bufferCodes (ws : List (W72 × Bool)) : List Nat :=
  ws.flatMap fun w => (List.range 4).map fun n => if w.2 then 0 else field w.1 (16 * n + 15) (16 * n)

/-- The snapshot of a frame: effective codes and eligible outputs (R331). -/
def State.lampSnapshot (s : State) (p : Nat) (diag : Bool) : List (Nat × Bool) × State :=
  let a := s.fld (Reg.lampValBase p) 27 0 * 256 + 4096 * s.fld (Reg.lampCtrl p) 0 0
  let (ws, t) := State.dramReadMany (4 * s.lampLen p) a s
  let bad := (ws.filter Prod.snd).length
  let t := if bad = 0 then t else t.count (Reg.lampPoisonCnt p) bad
  let ceil := ((List.range (s.lampLen p)).map fun m =>
    let g := s.lampGroup p m
    (min (s.zoneCeiling p g) (s.thermCeil p g), s.lampDark p g)).toArray
  ((bufferCodes ws).mapIdx fun o c =>
    let (gc, dark) := ceil.getD (o / 16) (0, true)
    lampCode c gc (s.lampPer p) (s.portCeil p) (s.rbit (Reg.lampDiag p) 16) dark (s.lampBlank p) diag, t)

/-! ## Output status (R343) -/

/-- The key of an output's status. -/
def outKey (p o : Nat) : Nat := 65536 * p + o

/-- STATUS and AGE of an output after a status slot. -/
def outStep (slot : BitVec 16) (elig : Bool) (v : BitVec 18) : BitVec 18 :=
  let st := field v 17 16
  let age := field v 15 0
  if slot.getLsbD 13 then withField v 17 16 3
  else if slot.getLsbD 15 then (if slot.getLsbD 14 then BitVec.ofNat 18 (2 * 65536) else BitVec.ofNat 18 65536)
  else BitVec.ofNat 18 ((if st = 1 then 0 else st) * 65536 + if elig then min (age + 1) 65535 else age)

/-- An accepted status slot of an output (R343). -/
def State.outUpdate (s : State) (p o : Nat) (slot : BitVec 16) (elig : Bool) : State :=
  let v := s.lampOuts.get 0 (outKey p o)
  let w := outStep slot elig v
  let limit := s.fld (Reg.lampAgeLimit p) 15 0
  let s := { s with lampOuts := s.lampOuts.set 0 (outKey p o) w }
  let entered (k : Nat) : Bool := decide (field w 17 16 = k) && decide (field v 17 16 ≠ k)
  let s := if entered 2 then (s.count (Reg.lampOpenCnt p) 1).fault Reg.lampFault (2 ^ (12 + p)) else s
  let s := if entered 3 then (s.count (Reg.lampOpenCnt p) 1).fault Reg.lampFault (2 ^ (8 + p)) else s
  if limit ≠ 0 ∧ field v 15 0 < limit ∧ limit ≤ field w 15 0 then s.fault Reg.lampFault (2 ^ (4 + p)) else s

/-- Every slot of a list, from output o on. -/
def State.outUpdates (p : Nat) (elig : Array Bool) : List (BitVec 16) → Nat → State → State
  | [], _, s => s
  | x :: r, o, s => State.outUpdates p elig r (o + 1) (s.outUpdate p o x (elig.getD o false))

/-! ## Frames -/

/-- The marker of a frame (R336). -/
def State.lampMarker (s : State) (p : Nat) : W32 := BitVec.ofNat 32 (0xA55A * 2 ^ 16 + s.fld (Reg.lampFrameCnt p) 15 0)

/-- CRC-8 of the broadcast bus (R338). -/
def crc8 (l : List Byte) : Byte :=
  l.foldl (fun c b => (List.range 8).foldl (fun x _ => if x.getLsbD 7 then (x <<< 1) ^^^ 7 else x <<< 1) (c ^^^ b)) 0

/-- A message of the broadcast bus with its CRC (R338). -/
def busMessage (cmd addr : Nat) (payload : List Byte) : List Byte :=
  let m := BitVec.ofNat 8 (cmd * 64 + addr) :: payload
  m ++ [crc8 m]

/-- A frame of the broadcast bus: WRITE to every module, SYNC and the first POLL (R338, R339). -/
def State.busFrame (s : State) (p : Nat) (codes : List Nat) (diag : Bool) : State :=
  let n := s.lampLen p
  let s := forEach (List.range n) (fun m t =>
    t.emit (.lampBus p (busMessage 0 m (((codes.drop (16 * m)).take 16).flatMap fun c => leBytes c 2)))) s
  let s := s.emit (.lampBus p (busMessage 1 0 (leBytes (s.lampPer p) 2 ++ [BitVec.ofNat 8 (b2n diag)])))
  let x := s.lamp p
  let s := s.setLamp p { x with
    past := x.elig :: x.past.take 2, active := if diag then x.active else codes, shown := codes, polls := List.range n }
  (s.setRbit (Reg.lampStat p) 3 false).emit (.lampBus p (busMessage 2 0 []))

/-- LAMP_FRAME_START (R330, R331, R345, R347): the snapshot, the DMA request and the frame's first bits. -/
def execLampFrameStart (p : Port4) (s : State) : Host.Outcome State Fault Refusal :=
  let mode := s.lampMode p
  if !s.lampOn p || (s.lamp p).inFrame || decide (2 ≤ mode) || (decide (mode = 1) && s.lampBlank p) then .next s
  else
    let diag := s.diagDue p && !s.lampBlank p
    let blank := s.lampBlank p
    let (l, s) := s.lampSnapshot p diag
    let codes := l.map Prod.fst
    let s := s.setLamp p { s.lamp p with
      inFrame := true, codes := codes, elig := l.map Prod.snd, diag := diag, snapBlank := blank, marker := s.lampMarker p, shifted := false
      slots := none
      request := (s.lamp p).request || s.rbit (Reg.lampCtrl p) 1 }
    .next (if mode = 0 then s.emit (.lampFrame p (s.lampMarker p) codes.reverse) else s.busFrame p codes diag)

/-- The status slots of a chain by output, from the 16-bit slots in the order received: that of output k of module m starts at received bit
256 (LEN - 1 - m) + 16 (15 - k) (R336). -/
def chainSlots (len : Nat) (rx : List (BitVec 16)) : List (BitVec 16) :=
  (List.range (16 * len)).map fun o => nth rx (16 * (len - 1 - o / 16) + (15 - o % 16)) 0

/-- LAMP_SHIFT_DONE (R336): the return stream ends with the marker the frame was sent with, or the latch is withheld; slots come in the order
received. -/
def execLampShiftDone (p : Port4) (marker : W32) (slots : List (BitVec 16)) (s : State) : Host.Outcome State Fault Refusal :=
  let x := s.lamp p
  if s.lampMode p ≠ 0 ∨ !x.inFrame ∨ x.shifted then .next s
  else if marker = x.marker then
    .next ((s.setLamp p { x with shifted := true, slots := some (chainSlots (s.lampLen p) slots) }).setRbit (Reg.lampStat p) 1 true)
  else
    let s := (s.setLamp p { x with shifted := true, slots := none }).setRbit (Reg.lampStat p) 1 false
    .next ((s.count (Reg.lampChainErrCnt p) 1).fault Reg.lampFault (2 ^ (16 + p.val)))

/-- What every frame end does: FRAME_CNT, FRAME_STAT and attention (R337, R347). -/
def State.frameDone (s : State) (p : Nat) (diag : Bool) : State :=
  let s := s.count (Reg.lampFrameCnt p) 1
  let s := s.setRbit Reg.lampFrameStat p true
  let s := if diag then s.setRbit Reg.lampFrameStat (4 + p) true else s
  if s.rbit (Reg.lampCtrl p) 2 then s.event 230 else s

/-- LAMP_FRAME_END (R337, R339, R343, R346): LE falls, or the last POLL ends. -/
def execLampFrameEnd (p : Port4) (s : State) : Host.Outcome State Fault Refusal :=
  let x := s.lamp p
  if !x.inFrame then .next s
  else if s.lampMode p = 1 then
    if x.polls ≠ [] then .next s else .next ((s.setLamp p { x with inFrame := false }).frameDone p x.diag)
  else if !x.shifted then .next s
  else
    match x.slots with
    | none => .next ((s.setLamp p { x with inFrame := false }).frameDone p x.diag)
    | some slots =>
      let s := State.outUpdates p (nth x.past 1 []).toArray slots 0 s
      let s := s.setLamp p { x with inFrame := false, past := x.elig :: x.past.take 2, pend := some (x.codes, x.diag) }
      let s := if x.snapBlank then s else s.setRbit (Reg.lampStat p) 3 (s.lampBlank p)
      .next ((s.emit (.lampLatch p x.diag)).frameDone p x.diag)

/-- PSYNC (R335, R337, R345): a PWM period starts. In a chain pending codes become active and diagnostic codes are shown for one period; on the
bus, where no PSYNC pulse is sent, the diagnostic codes of a SYNC end with their period (DESIGN CHOICE, log entry 57). -/
def execPsync (p : Port4) (s : State) : Host.Outcome State Fault Refusal :=
  if !s.lampOn p || decide (2 ≤ s.lampMode p) then .next s
  else if s.lampMode p = 1 then .next (s.setLamp p { s.lamp p with shown := (s.lamp p).active })
  else
    let x := s.lamp p
    let s := s.emit (.psync p)
    match x.pend with
    | none => .next (s.setLamp p { x with shown := x.active })
    | some (c, true) => .next (s.setLamp p { x with pend := none, shown := c })
    | some (c, false) => .next (s.setLamp p { x with pend := none, active := c, shown := c })

/-- The next module is polled, if one is left. -/
def State.nextPoll (s : State) (p : Nat) : State :=
  let x := s.lamp p
  let s := s.setLamp p { x with polls := x.polls.drop 1 }
  match x.polls.drop 1 with
  | [] => s
  | m :: _ => s.emit (.lampBus p (busMessage 2 m []))

/-- A reply failed (R339). -/
def State.busFail (s : State) (p : Nat) : State :=
  ((s.count (Reg.lampBusErrCnt p) 1).fault Reg.lampFault (2 ^ (20 + p))).nextPoll p

/-- BUS_REPLY (R338, R339, R343): the module polled answers with 32 status bytes and a CRC. -/
def execBusReply (p : Port4) (m : Nat) (bytes : List Byte) (s : State) : Host.Outcome State Fault Refusal :=
  let x := s.lamp p
  if !x.inFrame ∨ x.polls.head? ≠ some m then .next s
  else if bytes.length ≠ 33 ∨ crc8 (bytes.take 32) ≠ bytes.getD 32 0 then .next (s.busFail p)
  else
    let slots := (List.range 16).map fun k => BitVec.ofNat 16 (ofLeBytes ((bytes.drop (2 * k)).take 2))
    .next ((State.outUpdates p (nth x.past 1 []).toArray slots (16 * m) s).nextPoll p)

/-- BUS_REPLY_TIMEOUT (R339). -/
def execBusReplyTimeout (p : Port4) (m : Nat) (s : State) : Host.Outcome State Fault Refusal :=
  if (s.lamp p).inFrame ∧ (s.lamp p).polls.head? = some m then .next (s.busFail p) else .next s

/-! ## Matrix (R340, R341) -/

/-- The snapshot of a matrix frame: every plane word of the half; a poisoned word lights nothing (R331, R340). -/
def State.matrixSnapshot (s : State) (p : Nat) : State :=
  let n := s.lampLen p * (s.fld (Reg.lampMxCfg p) 31 28 + 1 - s.fld (Reg.lampMxCfg p) 27 24)
  let a := s.fld (Reg.lampValBase p) 27 0 * 256 + 4096 * s.fld (Reg.lampCtrl p) 0 0
  let (ws, s) := State.dramReadMany n a s
  let bad := (ws.filter Prod.snd).length
  let s := if bad = 0 then s else s.count (Reg.lampPoisonCnt p) bad
  s.setLamp p { s.lamp p with
    inFrame := true, row := 0, words := ws.map (fun w => if w.2 then 0 else w.1)
    request := (s.lamp p).request || s.rbit (Reg.lampCtrl p) 1 }

/-- MATRIX_PLANE (R340, R341): the next plane is latched and displayed; row 0 starts with a snapshot. -/
def execMatrixPlane (p : Port4) (s : State) : Host.Outcome State Fault Refusal :=
  if !s.lampOn p || decide (s.lampMode p ≠ 2) || s.lampBlank p then .next s
  else
    let hi := s.fld (Reg.lampMxCfg p) 31 28
    let lo := s.fld (Reg.lampMxCfg p) 27 24
    let s := if (s.lamp p).inFrame then s else s.matrixSnapshot p
    let x := s.lamp p
    let b := x.plane.getD hi
    let w := nth x.words ((hi - b) * s.lampLen p + x.row) 0
    let lit := 2 ^ (b - lo) * s.fld (Reg.lampMxCfg p) 15 0 * s.portCeil p / 127
    let s := s.setLamp p { x with shownRow := x.row }
    let s := (s.setRbit (Reg.lampStat p) 3 false).emit (.matrix p x.row b (w.extractLsb' 0 64) lit)
    let x := s.lamp p
    if lo < b then .next (s.setLamp p { x with plane := some (b - 1) })
    else if x.row + 1 < s.lampLen p then .next (s.setLamp p { x with plane := none, row := x.row + 1 })
    else .next ((s.setLamp p { x with plane := none, row := 0, inFrame := false }).frameDone p false)

/-! ## Emergency blanking (R346) -/

/-- BLANK of a port is set through the window: the pins blank at once; a broadcast frame and a matrix scan stop. -/
def State.emergSet (s : State) (p : Nat) : State :=
  let x := s.lamp p
  let s := (s.setRbit Reg.lampEmerg p true).setRbit (Reg.lampStat p) 3 true
  if s.lampMode p = 0 then s
  else
    let s := s.setLamp p { x with inFrame := false, polls := [], row := 0, plane := none }
    if s.lampMode p = 1 && x.inFrame then s.emit (.lampCut p) else s

/-- BLANK of a port is cleared: the first frame or scan whose snapshot begins after the clear releases the lamps. -/
def State.emergClear (s : State) (p : Nat) : State :=
  if !s.rbit Reg.lampEmerg p then s
  else
  let s := s.setRbit Reg.lampEmerg p false
  if (s.lamp p).inFrame then s.setLamp p { s.lamp p with snapBlank := true } else s

/-- The level of an output pin of a port, CK, DO, LE and A0 to A4 in order, where it stands still (R328, R341, R346): while EN is 0 every pin
is low but the one that blanks. -/
def State.lampPin (s : State) (p k : Nat) : Option Bool :=
  let on := s.lampOn p
  let blanked := s.rbit (Reg.lampStat p) 3
  match s.lampMode p, k with
  | 0, 4 => some blanked
  | 0, 0 | 0, 1 | 0, 2 | 0, 3 => if on then none else some false
  | 1, 1 => if on && !blanked then none else some false
  | 1, 2 => if on && !blanked then none else some on
  | 2, 3 => if on && !blanked then none else some blanked
  | 2, 0 | 2, 1 | 2, 2 => if on then none else some false
  | 2, k => if k < 4 then some false else some (on && bitOf (BitVec.ofNat 32 (s.lamp p).shownRow) (k - 4))
  | _, _ => some false

/-- EMERG_BLANK_SET (R346). -/
def execEmergBlankSet (_q : Req) (p : Port4) (s : State) : Host.Outcome State Fault Refusal := .next (if s.shut then s else s.emergSet p)

/-- EMERG_BLANK_CLEAR (R346). -/
def execEmergBlankClear (_q : Req) (p : Port4) (s : State) : Host.Outcome State Fault Refusal := .next (if s.shut then s else s.emergClear p)

/-! ## Writes of the LAMP registers -/

/-- LEN lies in the range of a mode (R329). -/
def lenOk (mode len : Nat) : Bool := decide (1 ≤ len) && decide (len ≤ match mode with | 0 => 1024 | 1 => 32 | _ => 16)

/-- DIV keeps the rule of a slew code (R342). -/
def slewOk (slew div : Nat) : Bool := decide ((match slew with | 1 => 8 | 2 => 32 | _ => 4) ≤ div)

/-- Whether a write that leaves v in a LAMP register is refused, beyond the ranges of its fields (R329, R333, R341, R342). -/
def lampCheck (s : State) (off : Nat) (v : W32) : Option Cause :=
  if 0x80 ≤ off ∧ off < 0xC0 then (if fieldS v 31 16 ≤ fieldS v 15 0 then some .range else none)
  else if off < 0x100 ∨ 0x300 ≤ off then none
  else
    let p := (off - 0x100) / 0x80
    let div := s.fld (Reg.lampTiming p) 6 0
    let unit := s.fld (Reg.lampMxCfg p) 15 0
    match (off - 0x100) % 0x80 with
    | 0x0 =>
      if s.lampOn p && decide (withBit v 0 true ≠ s.reg (Reg.lampCfg p)) then some .busy
      else if !lenOk (field v 5 4) (s.lampLen p) || !slewOk (field v 9 8) div then some .range
      else if field v 5 4 = 2 ∧ unit < 64 * div then some .range else none
    | 0x4 =>
      if s.lampOn p then some .busy
      else if 80 < field v 6 0 ∨ !slewOk (s.fld (Reg.lampCfg p) 9 8) (field v 6 0) then some .range
      else if s.lampMode p = 2 ∧ unit < 64 * field v 6 0 then some .range else none
    | 0x8 => if s.lampOn p then some .busy else if lenOk (s.lampMode p) (field v 10 0) then none else some .range
    | 0xC => if s.lampOn p then some .busy else none
    | 0x24 =>
      if s.lampOn p then some .busy
      else if field v 15 0 < 64 * div ∨ field v 31 28 < field v 27 24 then some .range else none
    | _ => none

/-- What an accepted write of a LAMP register does beside storing it; old is what the register held. -/
def lampEffect (s : State) (off : Nat) (old v : W32) : State :=
  if off = 0x18 then s.thStaleWritten
  else if 0x100 ≤ off ∧ off < 0x300 ∧ (off - 0x100) % 0x80 = 0 then
    let p := (off - 0x100) / 0x80
    let s := s.setRbit (Reg.lampStat p) 0 (bitOf v 0)
    if bitOf old 0 && !bitOf v 0 then
      s.setLamp p { s.lamp p with inFrame := false, polls := [], row := 0, plane := none, request := false }
    else s
  else s

/-- STAT of a port: DIAG_NEXT is live (R349). -/
def State.lampLive (s : State) (off : Nat) : Option W32 :=
  if 0x100 ≤ off ∧ off < 0x300 ∧ (off - 0x100) % 0x80 = 0x28 then
    let p := (off - 0x100) / 0x80
    let n := ((s.reg (Reg.lampFrameCnt p)).toNat + b2n (s.lamp p).inFrame) % 2 ^ 32
    let may := s.rbit (Reg.lampDiag p) 16 && decide (s.lampMode p < 2) && !s.lampBlank p
    some (withBit (s.reg (Reg.lampStat p)) 2 (may && decide (n % max (s.fld (Reg.lampDiag p) 15 0) 1 = 0)))
  else none

end Sys2Proof.Machine
end

