-- ==== Sys2Proof/Machine/Dma.lean ====
section
/-!
DEFINITION. The DMA engine (R298 to R317, R326): regions, descriptors, channels, bursts and reshuffles, BAR2, and the commands of the
attention unit (R318 to R325).
-/
namespace Sys2Proof.Machine

/-- The block bases of the engine and of the attention unit. -/
def dmaBase : Nat := 0xC0000
def attnBase : Nat := 0xD0000

/-! ## Regions (R298) -/

/-- A region: enabled, its SPACE, cluster, BASE and SIZE. -/
def State.rgnOn (s : State) (k : Nat) : Bool := s.rbit (Reg.dmaRgnCfg k) 31
def State.rgnSpace (s : State) (k : Nat) : Nat := s.fld (Reg.dmaRgnCfg k) 18 16
def State.rgnCl (s : State) (k : Nat) : Nat := s.fld (Reg.dmaRgnCfg k) 12 8
def State.rgnBase (s : State) (k : Nat) : Nat := (s.reg (Reg.dmaRgnBaseHi k)).toNat * 2 ^ 32 + (s.reg (Reg.dmaRgnBaseLo k)).toNat
def State.rgnSize (s : State) (k : Nat) : Nat :=
  (s.reg (Reg.dmaRgnSizeHi k)).toNat * 2 ^ 32 + (s.reg (Reg.dmaRgnSizeLo k)).toNat

/-! ## Descriptors (R300 to R302) -/

/-- A descriptor's fields. -/
structure Desc where
  op : Nat
  irq : Bool
  last : Bool
  paced : Bool
  next : Nat
  len : Nat
  tag : Nat
  src : Nat
  srcOfs : Nat
  dst : Nat
  dstOfs : Nat
  shape : W72
  /-- Every field marked zero is 0. -/
  clean : Bool

/-- The descriptor that four words spell (R301). -/
def descOf (ws : List W72) : Desc :=
  let w (i : Nat) : W72 := nth ws i 0
  let op := field (w 0) 71 68
  let len := field (w 0) 47 24
  let rest := if op = 0 then decide (w 3 = 0) else if op = 1 then decide (field (w 3) 21 0 = 0)
    else if op = 2 then decide (field (w 3) 62 0 = 0) else true
  { op := op, irq := (w 0).getLsbD 67, last := (w 0).getLsbD 66, paced := (w 0).getLsbD 65, next := field (w 0) 63 52
    len := if len = 0 then 16777216 else len, tag := field (w 0) 15 0
    src := field (w 1) 71 68, srcOfs := field (w 1) 35 0, dst := field (w 2) 71 68, dstOfs := field (w 2) 35 0, shape := w 3
    clean := !(w 0).getLsbD 64 && decide (field (w 0) 51 48 = 0) && decide (field (w 0) 23 16 = 0)
      && decide (field (w 1) 67 36 = 0) && decide (field (w 2) 67 36 = 0) && rest }

/-- ROWS, STRIDE and PH4 of a CORNER; HI, LO and k of a PLANE. -/
def Desc.rows (d : Desc) : Nat := field d.shape 71 48
def Desc.stride (d : Desc) : Nat := field d.shape 47 24
def Desc.elem (d : Desc) : Nat := field d.shape 23 22
def Desc.cols (d : Desc) : Nat := d.len / d.rows
def Desc.hi (d : Desc) : Nat := field d.shape 71 68
def Desc.lo (d : Desc) : Nat := field d.shape 67 64
def Desc.k (d : Desc) : Nat := if d.shape.getLsbD 63 then 16 else 18

/-- The source and destination spans (R302). -/
def Desc.srcSpan (d : Desc) : Nat :=
  match d.op with
  | 1 => (d.rows - 1) * d.stride + d.cols
  | 3 => 0
  | _ => d.len
def Desc.dstSpan (d : Desc) : Nat := if d.op = 2 then d.len / d.k * (d.hi - d.lo + 1) else d.len

/-- The source offsets that destination word i takes, in order (R313 to R315). -/
def Desc.sources (d : Desc) (i : Nat) : List Nat :=
  match d.op with
  | 0 => [i]
  | 1 =>
    if d.elem = 0 then [i % d.rows * d.stride + i / d.rows]
    else
      let q := i % d.rows % (d.rows / 4)
      (List.range 4).map fun r => (4 * q + r) * d.stride + i / d.rows
  | 2 =>
    let j := i % (d.len / d.k)
    (List.range d.k).map fun m => d.k * j + m
  | _ => []

/-- Destination word i is the first that takes its source words. -/
def Desc.firstUse (d : Desc) (i : Nat) : Bool :=
  match d.op with
  | 1 => decide (d.elem = 0) || decide (i % d.rows / (d.rows / 4) = 0)
  | 2 => decide (i / (d.len / d.k) = 0)
  | _ => true

/-- Destination word i from the source words it takes (R313 to R315). -/
def Desc.word (d : Desc) (i : Nat) (xs : List W72) : W72 :=
  match d.op with
  | 0 => nth xs 0 0
  | 1 =>
    if d.elem = 0 then nth xs 0 0
    else
      let n := i % d.rows / (d.rows / 4)
      BitVec.ofNat 72 ((List.range 4).foldl (fun a r =>
        let x := nth xs r 0
        a + field x (16 * n + 15) (16 * n) * 2 ^ (16 * r) + field x (65 + 2 * n) (64 + 2 * n) * 2 ^ (64 + 2 * r)) 0)
  | 2 =>
    let b := d.hi - i / (d.len / d.k)
    BitVec.ofNat 72 (bitsToNat (xs.flatMap fun x => (List.range 4).map fun n => x.getLsbD (16 * n + b)))
  | _ => d.shape

/-! ## Channels -/

/-- The words of a burst of a channel, by its working CFG (R306). -/
def State.dmaBurstLen (s : State) (n : Nat) : Nat := 8 * 2 ^ s.fld (Reg.dmaCfgAct n) 17 16

/-- A source asserts its request (R306). -/
def State.dmaRequested (s : State) (n req : Nat) : Bool :=
  if 1 ≤ req ∧ req ≤ 4 then (s.lamp (req - 1)).request
  else if req = 5 then s.padc.request
  else if req = 6 then s.hadc.request
  else if req = 7 ∨ req = 8 then decide (s.fld (Reg.canRxqLevel (req - 7)) 6 0 ≠ 0)
  else decide (s.dmaBurstLen n / 4 ≤ s.evq.length)

/-- A request is taken at the start of a burst (R306, R361). -/
def State.dmaTake (s : State) (req : Nat) : State :=
  if 1 ≤ req ∧ req ≤ 4 then s.setLamp (req - 1) { s.lamp (req - 1) with request := false }
  else if req = 5 then { s with padc := { s.padc with request := false, mark := (s.reg Reg.pfeRingWp).toNat } }
  else if req = 6 then { s with hadc := { s.hadc with request := false, mark := (s.reg Reg.hkRingWp).toNat } }
  else if req = 7 ∨ req = 8 then
    s.setFld (Reg.canRxqLevel (req - 7)) 6 0 (s.fld (Reg.canRxqLevel (req - 7)) 6 0 - 1)
  else s

/-- The request a channel's descriptor waits for, none where it is not paced. -/
def State.dmaPace (s : State) (n : Nat) (d : Desc) : Option Nat :=
  let req := s.fld (Reg.dmaCfgAct n) 29 24
  if d.paced ∧ req ≠ 0 then some req else none

/-- A channel has a burst ready: words are still to be written and the request it waits for, if any, is asserted (R306). -/
def State.dmaReady (s : State) (n : Nat) : Bool :=
  match (s.dma n).desc with
  | none => false
  | some ws =>
    decide ((s.dma n).moved < (descOf ws).dstSpan)
      && match s.dmaPace n (descOf ws) with | some req => s.dmaRequested n req | none => true

/-- A channel waits for a request with no burst in progress (R305). -/
def State.dmaStarved (s : State) (n : Nat) : Bool :=
  match (s.dma n).desc with
  | none => false
  | some ws =>
    decide ((s.dma n).moved < (descOf ws).dstSpan)
      && match s.dmaPace n (descOf ws) with | some req => !s.dmaRequested n req | none => false

/-- STATE of a channel (R326). -/
def State.dmaState (s : State) (n : Nat) : Nat :=
  if (s.dma n).desc.isNone then 0 else if (s.dma n).stop then 3 else if s.dmaStarved n then 2 else 1

/-- PRIO of a channel, by its working CFG. -/
def State.dmaPrio (s : State) (n : Nat) : Nat := s.fld (Reg.dmaCfgAct n) 9 8

/-- The channel granted the next burst: of the highest PRIO that has one ready, the next after the channel last granted there (R306). -/
def State.dmaGrant (s : State) : Option Nat :=
  let ready := (List.range 64).filter s.dmaReady
  let top := ready.foldl (fun p n => max p (s.dmaPrio n)) 0
  let ready := ready.filter fun n => s.dmaPrio n = top
  ((ready.filter fun n => nth s.dmaLast top 63 < n) ++ ready).head?

/-- The channels a register shows the activity of: all for RUN_HI, one for STATUS, CUR and REMAIN. -/
def dmaShows (off : Nat) : List Nat :=
  if off = 4 then (List.range 8).map (56 + ·)
  else if 0x100 ≤ off ∧ off < 0x1100 ∧ off % 0x40 ∈ [0x10, 0x14, 0x18] then [(off - 0x100) / 0x40]
  else []

/-- A register shows what an owned channel does, which no rule fixes (R312, DESIGN CHOICE, log entry 92). -/
def State.dmaShowsOwner (s : State) (off : Nat) : Bool := (dmaShows off).any fun n => decide (s.dmaOwner n ≠ 0)

/-- A register of the engine as read: STATE and OWNER are live, and what an owned channel does is a free value (R312, R326). -/
def State.dmaLive (s : State) (off : Nat) : W32 :=
  let v := s.reg (dmaBase + off)
  let f := s.free.toNat
  if off = 4 then
    (List.range 8).foldl (fun v i => if s.dmaOwner (56 + i) = 0 then v else withBit v (24 + i) (s.free.getLsbD i)) v
  else match dmaShows off with
    | [] => v
    | n :: _ =>
      let own := decide (s.dmaOwner n ≠ 0)
      if off % 0x40 = 0x10 then withField (withField v 17 16 (s.dmaOwner n)) 2 0 (if own then f % 4 else s.dmaState n)
      else if !own then v
      else if off % 0x40 = 0x14 then BitVec.ofNat 32 (3840 + f % 256)
      else BitVec.ofNat 32 (f % 2 ^ 25)

/-- A fault of the engine with the channel that had it (R326). -/
def State.dmaFaultOf (s : State) (n bit : Nat) : State :=
  (s.setReg Reg.dmaFaultCh (BitVec.ofNat 32 n)).fault Reg.dmaFault (2 ^ bit)

/-- RUN bit of a channel. -/
def State.dmaRunBit (s : State) (n : Nat) (b : Bool) : State := s.setRbit (Reg.dmaRunLo + 4 * (n / 32)) (n % 32) b

/-- A channel stops with a WHY (R304, R308). -/
def State.dmaStopped (s : State) (n why : Nat) : State :=
  let s := s.setDma n { s.dma n with desc := none, stop := false, moved := 0, poisoned := false, stream := [] }
  ((s.dmaRunBit n false).setFld (Reg.dmaStatus n) 27 24 why).event (128 + n)

/-- The vendor region of a cluster with a vendor role meets words a to a + span - 1 of its SRAM (R197, R303). -/
def State.inVendorRegion (s : State) (cl a span : Nat) : Bool := s.vendorOn cl && decide (a < 0x4000) && decide (span ≠ 0)

/-- The first check of R303 that a fetched descriptor fails, as its WHY. -/
def State.descCheck (s : State) (n : Nat) (d : Desc) : Option Nat :=
  if 4 ≤ d.op ∨ !d.clean ∨ d.op = 1 ∧ 2 ≤ d.elem then some 3
  else if d.op = 1 ∧ (d.rows = 0 ∨ d.len % d.rows ≠ 0 ∨ d.elem = 1 ∧ d.rows % 4 ≠ 0) then some 4
  else if d.op = 2 ∧ (d.hi < d.lo ∨ d.len % d.k ≠ 0) then some 4
  else
    let srcOk := d.op = 3 ∨ s.rgnOn d.src ∧ s.rgnSpace d.src ≠ 3 ∧ d.srcOfs + d.srcSpan ≤ s.rgnSize d.src
    let dstOk := s.rgnOn d.dst ∧ s.rgnSpace d.dst ≠ 4 ∧ d.dstOfs + d.dstSpan ≤ s.rgnSize d.dst
    if ¬(srcOk ∧ dstOk) then some 5
    else if s.rgnSpace d.dst = 1 ∧ s.dmaOwner n = 0 ∧ s.inVendorRegion (s.rgnCl d.dst) (s.rgnBase d.dst + d.dstOfs) d.dstSpan then some 6
    else none

/-- The four words of a descriptor of the table (R300). -/
def State.descWords (s : State) (d : Nat) : List W72 := s.descs.slice 0 (4 * d) 4

/-- Fetch and check a descriptor; it becomes the channel's current one (R303). -/
def State.descFetch (s : State) (n d : Nat) : State :=
  let ws := s.descWords d
  let s := s.setReg (Reg.dmaCur n) (BitVec.ofNat 32 d)
  match s.descCheck n (descOf ws) with
  | some why => (s.dmaFaultOf n (why - 1)).dmaStopped n why
  | none =>
    let s := s.setReg (Reg.dmaRemain n) (BitVec.ofNat 32 (descOf ws).dstSpan)
    s.setDma n { s.dma n with desc := some ws, moved := 0, poisoned := false, stream := [] }

/-- Whether a write that leaves v in a register of a channel is refused (R312). -/
def State.dmaChanCheck (s : State) (n : Nat) : Option Cause := if s.dmaOwner n ≠ 0 then some .busy else none

/-- A write that reaches a shadow in the cycle of its hand-over stays for the next one; LATE_SHADOW sets and FAULT_CH takes the channel (R49,
R311). -/
def State.dmaLate (s : State) (n : Nat) : Option ShadowWrite → State
  | none => s
  | some x =>
    let off := 0x100 + 0x40 * n + (if x.link then 8 else 4)
    match Blk.dma.row off with
    | none => s
    | some (r, _, _) => s.lateWrite dmaBase off r (fun _ => s.dmaChanCheck n) x.q x.v (fun t => t.dmaFaultOf n 8)

/-- The hand-over of both shadows (R311). -/
def State.dmaHandOver (s : State) (n : Nat) : State :=
  let link := if s.rbit (Reg.dmaLink n) 12 then some (s.fld (Reg.dmaLink n) 11 0) else none
  let s := s.setReg (Reg.dmaCfgAct n) (s.reg (Reg.dmaCfg n))
  (s.setRbit (Reg.dmaLink n) 12 false).setDma n { s.dma n with link := link }

/-- A descriptor boundary after a descriptor, or at GO with none (R304); late is a shadow write in its cycle. -/
def State.dmaBoundary (s : State) (n : Nat) (d : Option Desc) (late : Option ShadowWrite) : State :=
  if (s.dma n).stop then s.dmaStopped n 2
  else
    let s := (s.dmaHandOver n).dmaLate n late
    match (s.dma n).link, d with
    | some k, _ => s.descFetch n k
    | none, some d => if d.last then s.dmaStopped n 1 else s.descFetch n d.next
    | none, none => s

/-- Why a write of GO is refused (R304, R312). -/
def State.dmaGoCheck (s : State) (n : Nat) : Option Cause :=
  if s.dmaOwner n ≠ 0 ∨ (s.dma n).desc.isSome then some .busy
  else if !s.rbit (Reg.dmaLink n) 12 then some .range
  else none

/-- GO starts a chain (R304). -/
def State.dmaStart (s : State) (n : Nat) (late : Option ShadowWrite) : State :=
  ((s.setFld (Reg.dmaStatus n) 27 24 0).dmaRunBit n true).dmaBoundary n none late

/-- DMA_GO (R304). -/
def execDmaGo (q : Req) (e : DmaEdge) (s : State) : Host.Outcome State Fault Refusal :=
  .next (if s.shut then s else match s.dmaGoCheck e.chan with
  | some c => s.err dmaBase c (0x100 + 0x40 * e.chan.val) q
  | none => s.dmaStart e.chan e.late)

/-- STOP acts (R305): it waits for the boundary, or ends a descriptor that waits for a request. -/
def State.dmaHalt (s : State) (n : Nat) : State :=
  if (s.dma n).desc.isNone then s
  else if s.dmaStarved n then s.dmaStopped n 2
  else s.setDma n { s.dma n with stop := true }

/-- DMA_STOP (R305). -/
def execDmaStop (q : Req) (n : Fin 64) (s : State) : Host.Outcome State Fault Refusal :=
  .next (if s.shut then s else match s.dmaChanCheck n with
  | some c => s.err dmaBase c (0x100 + 0x40 * n.val) q
  | none => s.dmaHalt n)

/-- Why a write of CTRL is refused: STOP acts first, and GO is judged on the state it leaves; a write refused does nothing (R35, DESIGN CHOICE,
DESIGN CHOICE, log entry 92). -/
def State.dmaCtrlCheck (s : State) (n : Nat) (go : W32) : Option Cause :=
  if s.dmaOwner n ≠ 0 then some .busy
  else if !bitOf go 0 then none
  else if bitOf go 1 then (s.dmaHalt n).dmaGoCheck n else s.dmaGoCheck n

/-- An accepted write of CTRL of a channel (R304, R305): STOP first, then GO (R35, DESIGN CHOICE, log entry 92). -/
def State.dmaCtrlWrite (s : State) (n : Nat) (go : W32) : State :=
  let s := if bitOf go 1 then s.dmaHalt n else s
  if bitOf go 0 then s.dmaStart n none else s

/-! ## Bursts (R306 to R310) -/

/-- Eight-bit bytes of a host stream, nine to a word (R316). -/
def hostWord (bs : List Byte) : W72 := BitVec.ofNat 72 (ofLeBytes (bs.take 9))

/-- What a burst has read: the host bytes still to come, the words it read before, and the words formed. -/
structure BurstSt where
  host : List Byte
  read : Nat
  st : State
  out : List (W72 × Bool) := []

/-- The SRAM of a cluster loses what is written while its domain is gated, and what is read then is a free value (R194, DESIGN CHOICE, log
entry 92). -/
def State.sramRead (s : State) (cl a : Nat) : W72 × State :=
  if s.dspPowered cl then (s.sram.get 0 (65536 * cl + a), s) else (s.free, s.drawn)

/-- Write a word of a cluster's SRAM. -/
def State.sramWrite (s : State) (cl a : Nat) (v : W72) : State :=
  if s.dspPowered cl then { s with sram := s.sram.set 0 (65536 * cl + a) v } else s

/-- The next word of the event queue: every fourth pops its record (R298, R307). -/
def BurstSt.event (b : BurstSt) : W72 × BurstSt :=
  let w := match b.st.evq with | r :: _ => nth r (b.read % 4) 0 | [] => 0
  let s := if b.read % 4 = 3 then b.st.evPop else b.st
  (w, { b with st := s, read := b.read + 1 })

/-- Read a source word at offset o of a region for a descriptor of channel n; a word of the event queue that a reshuffle takes again is
kept (R298, R307, R315). -/
def BurstSt.source (b : BurstSt) (n op rgn o : Nat) : (W72 × Bool) × BurstSt :=
  let s := b.st
  match s.rgnSpace rgn with
  | 0 => let (w, s) := s.dramRead (s.rgnBase rgn + o); (w, { b with st := s })
  | 1 => let (w, s) := s.sramRead (s.rgnCl rgn) (s.rgnBase rgn + o); ((w, false), { b with st := s })
  | 2 => ((hostWord b.host, false), { b with host := b.host.drop 9, st := s.emit (.hostRead (s.rgnBase rgn + 9 * o)) })
  | _ =>
    if op = 0 then ((b.event.1, false), b.event.2)
    else match (s.dma n).stream.lookup o with
      | some w => ((w, false), b)
      | none =>
        let (w, b) := b.event
        ((w, false), { b with st := b.st.setDma n { b.st.dma n with stream := (o, w) :: (b.st.dma n).stream } })

/-- Read a list of source offsets. -/
def burstSources (n op rgn : Nat) : List Nat → BurstSt → List (W72 × Bool) × BurstSt
  | [], b => ([], b)
  | o :: r, b =>
    let (w, b) := b.source n op rgn o
    let (ws, b) := burstSources n op rgn r b
    (w :: ws, b)

/-- Form destination words i onwards, n of them (R309, R313 to R315). -/
def burstWords (ch : Nat) (d : Desc) : Nat → Nat → BurstSt → BurstSt
  | 0, _, b => b
  | n + 1, i, b =>
    let (xs, b) := burstSources ch d.op d.src ((d.sources i).map (d.srcOfs + ·)) b
    let bad := (xs.filter Prod.snd).length
    let s := if d.firstUse i && decide (bad ≠ 0) then
        let s := (b.st.count (Reg.dmaPoisonCnt ch) bad).dmaFaultOf ch 7
        s.setDma ch { s.dma ch with poisoned := true }
      else b.st
    burstWords ch d n (i + 1) { b with st := s, out := b.out ++ [(d.word i (xs.map Prod.fst), decide (bad ≠ 0))] }

/-- The most recent session that a device address opened here (R409). -/
def State.bulkSession (s : State) (dev : Nat) : Option Nat :=
  (List.range 16).foldl (fun (m : Option Nat) i =>
    if (s.session i).active ∧ (s.session i).client = dev then
      match m with
      | some j => if (s.session j).opened < (s.session i).opened then some i else m
      | none => some i
    else m) none

/-- Words of a NET region are dropped (R409). -/
def State.bulkDrop (s : State) (n : Nat) : State := (s.count Reg.netBulkDropCnt n).fault Reg.netFault 32

/-- Words of a stream go out in a session as BULK frames of at most 144 words; REQ_ID is 0 (R409; DESIGN CHOICE, log entry 94). -/
def State.bulkSend (i stream : Nat) : Nat → Nat → List W72 → State → State
  | 0, _, _, s => s
  | n + 1, o, ws, s =>
    if ws = [] then s
    else
      let now := ws.take 144
      State.bulkSend i stream n (o + now.length) (ws.drop 144)
        (s.sessionSend i 5 0 0 (leBytes stream 1 ++ [0] ++ leBytes now.length 2 ++ leBytes o 4 ++ now.flatMap fun w => leBytes w.toNat 9))

/-- Write the words of a burst at offset o of a region (R298, R309, R316, R409); whether a session's send buffer has room is a free value
(DESIGN CHOICE, log entry 94). -/
def State.burstWrite (s : State) (rgn o : Nat) (ws : List (W72 × Bool)) : State :=
  let base := s.rgnBase rgn
  match s.rgnSpace rgn with
  | 0 => ((ws.zip (List.range ws.length)).foldl (fun t p => t.dramWrite (base + o + p.2) p.1.1 p.1.2) s)
  | 1 => (ws.zip (List.range ws.length)).foldl (fun t p => t.sramWrite (t.rgnCl rgn) (base + o + p.2) p.1.1) s
  | 2 => s.emit (.host (base + 9 * o) (ws.flatMap fun w => leBytes w.1.toNat 9))
  | _ =>
    match s.bulkSession (base % 2 ^ 16) with
    | none => s.bulkDrop ws.length
    | some i =>
      if s.free.getLsbD 0 then s.drawn.bulkDrop ws.length
      else State.bulkSend i (base / 2 ^ 16 % 256) ws.length o (ws.map Prod.fst) s.drawn

/-- A word a failed burst leaves undefined (R310, DESIGN CHOICE, log entry 4). -/
def State.freeWords : Nat → State → List (W72 × Bool) × State
  | 0, s => ([], s)
  | n + 1, s =>
    let (ws, t) := State.freeWords n s.drawn
    ((s.free, false) :: ws, t)

/-- One burst of a channel (R306, R307, R310): fail marks a HOST read that did not complete. -/
def State.dmaBurst (s : State) (n : Nat) (d : Desc) (still : Bool) (host : List Byte) (fail : Bool) : State :=
  let x := s.dma n
  let len := min (s.dmaBurstLen n) (d.dstSpan - x.moved)
  let pace := s.dmaPace n d
  let s := match pace with | some req => s.dmaTake req | none => s
  let reads := decide (d.op ≠ 3) && decide (s.rgnSpace d.src = 2)
  let writes := decide (s.rgnSpace d.dst = 2)
  let s := if pace.isSome && !still then s.count (Reg.dmaOrphanCnt n) 1 else s
  if (reads && fail) || (writes && !s.bme) then
    let (ws, t) := State.freeWords len s
    let s := if s.rgnSpace d.dst ≤ 1 then t.burstWrite d.dst (d.dstOfs + x.moved) ws else s
    (s.dmaFaultOf n 6).dmaStopped n 8
  else
    let b := burstWords n d len x.moved { host := host, read := if d.op = 0 then x.moved else x.stream.length, st := s }
    let s := b.st.burstWrite d.dst (d.dstOfs + x.moved) b.out
    let s := s.setDma n { s.dma n with moved := x.moved + len }
    s.setReg (Reg.dmaRemain n) (BitVec.ofNat 32 (d.dstSpan - (x.moved + len)))

/-- DMA_BURST (R306): the channel to which a burst is granted moves one; request says that the source still asserts its request when the burst
ends, host gives the bytes that host reads return. -/
def execDmaBurst (n : Fin 64) (request : Bool) (host : List Byte) (fail : Bool) (s : State) : Host.Outcome State Fault Refusal :=
  .next (match (s.dma n).desc with
  | none => s
  | some ws =>
    if s.dmaGrant = some n.val then
      State.dmaBurst { s with dmaLast := setNth s.dmaLast (s.dmaPrio n) n } n (descOf ws) request host fail
    else s)

/-- DESC_COMPLETE (R308): the last write was issued; the descriptor completes and its boundary falls. -/
def execDescComplete (e : DmaEdge) (s : State) : Host.Outcome State Fault Refusal :=
  let n := e.chan.val
  .next (match (s.dma n).desc with
  | none => s
  | some ws =>
    let d := descOf ws
    if (s.dma n).moved < d.dstSpan then s
    else
      let s := (s.count (Reg.dmaDoneCnt n) 1).setReg (Reg.dmaLastTag n) (BitVec.ofNat 32 d.tag)
      let s := if d.irq then s.event (128 + n) else s
      if (s.dma n).poisoned && s.rbit (Reg.dmaCfgAct n) 4 then s.dmaStopped n 7 else s.dmaBoundary n (some d) e.late)

/-! ## Writes of the DMA registers -/

/-- The current descriptor of a running channel names a region (R299). -/
def State.rgnNamed (s : State) (k : Nat) : Bool :=
  (List.range 64).any fun n => match (s.dma n).desc with
    | some ws => decide ((descOf ws).op ≠ 3 ∧ (descOf ws).src = k) || decide ((descOf ws).dst = k)
    | none => false

/-- Whether EN = 1 may be written to a region (R298, R299). -/
def State.rgnCheck (s : State) (k : Nat) (v : W32) : Option Cause :=
  let base := s.rgnBase k
  let size := s.rgnSize k
  match field v 18 16 with
  | 0 => if size = 0 ∨ s.dramWords < base + size then some .range else none
  | 1 => if size = 0 ∨ 65536 < base + size then some .range else none
  | 2 => if size = 0 ∨ base % 8 ≠ 0 then some .range else none
  | 3 | 4 => if size = 0 then some .range else none
  | _ => some .enc

/-- Whether a write that leaves v in a DMA register is refused, beyond the ranges of its fields (R299, R312). -/
def dmaCheck (s : State) (off : Nat) (v : W32) : Option Cause :=
  if 0x1800 ≤ off ∧ off < 0x1A00 then
    let k := (off - 0x1800) / 0x20
    if off % 0x20 = 0 then
      if s.rgnOn k then (if bitOf v 31 || s.rgnNamed k then some .busy else none)
      else if bitOf v 31 then s.rgnCheck k v else none
    else if s.rgnOn k then some .busy else none
  else if 0x100 ≤ off ∧ off < 0x1100 then s.dmaChanCheck ((off - 0x100) / 0x40)
  else none

/-- A write of v to CFG of a region, refused or stored (R299). -/
def State.rgnWrite (s : State) (k : Nat) (v : W32) (q : Req) : State :=
  let v := v &&& 0x80071F00
  match dmaCheck s (0x1800 + 0x20 * k) v with
  | some c => s.err dmaBase c (0x1800 + 0x20 * k) q
  | none => s.setReg (Reg.dmaRgnCfg k) v

/-- RGN_ENABLE (R299). -/
def execRgnEnable (q : Req) (k : Fin 16) (v : W32) (s : State) : Host.Outcome State Fault Refusal := .next (if s.shut then s else s.rgnWrite k v q)

/-- A commit of word w of descriptor d, refused while the owner of a channel keeps the descriptor (R300, R312). -/
def State.descCommit (s : State) (d w : Nat) (v : W72) (q : Req) : State :=
  if 3840 ≤ d ∧ s.dmaOwned then s.err dmaBase .busy (0x40 * d + 0x10 * w) q
  else { s with descs := s.descs.set 0 (4 * d + w) v }

/-! ## BAR2 (R317) -/

/-- Bytes a to a + n - 1 of a word's nine. -/
def bytesIn (w : W72) (a n : Nat) : List Byte := ((leBytes w.toNat 9).drop a).take n

/-- The bytes of a BAR2 read from byte b on, n bytes, over at most k words. -/
def State.bar2Bytes : Nat → Nat → Nat → State → List Byte × Bool × State
  | 0, _, _, s => ([], false, s)
  | k + 1, b, n, s =>
    if n = 0 then ([], false, s)
    else
      let m := min n (9 - b % 9)
      let (w, s) := s.dramRead (b / 9)
      let (r, p, s) := State.bar2Bytes k (b + m) (n - m) s
      (bytesIn w.1 (b % 9) m ++ r, w.2 || p, s)

/-- BAR2_READ (R317): the bytes go out, marked poisoned where a word is. -/
def execBar2Read (byte len : Nat) (s : State) : Host.Outcome State Fault Refusal :=
  if s.boot.held then .next s
  else if s.scrapped then .next (s.emit (.bar2 (List.replicate len 0) false))
  else
    let (bs, p, s) := State.bar2Bytes (len / 9 + 2) byte len s
    .next (s.emit (.bar2 bs p))

/-- Write bytes from byte b on, over at most k words (R317). -/
def State.bar2Put : Nat → Nat → List Byte → State → State
  | 0, _, _, s => s
  | k + 1, b, bs, s =>
    if bs = [] then s
    else
      let now := bs.take (9 - b % 9)
      let s :=
        if now.length = 9 then s.dramWrite (b / 9) (BitVec.ofNat 72 (ofLeBytes now)) false
        else
          let (w, s) := s.dramRead (b / 9)
          let old := leBytes w.1.toNat 9
          let new := old.take (b % 9) ++ now ++ old.drop (b % 9 + now.length)
          s.dramWrite (b / 9) (BitVec.ofNat 72 (ofLeBytes new)) w.2
      State.bar2Put k (b + now.length) (bs.drop now.length) s

/-- BAR2_WRITE (R317). -/
def execBar2Write (byte : Nat) (data : List Byte) (s : State) : Host.Outcome State Fault Refusal :=
  if s.shut then .next s else .next (State.bar2Put (data.length / 9 + 2) byte data s)

/-! ## The commands of the attention unit (R319 to R325) -/

/-- EXPORT_POP (R319). -/
def execExportPop (_q : Req) (v : Fin 128) (s : State) : Host.Outcome State Fault Refusal := .next (if s.shut then s else s.exportPop v)

/-- ATTN_EVENT (R321). -/
def execAttnEvent (v : Vec) (s : State) : Host.Outcome State Fault Refusal :=
  if s.shut then .next s else .next (s.event v)

/-- MODERATION_TIMEOUT (R321): TIME has passed since the first event that waits. -/
def execModerationTimeout (v : Vec) (s : State) : Host.Outcome State Fault Refusal :=
  .next (if v.val < 192 ∧ (s.vec v).cnt ≠ 0 ∧ s.fld (Reg.attnMod v) 31 16 ≠ 0 then
    (s.setVec v { s.vec v with cnt := 0 }).raise v else s)

/-- A write of a word of the MSI-X table; a vector unmasked sends the message it owes. The pending-bit array is read only (R322). -/
def State.msixWrite (s : State) (i : Nat) (v : W32) : State :=
  if i < 2048 then (s.setMsixWord i v).msixRelease (i / 4) else s

/-- MSIX_UNMASK (R322): the mask of a vector clears. -/
def execMsixUnmask (v : Vec) (s : State) : Host.Outcome State Fault Refusal :=
  if s.shut then .next s else .next (s.msixWrite (4 * v.val + 3) (withBit (s.msixWord (4 * v.val + 3)) 0 false))

/-- CONFIGURATION_SPACE_WRITE (R322, R327): Bus Master Enable, MSI-X enable and the function mask as the host sets them. -/
def execConfigurationSpaceWrite (bme msixEn fmask : Bool) (s : State) : Host.Outcome State Fault Refusal :=
  if s.boot.held then .next s
  else
    let s := { (s.setRbit Reg.attnStatus 1 bme).setRbit Reg.attnStatus 0 msixEn with funcMask := fmask }
    .next (forEach (List.range 512) (fun v t => t.msixRelease v) s)

/-- After a write of MODv the events that wait are judged by the new values (R321). -/
def State.modWritten (s : State) (v : Nat) : State :=
  if (s.vec v).cnt ≠ 0 ∧ s.modReached v then (s.setVec v { s.vec v with cnt := 0 }).raise v else s

/-- Whether a write that leaves v in an ATTN register is refused (R327). -/
def attnCheck (_s : State) (off : Nat) (v : W32) : Option Cause :=
  if 0x100 ≤ off ∧ off < 0x200 then
    if (List.range 8).any fun j => let c := field v (4 * j + 3) (4 * j); decide (1 ≤ c) && decide (c ≤ 7) then some .enc else none
  else none

end Sys2Proof.Machine
end

