-- ==== Sys2Proof/Machine/Loops.lean ====
section
/-!
DEFINITION. The loop outputs (R368 to R371, R374): the target of a loop, its failures and its readback.
-/
namespace Sys2Proof.Machine

/-- The request of a loop in µA, and whether it comes from VALUE (R370). -/
def State.loopQ (s : State) (n : Nat) : Nat × Bool :=
  if s.rbit (Reg.loopCfg n) 1 then
    match s.zoneLoop n with
    | some q => (q, false)
    | none => (s.fld (Reg.loopValue n) 15 0, true)
  else (s.fld (Reg.loopValue n) 15 0, true)

/-- A loop is failed (R370). -/
def State.loopFailed (s : State) (n : Nat) : Bool :=
  ((s.loopOut n).timedOut && (s.loopQ n).2 && decide (s.fld (Reg.loopCfg n) 31 16 ≠ 0)) || (s.loopOut n).mismatch

/-- The output current of a request (R369). -/
def loopTarget (range : W32) (failed dir : Bool) (q : Nat) : Nat :=
  let lo := 100 * field range 22 16
  let hi := 100 * field range 30 23
  if failed then (if dir then hi else lo)
  else if q ≤ lo then lo
  else if hi ≤ q then hi
  else min (max q (100 * field range 7 0)) (100 * field range 15 8)

/-- The DAC code of an output current (R369). -/
def loopCode (out : Nat) : Nat := (satu (divr (out * 65536) 25000) 16).toNat

/-- Form TARGET, DAC and the STATUS bits of a loop (R369 to R371, R374). -/
def State.loopForm (s : State) (n : Nat) : State :=
  let failed := s.loopFailed n
  let out := loopTarget (s.reg Reg.loopRange) failed (s.rbit (Reg.loopCfg n) 3) (s.loopQ n).1
  let s := (s.setReg (Reg.loopTarget n) (BitVec.ofNat 32 out)).setReg (Reg.loopDac n) (BitVec.ofNat 32 (loopCode out))
  ((s.setRbit Reg.loopStatus n (s.rbit (Reg.loopCfg n) 0)).setRbit Reg.loopStatus (8 + n) (s.loopOut n).isOpen).setRbit
    Reg.loopStatus (16 + n) failed

/-- What LOn_DRV is driven to: the code of the servo, none where DRV holds the transistor off (R368). -/
def State.loopDrive (s : State) (n : Nat) : Option Nat :=
  if s.rbit (Reg.loopCfg n) 0 then some (s.fld (Reg.loopDac n) 15 0) else none

/-- LOOP_TARGET_UPDATE (R369). -/
def execLoopTargetUpdate (n : Fin 8) (s : State) : Host.Outcome State Fault Refusal :=
  if s.shut then .next s else .next (s.loopForm n)

/-- LOOP_READBACK (R368): the current measured, in µA. -/
def execLoopReadback (n : Fin 8) (ua : Nat) (s : State) : Host.Outcome State Fault Refusal :=
  if s.shut then .next s else .next (s.setReg (Reg.loopReadback n) (BitVec.ofNat 32 (ua % 2 ^ 16)))

/-- Readback and target differ by more than MISMATCH (R370). -/
def State.loopOff (s : State) (n : Nat) : Bool :=
  decide (s.fld (Reg.loopMismatch n) 11 0 <
    ((s.fld (Reg.loopReadback n) 15 0 : Int) - s.fld (Reg.loopTarget n) 15 0).natAbs)

/-- LOOP_HOST_TIMEOUT (R370). -/
def execLoopHostTimeout (n : Fin 8) (s : State) : Host.Outcome State Fault Refusal :=
  if s.shut then .next s
  else
    .next (if s.fld (Reg.loopCfg n) 31 16 ≠ 0 ∧ (s.loopQ n).2 then
      ((s.setLoopOut n { s.loopOut n with timedOut := true }).fault Reg.loopFault (2 ^ (16 + n.val))).loopForm n
    else s)

/-- LOOP_MISMATCH (R370, R371). -/
def execLoopMismatch (n : Fin 8) (s : State) : Host.Outcome State Fault Refusal :=
  if s.shut then .next s
  else
    .next (if s.loopOff n && !(s.loopOut n).isOpen then
      ((s.setLoopOut n { s.loopOut n with mismatch := true }).fault Reg.loopFault (2 ^ (8 + n.val))).loopForm n
    else s)

/-- LOOP_MISMATCH_CLEAR (R370). -/
def execLoopMismatchClear (n : Fin 8) (s : State) : Host.Outcome State Fault Refusal :=
  if s.shut then .next s else .next (if s.loopOff n then s else (s.setLoopOut n { s.loopOut n with mismatch := false }).loopForm n)

/-- LOOP_OPEN (R371): DRV has stayed at its limit, which a DRV that holds the transistor off does not (R368). -/
def execLoopOpen (n : Fin 8) (s : State) : Host.Outcome State Fault Refusal :=
  if s.shut then .next s
  else
    .next (if (s.loopDrive n).isSome ∧ 3600 ≤ s.fld (Reg.loopTarget n) 15 0 then
      ((s.setLoopOut n { s.loopOut n with isOpen := true }).fault Reg.loopFault (2 ^ n.val)).loopForm n
    else s)

/-- LOOP_OPEN_CLEAR (R371). -/
def execLoopOpenClear (n : Fin 8) (s : State) : Host.Outcome State Fault Refusal :=
  if s.shut then .next s else .next ((s.setLoopOut n { s.loopOut n with isOpen := false }).loopForm n)

/-- Whether a write that leaves v in a LOOP register is refused, beyond the ranges of its fields (R369). -/
def loopCheck (_s : State) (off : Nat) (v : W32) : Option Cause :=
  if off = 0 then
    if field v 22 16 ≤ 36 ∧ 210 ≤ field v 30 23 ∧ field v 22 16 < field v 7 0 ∧ field v 7 0 < field v 15 8 ∧
      field v 15 8 < field v 30 23 then none else some .range
  else none

/-- After a write of a LOOP register the loops it touches form their targets; a write of VALUE ends a timeout (R369, R370). -/
def loopEffect (s : State) (off : Nat) : State :=
  if off = 0 then forEach (List.range 8) (fun n t => t.loopForm n) s
  else if 0x100 ≤ off ∧ off < 0x200 then
    let n := (off - 0x100) / 0x20
    if off % 0x20 = 4 then (s.setLoopOut n { s.loopOut n with timedOut := false }).loopForm n
    else if off % 0x20 = 0 then s.loopForm n
    else s
  else s

end Sys2Proof.Machine
end

