-- ==== Sys2Proof/Machine/LocalWindow.lean ====
section
/-!
DEFINITION. The local window's buffer (R420): the request it holds and the reply that replaces it.
-/
namespace Sys2Proof.Machine

/-- Bytes into LOCAL_BUF from word k on. -/
def State.localPut : Nat → List Byte → Nat → State → State
  | 0, _, _, s => s
  | n + 1, l, k, s => State.localPut n (l.drop 4) (k + 1)
      (if l = [] then s else
        let old := leBytes (s.reg (Reg.netLocalBuf k)).toNat 4
        s.setReg (Reg.netLocalBuf k) (BitVec.ofNat 32 (ofLeBytes (l.take 4 ++ old.drop (min l.length 4)))))

/-- The request in LOCAL_BUF. -/
def State.localRequest (s : State) : List Byte :=
  ((List.range 264).flatMap fun k => leBytes (s.reg (Reg.netLocalBuf k)).toNat 4).take (s.fld Reg.netLocalLen 10 0)

/-- A reply of the local window replaces the buffer's contents from byte 0; an empty one stands for a dropped frame (R420, DEDUCED, log entry
16). -/
def State.localReply (s : State) (flags : Nat) (payload : List Byte) : State :=
  let hd := frameHdr s.net.localHdr
  let h : FrameHdr := { hd with flags := flags, src := hd.dst, dst := hd.src, len := payload.length }
  let bytes := if flags = 0 then [] else h.bytes ++ payload
  let s := (State.localPut 264 bytes 0 s).setReg Reg.netLocalLen (BitVec.ofNat 32 bytes.length)
  let s := { s with net := { s.net with localBusy := false, localHdr := [] } }
  (s.setRbit Reg.netLocalStat 0 true).event 234

end Sys2Proof.Machine
end

