-- ==== Sys2Proof/Machine/Envm.lean ====
section
/-!
DEFINITION. The eNVM as memory (R440): its regions, sectors and erase counts, words that lose bits and their single-bit correction, the
CRC-32 of R388, and which slots are valid.
-/
namespace Sys2Proof.Machine

/-! ## Regions and sectors (R440) -/

/-- The first sector of 4 KiB of a region and how many it has: image A, configuration A, calibration A, factory trim, life-cycle record, image
B, configuration B, calibration B, secrets, in the table's order. -/
def nvmRegion : Nat → Nat × Nat
  | 0 => (0x000, 384)
  | 1 => (0x180, 64)
  | 2 => (0x1C0, 32)
  | 3 => (0x1E0, 16)
  | 4 => (0x1F0, 16)
  | 5 => (0x200, 384)
  | 6 => (0x380, 64)
  | 7 => (0x3C0, 32)
  | _ => (0x3E0, 16)

/-- The regions of image, configuration slot and calibration slot i: 0 A, 1 B; of the life-cycle record and the secrets. -/
def nvmImage (i : Nat) : Nat := 5 * i
def nvmConfig (i : Nat) : Nat := 5 * i + 1
def nvmCal (i : Nat) : Nat := 5 * i + 2
def nvmLife : Nat := 4
def nvmSecrets : Nat := 8

/-- The bank of 2 MiB a region lies in. -/
def nvmBank (k : Nat) : Nat := (nvmRegion k).1 / 512

/-- The first n sectors of a region are erased: each counts one more erase, and words there have no flipped bit left. -/
def NvmSt.eraseSectors (x : NvmSt) (k n : Nat) : NvmSt :=
  let a := (nvmRegion k).1
  { x with
    erases := (List.range n).foldl (fun m i => m.set 0 (a + i) (m.get 0 (a + i) + 1)) x.erases
    flips := x.flips.dropRange (512 * a) (512 * (a + n)) }

/-- A region is erased. -/
def NvmSt.eraseRegion (x : NvmSt) (k : Nat) : NvmSt := x.eraseSectors k (nvmRegion k).2

/-- An operation starts that erases region k. -/
def State.nvmStart (s : State) (op : NvmOp) (k : Nat) : State :=
  { s with nvm := { s.nvm.eraseRegion k with ops := s.nvm.ops ++ [op] } }

/-- The largest erase count of any sector, saturating (R449). -/
def NvmSt.wear (x : NvmSt) : Nat := min (x.erases.cells.foldl (fun m c => max m c.2) 0) 65535

/-! ## Words and their check bits (R440, R442) -/

/-- How many bits of a word of 64 bits and 8 check bits have flipped. -/
def flipped (w : BitVec 72) : Nat := ((List.range 72).filter fun i => w.getLsbD i).length

/-- The bits of words flip, each word named by its offset over 8; words beyond the eNVM are none. -/
def NvmSt.flip (x : NvmSt) (l : List (Nat × BitVec 72)) : NvmSt :=
  { x with flips := l.foldl (fun m p => if p.1 < 2 ^ 19 then m.set 0 p.1 (m.get 0 p.1 ^^^ p.2) else m) x.flips }

/-- The flipped words of a region. -/
def NvmSt.worn (x : NvmSt) (k : Nat) : List (BitVec 72) :=
  let a := (nvmRegion k).1
  (x.flips.cells.filter fun c => decide (512 * a ≤ c.1) && decide (c.1 < 512 * (a + (nvmRegion k).2))).map Prod.snd

/-- No word of a region is beyond correction: two flipped bits or more are (DESIGN CHOICE, log entry 105). -/
def NvmSt.sound (x : NvmSt) (k : Nat) : Bool := (x.worn k).all fun w => decide (flipped w ≤ 1)

/-- A region is read: a corrected word sets ECC_CORR, one beyond correction ECC_UNCORR (R442). -/
def State.nvmRead (s : State) (k : Nat) : State :=
  let l := s.nvm.worn k
  let bits := (if l.any fun w => decide (flipped w = 1) then 4 else 0) ||| (if l.any fun w => decide (2 ≤ flipped w) then 8 else 0)
  s.fault Reg.nvmFault bits

/-! ## The CRC-32 and the commit record (R388) -/

/-- One bit of the reflected CRC-32 of IEEE 802.3. -/
def crcBit (c : W32) : W32 := if c.getLsbD 0 then (c >>> 1) ^^^ 0xEDB88320 else c >>> 1

/-- One byte of it. -/
def crcByte (c : W32) (b : Byte) : W32 := crcBit (crcBit (crcBit (crcBit (crcBit (crcBit (crcBit (crcBit (c ^^^ b.setWidth 32))))))))

/-- The CRC-32 of bytes, with initial value and final XOR FFFF_FFFFH (R388). -/
def crc32 (l : List Byte) : W32 := l.foldl crcByte 0xFFFFFFFF ^^^ 0xFFFFFFFF

/-- The header and body of a calibration slot as bytes: SEQ, then each address and value, low byte first (DESIGN CHOICE, log entry 105). -/
def CalSlotNv.bytes (x : CalSlotNv) : List Byte := leBytes x.seq.toNat 4 ++ x.body.flatMap fun p => leBytes p.1 4 ++ leBytes p.2 4

/-- The CRC and the commit record are written behind header and body (R388). -/
def CalSlotNv.seal (x : CalSlotNv) : CalSlotNv := { x with crc := crc32 x.bytes, commit := some x.seq }

/-- A slot is valid when its CRC matches and its commit record carries its SEQ (R389). -/
def CalSlotNv.valid (x : CalSlotNv) : Bool := x.written && decide (x.commit = some x.seq) && decide (x.crc = crc32 x.bytes)

/-- What the choice of a slot looks at (R389): written at all, valid, its SEQ. -/
structure SlotLook where
  written : Bool := false
  valid : Bool := false
  seq : W32 := 0
  deriving DecidableEq, Repr

/-- The slot in force at boot, and the flags CAL_RESTORED and CAL_NONE (R389). -/
def slotChoose (a b : SlotLook) : Option Nat × Nat :=
  let torn (x : SlotLook) : Bool := x.written && !x.valid
  if a.valid && b.valid then
    let d := (a.seq - b.seq).toNat
    (some (if 1 ≤ d ∧ d < 2 ^ 31 then 0 else 1), 0)
  else if a.valid then (some 0, if torn b then 2 ^ 7 else 0)
  else if b.valid then (some 1, if torn a then 2 ^ 7 else 0)
  else (none, 2 ^ 8 + if torn a || torn b then 2 ^ 7 else 0)

/-- Calibration slot i as the boot looks at it: a word beyond correction makes it invalid (R389, R442). -/
def NvmSt.calLook (x : NvmSt) (i : Nat) : SlotLook :=
  let y := if i = 0 then x.cal.1 else x.cal.2
  { written := y.written, valid := y.valid && x.sound (nvmCal i), seq := y.seq }

end Sys2Proof.Machine
end

