-- ==== Sys2Proof/Machine/Floats.lean ====
section
/-!
DEFINITION. IEEE 754 binary64 and binary32 values with round to nearest even (R359, R384, R394): a finite value is its sign and
m times 2^e, exact; each operation rounds its exact result once.
-/
namespace Sys2Proof.Machine

/-- A floating-point value. -/
inductive Fl where
  | nan
  | inf (neg : Bool)
  | fin (neg : Bool) (m : Nat) (e : Int)
  deriving DecidableEq, Repr

/-- A format: precision, least exponent of a unit and greatest exponent of a value below infinity. -/
structure FlFmt where
  p : Nat
  emin : Int
  emax : Int

/-- binary64. -/
def f64 : FlFmt := ⟨53, -1074, 1024⟩
/-- binary32. -/
def f32 : FlFmt := ⟨24, -149, 128⟩

/-- x over 2^k rounded to nearest, ties to even, for naturals n / d. -/
def rneDiv (n d : Nat) : Nat :=
  let q := n / d
  let r := 2 * (n % d)
  if r < d then q else if d < r then q + 1 else if q % 2 = 0 then q else q + 1

/-- The value of n / d times 2^k rounded to a format. -/
def flRound (f : FlFmt) (neg : Bool) (n d : Nat) (k : Int) : Fl :=
  if n = 0 then .fin neg 0 0
  else
    let guess : Int := (n.log2 : Int) - d.log2 + k - f.p
    let at' (e : Int) : Nat × Nat := if 0 ≤ k - e then (n * 2 ^ (k - e).toNat, d) else (n, d * 2 ^ (e - k).toNat)
    let fits (e : Int) : Bool := let (a, b) := at' e; decide (a < b * 2 ^ f.p)
    let e0 := if fits guess then guess else if fits (guess + 1) then guess + 1 else guess + 2
    let e := max e0 f.emin
    let (a, b) := at' e
    let m := rneDiv a b
    if f.emax ≤ e + m.log2 then .inf neg else .fin neg m e

/-- A finite value as an integer times 2^e. -/
def flSigned (neg : Bool) (m : Nat) : Int := if neg then -(m : Int) else m

/-- The value of an integer times 2^k rounded to binary64. -/
def flInt (x : Int) (k : Int) : Fl := flRound f64 (decide (x < 0)) x.natAbs 1 k

/-- Sum (binary64). -/
def flAdd (a b : Fl) : Fl :=
  match a, b with
  | .nan, _ | _, .nan => .nan
  | .inf s, .inf t => if s = t then .inf s else .nan
  | .inf s, _ => .inf s
  | _, .inf t => .inf t
  | .fin s m e, .fin t n g =>
    let k := min e g
    let x := flSigned s m * 2 ^ (e - k).toNat + flSigned t n * 2 ^ (g - k).toNat
    if x = 0 then .fin (s && t) 0 0 else flInt x k

/-- Negation. -/
def flNeg : Fl → Fl
  | .nan => .nan
  | .inf s => .inf (!s)
  | .fin s m e => .fin (!s) m e

/-- Difference (binary64). -/
def flSub (a b : Fl) : Fl := flAdd a (flNeg b)

/-- Product (binary64). -/
def flMul (a b : Fl) : Fl :=
  match a, b with
  | .nan, _ | _, .nan => .nan
  | .inf s, .inf t => .inf (s != t)
  | .inf s, .fin t n _ => if n = 0 then .nan else .inf (s != t)
  | .fin s m _, .inf t => if m = 0 then .nan else .inf (s != t)
  | .fin s m e, .fin t n g => flRound f64 (s != t) (m * n) 1 (e + g)

/-- Quotient (binary64). -/
def flDiv (a b : Fl) : Fl :=
  match a, b with
  | .nan, _ | _, .nan => .nan
  | .inf _, .inf _ => .nan
  | .inf s, .fin t _ _ => .inf (s != t)
  | .fin s _ _, .inf t => .fin (s != t) 0 0
  | .fin s m e, .fin t n g => if n = 0 then (if m = 0 then .nan else .inf (s != t)) else flRound f64 (s != t) m n (e - g)

/-- Square root (binary64): the integer root with a sticky half below it. -/
def flSqrt : Fl → Fl
  | .nan => .nan
  | .inf s => if s then .nan else .inf s
  | .fin s m e =>
    if m = 0 then .fin s 0 0
    else if s then .nan
    else
      let (m, e) := if e % 2 = 0 then (m, e) else (2 * m, e - 1)
      let x := m * 2 ^ 240
      let r := isqrt x
      if r * r = x then flRound f64 false r 1 (e / 2 - 120) else flRound f64 false (2 * r + 1) 1 (e / 2 - 121)

/-- Natural logarithm (binary64), the value nearest to the exact one (DESIGN CHOICE, log entry 11). -/
def flLn : Fl → Fl
  | .nan => .nan
  | .inf s => if s then .nan else .inf s
  | .fin s m e =>
    if m = 0 then .inf true
    else if s then .nan
    else flInt (fxLn m + e * fxLnSmall 2 1) (-(prec : Int))

/-- a is less than b. -/
def flLt (a b : Fl) : Bool :=
  match a, b with
  | .nan, _ | _, .nan => false
  | .inf s, .inf t => s && !t
  | .inf s, _ => s
  | _, .inf t => !t
  | .fin s m e, .fin t n g =>
    let k := min e g
    decide (flSigned s m * 2 ^ (e - k).toNat < flSigned t n * 2 ^ (g - k).toNat)

/-- A finite value times n, rounded to an integer, ties away from zero; none for the others. -/
def flToInt (a : Fl) (n : Nat) : Option Int :=
  match a with
  | .fin s m e =>
    let x := flSigned s (m * n)
    some (if 0 ≤ e then x * 2 ^ e.toNat else
      let q := (2 * x.natAbs + 2 ^ (-e).toNat) / (2 * 2 ^ (-e).toNat)
      if x < 0 then -(q : Int) else q)
  | _ => none

/-- A value from its bits, of a format with w exponent bits. -/
def flOfBits (f : FlFmt) (w : Nat) (b : Nat) : Fl :=
  let frac := b % 2 ^ (f.p - 1)
  let ex := b / 2 ^ (f.p - 1) % 2 ^ w
  let neg := decide (b / 2 ^ (f.p - 1 + w) % 2 = 1)
  if ex = 2 ^ w - 1 then (if frac = 0 then .inf neg else .nan)
  else if ex = 0 then .fin neg frac f.emin
  else .fin neg (frac + 2 ^ (f.p - 1)) (f.emin + ex - 1)

/-- The bits of a value of a format; a NaN is the quiet one. -/
def flBits (f : FlFmt) (w : Nat) (a : Fl) : Nat :=
  let top := 2 ^ (f.p - 1 + w)
  match a with
  | .nan => (2 ^ w - 1) * 2 ^ (f.p - 1) + 2 ^ (f.p - 2)
  | .inf s => b2n s * top + (2 ^ w - 1) * 2 ^ (f.p - 1)
  | .fin s m e =>
    match flRound f s m 1 e with
    | .fin _ m e =>
      if m = 0 then b2n s * top
      else
        let up := f.p - 1 - m.log2
        let e' := e - up
        if e' < f.emin then b2n s * top + m * 2 ^ (e - f.emin).toNat
        else b2n s * top + ((e' - f.emin).toNat + 1) * 2 ^ (f.p - 1) + (m * 2 ^ up - 2 ^ (f.p - 1))
    | _ => b2n s * top + (2 ^ w - 1) * 2 ^ (f.p - 1)

/-- binary64 and binary32 bits to values and back. -/
def fl64 (b : Nat) : Fl := flOfBits f64 11 b
def fl64Bits (a : Fl) : Nat := flBits f64 11 a
def fl32 (b : Nat) : Fl := flOfBits f32 8 b
def fl32Bits (a : Fl) : Nat := flBits f32 8 a

/-- A decimal n over 10^k as binary64. -/
def flDec (n k : Nat) : Fl := flRound f64 false n (10 ^ k) 0

end Sys2Proof.Machine
end

