-- ==== Sys2Proof/Machine/Vibration.lean ====
section
/-!
DEFINITION. The vibration chain (R144 to R165): its part of a shot boundary, PHASE, UNWRAP with the history ring, and BAND.
-/
namespace Sys2Proof.Machine

/-! ## The chain at a shot boundary -/

/-- FUSE's settings whose change restarts it (R187). -/
def State.fuseCfg (s : State) (ch : Nat) : FuseCfg := ⟨s.odv (odFuse ch) 2, s.odv (odFuse ch) 3, s.odvS (odFuse ch) 4 32⟩

/-- PHASE runs on the cluster of a channel (R144, R219). -/
def State.chainLoaded (s : State) (ch : Nat) : Bool :=
  match s.clusterOf ch with
  | some cl => (s.core (coreOf cl 0)).vendor && decide ((s.core (coreOf cl 0)).role = 1)
  | none => false

/-- The ring takes the W of a shot: a change of W asks for a clear of the header ring and ends captures (R163, R165, R266). -/
def State.ringShape (s : State) (ch : Nat) (c : VibCfg) : State :=
  let x := s.chain ch
  let w := vibW c
  if s.histW ch = w then s.setChain ch { x with histW := w, histRows := vibRows c }
  else (s.setChain ch { x with
    histW := w, histRows := vibRows c, clearDue := true, firstSlot := none, lastSlot := 0, slots := [] }).capEnd ch

/-- What the roles keep of a shot as it begins: those of a running chain or accumulator, and the one whose boundary ends the last of
them (R168, R175, R190). -/
def State.shotLog (s : State) (ch : Nat) (index : BitVec 48) (stamp : W72) (flags : Nat) : State :=
  let x := s.chain ch
  let ps := (s.head (ch / 8)).act
  let want := s.rbit (Reg.ceStatus ch) 1 || x.on
  if want || x.logOn then
    s.setChain ch { x with logOn := want, log := x.log ++ [⟨index.toNat, stamp, ps.train, lrOf ps.len, flags.testBit 2, flags⟩] }
  else s

/-- The shots of a chain from the oldest that still has a record: one whose engine was started anew or gated has none, and a restart marked on
it passes to the next (R25, R135, R150). -/
def State.chainShots (s : State) (ch : Nat) : List ChainShot :=
  let dead (sh : ChainShot) : Bool :=
    !((s.ce ch).recs.any fun r => decide (r.index = sh.index)) && !((s.ce ch).out.any fun r => decide (r.index = sh.index))
  let lost := (s.chain ch).shots.takeWhile dead
  match (s.chain ch).shots.dropWhile dead with
  | [] => []
  | sh :: rest =>
    { sh with restart := sh.restart || lost.any (·.restart), fuseRestart := sh.fuseRestart || lost.any (·.fuseRestart) } :: rest

/-- The chain's part of a shot boundary (R146, R150, R187): settings take effect, a restart is marked on the shot, and a shot whose
record the engine opens enters the chain; flags are those its record carries (R155). -/
def State.chainBoundary (s : State) (ch : Nat) (index : BitVec 48) (stamp : W72) (flags : Nat) (recorded : Bool) : State :=
  let on := s.vibEn ch && s.chainLoaded ch
  let x := s.chain ch
  let x := if s.chainShots ch ≠ [] then x else
    { x with shots := [], restart := x.restart || x.shots.any (·.restart), fuseDue := x.fuseDue || x.shots.any (·.fuseRestart) }
  let cfg := s.vibCfg ch
  let restart := on && (!x.on || x.restart || decide (vibShape cfg ≠ vibShape x.cfg))
  let fuse := if s.fuseEn ch && on then some (s.fuseCfg ch) else none
  let fuseRestart := restart || x.fuseDue || decide (fuse ≠ x.fuseCfg)
  let x := { x with on := on, cfg := cfg, fuseCfg := fuse, restart := restart && !recorded, fuseDue := fuseRestart && !(on && recorded) }
  let shot : ChainShot := ⟨index, stamp, cfg, restart, decide (s.bandEn ch ≠ 0), fuse, fuseRestart⟩
  let x := if on && recorded then { x with shots := x.shots ++ [shot] } else x
  (s.setChain ch x).shotLog ch index stamp flags

/-! ## PHASE (R147 to R151) -/

/-- The branches of row t (R147). -/
def vibBranches (c : VibCfg) (t : Nat) : List (Nat × Nat) :=
  let ps := [0, 1].filter fun p => c.mask / 2 ^ p % 2 = 1
  let ks := if c.mode = 1 then [t] else List.range (trainLen c.train)
  ks.flatMap fun k => ps.map fun p => (k, p)

/-- Gauge g is an edge gauge (R149). -/
def vibEdge (c : VibCfg) (g : Nat) : Bool := decide (g < vibH1 c) || decide (vibG c ≤ g + vibH2 c)

/-- The key of a branch's previous phase (R149). -/
def branchKey (ch k p g : Nat) : Nat := 65536 * (16 * ch + 2 * k + p) + g

/-- One branch of one gauge: its term of the sum and its phase, none where it is not valid (R149). -/
def phaseBranch (slotMin : Nat) (a b : Int × Int) (prev : Option Int) : (Int × Int) × Option Int :=
  let dr := sat (rne (a.1 * b.1 + a.2 * b.2) 35) 36
  let di := sat (rne (a.2 * b.1 - a.1 * b.2) 35) 36
  let psi := ang dr di
  let m := mag dr di
  if m < slotMin then ((0, 0), none)
  else
    match prev with
    | none => ((0, 0), some psi)
    | some pp =>
      let j := ((psi - pp) % 65536).toNat
      ((rne (m * cosTab j) 17, rne (m * sinTab j) 17), some psi)

/-- One gauge of one row: dc and amp, and the branches as they are left (R149). -/
def phaseGauge (c : VibCfg) (ch t : Nat) (z : Nat → Nat → Nat → Int × Int) (g : Nat) (st : Store (Option Int)) :
    (Int × Nat) × Store (Option Int) :=
  if vibEdge c g then ((0, 0), st)
  else
    let (cr, ci, st) := (vibBranches c t).foldl (fun (acc : Int × Int × Store (Option Int)) kp =>
      let (cr, ci, st) := acc
      let key := branchKey ch kp.1 kp.2 g
      let (d, now) := phaseBranch c.slotMin (z kp.1 kp.2 (g + vibH2 c)) (z kp.1 kp.2 (g - vibH1 c)) (st.get none key)
      (cr + d.1, ci + d.2, st.set none key now)) (0, 0, st)
    ((ang cr ci, (mag cr ci).toNat), st)

/-- One row (R149). -/
def phaseRow (c : VibCfg) (ch : Nat) (z : Nat → Nat → Nat → Int × Int) (st : Store (Option Int)) (t : Nat) :
    List (Int × Nat) × Store (Option Int) :=
  (List.range (vibG c)).foldl (fun (acc : List (Int × Nat) × Store (Option Int)) g =>
    let (x, st) := phaseGauge c ch t z g acc.2
    (acc.1 ++ [x], st)) ([], st)

/-- Every row. -/
def phaseRows (c : VibCfg) (ch : Nat) (z : Nat → Nat → Nat → Int × Int) (st : Store (Option Int)) :
    List (List (Int × Nat)) × Store (Option Int) :=
  (List.range (vibRows c)).foldl (fun acc t =>
    let (r, st) := phaseRow c ch z acc.2 t
    (acc.1 ++ [r], st)) ([], st)

/-- A word of a record in the ring of a channel (R135). -/
def State.recordWord (s : State) (ch : Nat) (r : RecOut) (i : Nat) : W72 :=
  let cl := (s.clusterOf ch).getD 0
  r.early.getD i (s.sram.get 0 (65536 * cl + (s.fld (Reg.ceOutBase ch) 15 0 + (r.start + i) % s.fld (Reg.ceOutLen ch) 16 0) % 65536))

/-- A CQ36 sample. -/
def cqParts (w : W72) : Int × Int := (fieldS w 71 36, fieldS w 35 0)

/-- PHASE takes a shot's record whole (R149, R151). -/
def State.phaseTake (s : State) (ch : Nat) (sh : ChainShot) (r : RecOut) : State :=
  let c := sh.cfg
  let st := if sh.restart then s.branches.dropRange (65536 * 16 * ch) (65536 * 16 * (ch + 1)) else s.branches
  let w1 : W72 := if r.full then s.recordWord ch r 1 else r.w1
  let w2 : W72 := if r.full then s.recordWord ch r 2 else 0
  let skipped := w1.getLsbD 71
  let clips := if r.full then ([3, 4, 5, 6].map fun i => field (s.recordWord ch r i) 55 40).sum else 0
  let words := if r.full && !skipped then ((List.range (r.words - 9)).map fun i => cqParts (s.recordWord ch r (9 + i))).toArray else #[]
  let z (k p g : Nat) : Int × Int := words.getD (2 * (vibG c * k + g) + p) (0, 0)
  let (rows, st) := if r.full && !skipped then phaseRows c ch z st else ([], st)
  let inc : IncSt := { shot := sh, w1 := w1, w2 := w2, clips := clips, hold := !r.full || skipped || w1.getLsbD 70, dropped := !r.full,
                       dc := rows.map fun r => r.map Prod.fst, amp := rows.map fun r => r.map Prod.snd }
  { s with branches := st }.setChain ch { s.chain ch with incs := (s.chain ch).incs ++ [inc] }

/-- The words of a record are consumed: OUT_RP moves to its end, unless it is there or beyond (R135, DESIGN CHOICE, log entry 108). -/
def State.consume (s : State) (ch : Nat) (r : RecOut) : State :=
  let wp := s.reg (Reg.ceOutWp ch)
  let pos := BitVec.ofNat 32 (r.start + r.words)
  if (wp - pos).toNat < (wp - s.reg (Reg.ceOutRp ch)).toNat then s.setReg (Reg.ceOutRp ch) pos else s

/-- PHASE_RECORD (R149): the oldest shot of the chain whose record is in the ring. -/
def execPhaseRecord (ch : Chan) (s : State) : Host.Outcome State Fault Refusal :=
  match s.chainShots ch with
  | [] => .next s
  | sh :: rest =>
    match (s.ce ch).out.find? fun r => decide (r.index = sh.index) with
    | none => .next s
    | some r =>
      let s := (s.phaseTake ch sh r).consume ch r
      let s := s.setCe ch { s.ce ch with out := ((s.ce ch).out.dropWhile fun r => decide (r.index ≠ sh.index)).drop 1 }
      .next (s.setChain ch { s.chain ch with shots := rest })

/-! ## UNWRAP (R150, R152) -/

/-- UNWRAP of one gauge of row t, given row 0's phase: phase, predictor and quality. -/
def unwrapGauge (c : VibCfg) (t : Nat) (hold : Bool) (dc : Int) (amp : Nat) (phi v phi0 : Int) : Int × Int × Nat :=
  if hold || decide (amp < c.fade) then (phi, 0, 0)
  else
    let dl := v + wrap (dc - v) 16
    let phi := wrap (phi + dl) 16
    let q := if 32768 < dl ∨ dl < -32768 then 1 else if amp < c.weak then 2 else 3
    let phi := if 1 ≤ t then wrap (phi - asr (wrap (phi - phi0) 16) c.tie) 16 else phi
    (phi, sat dl 16, q)

/-- The key of a gauge's phase and predictor. -/
def phiKey (ch row g : Nat) : Nat := 65536 * (8 * ch + row) + g

/-- UNWRAP of row t: each gauge's phase, predictor and quality. -/
def unwrapRow (c : VibCfg) (ch t : Nat) (hold : Bool) (dc : Array Int) (amp : Array Nat) (row0 : Array (Int × Int × Nat))
    (phis : Store (Int × Int)) : List (Int × Int × Nat) :=
  (List.range (vibG c)).map fun g =>
    let (phi, v) := phis.get (0, 0) (phiKey ch t g)
    unwrapGauge c t (hold || vibEdge c g) (dc.getD g 0) (amp.getD g 0) phi v (row0.getD g (0, 0, 0)).1

/-- UNWRAP of every row (R150). -/
def unwrapRows (c : VibCfg) (ch : Nat) (x : IncSt) (phis : Store (Int × Int)) : List (List (Int × Int × Nat)) :=
  (List.range (vibRows c)).foldl (fun rows t =>
    rows ++ [unwrapRow c ch t x.hold (nth x.dc t []).toArray (nth x.amp t []).toArray (rows.headD []).toArray phis]) []

/-- The store of phases after a shot. -/
def phisAfter (ch : Nat) (rows : List (List (Int × Int × Nat))) (phis : Store (Int × Int)) : Store (Int × Int) :=
  Store.setMany (0, 0) (rows.mapIdx fun t r => r.mapIdx fun g x => (phiKey ch t g, (x.1, x.2.1))).flatten phis

/-! ## PHASE4 frames (R154, R155) -/

/-- A PHASE4 word of up to four gauges. -/
def phase4Word (l : List (Int × Nat)) : W72 :=
  BitVec.ofNat 72 ((l.mapIdx fun n x => (x.1 % 65536).toNat * 2 ^ (16 * n) + x.2 % 4 * 2 ^ (64 + 2 * n)).sum)

/-- Lists of n elements, the last of fewer. -/
def chunks {α : Type} (n : Nat) : Nat → List α → List (List α)
  | 0, _ => []
  | k + 1, l => if l.isEmpty then [] else l.take n :: chunks n k (l.drop n)

/-- The data words of a row. -/
def phase4Row (row : List (Int × Int × Nat)) : List W72 :=
  (chunks 4 row.length (row.map fun x => (x.1, x.2.2))).map phase4Word

/-- How many gauge-rows have a quality. -/
def qualCount (rows : List (List (Int × Int × Nat))) (q : Nat) : Nat := (rows.flatten.filter fun x => x.2.2 = q).length

/-- Header word 1 without TYPE, RESTART, CH and INDEX: the flags of the engine record, whole or not, DROPPED and TRAIN (R155). -/
def headFlags (x : IncSt) : Nat := field x.w1 71 67 * 2 ^ 67 + b2n x.dropped * 2 ^ 66 + x.shot.cfg.train % 4 * 2 ^ 64

/-- The header of a PHASE4 frame (R155). -/
def phase4Header (ch : Nat) (x : IncSt) (rows : List (List (Int × Int × Nat))) : List W72 :=
  let c := x.shot.cfg
  let eng := !x.dropped && !x.w1.getLsbD 71
  let e (n : Nat) : Nat := if eng then n else 0
  [x.shot.stamp,
   BitVec.ofNat 72 (headFlags x + 1 * 2 ^ 56 + b2n x.shot.restart * 2 ^ 55 + ch * 2 ^ 48 + x.shot.index.toNat),
   BitVec.ofNat 72 (vibG c % 2 ^ 16 * 2 ^ 56 + vibRows c * 2 ^ 52 + c.mode % 2 * 2 ^ 51 + (c.len - 1) * 2 ^ 46 +
     min (qualCount rows 0) 65535 * 2 ^ 24 + min (qualCount rows 1) 65535 * 2 ^ 8),
   BitVec.ofNat 72 (e (field x.w1 63 48) * 2 ^ 56 + e (field x.w2 39 32) * 2 ^ 48 + min (qualCount rows 2) 65535 * 2 ^ 32 +
     (if x.dropped then 0 else min x.clips 65535) * 2 ^ 16 + e (field x.w2 55 52) * 2 ^ 12 + e (field x.w2 51 50) * 2 ^ 10)]

/-! ## The history ring -/

/-- The slot of a frame is written in the order of R164, unless the ring is off, suspended or to be cleared first (R163, R165). -/
def State.historyWrite (s : State) (ch : Nat) (index : BitVec 48) (head data : List W72) : State :=
  let x := s.chain ch
  let n := s.ringShots ch
  if n = 0 ∨ x.clearDue then s
  else
    let i := index.toNat % n
    let h := s.odv (odHist ch) 4 + 4 * i
    let s := s.dramWrite (h + 1) (BitVec.ofNat 72 (0xFF * 2 ^ 56 + ch * 2 ^ 48 + index.toNat)) false
    let s := State.dramWriteMany data (s.odv (odHist ch) 2 + i * s.histW ch) s
    let s := s.dramWrite h (nth head 0 0) false
    let s := State.dramWriteMany (head.drop 2) (h + 2) s
    let s := s.dramWrite (h + 1) (nth head 1 0) false
    s.setChain ch { s.chain ch with
      firstSlot := some (x.firstSlot.getD index.toNat), lastSlot := index.toNat, slots := runsWith index.toNat (runsWithout n index.toNat x.slots) }

/-- The ring allows band frames: its header ring is clear and it holds two of them (R160, R163). -/
def State.bandRoom (s : State) (ch rows : Nat) : Bool :=
  !(s.chain ch).clearDue && decide (2 * 2 ^ s.odv (odVib ch) 10 ≤ s.ringShots ch * rows)

/-- What BAND is to do with a shot whose frame has been formed: it restarts there after a restart of the chain or a suspension, and
where its role is new; last is the newest slot before the shot's (R157, R160, R163). -/
def State.bandShot (s : State) (ch : Nat) (sh : ChainShot) (last : Option Nat) : State :=
  let x := s.chain ch
  let b := x.band
  let i := sh.index.toNat
  let used := b.active || decide (b.stops ≠ [])
  if !s.bandRoom ch (vibRows sh.cfg) then
    if used then s.setChain ch { x with band := { b with susp := some (b.susp.getD i) } } else s
  else if (sh.band || used) && (sh.restart || b.susp.isSome || !used) then
    let upto := match last with | some l => b.susp.getD (l + 1) | none => 0
    s.setChain ch { x with band := { b with stops := b.stops ++ [(upto, i, sh.cfg)], susp := none } }
  else s

/-- HEADER_RING_CLEAR (R165): every header word of an enabled ring is set to 0. -/
def execHeaderRingClear (ch : Chan) (s : State) : Host.Outcome State Fault Refusal :=
  if !(s.chain ch).clearDue || !s.histEn ch then .next s
  else
    let s := State.dramWriteMany (List.replicate (4 * s.odv (odHist ch) 5) 0) (s.odv (odHist ch) 4) s
    .next (s.setChain ch { s.chain ch with clearDue := false })

/-- What a PHASE4 frame shows STEP zones: the rows of quality STEP at a gauge (R255). -/
def stepView (c : VibCfg) (head : List W72) (rows : List (List (Int × Int × Nat))) : FrameView :=
  let quals := rows.map fun r => (r.map fun x => x.2.2).toArray
  { nt := vibG c, rows := vibRows c, value := fun g => some ((quals.filter fun a => a.getD g 0 = 1).length : Int)
    stamp := nth head 0 0, index := field (nth head 1 0) 47 0, unsync := (nth head 1 0).getLsbD 68, timeStep := (nth head 1 0).getLsbD 69 }

/-- UNWRAP_SHOT (R150): phases are updated, the frame is formed and written to the ring, and it goes to the zones, to FUSE and to
export (R154 to R156, R164, R183, R318). A truncated shot sets DROPPED for FUSE, as the engine record that carries it does (DESIGN CHOICE, log
entry 107). -/
def State.unwrapTake (s : State) (ch : Nat) (x : IncSt) : State :=
  let c := x.shot.cfg
  let phis := if x.shot.restart then s.phis.dropRange (65536 * 8 * ch) (65536 * 8 * (ch + 1)) else s.phis
  let rows := unwrapRows c ch x phis
  let s := { s with phis := phisAfter ch rows phis }
  let head := phase4Header ch x rows
  let data := rows.flatMap phase4Row
  let s := s.ringShape ch c
  let last := (s.chain ch).firstSlot.map fun _ => (s.chain ch).lastSlot
  let s := (s.historyWrite ch x.shot.index head data).bandShot ch x.shot last
  let s := (s.setOdv (0x6000 + ch) 1 x.shot.index.toNat).setOdv (0x6000 + ch) 2 (min (qualCount rows 0) 65535)
  let s := s.zoneFrame 1 ch fun _ => stepView c head rows
  let flags : W72 := if x.dropped then nth head 1 0 else nth head 1 0 ||| (x.w1 &&& BitVec.ofNat 72 (2 ^ 66))
  let s := if x.shot.fuse.isNone then s else
    s.setChain ch { s.chain ch with
      fuseIn := (s.chain ch).fuseIn ++ [⟨x.shot, flags, (rows.headD []).map fun r => (r.1, r.2.2)⟩] }
  s.frameOut ch 0 (head ++ data)

/-- UNWRAP_SHOT (R150). -/
def execUnwrapShot (ch : Chan) (s : State) : Host.Outcome State Fault Refusal :=
  match (s.chain ch).incs with
  | [] => .next s
  | x :: rest => .next ((s.setChain ch { s.chain ch with incs := rest }).unwrapTake ch x)

/-! ## BAND (R157 to R160) -/

/-- The settings of band b as written (R145). -/
def State.bandCfg (s : State) (ch b : Nat) : BandCfg where
  on := decide (s.bandEn ch / 2 ^ b % 2 = 1)
  kind := s.odv (odBand ch) (1 + 4 * b)
  b0 := s.odvS (odBand ch) (2 + 4 * b) 32
  a1 := s.odvS (odBand ch) (3 + 4 * b) 32
  a2 := s.odvS (odBand ch) (4 + 4 * b) 32

/-- The increment of R157: x, and vb after it. -/
def incOf (q : Nat) (phi last vb : Int) : Int × Int :=
  if q = 0 then (0, 0)
  else
    let x := vb + wrap (phi - last - vb) 16
    (x, sat x 16)

/-- One band's filter (R158). -/
def bandFilter (c : BandCfg) (x x1 x2 : Int) (f : FiltSt) : FiltSt :=
  if !c.on then {}
  else
    let u := match c.kind with | 0 => x - x2 | 1 => x + 2 * x1 + x2 | _ => x - 2 * x1 + x2
    let y := sat (rne (c.b0 * u * 2 ^ 16 - c.a1 * f.y1 - c.a2 * f.y2) 30) 36
    { y1 := y, y2 := f.y1, es := f.es + y * y }

/-- BAND takes one sample of one gauge (R157 to R159). -/
def bandGauge (cfg : List BandCfg) (phi : Int) (q : Nat) (b : BandG) : BandG :=
  let (x, vb) := incOf q phi b.phiLast b.vb
  { phiLast := phi, vb := vb, x1 := x, x2 := b.x1
    filt := cfg.mapIdx fun i c => bandFilter c x b.x1 b.x2 (nth b.filt i {})
    n0 := b.n0 + b2n (decide (q = 0)), n1 := b.n1 + b2n (decide (q = 1)), n2 := b.n2 + b2n (decide (q = 2)) }

/-- A gauge as a band frame starts: sums and counts are 0, and a band whose settings changed loses its state (R146, R158). -/
def bandFresh (old new : List BandCfg) (b : BandG) : BandG :=
  { b with
    n0 := 0, n1 := 0, n2 := 0
    filt := new.mapIdx fun i c => if nth old i {} = c then { nth b.filt i {} with es := 0 } else {} }

/-- BAND's gauge records of a channel replaced by f. -/
def State.mapBands (s : State) (ch n : Nat) (f : Nat → BandG → BandG) : State :=
  { s with bands := Store.setMany {} ((List.range n).map fun g => (65536 * ch + g, f g (s.bands.get {} (65536 * ch + g)))) s.bands }

/-- A frame of the new length begins at sample j: the settings written take force (R146, R157). -/
def State.bandStart (s : State) (ch j : Nat) (stamp : W72) (train : Nat) : State :=
  let x := s.chain ch
  let b := x.band
  let new := (List.range 8).map (s.bandCfg ch)
  let s := s.mapBands ch (vibG b.vib) fun _ => bandFresh b.cfg new
  s.setChain ch { s.chain ch with band := { b with
    inFrame := true, start := j, log2k := s.odv (odVib ch) 10, en := s.bandEn ch, cfg := new, flags := 0, stamp := stamp
    train := train } }

/-- The phase and quality of gauge g of row t in the words of a slot (R154). -/
def slotSample (data : Array W72) (rowWords t g : Nat) : Int × Nat :=
  let w := data.getD (t * rowWords + g / 4) 0
  (fieldS w (16 * (g % 4) + 15) (16 * (g % 4)), field w (65 + 2 * (g % 4)) (64 + 2 * (g % 4)))

/-- What BAND takes of a shot beside its samples: stamp, TRAIN and flags, from its slot or, where that is not intact, as the roles
keep them of every shot. -/
def State.bandHead (s : State) (ch i : Nat) (head : List W72) : W72 × Nat × Nat :=
  if head ≠ [] then (nth head 0 0, field (nth head 1 0) 65 64, field (nth head 1 0) 71 66)
  else match (s.chain ch).log.find? fun r => decide (r.index = i) with
    | some r => (r.stamp, r.train, r.flags)
    | none => (s.stamp, (s.chain ch).band.vib.train, 0)

/-- BAND takes sample j from its slot (R157): a slot found not intact enters as faded. -/
def State.bandSample (s : State) (ch : Nat) : State :=
  let x := s.chain ch
  let j := x.band.next
  let rows := vibRows x.band.vib
  let g := vibG x.band.vib
  let (slot, s) := s.slotRead ch (j / rows) (vibW x.band.vib)
  let head := (slot.getD []).map Prod.fst
  let (stamp, train, flags) := s.bandHead ch (j / rows) head
  let data := (head.drop 4).toArray
  let k := 2 ^ s.odv (odVib ch) 10
  -- a frame starts, or the one in progress is discarded for a new length
  let s :=
    if j % k = 0 then s.bandStart ch j stamp train
    else if x.band.inFrame ∧ x.band.log2k ≠ s.odv (odVib ch) 10 then
      s.setChain ch { s.chain ch with band := { x.band with inFrame := false } }
    else if x.band.log2k = 0 then
      s.setChain ch { s.chain ch with band := { x.band with log2k := s.odv (odVib ch) 10, cfg := (List.range 8).map (s.bandCfg ch) } }
    else s
  let b := (s.chain ch).band
  let s := s.mapBands ch g fun i y =>
    let (phi, q) := if slot.isSome then slotSample data ((g + 3) / 4) (j % rows) i else (y.phiLast, 0)
    bandGauge b.cfg phi q y
  s.setChain ch { s.chain ch with band := { b with
    next := j + 1, flags := b.flags ||| flags, due := b.inFrame && decide (j + 1 = b.start + 2 ^ b.log2k) } }

/-- The next output sample; with BAND_EN at 0 the role ends where a band frame would start (R144, R146). -/
def State.bandTake (s : State) (ch : Nat) : State :=
  let b := (s.chain ch).band
  if s.bandEn ch = 0 ∧ b.next % 2 ^ s.odv (odVib ch) 10 = 0 then
    s.setChain ch { s.chain ch with band := { stops := b.stops, susp := b.susp } }
  else s.bandSample ch

/-- The restarts that are due: those whose earlier shots have all been taken (R160). The flag it answers becomes RESTART of the next band frame,
after a suspension or a reload of the BAND role too (R159, DESIGN CHOICE, log entry 107). -/
def bandJumps (b : BandSt) : List (Nat × Nat × VibCfg) → BandSt × Bool
  | [] => ({ b with stops := [] }, false)
  | (upto, i, c) :: r =>
    if !b.active || decide (upto ≤ b.next / vibRows b.vib) then
      ((bandJumps { active := true, next := i * vibRows c, log2k := 0, vib := c, susp := b.susp } r).1, true)
    else ({ b with stops := (upto, i, c) :: r }, false)

/-- BAND restarts where it is due to (R157, R160). -/
def State.bandRestart (s : State) (ch : Nat) : State :=
  let (b, fresh) := bandJumps (s.chain ch).band (s.chain ch).band.stops
  let s := if fresh then { s with bands := s.bands.dropRange (65536 * ch) (65536 * ch + 65536) } else s
  s.setChain ch { s.chain ch with band := b }

/-- The slot of the next sample is complete and the ring allows band frames (R157, R160, R163). -/
def State.bandReady (s : State) (ch : Nat) : Bool :=
  let x := s.chain ch
  x.band.active && s.bandRoom ch (vibRows x.band.vib) && x.firstSlot.isSome && decide (x.band.next / vibRows x.band.vib ≤ x.lastSlot)

/-- BAND_SAMPLE (R158): the next output sample, once its slot is complete; nothing while a band frame waits to be formed. -/
def execBandSample (ch : Chan) (s : State) : Host.Outcome State Fault Refusal :=
  if (s.chain ch).band.due then .next s
  else
    let s := s.bandRestart ch
    .next (if s.bandReady ch then s.bandTake ch else s)

/-- E(b) of a gauge (R158). -/
def bandEnergy (c : BandCfg) (log2k : Nat) (f : FiltSt) : Nat := if c.on then (satu (rne f.es (28 + log2k)) 32).toNat else 0

/-- The four words of a gauge (R159). -/
def bandWords (b : BandSt) (y : BandG) : List W72 :=
  let e (i : Nat) : Nat := bandEnergy (nth b.cfg i {}) b.log2k (nth y.filt i {})
  (List.range 4).map fun i =>
    let aux := match i with | 0 => y.n0 | 1 => y.n1 | 2 => y.n2 | _ => 0
    BitVec.ofNat 72 (min aux 255 * 2 ^ 64 + e (2 * i + 1) * 2 ^ 32 + e (2 * i))

/-- The header of a band frame (R159). -/
def bandHeader (ch : Nat) (c : VibCfg) (b : BandSt) : List W72 :=
  let rows := vibRows c
  [b.stamp,
   BitVec.ofNat 72 (b.flags % 64 * 2 ^ 66 + b.train % 4 * 2 ^ 64 + 2 * 2 ^ 56 + b2n b.restart * 2 ^ 55 + ch * 2 ^ 48 + b.start / rows),
   BitVec.ofNat 72 (vibG c % 2 ^ 16 * 2 ^ 56 + rows * 2 ^ 52 + c.mode % 2 * 2 ^ 51 + (c.len - 1) * 2 ^ 46 + (b.log2k - 6) * 2 ^ 42 +
     b.en % 256 * 2 ^ 34),
   BitVec.ofNat 72 ((b.start + 2 ^ b.log2k - 1) / rows)]

/-- What a band frame shows BAND zones (R255). -/
def bandView (c : VibCfg) (b : BandSt) (gs : Array BandG) (w : W72) : FrameView :=
  let i := zoneBand w
  { nt := vibG c
    value := fun g =>
      let y := gs.getD g {}
      if min y.n0 255 < min (2 ^ b.log2k / 2) 255 then some (bandEnergy (nth b.cfg i {}) b.log2k (nth y.filt i {}) : Int) else none
    stamp := b.stamp, index := b.start / vibRows c, unsync := b.flags / 4 % 2 = 1, timeStep := b.flags / 8 % 2 = 1 }

/-- BAND_FRAME_END (R158 to R160): the energies are formed and the frame goes to the zones and to export. -/
def execBandFrameEnd (ch : Chan) (s : State) : Host.Outcome State Fault Refusal :=
  let x := s.chain ch
  if !x.band.due then .next s
  else
    let b := x.band
    let n := vibG b.vib
    let gs := (List.range n).map fun g => s.bands.get {} (65536 * ch.val + g)
    let s := s.setChain ch { x with band := { b with due := false, inFrame := false, restart := false } }
    let s := s.mapBands ch n fun _ y => bandFresh b.cfg b.cfg y
    let s := s.zoneFrame 0 ch (bandView b.vib b gs.toArray)
    .next (s.frameOut ch 1 (bandHeader ch b.vib b ++ gs.flatMap (bandWords b)))

end Sys2Proof.Machine
end

