-- ==== Sys2Proof/Machine/Temperature.lean ====
section
/-!
DEFINITION. Temperature sensing and fusion (R166 to R192): coil readings, the windows and frames of DTS, and FUSE.
-/
namespace Sys2Proof.Machine

/-! ## The coil temperature (R167, R168) -/

/-- A TS72 stamp in units of 2^-10 ns, for comparison (R106, R168). -/
def tsNum (w : W72) : Int := (field w 71 40 * 1000000000 + field w 39 10) * 1024 + field w 9 0

/-- The coil entry of a head. -/
def odCoil (h : Nat) : Nat := 0x2402 + 0x40 * h

/-- Valid coil readings of a head, newest first. -/
def State.coil (s : State) (h : Nat) : List (W72 × Int) := s.coils.get [] h

/-- A valid reading of a head's coil, formed at w, arrives (R167, R359). -/
def State.coilReading (s : State) (h : Nat) (t : Int) (w : W72) : State :=
  let s := { s with coils := s.coils.set [] h ((w, t) :: s.coil h) }
  ((s.setOdvS (odCoil h) 1 32 t).setOdv (odCoil h) 2 w.toNat).setOdv (odCoil h) 3 1

/-- The last valid reading up to a time, when it is no older than COIL_MAX_AGE then (R168). -/
def State.coilLast (s : State) (h : Nat) (at' : Int) : Option Int :=
  match (s.coil h).find? fun r => decide (tsNum r.1 ≤ at') with
  | some r => if at' - tsNum r.1 ≤ s.odv (odCoil h) 4 * 1024000000 then some r.2 else none
  | none => none

/-- Tc of an interval, and whether it is a DEGRADED one (R168). -/
def State.coilOver (s : State) (h : Nat) (t0 t1 : Int) : Option Int × Bool :=
  let inside := (s.coil h).filter fun r => decide (t0 ≤ tsNum r.1) && decide (tsNum r.1 < t1)
  if inside ≠ [] then (some (divr (sumInt (inside.map Prod.snd)) inside.length), false)
  else (s.coilLast h t1, true)

/-- COIL_START and COIL_LEN of a head. -/
def State.coilStart (s : State) (h : Nat) : Int := s.fld (Reg.headCoil h) 7 0
def State.coilLen (s : State) (h : Nat) : Int := s.fld (Reg.headCoil h) 26 16

/-- The stamp a chain's log holds for an index, or the present one. -/
def State.stampOf (s : State) (ch index : Nat) : W72 :=
  match (s.chain ch).log.find? fun r => decide (r.index = index) with
  | some r => r.stamp
  | none => s.stamp

/-! ## The ratios of a channel (R173 to R175) -/

/-- The totals of a channel as DTS reads them, the settings of its DTS entry and what it needs of its engine and head. -/
structure RatioIn where
  as : Array Int
  st : Array Int
  clean : Nat
  bshift : Int
  dsum : Nat
  darkStart : Nat
  darkLen : Nat
  coilStart : Int
  coilLen : Int
  count : Nat
  lr : Nat

/-- The sum of n bins from b upwards. -/
def binSum (a : Array Int) (b : Int) (n : Nat) : Int := sumInt ((List.range n).map fun i => a.getD (b + i).toNat 0)

/-- A dark level (R173). -/
def darkLevel (a : Array Int) (start len : Nat) : Int := if len = 0 then 0 else divr (binSum a start len) len

/-- The logarithm of the ratio of n bins from b, dark levels subtracted; none where a sum is not positive (R174, R175). -/
def binRatio (r : RatioIn) (b : Int) (n : Nat) : Option Int :=
  let a := binSum r.as b n - n * darkLevel r.as r.darkStart r.darkLen
  let s := binSum r.st b n - n * darkLevel r.st r.darkStart r.darkLen
  if a ≤ 0 ∨ s ≤ 0 then none else some (lnq a.toNat - lnq s.toNat)

/-- hs (R174). -/
def halfSum (r : RatioIn) : Nat := (r.dsum - 1) / 2

/-- l(g) (R174). -/
def gaugeRatio (r : RatioIn) (g : Nat) : Option Int :=
  let b : Int := g + r.bshift
  let hs := halfSum r
  if r.count ≤ g ∨ b - hs < 0 ∨ (r.clean : Int) ≤ b + hs then none else binRatio r (b - hs) r.dsum

/-- E, the probe envelope in bins (R175). -/
def envelope (lr : Nat) : Nat := (lr + 1) / 2

/-- lc (R175). -/
def coilRatio (r : RatioIn) : Option Int :=
  let e2 : Int := (envelope r.lr + 1) / 2
  let cb0 := r.coilStart + r.bshift + e2
  let cb1 := r.coilStart + r.coilLen - 1 + r.bshift - e2
  let nb := cb1 - cb0 + 1
  if nb < 8 ∨ cb0 < 0 ∨ (r.clean : Int) ≤ cb1 then none else binRatio r cb0 nb.toNat

/-- The ratios of a channel: l(g) by gauge, lc, E and hs. -/
structure Ratios where
  l : Array (Option Int)
  lc : Option Int
  env : Nat
  hs : Nat

/-- The ratios a channel's totals give. -/
def ratiosOf (r : RatioIn) : Ratios :=
  ⟨((List.range r.count).map (gaugeRatio r)).toArray, coilRatio r, envelope r.lr, halfSum r⟩

/-- The settings a channel's ratios depend on, with no bins read. -/
def State.ratioSet (s : State) (ch clean lr : Nat) : RatioIn :=
  let d := odDts ch
  { as := #[], st := #[], clean := clean, bshift := s.odvS d 5 16, dsum := s.odv d 6, darkStart := s.odv d 7, darkLen := s.odv d 8,
    coilStart := s.coilStart (ch / 8), coilLen := s.coilLen (ch / 8), count := (s.ce ch).count, lr := lr }

/-- DTS reads the bins of a channel's totals: those of the gauges and coil, and the dark bins (R170, R141). -/
def State.readTotals (s : State) (ch clean lr : Nat) : RatioIn × State :=
  let r := s.ratioSet ch clean lr
  let n := max clean (r.darkStart + r.darkLen)
  let (as, s) := State.dramReadMany n (s.totBase ch + 8) s
  let (st, s) := State.dramReadMany n (s.totBase ch + 65544) s
  let num (l : List (W72 × Bool)) : Array Int := (l.map fun w => w.1.toInt).toArray
  ({ r with as := num as, st := num st }, s)

/-! ## Temperatures (R176 to R180) -/

/-- 0 °C in µK. -/
def zeroC : Int := 273150000

/-- t of a u (R176). -/
def tempOfU (theta : Nat) (u : Int) : Option Int :=
  if u ≤ 0 then none
  else
    let t := divr (theta * 2 ^ 24) u - zeroC
    if t < -(2 ^ 31) + 1 ∨ 2 ^ 31 - 1 < t then none else some t

/-- A single-ended temperature (R176). -/
def singleTemp (theta : Nat) (uc dalpha gc : Int) (lc : Int) (g : Nat) (l : Int) : Option Int :=
  tempOfU theta (uc - (l - lc) - divr (dalpha * ((g : Int) - gc) * 2 ^ 24) 1000000000)

/-- A value of a DTS frame with its quality (R191). -/
abbrev Graded := Option Int × Nat

/-- The quality of a value: its upper bits stand whatever the grade (DEDUCED, log entry 21). -/
def gradedOf (bits' grade : Nat) (t : Option Int) : Graded := (t, bits' + if t.isSome then grade else 0)

/-- The value pairs of a paired window outside the midpoint (R178, R180). -/
def pairPoints (f b : Ratios) (lcf lcb : Int) (loop : Nat) : List (Nat × Option (Int × Int)) :=
  let mid := 2 * (f.env + max f.hs b.hs)
  (List.range (loop + 1)).map fun (g : Nat) =>
    let d := (2 * (g : Int) - loop).natAbs
    match f.l.getD g none, (b.l.getD (loop - g) none) with
    | some x, some y => (g, if d ≤ mid then none else some (x - lcf, y - lcb))
    | _, _ => (g, none)

/-- The fit of a paired window: how many gauges take part, sxy and sxx (R178). -/
def pairFit (loop : Nat) (ps : List (Nat × Option (Int × Int))) : Nat × Int × Int :=
  ps.foldl (fun acc p =>
    match p.2 with
    | none => acc
    | some (x, y) =>
      let w : Int := loop - 2 * p.1
      (acc.1 + 1, acc.2.1 + (x - y) * w, acc.2.2 + w * w)) (0, 0, 0)

/-- What a DTS frame is formed from. -/
structure DtsIn where
  theta : Nat
  dalpha : Int
  gc : Int
  uc : Option Int
  degraded : Bool
  /-- A pair's odd channel and whether the two totals agree, with the loop. -/
  pair : Option (Ratios × Bool × Nat)
  even : Ratios

/-- Single-ended values over the given gauges, all none where the coil gives no reference (R176). -/
def singleValues (d : DtsIn) (grade : Nat) (out : Nat → Bool) (n : Nat) : List Graded :=
  match d.uc, d.even.lc with
  | some uc, some lc =>
    (List.range n).map fun g => gradedOf 4 grade
      (if out g then none else (d.even.l.getD g none).bind fun l => singleTemp d.theta uc d.dalpha d.gc lc g l)
  | _, _ => List.replicate n (none, 0)

/-- The values of a DTS frame, δ used and DALPHA_FIT where it is formed: the fit does not need the coil temperature (R176 to R180). A paired
window that lacks a coil ratio falls back as one with too few points does (R178, R179, DESIGN CHOICE, log entry 107). -/
def dtsValues (d : DtsIn) : List Graded × Int × Option Int :=
  match d.pair with
  | none => (singleValues d (if d.degraded then 2 else 3) (fun _ => false) d.even.l.size, d.dalpha, none)
  | some (b, same, loop) =>
    let ps := match d.even.lc, b.lc with | some lcf, some lcb => pairPoints d.even b lcf lcb loop | _, _ => []
    let (n, sxy, sxx) := pairFit loop ps
    if same ∧ 64 ≤ n then
      let fit := divr (sxy * 1000000000) (sxx * 2 ^ 24)
      let corr := divr (sxy * loop) (2 * sxx)
      let vs := ps.map fun p => match d.uc with
        | some uc => gradedOf 12 (if d.degraded then 2 else 3) (p.2.bind fun xy => tempOfU d.theta (uc - divr (xy.1 + xy.2) 2 - corr))
        | none => gradedOf 8 0 none
      (vs, fit, some fit)
    else
      let mid := 2 * (d.even.env + max d.even.hs b.hs)
      (singleValues d 2 (fun g => decide ((2 * (g : Int) - loop).natAbs ≤ mid)) (loop + 1), d.dalpha, none)

/-! ## TEMP2 frames (R190) -/

/-- A TEMP2 word of up to two values. -/
def temp2Word (l : List Graded) : W72 :=
  let v (i : Nat) : Nat :=
    match l[i]? with
    | some (some t, q) => q % 16 * 2 ^ 32 + (t % 2 ^ 32).toNat
    | some (none, q) => q % 16 * 2 ^ 32 + 0x80000000
    | none => 0x80000000
  BitVec.ofNat 72 (v 1 * 2 ^ 36 + v 0)

/-- The data words of a temperature frame. -/
def temp2Words (l : List Graded) : List W72 := (chunks 2 l.length l).map temp2Word

/-- A signed 32-bit field, 0x8000_0000 where there is none. -/
def i32Or (t : Option Int) : Nat := match t with | some t => (t % 2 ^ 32).toNat | none => 0x80000000

/-- The header of a temperature frame (R190). -/
def tempHeader (ch kind : Nat) (stamp : W72) (flags train : Nat) (restart : Bool) (index nt b2 c2 d2 : Nat) (tc : Option Int) (delta : Int)
    (anchors : Nat) : List W72 :=
  [stamp,
   BitVec.ofNat 72 (flags % 64 * 2 ^ 66 + train % 4 * 2 ^ 64 + b2n restart * 2 ^ 55 + kind * 2 ^ 53 + ch * 2 ^ 48 + index % 2 ^ 48),
   BitVec.ofNat 72 (nt % 2 ^ 16 * 2 ^ 56 + b2 % 256 * 2 ^ 48 + c2 % 2 ^ 32 * 2 ^ 16 + d2),
   BitVec.ofNat 72 (i32Or tc * 2 ^ 40 + (delta % 2 ^ 32).toNat * 2 ^ 8 + min anchors 255)]

/-- What a temperature frame shows DTS and FUSE zones (R255). -/
def tempView (stamp : W72) (index flags : Nat) (vs : Array Graded) (w : W72) : FrameView where
  nt := vs.size
  value := fun g => let (t, q) := vs.getD g (none, 0); if q % 4 ≠ 0 ∧ zoneQmin w ≤ q % 4 then t else none
  stamp := stamp
  index := index
  unsync := decide (flags / 4 % 2 = 1)
  timeStep := decide (flags / 8 % 2 = 1)

/-! ## DTS windows (R170, R171, R177) -/

/-- The channel whose DTS acts on a flush of a channel: the even one of a running pair (R177). -/
def State.dtsOwner (s : State) (ch : Nat) : Nat := if s.oddOfPair ch then ch - 1 else ch

/-- FLAGS and TRAIN of a window from the log, with its first shot (R190). -/
def State.dtsFlags (s : State) (ch first last : Nat) : Nat × Option ShotLog :=
  let l := (s.chain ch).log.filter fun r => decide (first ≤ r.index) && decide (r.index ≤ last)
  (l.foldl (fun f r => f ||| r.flags ||| (if r.unsync then 4 else 0)) 0, l.find? fun r => decide (r.index = first))

/-- A window of a channel goes to its FUSE (R186). -/
def State.dtsWindow (s : State) (ch first last : Nat) (temps : List (Option Int)) : State :=
  if s.fuseEn ch then
    let x := s.chain ch
    s.setChain ch { x with fuse := { x.fuse with windows := x.fuse.windows ++ [⟨first, last, temps⟩] } }
  else s

/-- uc of a coil temperature (R176); at absolute zero no quotient is defined and the value is free (DESIGN CHOICE, log entry 4). -/
def State.coilU (s : State) (theta : Nat) (tc : Option Int) : Option Int × State :=
  match tc with
  | none => (none, s)
  | some t => if t + zeroC = 0 then (some s.free.toInt, s.drawn) else (some (divr (theta * 2 ^ 24) (t + zeroC)), s)

/-- DTS forms the frame of a window (R173 to R180, R190). -/
def State.dtsForm (s : State) (ch : Nat) (pair : Bool) (w odd : List W72) : State :=
  let d := odDts ch
  let first := field (nth w 0 0) 47 0
  let last := field (nth w 1 0) 47 0
  let (flags, shot) := s.dtsFlags ch first last
  let lr := match shot with | some r => r.lr | none => lrOf (s.head (ch / 8)).act.len
  let stamp := s.stampOf ch first
  let (tc, degraded) := s.coilOver (ch / 8) (tsNum stamp) (tsNum (s.stampOf ch (last + 1)))
  let (ri, s) := s.readTotals ch (field (nth w 4 0) 33 17) lr
  let same := decide (field (nth odd 0 0) 47 0 = first) && decide (field (nth odd 1 0) 47 0 = last)
  let oddClean := field (nth odd 4 0) 33 17
  let (oi, s) := if pair && same then s.readTotals (ch + 1) oddClean lr else (s.ratioSet (ch + 1) oddClean lr, s)
  let theta := s.odv d 3
  let (uc, s) := s.coilU theta tc
  let (vs, delta, fit) := dtsValues {
    theta := theta, dalpha := s.odvS d 4 32, gc := s.coilStart (ch / 8) + s.coilLen (ch / 8) / 2, uc := uc, degraded := degraded
    pair := if pair then some (ratiosOf oi, same, s.odv d 0xA) else none, even := ratiosOf ri }
  let s := match fit with | some f => s.setOdvS d 0xB 32 f | none => s
  let s := (s.setOdv (0x6000 + ch) 3 first).setOdv (0x6000 + ch) 4 (b2n (match shot with | some r => !r.unsync | none => s.rbit Reg.timeSrcStatus 2))
  let temps := vs.map Prod.fst
  let s := s.dtsWindow ch first last temps
  let s := if pair then s.dtsWindow (ch + 1) first last temps.reverse else s
  let x := s.chain ch
  let restart := x.dts.restart
  let band (i : Nat) : Bool := (x.band.active || decide (x.band.stops ≠ [])) && decide (x.band.next / max 1 (vibRows x.band.vib) ≤ i)
  let s := s.setChain ch { x with
    log := x.log.filter fun r => decide (first ≤ r.index) || band r.index
    dts := { x.dts with formed := some (first, last), restart := false, waiting := none } }
  let s := s.zoneFrame 2 ch (tempView stamp first flags vs.toArray)
  s.frameOut ch 2 (tempHeader ch 1 stamp flags (match shot with | some r => r.train | none => 0) restart first vs.length (s.odv d 6)
    (field (nth w 2 0) 31 0) 0 tc delta 0 ++ temp2Words vs)

/-- DTS writes TOT_CLEAR, to both engines of a pair (R170, R177). -/
def State.dtsClear (s : State) (ch : Nat) (pair : Bool) : State := if pair then (s.totClear ch).totClear (ch + 1) else s.totClear ch

/-- Words 0 to 4 of a channel's totals. -/
def State.totalsHead (s : State) (ch : Nat) : List W72 × State :=
  let (l, s) := State.dramReadMany 5 (s.totBase ch) s
  (l.map Prod.fst, s)

/-- A window that has its batches is formed, single-ended where the pair's totals do not meet; the odd channel's are not read while its
flush writes them (R141, R170, R177, R179). -/
def State.dtsGrow (s : State) (ow ch : Nat) (pair : Bool) (w odd : List W72) (first last : Nat) (f : State → State) : State :=
  let s := f s
  let x := s.chain ow
  if last + 1 - first < 256 * s.odv (odDts ow) 2 then s
  else if pair ∧ ((nth odd 3 0).getLsbD 0 ∨ field (nth odd 1 0) 47 0 < last) ∧ ¬(ch = ow ∧ x.dts.waiting.isSome ∧ x.dts.waiting.getD 0 < last) then
    s.setChain ow { x with dts := { x.dts with waiting := some (x.dts.waiting.getD last) } }
  else (s.dtsForm ow pair w odd).dtsClear ow pair

/-- DTS on the flush of a channel: a window of the owner grows, waits for its pair or is formed; totals whose FLUSH_SEQ is odd are read
again at their own flush (R141, R170, R171, R177). -/
def State.dtsAct (s : State) (ow ch : Nat) : State :=
  let pair := s.double ow
  let (w, s) := s.totalsHead ow
  let (odd, s) := if pair then s.totalsHead (ow + 1) else ([], s)
  let first := field (nth w 0 0) 47 0
  let last := field (nth w 1 0) 47 0
  let x := s.chain ow
  let set (d : DtsSt) (s : State) : State := s.setChain ow { s.chain ow with dts := d }
  if (nth w 3 0).getLsbD 0 ∨ (ch ≠ ow ∧ x.dts.waiting.isNone) then s
  else
    match x.dts.formed with
    | some (f, l) =>
      if first = f then
        if last ≤ l then s
        else
          let lost := (last - l + 255) / 256
          (set { x.dts with formed := some (f, last) } (s.setOdv (odDts ow) 0xC ((s.odv (odDts ow) 0xC + lost) % 2 ^ 32))).dtsClear ow pair
      else s.dtsGrow ow ch pair w odd first last (set { x.dts with formed := none, expect := some first, waiting := none })
    | none =>
      if x.dts.expect = some first then s.dtsGrow ow ch pair w odd first last id
      else s.dtsGrow ow ch pair w odd first last (set { x.dts with expect := some first, waiting := none })

/-- Core 5 of the cluster that serves a channel holds its role: DTS, FUSE and ZONE run there (R144, R166, R219). -/
def State.tempLoaded (s : State) (ch : Nat) : Bool :=
  match s.clusterOf ch with
  | some cl => s.dspPowered cl && (s.core (coreOf cl 5)).vendor && decide ((s.core (coreOf cl 5)).role = 4)
  | none => false

/-- DTS_FLUSH_READ (R166, R170): DTS acts on a completed flush of a channel. -/
def execDtsFlushRead (ch : Chan) (s : State) : Host.Outcome State Fault Refusal :=
  let ow := s.dtsOwner ch
  if s.dtsEn ow && s.tempLoaded ow then .next (s.dtsAct ow ch) else .next s

/-! ## FUSE (R183 to R187) -/

/-- FUSE's gauge records replaced by f. -/
def State.mapFuses (s : State) (ch n : Nat) (f : Nat → FuseO → FuseO) : State :=
  { s with fuses := Store.setMany {} ((List.range n).map fun g => (65536 * ch + g, f g (s.fuses.get {} (65536 * ch + g)))) s.fuses }

/-- FUSE restarts (R187). -/
def State.fuseRestart (s : State) (ch : Nat) : State :=
  let s := { s with fuses := s.fuses.dropRange (65536 * ch) (65536 * ch + 65536) }
  let x := s.chain ch
  (s.setChain ch { x with fuse := {
    tcPrev := x.fuse.tcPrev, windows := x.fuse.windows, kept := x.fuse.kept, restart := true } }).setOdv (odFuse ch) 8 0

/-- One gauge of a shot (R183, R191). -/
def fuseGauge (phi : Int) (q : Nat) (f : FuseO) : FuseO :=
  let (x, vb) := incOf q phi f.phiLast f.vb
  { phiLast := phi, vb := vb, sum := f.sum + x, any0 := f.any0 || decide (q = 0), any1 := f.any1 || decide (q = 1)
    all0 := f.all0 && decide (q = 0) }

/-- FUSE takes a shot (R183, R187). -/
def State.fuseTake (s : State) (ch : Nat) (i : FuseIn) (c : FuseCfg) : State :=
  let s := if i.shot.fuseRestart then s.fuseRestart ch else s
  let idx := i.shot.index.toNat
  let n := vibG i.shot.cfg
  let fdec := max c.fdec 1
  let s :=
    if idx % fdec = 0 then
      let s := s.mapFuses ch n fun _ f => { f with sum := 0, any0 := false, any1 := false, all0 := true }
      let x := s.chain ch
      s.setChain ch { x with fuse := { x.fuse with
        inFrame := true, flags := 0, stamp := i.shot.stamp, first := idx, train := i.shot.cfg.train } }
    else s
  let row := i.row.toArray
  let s := s.mapFuses ch n fun g f => let (phi, q) := row.getD g (0, 0); fuseGauge phi q f
  let x := s.chain ch
  let f := { x.fuse with flags := x.fuse.flags ||| field i.w1 71 66 }
  s.setChain ch { x with fuse := { f with due := if f.inFrame && decide (idx + 1 = f.first + fdec) then some i.shot else none } }

/-- FUSE_SHOT (R183): row 0 of the next PHASE4 frame. -/
def execFuseShot (ch : Chan) (s : State) : Host.Outcome State Fault Refusal :=
  let x := s.chain ch
  if x.fuse.due.isSome then .next s
  else
    match x.fuseIn with
    | [] => .next s
    | i :: rest =>
      let s := s.setChain ch { x with fuseIn := rest }
      match i.shot.fuse with
      | none => .next s
      | some c => .next (s.fuseTake ch i c)

/-- The drift per section over a frame, and COIL (R184). -/
def fuseDrift (on : Bool) (gs : List (Nat × FuseO)) (fk : Int) (tc prev : Option Int) : Int × Bool :=
  let gs := gs.filter fun g => !g.2.any0
  let nc := gs.length
  let dc := sumInt (gs.map fun g => g.2.sum)
  match tc, prev with
  | some t, some p =>
    if !on ∨ nc < 8 then (0, false)
    else (divr (dc - divr ((t - p) * nc * 2 ^ 32) fk) nc, true)
  | _, _ => (0, false)

/-- tr(j) of a window (R186). -/
def windowTemp (w : DtsWin) (m h1 h2 first n : Nat) : Option Int :=
  let lo : Int := (m : Int) * ((first : Int) - h1)
  let hi : Int := (m : Int) * ((first : Int) + n - 1 + h2)
  let ts := (w.temps.mapIdx fun i t => (i, t)).filterMap fun x => if lo ≤ x.1 ∧ (x.1 : Int) ≤ hi then x.2 else none
  if ts = [] then none else some (divr (sumInt ts) ts.length)

/-- mp(j) of a window: a frame kept from before a change of FAVG or G that has no gauge j adds nothing (R186). -/
def windowPhase (w : DtsWin) (kept : List (Nat × List Int)) (j : Nat) : Option Int :=
  let ps := (kept.filter fun k => decide (w.first ≤ k.1) && decide (k.1 ≤ w.last)).filterMap fun k => k.2[j]?
  if ps = [] then none else some (divr (sumInt ps) ps.length)

/-- A window updates the anchors: their values, and whether any was updated (R186). -/
def anchorUpdate (w : DtsWin) (m h1 h2 f g kf anchors : Nat) (kept : List (Nat × List Int)) (o : List Int) : List Int × Bool :=
  let r := o.mapIdx fun j v =>
    match windowTemp w m h1 h2 (j * f) (min f (g - j * f)), windowPhase w kept j with
    | some tr, some mp =>
      let e := tr - (mp + v)
      (v + (if anchors = 0 then e else rne e kf), true)
    | _, _ => (v, false)
  (r.map Prod.fst, r.any Prod.snd)

/-- Every window that waits updates the anchors in turn (R186). -/
def anchorAll (m h1 h2 f g kf : Nat) : List DtsWin → List (Nat × List Int) → List Int → Nat → List Int × Nat × List (Nat × List Int)
  | [], kept, o, n => (o, n, kept)
  | w :: r, kept, o, n =>
    let (o, did) := anchorUpdate w m h1 h2 f g kf n kept o
    anchorAll m h1 h2 f g kf r (kept.filter fun k => decide (w.last < k.1)) o (n + b2n did)

/-- A value a TEMP2 word can hold, else a free one (R190 gives no value there, DESIGN CHOICE, log entry 4). -/
def State.tempFit (s : State) (t : Int) : Int × State :=
  if t < -(2 ^ 31) + 1 ∨ 2 ^ 31 - 1 < t then (fieldS s.free 31 0, s.drawn) else (t, s)

/-- Every value that fits or is free. -/
def State.tempFits : List Int → State → List Int × State
  | [], s => ([], s)
  | t :: r, s =>
    let (t, s) := s.tempFit t
    let (r, s) := State.tempFits r s
    (t :: r, s)

/-- The quality of a fused gauge (R191). -/
def fuseQuality (gs : List FuseO) (anchored coil : Bool) (anchors : Nat) : Nat :=
  let grade :=
    if anchors = 0 then 0
    else if gs.all fun g => g.all0 then 1
    else if gs.any fun g => g.any0 || g.any1 then 2 else 3
  b2n anchored * 8 + b2n coil * 4 + grade

/-- FUSE forms the frame that ends with a shot (R184 to R186, R190, R191). -/
def State.fuseForm (s : State) (ch : Nat) (sh : ChainShot) (c : FuseCfg) : State :=
  let h := ch / 8
  let x := s.chain ch
  let fu := x.fuse
  let last := sh.index.toNat
  let m := trainLen sh.cfg.train
  let h1 := vibH1 sh.cfg
  let h2 := vibH2 sh.cfg
  let g := vibG sh.cfg
  let f := max c.favg 1
  let nf := (g + f - 1) / f
  let gs := (List.range g).map fun i => (i, s.fuses.get {} (65536 * ch + i))
  let coil := gs.filter fun y => decide (s.coilStart h ≤ (y.1 : Int) - h1) && decide ((y.1 : Int) + h2 ≤ s.coilStart h + s.coilLen h - 1)
  let tc := s.coilLast h (tsNum (s.stampOf ch (last + 1)))
  let (dr, used) := fuseDrift (s.odv (odFuse ch) 6 ≠ 0) coil c.fk tc fu.tcPrev
  let arr := gs.toArray
  let of' (j : Nat) : List FuseO := (List.range (min f (g - j * f))).map fun i => (arr.getD (j * f + i) (0, {})).2
  let p := (List.range nf).map fun j => wrap (nth fu.p j 0 + sumInt ((of' j).map (·.sum)) - (of' j).length * dr) 64
  let tp := p.mapIdx fun j v => divr (v * c.fk) ((of' j).length * 2 ^ 32)
  let o := (List.range nf).map fun j => nth fu.o j 0
  let (o, anchors, kept) := anchorAll m h1 h2 f g (s.odv (odFuse ch) 5) fu.windows (fu.kept ++ [(last, tp)]) o fu.anchors
  let (tf, s) := State.tempFits (List.zipWith (· + ·) tp o) s
  let anchored := decide (s.odv (odFuse ch) 7 ≤ anchors)
  let vs : List Graded := tf.mapIdx fun j t =>
    let q := fuseQuality (of' j) anchored used anchors
    (if q % 4 = 0 then none else some t, q)
  let s := (s.setChain ch { s.chain ch with fuse := { fu with
    inFrame := false, restart := false, due := none, tcPrev := tc.orElse fun _ => fu.tcPrev, anchors := anchors, p := p, o := o
    kept := kept, windows := [] } }).setOdv (odFuse ch) 8 (anchors % 2 ^ 32)
  let s := s.zoneFrame 3 ch (tempView fu.stamp fu.first fu.flags vs.toArray)
  s.frameOut ch 3 (tempHeader ch 2 fu.stamp fu.flags fu.train fu.restart fu.first vs.length c.favg c.fdec
    (s.odv (odFuse ch) 5 * 256) tc dr anchors ++ temp2Words vs)

/-- FUSE_FRAME_END (R185). -/
def execFuseFrameEnd (ch : Chan) (s : State) : Host.Outcome State Fault Refusal :=
  match (s.chain ch).fuse.due with
  | none => .next s
  | some sh =>
    match sh.fuse with
    | none => .next s
    | some c => .next (s.fuseForm ch sh c)

end Sys2Proof.Machine
end

