-- ==== Sys2Proof/Machine/FrontEnd.lean ====
section
/-!
DEFINITION. The precision front end (R350 to R363, R372): slots of the PADC sequence, settling, open leads, burn-out tests, the
result ring and the conversion of results.
-/
namespace Sys2Proof.Machine

/-- The block base of the front end. -/
def pfeBase : Nat := 0x80000

/-- CTRL.RUN. -/
def State.padcRun (s : State) : Bool := s.rbit Reg.pfeCtrl 0

/-- A slot's gain code, whether it is enabled, its KIND and its REF. -/
def State.slotGain (s : State) (k : Nat) : Nat := s.fld (Reg.pfeSlotConv k) 31 29
def State.slotOn (s : State) (k : Nat) : Bool := s.rbit (Reg.pfeSlotDest k) 31
def State.slotKind (s : State) (k : Nat) : Nat := s.fld (Reg.pfeSlotDest k) 27 24
def State.slotRef (s : State) (k : Nat) : Nat := s.fld (Reg.pfeSlotRoute k) 23 22
def State.slotSwap (s : State) (k : Nat) : Nat := s.fld (Reg.pfeSlotExc k) 27 26
def State.slotCount (s : State) (k : Nat) : Nat := s.fld (Reg.pfeSlotDest k) 23 16
def State.slotNavg (s : State) (k : Nat) : Nat := s.fld (Reg.pfeSlotConv k) 27 24 + 1

/-- The settle count after a change (R355). -/
def State.slotSettle (s : State) (k : Nat) : Nat := 3 + s.fld (Reg.pfeSlotConv k) 28 28 + s.slotNavg k - 1

/-- A source of the slot drives a pin. -/
def State.slotDriven (s : State) (k : Nat) : Bool :=
  (s.rbit (Reg.pfeSlotExc k) 15 || s.rbit (Reg.pfeSlotExc k) 7) && decide (s.fld (Reg.pfeSlotExc k) 31 28 ≠ 0)

/-! ## The ring (R361) -/

/-- One word of the ring of a block whose RING registers are given: it lies at WP modulo the length, and WP advances. -/
def State.ringWord (s : State) (base len wp : Nat) (w : W72) : State :=
  let n := s.fld len 15 0 * 256
  let a := s.fld base 27 0 * 256 + (s.reg wp).toNat % n
  (s.dramWrite a w false).count wp 1

/-- The request of the PADC ring: RING_WM words since the last one was taken. -/
def State.padcRequest (s : State) : State :=
  let due := decide (s.fld Reg.pfeRingWm 15 0 ≤ ((s.reg Reg.pfeRingWp).toNat + 2 ^ 32 - s.padc.mark) % 2 ^ 32)
  { s with padc := { s.padc with request := s.padc.request || due } }

/-- A word of the PADC ring: flags RESULT, OPEN, SETTLING, SAT and BO, and the value. -/
def State.padcWord (s : State) (k : Nat) (result isOpen settling sat bo : Bool) (phase : Nat) (v : Int) : State :=
  let f := bitsToNat [sat, settling, isOpen, result]
  let n := k * 2 ^ 68 + f * 2 ^ 64 + phase * 2 ^ 62 + b2n bo * 2 ^ 61 + (s.reg Reg.pfePass).toNat % 2 ^ 24 * 2 ^ 32
    + (v % 2 ^ 32).toNat
  (s.ringWord Reg.pfeRingBase Reg.pfeRingLen Reg.pfeRingWp (BitVec.ofNat 72 n)).padcRequest

/-! ## The sequence (R354 to R357) -/

/-- The burn-out tests that run now; BO_RUN shows whether there are any (R358, R372). -/
def State.setTests (s : State) (k : W32) : State :=
  { s.setRbit Reg.pfeStatus 29 (decide (k ≠ 0)) with padc := { s.padc with tests := k } }

/-- An idle begins: every test requested by then runs in it, a request of the same cycle too (R358, R362). -/
def State.idleBegin (s : State) : State := s.setTests (s.padc.tests ||| s.reg Reg.pfeBoReq)

/-- BO_REQ was written. Outside a pass, with RUN at 0, all time is idle and the tests run at once; a request made in the idle of a running
sequence waits for the next idle; a test whose request was withdrawn ends (R358, R385, DEDUCED, log entry 110). -/
def State.boAsked (s : State) : State :=
  s.setTests (if s.padcRun || s.padc.inPass then s.padc.tests &&& s.reg Reg.pfeBoReq else s.reg Reg.pfeBoReq)

/-- Show RUNNING, IDLE, BO_RUN and CUR (R372); EOPEN is kept in the register. -/
def State.padcShow (s : State) (running : Bool) : State :=
  let s := if s.padc.inPass then s else s.idleBegin
  let s := (s.setRbit Reg.pfeStatus 31 running).setRbit Reg.pfeStatus 30 (running && !s.padc.inPass)
  s.setFld Reg.pfeStatus 23 20 s.padc.slot

/-- A slot result: RESULTk, RSTATk, its ring word, and the conversion it is due. -/
def State.padcResult (s : State) (k : Nat) (r : Int) (isOpen settling sat : Bool) (m0 m1 : Int) : State :=
  let v := if isOpen then 0 else r
  let s := s.setReg (Reg.pfeResult k) (toW 32 v)
  let s := s.setReg (Reg.pfeRstat k) (BitVec.ofNat 32 (bitsToNat [sat, settling, isOpen] * 32))
  let s := s.padcWord k true isOpen settling sat false s.padc.phase v
  { s with padc := { s.padc with
      due := s.padc.due ++ [⟨k, r, isOpen || settling, s.stamp⟩]
      last := setNth s.padc.last k (m0, m1, isOpen) } }

/-- Begin converting the slot: an entry (R355). -/
def State.padcBegin (s : State) (k : Nat) : State :=
  { s with padc := { s.padc with slot := k, phase := 0, settle := s.slotSettle k, outs := [], m0 := 0, sat := false, waitComp := false } }

/-- The pass moves on to the first slot from k that converts, n slots being left (R354, R357, R358). -/
def State.padcEnter : Nat → Nat → State → State
  | 0, _, s => { (s.count Reg.pfePass 1) with padc := { s.padc with inPass := false, waitComp := false } }
  | n + 1, k, s =>
    if !s.slotOn k then State.padcEnter n (k + 1) s
    else if s.rbit Reg.pfeBoResult k then State.padcEnter n (k + 1) ((s.padcBegin k).padcResult k 0 true false false 0 0)
    else if s.rbit Reg.pfeStatus k then
      let s := s.padcBegin k
      { s with padc := { s.padc with waitComp := true } }
    else s.padcBegin k

/-- The slots of the sequence. -/
def State.seqLen (s : State) : Nat := s.fld Reg.pfeSeqCfg 4 0

/-- The slot in progress is over and the pass moves on. -/
def State.padcNext (s : State) : State :=
  let k := s.padc.slot
  (State.padcEnter (s.seqLen - (k + 1)) (k + 1) s).padcShow true

/-- A slot converts now. -/
def State.converting (s : State) : Bool := s.padc.inPass && !s.padc.waitComp

/-- PADC_PASS_START (R354): a pass begins while RUN is 1, no pass is in progress and no burn-out test runs; an overrun sets FAULT.OVERRUN. The
tests of a sequence with no idle run between two passes, so the next pass waits for them (R358, DEDUCED, log entry 110). -/
def execPadcPassStart (overrun : Bool) (s : State) : Host.Outcome State Fault Refusal :=
  .next (if s.padcRun && !s.padc.inPass && decide (s.padc.tests = 0) then
    let s := if overrun && decide (s.fld Reg.pfeSeqCfg 31 16 ≠ 0) then s.fault Reg.pfeFault (2 ^ 17) else s
    (State.padcEnter s.seqLen 0 { s with padc := { s.padc with inPass := true } }).padcShow true
  else s)

/-- A raw code corrected at a gain code, and whether it is saturated (R353). -/
def State.padcCorrect (s : State) (g : Nat) (xr : Int) : Int × Bool :=
  let y := rne ((xr - s.fldS (Reg.pfeOfs g) 23 0) * s.fld (Reg.pfeGc g) 23 0) 22
  let x := sat y 24
  (x, decide (xr = -(2 ^ 23)) || decide (xr = 2 ^ 23 - 1) || decide (x ≠ y))

/-- The mean of the last n values, rounded by divr; a free value while fewer were formed (R353, DESIGN CHOICE, log entry 4). -/
def State.padcMean (s : State) (n : Nat) (hist : List Int) : Int × State :=
  if n ≤ hist.length then (divr (sumInt (hist.take n)) n, s) else (fieldS s.free 23 0, s.drawn)

/-- A slot result from the valid outputs of its phases (R356). -/
def State.padcEndPhase (s : State) (k : Nat) : State :=
  let m := divr (sumInt s.padc.outs) s.padc.outs.length
  if s.slotSwap k = 0 then (s.padcResult k m false false s.padc.sat m 0).padcNext
  else if s.padc.phase = 0 then
    { s with padc := { s.padc with phase := 1, m0 := m, outs := [], settle := s.slotSettle k } }
  else (s.padcResult k (divr (s.padc.m0 + m) 2) false false s.padc.sat s.padc.m0 m).padcNext

/-- What an output changes in the gathering of the slot: v is the output, x its corrected code. -/
def PadcSt.take (p : PadcSt) (x v : Int) (isSat : Bool) : PadcSt :=
  { p with
    hist := (x :: p.hist).take 16
    settle := p.settle - 1
    outs := if p.settle ≠ 0 then p.outs else p.outs ++ [v]
    sat := p.sat || (decide (p.settle = 0) && isSat) }

/-- After an output: a continuous slot delivers it as a result, and COUNT valid outputs end the phase (R354, R356). -/
def State.padcAfter (s : State) (k : Nat) (v : Int) (settling isSat : Bool) : State :=
  if s.slotCount k = 0 then
    let t := s.padcResult k v false settling isSat v 0
    { t with padc := { t.padc with outs := [], sat := false } }
  else if s.slotCount k ≤ s.padc.outs.length then s.padcEndPhase k
  else s

/-- Count a saturated output (R353). -/
def State.padcSat (s : State) (isSat : Bool) : State :=
  if isSat then (s.count Reg.pfeSatCnt 1).fault Reg.pfeFault (2 ^ 16) else s

/-- An output of the slot in progress is formed: its ring word and the gathering; with its value and whether it is saturated (R353, R361). -/
def State.padcForm (s : State) (xr : Int) : State × Int × Bool :=
  let k := s.padc.slot
  let c := s.padcCorrect (s.slotGain k) (wrap xr 24)
  let m := s.padcMean (s.slotNavg k) (c.1 :: s.padc.hist)
  let t := (m.2.padcSat c.2).padcWord k false false (decide (s.padc.settle ≠ 0)) c.2 false s.padc.phase m.1
  ({ t with padc := t.padc.take c.1 m.1 c.2 }, m.1, c.2)

/-- An output of the slot in progress (R353 to R356, R361). -/
def State.padcOutput (s : State) (xr : Int) : State :=
  let t := s.padcForm xr
  t.1.padcAfter s.padc.slot t.2.1 (decide (s.padc.settle ≠ 0)) t.2.2

/-- The slot in flight is abandoned (R372). -/
def State.padcStop (s : State) : State := { s with padc := { s.padc with inPass := false, waitComp := false, outs := [] } }.padcShow false

/-- The driven slot in progress is found open (R357): it ends with an OPEN result; an output that completes in the same cycle is delivered
with OPEN and no value (R362). -/
def State.padcOpen (s : State) (output : Bool) : State :=
  let k := s.padc.slot
  let s := if output then s.padcWord k false true (decide (s.padc.settle ≠ 0)) false false s.padc.phase 0 else s
  ((((s.setRbit Reg.pfeStatus k true).fault Reg.pfeFault (2 ^ k)).padcResult k 0 true false false 0 0)).padcNext

/-- PADC_OUTPUT (R353); stopped marks one that completes in the cycle of CTRL.RUN to 0: it stands, and the slot delivers no result
(R362). -/
def execPadcOutput (xr : PadcSample) (s : State) : Host.Outcome State Fault Refusal :=
  .next (if !s.converting then s
  else if xr.stopped then (s.padcForm xr.xr).1.padcStop
  else if xr.opened && s.slotDriven s.padc.slot then s.padcOpen true
  else s.padcOutput xr.xr)

/-- PADC_OPEN_DETECT (R357): the slot in progress ends with an OPEN result. -/
def execPadcOpenDetect (s : State) : Host.Outcome State Fault Refusal :=
  .next (if s.converting && s.slotDriven s.padc.slot then s.padcOpen false else s)

/-- PADC_OPEN_RETRY_TIMEOUT (R357): another OPEN result, and the pass moves on. -/
def execPadcOpenRetryTimeout (s : State) : Host.Outcome State Fault Refusal :=
  .next (if s.padc.inPass && s.padc.waitComp then (s.padcResult s.padc.slot 0 true false false 0 0).padcNext else s)

/-- EXCITATION_COMPLIANCE_HELD (R357): the open slot converts again, as an entry. -/
def execExcitationComplianceHeld (s : State) : Host.Outcome State Fault Refusal :=
  let k := s.padc.slot
  .next (if s.padc.inPass && s.padc.waitComp then (s.setRbit Reg.pfeStatus k false).padcBegin k else s)

/-- The burn-out test of a slot, whose 4th raw code at gain 1 is xr (R358). -/
def State.burnout (s : State) (k : Nat) (xr : Int) : State :=
  if s.padc.tests.getLsbD k then
    let (x, isSat) := s.padcCorrect 0 (wrap xr 24)
    let isOpen := decide (s.fld Reg.pfeBoLimit 23 0 ≤ x.natAbs)
    let s := (s.padcSat isSat).padcWord k false isOpen false isSat true 0 (if isOpen then 0 else x)
    let s := ((s.setRbit Reg.pfeBoResult k isOpen).setRbit Reg.pfeBoReq k false).setTests (withBit s.padc.tests k false)
    if isOpen then s.fault Reg.pfeFault (2 ^ k) else s
  else s

/-- BURNOUT_TEST (R358): the tests that run in this idle end, each with its reading. -/
def execBurnoutTest (xs : List (Nat × Int)) (s : State) : Host.Outcome State Fault Refusal :=
  .next (xs.foldl (fun t p => if p.1 < 16 then t.burnout p.1 p.2 else t) s)

/-! ## Conversion (R359, R360) -/

/-- The index of a slot's conversion entry, a REAL64 of it, and its LAST. -/
def odSlot (k : Nat) : Nat := 0x4410 + k
def State.slotReal (s : State) (k sub : Nat) : Fl := fl64 (s.odv (odSlot k) sub)

/-- An integer as binary64. -/
def flNat (n : Nat) : Fl := flInt n 0

/-- Newton's step below RNOM (R359). -/
def rtdStep (rnom a b c res t : Fl) : Fl :=
  let t100 := flSub t (flNat 100)
  let f := flAdd (flAdd (flAdd (flNat 1) (flMul a t)) (flMul (flMul b t) t)) (flMul (flMul (flMul (flMul c t100) t) t) t)
  let d := flAdd (flAdd a (flMul (flMul (flNat 2) b) t))
    (flMul c (flSub (flMul (flMul (flMul (flNat 4) t) t) t) (flMul (flMul (flNat 300) t) t)))
  flSub t (flDiv (flSub (flMul rnom f) res) (flMul rnom d))

/-- t of a resistance thermometer (R359). -/
def rtdTemp (rnom a b c res : Fl) : Fl :=
  let q := flSub (flNat 1) (flDiv res rnom)
  let d := flSub (flMul a a) (flMul (flMul (flNat 4) b) q)
  let t := flDiv (flAdd (flNeg a) (flSqrt d)) (flMul (flNat 2) b)
  if flLt res rnom then
    let st := rtdStep rnom a b c res
    st (st (st (st t)))
  else t

/-- t of a thermistor (R359). -/
def ntcTemp (sa sb sc res : Fl) : Fl :=
  let l := flLn res
  let d := flAdd (flAdd sa (flMul sb l)) (flMul (flMul (flMul sc l) l) l)
  flSub (flDiv (flNat 1) d) (flDec 27315 2)

/-- The converted value of a result: V, Ω or °C (R359); a free value where ROUTE.REF names no reference (DESIGN CHOICE, log entry 4). -/
def State.convert (s : State) (k : Nat) (r : Int) : Fl × State :=
  let scale := flNat (2 ^ (23 + s.slotGain k))
  let res := flDiv (flMul (flInt r 0) (s.slotReal k 5)) scale
  match s.slotKind k with
  | 0 =>
    let out (v : Fl) : Fl := flDiv (flMul (flInt r 0) v) scale
    (match s.slotRef k with
    | 0 => (out (flDec 25 1), s)
    | 1 => (out (s.slotReal k 0xB), s)
    | _ => (fl64 (field s.free 63 0), s.drawn))
  | 1 => (rtdTemp (s.slotReal k 1) (s.slotReal k 2) (s.slotReal k 3) (s.slotReal k 4) res, s)
  | 2 => (ntcTemp (s.slotReal k 6) (s.slotReal k 7) (s.slotReal k 8) res, s)
  | _ => (res, s)

/-- A temperature in units of 1/n °C of w bits; a free value where none fits (DESIGN CHOICE, log entry 4). -/
def State.tempIn (s : State) (t : Fl) (n w : Nat) : Int × State :=
  match flToInt t n with
  | some x => if sat x w = x then (x, s) else (fieldS s.free (w - 1) 0, s.drawn)
  | none => (fieldS s.free (w - 1) 0, s.drawn)

/-- Deliver a temperature formed at w to a destination (R359). -/
def State.tempDeliver (s : State) (dest : Nat) (t : Fl) (w : W72) : State :=
  if dest = 0 then s
  else if dest ≤ 4 then let (x, s) := s.tempIn t 16 16; s.headTemp (dest - 1) x
  else if dest ≤ 8 then let (x, s) := s.tempIn t 1000000 32; s.coilReading (dest - 5) x w
  else if dest < 0x20 then let (x, s) := s.tempIn t 16 16; s.thReading (dest % 16) x
  else let (x, s) := s.tempIn t 1000000 32; (s.setOdvS 0x4420 1 32 x).setOdv 0x4420 2 w.toNat

/-- PADC_RESULT_CONVERT (R359): the oldest result of the slot that waits is converted and delivered. -/
def execPadcResultConvert (k : Fin 16) (s : State) : Host.Outcome State Fault Refusal :=
  .next (match s.padc.due.find? fun d => d.slot = k.val with
  | none => s
  | some d =>
    let s := { s with padc := { s.padc with due := s.padc.due.erase d } }
    if d.isOpen then s
    else
      let (v, s) := s.convert k d.r
      let s := (s.setOdv (odSlot k) 9 (fl64Bits v)).setOdv (odSlot k) 0xA d.stamp.toNat
      s.tempDeliver (s.fld (Reg.pfeSlotDest k) 5 0) v d.stamp)

/-! ## Writes of the PFE registers -/

/-- Whether a slot's roles and sources may stand together (R350, R352, R372). -/
def slotRolesOk (route exc : W32) : Bool :=
  let p := field route 3 0
  let bias := field route 19 16
  let a := bitOf exc 7
  let b := bitOf exc 15
  decide (p ≠ field route 7 4) && decide (p ≠ bias)
    && !(decide (field route 23 22 = 1) && decide (field route 27 24 = field route 31 28))
    && !(a && decide (field exc 3 0 = bias)) && !(b && decide (field exc 11 8 = bias))
    && !((a || b) && decide (field route 21 20 = 0))
    && !(a && b && decide (field exc 5 4 = field exc 13 12))

/-- A code of DEST.DEST is defined (R359). -/
def destKnown (d : Nat) : Bool := decide (d ≤ 8) || (decide (0x10 ≤ d) && decide (d ≤ 0x20))

/-- Whether DEST.EN = 1 may stand with a kind, a reference and a destination that no other enabled slot names (R359). -/
def State.destOk (s : State) (k : Nat) (route dest : W32) : Bool :=
  let kind := field dest 27 24
  let d := field dest 5 0
  let temp := decide (kind = 1) || decide (kind = 2)
  !(temp && decide (field route 23 22 ≠ 1)) && !(!temp && decide (d ≠ 0)) &&
    (decide (d = 0) || (List.range 16).all fun j => decide (j = k) || !s.slotOn j || decide (s.fld (Reg.pfeSlotDest j) 5 0 ≠ d))

/-- RUN = 1 may stand: a continuous slot has SWAP NONE and is the only enabled slot (R354). -/
def State.runOk (s : State) : Bool :=
  let on := (List.range 16).filter s.slotOn
  on.all fun k => decide (s.slotCount k ≠ 0) || (decide (s.slotSwap k = 0) && decide (on = [k]))

/-- Whether a write that leaves v in a PFE register is refused, beyond the ranges of its fields; both reserved codes of ROUTE.REF are refused
(R11, R353, DEDUCED, log entry 96). -/
def pfeCheck (s : State) (off : Nat) (v : W32) : Option Cause :=
  if off = 0 then (if bitOf v 0 && !s.runOk then some .range else none)
  else if off = 8 ∨ off = 0x1C ∨ off = 0x20 ∨ 0x80 ≤ off ∧ off < 0xC0 then (if s.padcRun then some .busy else none)
  else if 0x100 ≤ off ∧ off < 0x200 then
    let k := (off - 0x100) / 16
    let pick (a : Nat) : W32 := if pfeBase + off = a then v else s.reg a
    let route := pick (Reg.pfeSlotRoute k)
    let exc := pick (Reg.pfeSlotExc k)
    let dest := pick (Reg.pfeSlotDest k)
    if off % 16 = 0 ∧ 2 ≤ field v 23 22 then some .enc
    else if off % 16 = 4 ∧ (field v 31 28 = 15 ∨ field v 27 26 = 3) then some .enc
    else if off % 16 = 12 ∧ !destKnown (field v 5 0) then some .enc
    else if bitOf dest 31 && !(slotRolesOk route exc && s.destOk k route dest) then some .range
    else none
  else none

/-- What a write of a PFE register does besides: RUN starts and abandons the sequence, and a write to the running slot reaches the
converter (R354, R355). -/
def pfeEffect (s : State) (off : Nat) (old v : W32) : State :=
  if off = 0 then
    if bitOf v 0 && !bitOf old 0 then s.setReg Reg.pfePass 0
    else if !bitOf v 0 && bitOf old 0 then s.padcStop
    else s
  else if off = 0x10 then s.boAsked
  else if 0x100 ≤ off ∧ off < 0x200 ∧ s.padc.inPass ∧ (off - 0x100) / 16 = s.padc.slot then
    let k := s.padc.slot
    if !s.slotOn k then s.padcNext
    else if off % 16 ≠ 12 ∧ old ≠ v ∧ !s.padc.waitComp then
      { s with padc := { s.padc with settle := s.slotSettle k, outs := [] } }
    else s
  else s

end Sys2Proof.Machine
end

