-- ==== Sys2Proof/Machine/Hadc.lean ====
section
/-!
DEFINITION. The housekeeping converter (R364 to R367, R373): its reference, the regular and injected sequences, their priority and
its result ring.
-/
namespace Sys2Proof.Machine

/-- The block base of the converter. -/
def hkBase : Nat := 0x70000

/-- REG_EN, INJ_EN, REF_SEL and REF_SETTLED. -/
def State.regEn (s : State) : Bool := s.rbit Reg.hkCtrl 0
def State.injEn (s : State) : Bool := s.rbit Reg.hkCtrl 1
def State.refSel (s : State) : Nat := s.fld Reg.hkCtrl 5 4
def State.refOk (s : State) : Bool := s.rbit Reg.hkStatus 0

/-- The conversion in progress is Quince's. -/
def State.quinceConv (s : State) : Bool := match s.hadc.conv with | some (.quince _) => true | _ => false

/-- Show Q_WAIT, Q_BUSY, INJ_BUSY and REG_BUSY (R373): HK's Q_WAIT shows a Quince conversion that waits (DESIGN CHOICE, log entry 97),
CAL's one that waits behind injected work (R392). -/
def State.hadcShow (s : State) : State :=
  let wait := s.hadc.quince.isSome && !s.quinceConv
  let s := s.setFld Reg.hkStatus 4 1 (bitsToNat [s.hadc.reg.isSome, s.hadc.inj.isSome, s.quinceConv, wait])
  s.setRbit Reg.calStatus 9 (wait && s.hadc.inj.isSome)

/-- Choose the next conversion at a boundary: injected, then Quince, then regular (R367). -/
def State.hadcNext (s : State) : State :=
  let c := if !s.refOk then none else
    ((s.hadc.inj.map HadcConv.inj).or (s.hadc.quince.map HadcConv.quince)).or (s.hadc.reg.map HadcConv.reg)
  State.hadcShow { s with hadc := { s.hadc with conv := c } }

/-- A sequence that became ready starts where no conversion is in progress. -/
def State.hadcKick (s : State) : State := if s.hadc.conv = none then s.hadcNext else s.hadcShow

/-- Judge the reference: REF_SETTLED, and FAULT.REF while VREFX is chosen and out of range (R364). -/
def State.refJudge (s : State) : State :=
  let bad := decide (s.refSel = 1) && s.hadc.vrefxOut
  let s := s.setRbit Reg.hkStatus 0 (s.hadc.timed && !bad)
  let s := if bad then s.fault Reg.hkFault 2 else s
  s.hadcKick

/-- REF_SETTLED (R364). -/
def execRefSettled (s : State) : Host.Outcome State Fault Refusal :=
  if s.shut then .next s else .next (State.refJudge { s with hadc := { s.hadc with timed := true } })

/-- VREFX_RANGE_CHANGE (R364). -/
def execVrefxRangeChange (inRange : Bool) (s : State) : Host.Outcome State Fault Refusal :=
  if s.shut then .next s else .next (State.refJudge { s with hadc := { s.hadc with vrefxOut := !inRange } })

/-- A trigger of the regular sequence (R366). -/
def State.regTrigger (s : State) : State :=
  if !s.regEn then s
  else if s.hadc.reg.isSome || !s.refOk then s.count Reg.hkRegMiss 1
  else State.hadcKick { s with hadc := { s.hadc with reg := some 0 } }

/-- A trigger of the regular sequence from one source, when that is the one chosen. -/
def State.regTriggerFrom (s : State) (trig : Nat) : State := if s.fld Reg.hkRegCfg 25 24 = trig then s.regTrigger else s

/-- HADC_REG_GO (R366). -/
def execHadcRegGo (_q : Req) (s : State) : Host.Outcome State Fault Refusal := .next (if s.shut then s else s.regTriggerFrom 0)

/-- HADC_REG_TIMER (R366). -/
def execHadcRegTimer (s : State) : Host.Outcome State Fault Refusal := .next (s.regTriggerFrom 2)

/-- t_shot of a head as a regular trigger (R366). -/
def State.regShot (s : State) (h : Nat) : State := if s.fld Reg.hkRegCfg 29 28 = h then s.regTriggerFrom 3 else s

/-- A trigger of the injected sequence (R367). -/
def State.injTrigger (s : State) : State :=
  if !s.injEn then s
  else if s.hadc.inj.isSome then (s.count Reg.hkInjMiss 1).fault Reg.hkFault 1
  else State.hadcKick { s with hadc := { s.hadc with inj := some 0 } }

/-- HADC_INJ_GO (R367). -/
def execHadcInjGo (_q : Req) (s : State) : Host.Outcome State Fault Refusal :=
  .next (if s.shut then s else if s.fld Reg.hkInjCfg 25 24 = 0 then s.injTrigger else s)

/-- HADC_INJ_TRIGGER (R367): the trigger counts where INJ_CFG names it. -/
def execHadcInjTrigger (src : InjSrc) (s : State) : Host.Outcome State Fault Refusal :=
  let trig := s.fld Reg.hkInjCfg 25 24
  let named := match src with
    | .tin pin => decide (trig = 1) && decide (s.fld Reg.hkInjCfg 18 16 = pin.val)
    | .headok h => decide (trig = 2) && decide (s.fld Reg.hkInjCfg 29 28 = h.val)
    | .tshot h => decide (trig = 3) && decide (s.fld Reg.hkInjCfg 29 28 = h.val)
  .next (if named then s.injTrigger else s)

/-! ## Conversions -/

/-- The code of a raw value at the chosen reference (R365). -/
def State.hadcCode (s : State) (rw : Nat) : Nat :=
  let t := Reg.hkTrim s.refSel
  (satu (rne (((rw % 2 ^ 14 : Nat) - s.fldS t 15 0) * s.fld t 31 16) 16) 12).toNat

/-- The HK input of regular slot i, and where code i lies in a result register. -/
def State.regInput (s : State) (i : Nat) : Nat := s.fld (Reg.hkRegSlot (i / 4)) (8 * (i % 4) + 5) (8 * (i % 4))
def resAt (i : Nat) : Nat := 16 * (i % 2)

/-- The request of the HADC ring (R361, R366). -/
def State.hadcRequest (s : State) : State :=
  let due := decide (s.fld Reg.hkRingWm 15 0 ≤ ((s.reg Reg.hkRingWp).toNat + 2 ^ 32 - s.hadc.mark) % 2 ^ 32)
  { s with hadc := { s.hadc with request := s.hadc.request || due } }

/-- Regular slot i is converted: its result, its ring word, and the slot after it or the end of the pass (R366). -/
def State.regDone (s : State) (i code : Nat) : State :=
  let s := s.setFld (Reg.hkRegRes (i / 2)) (resAt i + 11) (resAt i) code
  let w := i * 2 ^ 64 + s.regInput i * 2 ^ 58 + (s.reg Reg.hkPass).toNat * 2 ^ 16 + code
  let s := (s.ringWord Reg.hkRingBase Reg.hkRingLen Reg.hkRingWp (BitVec.ofNat 72 w)).hadcRequest
  if !s.regEn then { s with hadc := { s.hadc with reg := none } }
  else if i + 1 < s.fld Reg.hkRegCfg 5 0 then { s with hadc := { s.hadc with reg := some (i + 1) } }
  else
    let next := if s.fld Reg.hkRegCfg 25 24 = 1 then some 0 else none
    { (s.count Reg.hkPass 1) with hadc := { s.hadc with reg := next } }

/-- The injected results (R367). -/
def State.injShow (s : State) : State :=
  let c (i : Nat) : Nat := nth s.hadc.injCodes i 0
  (s.setReg (Reg.hkInjRes 0) (BitVec.ofNat 32 (c 1 * 65536 + c 0))).setReg (Reg.hkInjRes 1) (BitVec.ofNat 32 (c 3 * 65536 + c 2))

/-- Injected slot i is converted; the last one updates INJ_RES, sets DONE and raises vector 228 (R367). -/
def State.injDone (s : State) (i code : Nat) : State :=
  let s := { s with hadc := { s.hadc with injCodes := setNth s.hadc.injCodes i code } }
  if !s.injEn then { s with hadc := { s.hadc with inj := none } }
  else if i + 1 < s.fld Reg.hkInjCfg 2 0 then { s with hadc := { s.hadc with inj := some (i + 1) } }
  else
    let s := { s with hadc := { s.hadc with inj := none } }
    (s.injShow.setRbit Reg.hkInjStat 0 true).event 228

/-! ## Writes of the HK registers -/

/-- Whether a write that leaves v in an HK register is refused, beyond the ranges of its fields (R364, R373). -/
def hkCheck (s : State) (off : Nat) (v : W32) : Option Cause :=
  if off = 0 then
    let busy := s.hadc.conv.isSome || s.hadc.reg.isSome || s.hadc.inj.isSome || s.hadc.quince.isSome
    if field v 5 4 = s.refSel then none else if busy then some .busy else if field v 5 4 = 3 then some .enc else none
  else if off = 8 ∨ 0x20 ≤ off ∧ off < 0x40 ∨ off = 0x94 ∨ off = 0x98 ∨ off = 0xA0 then (if s.regEn then some .busy else none)
  else if off = 0x14 ∨ off = 0x1C then (if s.injEn then some .busy else none)
  else none

/-- What a write of CTRL does besides: REF_SEL settles anew, a sequence disabled ends with its conversion in progress, and a
continuous one enabled starts (R364, R366). -/
def hkEffect (s : State) (off : Nat) (old v : W32) : State :=
  if off ≠ 0 then s
  else
    let s := if field old 5 4 ≠ field v 5 4 then
      State.refJudge { s with hadc := { s.hadc with timed := false } } else s
    let s := if !bitOf v 0 then
        { s with hadc := { s.hadc with reg := if (match s.hadc.conv with | some (.reg _) => true | _ => false) then s.hadc.reg else none } }
      else if !bitOf old 0 && decide (s.fld Reg.hkRegCfg 25 24 = 1) then { s with hadc := { s.hadc with reg := some (s.hadc.reg.getD 0) } }
      else s
    let s := if !bitOf v 1 then
        { s with hadc := { s.hadc with inj := if (match s.hadc.conv with | some (.inj _) => true | _ => false) then s.hadc.inj else none } }
      else s
    s.hadcKick

end Sys2Proof.Machine
end

