-- ==== Sys2Proof/Machine/Quince.lean ====
section
/-!
DEFINITION. Quince, the self-calibration (R375 to R392): due steps, lane and IQ steps, converter and current-source steps, the swap
check and the calibration store.
-/
namespace Sys2Proof.Machine

/-- The block base of CAL. -/
def calBase : Nat := 0x60000

/-- The kinds and outcomes of LAST (R392). -/
def kLane : Nat := 1
def kIq : Nat := 2
def kPadc : Nat := 3
def kMatch : Nat := 4
def kSwap : Nat := 5
def kStore : Nat := 6
def oDone : Nat := 1
def oNotQuiet : Nat := 2
def oNoGap : Nat := 3
def oDisagree : Nat := 4
def oRange : Nat := 5
def oRefused : Nat := 6
def oOpen : Nat := 7
def oAborted : Nat := 8
def oFailStore : Nat := 9

/-- CTRL.EN with a kind's enable at bit i. -/
def State.calKind (s : State) (i : Nat) : Bool := s.rbit Reg.calCtrl 0 && s.rbit Reg.calCtrl i

/-- RETRIES. -/
def State.calRetries (s : State) : Nat := s.fld Reg.calTolB 19 16

/-- A step of Quince on a head. -/
def State.laneStep (s : State) (h : Nat) : Option LaneStep := nth s.quince.lanes h none

/-- Set the step of a head. -/
def State.setLaneStep (s : State) (h : Nat) (x : Option LaneStep) : State :=
  { s with quince := { s.quince with lanes := setNth s.quince.lanes h x } }

/-- Show STORING, PADC_BUSY and HEAD_BUSY (R392). -/
def State.calShow (s : State) : State :=
  let busy := (List.range 4).map fun h => (s.laneStep h).isSome
  ((s.setRbit Reg.calStatus 10 s.quince.storing).setRbit Reg.calStatus 8 (decide (s.quince.padcLeft ≠ 0))).setFld Reg.calStatus 7 4
    (bitsToNat busy)

/-- A step ends: LAST, the counters, and vector 225 for every outcome but DONE and for a completed STORE (R392). -/
def State.stepEnd (s : State) (kind outcome ch attempts : Nat) : State :=
  let s := s.setReg Reg.calLast (BitVec.ofNat 32 (kind * 2 ^ 28 + outcome * 2 ^ 24 + ch * 2 ^ 16 + min attempts 255))
  let s := if outcome = oDone then s.count Reg.calDoneCnt 1 else s.count Reg.calFailCnt 1
  let s := if outcome = oDone ∧ kind ≠ kStore then { s with quince := { s.quince with since := true } } else s
  let s := if s.rbit Reg.calCtrl 8 && (decide (outcome ≠ oDone) || decide (kind = kStore)) then s.event 225 else s
  s.calShow

/-! ## Temperatures and triggers (R375, R376) -/

/-- Sensor k's last valid reading. -/
def State.sensor (s : State) (k : Nat) : Option Int :=
  if s.rbit (Reg.calTemp k) 16 then some (s.fldS (Reg.calTemp k) 15 0) else none

/-- The sensor of a channel. -/
def State.laneSensor (s : State) (ch : Nat) : Option Int := s.sensor (ch / 16)

/-- A temperature moved by at least a step from where it was. -/
def moved (t was : Option Int) (step : Nat) : Bool :=
  match t, was with
  | some a, some b => decide (step ≤ (a - b).natAbs)
  | _, _ => false

/-- MAX_AGE minutes have passed since target i was calibrated. -/
def State.aged (s : State) (i : Nat) : Bool :=
  let age := s.fld Reg.calAgeCfg 31 16
  decide (age ≠ 0) && decide (age * 6000000000 ≤ s.time.up - nth s.quince.takenAt i 0)

/-- LANE_STAT.VALID of a channel, and its TCAL. -/
def State.laneValid (s : State) (ch : Nat) : Bool := s.rbit (Reg.calLaneStat ch) 0
def State.laneTcal (s : State) (ch : Nat) : Int := s.fldS (Reg.calLaneStat ch) 31 16

/-- A LANE step of a channel is due by its triggers (R376). -/
def State.laneTriggered (s : State) (ch : Nat) : Bool :=
  !s.laneValid ch || moved (s.laneSensor ch) (some (s.laneTcal ch)) (s.fld Reg.calTempCfg 15 8) || s.aged ch

/-- A converter step is due by its triggers; i is its place among the ages (R376). -/
def State.auxTriggered (s : State) (tcal : Option Int) (i : Nat) : Bool :=
  decide (tcal = none) || moved (s.sensor 2) tcal (s.fld Reg.calTempCfg 7 0) || s.aged i

/-- Mark what has become due (R376). -/
def State.calTriggers (s : State) : State :=
  let lanes := BitVec.ofNat 32 (bitsToNat ((List.range 32).map s.laneTriggered))
  let q := s.quince
  let store := q.since && decide (s.fld Reg.calAgeCfg 15 0 * 6000000000 ≤ s.time.up - q.storedAt)
  { s with quince := { q with
      laneDue := q.laneDue ||| lanes
      padcDue := q.padcDue || s.auxTriggered q.padcTcal 32
      matchDue := q.matchDue || s.auxTriggered q.matchTcal 33
      storeDue := q.storeDue || store } }

/-- A sensor reading of 1/16 °C: the factory constants are not given, so it is a free value (R375, DESIGN CHOICE, log entry 4). -/
def State.tempRead (s : State) (k : Nat) : State :=
  (s.setReg (Reg.calTemp k) (BitVec.ofNat 32 (2 ^ 16 + field s.free 15 0))).drawn

/-- QUINCE_TEMP_READ (R375): ms milliseconds after the last one, TEMP_CFG.PERIOD or more, a read of the four sensors begins, or waits behind
injected work, the conversion in progress or an unsettled reference; triggers are evaluated against the last valid readings. -/
def execQuinceTempRead (ms : Nat) (s : State) : Host.Outcome State Fault Refusal :=
  if s.shut then .next s
  else
    .next (if ms < s.fld Reg.calTempCfg 31 16 then s
    else (State.hadcKick { s with hadc := { s.hadc with quince := some (s.hadc.quince.getD 0) } }).calTriggers)

/-- Sensor k is converted: the next one follows, and after the last the triggers are evaluated (R375, R376). -/
def State.quinceDone (s : State) (k : Nat) : State :=
  let s := s.tempRead k
  if k < 3 then { s with hadc := { s.hadc with quince := some (k + 1) } }
  else State.calTriggers { s with hadc := { s.hadc with quince := none } }

/-- HADC_CONVERSION_DONE (R367, R375): the conversion in progress ends with a raw 14-bit value and the next is chosen. -/
def execHadcConversionDone (rw : Nat) (s : State) : Host.Outcome State Fault Refusal :=
  .next (match s.hadc.conv with
  | none => s
  | some (.reg i) => (s.regDone i (s.hadcCode rw)).hadcNext
  | some (.inj i) => (s.injDone i (s.hadcCode rw)).hadcNext
  | some (.quince k) => (s.quinceDone k).hadcNext)

/-- CAL_GO_ALL (R376): every step is due. -/
def State.calGoAll (s : State) : State :=
  { s with quince := { s.quince with
      laneDue := BitVec.allOnes 32, iqDue := BitVec.allOnes 32, padcDue := true, matchDue := true, swapDue := true, storeDue := true } }

def execCalGoAll (_q : Req) (s : State) : Host.Outcome State Fault Refusal := .next (if s.shut then s else s.calGoAll)

/-- CAL_GO_PADC (R376). -/
def State.calGoPadc (s : State) : State := { s with quince := { s.quince with padcDue := true } }

def execCalGoPadc (_q : Req) (s : State) : Host.Outcome State Fault Refusal := .next (if s.shut then s else s.calGoPadc)

/-- CAL_GO_MATCH (R376). -/
def State.calGoMatch (s : State) : State := { s with quince := { s.quince with matchDue := true } }

def execCalGoMatch (_q : Req) (s : State) : Host.Outcome State Fault Refusal := .next (if s.shut then s else s.calGoMatch)

/-- CAL_GO_STORE (R376, R391). -/
def State.calGoStore (s : State) : State := { s with quince := { s.quince with storeDue := true } }

def execCalGoStore (_q : Req) (s : State) : Host.Outcome State Fault Refusal := .next (if s.shut then s else s.calGoStore)

/-- A LANE_REQ bit written 1 (R376). -/
def State.laneReq (s : State) (ch : Nat) : State :=
  let s := s.setRbit Reg.calLaneReq ch true
  { s with quince := { s.quince with laneDue := withBit s.quince.laneDue ch true } }

/-- LANE_REQ (R376). -/
def execLaneReq (_q : Req) (ch : Chan) (s : State) : Host.Outcome State Fault Refusal := .next (if s.shut then s else s.laneReq ch)

/-! ## Lane steps (R377 to R383) -/

/-- A LANE step of a channel may run: neither the head's scheduler nor the channel's engine is stopped (R377). -/
def State.laneMay (s : State) (ch : Nat) : Bool := s.schedOn (ch / 8) && s.rbit (Reg.ceCtrl ch) 0

/-- The lowest channel of a head with a lane or IQ step due that does not wait (R377, DEDUCED, log entry 61). -/
def State.laneNext (s : State) (h : Nat) : Option Nat :=
  ((List.range 8).map fun j => 8 * h + j).find? fun ch =>
    (s.calKind 1 && s.quince.laneDue.getLsbD ch && s.laneMay ch) || (s.calKind 2 && s.quince.iqDue.getLsbD ch)

/-- A LANE or IQ step of a channel ends (R376, R392). -/
def State.laneStepEnd (s : State) (ch : Nat) (iq : Bool) (outcome attempts : Nat) : State :=
  let s := s.setLaneStep (ch / 8) none
  let s :=
    if iq then { s with quince := { s.quince with iqDue := withBit s.quince.iqDue ch false } }
    else
      let t := { s with quince := { s.quince with laneDue := withBit s.quince.laneDue ch false } }
      (t.setRbit Reg.calLaneReq ch false).setFld (Reg.calLaneStat ch) 11 8 outcome
  s.stepEnd (if iq then kIq else kLane) outcome ch attempts

/-- The most recent quiet measurement of every lane of a channel is valid and quiet (R379). -/
def State.allQuiet (s : State) (ch : Nat) : Bool :=
  (List.range 6).all fun p => s.rbit (Reg.laneQstat ch p) 16 && !s.rbit (Reg.laneStatus ch) (16 + p)

/-- CAL_START of a lane step, where the slot fits the natural gap (R378). -/
def State.calPlace (s : State) (ch : Nat) : Option Nat :=
  let h := ch / 8
  let g0 := s.fld (Reg.shotNgapStart h) 23 0
  let g1 := g0 + s.fld (Reg.shotNgapLen h) 23 0
  let q0 := s.fld (Reg.laneQuietStart ch) 23 0
  let q1 := q0 + 2 * s.fld (Reg.laneQuietCfg ch) 10 0
  let a := max g0 q1
  let start := a + a % 2
  if start + 56 + 2 * s.fld Reg.calLaneLen 10 0 ≤ g1 ∧ g0 ≤ q0 ∧ q1 ≤ g1 then some start else none

/-- Quince arms slot i of an attempt: SHORT, SHORT, TONE, TONE on all lanes (R378, R380). -/
def State.calArm (s : State) (ch start i : Nat) : State :=
  let src := if i < 2 then 0 else 3
  let s := s.setReg (Reg.laneCalCfg ch) (BitVec.ofNat 32 (0x3F * 2 ^ 24 + src * 2 ^ 16 + s.fld Reg.calLaneLen 10 0))
  (s.setReg (Reg.laneCalStart ch) (BitVec.ofNat 32 start)).calGo ch .cp

/-- A slot of the channel is armed, waits or runs. -/
def State.slotBusy (s : State) (ch : Nat) : Bool :=
  (s.lane ch).armed || (s.lane ch).slotDue || s.rbit (Reg.laneStatus ch) 24

/-- A LANE step waits for the next boundary to begin an attempt. -/
def State.laneWait (s : State) (x : LaneStep) : State :=
  s.setLaneStep (x.ch / 8) (some { x with started := false, slot := 0, checked := 0, meas := [] })

/-- Begin an attempt of a LANE step: its place, the pre-check, the first slot; behind a stopped scheduler or engine it waits, and that counts
as no attempt (R377 to R379, R382). -/
def State.laneAttempt (s : State) (x : LaneStep) : State :=
  let ch := x.ch
  if !s.laneMay ch then s.laneWait x
  else
    let x := { x with attempts := x.attempts + 1, started := true, slot := 0, checked := 0, meas := [] }
    match s.calPlace ch with
    | none => (s.fault Reg.calFault 4).laneStepEnd ch false oNoGap x.attempts
    | some start =>
      if !s.allQuiet ch then (s.fault Reg.calFault 2).laneStepEnd ch false oNotQuiet x.attempts
      else if s.slotBusy ch then
        let s := s.calGo ch .cp
        if x.attempts ≤ s.calRetries then s.laneWait x else s.laneStepEnd ch false oRefused x.attempts
      else (s.calArm ch start 0).setLaneStep (ch / 8) (some x)

/-- An attempt ended without agreement: another one, once a slot of its own is over, or the step ends with the outcome (R381). -/
def State.laneRetry (s : State) (x : LaneStep) (outcome : Nat) : State :=
  if s.calRetries < x.attempts then
    (if outcome = oDisagree then s.fault Reg.calFault 8 else s).laneStepEnd x.ch false outcome x.attempts
  else if x.started && decide (x.slot < 4) && s.slotBusy x.ch then s.laneWait x
  else s.laneAttempt x

/-- Start the next step of a head, if one is due and may start (R377). -/
def State.laneStart (s : State) (ch : Nat) : State :=
  let h := ch / 8
  if (s.laneStep h).isSome || decide (s.laneNext h ≠ some ch) then s
  else if s.calKind 1 && s.quince.laneDue.getLsbD ch && s.laneMay ch then (s.laneAttempt { ch := ch }).calShow
  else (s.setLaneStep h (some { ch := ch, iq := true, attempts := 1 })).calShow

/-- LANE_STEP_START (R377, R378). -/
def execLaneStepStart (ch : Chan) (s : State) : Host.Outcome State Fault Refusal := .next (s.laneStart ch)

/-- What slot i of an attempt, of a length, measures on every lane: the offset of a SHORT slot against the OFFSET of its period, gain and skew of
a TONE slot (R380); a tone of no magnitude gives no quotient, and the gain is a free value (DESIGN CHOICE, log entry 4). -/
def State.slotMeas (s : State) (ch i : Nat) (len : Int) : List (Int × Int) :=
  if i < 2 then
    (List.range 6).map fun p => ((nth (s.lane ch).cur.corr p {}).ofs + divr (s.fldS (Reg.laneCalSum ch p) 31 0) len, 0)
  else
    let c (p : Nat) : Int := s.fldS (Reg.laneCalC ch p) 31 0
    let d (p : Nat) : Int := s.fldS (Reg.laneCalS ch p) 31 0
    let ideal := rne (len / 2 * 16384 * 131071) 17
    let psi := (List.range 6).map fun p => ang (c p) (d p)
    (List.range 6).map fun p =>
      let kind := (List.range 6).filter fun r => coherent r = coherent p
      let ref := kind.foldl (fun m r => max m (nth psi r 0)) (nth psi p 0)
      let gc := if mag (c p) (d p) = 0 then fieldS s.free (8 * p + 16) (8 * p) else divr (16384 * ideal) (mag (c p) (d p))
      (gc, divr ((ref - nth psi p 0) * 64) (if coherent p then 4096 else 8192))

/-- A slot of Quince's attempt has ended, of a length: what it measured is taken, and the next one is placed anew and armed, or does not fit
the gap (R378, R380). -/
def State.slotTaken (s : State) (x : LaneStep) (len : Nat) : State :=
  let y := { x with slot := x.slot + 1, meas := x.meas ++ [s.slotMeas x.ch x.slot len] }
  let s := s.drawn.setLaneStep (x.ch / 8) (some y)
  if y.slot < 4 then
    match s.calPlace x.ch with
    | some start => s.calArm x.ch start y.slot
    | none => ((s.fault Reg.calFault 4).laneStepEnd x.ch false oNoGap x.attempts).calShow
  else s

/-- CAL_SLOT_END with what Quince does at it (R89, R380). -/
def execCalSlotEnd (ch : Chan) (raw : ChCodes) (s : State) : Host.Outcome State Fault Refusal :=
  .next (match (s.lane ch).cur.slot with
  | none => s
  | some c =>
    if s.rbit (Reg.laneStatus ch) 24 then
      let s := s.calSlotEnd ch raw
      match s.laneStep (ch.val / 8) with
      | some x => if x.ch = ch.val ∧ !x.iq ∧ x.started ∧ x.slot < 4 then s.slotTaken x c.len else s
      | none => s
    else s)

/-- Install the six lanes' corrections under HOLD (R383). -/
def State.laneInstall (s : State) (ch : Nat) (v : List (Int × Int × Int)) : State :=
  let s := s.setRbit (Reg.laneCtrl ch) 16 true
  let s := (List.range 6).foldl (fun t p =>
    let (o, g, k) := nth v p (0, 0, 0)
    ((t.setFld (Reg.laneOffset ch p) 15 0 (o % 2 ^ 16).toNat).setFld (Reg.laneGcorr ch p) 15 0 g.toNat).setFld
      (Reg.laneSkew ch p) 6 0 (k % 2 ^ 7).toNat) s
  (s.setRbit (Reg.laneCtrl ch) 16 false).laneStage ch

/-- The four measurements of an attempt are in: agree and install, or try again; TCAL is 0 where the sensor has no valid
reading (R381, R383, DESIGN CHOICE, log entry 98). -/
def State.laneJudge (s : State) (x : LaneStep) : State :=
  let m (i p : Nat) : Int × Int := nth (nth x.meas i []) p (0, 0)
  let near (a b : Int) (tol : Nat) : Bool := decide ((a - b).natAbs ≤ tol)
  let agree := (List.range 6).all fun p =>
    near (m 0 p).1 (m 1 p).1 (s.fld Reg.calTolA 31 16) && near (m 2 p).1 (m 3 p).1 (s.fld Reg.calTolA 15 0)
      && near (m 2 p).2 (m 3 p).2 (s.fld Reg.calTolB 31 24)
  let v := (List.range 6).map fun p =>
    (divr ((m 0 p).1 + (m 1 p).1) 2, divr ((m 2 p).1 + (m 3 p).1) 2, divr ((m 2 p).2 + (m 3 p).2) 2)
  let ok := v.all fun q => decide (-4096 ≤ q.1) && decide (q.1 ≤ 4095) && decide (8192 ≤ q.2.1) && decide (q.2.1 ≤ 32767)
    && decide (-64 ≤ q.2.2) && decide (q.2.2 ≤ 63)
  if !agree then s.laneRetry x oDisagree
  else if !ok then (s.fault Reg.calFault 16).laneStepEnd x.ch false oRange x.attempts
  else
    let s := s.laneInstall x.ch v
    let t := match s.laneSensor x.ch with | some t => t | none => 0
    let s := s.setFld (Reg.calLaneStat x.ch) 31 16 (t % 2 ^ 16).toNat
    let s := s.setRbit (Reg.calLaneStat x.ch) 0 true
    let q := s.quince
    let s := { s with quince := { q with
      takenAt := setNth q.takenAt x.ch s.time.up, iqDue := withBit q.iqDue x.ch true } }
    (s.laneStepEnd x.ch false oDone x.attempts).laneStart x.ch

/-- The period of a slot has closed: its quiet measurement is checked, and after the fourth the attempt is judged (R379 to R383). -/
def State.slotResult (s : State) (ch : Nat) : State :=
  match s.laneStep (ch / 8) with
  | none => s
  | some x =>
    let closed := (s.lane ch).cur.slot.isNone || (s.lane ch).slotDue || s.rbit (Reg.laneStatus ch) 24
    if x.ch ≠ ch ∨ x.iq ∨ !x.started ∨ x.slot ≤ x.checked ∨ !closed then s
    else if !s.allQuiet ch then (s.fault Reg.calFault 2).laneStepEnd ch false oNotQuiet x.attempts
    else if x.checked < 3 then s.setLaneStep (ch / 8) (some { x with checked := x.checked + 1 })
    else (s.laneJudge x).calShow

/-- A write of 1 to a channel's LANE_REQ bit in the cycle of a result that led from s to t: where the step ended, the bit clears for that step
and a new one is due (R391, DESIGN CHOICE, log entry 1). -/
def State.laneReqBeside (s t : State) (ch : Nat) : State :=
  if s.quince.laneDue.getLsbD ch && !t.quince.laneDue.getLsbD ch then
    { t with quince := { t.quince with laneDue := withBit t.quince.laneDue ch true } }
  else t.laneReq ch

/-- LANE_STEP_SLOT_RESULT (R379 to R383, R391). -/
def execLaneStepSlotResult (e : SlotEdge) (s : State) : Host.Outcome State Fault Refusal :=
  .next (if s.shut then s else if e.req then s.laneReqBeside (s.slotResult e.ch) e.ch else s.slotResult e.ch)

/-- Restart the attempt in progress on a head, for a probe commit, PERIOD or gauge-count change; it begins again at the next boundary, and is
counted once (R382). A slot that Quince armed is taken back; one that the host armed stands. -/
def State.laneRestart (s : State) (h : Nat) : State :=
  match s.laneStep h with
  | some x => if x.iq then s else
      let mine := x.started && decide (x.slot < 4)
      (s.setLane x.ch { s.lane x.ch with armed := (s.lane x.ch).armed && !mine }).laneWait
        { x with attempts := x.attempts - b2n x.started }
  | none => s

/-- Write 1 to PROBE_COMMIT: an accepted commit restarts the attempt of a lane step (R62, R382). -/
def State.probeCommitted (s : State) (h : Nat) (q : Req) : State :=
  if s.commitOk h then (s.probeCommit h q).laneRestart h else s.probeCommit h q

/-- PROBE_COMMIT (R62). -/
def execProbeCommit (q : Req) (h : Head) (s : State) : Host.Outcome State Fault Refusal := .next (if s.shut then s else s.probeCommitted h q)

/-- After a shot boundary of a head: a refused slot and a PGA change end the attempt, and a waiting attempt begins (R382). -/
def State.quinceBoundary (s : State) (h : Nat) : State :=
  match s.laneStep h with
  | some x =>
    if x.iq then s
    else if !x.started then (s.laneAttempt x).calShow
    else if s.fld (Reg.laneStatus x.ch) 13 8 ≠ 0 then (s.laneRetry x oDisagree).calShow
    else if x.slot < 4 ∧ (s.lane x.ch).cur.slot.isNone then (s.laneRetry x oRefused).calShow
    else s
  | none => s

/-- The lane domain of heads 2 d and 2 d + 1 is gated: steps there end ABORTED and become due again (R382, R376). -/
def State.quinceGated (s : State) (d : Nat) : State :=
  forEach [2 * d, 2 * d + 1] (fun h t => match t.laneStep h with
    | some x =>
      let t := t.laneStepEnd x.ch x.iq oAborted x.attempts
      { t with quince := { t.quince with laneDue := withBit t.quince.laneDue x.ch true } }
    | none => t) s

/-! ## IQ steps (R384) -/

/-- The matrix elements m21 and m22 of a polarisation, none where the step ends RANGE (R384). -/
def iqMatrix (x : IqSums) : Option (Int × Int) :=
  let f (v : Int) : Fl := flInt v 0
  let n := f x.n
  let cii := flSub (f x.sii) (flDiv (flMul (f x.si) (f x.si)) n)
  let cqq := flSub (f x.sqq) (flDiv (flMul (f x.sq) (f x.sq)) n)
  let ciq := flSub (f x.siq) (flDiv (flMul (f x.si) (f x.sq)) n)
  let rho := flDiv ciq (flSqrt (flMul cii cqq))
  let k := flSqrt (flDiv cii cqq)
  let d := flSqrt (flSub (flNat 1) (flMul rho rho))
  let inside (v lo hi : Fl) : Bool := (flLt lo v || decide (lo = v)) && !flLt hi v
  if x.n < 65536 ∨ !inside rho (flNeg (flDec 25 2)) (flDec 25 2) ∨ flLt k (flDec 8 1) ∨ !inside k (flDec 8 1) (flDec 125 2) then none
  else
    match flToInt (flDiv (flMul (flNeg (flNat 16384)) rho) d) 1, flToInt (flDiv (flMul (flNat 16384) k) d) 1 with
    | some a, some b => some (a, b)
    | _, _ => none

/-- Install both matrices under HOLD (R383, R384). -/
def State.iqInstall (s : State) (ch : Nat) (v : List Int) : State :=
  let e (i : Nat) : Nat := (nth v i 0 % 2 ^ 16).toNat
  let word (m21 m22 : Nat) : W32 := BitVec.ofNat 32 (m22 * 2 ^ 16 + m21)
  let s := s.setRbit (Reg.laneCtrl ch) 16 true
  let s := ((s.setReg (Reg.laneMxA ch) 0x4000).setReg (Reg.laneMxB ch) (word (e 0) (e 1))).setReg (Reg.laneMyA ch) 0x4000
  ((s.setReg (Reg.laneMyB ch) (word (e 2) (e 3))).setRbit (Reg.laneCtrl ch) 16 false).laneStage ch

/-- IQ_ACCUM_DONE (R384): an accumulation of both polarisations over IQ_SHOTS launched shots ends; sx and sy are the sums the tap hands over,
and others than it holds are no such event. -/
def execIqAccumDone (ch : Chan) (sx sy : IqSums) (s : State) : Host.Outcome State Fault Refusal :=
  .next (match s.laneStep (ch.val / 8) with
  | none => s
  | some x =>
    if x.ch ≠ ch.val ∨ !x.iq ∨ x.tapShots < s.fld Reg.calIqCfg 31 16 ∨ x.tapX ≠ sx ∨ x.tapY ≠ sy then s
    else
      let st := { x with tapX := {}, tapY := {}, tapShots := 0 }
      match iqMatrix sx, iqMatrix sy with
      | some (a, b), some (c, d) =>
        let v := [a, b, c, d]
        (match st.iqA with
        | none => s.setLaneStep (ch.val / 8) (some { st with iqA := some v })
        | some u =>
          if (u.zip v).all fun p => decide ((p.1 - p.2).natAbs ≤ s.fld Reg.calTolB 15 0) then
            (s.iqInstall ch ((u.zip v).map fun p => divr (p.1 + p.2) 2)).laneStepEnd ch true oDone st.attempts
          else if st.attempts ≤ s.calRetries then
            s.setLaneStep (ch.val / 8) (some { st with attempts := st.attempts + 1, iqA := none })
          else (s.fault Reg.calFault 8).laneStepEnd ch true oDisagree st.attempts)
      | _, _ => s.laneStepEnd ch true oRange st.attempts)

/-! ## Converter and current-source steps (R385 to R387) -/

/-- All time is idle while RUN is 0; else the idle of a pass (R385). -/
def State.padcIdle (s : State) : Bool := !s.padcRun || s.rbit Reg.pfeStatus 30

/-- The mean of raw codes (R385). -/
def mean (l : List Int) : Int := divr (sumInt l) l.length

/-- Offset and gain correction from the means of ZERO and REF34 (R385). -/
def padcCorr (zero ref : List Int) : Int × Int := (mean zero, divr (6291456 * 2 ^ 22) (mean ref - mean zero))

/-- The coefficients of one measurement; where both routings read the same, the gain has no value stated and is a free one (R385, DESIGN
CHOICE, DESIGN CHOICE, log entry 4). -/
def State.padcCoef (s : State) (bit : Nat) (zero ref : List Int) : Int × Int :=
  if mean ref = mean zero then (mean zero, fieldS s.free (bit + 23) bit) else padcCorr zero ref

/-- A PADC step stands before a MATCH step (R377). -/
def State.padcStands (s : State) : Bool := s.quince.padcDue && s.calKind 3 && decide (s.fld Reg.calPadcCfg 15 8 ≠ 0)

/-- A PADC or MATCH step ends. -/
def State.padcStepEnd (s : State) (outcome attempts : Nat) : State :=
  State.stepEnd { s with quince := { s.quince with padcDue := false, padcLeft := 0, padcAttempts := 0 } } kPadc outcome 0 attempts

/-- A gain code is calibrated; the last one ends the step, which keeps 0 as TCAL where its sensor has no valid reading (R385, DESIGN CHOICE, log
entry 98). -/
def State.padcInstalled (s : State) (g attempts : Nat) : State :=
  let q := s.quince
  let left := q.padcLeft - 2 ^ g
  if left = 0 then
    State.padcStepEnd { s with quince := { q with padcTcal := some ((s.sensor 2).getD 0), takenAt := setNth q.takenAt 32 s.time.up } } oDone attempts
  else State.calShow { s with quince := { q with padcLeft := left, padcAttempts := 0 } }

/-- PADC_CAL_STEP (R385): a gain code measured twice in an idle, from the 16 raw codes of each routing. -/
def execPadcCalStep (g : Fin 8) (zeroA refA zeroB refB : List Int) (s : State) : Host.Outcome State Fault Refusal :=
  let left := if s.quince.padcLeft = 0 then s.fld Reg.calPadcCfg 15 8 else s.quince.padcLeft
  let whole := [zeroA, refA, zeroB, refB].all fun l => decide (l.length = 16)
  .next (if !(s.padcStands && s.padcIdle && left.testBit g && whole) then s
  else
    let n := s.quince.padcAttempts + 1
    let a := s.padcCoef 0 zeroA refA
    let b := s.padcCoef 24 zeroB refB
    let s := { s.drawn with quince := { s.quince with padcLeft := left } }
    let o := divr (a.1 + b.1) 2
    let c := divr (a.2 + b.2) 2
    if (a.1 - b.1).natAbs ≤ 16 ∧ (a.2 - b.2).natAbs ≤ 64 then
      if sat o 24 = o ∧ satu c 24 = c then
        ((s.setReg (Reg.pfeOfs g) (BitVec.ofNat 32 (o % 2 ^ 24).toNat)).setReg (Reg.pfeGc g) (BitVec.ofNat 32 c.toNat)).padcInstalled g n
      else (s.fault Reg.calFault 16).padcStepEnd oRange n
    else if n ≤ s.calRetries then State.calShow { s with quince := { s.quince with padcAttempts := n } }
    else (s.fault Reg.calFault 8).padcStepEnd oDisagree n)

/-- The routing of a slot is open (R387). -/
def State.routingOpen (s : State) (k : Nat) : Bool :=
  s.rbit Reg.pfeStatus k || s.rbit Reg.pfeBoResult k || (nth s.padc.last k (0, 0, false)).2.2

/-- The swap check of one slot (R387). -/
def State.swapSlot (s : State) (k : Nat) : State :=
  if s.slotOn k && decide (s.slotSwap k = 1) then
    if s.routingOpen k then (s.fault Reg.calFault 64).stepEnd kSwap oOpen k 1
    else
      let (m0, m1, _) := nth s.padc.last k (0, 0, false)
      let off := decide (s.fld Reg.calPadcCfg 31 16 * (m0 + m1).natAbs < 2 * (m0 - m1).natAbs * 10000)
      (if off then s.fault Reg.calFault 32 else s).stepEnd kSwap oDone k 1
  else s

/-- SWAP_CHECK (R387). -/
def State.swapCheck (s : State) : State :=
  forEach (List.range 16) (fun k t => t.swapSlot k) { s with quince := { s.quince with swapDue := false } }

/-- Quince requests a burn-out test of every enabled RTD or NTC slot (R387). -/
def State.boRequest (s : State) : State :=
  (forEach (List.range 16) (fun k t =>
    if t.slotOn k && (decide (t.slotKind k = 1) || decide (t.slotKind k = 2)) then t.setRbit Reg.pfeBoReq k true else t) s).boAsked

/-- BO_REQ_INTERVAL (R387): tests are requested; a SWAP check that GO.ALL made due runs, while CTRL.EN is 1 (R376, R392). -/
def execBoReqInterval (s : State) : Host.Outcome State Fault Refusal :=
  if s.shut then .next s else .next (if s.quince.swapDue && s.rbit Reg.calCtrl 0 then s.boRequest.swapCheck else s.boRequest)

/-- The trim of a source as R351 reads it, and the new trims from the sources' means (R386); a mean of 0 gives no quotient, and the trims are
free values (DESIGN CHOICE, log entry 4). -/
def State.ixTrim (s : State) (i : Nat) : Int := s.fldS (Reg.pfeIxTrim i) 7 0
def State.matchTrims (s : State) (v : List Int) : List Int :=
  let bar := divr (nth v 0 0 + nth v 1 0 + nth v 2 0 + nth v 3 0) 4
  (List.range 4).map fun i => s.ixTrim i + if bar = 0 then fieldS s.free (8 * i + 7) (8 * i) else divr (10000 * (bar - nth v i 0)) bar

/-- A MATCH step ends. -/
def State.matchStepEnd (s : State) (outcome attempts : Nat) : State :=
  State.stepEnd { s with quince := { s.quince with matchDue := false, matchAttempts := 0 } } kMatch outcome 0 attempts

/-- MATCH_STEP (R386, R387): each source measured twice in an idle; a step that is done is followed by a swap check. -/
def execMatchStep (va vb : List Int) (s : State) : Host.Outcome State Fault Refusal :=
  .next (if !(s.quince.matchDue && s.calKind 4 && !s.padcStands && s.padcIdle && decide (va.length = 4 ∧ vb.length = 4)) then s
  else
    let n := s.quince.matchAttempts + 1
    let p := (s.matchTrims va).zip (s.matchTrims vb)
    let s := if n = 1 then s.drawn.boRequest else s.drawn
    let t := p.map fun x => divr (x.1 + x.2) 2
    if p.all fun x => decide ((x.1 - x.2).natAbs ≤ 2) then
      if t.all fun x => decide (-128 ≤ x) && decide (x ≤ 127) then
        let s := (List.range 4).foldl (fun u i => u.setReg (Reg.pfeIxTrim i) (BitVec.ofNat 32 (nth t i 0 % 2 ^ 8).toNat)) s
        let q := s.quince
        let s := { s with quince := { q with matchTcal := some ((s.sensor 2).getD 0), takenAt := setNth q.takenAt 33 s.time.up, swapDue := true } }
        (s.matchStepEnd oDone n).swapCheck
      else (s.fault Reg.calFault 16).matchStepEnd oRange n
    else if n ≤ s.calRetries then { s with quince := { s.quince with matchAttempts := n } }
    else (s.fault Reg.calFault 8).matchStepEnd oDisagree n)

/-! ## The store (R388 to R390) -/

/-- The registers of a channel that the store holds. -/
def laneCalRegs (ch : Nat) : List Nat :=
  [Reg.laneMxA ch, Reg.laneMxB ch, Reg.laneMyA ch, Reg.laneMyB ch] ++
    (List.range 6).flatMap fun p => [Reg.laneOffset ch p, Reg.laneSkew ch p, Reg.laneGcorr ch p]

/-- A TCAL with its valid flag, as a number, and back. -/
def tcalNum (t : Option Int) : Nat := match t with | some x => 2 ^ 16 + (x % 2 ^ 16).toNat | none => 0
def tcalOf (n : Nat) : Option Int := if n = 0 then none else some (wrap n 16)

/-- The corrections in force on a channel, as its registers would hold them: those of its last boundary (R84, R388). -/
def State.laneInForce (s : State) (ch : Nat) : List (Nat × Nat) :=
  let x := (s.lane ch).cur
  let low (v : Int) (n : Nat) : Nat := (v % 2 ^ n).toNat
  let pair (a b : Int) : Nat := low b 16 * 2 ^ 16 + low a 16
  [(Reg.laneMxA ch, pair x.mx.m11 x.mx.m12), (Reg.laneMxB ch, pair x.mx.m21 x.mx.m22),
   (Reg.laneMyA ch, pair x.my.m11 x.my.m12), (Reg.laneMyB ch, pair x.my.m21 x.my.m22)] ++
    (List.range 6).flatMap fun p =>
      let k := nth x.corr p {}
      [(Reg.laneOffset ch p, low k.ofs 16), (Reg.laneSkew ch p, low k.skew 7), (Reg.laneGcorr ch p, low k.gcorr 16)]

/-- The coefficients in force, each TCAL and its flag (R388). -/
def State.calBody (s : State) : List (Nat × Nat) :=
  let held (a : Nat) : Nat × Nat := (a, (s.reg a).toNat)
  [(0, tcalNum s.quince.padcTcal), (1, tcalNum s.quince.matchTcal)] ++ (List.range 32).flatMap s.laneInForce ++
    (List.range 8).map (fun g => held (Reg.pfeOfs g)) ++ (List.range 8).map (fun g => held (Reg.pfeGc g)) ++
    (List.range 4).map (fun i => held (Reg.pfeIxTrim i)) ++
    (List.range 32).map fun ch => (Reg.calLaneStat ch, s.fld (Reg.calLaneStat ch) 31 16 * 2 ^ 16 + s.fld (Reg.calLaneStat ch) 0 0)

/-- The slot of the eNVM that a number names: 0 A, 1 B. -/
def calSlotAt (p : CalSlotNv × CalSlotNv) (i : Nat) : CalSlotNv := if i = 0 then p.1 else p.2
def setCalSlot (p : CalSlotNv × CalSlotNv) (i : Nat) (x : CalSlotNv) : CalSlotNv × CalSlotNv := if i = 0 then (x, p.2) else (p.1, x)

/-- The slot in force, none with CAL_NONE, and the slot a STORE writes (R388, R389). -/
def State.calSlotIn (s : State) : Option Nat := if s.rbit Reg.calStatus 12 then none else some (s.fld Reg.calStatus 11 11)
def State.calSlotOut (s : State) : Nat := match s.calSlotIn with | some 0 => 1 | _ => 0

/-- No lane or IQ step is between its measurements, the first of which a slot or a shot has given, and its installation (R377, DEDUCED, log
entry 61). -/
def State.calClear (s : State) : Bool :=
  s.quince.lanes.all fun x => match x with | some y => y.meas.isEmpty && y.iqA.isNone && decide (y.tapShots = 0) | none => true

/-- A STORE fails: refused by the eNVM's enables and protection, or failed by its program verification (R390, R442). -/
def State.storeFail (s : State) (bit : Nat) : State :=
  let s := s.fault Reg.nvmFault (2 ^ bit)
  let s := { s with quince := { s.quince with storing := false, storeDue := false, since := true, storedAt := s.time.up } }
  (s.fault Reg.calFault (2 ^ 9)).stepEnd kStore oFailStore 0 1

/-- CAL_STORE (R388, R390): a due STORE starts; ok says that the eNVM takes it. -/
def execCalStore (ok : Bool) (s : State) : Host.Outcome State Fault Refusal :=
  .next (if !(s.calKind 5 && s.quince.storeDue && !s.quince.storing && !s.nvm.ops.contains .calibration && s.calClear) then s
  else if !s.rbit Reg.nvmWriteCtrl 2 || s.rbit Reg.nvmProt 3 then s.storeFail 0
  else
    let i := s.calSlotOut
    let put (s : State) (x : CalSlotNv) : State :=
      { s with nvm := { s.nvm.eraseRegion (nvmCal i) with cal := setCalSlot s.nvm.cal i x } }
    if !ok then ((put s { written := true }).event 236).storeFail 1
    else
      let x : CalSlotNv := { written := true, seq := s.reg Reg.calStoreSeq + 1, body := s.calBody }
      let s := put s { x with crc := crc32 x.bytes }
      State.calShow { s with
        nvm := { s.nvm with ops := s.nvm.ops ++ [NvmOp.calibration] }
        quince := { s.quince with storing := true, storeDue := false, before := s.quince.since, since := false } })

/-- The operation of a STORE ends: its commit record is written and its slot is in force, or program verification fails and the slot stays
invalid; a STORE that was abandoned meanwhile commits nothing (R388, R390, R442). -/
def State.storeDone (s : State) (ok : Bool) : State :=
  if !s.quince.storing then (if ok then s else s.fault Reg.nvmFault 2)
  else if !ok then s.storeFail 1
  else
    let i := s.calSlotOut
    let x := calSlotAt s.nvm.cal i
    let s := { s with
      nvm := { s.nvm with cal := setCalSlot s.nvm.cal i x.seal }
      quince := { s.quince with storing := false, storedAt := s.time.up } }
    let s := (s.setRbit Reg.calStatus 12 false).setFld Reg.calStatus 11 11 i
    (s.setReg Reg.calStoreSeq x.seq).stepEnd kStore oDone 0 1

/-- Registers loaded from a slot's body, of those a condition picks. -/
def State.loadBody (s : State) (body : List (Nat × Nat)) (pick : Nat → Bool) : State :=
  body.foldl (fun t p => if pick p.1 then t.setReg p.1 (BitVec.ofNat 32 p.2) else t) s

/-- Choose and load the calibration at boot (R389, R376). -/
def State.calBoot (s : State) : State :=
  let (i, flags) := slotChoose (s.nvm.calLook 0) (s.nvm.calLook 1)
  match i with
  | some k =>
    let x := calSlotAt s.nvm.cal k
    let s := (s.loadBody x.body fun a => decide (2 ≤ a)).setReg Reg.calStoreSeq x.seq
    let s := { s with quince := { s.quince with
      padcTcal := tcalOf ((x.body.lookup 0).getD 0), matchTcal := tcalOf ((x.body.lookup 1).getD 0) } }
    let s := forEach (List.range 32) (fun ch t => t.laneRestored ch) s
    ((s.setRbit Reg.calStatus 12 false).setFld Reg.calStatus 11 11 k).fault Reg.calFault flags
  | none => ((s.setRbit Reg.calStatus 12 true).fault Reg.calFault flags).calTriggers

/-- A lane domain is powered again: the corrections of its channels, TCAL and VALID come from the slot in force, which is read, and their LANE
steps are due (R85, R376, R390, R392). -/
def State.quincePowered (s : State) (d : Nat) : State :=
  let s := match s.calSlotIn with | some k => s.nvmRead (nvmCal k) | none => s
  forEach ((List.range 16).map fun j => 16 * d + j) (fun ch t =>
    let body := match t.calSlotIn with | some k => (calSlotAt t.nvm.cal k).body | none => []
    let t := (laneCalRegs ch).foldl (fun u a => u.setReg a (match body.lookup a with | some v => BitVec.ofNat 32 v | none => resetOf a)) t
    let stat := (body.lookup (Reg.calLaneStat ch)).getD 0
    let t := ((t.setFld (Reg.calLaneStat ch) 31 16 (stat / 2 ^ 16)).setFld (Reg.calLaneStat ch) 0 0 stat).laneRestored ch
    { t with quince := { t.quince with laneDue := withBit t.quince.laneDue ch true } }) s

/-! ## Writes of the CAL registers -/

/-- Whether a write that leaves v in a CAL register is refused, beyond the ranges of its fields (R392). -/
def calCheck (_s : State) (off : Nat) (v : W32) : Option Cause :=
  if off = 0x20 ∧ field v 10 0 % 16 ≠ 0 then some .range else none

/-- Steps whose kind is no longer enabled end ABORTED (R377, R392). -/
def State.calAbort (s : State) : State :=
  let s := forEach (List.range 4) (fun h t => match t.laneStep h with
    | some x => if t.calKind (if x.iq then 2 else 1) then t else t.laneStepEnd x.ch x.iq oAborted x.attempts
    | none => t) s
  let s := if s.quince.padcLeft ≠ 0 ∧ !s.calKind 3 then s.padcStepEnd oAborted s.quince.padcAttempts else s
  let s := if s.quince.matchAttempts ≠ 0 ∧ !s.calKind 4 then s.matchStepEnd oAborted s.quince.matchAttempts else s
  if s.quince.storing ∧ !s.calKind 5 then
    State.stepEnd { s with quince := { s.quince with storing := false, since := s.quince.since || s.quince.before } } kStore oAborted 0 1
  else s

/-- What a write of a CAL register does besides: v is the value the register holds, w what was written (R376, R377). -/
def calEffect (s : State) (off : Nat) (w : W32) : State :=
  match off with
  | 0x0 => s.calAbort
  | 0x8 =>
    let s := if bitOf w 0 then s.calGoAll else s
    let s := if bitOf w 1 then s.calGoPadc else s
    let s := if bitOf w 2 then s.calGoMatch else s
    if bitOf w 3 then s.calGoStore else s
  | 0xC => { s with quince := { s.quince with laneDue := s.quince.laneDue ||| w } }
  | _ => s

end Sys2Proof.Machine
end

