-- ==== Sys2Proof/Machine/Nvm.lean ====
section
/-!
DEFINITION. The eNVM (R398, R399, R433, R434, R439 to R442, R449): STORE and the configuration slots, firmware images, and who may
write what.
-/
namespace Sys2Proof.Machine

/-- The block bases of SYS, LIFE and NVM. -/
def lifeBase : Nat := 0x10000
def nvmBase : Nat := 0x20000

/-- The abort codes of R396. -/
abbrev abCommand : W32 := 0x05040001
abbrev abRole : W32 := 0x06010000
abbrev abWriteOnly : W32 := 0x06010001
abbrev abReadOnly : W32 := 0x06010002
abbrev abNoIndex : W32 := 0x06020000
abbrev abNoMap : W32 := 0x06040041
abbrev abMapLen : W32 := 0x06040042
abbrev abType : W32 := 0x06070010
abbrev abNoSub : W32 := 0x06090011
abbrev abRange : W32 := 0x06090030
abbrev abStore : W32 := 0x08000020
abbrev abLocked : W32 := 0x08000021
abbrev abState : W32 := 0x08000022
abbrev abOther : W32 := 0x08000000

/-- The role a path acts with: 0 OBSERVER, 1 OPERATOR, 2 INTEGRATOR, 3 VENDOR; none for a session that is not open, and on a device that is
scrapped or held in reset (R400, R406, R415, R420, R429, R443). -/
def State.pathRole (s : State) : Path → Option Nat
  | .session i => if (s.session i.val).active && !s.shut then some (s.session i.val).role else none
  | .can c => if s.shut then none else some (s.fld (Reg.canCfg c.val) 18 16)
  | .local => if s.shut then none else some 2
  | .zone => if s.shut then none else some 1
  | .control => if s.shut then none else some 3

/-- An eNVM write is permitted by its enable and its protect bit; a refusal sets NVM.FAULT.REFUSED (R442). -/
def State.nvmMay (s : State) (en prot : Nat) : Bool := s.rbit Reg.nvmWriteCtrl en && !s.rbit Reg.nvmProt prot

/-- The answer to a request by a path: how 0 answers a command by itself, else a frame of type (how - 1) / 65536 and REQ_ID
(how - 1) mod 65536 (R407, DESIGN CHOICE, log entry 17). -/
def State.answerCode (s : State) (p : Path) (how : Nat) (abort : W32) : State :=
  match how, p with
  | 0, _ => s.emit (.object abort [])
  | n + 1, .session i =>
    if (s.session i.val).active then
      s.sessionReply i.val (n / 65536) (replyFlags abort false) (n % 65536) (leBytes abort.toNat 4)
    else s
  | _ + 1, .local => s.localReply (replyFlags abort false) (leBytes abort.toNat 4)
  | _ + 1, _ => s

/-! ## The configuration store (R398, R439) -/

/-- The default COB-ID of an RPDO or TPDO, which follows the node identifier (R414). -/
def State.cobDefault (s : State) (idx : Nat) : Nat :=
  if idx < 0x1800 then
    0x80000000 + 0x200 + 0x100 * (idx % 4) + s.fld (Reg.canNode ((idx - 0x1400) / 4)) 6 0
  else
    let t := idx % 8
    0x80000000 + (if t < 4 then 0x180 + 0x100 * t + s.fld (Reg.canNode ((idx - 0x1800) / 8)) 6 0 else 0)

/-- An index holds the communication entry of a PDO. -/
def isCob (idx sub : Nat) : Bool :=
  decide (sub = 1) && ((decide (0x1400 ≤ idx) && decide (idx < 0x1408)) || (decide (0x1800 ≤ idx) && decide (idx < 0x1810)))

/-- Every entry of a slot with the bytes of its value, by index and sub-index. -/
def CfgSlotNv.entries (x : CfgSlotNv) : List (Nat × List Byte) :=
  let size (k : Nat) : Nat := match odRow (k / 256) (k % 256) with | some r => odBytesOf r.type | none => 0
  let value (k v : Nat) : Nat := if isCob (k / 256) (k % 256) then v - 1 else v
  (Store.setMany [] ((x.nums.map fun p => (p.1, leBytes (value p.1 p.2) (size p.1))) ++ x.strs) .empty).cells

/-- The type code of an entry (R393). -/
def odTypeOf (k : Nat) : Nat := match odRow (k / 256) (k % 256) with | some r => odCode r.type | none => 0

/-- The header and body of a slot as bytes: SEQ; each entry as index, sub-index, type code, length and value; each MEM entry as its address and
value; low byte first (R439, DESIGN CHOICE, log entry 105). -/
def CfgSlotNv.bytes (x : CfgSlotNv) : List Byte :=
  leBytes x.seq.toNat 4 ++
    (x.entries.flatMap fun p => leBytes (p.1 / 256) 2 ++ leBytes (p.1 % 256) 1 ++ leBytes (odTypeOf p.1) 1 ++ leBytes p.2.length 2 ++ p.2) ++
    x.mem.flatMap fun p => leBytes p.1 4 ++ leBytes p.2.toNat 4

/-- The CRC and the commit record are written behind header and body (R388, R439). -/
def CfgSlotNv.seal (x : CfgSlotNv) : CfgSlotNv := { x with crc := crc32 x.bytes, commit := some x.seq }

/-- A slot is valid when its CRC matches and its commit record carries its SEQ (R389, R439). -/
def CfgSlotNv.valid (x : CfgSlotNv) : Bool := x.written && decide (x.commit = some x.seq) && decide (x.crc = crc32 x.bytes)

/-- Configuration slot i as the boot looks at it: a word beyond correction makes it invalid (R439, R442). -/
def NvmSt.cfgLook (n : NvmSt) (i : Nat) : SlotLook :=
  let x := if i = 0 then n.cfg.1 else n.cfg.2
  { written := x.written, valid := x.valid && n.sound (nvmConfig i), seq := x.seq }

/-- The slot in force: A is 0, B is 1 (R389, R439). -/
def State.cfgIn (s : State) : Option Nat := (slotChoose (s.nvm.cfgLook 0) (s.nvm.cfgLook 1)).1

/-- The slot a STORE writes. -/
def State.cfgOut (s : State) : Nat := match s.cfgIn with | some 0 => 1 | _ => 0

def cfgSlotAt (p : CfgSlotNv × CfgSlotNv) (i : Nat) : CfgSlotNv := if i = 0 then p.1 else p.2
def setCfgSlot (p : CfgSlotNv × CfgSlotNv) (i : Nat) (x : CfgSlotNv) : CfgSlotNv × CfgSlotNv := if i = 0 then (x, p.2) else (p.1, x)

/-- An entry is stored (R395). -/
def odStored (key : Nat) : Bool := match odRow (key / 256) (key % 256) with | some r => decide (r.acc = .rws) | none => false

/-- The communication entries whose COB-ID follows NODE until it is written (R415, R416). -/
def cobKeys : List Nat := (List.range 8).map (fun i => odKey (0x1400 + i) 1) ++ (List.range 16).map fun i => odKey (0x1800 + i) 1

/-- The registers of the controllers that a STORE keeps as MEM entries, CTRL apart (DESIGN CHOICE, log entry 53). -/
def memRegs : List Nat :=
  [0, 1].flatMap fun m => [Reg.mcGeom m, Reg.mcSched m, Reg.mcPage m, Reg.mcNrf m, Reg.mcSrCfg m, Reg.mcFreqCtrl m, Reg.mcTrainCtrl m] ++
    [0, 1].flatMap fun n => (List.range 7).map fun r => Reg.mcTsetRate m n + 4 * r

/-- Every RWS entry at one instant: numbers, every COB-ID and the zone words among them, and strings; an entry left out holds its default
(R398). -/
def State.snapshot (s : State) : CfgSlotNv where
  written := true
  seq := match s.cfgIn with | some i => (cfgSlotAt s.nvm.cfg i).seq + 1 | none => 1
  nums := (s.od.cells.filter fun c => odStored c.1) ++
    ((cobKeys.filter fun k => decide (s.odv (k / 256) 1 = 0)).map fun k => (k, s.cobDefault (k / 256) + 1)) ++
    s.zones.cells.map fun c => (odKey (0x3000 + c.1 / 8) (c.1 % 8 + 1), c.2.toNat)
  strs := s.odBytes.cells.filter fun c => odStored c.1
  mem := (memRegs ++ [Reg.mcCtrl 0, Reg.mcCtrl 1]).map fun a => (a, s.reg a)

/-- The STORE at the head of those that wait, its program verification good, begins: the snapshot is taken and the slot not in force
is written (R398, R439). -/
def State.storeBegin (s : State) : State :=
  let i := s.cfgOut
  let snap := s.snapshot
  let s := { s with nvm := { s.nvm with cfg := setCfgSlot s.nvm.cfg i { written := true } } }
  let s := s.nvmStart .config (nvmConfig i)
  { s with nvm := { s.nvm with snap := snap } }

/-- A STORE whose program verification fails leaves its slot invalid (R442). -/
def State.storeFails (s : State) (p : Path) (how : Nat) (rest : List (Path × Nat × Bool)) : State :=
  let i := s.cfgOut
  let s := { s with nvm := { s.nvm.eraseRegion (nvmConfig i) with cfg := setCfgSlot s.nvm.cfg i { written := true }, waiters := rest } }
  ((s.fault Reg.nvmFault 2).event 236).answerCode p how abStore

/-- The STOREs that wait are taken in turn until one runs (R398). -/
def State.storeRun : List (Path × Nat × Bool) → State → State
  | [], s => s
  | (p, how, ok) :: rest, s => if ok then s.storeBegin else State.storeRun rest (s.storeFails p how rest)

/-- A STORE of a path that may store: refused by the eNVM's enable or protection, or it begins, or waits for the one that runs
(R398, R442). -/
def State.storeAsk (s : State) (p : Path) (how : Nat) (ok : Bool) : State :=
  if !s.nvmMay 1 2 then (s.fault Reg.nvmFault 1).answerCode p how abStore
  else
    let idle := decide (s.nvm.waiters = [])
    let s := { s with nvm := { s.nvm with waiters := s.nvm.waiters ++ [(p, how, ok)] } }
    if idle then State.storeRun s.nvm.waiters s else s

/-- The STORE that runs is committed, its reply follows, and the next one begins (R398, R439). -/
def State.storeCommit (s : State) : State :=
  match s.nvm.waiters with
  | [] => s
  | (p, how, _) :: rest =>
    let i := s.cfgOut
    let s := { s with nvm := { s.nvm with
      cfg := setCfgSlot s.nvm.cfg i s.nvm.snap.seal, snap := {}, waiters := rest } }
    State.storeRun rest (s.answerCode p how 0)

/-- The STORE that runs fails its program verification: its slot stays invalid, and the next one begins (R442). -/
def State.storeBroken (s : State) : State :=
  match s.nvm.waiters with
  | [] => s.fault Reg.nvmFault 2
  | (p, how, _) :: rest =>
    let s := { s with nvm := { s.nvm with snap := {}, waiters := rest } }
    State.storeRun rest ((s.fault Reg.nvmFault 2).answerCode p how abStore)

/-- Why a path may not store or restore, if it may not (R400). -/
def State.storeRefuse (s : State) (p : Path) : Option W32 :=
  match s.pathRole p with
  | none => some abRole
  | some r => if r < 2 then some abRole else if s.minimal then some abState else none

/-- STORE (R398): refused by role or in minimal mode, or asked for; ok is what the program verification finds. A path that is no
open session gets no answer. -/
def execStore (p : Path) (ok : Bool) (s : State) : Host.Outcome State Fault Refusal :=
  if s.pathRole p = none then .next s
  else match s.storeRefuse p with
    | some a => .next (s.answerCode p 0 a)
    | none => .next (s.storeAsk p 0 ok)

/-- The abort code of a write of 0x1011, and the state it leaves (R399). -/
def State.restoreAsk (s : State) (sig : W32) : W32 ⊕ State :=
  if sig = 0x64616F6C then .inr { s with nvm := { s.nvm with restore := true } } else .inl abStore

/-- RESTORE_DEFAULTS (R399): the stored set is marked for replacement by defaults at the next boot. -/
def execRestoreDefaults (p : Path) (sig : W32) (s : State) : Host.Outcome State Fault Refusal :=
  if s.pathRole p = none then .next s
  else match s.storeRefuse p with
    | some a => .next (s.answerCode p 0 a)
    | none => match s.restoreAsk sig with
      | .inl a => .next (s.answerCode p 0 a)
      | .inr t => .next (t.answerCode p 0 0)

/-! ## Firmware images (R433, R434) -/

def imageAt (p : ImageNv × ImageNv) (b : Bool) : ImageNv := if b then p.2 else p.1
def setImage (p : ImageNv × ImageNv) (b : Bool) (x : ImageNv) : ImageNv × ImageNv := if b then (p.1, x) else (x, p.2)

/-- The bytes of an image region (R440). -/
def imageSize : Nat := 1536 * 1024

/-- Bytes laid over a region from an offset on; erased bytes are FFH. -/
def overlay (old : List Byte) (ofs : Nat) (data : List Byte) : List Byte :=
  (old.take ofs ++ List.replicate (ofs - old.length) 0xFF) ++ data ++ old.drop (ofs + data.length)

/-- Clear FAILS (R438). -/
def State.clearFails (s : State) : State := s.setFld Reg.sysBootWhy 25 24 0

/-- A segment of an image: the abort code and the state. The first erases the region, the last is verified; an image that does not
verify has the sector of its header erased. VERSION lies in the header, whose layout is not given: it is a free value (DESIGN CHOICE, log entry
4). -/
def State.imageWrite (s : State) (b : Bool) (ofs : Nat) (more : Bool) (data : List Byte) (sigOk : Bool) : W32 × State :=
  if !s.nvmMay 0 (b2n b) then (abStore, s.fault Reg.nvmFault 1)
  else if imageSize < ofs + data.length then (abStore, s)
  else
    let s := if ofs = 0 then s.nvmStart (.image b) (nvmImage (b2n b)) else { s with nvm := { s.nvm with ops := s.nvm.ops ++ [.image b] } }
    let old := if ofs = 0 then { written := true } else { imageAt s.nvm.img b with written := true, valid := false, ok := false }
    let x : ImageNv := { old with bytes := overlay old.bytes ofs data }
    let put (s : State) (y : ImageNv) : State := { s with nvm := { s.nvm with img := setImage s.nvm.img b y } }
    if more then (0, put s x)
    else if sigOk then (0, (put s { x with ok := true, version := BitVec.ofNat 32 s.free.toNat }).drawn.clearFails)
    else
      let t := put s { x with bytes := overlay x.bytes 0 (List.replicate 4096 0xFF) }
      (abStore, { t with nvm := t.nvm.eraseSectors (nvmImage (b2n b)) 1 })

/-- An operation of an image's write ends: once none is left, the image is valid if it verified and every program verification was good (R434,
R442). -/
def State.imageDone (s : State) (b ok : Bool) : State :=
  let x := imageAt s.nvm.img b
  let x := { x with bad := x.bad || !ok }
  let x := if s.nvm.ops.contains (.image b) then x else { x with valid := x.ok && !x.bad, ok := false }
  let s := { s with nvm := { s.nvm with img := setImage s.nvm.img b x } }
  if ok then s else s.fault Reg.nvmFault 2

/-- IMAGE_WRITE (R434): a segment written to 0x1F50 by a path of role VENDOR; sigOk is what the signature checker finds. -/
def execImageWrite (p : Path) (b : Bool) (ofs : Nat) (more : Bool) (data : List Byte) (sigOk : Bool) (s : State) :
    Host.Outcome State Fault Refusal :=
  match s.pathRole p with
  | none => .next s
  | some r =>
    if r < 3 then .next (s.answerCode p 0 abRole)
    else
      let x := s.imageWrite b ofs more data sigOk
      .next (x.2.answerCode p 0 x.1)

/-- An image is valid: its signature verifies, its VERSION is not below ROLLBACK_MIN, and none of its words is beyond correction (R433, R442). -/
def State.imageValid (s : State) (b : Bool) (sig : Bool) : Bool :=
  let x := imageAt s.nvm.img b
  sig && x.written && x.valid && s.nvm.sound (nvmImage (b2n b)) && decide ((s.reg Reg.lifeRollbackMin).toNat ≤ x.version.toNat)

/-! ## STATUS and WEAR (R449) -/

/-- The bank an operation writes (R440). -/
def State.opBank (s : State) : NvmOp → Nat
  | .config => nvmBank (nvmConfig s.cfgOut)
  | .calibration => nvmBank (nvmCal s.calSlotOut)
  | .image b => nvmBank (nvmImage (b2n b))
  | .lifeRecord => nvmBank nvmLife
  | .secrets => nvmBank nvmSecrets

/-- The live registers of the NVM block. -/
def State.nvmLive (s : State) (off : Nat) : Option W32 :=
  match off with
  | 8 =>
    let busy (k : Nat) : Nat := b2n (s.nvm.ops.any fun o => s.opBank o = k)
    some (BitVec.ofNat 32 (busy 1 * 4 + busy 0 * 2 + b2n (decide (s.nvm.ops ≠ []))))
  | 0xC => some (BitVec.ofNat 32 s.nvm.wear)
  | _ => none

end Sys2Proof.Machine
end

