-- ==== Sys2Proof/Machine/Shots.lean ====
section
/-!
DEFINITION. The shot schedulers (R93 to R100): the shot boundary of a head with all that takes effect at it, sub-probe launches,
the end of the last period, followers, trips, and the checks of the SHOT registers.
-/
namespace Sys2Proof.Machine

/-- The block base of SHOT. -/
def shotBase : Nat := 0x50000

/-! ## What takes effect at a boundary -/

/-- A pending set differs from the one in force in more than its gates (R64). -/
def setDiffers (a b : ProbeSet) : Bool :=
  let n := trainLen b.train
  decide (a.bank ≠ b.bank) || decide (a.len ≠ b.len) || decide (a.train ≠ b.train) || decide (a.scale ≠ b.scale)
    || decide (a.bw ≠ b.bw) || decide (a.slots.take n ≠ b.slots.take n)

/-- Channel j's gate edges differ. -/
def gatesDiffer (a b : ProbeSet) (j : Nat) : Bool :=
  decide (nth a.opens j 0 ≠ nth b.opens j 0) || decide (nth a.closes j 0 ≠ nth b.closes j 0)

/-- What a boundary changes on a head: the set that follows, whether a set took effect and differs beyond its gates, RUN starting,
PEAK changed, and the gates enabled before and after. -/
structure HeadChange where
  old : ProbeSet
  new : ProbeSet
  taken : Bool
  starts : Bool
  peak : Bool
  gatesOld : BitVec 8
  gatesNew : BitVec 8

/-- Channel j is affected by the change (R64). -/
def HeadChange.affects (c : HeadChange) (j : Nat) : Bool :=
  let on := c.gatesNew.getLsbD j
  (on && (setDiffers c.old c.new || c.starts || c.peak || !c.gatesOld.getLsbD j))
    || (!setDiffers c.old c.new && gatesDiffer c.old c.new j)

/-- A probe field that restarts the totals of channel j changed (R142). -/
def HeadChange.restarts (c : HeadChange) (j : Nat) : Bool := setDiffers c.old c.new || c.peak || gatesDiffer c.old c.new j

/-- What the head's next boundary changes. -/
def State.headChange (s : State) (h : Nat) : HeadChange :=
  let x := s.head h
  { old := x.act, new := x.pend.getD x.act, taken := x.pend.isSome
    starts := s.rbit (Reg.headCtrl h) 0 && !s.rbit (Reg.headStatus h) 0
    peak := decide (x.peak ≠ s.fld (Reg.headProbeLimit h) 13 0)
    gatesOld := x.gateEn, gatesNew := s.gateEn h }

/-- The head's fields take effect: the pending set, PEAK, GATE_EN and RUN, and affected channels settle anew (R24, R62 to R65). -/
def State.headTakes (s : State) (h : Nat) (c : HeadChange) : State :=
  let x := s.head h
  let s := s.setHead h { x with
    act := c.new, pend := none, peak := s.fld (Reg.headProbeLimit h) 13 0, gateEn := c.gatesNew
    settle := (List.range 8).map fun j => if c.affects j then 2 else nth x.settle j 0
    settled := BitVec.ofNat 8 (bitsToNat ((List.range 8).map fun j => x.settled.getLsbD j && !c.affects j))
    gates := x.gates &&& c.gatesNew, next := 0
    missLimit := s.fld (Reg.headMissLimit h) 7 0, acc := if c.starts then 0 else x.acc }
  let s := (s.setRbit (Reg.headStatus h) 0 (s.rbit (Reg.headCtrl h) 0)).setRbit (Reg.headStatus h) 6 false
  (s.setFld (Reg.headStatus h) 8 8 c.new.bank).setFld (Reg.headStatus h) 11 10 c.new.train

/-- A period of a head ends: where its shot was launched and not skipped since, it counts towards the settle counts (R65, R467). -/
def State.settleCount (s : State) (h : Nat) : State :=
  let x := s.head h
  let y := s.sched h
  let lowers (j : Nat) : Bool := y.launched && !y.tripped && decide (nth x.settle j 0 ≠ 0)
  s.setHead h { x with
    settle := (List.range 8).map fun j => nth x.settle j 0 - b2n (lowers j)
    settled := BitVec.ofNat 8 (bitsToNat ((List.range 8).map lowers)) }

/-- The launch decision of a boundary: the shot launches while RUN is 1, LASEN is high and the accumulator of D overflows; else a
running head's shot is skipped and counts (R70, R73). -/
def State.launchDecide (s : State) (h : Nat) : Bool × State :=
  let x := s.head h
  if s.rbit (Reg.headCtrl h) 0 then
    let a := x.acc + s.fld (Reg.headDuty h) 16 0
    let go := decide (65536 ≤ a)
    let s := s.setHead h { x with acc := if go then a - 65536 else a }
    if go && s.lasen h then (true, s) else (false, s.count (Reg.headSkipCnt h) 1)
  else (false, s)

/-! ## Trace windows and the natural gap (R95) -/

/-- The trace windows of a shot, in ticks from its t_shot. -/
def shotWindows (p n trace : Nat) : List (Nat × Nat) :=
  (List.range n).map fun k => (24 + k * p / n, 24 + k * p / n + trace)

/-- What windows leave beyond a period, in ticks from the next t_shot. -/
def carryWindows (ticks : Nat) (ws : List (Nat × Nat)) : List (Nat × Nat) :=
  (ws.map fun w => (w.1 - ticks, w.2 - ticks)).filter fun w => decide (w.1 < w.2)

/-- The longest of two runs of ticks, the first where they tie. -/
def longer (a b : Nat × Nat) : Nat × Nat := if a.2 < b.2 then b else a

/-- The longest run of ticks of a period outside every window, as start and length: windows come in order of their start. -/
def gapFrom (ticks : Nat) : Nat → List (Nat × Nat) → Nat × Nat
  | at', [] => (at', ticks - at')
  | at', w :: r => longer (at', min w.1 ticks - at') (gapFrom ticks (max at' w.2) r)

/-- The natural gap of a period: its start and length, both 0 where no tick is free (R95). -/
def naturalGap (ticks : Nat) (ws : List (Nat × Nat)) : Nat × Nat :=
  let g := gapFrom ticks 0 (ws.mergeSort fun a b => decide (a.1 ≤ b.1))
  if g.2 = 0 then (0, 0) else g

/-- TRACE of a head with the counts in force (R94). -/
def State.traceNow (s : State) (h : Nat) : Nat :=
  traceTicks (s.head h).act (s.head h).gateEn ((List.range 8).map fun j => s.fld (Reg.ceGauges (8 * h + j)) 15 0)

/-! ## The boundary (R93) -/

/-- Close the periods of a head's lanes; their words join the records (R83). -/
def State.closeHead (s : State) (h : Nat) (raw : List ChCodes) : State :=
  forEach (List.range 8) (fun j t => (t.closeLanes (8 * h + j) (nth raw j [])).recordWords (8 * h + j)) (s.settleCount h)

/-- The ticks since reset, half telling that the present instant lies half a REFCLK cycle after its edge (R112). -/
def State.tickNow (s : State) (half : Bool) : Nat := 2 * s.time.up + b2n half

/-- The trace windows of the last shot that are still open at a boundary, in ticks from it: the last period has ended, whether its head
stopped since or not (R93, R95). -/
def State.windowsLeft (s : State) (h : Nat) (half : Bool) : List (Nat × Nat) :=
  let x := s.sched h
  let l := s.lane (8 * h)
  let ended := if l.prev.ticks = 0 then l.cur.ticks else l.prev.ticks
  carryWindows (if x.started then ended else max ended (s.tickNow half - x.tickAt)) x.wins

/-- The schedule of the coming period: index, stamp and the SHOT fields in force; a correction that waits is dropped outside PPS mode
(R93, R96, R98, R100). -/
def State.schedTakes (s : State) (h : Nat) (half : Bool) : State :=
  let x := s.sched h
  let mode := s.fld (Reg.shotCfg h) 5 4
  s.setSched h { x with
    index := x.index + 1, stamp := s.stamp, tickAt := s.tickNow half, started := true
    mode := mode, src := s.fld (Reg.shotCfg h) 9 8
    period := s.fld (Reg.shotPeriod h) 23 0, offset := s.fld (Reg.shotOffset h) 27 0, mark := s.fld (Reg.shotMark h) 7 0
    alignWin := s.fld (Reg.shotAlignWin h) 15 0
    launchedPrev := x.launched && (x.started || decide (s.windowsLeft h half ≠ [])), trippedPrev := x.tripped, tripped := false
    extra := if mode = 2 then x.extra else 0, extraIn := if mode = 2 then x.extraIn else 0
    unsync := !s.rbit Reg.timeSync 0 }

/-- A head follows a leader whose scheduler runs (R99). -/
def State.tracking (s : State) (h : Nat) : Bool :=
  let l := (s.sched h).src
  decide ((s.sched h).mode = 1) && s.schedOn l && (s.sched l).started

/-- FOLLOWING of head f at its own boundary: it falls with the mode, or with a leader that does not run when it is first named; a
leader that stops later is FOLLOW_LOST's (R99). -/
def State.followShow (s : State) (f : Nat) (fresh : Bool) : State :=
  if (s.sched f).mode ≠ 1 ∨ fresh ∨ s.tracking f then s.setRbit (Reg.shotStatus f) 1 (s.tracking f) else s

/-- A follower takes its leader up again at a boundary of the leader: its period in progress grows by 0 to P - 1 ticks, so that its next
boundary lies OFFSET ticks after one of the leader's (R99, DESIGN CHOICE, log entry 84). -/
def State.resume (s : State) (h f : Nat) : State :=
  let x := s.sched f
  let late := (((s.sched h).tickAt : Int) + x.offset - (x.tickAt + x.ticks : Nat)) % (max 1 (s.period f) : Nat)
  let s := s.setSched f { x with ticks := x.ticks + late.toNat }
  let s := forEach (List.range 8) (fun j t =>
    let l := t.lane (8 * f + j)
    t.setLane (8 * f + j) { l with cur := { l.cur with ticks := l.cur.ticks + late.toNat } }) s
  s.setRbit (Reg.shotStatus f) 1 true

/-- STATUS.RUNNING, ALIGNED and FOLLOWING of a head after its boundary; the followers that had lost it follow it again (R99, R120). -/
def State.shotShow (s : State) (h : Nat) (fresh : Bool) : State :=
  let s := s.setRbit (Reg.shotStatus h) 0 true
  let s := if (s.sched h).mode = 2 then s else s.setRbit (Reg.shotStatus h) 2 false
  forEach ((List.range 4).filter fun f => decide (f ≠ h) && (s.sched f).started && decide ((s.sched f).mode = 1) &&
      decide ((s.sched f).src = h) && !s.rbit (Reg.shotStatus f) 1) (fun f t => t.resume h f) (s.followShow h fresh)

/-- What the boundary makes known to the lanes, engines and chains of channel j. -/
def State.boundaryChannel (s : State) (h j : Nat) (c : HeadChange) (first launched stepped : Bool) (ticks since : Nat) : State :=
  let ch := 8 * h + j
  let x := s.sched h
  let gated := c.gatesNew.getLsbD j
  let runs := (s.rbit (Reg.ceCtrl ch) 0 || s.rbit (Reg.ceCtrl ch) 1) && gated && s.lanePowered ch
  let takes := (s.ce ch).takesShot (x.index - 1)
  let ws := (if launched && runs then x.wins else []) ++ (if takes then x.prevWins else [])
  let s := if first then s.setLane ch { s.lane ch with ran := 0 } else s
  let s := s.openLanes ch x.index launched ticks ws (!first) since
  let s := s.engineBoundary h ch {
    index := x.index, stamp := x.stamp, launched := launched, gated := gated
    settle := launched && decide (nth (s.head h).settle j 0 ≠ 0), timeStep := stepped, unsync := x.unsync
    period := s.period h, mark := x.mark, trace := s.traceNow h, probe := c.new, newSet := c.taken, changed := c.restarts j }
  let settle := launched && decide (nth (s.head h).settle j 0 ≠ 0)
  s.chainBoundary ch x.index x.stamp (bitsToNat [false, false, x.unsync, stepped, settle, !launched]) (s.rbit (Reg.ceStatus ch) 0 && gated)

/-- The length in ticks of the period that a boundary opens: P with the change PPS tracking gives it, or for a follower the length that its
leader's period in progress has; on entry to FOLLOW or PPS, P lengthened by what late brings from the phase of the leader or of the
local second (R95, R99, R100, DESIGN CHOICE, log entry 84). -/
def State.periodTicks (s : State) (h : Nat) (fresh : Bool) (late : Nat) : Nat :=
  let x := s.sched h
  let p := s.period h
  if s.tracking h then (if fresh ∨ (s.sched x.src).ticks = 0 then p + late % max 1 p else (s.sched x.src).ticks)
  else if x.mode = 2 then ((p : Int) + (if x.extraIn = 1 then x.extra else 0) + (if fresh then late % 200000000 else 0 : Nat)).toNat
  else p

/-- A shot boundary of a head (R93, R24): raw holds the codes its lanes took over the period that ends, late the ticks by which an entry
to a mode lengthens the coming period, half whether t_shot lies half a REFCLK cycle after its edge. -/
def State.shotBoundary (s : State) (h : Nat) (raw : List ChCodes) (late : Nat) (half : Bool) : State :=
  let old := s.sched h
  let first := !old.started
  let s := if first then s else s.closeHead h raw
  let prev := s.windowsLeft h half
  let s := s.schedTakes h half
  let s := if s.lowestOn = some h then s.switchSource (some h) else s
  let c := s.headChange h
  let s := s.headTakes h c
  let d := s.launchDecide h
  let s := d.2
  let x := s.sched h
  let fresh := first || decide (old.mode ≠ x.mode) || (decide (x.mode = 1) && (decide (old.src ≠ x.src) || decide (old.offset ≠ x.offset)))
  let ticks := s.periodTicks h fresh late
  let wins := shotWindows (s.period h) (trainLen c.new.train) (s.traceNow h)
  let g := naturalGap ticks (prev ++ wins)
  let s := (s.setReg (Reg.shotNgapStart h) (BitVec.ofNat 32 g.1)).setReg (Reg.shotNgapLen h) (BitVec.ofNat 32 g.2)
  let s := s.setSched h { x with launched := d.1, timeStep := false, extraIn := x.extraIn - 1, ticks := ticks, wins := wins, prevWins := prev }
  let s := forEach (List.range 8) (fun j t => t.boundaryChannel h j c first d.1 x.timeStep ticks (x.tickAt - old.tickAt)) s
  let s := (((s.shotShow h fresh).tdcShot h).sourceEdge (9 + h) (if half then 2000 else 0)).regShot h
  let s := if x.mode = 2 ∧ (first ∨ old.mode ≠ 2) then s.alignWait h else s
  s.quinceBoundary h

/-- SHOT_BOUNDARY (R93): none occurs while the scheduler is stopped or ends its last period, or in ALIGN_WAIT (R100). -/
def execShotBoundary (h : Head) (raw : PeriodIn) (s : State) : Host.Outcome State Fault Refusal :=
  .next (if s.schedOn h && !(s.sched h).ending && !s.rbit (Reg.shotStatus h) 3 then s.shotBoundary h raw.codes raw.late raw.half else s)

/-- SCHED_LAST_PERIOD_END (R93): the last period of a stopped scheduler ends; the lanes close it as at a boundary, and go on sampling while
a trace window of its launched shot is open. -/
def execSchedLastPeriodEnd (h : Head) (raw : List ChCodes) (s : State) : Host.Outcome State Fault Refusal :=
  .next (if (s.sched h).ending then
    let s := s.closeHead h raw
    let open' := (s.sched h).launched && decide (s.windowsLeft h false ≠ [])
    let s := forEach (List.range 8) (fun j t => (t.laneFaults (8 * h + j) 0).laneTail (8 * h + j) open') s
    (s.setSched h { s.sched h with started := false, ending := false }).setFld (Reg.shotStatus h) 3 0 0
  else s)

/-- The sample-zero marker of a launched shot reaches the stop vernier of a channel's unit, MARK ticks after t_launch of sub-probe 0 and after
the delay of the stop path (R97, R110, R116, DESIGN CHOICE, log entry 82). -/
def State.markerEdge (s : State) (h j : Nat) : State :=
  let e := 2000 * (s.launchTick h 0 + (s.sched h).mark) + Config.tdcPath (8 * h + j) 1
  s.tdcEdge (8 * h + j) true e (e % 4000)

/-- SUB_PROBE_LAUNCH (R58, R59, R67, R97, R116): sub-probe 0 opens the supervisor's windows, arms the channel units and gives them their
marker. -/
def execSubProbeLaunch (h : Head) (k : Fin 8) (s : State) : Host.Outcome State Fault Refusal :=
  .next (if (s.sched h).launched && (s.sched h).started && !(s.sched h).tripped && !s.noProbe
      && decide (k.val < trainLen (s.head h).act.train) then
    let s := s.play h k
    if k.val = 0 then
      forEach (List.range 8) (fun j t =>
        if (t.head h).gateEn.getLsbD j then (t.tdcArm (8 * h + j)).markerEdge h j else t) (s.lmonArm h)
    else s
  else s)

/-- SHOT_CAPTURE (R96): index and stamp of the most recent boundary are copied together. -/
def State.shotCapture (s : State) (h : Nat) : State :=
  (s.setWreg (Reg.shotCapIdx h) (BitVec.ofNat 72 (s.sched h).index.toNat)).setWreg (Reg.shotCapTs h) (s.sched h).stamp

/-- SHOT_CAPTURE (R96, R443). -/
def execShotCapture (_q : Req) (h : Head) (s : State) : Host.Outcome State Fault Refusal := .next (if s.shut then s else s.shotCapture h)

/-- FOLLOW_LOST (R99): the leader of a following head has stopped. -/
def execFollowLost (h : Head) (s : State) : Host.Outcome State Fault Refusal :=
  .next (if s.rbit (Reg.shotStatus h) 1 && decide ((s.sched h).mode = 1) && !s.schedOn (s.sched h).src then
    (s.setRbit (Reg.shotStatus h) 1 false).fault Reg.shotFault (2 ^ (4 + h.val))
  else s)

/-! ## A trip (R68, R467) -/

/-- A tick lies in some window. -/
def inWindows (t : Nat) (ws : List (Nat × Nat)) : Bool := ws.any fun w => decide (w.1 ≤ t) && decide (t < w.2)

/-- A shot whose period has ended turns out skipped: the settle counts that the end of the period lowered are given back, and the present
shot, where there is one, settles again where its count was at its end (R65, R467). -/
def State.settleBack (s : State) (h : Nat) : State :=
  let x := s.head h
  let y := s.sched h
  let s := s.setHead h { x with
    settled := 0, settle := (List.range 8).map fun j => nth x.settle j 0 + b2n (x.settled.getLsbD j) }
  if y.launched ∧ y.started then
    forEach ((List.range 8).filter fun j => x.settled.getLsbD j) (fun j t => t.recordSettles (8 * h + j) y.index) s
  else s

/-- A shot of a head in flight at a trip is treated as skipped in full (R467). -/
def State.shotTripped (s : State) (h : Nat) (i : BitVec 48) : State :=
  forEach (List.range 8) (fun j t => t.recordTripped (8 * h + j) i) (s.count (Reg.headSkipCnt h) 1)

/-- HEADOK_FALL (R68, R69, R467): HEADOK falls t ticks after the head's last boundary. A launched shot with no window open at that
instant is not skipped, before its first window and between two of them too (DEDUCED, log entry 85). -/
def execHeadokFall (h : Head) (t : Nat) (s : State) : Host.Outcome State Fault Refusal :=
  let x := s.sched h
  let now := x.launched && !x.tripped && inWindows t x.wins
  let prev := x.launchedPrev && !x.trippedPrev && inWindows t x.prevWins
  let s := s.headokFallen h
  let s := if prev then (s.shotTripped h (x.index - 1)).settleBack h else s
  let s := if now then (s.shotTripped h x.index).when (!x.started) (·.settleBack h) else s
  .next (s.setSched h { s.sched h with tripped := x.tripped || now, trippedPrev := x.trippedPrev || prev })

/-! ## Writes of the SHOT registers -/

/-- The written mode and source of a head. -/
def State.shotMode (s : State) (h : Nat) : Nat := s.fld (Reg.shotCfg h) 5 4
def State.shotSrc (s : State) (h : Nat) : Nat := s.fld (Reg.shotCfg h) 9 8

/-- A head follows another, by the mode written or in force (R99). -/
def State.followsHead (s : State) (f h : Nat) : Bool :=
  decide (f ≠ h) && ((decide (s.shotMode f = 1) && decide (s.shotSrc f = h)) ||
    (decide ((s.sched f).mode = 1) && decide ((s.sched f).src = h)))

/-- A head's sets keep R60, R94 and R20 at a period. -/
def State.periodOk (s : State) (h p : Nat) : Bool :=
  let g := s.gateEn h
  let c := s.counts h
  (s.head h).sets.all fun ps => probeRulesOk p ps g && gapOk p ps g c &&
    (List.range 8).all fun j => !g.getLsbD j || rateOk p ps c j

/-- Whether a write that leaves v in a SHOT register is refused, beyond the ranges of its fields (R94, R98 to R100, R120). -/
def shotCheck (s : State) (off : Nat) (v : W32) : Option Cause :=
  let h := off / 0x100
  if 4 ≤ h then none
  else
    match off % 0x100 with
    | 0x0 =>
      let mode := field v 5 4
      let src := field v 9 8
      let own := s.fld (Reg.shotPeriod h) 23 0
      if mode = 3 then some .enc
      else if mode = 1 then
        let led := (List.range 4).any fun f => decide (f ≠ h) && decide (s.shotMode f = 1) && decide (s.shotSrc f = h)
        if src = h ∨ s.shotMode src = 1 ∨ led ∨ !s.periodOk h (s.fld (Reg.shotPeriod src) 23 0) ∨
            ((s.sched src).started ∧ !s.periodOk h (s.sched src).period) then some .range else none
      else if mode = 2 ∧ 200000000 % own ≠ 0 then some .range
      else if s.shotMode h = 1 ∧ !s.periodOk h own then some .range
      else none
    | 0x4 =>
      let p := field v 23 0
      let followers := (List.range 4).filter fun f => s.followsHead f h
      if s.shotMode h = 1 then none
      else if !s.periodOk h p ∨ s.shotMode h = 2 ∧ 200000000 % p ≠ 0 ∨ !(followers.all fun f => s.periodOk f p) then some .range
      else none
    | 0xC =>
      let o := field v 27 0
      let x := s.sched h
      if x.mode = 1 ∧ s.period h ≤ o ∨ x.mode = 2 ∧ 199999999 < o then some .range else none
    | _ => none

/-- What a write of a SHOT register does besides: EN at 0 ends the last period, and lets a switch of source that waits be made where no
scheduler is left running; a period change restarts a lane step (R93, R104, R382). -/
def shotEffect (s : State) (off : Nat) (old v : W32) : State :=
  let h := off / 0x100
  if 4 ≤ h then s
  else if off % 0x100 = 0 then
    if bitOf old 0 && !bitOf v 0 then
      let s := if (s.sched h).started then s.setSched h { s.sched h with ending := true } else s
      if s.lowestOn.isNone then s.switchSource none else s
    else s
  else if off % 0x100 = 4 ∧ old ≠ v then
    forEach (List.range 4) (fun f t =>
      if f = h ∨ t.shotMode f = 1 ∧ t.shotSrc f = h then t.laneRestart f else t) s
  else s

/-- Write CFG with EN at 1 (R93, R443). -/
def execSchedEnable (q : Req) (h : Head) (s : State) : Host.Outcome State Fault Refusal :=
  let v := withBit (s.reg (Reg.shotCfg h)) 0 true
  .next (if s.shut then s else match shotCheck s (0x100 * h.val) v with
  | some c => s.err shotBase c (0x100 * h.val) q
  | none => s.setReg (Reg.shotCfg h) v)

end Sys2Proof.Machine
end

