-- ==== Sys2Proof/Machine/Dictionary.lean ====
section
/-!
DEFINITION. Reads and writes of the object dictionary (R393 to R400, R417, R466): what each entry reads as, who may write it, the
checks of every entry, and what an accepted write does.
-/
namespace Sys2Proof.Machine

/-! ## Reading -/

/-- STRAIN_PER_PU as REAL32 bits, of the written settings and the train in force (R153). -/
def State.strainPerPu (s : State) (ch : Nat) : Nat :=
  let v := odVib ch
  match fl32 (s.odv v 0xC) with
  | .fin _ m e =>
    let n := s.odv v 0xB * 10 ^ 7
    let d := 10 ^ 12 * 131072 * m * s.odv v 2 * trainLen (s.head (ch / 8)).act.train * 14989623
    fl32Bits (flRound f32 false n d (-e))
  | _ => 0

/-- The last frame of a kind of a channel. -/
def State.lastFrame (s : State) (ch kind : Nat) : List W72 := s.frames.get [] (4 * ch + kind)

/-- The live values of a channel (R400): the last DTS window's FIRST shot is the one whose SYNCED sub-index 4 shows (DESIGN CHOICE, log entry 17). -/
def State.channelLive (s : State) (ch sub : Nat) : Nat :=
  let f := s.lastFrame ch 0
  let d := s.lastFrame ch 2
  let first := field (nth d 1 0) 47 0
  match sub with
  | 1 => field (nth f 1 0) 47 0
  | 2 => field (nth f 2 0) 39 24
  | 3 => first
  | _ =>
    if d = [] then 0
    else match (s.chain ch).log.find? fun r => decide (r.index = first) with
      | some r => b2n (!r.unsync)
      | none => b2n (!(nth d 1 0).getLsbD 68)

/-- The number an entry reads as (R400, and the rules of the entries that stand for registers, tables and live values). -/
def State.odNum (s : State) (idx sub : Nat) : Nat :=
  if isCob idx sub then (match s.odv idx sub with | 0 => s.cobDefault idx | n + 1 => n)
  else if 0x3000 ≤ idx ∧ idx < 0x4000 then
    let z := idx - 0x3000
    if sub ≤ 8 then (s.zoneWord z (sub - 1)).toNat
    else if sub ≤ 0xA then (s.zoneStatus z (sub - 9)).toNat
    else if sub = 0xC then (s.zone z).st
    else ((s.zone z).m % 2 ^ 64).toNat
  else if 0x4430 ≤ idx ∧ idx < 0x4438 then s.fld (Reg.loopValue (idx - 0x4430)) 15 0
  else if 0x4810 ≤ idx ∧ idx < 0x4830 ∧ 6 ≤ sub then
    let ch := idx - 0x4810
    match sub with | 6 => s.ringShots ch | 7 => s.ringLast ch | _ => s.ringOldest ch
  else if 0x6000 ≤ idx ∧ idx < 0x6020 then s.channelLive (idx - 0x6000) sub
  else if 0x6040 ≤ idx ∧ idx < 0x6044 then
    if sub = 1 then s.fld (Reg.headHeadTemp (idx - 0x6040)) 15 0 else s.fld (Reg.headDuty (idx - 0x6040)) 16 0
  else if 0x2810 ≤ idx ∧ idx < 0x3000 ∧ idx % 0x40 = 0x10 ∧ sub = 0xD then s.strainPerPu ((idx - 0x2810) / 0x40)
  else match idx, sub with
    | 0x1001, _ => b2n s.anyFault
    | 0x1010, _ => 1
    | 0x1011, _ => 1
    | 0x1018, 3 => s.fld Reg.sysChipId 3 0 * 2 ^ 16 + s.odv 0x1018 3
    | 0x1F10, _ => s.fld Reg.sysBootWhy 7 0
    | 0x2010, 0xC => (s.ptp 1).state * 256 + (s.ptp 0).state
    | _, _ => s.odv idx sub

/-- The bytes of a string entry: addresses never written read 16 zero bytes (DESIGN CHOICE, log entry 17). -/
def State.odString (s : State) (idx sub : Nat) : List Byte :=
  match idx with
  | 0x1008 => [0x50, 0x46, 0x33, 0x32, 0x35, 0x30]
  | 0x100A => s.odStr idx sub
  | _ => if s.odStr idx sub = [] then List.replicate 16 0 else s.odStr idx sub

/-- An index holds a key (R400). -/
def isKey (idx : Nat) : Bool := decide (0x1F80 ≤ idx) && decide (idx ≤ 0x1F84)

/-- A read of an entry from an offset on: an abort code, or its type and its bytes (R393 to R396, R400, R466). -/
def State.odRead (s : State) (idx sub ofs : Nat) : W32 ⊕ (OdType × List Byte) :=
  if odRows idx = [] then .inl abNoIndex
  else match odRow idx sub with
    | none => if sub = 0 then (if ofs = 0 then .inr (.u8, [BitVec.ofNat 8 (odTop idx)]) else .inl abType) else .inl abNoSub
    | some r =>
      if isKey idx then .inl abOther
      else if ofs ≠ 0 ∧ r.type ≠ .dom then .inl abType
      else if r.acc = .wo then .inl abWriteOnly
      else if odBytesOf r.type = 0 then .inr (r.type, s.odString idx sub)
      else .inr (r.type, leBytes (s.odNum idx sub) (odBytesOf r.type))

/-! ## Who may write -/

/-- The write role of an entry (R400). -/
def odWriteRole (idx sub : Nat) : Nat :=
  if idx = 0x1F50 ∨ idx = 0x1F51 ∨ idx = 0x1F83 then 3
  else if idx < 0x3000 then 2
  else if idx < 0x4000 then (if sub = 0xB then 1 else 2)
  else if 0x4430 ≤ idx ∧ idx < 0x4438 then 1
  else 2

/-- Minimal mode takes a write of an entry (R400, R437). -/
def odMinimal (idx : Nat) : Bool := decide (idx = 0x1F50) || decide (idx = 0x1F51) || isKey idx

/-! ## Mapping of PDOs (R417) -/

/-- The mapping index and the communication index of a PDO mapping entry: the port, and whether it is a TPDO. -/
def mapOf (idx : Nat) : Option (Nat × Nat × Bool) :=
  if 0x1600 ≤ idx ∧ idx < 0x1608 then some (idx - 0x200, (idx - 0x1600) / 4, false)
  else if 0x1A00 ≤ idx ∧ idx < 0x1A10 then some (idx - 0x200, (idx - 0x1A00) / 8, true)
  else none

/-- The row an entry of a mapping names, where that kind of PDO may map it. -/
def mappable (tx : Bool) (v : Nat) : Option OdRow :=
  match odRow (v / 65536) (v / 256 % 256) with
  | some r => if (if tx then r.tx else r.rx) then some r else none
  | none => none

/-- The bits a mapping holds when it has n entries. -/
def State.mapBits (s : State) (idx n : Nat) : Nat := (List.range n).foldl (fun b i => b + s.odv idx (i + 1) % 256) 0

/-- Why a mapping entry refuses a value (R417); a valid COB-ID or a mapping in use shuts the mapping. -/
def State.mapRefuse (s : State) (idx sub v : Nat) : Option W32 :=
  match mapOf idx with
  | none => none
  | some (comm, c, tx) =>
    let shut := decide (s.odNum comm 1 < 2 ^ 31) || (decide (s.odv idx 0 ≠ 0) && !(decide (sub = 0) && decide (v = 0)))
    if shut then some abState
    else if sub = 0 then
      if 16 < v then some abRange
      else if (if s.rbit (Reg.canCfg c) 1 then 512 else 64) < s.mapBits idx v then some abMapLen else none
    else match mappable tx v with
      | none => some abNoMap
      | some r => if v % 256 = 8 * odBytesOf r.type then none else some abRange

/-! ## The checks of each entry -/

/-- A write of 1 to HIST_EN is refused (R162). -/
def State.histRefused (s : State) (ch : Nat) : Bool :=
  match s.histSpans ch with
  | [d, h] =>
    decide (d.1 % 256 ≠ 0) || decide (h.1 % 256 ≠ 0) || spansMeet d.1 d.2 h.1 h.2 ||
      [d, h].any fun x => s.meetsHistory (some ch) x || s.meetsTotals x
  | _ => true

/-- A vendor enable of a channel that loads roles on the named cores is refused (R197, R220, R312). -/
def State.enableRefused (s : State) (ch : Nat) (cores : List Nat) : Bool := s.userHolds ch cores || s.vendorBlocked ch !cores.isEmpty

/-- A write of an entry of a channel is refused by the state or configuration (R160, R169, R182, R220); k is the place in the block
of its index. -/
def State.channelState (s : State) (ch k sub v : Nat) : Bool :=
  let paired := decide (ch % 2 = 1) && s.double (ch - 1)
  match k, sub with
  | 0, 1 => decide (v = 1) && s.enableRefused ch ([0, 1, 2] ++ if s.bandEn ch ≠ 0 then [3, 4] else [])
  | 0, 9 => decide (v ≠ 0) && (!s.histEn ch ||
      decide (s.ringShots ch * s.histRows ch < 2 * 2 ^ s.odv (odVib ch) 0xA) ||
      s.enableRefused ch (if s.vibEn ch then [3, 4] else []))
  | 2, 1 => decide (v = 1) && (!s.rbit (Reg.ceCtrl ch) 1 || decide (s.coilLen (ch / 8) = 0) || paired ||
      s.enableRefused ch [5] || (s.double ch && s.enableRefused (ch + 1) [5]))
  | 2, 9 => s.dtsEn ch || decide (ch % 2 = 1) ||
      (decide (v = 1) && (decide (s.odv (odDts ch) 0xA < 64) || s.dtsEn (ch + 1) || s.enableRefused (ch + 1) []))
  | 2, _ => s.dtsEn ch
  | 3, 1 => decide (v = 1) && (!s.vibEn ch || !(s.dtsEn ch || paired) || s.enableRefused ch [5])
  | _, _ => false

/-- A write of an entry is refused by the state or configuration of the device (R466). -/
def State.odState (s : State) (idx sub v : Nat) : Bool :=
  if 0x2810 ≤ idx ∧ idx < 0x3000 then s.channelState ((idx - 0x2810) / 0x40) ((idx - 0x2810) % 0x40) sub v
  else if 0x4410 ≤ idx ∧ idx < 0x4420 then s.slotOn (idx - 0x4410)
  else if 0x4810 ≤ idx ∧ idx < 0x4830 then
    let ch := idx - 0x4810
    if sub = 1 then decide (v = 1) && s.histRefused ch else s.histEn ch
  else if idx = 0x1F83 then decide (1 ≤ s.fld Reg.lifeState 1 0) && decide (s.fld Reg.lifeState 1 0 ≠ 2)
  else false

/-- A real value is positive. -/
def flPos : Fl → Bool
  | .fin false m _ => decide (m ≠ 0)
  | .inf n => !n
  | _ => false

/-- A real value is a zero. -/
def flZero : Fl → Bool
  | .fin _ m _ => decide (m = 0)
  | _ => false

/-- A value lies in the range and the set its entry states, limits against other sub-indices among them (R394, R395, R466). -/
def State.odInRange (s : State) (r : OdRow) (idx sub v : Nat) : Bool :=
  let x : Int := if odSigned r.type then wrap v (8 * odBytesOf r.type) else v
  let ranged := match r.range with | some (lo, hi) => decide (lo ≤ x) && decide (x ≤ hi) | none => true
  let typed := match r.type with
    | .bool => decide (v ≤ 1)
    | .r32 => decide (fl32 v ≠ .nan)
    | .r64 => decide (fl64 v ≠ .nan)
    | _ => true
  let special :=
    if 0x2810 ≤ idx ∧ idx < 0x3000 then
      match (idx - 0x2810) % 0x40, sub with
      | 0, 6 => decide (v ≤ s.odv idx 7)
      | 0, 7 => decide (s.odv idx 6 ≤ v)
      | 0, 0xC => decide (0x3F000000 ≤ v) && decide (v ≤ 0x3F800000)
      | 2, 6 => decide (v % 2 = 1)
      | 2, 8 => decide (v = 0) || decide (8 ≤ v)
      | 3, 4 => decide (v ≠ 0)
      | _, _ => true
    else if 0x4410 ≤ idx ∧ idx < 0x4420 then
      match sub with
      | 1 => flPos (fl64 v)
      | 3 => !flZero (fl64 v)
      | 0xB => flPos (fl64 v)
      | _ => true
    else true
  ranged && typed && special

/-- The length and, for strings, the bytes a value may have; the IP address of a peer has 4 bytes or 16 (R394, R400, DESIGN CHOICE, log entry
67). -/
def odLengthOk (r : OdRow) (idx : Nat) (data : List Byte) : Bool :=
  match r.type with
  | .dom => true
  | .oct =>
    if isKey idx then decide (data.length = 32)
    else if 0x2100 ≤ idx ∧ idx < 0x2200 then decide (data.length = 4) || decide (data.length = 16)
    else decide (data.length = 16)
  | .str => decide (data.length ≤ 255)
  | t => decide (data.length = odBytesOf t)

/-! ## What an accepted write does -/

/-- The vendor roles of the cluster that serves a channel follow the enables (R219). -/
def State.rolesFollow (s : State) (ch : Nat) : State :=
  match s.clusterOf ch with | some cl => s.vendorLoad cl | none => s

/-- A channel's entry takes a value; enables load roles and restarts are marked (R146, R170, R187, R219). -/
def State.channelWrite (s : State) (ch k idx sub v : Nat) : State :=
  let old := s.odv idx sub
  let s := s.setOdv idx sub v
  match k, sub with
  | 0, 1 => (s.when (decide (old = 0) && decide (v = 1)) fun s => s.setChain ch { s.chain ch with restart := true }).rolesFollow ch
  | 0, 9 => s.rolesFollow ch
  | 2, 1 => ((s.when (decide (old = 0) && decide (v = 1)) fun s => s.setChain ch { s.chain ch with dts := {} }).rolesFollow
      ch).rolesFollow (ch + 1)
  | 2, 9 => s.rolesFollow (ch + 1)
  | 3, 1 => (s.when (decide (old = 0) && decide (v = 1)) fun s => s.setChain ch { s.chain ch with fuseDue := true }).rolesFollow ch
  | 3, 2 => s.setChain ch { s.chain ch with fuseDue := true }
  | 3, 3 => s.setChain ch { s.chain ch with fuseDue := true }
  | 3, 4 => s.setChain ch { s.chain ch with fuseDue := true }
  | _, _ => s

/-- The abort code of a refusal by a zone word (R466). -/
def State.zoneAbort (s : State) (z : Nat) (v : W72) (c : Cause) : W32 :=
  match c with
  | .busy => abState
  | .locked => abLocked
  | .range => if s.zoneRangeBad z v then abRange else abState
  | _ => abRange

/-- A write of a zone's entry (R254, R264, R466); a refusal by the table is recorded as the control processor's. -/
def State.zoneEntryWrite (s : State) (z sub v : Nat) : W32 × State :=
  if sub = 0xB then
    if !zoneEn (s.zoneWord z 0) ∨ zoneSrc (s.zoneWord z 0) ≠ 4 then (abState, s)
    else match s.zoneInput z (wrap v 64) with
      | none => (abRange, s)
      | some t => (0, t)
  else
    let w := BitVec.ofNat 72 v
    match s.zoneWrite z (sub - 1) w with
    | .inl c => (s.zoneAbort z w c, s.err zoneBase c (zoneOff16 z (sub - 1)) .cp)
    | .inr t => (0, t)

/-- Close a session (R405): its subscriptions end with it, and AUTH is 0 once no VENDOR session is left, which raises vector 237
(R444, R448). -/
def State.sessionClose (s : State) (i : Nat) : State :=
  if !(s.session i).active && !(s.session i).challenged then s
  else
    let was := (List.range 16).any fun j => (s.session j).active && decide ((s.session j).role = 3)
    let s := s.setSession i {}
    let now := (List.range 16).any fun j => (s.session j).active && decide ((s.session j).role = 3)
    let s := s.setReg Reg.netSessActive (BitVec.ofNat 32 ((List.range 16).filter fun j => (s.session j).active).length)
    if was && !now then s.event 237 else s

/-- A role key is written: the eNVM's secrets take it and the sessions of that role close, those this
device opened among them (R400, R405, R441). -/
def State.keyWrite (s : State) (idx : Nat) (data : List Byte) : State :=
  let s := s.setOdStr idx 0 data
  let s := s.nvmStart .secrets nvmSecrets
  let s := if idx = 0x1F84 then { s with net := { s.net with estate := [] } } else s
  forEach (List.range 16) (fun i t =>
    let x := t.session i
    if idx = (if x.estate then 0x1F84 else 0x1F80 + x.role) then t.sessionClose i else t) s

/-- A permitted target of a life-cycle transition in the present state (R444). -/
def State.lifeTargetOk (s : State) (target : Nat) : Bool :=
  match s.fld Reg.lifeState 1 0, target with
  | 0, 1 => true
  | 1, 2 => (List.range 16).any fun j => (s.session j).active && decide ((s.session j).role = 3)
  | 2, 1 => true
  | 3, _ => false
  | _, 3 => true
  | _, _ => false

/-- A transition is asked for: refused, or it waits for the eNVM operations in progress, the pending record being written behind them
(R444, R445). -/
def State.lifeAsk (s : State) (target : Nat) : Cause ⊕ State :=
  if s.rbit Reg.lifeStateCtrl 31 then .inl .locked
  else if !s.lifeTargetOk target then .inl .range
  else
    let t := { s with nvm := { s.nvm with lifeAsked := some target } }
    .inr (if s.nvm.lifeAsked.isSome then t else t.nvmStart .lifeRecord nvmLife)

/-- A write of 0x1F51, which stands for STATE_CTRL: a refusal is recorded in LIFE's ERR (R395, R445, R466). -/
def State.lifeEntryWrite (s : State) (target : Nat) : W32 × State :=
  match s.lifeAsk target with
  | .inl .locked => (abLocked, s.err lifeBase .locked 4 .cp)
  | .inl c => (abRange, (s.err lifeBase c 4 .cp).fault Reg.lifeFault 1)
  | .inr t => (0, t)

/-- A loop's VALUE written through the dictionary, as a write of its register (R369, R400). -/
def State.loopEntryWrite (s : State) (n v : Nat) : W32 × State :=
  let off := 0x104 + 0x20 * n
  if 25000 < v then (abRange, s.err 0x90000 .range off .cp)
  else (0, loopEffect (s.setReg (Reg.loopValue n) (BitVec.ofNat 32 v)) off)

/-- An entry of the peer table is written: it is in the table from then on, as the one used last (R400, R404). -/
def State.peerWrite (s : State) (k sub : Nat) (data : List Byte) : State :=
  let t := if sub = 2 then s.setOdStr (0x2100 + k) sub data else s.setOdv (0x2100 + k) sub (ofLeBytes data)
  { t with net := { t.net with peers := t.net.peers.erase k ++ [k] } }

/-- An accepted value takes effect: the abort code of a store, image or table refusal, else 0, and the state (R395). -/
def State.odApply (s : State) (idx sub ofs : Nat) (more : Bool) (data : List Byte) : W32 × State :=
  let v := ofLeBytes data
  if 0x3000 ≤ idx ∧ idx < 0x4000 then s.zoneEntryWrite (idx - 0x3000) sub v
  else if 0x4430 ≤ idx ∧ idx < 0x4438 then s.loopEntryWrite (idx - 0x4430) v
  else if isKey idx then (0, s.keyWrite idx data)
  else if 0x2810 ≤ idx ∧ idx < 0x3000 then
    (0, s.channelWrite ((idx - 0x2810) / 0x40) ((idx - 0x2810) % 0x40) idx sub v)
  else if idx = 0x1F50 then s.drawn.imageWrite (decide (sub = 2)) ofs more data (s.free.getLsbD 0)
  else if idx = 0x1F51 then s.lifeEntryWrite v
  else if idx = 0x1011 then (match s.restoreAsk (BitVec.ofNat 32 v) with | .inl a => (a, s) | .inr t => (0, t))
  else if 0x4810 ≤ idx ∧ idx < 0x4830 ∧ sub = 1 then
    let was := s.histEn (idx - 0x4810)
    let s := s.setOdv idx sub v
    (0, if v = 1 ∧ !was then s.histStart (idx - 0x4810) else s)
  else if 0x2100 ≤ idx ∧ idx < 0x2200 then (0, s.peerWrite (idx - 0x2100) sub data)
  else if isCob idx sub then (0, s.setOdv idx sub (v + 1))
  else match odRow idx sub with
    | some r => if r.type = .oct ∨ r.type = .str then (0, s.setOdStr idx sub data) else (0, s.setOdv idx sub v)
    | none => (0, s)

/-- Why a write is refused before it reaches what the entry stands for, if it is (R395, R396, R400, R417, R466). -/
def State.odRefuse (s : State) (role idx sub ty ofs : Nat) (data : List Byte) : Option W32 :=
  if odRows idx = [] then some abNoIndex
  else match odRow idx sub with
    | none => some (if sub = 0 then abReadOnly else abNoSub)
    | some r =>
      let v := ofLeBytes data
      if r.acc = .const ∨ r.acc = .ro then some abReadOnly
      else if role < odWriteRole idx sub then some abRole
      else if s.minimal ∧ !odMinimal idx then some abState
      else if ty ≠ odCode r.type ∨ !odLengthOk r idx data ∨ (ofs ≠ 0 ∧ r.type ≠ .dom) then some abType
      else if (mapOf idx).isSome then s.mapRefuse idx sub v
      else if r.type ≠ .dom ∧ s.odState idx sub v then some abState
      else if r.type ≠ .dom ∧ r.type ≠ .oct ∧ !(0x3000 ≤ idx ∧ idx < 0x4000 ∧ sub = 0xB) ∧ !s.odInRange r idx sub v then some abRange
      else none

/-- A write of an entry by a role: its abort code or 0, and the state (R395). -/
def State.odWrite (s : State) (role idx sub ty ofs : Nat) (more : Bool) (data : List Byte) : W32 × State :=
  match s.odRefuse role idx sub ty ofs data with
  | some a => (a, s)
  | none => s.odApply idx sub ofs more data

/-- The write 0x6576_6173 of 0x1010 is a STORE (R399). -/
def isStore (idx sub : Nat) : Bool := decide (idx = 0x1010) && decide (sub = 1)

/-- A write request of a path, answered with its code; a STORE is answered when it commits, and what its program verification finds is
a free value (R398, R407, DESIGN CHOICE, log entry 4). -/
def State.odRequest (s : State) (p : Path) (how idx sub ty ofs : Nat) (more : Bool) (data : List Byte) : State :=
  match s.pathRole p with
  | none => s
  | some role =>
    if isStore idx sub then
      match s.odRefuse role idx sub ty ofs data with
      | some a => s.answerCode p how a
      | none => if ofLeBytes data = 0x65766173 then s.drawn.storeAsk p how (s.free.getLsbD 0) else s.answerCode p how abStore
    else
      let x := s.odWrite role idx sub ty ofs more data
      x.2.answerCode p how x.1

/-- DICT_READ (R395, R396): the value of an entry, or an abort code, answers a path. -/
def execDictRead (p : Path) (idx : BitVec 16) (sub : Byte) (ofs : Nat) (s : State) : Host.Outcome State Fault Refusal :=
  if s.pathRole p = none then .next s
  else match s.odRead idx.toNat sub.toNat ofs with
    | .inl a => .next (s.emit (.object a []))
    | .inr (_, b) => .next (s.emit (.object 0 b))

/-- DICT_WRITE (R395). -/
def execDictWrite (p : Path) (idx : BitVec 16) (sub : Byte) (ty : Byte) (ofs : Nat) (more : Bool) (data : List Byte) (s : State) :
    Host.Outcome State Fault Refusal :=
  .next (s.odRequest p 0 idx.toNat sub.toNat ty.toNat ofs more data)

/-! ## Zone writes to this device (R263, R406) -/

/-- The oldest zone write to this device is applied in role OPERATOR, and acknowledged (R263, R406). -/
def State.selfWrite (s : State) : State :=
  match s.selfWrites with
  | [] => s
  | w :: rest =>
    let s := { s with selfWrites := rest }
    let x := s.odWrite 1 w.idx w.sub (remoteData w.wide w.value).1 0 false (remoteData w.wide w.value).2
    x.2.remoteAck w.zone x.1

end Sys2Proof.Machine
end

