-- ==== Sys2Proof/Machine/Yarfel.lean ====
section
/-!
DEFINITION. The Yarfel link (R401 to R409), the local window (R420) and the Ethernet ports (R419): sessions, the acceptance of frames,
requests and replies, subscriptions, broadcasts and the peer table.
-/
namespace Sys2Proof.Machine

/-- The block base of NET. -/
def netBase : Nat := 0xE0000

/-! ## Sessions (R405, R406) -/

/-- The open sessions counted in SESS_ACTIVE. -/
def State.sessShow (s : State) : State :=
  s.setReg Reg.netSessActive (BitVec.ofNat 32 ((List.range 16).filter fun j => (s.session j).active).length)

/-- A new session identifier: a free value, moved on past those in use. -/
def State.newSid (s : State) (f : Nat) : W32 :=
  let bad (n : Nat) : Bool := decide (n = 0) || decide (n = 2 ^ 32 - 1) ||
    (List.range 16).any fun j => ((s.session j).active || (s.session j).challenged) && decide ((s.session j).sid.toNat = n)
  BitVec.ofNat 32 ((((List.range 19).map fun k => (f + k) % 2 ^ 32).find? fun n => !bad n).getD 1)

/-- An OPEN: a CHALLENGE answers it, or none when 16 sessions are held. S and Nd come from the entropy source, and which key an OPEN of
role OPERATOR asks for is not stated: free values (DESIGN CHOICE, log entry 4). -/
def State.sessionOpen (s : State) (ip : IpAddr) (client role : Nat) (nc : List Byte) : State :=
  if 3 < role then s
  else match (List.range 16).find? fun i => !(s.session i).active && !(s.session i).challenged with
    | none => s.fault Reg.netFault 16
    | some i =>
      let sid := s.newSid (field s.free 31 0)
      let estate := decide (role = 1) && s.free.getLsbD 71
      let s := s.drawn
      let (nd, s) := s.drawNonce
      let key := sessionKey (s.roleKey estate role) sid.toNat client s.devAddr role nc nd
      let s := s.setSession i { challenged := true, role := role, estate := estate, sid := sid, client := client, v6 := ipIsV6 ip, key := key }
      s.sessionSend i 0 0 0 ([2, BitVec.ofNat 8 role, 0, 0] ++ nd)

/-- SESSION_OPEN (R405). -/
def execSessionOpen (ip : IpAddr) (client : BitVec 16) (role : Byte) (nonce : List Byte) (s : State) : Host.Outcome State Fault Refusal :=
  if s.yarfelOn then .next (s.sessionOpen ip client.toNat role.toNat nonce) else .next s

/-- A CONFIRM of a challenged session: it opens the session when it verifies; the first VENDOR session sets AUTH, which raises vector
237 (R405, R444, R448). -/
def State.sessionConfirm (s : State) (i : Nat) (ip : IpAddr) (verified : Bool) : State :=
  let x := s.session i
  if !x.challenged then s
  else if !verified then s.authFail
  else
    let was := (List.range 16).any fun j => (s.session j).active && decide ((s.session j).role = 3)
    let n := s.net.opened + 1
    let s := { s with net := { s.net with opened := n } }
    let s := (s.setSession i { x with active := true, challenged := false, opened := n }).sessShow
    let s := s.learnPeer x.client ip
    if x.role = 3 ∧ !was then s.event 237 else s

/-- SESSION_CONFIRM (R405). -/
def execSessionConfirm (f : ConfirmAt) (verified : Bool) (s : State) : Host.Outcome State Fault Refusal :=
  .next (s.sessionConfirm f.i.val f.ip verified)

/-- SESSION_CONFIRM_TIMEOUT (R405): 2 s have passed and the session is discarded. -/
def execSessionConfirmTimeout (i : Fin 16) (s : State) : Host.Outcome State Fault Refusal :=
  if (s.session i.val).challenged then .next (s.setSession i.val {}) else .next s

/-- SESSION_IDLE_TIMEOUT (R405): the idle time has passed without a verified frame. -/
def execSessionIdleTimeout (i : Fin 16) (s : State) : Host.Outcome State Fault Refusal :=
  if (s.session i.val).active then .next (s.sessionClose i.val) else .next s

/-! ## Subscriptions (R408) -/

/-- A vector that may be subscribed. -/
def subscribable (v : Nat) : Bool := decide (v < 240) || (decide (256 ≤ v) && decide (v ≤ 511))

/-- Vectors added to the subscriptions of a session with their lease: refused whole, or the state. -/
def State.subscribeAdd (s : State) (i lease : Nat) (vs : List Nat) : W32 × State :=
  let x := s.session i
  let subs := vs.foldl (fun l v => if l.contains v then l else l ++ [v]) x.subs
  if !vs.all subscribable then (abRange, s)
  else if 64 < subs.length then (abState, s)
  else
    let kept := x.leases.filter fun p => !vs.contains p.1
    (0, s.setSession i { x with subs := subs, leases := if lease = 0 then kept else kept ++ vs.map fun v => (v, lease) })

/-- Vectors removed from the subscriptions of a session. -/
def State.subscribeRemove (s : State) (i : Nat) (vs : List Nat) : State :=
  let x := s.session i
  s.setSession i { x with subs := x.subs.filter fun v => !vs.contains v, leases := x.leases.filter fun p => !vs.contains p.1 }

/-- Every subscription of a session removed. -/
def State.subscribeClear (s : State) (i : Nat) : State := s.setSession i { s.session i with subs := [], leases := [] }

/-- SUBSCRIBE_ADD (R407, R408). -/
def execSubscribeAdd (i : Fin 16) (lease : Nat) (vs : List Nat) (s : State) : Host.Outcome State Fault Refusal :=
  if (s.session i.val).active then
    let x := s.subscribeAdd i.val lease vs
    .next (x.2.emit (.object x.1 []))
  else .next s

/-- SUBSCRIBE_REMOVE (R407, R408). -/
def execSubscribeRemove (i : Fin 16) (vs : List Nat) (s : State) : Host.Outcome State Fault Refusal :=
  if (s.session i.val).active then .next ((s.subscribeRemove i.val vs).emit (.object 0 [])) else .next s

/-- SUBSCRIBE_CLEAR (R407, R408). -/
def execSubscribeClear (i : Fin 16) (s : State) : Host.Outcome State Fault Refusal :=
  if (s.session i.val).active then .next ((s.subscribeClear i.val).emit (.object 0 [])) else .next s

/-- SUBSCRIPTION_LEASE_EXPIRE (R407): a leased subscription ends. -/
def execSubscriptionLeaseExpire (i : Fin 16) (v : Nat) (s : State) : Host.Outcome State Fault Refusal :=
  if (s.session i.val).leases.any fun p => p.1 = v then .next (s.subscribeRemove i.val [v]) else .next s

/-! ## Requests (R407) -/

/-- The payload and MORE of the reply to a READ. -/
def State.readReply (s : State) (pl : List Byte) : W32 × List Byte :=
  if pl.length < 8 then (abType, leBytes abType.toNat 4 ++ leBytes 0 4)
  else match s.odRead (leAt pl 0 2) (leAt pl 2 1) (leAt pl 4 4) with
    | .inl a => (a, leBytes a.toNat 4 ++ leBytes 0 4)
    | .inr (t, b) => (0, leBytes 0 4 ++ leBytes (odCode t) 4 ++ b)

/-- A WRITE whose payload is given, asked by a path. -/
def State.writeRequest (s : State) (p : Path) (how flags : Nat) (pl : List Byte) : State :=
  if pl.length < 8 then s.answerCode p how abType
  else s.odRequest p how (leAt pl 0 2) (leAt pl 2 1) (leAt pl 3 1) (leAt pl 4 4) (decide (flags / 8 % 2 = 1)) (pl.drop 8)

/-- The vectors of a SUBSCRIBE payload. -/
def subscribeVectors (pl : List Byte) : List Nat := (List.range (leAt pl 1 1)).map fun k => leAt pl (4 + 2 * k) 2

/-- A SUBSCRIBE of a session: its abort code and the state; a payload shorter than its count has the wrong length (R396). -/
def State.subscribeRequest (s : State) (i : Nat) (pl : List Byte) : W32 × State :=
  if pl.length < 4 + 2 * leAt pl 1 1 then (abType, s)
  else match leAt pl 0 1 with
  | 1 => s.subscribeAdd i (leAt pl 2 2) (subscribeVectors pl)
  | 2 => (0, s.subscribeRemove i (subscribeVectors pl))
  | 3 => (0, s.subscribeClear i)
  | _ => (abRange, s)

/-- A STORE asked by a frame; its program verification is a free value (DESIGN CHOICE, log entry 4). -/
def State.storeRequest (s : State) (p : Path) (how : Nat) : State :=
  match s.storeRefuse p with
  | some a => s.answerCode p how a
  | none => s.drawn.storeAsk p how (s.free.getLsbD 0)

/-- A frame that asks for nothing is discarded: a NOTIFY, a BULK (R407, R409). -/
def isRequest (type : Nat) : Bool := [1, 2, 3, 6].contains type

/-- A request of a session that R402 accepted, answered from a kept reply or applied. -/
def State.sessionRequest (s : State) (i : Fin 16) (h : FrameHdr) (pl : List Byte) : State :=
  let how := h.type * 65536 + h.reqId + 1
  if !isRequest h.type then s
  else match (s.session i.val).replies.find? fun r => decide (r.1 = h.reqId) with
  | some (_, t :: f :: p) => s.sessionSend i.val t.toNat f.toNat h.reqId p
  | _ =>
    match h.type with
    | 1 => let (a, p) := s.readReply pl; s.sessionReply i.val 1 (replyFlags a false) h.reqId p
    | 2 => s.writeRequest (.session i) how h.flags pl
    | 3 => let (a, s) := s.subscribeRequest i.val pl; s.answerCode (.session i) how a
    | 6 => s.storeRequest (.session i) how
    | _ => s

/-! ## Broadcasts (R403) -/

/-- A broadcast of a source with its number: tracked for the 1,024 sources heard last, or refused. -/
def State.broadcastSeq (s : State) (src seq : Nat) : Option State :=
  let old := match s.net.sources.find? fun x => decide (x.1 = src) with | some x => x.2 | none => (0, [])
  match seqAccept old.1 old.2 seq with
  | none => none
  | some (mx, seen) =>
    some { s with net := { s.net with sources := ((src, mx, seen) :: s.net.sources.filter fun x => decide (x.1 ≠ src)).take 1024 } }

/-- A verified broadcast WRITE: applied to OPERATOR entries, without a reply. -/
def State.broadcastApply (s : State) (idx sub ty : Nat) (data : List Byte) : State := (s.odWrite 1 idx sub ty 0 false data).2
def State.broadcastWrite (s : State) (src seq idx sub ty : Nat) (data : List Byte) : State :=
  match s.broadcastSeq src seq with
  | none => s.replayFail
  | some t => t.broadcastApply idx sub ty data

/-- BROADCAST_WRITE (R403). -/
def execBroadcastWrite (src : BitVec 16) (seq : W32) (idx : BitVec 16) (sub : Byte) (ty : Byte) (data : List Byte) (s : State) :
    Host.Outcome State Fault Refusal :=
  if s.yarfelOn then .next (s.broadcastWrite src.toNat seq.toNat idx.toNat sub.toNat ty.toNat data) else .next s

/-! ## Received frames (R401 to R403) -/

/-- A frame's form: version, type and length; bits and bytes that are zero are not looked at (R401). -/
def frameForm (l : List Byte) : Bool :=
  let h := frameHdr l
  decide (40 ≤ l.length) && decide (leAt l 0 1 = 1) && decide (h.type ≤ 6) && decide (h.len ≤ 1400) && decide (l.length = 40 + h.len)

/-- A frame of an open session of this device to another: the reply to a WRITE settles the zone that awaits it (R263, R406, R407). -/
def State.estateFrame (s : State) (ip : IpAddr) (e : EstateSt) (h : FrameHdr) (pl : List Byte) : State :=
  match seqAccept e.rxMax e.rxSeen h.seq with
  | none => s.replayFail
  | some (mx, seen) =>
    let s := (s.setEstate { e with rxMax := mx, rxSeen := seen }).learnPeer h.src ip
    if h.flags % 2 = 0 ∨ h.type ≠ 2 then s
    else match s.enabledZones.find? fun z => s.awaits z e.dev && decide ((s.zone z).remote.map RemoteSt.reqId = some h.reqId) with
      | some z => s.remoteAck z (BitVec.ofNat 32 (leAt pl 0 4))
      | none => s

/-- The open session of this device to another that a frame belongs to: its tag verifies under that session's key. -/
def State.estateOf (s : State) (h : FrameHdr) (body tag : List Byte) : Option EstateSt :=
  s.net.estate.find? fun e => e.opened && decide (e.dev = h.src ∧ e.sid.toNat = h.session ∧ tag = frameTag e.key body)

/-- A SESSION frame that names a session this device holds, challenged or open: its tag and number are judged as every frame's, and the
CONFIRM of a challenged session opens it (R402, R405). -/
def State.heldSessionFrame (s : State) (ip : IpAddr) (h : FrameHdr) (body tag pl : List Byte) : State :=
  match (List.range 16).find? fun i =>
    ((s.session i).challenged || (s.session i).active) && decide ((s.session i).sid.toNat = h.session) with
  | none => s.authFail
  | some i =>
    let x := s.session i
    if tag ≠ frameTag x.key body then s.authFail
    else match seqAccept x.rxMax x.rxSeen h.seq with
      | none => s.replayFail
      | some (mx, seen) =>
        let s := s.setSession i { x with rxMax := mx, rxSeen := seen }
        if x.challenged ∧ pl.length = 20 ∧ leAt pl 0 1 = 3 then s.sessionConfirm i ip true else s.learnPeer h.src ip

/-- A SESSION frame: an OPEN with its 16 zero bytes, the CHALLENGE that answers this device's OPEN, or a frame of a session this device
holds (R405). -/
def State.sessionFrame (s : State) (ip : IpAddr) (h : FrameHdr) (body tag pl : List Byte) : State :=
  let step := if pl.length = 20 then leAt pl 0 1 else 0
  if h.session = 0 then
    if tag ≠ List.replicate 16 0 then s.authFail
    else if step = 1 then s.sessionOpen ip h.src (leAt pl 1 1) (pl.drop 4)
    else s
  else match s.estateOf h body tag with
    | some e => s.estateFrame ip e h pl
    | none => if step = 2 then s.estateChallenge ip h body tag (pl.drop 4) else s.heldSessionFrame ip h body tag pl

/-- A broadcast frame under the estate key: every one that verifies is numbered, and a WRITE without an offset is applied (R402, R403). -/
def State.broadcastFrame (s : State) (ip : IpAddr) (h : FrameHdr) (body tag pl : List Byte) : State :=
  if tag ≠ frameTag (s.roleKey true 0) body then s.authFail
  else match (s.learnPeer h.src ip).broadcastSeq h.src h.seq with
    | none => (s.learnPeer h.src ip).replayFail
    | some t =>
      if h.type ≠ 2 ∨ h.session ≠ 2 ^ 32 - 1 ∨ pl.length < 8 ∨ leAt pl 4 4 ≠ 0 then t
      else t.broadcastApply (leAt pl 0 2) (leAt pl 2 1) (leAt pl 3 1) (pl.drop 8)

/-- A frame of an open session: of one this device opened, or of one it holds. -/
def State.openFrame (s : State) (ip : IpAddr) (h : FrameHdr) (body tag pl : List Byte) : State :=
  match s.estateOf h body tag with
  | some e => s.estateFrame ip e h pl
  | none =>
  match (List.finRange 16).find? fun i => (s.session i.val).active && decide ((s.session i.val).sid.toNat = h.session) with
  | none => s.authFail
  | some i =>
    let x := s.session i.val
    if tag ≠ frameTag x.key body then s.authFail
    else match seqAccept x.rxMax x.rxSeen h.seq with
      | none => s.replayFail
      | some (mx, seen) =>
        let s := (s.setSession i.val { x with rxMax := mx, rxSeen := seen }).learnPeer h.src ip
        if h.flags % 2 = 1 then s else s.sessionRequest i h pl

/-- A datagram received from an IP address. -/
def State.yarfelFrame (s : State) (ip : IpAddr) (l : List Byte) : State :=
  let h := frameHdr l
  let body := l.take (24 + h.len)
  let tag := l.drop (24 + h.len)
  let pl := body.drop 24
  if !frameForm l then s
  else if h.flags / 2 % 2 = 1 then s.broadcastFrame ip h body tag pl
  else if h.dst ≠ s.devAddr then s
  else if h.type = 0 then s.sessionFrame ip h body tag pl
  else s.openFrame ip h body tag pl

/-- YARFEL_FRAME_RX (R401 to R407). -/
def execYarfelFrameRx (ip : IpAddr) (bytes : List Byte) (s : State) : Host.Outcome State Fault Refusal :=
  if s.yarfelOn then .next (s.yarfelFrame ip bytes) else .next s

/-! ## The local window (R420) -/

/-- The request in LOCAL_BUF is run. -/
def State.localRun (s : State) : State :=
  let l := s.localRequest
  let h := frameHdr l
  let pl := (l.drop 24).take h.len
  let how := h.type * 65536 + h.reqId + 1
  let s := { s with net := { s.net with localBusy := true, localHdr := l.take 24 } }
  if l.length < 24 ∨ leAt l 0 1 ≠ 1 ∨ 6 < h.type ∨ h.flags % 2 = 1 ∨ 1400 < h.len ∨ l.length < 24 + h.len then s.localReply 0 []
  else match h.type with
    | 1 => let (a, p) := s.readReply pl; s.localReply (replyFlags a false) p
    | 2 => s.writeRequest .local how h.flags pl
    | 3 => s.answerCode .local how abState
    | 5 => s.answerCode .local how abState
    | 6 => s.storeRequest .local how
    | _ => s.localReply 0 []

/-- A write of LOCAL_GO; refused while a request runs. -/
def State.localGo (s : State) (q : Req) : State :=
  if s.net.localBusy then s.err netBase .busy 0x24 q else s.localRun

/-- LOCAL_GO (R420). -/
def execLocalGo (q : Req) (s : State) : Host.Outcome State Fault Refusal := .next (if s.shut then s else s.localGo q)

/-! ## Ethernet ports (R419) -/

/-- An answer leaves a port. -/
def State.ethSend (s : State) (n : Nat) (mac : BitVec 48) (k : EthKind) : State :=
  (s.emit (.eth n (s.portVid n) mac k)).count (Reg.netPortTxFrames n) 1

/-- The answer of a port to a frame: to a question for an address of its own (R419). -/
def State.ethAnswer (s : State) (n : Nat) : EthKind → Option EthKind
  | .arpRequest sender target => if s.ownIp n (.v4 target) then some (.arpReply target sender) else none
  | .solicit sender target => if s.ownIp n (.v6 target) then some (.advertise target sender) else none
  | .echoRequest src dst data => if s.ownIp n dst then some (.echoReply dst src data) else none
  | _ => none

/-- ETHERNET_FRAME_RX (R419): too long or to an unused UDP port, dropped; ARP, NDP and ICMP echo are answered. The datagrams of
ports 319, 320 and 50170 reach PTP and Yarfel by their own commands, of which PTP's counts its frame itself (DEDUCED, log entry 18). -/
def execEthernetFrameRx (n : Port2) (f : EthFrame) (s : State) : Host.Outcome State Fault Refusal :=
  if !s.portUp n.val then .next s
  else if !f.fcsOk then .next (s.count (Reg.netPortFcsErr n.val) 1)
  else if 1522 < f.len then .next (s.count (Reg.netPortRxDrop n.val) 1)
  else
    let t := s.count (Reg.netPortRxFrames n.val) 1
    match f.kind with
    | .udp p => .next (if p = 319 ∨ p = 320 then s else if p = 50170 then t else t.count (Reg.netPortRxDrop n.val) 1)
    | k => .next (match t.ethAnswer n.val k with | some a => t.ethSend n.val f.mac a | none => t)

end Sys2Proof.Machine
end

