-- ==== Sys2Proof/Machine/Ptp.lean ====
section
/-!
DEFINITION. PTP (R109, R410 to R412): the ports, the best master clock algorithm, the messages and the servo. The forms of messages,
the data set comparison and the portState codes are those of IEEE 1588-2019, to which R410 refers (PRESUMED, log entry 19).
-/
namespace Sys2Proof.Machine

/-- PTP runs on a port: it is enabled and the port's link is up (R410, R421). -/
def State.ptpOn (s : State) (n : Nat) : Bool := s.rbit Reg.netCtrl 1 && s.portUp n

/-- Setting sub-index k of 0x2010 in force at a port. -/
def PtpSt.set (x : PtpSt) (k : Nat) : Nat := nth x.cfg (k - 1) 0

/-- Settings 1 to 11 of 0x2010 as written. -/
def State.ptpSettings (s : State) : List Nat := (List.range 11).map fun k => s.odv 0x2010 (k + 1)

/-- The clock identity: the first port's MAC address as an EUI-64, and with a port number the port identity (PRESUMED, log entry 19). -/
def State.clockId (s : State) : List Byte :=
  let m := beBytes 6 (s.fld (Reg.netPortMacHi 0) 15 0 * 2 ^ 32 + (s.reg (Reg.netPortMacLo 0)).toNat)
  m.take 3 ++ [0xFF, 0xFE] ++ m.drop 3
def State.portId (s : State) (n : Nat) : List Byte := s.clockId ++ beBytes 2 (n + 1)

/-- A port enters a state: leaving SLAVE clears SYNCED, and FAULTY sets NET.FAULT.PTP (R411, R421). -/
def State.ptpEnter (s : State) (n st : Nat) (parent : Option (List Byte)) : State :=
  let x := s.ptp n
  if x.state = st ∧ x.parent = parent then s
  else
    let keep := followsMaster x.state && followsMaster st && decide (x.parent = parent)
    let y : PtpSt := if keep then { x with state := st }
      else { x with state := st, parent := parent, syncRx := none, delayTx := none, delay := 0, ms := 0, pd := none, inLock := 0,
                    outLock := 0, sum := 0 }
    let s' := s.setPtp n y
    let s' := if x.state = pSlave ∧ st ≠ pSlave then s'.setSynced false else s'
    let s' := if st = pFaulty ∧ x.state ≠ pFaulty then s'.fault Reg.netFault 64 else s'
    s'.masterSynced

/-- After CTRL, a port's CFG or its link changes: a port that can run leaves INITIALIZING, FAULTY or DISABLED for LISTENING with the
settings as written; one whose link fails is FAULTY; one that PTP_EN or EN stops is DISABLED. -/
def State.ptpFollow (s : State) (n : Nat) : State :=
  let x := s.ptp n
  if s.ptpOn n then
    if x.state ≤ pDisabled then
      (s.setPtp n { x with cfg := s.ptpSettings, foreign := [], heard := false }).ptpEnter n pListening none
    else s
  else if !s.rbit Reg.netCtrl 1 || !s.rbit (Reg.netPortCfg n) 0 then (if x.state = pInit then s else s.ptpEnter n pDisabled none)
  else if pListening ≤ x.state then s.ptpEnter n pFaulty none
  else s

/-! ## The best master clock algorithm (R410) -/

/-- What two data sets are compared by, in order: priority1, class, accuracy, variance, priority2, identity, steps removed. -/
def announceRank (r : List Byte) : List Nat :=
  let b := r.drop 10
  let at' (a n : Nat) : Nat := ofBeBytes ((b.drop a).take n)
  [at' 13 1, at' 14 1, at' 15 1, at' 16 2, at' 18 1, at' 19 8, at' 27 2, ofBeBytes (r.take 10)]

/-- The device's own data set (R410). -/
def State.ownRank (s : State) (n : Nat) : List Nat :=
  [(s.ptp n).set 2, 248, 0xFE, 0xFFFF, (s.ptp n).set 3, ofBeBytes s.clockId, 0, ofBeBytes (s.portId n)]

/-- The first list is less, position by position. -/
def rankLt : List Nat → List Nat → Bool
  | a :: as, b :: bs => decide (a < b) || (decide (a = b) && rankLt as bs)
  | _, _ => false

/-- The better of two announces. -/
def betterAnnounce (a : Option (List Byte)) (b : List Byte) : Option (List Byte) :=
  match a with
  | none => some b
  | some a => if rankLt (announceRank b) (announceRank a) then some b else some a

/-- The best announce of a port, of masters heard twice. -/
def PtpSt.best (x : PtpSt) : Option (List Byte) :=
  (x.foreign.filter fun r => 2 ≤ (x.foreign.filter fun q => q.take 10 = r.take 10).length).foldl betterAnnounce none

/-- The better of the best announces of two ports; the first stands among equals. -/
def bestOf (a b : Option (List Byte)) : List Byte :=
  match b with
  | some h => (betterAnnounce a h).getD []
  | none => a.getD []

/-- A port that would be master beside one that follows a master waits as PRE_MASTER, for one announce interval more than the steps to its
grandmaster (PRESUMED, log entry 19). -/
def State.ptpQualify (s : State) (n : Nat) (best : List Byte) : State :=
  let st := (s.ptp n).state
  if st = pMaster ∨ st = pPreMaster then s
  else
    let s := s.ptpEnter n pPreMaster none
    s.setPtp n { s.ptp n with qual := nth (announceRank best) 6 0 + 2 }

/-- An announce interval of a PRE_MASTER port passes. -/
def State.ptpQualified (s : State) (n : Nat) : State :=
  let x := s.ptp n
  if x.state ≠ pPreMaster then s
  else if x.qual ≤ 1 then s.ptpEnter n pMaster none
  else s.setPtp n { x with qual := x.qual - 1 }

/-- The state decision of a port, over both ports' best. -/
def State.ptpDecide (s : State) (n : Nat) : State :=
  let x := s.ptp n
  if !s.ptpOn n ∨ x.state < pListening then s
  else
    let here := x.best
    let there := if s.ptpOn (1 - n) then (s.ptp (1 - n)).best else none
    match here, there with
    | none, none => if x.state = pListening then s else s.ptpEnter n pMaster none
    | _, _ =>
      let best := bestOf there here
      if !rankLt (announceRank best) (s.ownRank n) then s.ptpEnter n pMaster none
      else if here = some best then
        s.ptpEnter n (if x.state = pSlave ∧ x.parent = some (best.take 10) then pSlave else pUncalibrated) (some (best.take 10))
      else match here with
        | some h => if (announceRank h).take 6 = (announceRank best).take 6 then s.ptpEnter n pPassive none else s.ptpQualify n best
        | none => if x.state = pListening then s else s.ptpQualify n best

/-! ## Sending (R109, R410) -/

/-- A time stamp as messages carry it: 6 bytes of seconds and 4 of nanoseconds, most significant first (PRESUMED, log entry 19). -/
def ptpStamp (t : W72) : List Byte := beBytes 6 (field t 71 40) ++ beBytes 4 (field t 39 10)

/-- A PTP message leaves a port, stamped. -/
def State.ptpSend (s : State) (n kind : Nat) (body : List Byte) : State :=
  (s.emit (.ptp n (s.portVid n) kind body s.stamp)).count (Reg.netPortTxFrames n) 1

/-- A message of kind k with the next number of its sequence. -/
def State.ptpNumbered (s : State) (n k kind : Nat) (body : List Byte) : State :=
  let x := s.ptp n
  let q := nth x.seqNos k 0
  (s.setPtp n { x with seqNos := setNth x.seqNos k ((q + 1) % 65536) }).ptpSend n kind (s.portId n ++ beBytes 2 q ++ body)

/-- The Announce of the master that the other port of a boundary clock follows, if it follows one (R410). -/
def State.parentAnnounce (s : State) (n : Nat) : Option (List Byte) :=
  let y := s.ptp (1 - n)
  if followsMaster y.state then y.foreign.find? fun r => decide (y.parent = some (r.take 10)) else none

/-- The body of the Announce a port sends: the grandmaster of the master the other port follows, one step further on, or the device's own
data set, timeSource 0xA0 (R410, PRESUMED, log entry 19). -/
def State.announceBody (s : State) (n : Nat) : List Byte :=
  let x := s.ptp n
  match s.parentAnnounce n with
  | some r =>
    let b := r.drop 10
    List.replicate 10 0 ++ (b.drop 10).take 17 ++ beBytes 2 (ofBeBytes ((b.drop 27).take 2) + 1) ++ (b.drop 29).take 1
  | none => List.replicate 13 0 ++ beBytes 1 (x.set 2) ++ [248, 0xFE, 0xFF, 0xFF] ++ beBytes 1 (x.set 3) ++ s.clockId ++ beBytes 2 0 ++ [0xA0]

/-- PTP_ANNOUNCE_INTERVAL (R410, R412): settings take effect, the port's state is decided, and a master announces. -/
def execPtpAnnounceInterval (n : Port2) (s : State) : Host.Outcome State Fault Refusal :=
  if !s.ptpOn n.val then .next s
  else
    let s := s.setPtp n.val { s.ptp n.val with cfg := s.ptpSettings }
    let s := ((s.ptpQualified n.val).ptpDecide n.val).masterSynced
    if (s.ptp n.val).state = pMaster then .next (s.ptpNumbered n.val 0 0xB (s.announceBody n.val)) else .next s

/-- PTP_ANNOUNCE_TIMEOUT (R410): no Announce has come; the masters heard are forgotten and a listening or following port takes over. -/
def execPtpAnnounceTimeout (n : Port2) (s : State) : Host.Outcome State Fault Refusal :=
  if !s.ptpOn n.val ∨ (s.ptp n.val).state < pListening then .next s
  else
    let s := s.setPtp n.val { s.ptp n.val with foreign := [], heard := false }
    if (s.ptp n.val).state = pListening then .next (s.ptpEnter n.val pMaster none) else .next (s.ptpDecide n.val)

/-- PTP_SYNC_INTERVAL (R410): a master sends Sync and Follow_Up. -/
def execPtpSyncInterval (n : Port2) (s : State) : Host.Outcome State Fault Refusal :=
  if !s.ptpOn n.val ∨ (s.ptp n.val).state ≠ pMaster then .next s
  else
    let q := nth (s.ptp n.val).seqNos 1 0
    let s := s.ptpNumbered n.val 1 0 []
    .next (s.ptpSend n.val 8 (s.portId n.val ++ beBytes 2 q ++ ptpStamp s.stamp))

/-- DELAY_REQ_INTERVAL (R410): a following port asks its master for the delay, or any port its peer. -/
def execDelayReqInterval (n : Port2) (s : State) : Host.Outcome State Fault Refusal :=
  let x := s.ptp n.val
  if !s.ptpOn n.val then .next s
  else if x.set 4 = 2 then
    if pListening ≤ x.state then
      .next ((s.setPtp n.val { x with delayTx := some s.time.now, pd := none }).ptpNumbered n.val 2 2 [])
    else .next s
  else if followsMaster x.state then .next ((s.setPtp n.val { x with delayTx := some s.time.now }).ptpNumbered n.val 2 1 [])
  else .next s

/-! ## The servo (R411) -/

/-- The servo adds an offset to its sum and writes RATE: what its proportional and integral terms come to, within R107; the scale from those
terms to RATE is a free value (R411, DESIGN CHOICE, log entry 4). -/
def State.servoRate (s : State) (n : Nat) (off : Int) : State :=
  let x := s.ptp n
  let sum := x.sum + off
  let r := Config.servoScale ((x.set 11 / 65536 : Nat) * off + (x.set 11 % 65536 : Nat) * sum)
  (s.setPtp n { x with sum := sum }).setReg Reg.timeRate (toW 32 (max (-8589935) (min 8589935 r)))

/-- An offset measured in SLAVE, in units of 2^-32 ns (R411). -/
def State.servo (s : State) (n : Nat) (off : Int) : State :=
  let x := s.ptp n
  let ns := 2 ^ 32
  let lock := x.set 10 * ns
  if x.set 9 * ns < off.natAbs ∧ s.rbit Reg.timeSrcPolicy 2 then
    ((s.timeStep (toW 72 (-(off / 2 ^ 22)))).setSynced false).setPtp n { x with inLock := 0, outLock := 0, sum := 0 }
  else
    let s := s.servoRate n off
    let x := s.ptp n
    let i := if off.natAbs ≤ lock then x.inLock + 1 else 0
    let o := if 10 * lock < off.natAbs then x.outLock + 1 else 0
    let s := s.setPtp n { x with inLock := i, outLock := o }
    if 3 ≤ o then s.setSynced false else if 16 ≤ i then s.setSynced true else s

/-- A difference of receive and origin time of a Sync is known. -/
def State.ptpSynced (s : State) (n : Nat) (ms : Int) : State :=
  let x := s.ptp n
  let s := s.setPtp n { x with ms := ms }
  if x.state = pSlave then s.servo n (ms - x.delay) else s

/-- A delay is known: the first one makes UNCALIBRATED a SLAVE. -/
def State.ptpDelayed (s : State) (n : Nat) (d : Int) : State :=
  let x := s.ptp n
  let s := s.setPtp n { x with delay := d, delayTx := none, pd := none }
  if x.state = pUncalibrated then s.ptpEnter n pSlave x.parent else s

/-! ## Receiving (R410, R411) -/

/-- A correction field in units of 2^-16 ns as units of local time. -/
def correction (m : PtpMsg) : Int := m.correction * 2 ^ 16

/-- A message accepted on a port; an event message is stamped with local time (R109). -/
def State.ptpTake (s : State) (n : Nat) (m : PtpMsg) : State :=
  let x := s.ptp n
  let mine := decide (x.parent = some m.source)
  match m.kind.toNat with
  | 0xB => s.setPtp n { x with heard := true, foreign := ((m.source ++ m.body) :: x.foreign).take 10 }
  | 0 => if mine && followsMaster x.state then s.setPtp n { x with syncRx := some (m.seqId.toNat, s.time.now) } else s
  | 8 =>
    match x.syncRx with
    | some (q, rx) =>
      if mine && decide (q = m.seqId.toNat) then
        (s.setPtp n { x with syncRx := none }).ptpSynced n ((rx : Int) - m.stamp - correction m)
      else s
    | none => s
  | 9 =>
    match x.delayTx with
    | some t3 => if mine && x.set 4 ≠ 2 then s.ptpDelayed n ((x.ms + ((m.stamp : Int) - t3 - correction m)) / 2) else s
    | none => s
  | 1 =>
    if x.state = pMaster ∧ x.set 4 ≠ 2 then s.ptpSend n 9 (s.portId n ++ beBytes 2 m.seqId.toNat ++ ptpStamp s.stamp ++ m.source) else s
  | 2 =>
    if x.set 4 = 2 then
      (s.ptpSend n 3 (s.portId n ++ beBytes 2 m.seqId.toNat ++ ptpStamp s.stamp ++ m.source)).ptpSend n 0xA
        (s.portId n ++ beBytes 2 m.seqId.toNat ++ ptpStamp s.stamp ++ m.source)
    else s
  | 3 => if x.delayTx.isSome then s.setPtp n { x with pd := some (m.stamp, s.time.now) } else s
  | 0xA =>
    match x.delayTx, x.pd with
    | some t1, some (t2, t4) => s.ptpDelayed n ((((t4 : Int) - t1) - ((m.stamp : Int) - t2) - correction m) / 2)
    | _, _ => s
  | _ => s

/-- PTP_MESSAGE_RX (R410, R411): a message of the device's domain, received by a port that runs. -/
def execPtpMessageRx (n : Port2) (m : PtpMsg) (s : State) : Host.Outcome State Fault Refusal :=
  if !s.portUp n.val then .next s
  else
    let s := s.count (Reg.netPortRxFrames n.val) 1
    if s.ptpOn n.val ∧ pListening ≤ (s.ptp n.val).state ∧ m.domain.toNat = (s.ptp n.val).set 1 then .next (s.ptpTake n.val m) else .next s

/-! ## Links (R419, R421) -/

/-- LINK_LOSS (R419): the port's status falls and FAULT.LINK_LOSS sets; a PTP port on it is FAULTY. -/
def execLinkLoss (n : Port2) (s : State) : Host.Outcome State Fault Refusal :=
  if s.fld (Reg.netPortStatus n.val) 2 0 = 0 then .next s
  else .next (((s.setReg (Reg.netPortStatus n.val) 0).fault Reg.netFault (2 ^ n.val)).ptpFollow n.val)

/-- LINK_UP (R419): PCS lock, and LINK once auto-negotiation, where enabled on 1000BASE-X, is done. -/
def execLinkUp (n : Port2) (anDone : Bool) (s : State) : Host.Outcome State Fault Refusal :=
  let cfg := Reg.netPortCfg n.val
  if !s.rbit cfg 0 ∨ s.shut then .next s
  else
    let an := s.rbit cfg 3 && decide (s.fld cfg 2 1 = 1)
    .next ((s.setReg (Reg.netPortStatus n.val)
      (BitVec.ofNat 32 (4 + b2n (an && anDone) * 2 + b2n (!an || anDone)))).ptpFollow n.val)

/-! ## Writes of the NET registers -/

/-- Whether a write that leaves v in a NET register is refused, beyond the ranges of its fields (R421). -/
def netCheck (s : State) (off : Nat) (v : W32) : Option Cause :=
  if off = 0x100 ∨ off = 0x140 then
    let old := s.reg (netBase + off)
    if bitOf old 0 ∧ old >>> 1 ≠ v >>> 1 then some .busy else none
  else none

/-- What a write of a NET register does besides (R410, R419, R421). -/
def netEffect (s : State) (off : Nat) (old v : W32) (q : Req) : State :=
  match off with
  | 0 => (s.ptpFollow 0).ptpFollow 1
  | 0x24 => if bitOf v 0 then s.localGo q else s
  | _ =>
    if (off = 0x100 ∨ off = 0x140) ∧ bitOf old 0 ∧ !bitOf v 0 then
      let n := (off - 0x100) / 0x40
      (s.setReg (Reg.netPortStatus n) 0).ptpFollow n
    else s

end Sys2Proof.Machine
end

