-- ==== Sys2Proof/Machine/Can.lean ====
section
/-!
DEFINITION. The CAN ports (R413 to R418, R422): network management, SDO, PDOs, heartbeats and the receive queues. The layout of SDO
and NMT frames is that of CiA 301, to which R414 refers (PRESUMED, log entry 19).
-/
namespace Sys2Proof.Machine

/-- The block base of CAN. -/
def canBase : Nat := 0xF0000

/-- The node identifier of a port, and its NMT state. -/
def State.canNodeId (s : State) (c : Nat) : Nat := s.fld (Reg.canNode c) 6 0
def State.nmt (s : State) (c : Nat) : Nat := s.fld (Reg.canStatus c) 15 8

/-- A port takes part in its bus: enabled and not bus-off (R422). -/
def State.canOn (s : State) (c : Nat) : Bool :=
  s.rbit (Reg.canCfg c) 0 && decide (s.fld (Reg.canStatus c) 1 0 ≠ 2) && !s.shut

/-- Set the NMT state of a port. -/
def State.setNmt (s : State) (c x : Nat) : State := s.setFld (Reg.canStatus c) 15 8 x

/-- A frame leaves a port; an FD frame switches its bit rate where CFG.BRS is 1 (R413, R422). -/
def State.canSend (s : State) (c id : Nat) (fd : Bool) (bytes : List Byte) : State :=
  if s.canOn c then (s.emit (.can c id fd (fd && s.rbit (Reg.canCfg c) 2) bytes)).count (Reg.canTxCnt c) 1 else s

/-! ## Network management (R414) -/

/-- Communication starts: SDO, PDO and heartbeat state cleared, the boot-up frame sent, pre-operational (R414). -/
def State.canBoot (s : State) (c : Nat) : State :=
  let s := s.setCan c { s.can c with sdo := none, heard := [], lost := [] }
  let s := forEach (List.range 8) (fun t u => u.setTpdo (8 * c + t) {}) s
  ((s.setNmt c 0).canSend c (0x700 + s.canNodeId c) false [0]).setNmt c 0x7F

/-- An NMT frame with a command byte for a node; 0 addresses every node, and 0x81 acts as 0x82 (R414). -/
def State.nmtCommand (s : State) (c cmd node : Nat) : State :=
  if !s.canOn c then s
  else
    let s := s.count (Reg.canRxCnt c) 1
    if node ≠ 0 ∧ node ≠ s.canNodeId c then s
    else match cmd with
      | 1 => s.setNmt c 5
      | 2 => s.setNmt c 4
      | 0x80 => s.setNmt c 0x7F
      | 0x81 => s.canBoot c
      | 0x82 => s.canBoot c
      | _ => s

/-- NMT_START (R414). -/
def execNmtStart (c : Port2) (node : Byte) (s : State) : Host.Outcome State Fault Refusal := .next (s.nmtCommand c.val 1 node.toNat)

/-- NMT_STOP (R414). -/
def execNmtStop (c : Port2) (node : Byte) (s : State) : Host.Outcome State Fault Refusal := .next (s.nmtCommand c.val 2 node.toNat)

/-- NMT_PRE_OPERATIONAL (R414). -/
def execNmtPreOperational (c : Port2) (node : Byte) (s : State) : Host.Outcome State Fault Refusal :=
  .next (s.nmtCommand c.val 0x80 node.toNat)

/-- NMT_RESET_COMMUNICATION (R414). -/
def execNmtResetCommunication (c : Port2) (node : Byte) (s : State) : Host.Outcome State Fault Refusal :=
  .next (s.nmtCommand c.val 0x82 node.toNat)

/-! ## Heartbeats (R414) -/

/-- HEARTBEAT_PRODUCE (R414): the producer time of 0x1017 has passed. -/
def execHeartbeatProduce (c : Port2) (s : State) : Host.Outcome State Fault Refusal :=
  if s.odv 0x1017 0 ≠ 0 ∧ s.nmt c.val ≠ 0 then
    .next (s.canSend c.val (0x700 + s.canNodeId c.val) false [BitVec.ofNat 8 (s.nmt c.val)])
  else .next s

/-- A node is consumed (R400, entry 0x1016). -/
def State.consumes (s : State) (node : Nat) : Bool :=
  (List.range 4).any fun k =>
    let v := s.odv 0x1016 (k + 1)
    decide (v / 65536 % 128 = node) && decide (v % 65536 ≠ 0)

/-- A heartbeat of a consumed node is heard. -/
def State.heartbeat (s : State) (c node : Nat) : State :=
  let x := s.can c
  s.setCan c { x with heard := if x.heard.contains node then x.heard else node :: x.heard, lost := x.lost.filter (· ≠ node) }

/-- HEARTBEAT_LOSS (R414): no heartbeat of a consumed node has come within its time. -/
def execHeartbeatLoss (c : Port2) (node : BitVec 7) (s : State) : Host.Outcome State Fault Refusal :=
  let x := s.can c.val
  if !s.canOn c.val ∨ !s.consumes node.toNat ∨ !x.heard.contains node.toNat ∨ x.lost.contains node.toNat then .next s
  else
    let s := s.setCan c.val { x with lost := node.toNat :: x.lost }
    if s.rbit Reg.canFault (2 + c.val) then .next (s.event 235) else .next (s.fault Reg.canFault (4 * 2 ^ c.val))

/-! ## SDO (R414, R415) -/

/-- An SDO response leaves a port. -/
def State.sdoSend (s : State) (c : Nat) (b : List Byte) : State :=
  s.canSend c (0x580 + s.canNodeId c) false ((b ++ List.replicate 8 0).take 8)

/-- An SDO abort. -/
def State.sdoAbort (s : State) (c idx sub : Nat) (code : W32) : State :=
  (s.setCan c { s.can c with sdo := none }).sdoSend c ([0x80] ++ leBytes idx 2 ++ leBytes sub 1 ++ leBytes code.toNat 4)

/-- A download that is complete: the write of an entry in the type it has, with the port's role, and the response b (R415). -/
def State.sdoWrite (s : State) (c idx sub : Nat) (data b : List Byte) : State :=
  let ty := match odRow idx sub with | some r => odCode r.type | none => 0
  let x := s.odWrite (s.fld (Reg.canCfg c) 18 16) idx sub ty 0 false data
  if x.1 = 0 then (x.2.setCan c { x.2.can c with sdo := none }).sdoSend c b else x.2.sdoAbort c idx sub x.1

/-- The bytes of an expedited download: as many as the command says, or the length of the entry where it says none. -/
def sdoData (idx sub cmd : Nat) (l : List Byte) : List Byte :=
  let n := if cmd % 2 = 1 then 4 - cmd / 4 % 4
    else match odRow idx sub with | some r => odBytesOf r.type | none => 4
  (l.drop 4).take n

/-- Initiate an upload. -/
def State.sdoUpload (s : State) (c idx sub : Nat) : State :=
  match s.odRead idx sub 0 with
  | .inl a => s.sdoAbort c idx sub a
  | .inr (_, b) =>
    let head := leBytes idx 2 ++ leBytes sub 1
    if b.length ≤ 4 ∧ b ≠ [] then
      (s.setCan c { s.can c with sdo := none }).sdoSend c ([BitVec.ofNat 8 (0x43 + (4 - b.length) * 4)] ++ head ++ b)
    else
      (s.setCan c { s.can c with sdo := some { idx := idx, sub := sub, upload := true, bytes := b } }).sdoSend c
        ([0x41] ++ head ++ leBytes b.length 4)

/-- A segment of an upload. -/
def State.sdoUploadSegment (s : State) (c : Nat) (x : SdoSt) : State :=
  let part := (x.bytes.drop x.ofs).take 7
  let last := decide (x.bytes.length ≤ x.ofs + 7)
  let b := b2n x.toggle * 16 + (7 - part.length) * 2 + b2n last
  (s.setCan c { s.can c with sdo := if last then none else some { x with toggle := !x.toggle, ofs := x.ofs + 7 } }).sdoSend c
    ([BitVec.ofNat 8 b] ++ part)

/-- A segment of a download. -/
def State.sdoDownloadSegment (s : State) (c cmd : Nat) (x : SdoSt) (l : List Byte) : State :=
  let data := x.bytes ++ (l.drop 1).take (7 - cmd / 2 % 8)
  let b : List Byte := [BitVec.ofNat 8 (0x20 + b2n x.toggle * 16)]
  if cmd % 2 = 1 then s.sdoWrite c x.idx x.sub data b
  else (s.setCan c { s.can c with sdo := some { x with toggle := !x.toggle, bytes := data } }).sdoSend c b

/-- An SDO request frame (R414). -/
def State.sdoRequest (s : State) (c : Nat) (l : List Byte) : State :=
  let cmd := leAt l 0 1
  let idx := leAt l 1 2
  let sub := leAt l 3 1
  let t := decide (cmd / 16 % 2 = 1)
  match cmd / 32, (s.can c).sdo with
  | 1, _ =>
    if cmd / 2 % 2 = 1 then s.sdoWrite c idx sub (sdoData idx sub cmd l) ([0x60] ++ leBytes idx 2 ++ leBytes sub 1)
    else (s.setCan c { s.can c with sdo := some { idx := idx, sub := sub, upload := false } }).sdoSend c
      ([0x60] ++ leBytes idx 2 ++ leBytes sub 1)
  | 2, _ => s.sdoUpload c idx sub
  | 0, some x => if x.upload || x.toggle != t then s.sdoAbort c x.idx x.sub abCommand else s.sdoDownloadSegment c cmd x l
  | 3, some x => if !x.upload || x.toggle != t then s.sdoAbort c x.idx x.sub abCommand else s.sdoUploadSegment c x
  | 4, _ => s.setCan c { s.can c with sdo := none }
  | _, _ => s.sdoAbort c idx sub abCommand

/-- SDO is served: in the operational and pre-operational states. -/
def State.sdoServed (s : State) (c : Nat) : Bool := s.canOn c && (decide (s.nmt c = 5) || decide (s.nmt c = 0x7F))

/-- SDO_REQUEST (R414): a frame of 8 bytes for the port's SDO server. -/
def execSdoRequest (c : Port2) (data : List Byte) (s : State) : Host.Outcome State Fault Refusal :=
  if !s.canOn c.val then .next s
  else
    let s := s.count (Reg.canRxCnt c.val) 1
    if s.sdoServed c.val ∧ data.length = 8 then .next (s.sdoRequest c.val data) else .next s

/-! ## PDOs (R416, R417) -/

/-- The entries a mapping holds: index, sub-index and bytes. -/
def State.mapping (s : State) (idx : Nat) : List (Nat × Nat × Nat) :=
  (List.range (s.odv idx 0)).map fun i =>
    let v := s.odv idx (i + 1)
    (v / 65536, v / 256 % 256, v % 256 / 8)

/-- The smallest data length of an FD frame that holds n bytes. -/
def fdLength (n : Nat) : Nat := if n ≤ 8 then n else ([12, 16, 20, 24, 32, 48, 64].find? fun k => decide (n ≤ k)).getD 64

/-- The bytes a TPDO carries now. -/
def State.tpdoBytes (s : State) (c t : Nat) : List Byte :=
  let b := (s.mapping (0x1A00 + 8 * c + t)).flatMap fun m => leBytes (s.odNum m.1 m.2.1) m.2.2
  if s.rbit (Reg.canCfg c) 1 then b ++ List.replicate (fdLength b.length - b.length) 0 else b

/-- The inhibit time of a TPDO has passed since it was last sent. -/
def State.inhibitOver (s : State) (c t : Nat) : Bool :=
  match (s.tpdo (8 * c + t)).sentAt with
  | none => true
  | some a => decide (s.odv (0x1800 + 8 * c + t) 3 * 10000 ≤ s.time.up - a)

/-- TPDO_TRANSMIT (R416): a TPDO asked for enters the controller, with the values of that moment. -/
def execTpdoTransmit (c : Port2) (t : Fin 8) (s : State) : Host.Outcome State Fault Refusal :=
  let k := 8 * c.val + t.val
  if (s.tpdo k).asked ∧ s.canOn c.val ∧ s.canOperational c.val ∧ s.tpdoCob c.val t.val < 2 ^ 31 ∧ s.inhibitOver c.val t.val then
    .next ((s.setTpdo k { asked := false, sentAt := some s.time.up }).canSend c.val (s.tpdoCob c.val t.val % 2048)
      (s.rbit (Reg.canCfg c.val) 1) (s.tpdoBytes c.val t.val))
  else .next s

/-- TPDO_EVENT_TIMER (R416): the event timer of a TPDO expires, which asks for it. -/
def execTpdoEventTimer (c : Port2) (t : Fin 8) (s : State) : Host.Outcome State Fault Refusal :=
  if s.odv (0x1800 + 8 * c.val + t.val) 5 = 0 then .next s else .next ((s.tpdoAsk c.val t.val).getD s)

/-- Bytes written to the entries of a mapping, in order, with the port's role (R415). -/
def State.rpdoWrite : List (Nat × Nat × Nat) → Nat → List Byte → State → State
  | [], _, _, s => s
  | (idx, sub, n) :: rest, c, l, s =>
    let ty := match odRow idx sub with | some r => odCode r.type | none => 0
    State.rpdoWrite rest c (l.drop n) (s.odWrite (s.fld (Reg.canCfg c) 18 16) idx sub ty 0 false (l.take n)).2

/-- An RPDO received in the operational state (R415, R417). -/
def State.rpdo (s : State) (c r : Nat) (data : List Byte) : State :=
  let m := s.mapping (0x1600 + 4 * c + r)
  if data.length < m.foldl (fun n e => n + e.2.2) 0 then s.fault Reg.canFault (64 * 2 ^ c) else State.rpdoWrite m c data s

/-- An RPDO is applied: operational and its COB-ID valid (R414). -/
def State.rpdoOn (s : State) (c r : Nat) : Bool :=
  s.canOn c && s.canOperational c && decide (s.odNum (0x1400 + 4 * c + r) 1 < 2 ^ 31)

/-! ## The receive queue (R418) -/

/-- A filter of a port matches a frame. -/
def State.filterMatch (s : State) (c : Nat) (f : CanFrame) : Bool :=
  (List.range 8).any fun k =>
    let fid := s.reg (Reg.canFid0 k + 0x80 * c)
    let mask := s.reg (Reg.canFmask0 k + 0x80 * c)
    bitOf fid 31 && (bitOf fid 30 == f.ext) &&
      decide ((BitVec.ofNat 32 f.id.toNat ^^^ BitVec.ofNat 32 (field fid 28 0)) &&& mask = 0)

/-- The 16 words of an entry. -/
def canEntry (f : CanFrame) (stamp : W72) : List W72 :=
  let word (k : Nat) : W72 := BitVec.ofNat 72 (ofLeBytes ((f.data.drop (9 * k)).take 9))
  [BitVec.ofNat 72 (f.data.length % 128 * 2 ^ 32 + b2n f.brs * 2 ^ 31 + b2n f.fd * 2 ^ 30 + b2n f.ext * 2 ^ 29 + f.id.toNat), stamp]
    ++ (List.range 8).map word ++ List.replicate 6 0

/-- A frame enters the queue and its ring, or finds it full. -/
def State.canQueue (s : State) (c : Nat) (f : CanFrame) : State :=
  let level := s.fld (Reg.canRxqLevel c) 6 0
  if 64 ≤ level then (s.count (Reg.canLostCnt c) 1).fault Reg.canFault (16 * 2 ^ c)
  else
    let x := s.can c
    let ring := s.fld (Reg.canRingLen c) 15 0 * 256
    let a := s.fld (Reg.canRingBase c) 27 0 * 256 + x.written * 16 % ring
    let s := if ring = 0 then s else State.dramWriteMany (canEntry f s.stamp) a s
    (s.setCan c { s.can c with written := x.written + 1 }).setReg (Reg.canRxqLevel c) (BitVec.ofNat 32 (level + 1))

/-- An 11-bit frame that a service of R414 consumes, and what that service does; none for the others. SDO, NMT and heartbeats come in
classical frames, a PDO in the format of CFG.FD (R413). -/
def State.canService (s : State) (c : Nat) (f : CanFrame) : Option State :=
  let id := f.id.toNat
  if f.ext || f.rtr then none
  else if id = 0 ∧ !f.fd then some (s.nmtCommand c (leAt f.data 0 1) (leAt f.data 1 1))
  else if id = 0x600 + s.canNodeId c ∧ !f.fd then
    some (let s := s.count (Reg.canRxCnt c) 1; if s.sdoServed c ∧ f.data.length = 8 then s.sdoRequest c f.data else s)
  else if 0x700 < id ∧ id < 0x780 ∧ !f.fd ∧ s.consumes (id - 0x700) then some ((s.count (Reg.canRxCnt c) 1).heartbeat c (id - 0x700))
  else match (List.range 4).find? fun r => s.rpdoOn c r && (f.fd == s.rbit (Reg.canCfg c) 1) && decide (s.odNum (0x1400 + 4 * c + r) 1 % 2048 = id) with
    | some r => some ((s.count (Reg.canRxCnt c) 1).rpdo c r f.data)
    | none => none

/-- A frame a port receives (R414, R418). -/
def State.canReceive (s : State) (c : Nat) (f : CanFrame) : State :=
  if !s.canOn c then s
  else match s.canService c f with
    | some t => t
    | none =>
      let s := s.count (Reg.canRxCnt c) 1
      if s.filterMatch c f then s.canQueue c f else s

/-- CAN_RX_FRAME (R414, R418). -/
def execCanRxFrame (c : Port2) (f : CanFrame) (s : State) : Host.Outcome State Fault Refusal := .next (s.canReceive c.val f)

/-- The frame of RPDO r of a port that carries data: its COB-ID, in the format of CFG.FD (R413, R414). -/
def State.rpdoFrame (s : State) (c r : Nat) (data : List Byte) : CanFrame :=
  { id := BitVec.ofNat 29 (s.odNum (0x1400 + 4 * c + r) 1 % 2048), ext := false, fd := s.rbit (Reg.canCfg c) 1, brs := false, rtr := false
    data := data }

/-- RPDO_RECEIVE (R414 to R417): an RPDO that is not applied is received as any other frame. -/
def execRpdoReceive (c : Port2) (r : Fin 4) (data : List Byte) (s : State) : Host.Outcome State Fault Refusal :=
  if s.rpdoOn c.val r.val then .next ((s.count (Reg.canRxCnt c.val) 1).rpdo c.val r.val data)
  else .next (s.canReceive c.val (s.rpdoFrame c.val r.val data))

/-- HEARTBEAT_RECEIVE (R414): the heartbeat frame of a node. -/
def execHeartbeatReceive (c : Port2) (node : BitVec 7) (state : Byte) (s : State) : Host.Outcome State Fault Refusal :=
  .next (s.canReceive c.val
    { id := BitVec.ofNat 29 (0x700 + node.toNat), ext := false, fd := false, brs := false, rtr := false, data := [state] })

/-! ## Error states (R422) -/

/-- CAN_BUS_OFF (R422): a port has gone bus-off. -/
def execCanBusOff (c : Port2) (s : State) : Host.Outcome State Fault Refusal :=
  if s.canOn c.val then .next ((s.setFld (Reg.canStatus c.val) 1 0 2).fault Reg.canFault (2 ^ c.val)) else .next s

/-- CAN_BUS_OFF_RECOVERY (R422): with AUTO_REC, a port leaves bus-off error-active with its counters at 0. -/
def execCanBusOffRecovery (c : Port2) (s : State) : Host.Outcome State Fault Refusal :=
  if s.rbit (Reg.canCfg c.val) 0 ∧ s.rbit (Reg.canCfg c.val) 3 ∧ s.fld (Reg.canStatus c.val) 1 0 = 2 then
    .next ((s.setFld (Reg.canStatus c.val) 1 0 0).setReg (Reg.canErrcnt c.val) 0)
  else .next s

/-- CAN_ERRSTATE_CHANGE (R422): the counters change and with them the error state. -/
def execCanErrstateChange (c : Port2) (tec rec : Nat) (s : State) : Host.Outcome State Fault Refusal :=
  if !s.canOn c.val then .next s
  else
    let s := s.setReg (Reg.canErrcnt c.val) (BitVec.ofNat 32 (tec % 512 * 2 ^ 16 + rec % 256))
    .next (s.setFld (Reg.canStatus c.val) 1 0 (if 128 ≤ tec ∨ 128 ≤ rec then 1 else 0))

/-! ## Writes of the CAN registers -/

/-- Whether a write that leaves v in a CAN register is refused, beyond the ranges of its fields (R422). -/
def canCheck (s : State) (off : Nat) (v : W32) : Option Cause :=
  if 0x100 ≤ off ∧ off < 0x200 then
    let c := (off - 0x100) / 0x80
    let o := (off - 0x100) % 0x80
    if !s.rbit (Reg.canCfg c) 0 then none
    else if o = 0 then (if s.reg (Reg.canCfg c) >>> 1 ≠ v >>> 1 then some .busy else none)
    else if o = 4 ∨ o = 0x20 ∨ o = 0x24 then some .busy
    else none
  else none

/-- What a write of a CAN register does besides: EN boots the port or stops it (R414, R422). -/
def canEffect (s : State) (off : Nat) (old v : W32) : State :=
  if off = 0x100 ∨ off = 0x180 then
    let c := (off - 0x100) / 0x80
    if bitOf v 0 && !bitOf old 0 then ((s.setReg (Reg.canStatus c) 0).setReg (Reg.canErrcnt c) 0).canBoot c
    else if bitOf old 0 && !bitOf v 0 then (s.setReg (Reg.canStatus c) 0).setReg (Reg.canErrcnt c) 0
    else s
  else s

end Sys2Proof.Machine
end

