-- ==== Sys2Proof/Machine/Power.lean ====
section
/-!
DEFINITION. Power, resets, boot and the life cycle (R427 to R449): power domains, the core clock, what each reset leaves, boot attempts,
minimal mode, eNVM operations and life-cycle transitions.
-/
namespace Sys2Proof.Machine

/-! ## Power domains (R427) -/

/-- The bit of a domain in PWR_CTRL and PWR_STAT. -/
def Dom.bit : Dom → Nat
  | .dspA => 0
  | .dspB => 1
  | .laneA => 2
  | .laneB => 3
  | .mem => 4

/-- A domain is in transition, is on, is asked on. -/
def State.domTrans (s : State) (d : Nat) : Bool := s.rbit Reg.sysPwrStat (8 + d)
def State.domOn (s : State) (d : Nat) : Bool := s.rbit Reg.sysPwrStat d
def State.domAsked (s : State) (d : Nat) : Bool := s.rbit Reg.sysPwrCtrl d

/-- A cluster of a DSP domain holds a vendor role. -/
def State.domVendor (s : State) (d : Nat) : Bool := (List.range 16).any fun k => s.vendorOn (16 * d + k)

/-- A write that leaves v in PWR_CTRL is refused (R427). -/
def State.pwrCheck (s : State) (v : W32) : Option Cause :=
  let changed (d : Nat) : Bool := bitOf v d != s.domAsked d
  let off (d : Nat) : Bool := changed d && !bitOf v d
  if (List.range 5).any fun d => changed d && s.domTrans d then some .busy
  else if (off 0 && s.domVendor 0) || (off 1 && s.domVendor 1) || (off 4 && !s.minimal) then some .busy
  else none

/-- PWR_CTRL takes v: every domain whose bit changes is in transition (R427). Minimal mode holds the bits of DSPA to LANEB at 0 (R437, DESIGN
CHOICE, log entry 101). -/
def State.pwrWrite (s : State) (v : W32) (q : Req) : State :=
  let v := if s.minimal then v &&& 0x10 else v
  match s.pwrCheck v with
  | some c => s.err 0 c 0x18 q
  | none =>
    let old := s.reg Reg.sysPwrCtrl
    let s := s.setReg Reg.sysPwrCtrl (v &&& 0x1F)
    forEach (List.range 5) (fun d t => if bitOf old d != bitOf v d then t.setRbit Reg.sysPwrStat (8 + d) true else t) s

/-- PWR_CTRL_WRITE (R427). -/
def execPwrCtrlWrite (q : Req) (v : W32) (s : State) : Host.Outcome State Fault Refusal :=
  if s.shut then .next s else .next (s.pwrWrite v q)

/-- The ranks of both controllers enter self-refresh (R295). -/
def State.ranksRest (s : State) : State :=
  forEach [0, 1] (fun m t => forEach (List.range (t.fld (Reg.mcGeom m) 1 0)) (fun r u =>
    if bitOf (u.mc m).sr r then u else u.enterSr m r) t) s

/-- Training starts on every channel that is present (R289). -/
def State.trainPresent (s : State) : State :=
  forEach [0, 1] (fun m t => if t.fld (Reg.mcGeom m) 1 0 = 0 then t else t.trainStart m) s

/-- TSET writes in the cycle of the SRE that MEM gating sends to a controller stay in the shadow (R49, R291). -/
def State.restLate (s : State) (late : List McEdge) : State :=
  let rests (m : Nat) : Bool := (List.range (s.fld (Reg.mcGeom m) 1 0)).any fun r => !bitOf (s.mc m).sr r
  late.foldl (fun t e => if rests e.mc then t.tsetLate e.mc e.late else t) s.ranksRest

/-- A domain's switch opens: what it held is lost (R25, R194, R427); emptied DRAM reads as in DESIGN CHOICE, log entry 20. -/
def State.domGate (s : State) (d : Dom) (late : List McEdge) : State :=
  match d with
  | .dspA => if s.rbit (Reg.clStatus 0) 16 then s.dspGated false else s
  | .dspB => if s.rbit (Reg.clStatus 16) 16 then s.dspGated true else s
  | .laneA => forEach (List.range 16) (fun ch t => t.engineLost ch) (s.quinceGated 0)
  | .laneB => forEach (List.range 16) (fun k t => t.engineLost (16 + k)) (s.quinceGated 1)
  | .mem =>
    let s := s.restLate late
    let s := forEach [0, 1] (fun m t => t.setMc m { t.mc m with trained := false, queue := [], retry := [] }) s
    { s with dram := .empty }

/-- A channel has stopped: its head does not run, or a boundary has stopped its lanes and its engine (R25, R427). -/
def State.channelStopped (s : State) (ch : Nat) : Bool :=
  !(s.sched (ch / 8)).started || (decide ((s.lane ch).cur.on = 0) && decide (s.fld (Reg.ceStatus ch) 1 0 = 0))

/-- A domain asked off may be: for a lane domain, once its channels have stopped (R25, R427). -/
def State.domMayGate (s : State) : Dom → Bool
  | .laneA => (List.range 16).all s.channelStopped
  | .laneB => (List.range 16).all fun k => s.channelStopped (16 + k)
  | .dspA | .dspB | .mem => true

/-- DOMAIN_READY_TO_GATE (R49, R427): a domain asked off is ready; ON reads 0 and TRANS clears. -/
def execDomainReadyToGate (e : GateEdge) (s : State) : Host.Outcome State Fault Refusal :=
  let d := Dom.bit e.dom
  if s.domTrans d && !s.domAsked d && s.domMayGate e.dom then
    .next (((s.domGate e.dom e.late).setRbit Reg.sysPwrStat d false).setRbit Reg.sysPwrStat (8 + d) false)
  else .next s

/-- What powering a domain does (R25, R85, R427). -/
def State.domPower (s : State) (d : Dom) : State :=
  match d with
  | .dspA => s.dspOn false
  | .dspB => s.dspOn true
  | .laneA => s.quincePowered 0
  | .laneB => s.quincePowered 1
  | .mem => s.trainPresent

/-- DOMAIN_POWERED (R427): a domain asked on has reached its on state. -/
def execDomainPowered (d : Dom) (s : State) : Host.Outcome State Fault Refusal :=
  if s.domTrans (Dom.bit d) && s.domAsked (Dom.bit d) then
    .next (((s.setRbit Reg.sysPwrStat (Dom.bit d) true).setRbit Reg.sysPwrStat (8 + Dom.bit d) false).domPower d)
  else .next s

/-- DOMAIN_FAIL (R427): a switch has not reached its on state within 1 ms. -/
def execDomainFail (d : Dom) (s : State) : Host.Outcome State Fault Refusal :=
  if s.domTrans (Dom.bit d) && s.domAsked (Dom.bit d) then .next ((s.setRbit Reg.sysPwrStat (8 + Dom.bit d) false).fault Reg.sysFault 4) else .next s

/-! ## The core clock (R193, R428) -/

/-- A write that leaves v in CLK_CTRL: refused by code or by a vendor role below 1,000 MHz; a change of CCLK_SEL stalls the cores. -/
def State.clkWrite (s : State) (v : W32) (q : Req) : State :=
  if 12 < field v 3 0 then s.err 0 .enc 0x20 q
  else if field v 3 0 < 8 ∧ s.anyVendor then s.err 0 .busy 0x20 q
  else
    let moved := decide (field v 3 0 ≠ s.fld Reg.sysClkCtrl 3 0)
    let s := s.setReg Reg.sysClkCtrl (v &&& 0x1F0F)
    if moved then { s with stalled := true } else s

/-- CCLK_SEL_CHANGE (R428). -/
def execCclkSelChange (q : Req) (v : W32) (s : State) : Host.Outcome State Fault Refusal :=
  if s.shut then .next s else .next (s.clkWrite v q)

/-- CORE_PLL_RELOCK (R428): the cores go on, with no instruction lost or repeated. -/
def execCorePllRelock (s : State) : Host.Outcome State Fault Refusal := .next { s with stalled := false }

/-! ## Resets (R429, R430, R432) -/

/-- The boot counter FAILS. -/
def State.fails (s : State) : Nat := s.fld Reg.sysBootWhy 25 24

/-- A code shifts into BOOT_WHY (R435). -/
def State.shiftWhy (s : State) (code : Nat) : State :=
  s.setFld Reg.sysBootWhy 23 0 (s.fld Reg.sysBootWhy 15 0 * 256 + code)

/-- The heads' HEADOK inputs outlive a reset and qualify anew (R69). -/
def State.pinsKept (s : State) : Store HeadSt :=
  (List.range 4).foldl (fun m h => if (s.head h).headok then m.set {} h { headok := true, qualifying := true } else m) .empty

/-- What lamp modules hold outlives a reset: their codes in force stay (R432). -/
def State.modulesKept (s : State) : Store LampSt :=
  (List.range 4).foldl (fun m p => m.set {} p { active := (s.lamp p).active, shown := (s.lamp p).shown }) .empty

/-- The registers a reset leaves: those of AON, the life-cycle record, and the pins that SRC_STATUS shows. -/
def State.regsKept (s : State) : Store W32 :=
  let keep (m : Store W32) (a : Nat) (v : W32) : Store W32 := m.set (resetOf a) a v
  let m := [Reg.sysBootWhy, Reg.sysWdogCnt, Reg.lifeState, Reg.lifeTransCnt, Reg.lifeRollbackMin].foldl
    (fun m a => keep m a (s.reg a)) .empty
  keep m Reg.timeSrcStatus (s.reg Reg.timeSrcStatus &&& 0x30)

/-- The eNVM after a reset: operations in progress have stopped, so a slot or image in writing stays invalid (R432). -/
def NvmSt.afterReset (n : NvmSt) : NvmSt :=
  { n with ops := [], lifeAsked := none, snap := {}, waiters := [],
           img := ({ n.img.1 with ok := false }, { n.img.2 with ok := false }) }

/-- The seeds of the neighbour-refresh registers come from on-chip entropy at every reset: free values, none of them 0 (R288, log
entry 4). -/
def State.seeded (s : State) : State :=
  let one (m : Nat) (s : State) : State :=
    let f := field s.free 31 0
    (s.setReg (Reg.mcNrfSeed m) (BitVec.ofNat 32 (if f = 0 then 1 else f))).drawn
  one 1 (one 0 s)

/-- The controllers after a reset: before a warm one every rank enters self-refresh and stays in it (R295, R430). -/
def State.ranksKept (s : State) : Store McSt :=
  [0, 1].foldl (fun t m => t.set {} m { sr := BitVec.ofNat 2 (2 ^ s.fld (Reg.mcGeom m) 1 0 - 1) }) .empty

/-- A sub-probe that plays ends dark under a reset (R51, R66). -/
def State.darkAll (s : State) : State :=
  forEach (List.range 4) (fun h t => if (t.head h).playing || decide ((t.head h).gates ≠ 0) then t.emit (.dark h) else t) s

/-- A reset of a cause (R429, R430): every register, memory and engine returns to its reset state, but what R430 keeps. DRAM keeps its
contents until a cold boot fills it. -/
def State.resetAs (s : State) (cause : Nat) (cold : Bool) : State :=
  let s := s.darkAll
  let t : State := {
    pending := s.pending, fresh := s.fresh, tx := s.tx, regs := s.regsKept, heads := s.pinsKept, lamps := s.modulesKept,
    hadc := { vrefxOut := s.hadc.vrefxOut }
    mcs := if cold then .empty else s.ranksKept, dram := s.dram, odBytes := ⟨s.odBytes.cells.filter fun c => isKey (c.1 / 256)⟩, nvm := s.nvm.afterReset,
    boot := { held := s.boot.held, fill := cold, manual := s.boot.manual, tried := s.boot.tried } }
  ((t.setReg Reg.sysResetWhy (BitVec.ofNat 32 cause)).setRbit Reg.sysBootStat 5 cold).seeded

/-- Power-on: BOOT_WHY and the watchdog count are cleared and DRAM has lost its contents (R430, DESIGN CHOICE, log entry 20). -/
def State.powerOn (s : State) : State :=
  let t := State.resetAs { s with dram := .empty, boot := {} } 0 true
  (t.setReg Reg.sysBootWhy 0).setReg Reg.sysWdogCnt 0

/-- The cycle in which a source asserted is over (R454). -/
def State.cycleOver (s : State) : State := { s with boot := { s.boot with cause := none } }

/-- The kind of a cause: true for cold (R429). -/
def coldCause (c : Nat) : Bool := decide (c ≤ 4) || decide (8 ≤ c)

/-- A source asserts. Of those that assert in one cycle the lowest code gives CAUSE and the kind, so a source is passed over where one of a lower
code has reset the block in this cycle; DIE_HOT holds reset all the same. No idle tick and no boot attempt lies within one cycle (R429, R454, DESIGN
CHOICE, log entry 111). -/
def State.resetBy (s : State) (c : Nat) : State :=
  let s := { s with boot := { s.boot with held := s.boot.held || decide (c = 9) } }
  if s.boot.cause.any fun k => decide (k < c) then s
  else
    let t := s.resetAs c (coldCause c)
    { t with boot := { t.boot with cause := some c } }

/-- POR (R429, R430): power-on. -/
def execPor (s : State) : Host.Outcome State Fault Refusal :=
  .next { s.powerOn with boot := { s.powerOn.boot with cause := some 0 } }

/-- RESET_N (R429). -/
def execResetN (s : State) : Host.Outcome State Fault Refusal := .next (s.resetBy 1)

/-- BROWNOUT (R429). -/
def execBrownout (s : State) : Host.Outcome State Fault Refusal := .next (s.resetBy 2)

/-- GLITCH (R429). -/
def execGlitch (s : State) : Host.Outcome State Fault Refusal := .next (s.resetBy 3)

/-- A source inside the block has no effect on a scrapped device, nor while reset is held but in the cycle of the reset itself (R429, R443, R454). -/
def State.sourceShut (s : State) : Bool := s.scrapped || (s.boot.held && s.boot.cause.isNone)

/-- The bits written to RESET_CTRL through the window (R438, R447): COLD takes precedence; RETRY clears FAILS, and MINIMAL asks for minimal mode
(R435, R436). -/
def State.resetCtrl (s : State) (warm cold retry minimal : Bool) : State :=
  if s.sourceShut then s
  else if cold then s.resetBy 4
  else if warm || retry || minimal then
    let s := if retry then s.clearFails else s
    let s := if minimal then { s with boot := { s.boot with manual := true } } else s
    s.resetBy 5
  else s

/-- SOFT_COLD (R429). -/
def execSoftCold (_q : Req) (s : State) : Host.Outcome State Fault Refusal := .next (s.resetCtrl false true false false)

/-- SOFT_WARM (R429). -/
def execSoftWarm (_q : Req) (s : State) : Host.Outcome State Fault Refusal := .next (s.resetCtrl true false false false)

/-- RETRY (R438): FAILS is cleared. -/
def execRetry (_q : Req) (s : State) : Host.Outcome State Fault Refusal := .next (s.resetCtrl false false true false)

/-- MINIMAL (R435, R436): the next boot enters minimal mode. -/
def execMinimal (_q : Req) (s : State) : Host.Outcome State Fault Refusal := .next (s.resetCtrl false false false true)

/-- DIE_HOT (R429): the junction is above 125 °C and reset is held; while it is, only the other sources act. -/
def execDieHot (s : State) : Host.Outcome State Fault Refusal := .next (if s.boot.held then s else s.resetBy 9)

/-- DIE_HOT_RELEASE (R429): the junction has fallen below 110 °C. -/
def execDieHotRelease (s : State) : Host.Outcome State Fault Refusal := .next { s with boot := { s.boot with held := false } }

/-- DIE_HOT_WARNING (R447): the junction is above 110 °C. -/
def execDieHotWarning (s : State) : Host.Outcome State Fault Refusal :=
  if s.boot.held then .next s else .next (s.fault Reg.sysFault 1)

/-- SUPPLY_WARN (R447): a rail is within 3 % of its reset threshold. -/
def execSupplyWarn (s : State) : Host.Outcome State Fault Refusal :=
  if s.boot.held then .next s else .next (s.fault Reg.sysFault 2)

/-- PERST_N (R431): only the PCIe endpoint is reset: configuration space, MSI-X table and pending bits, ATTN.STATUS. -/
def execPerstN (s : State) : Host.Outcome State Fault Refusal :=
  .next (State.setReg { s with msix := .empty, funcMask := false } Reg.attnStatus 0)

/-! ## Boot (R433 to R439) -/

/-- The loader may act: no image runs, the boot is not over, and reset is not held. -/
def State.booting (s : State) : Bool :=
  !s.shut && !s.minimal && !s.rbit Reg.sysBootStat 0

/-- Entries of a slot as stored, for minimal mode (R437). -/
def State.loadStored (s : State) (x : CfgSlotNv) : State :=
  let isZone (k : Nat) : Bool := decide (0x3000 ≤ k / 256) && decide (k / 256 < 0x4000)
  x.strs.foldl (fun t p => t.setOdStr (p.1 / 256) (p.1 % 256) p.2) (x.nums.foldl (fun t p =>
    if isZone p.1 then t.setZoneWord (p.1 / 256 - 0x3000) (p.1 % 256 - 1) (BitVec.ofNat 72 p.2)
    else t.setOdv (p.1 / 256) (p.1 % 256) p.2) s)

/-- A DSP domain is gated on entry to minimal mode, unless it is already (R194, R437). -/
def State.dspRest (s : State) (b : Bool) : State := if s.rbit (Reg.clStatus (16 * b2n b)) 16 then s.dspGated b else s

/-- Minimal mode (R437): the domains of the data plane are gated, no head and no memory controller runs, the Ethernet ports and Yarfel come up
(DEDUCED, log entry 68), and entries read as stored. -/
def State.minimalEnter (s : State) : State :=
  let s := (s.setRbit Reg.sysBootStat 1 true).setRbit Reg.sysBootStat 2 s.boot.tried
  let s := (s.dspRest false).dspRest true
  let s := ((s.setFld Reg.sysPwrCtrl 3 0 0).setFld Reg.sysPwrStat 3 0 0).setFld Reg.sysPwrStat 11 8 0
  let s := forEach (List.range 4) (fun h t => (t.setRbit (Reg.headCtrl h) 0 false).setRbit (Reg.headStatus h) 0 false) s
  let s := forEach [0, 1] (fun m t => t.setRbit (Reg.mcCtrl m) 0 false) s
  let s := (s.quinceGated 0).quinceGated 1
  let s := forEach (List.range 32) (fun ch t => t.engineLost ch) s
  let s := forEach [0, 1] (fun n t => t.setRbit (Reg.netPortCfg n) 0 true) (s.setRbit Reg.netCtrl 0 true)
  let s := { s with boot := { s.boot with manual := false, running := false } }
  match s.cfgIn with
  | some i => s.loadStored (cfgSlotAt s.nvm.cfg i)
  | none => s

/-- A boot attempt fails (R435, R436): the reason shifts in, FAILS counts, and a BOOT_RETRY reset or minimal mode follows. -/
def State.bootFail (s : State) (why : Nat) : State :=
  let n := min 3 (s.fails + 1)
  let s := (s.shiftWhy why).setFld Reg.sysBootWhy 25 24 n
  if n = 3 then s.minimalEnter else s.resetAs 7 false

/-- BOOT_FAILURE (R435). -/
def execBootFailure (why : Byte) (s : State) : Host.Outcome State Fault Refusal :=
  if s.booting ∧ 1 ≤ why.toNat ∧ why.toNat ≤ 4 then .next (s.bootFail why.toNat) else .next s

/-- TRAINING_DONE (R290, R292, R435): a failure on a present channel while the loader boots is a failed boot. -/
def execTrainingDone (m : Mc) (r : TrainResult) (s : State) : Host.Outcome State Fault Refusal :=
  if !s.rbit (Reg.mcStatus m) 1 ∨ (s.mc m).changing ∨ !s.trainFits m r then .next s
  else
    let t := s.trainOver m r
    .next (if s.booting && s.boot.running && r.fail.isSome then t.bootFail 3 else t)

/-- A step of training that fails while the loader boots is a failed boot (R290, R435). -/
def State.trainFailed (s : State) (r : TrainResult) (t : State) : State :=
  if s.booting && s.boot.running && r.fail.isSome then t.bootFail 3 else t

/-- PERIODIC_TRAIN (R290): steps ZQ and RG repeat; a failed step follows the rule of training. -/
def execPeriodicTrain (m : Mc) (r : TrainResult) (s : State) : Host.Outcome State Fault Refusal :=
  .next (if s.periodicMay m r then s.trainFailed r (s.periodicEnd m r) else s)

/-- FREQ_CHANGE_RETURN (R294): training at the new rate fails and the old set comes back. -/
def execFreqChangeReturn (e : McEdge) (rgOk : Bool) (r : TrainResult) (s : State) : Host.Outcome State Fault Refusal :=
  .next (if !(s.mc e.mc).locked ∨ r.fail = none ∨ !s.trainFits e.mc r then s else s.trainFailed r (s.freqReturn e.mc e.late rgOk r))

/-- WATCHDOG (R429, R435): the control processor's watchdog expires; before DONE it is a failed boot. -/
def execWatchdog (s : State) : Host.Outcome State Fault Refusal :=
  if s.sourceShut then .next s else
  let failed := s.boot.running && !s.rbit Reg.sysBootStat 0
  let s := (s.count Reg.sysWdogCnt 1).resetBy 6
  .next (if failed && decide (s.fld Reg.sysResetWhy 3 0 = 6) then s.bootFail 1 else s)

/-- The image the next attempt uses (R433, R436), of those that are valid. -/
def State.imageChoice (s : State) (a b : Bool) : Option Bool :=
  let last := s.fld Reg.sysBootWhy 7 0
  let ok (x : Bool) : Bool := if x then b else a
  let t := s.boot.tried
  let preferred : Option Bool :=
    if a && b then some (decide (s.nvm.img.1.version.toNat < s.nvm.img.2.version.toNat)) else if a then some false
    else if b then some true else none
  if s.fails = 0 then preferred
  else if last = 1 then (if ok (!t) then some !t else if ok t then some t else none)
  else if ok t then some t else preferred

/-- A pending life-cycle transition is carried out (R444, R445). -/
def State.lifeFinish (s : State) : State :=
  match s.nvm.pending with
  | none => s
  | some target =>
    let from' := s.fld Reg.lifeState 1 0
    let wipe := (decide (from' = 1) && decide (target = 2)) || decide (target = 3)
    let resumed := decide (s.fld Reg.sysResetWhy 3 0 ≠ 8)
    let s := { s with
      dram := .empty
      nvm := { (((if wipe then s.nvm.eraseRegion nvmSecrets else s.nvm).eraseRegion (nvmConfig 0)).eraseRegion (nvmConfig 1)).eraseRegion
        nvmLife with cfg := ({}, {}), pending := none }
      odBytes := if wipe then ⟨s.odBytes.cells.filter fun c => !isKey (c.1 / 256)⟩ else s.odBytes }
    let s := (s.setFld Reg.lifeState 1 0 target).count Reg.lifeTransCnt 1
    let s := if resumed then s.fault Reg.lifeFault 2 else s
    s.event 237

/-- A restore of defaults erases both configuration slots (R399, R439). -/
def State.restoreFinish (s : State) : State :=
  if s.nvm.restore then
    { s with nvm := { (s.nvm.eraseRegion (nvmConfig 0)).eraseRegion (nvmConfig 1) with cfg := ({}, {}), restore := false } }
  else s

/-- What the firmware image in force reports as its version string and number: not stated, free values (DESIGN CHOICE, log entry 4). -/
def State.firmwareNames (s : State) : State :=
  let n := field s.free 3 0
  let name := (List.range n).map fun i => BitVec.ofNat 8 (0x20 + s.free.toNat / 2 ^ (4 + 4 * i) % 0x5F)
  let s := (s.setOdStr 0x100A 0 name).drawn
  (s.setOdv 0x1018 3 (field s.free 15 0)).drawn

/-- A refused entry is skipped and counted (R439). -/
def State.cfgSkip (s : State) : State := s.setFld Reg.sysBootStat 15 8 (min 255 (s.fld Reg.sysBootStat 15 8 + 1))

/-- A MEM entry is applied, unless it would change what training has made of the set in force (R291, R439, DESIGN CHOICE, log entry 53). -/
def State.memEntry (s : State) (a : Nat) (v : W32) : State :=
  if s.reg a = v then s
  else
    let m := (a - 0x800000) / 0x10000
    let off := a % 0x10000
    if s.tsetFixed m off v || (mcCheck s m off v).isSome && decide (off = 0) then s.cfgSkip else s.setReg a v

/-- The MEM entries of a slot are applied, CTRL apart (DESIGN CHOICE, log entry 53); the channels train, and a stored rate other than that of the
set that boot trains is changed to behind the training (R289, R292, R293). -/
def State.memStart (s : State) (l : List (Nat × W32)) : State :=
  let s := l.foldl (fun t p => if memRegs.contains p.1 then t.memEntry p.1 p.2 else t) s
  let s := s.trainPresent
  forEach [0, 1] (fun m t =>
    if decide (t.fld (Reg.mcGeom m) 1 0 ≠ 0) && t.rbit (Reg.mcFreqCtrl m) 4 then
      (t.setMc m { t.mc m with target := 1 }).setRbit (Reg.mcStatus m) 4 true
    else t) s

/-- No controller trains, or changes its rate, or is about to. -/
def State.memReady (s : State) : Bool := [0, 1].all fun m => !s.trainBusy m && !s.freqBusy m

/-- An image is verified and started: the configuration slot is chosen, its MEM entries applied, the calibration loaded and DRAM trained (R389,
R435, R439). -/
def State.imageStart (s : State) (b : Bool) : State :=
  let s := { s with boot := { s.boot with tried := b } }
  let s := s.setRbit Reg.sysBootStat 2 b
  let written := s.nvm.cfg.1.written || s.nvm.cfg.2.written
  match s.cfgIn with
  | none =>
    if written then s.bootFail 4
    else (((State.firmwareNames { s with boot := { s.boot with running := true } }).setRbit Reg.sysBootStat 3 true).calBoot).memStart []
  | some i =>
    (((State.firmwareNames { s with boot := { s.boot with running := true } }).setRbit Reg.sysBootStat 4 (decide (i = 1))).calBoot).memStart
      (cfgSlotAt s.nvm.cfg i).mem

/-- The loader reads the eNVM: every region, of whose words the named bits have flipped since they were programmed (R440, R442, DESIGN CHOICE, log
entry 105). -/
def State.nvmScan (s : State) (flips : List (Nat × BitVec 72)) : State :=
  let s := { s with nvm := s.nvm.flip flips }
  s.fault Reg.nvmFault (((List.range 9).foldl (fun b k =>
    b ||| (if (s.nvm.worn k).any fun w => decide (flipped w = 1) then 4 else 0) |||
      (if (s.nvm.worn k).any fun w => decide (2 ≤ flipped w) then 8 else 0)) 0))

/-- BOOT_ATTEMPT (R433 to R439, R442, R444, R445): the loader reads the eNVM, completes a pending transition and a restore of defaults, then
enters minimal mode, or verifies and starts an image; flips names the bits of eNVM words that have flipped since the last attempt. -/
def execBootAttempt (sigs : BootSigs) (flips : List (Nat × BitVec 72)) (s : State) : Host.Outcome State Fault Refusal :=
  if !s.booting || s.boot.running then .next s
  else
    let s := (s.cycleOver.nvmScan flips).lifeFinish.restoreFinish
    if s.scrapped then .next s
    else if s.boot.manual then .next (s.shiftWhy 5).minimalEnter
    else if s.fails = 3 then .next s.minimalEnter
    else match s.imageChoice (s.imageValid false sigs.a) (s.imageValid true sigs.b) with
      | none => .next (s.bootFail 2)
      | some b => .next (s.imageStart b)

/-- DRAM_FILL_DONE (R430): the loader has zero-filled DRAM after a cold reset. -/
def execDramFillDone (s : State) : Host.Outcome State Fault Refusal :=
  if s.booting && s.boot.running && s.boot.fill && s.memReady then
    .next { s with dram := .empty, boot := { s.boot with fill := false, filled := true } }
  else .next s

/-- The stored entries are replayed; a refused one is skipped and counted (R439). -/
def State.replay : List (Nat × List Byte) → State → State
  | [], s => s
  | (k, b) :: rest, s =>
    let x := s.odWrite 3 (k / 256) (k % 256) (odTypeOf k) 0 false b
    State.replay rest (if x.1 = 0 then x.2 else x.2.cfgSkip)

/-- BOOT_DONE (R435, R439): with the controllers trained, the entries are replayed, CTRL of the controllers after them (DESIGN CHOICE, log entry
53), DONE sets, the attempt's code is OK and vector 239 is raised. -/
def execBootDone (s : State) : Host.Outcome State Fault Refusal :=
  if s.booting && s.boot.running && !s.boot.fill && s.memReady then
    let s := match s.cfgIn with
      | some i =>
        let x := cfgSlotAt s.nvm.cfg i
        x.mem.foldl (fun (t : State) (p : Nat × W32) => if p.1 = Reg.mcCtrl 0 ∨ p.1 = Reg.mcCtrl 1 then t.memEntry p.1 p.2 else t) (State.replay x.entries s)
      | none => s
    let s := (s.setRbit Reg.sysBootStat 0 true).shiftWhy 0
    .next (s.clearFails.event 239)
  else .next s

/-! ## eNVM operations and the life cycle (R442, R445) -/

/-- NVM_OPERATION_DONE (R442): an operation in progress completes, its program verification good or not, and vector 236 is raised. The pending
record of a transition is written behind every other operation, and then the LIFE reset is issued (R445); a record that fails verification
asks for nothing (DESIGN CHOICE, log entry 105). -/
def execNvmOperationDone (e : NvmEnd) (s : State) : Host.Outcome State Fault Refusal :=
  let op := e.op
  let ok := e.ok
  if !s.nvm.ops.contains op then .next s
  else if op = .lifeRecord ∧ s.nvm.ops ≠ [.lifeRecord] then .next s
  else
    let s := { s with nvm := { s.nvm with ops := s.nvm.ops.erase op } }
    let s := s.event 236
    match op with
    | .config => .next (if ok then s.storeCommit else s.storeBroken)
    | .calibration => .next (s.storeDone ok)
    | .image b => .next (s.imageDone b ok)
    | .secrets => .next (if ok then s else s.fault Reg.nvmFault 2)
    | .lifeRecord =>
      .next (if ok then State.resetAs { s with nvm := { s.nvm with pending := s.nvm.lifeAsked } } 8 true
        else State.fault { s with nvm := { s.nvm with lifeAsked := none } } Reg.nvmFault 2)

/-- A write of 1 to STATE_CTRL.GO through the window (R44, R445): refused LOCKED or RANGE, recorded where window refusals are. -/
def State.lifeGo (s : State) (q : Req) : State :=
  match s.lifeAsk (s.fld Reg.lifeStateCtrl 5 4) with
  | .inl .locked => s.err 0 .locked 0 q
  | .inl c => (s.err 0 c 0 q).fault Reg.lifeFault 1
  | .inr t => t.event 237

/-- LIFE_GO (R445). -/
def execLifeGo (q : Req) (s : State) : Host.Outcome State Fault Refusal := if s.shut then .next s else .next (s.lifeGo q)

/-! ## Live registers of SYS and LIFE -/

/-- AUTH: a VENDOR session is open (R444). -/
def State.lifeAuth (s : State) : Bool := (List.range 16).any fun j => (s.session j).active && decide ((s.session j).role = 3)

/-- STATE and STATE_CTRL as read (R448). -/
def State.lifeLive (s : State) (off : Nat) : Option W32 :=
  match off with
  | 0 =>
    let st := s.fld Reg.lifeState 1 0
    some (BitVec.ofNat 32 (b2n (decide (st = 0) || decide (st = 2)) * 512 + b2n s.nvm.pending.isSome * 256 + st))
  | 4 => some (withBit (s.reg Reg.lifeStateCtrl) 1 s.lifeAuth)
  | _ => none

/-- A write of a SYS register that has rules of its own; none for the others. -/
def State.sysWrite (s : State) (off : Nat) (v : W32) (q : Req) : Option State :=
  match off with
  | 0x18 => some (s.pwrWrite v q)
  | 0x20 => some (s.clkWrite v q)
  | _ => none

end Sys2Proof.Machine
end

