-- ==== Sys2Proof/Machine/Bus.lean ====
section
/-!
DEFINITION. The register bus (R30 to R49, R465): what an address reaches, what a read returns and clears, what a write in each view
leaves and does, 72-bit values, the table and memory windows, the MSI-X table, and the privileged bit-alias window. Blocks say what
they refuse and what a write does besides in their own files; here the access codes of R36 are applied once for all of them.
-/
namespace Sys2Proof.Machine

/-! ## Views and fields -/

/-- The view an access uses (R32). -/
inductive View where
  | normal | set | clr | tgl
  deriving DecidableEq, Repr

/-- The view of a block offset. -/
def viewOf (off : Nat) : View :=
  match off / 0x4000 with
  | 0 => .normal
  | 1 => .set
  | 2 => .clr
  | _ => .tgl

/-- What a write of v leaves in the bits of a mask (R32, R36). -/
def View.apply (w : View) (mask old v : W32) : W32 :=
  match w with
  | .normal => (old &&& ~~~mask) ||| (v &&& mask)
  | .set => old ||| (v &&& mask)
  | .clr => old &&& ~~~(v &&& mask)
  | .tgl => old ^^^ (v &&& mask)

/-- The bits of LK fields a write sets (R36). -/
def View.locks (w : View) (mask v : W32) : W32 :=
  match w with
  | .normal | .set => v &&& mask
  | .clr | .tgl => 0

/-- The bits of W1P and WO fields a write acts through (R36). -/
def View.acts (w : View) (w1p wo v : W32) : W32 :=
  match w with
  | .normal => v &&& (w1p ||| wo)
  | .set => v &&& w1p
  | .clr | .tgl => 0

/-- The RW mask of a row in an instance; ILV is reserved in MC1 (R297). -/
def RegRow.rwMask (r : RegRow) (b : Blk) (i off : Nat) : W32 :=
  let m := BitVec.ofNat 32 r.rw
  if b = .mc ∧ i = 1 ∧ off = 8 then m &&& 0x13 else m

/-- A refusal of an access at another address than the normal view's is recorded with the offset accessed (R41). -/
def State.errAt (s t : State) (base off : Nat) : State :=
  if s.fld (base + errOff) 23 0 = 0 ∧ t.fld (base + errOff) 23 0 ≠ 0 then t.setFld (base + errOff + 8) 15 0 (off % 2 ^ 16) else t

/-! ## What a register reads -/

/-- The value of a 32-bit register as a read returns it: the stored one, with the fields that show an engine live. -/
def State.readReg (s : State) (b : Blk) (i off : Nat) : W32 :=
  let v := s.reg (b.at i + off)
  match b with
  | .sys => if off = 0x14 then s.optInterlock else v
  | .life => (s.lifeLive off).getD v
  | .nvm => (s.nvmLive off).getD v
  | .time => if off = 4 then withBit v 6 (s.rbit Reg.timeSync 0) else v
  | .tdc => if 0x100 ≤ off ∧ (off - 0x100) % 0x40 = 0x1C then withBit v 2 (s.tdc ((off - 0x100) / 0x40)).hold else v
  | .lamp => (s.lampLive off).getD v
  | .zone => (s.zoneLive off).getD v
  | .dma => s.dmaLive off
  | .attn =>
    if off = 0xC then s.pinState
    else if 0x800 ≤ off ∧ off < 0x1800 ∧ off % 0x20 = 0xC then BitVec.ofNat 32 (s.queue ((off - 0x800) / 0x20)).items.length
    else v
  | .head => if off = 4 then s.headStatus i else v
  | .cl => (s.clLive i off).getD v
  | .mc => mcLive s i off
  | .lane => if off = 4 then s.laneStatusLive i else v
  | .shot | .cal | .hk | .pfe | .loop | .net | .can | .ce => v

/-- The live 72-bit value whose LO lies at an offset. -/
def State.readWide (s : State) (b : Blk) (i lo : Nat) : W72 :=
  let v := s.wreg (b.at i + lo)
  match b with
  | .time => if lo = 0x20 then s.stamp else v
  | .zone => (s.zoneWide lo).getD v
  | .cl => (s.clWide i lo).getD v
  | .attn => match (s.queue ((lo - 0x800) / 0x20)).items with | [] => 0 | x :: _ => x
  | _ => v

/-- LO of a value, or the part of the requester's snapshot (R47). -/
def State.wideWord (s : State) (q : Req) (v : W72) (w : Nat) : W32 :=
  match w with
  | 0 => v.extractLsb' 0 32
  | 1 => (s.req q).snap.extractLsb' 0 32
  | _ => ((s.req q).snap.extractLsb' 32 8).setWidth 32

/-- A read of LO copies bits 71 to 32 into the requester's snapshot (R47). -/
def State.wideSnap (s : State) (q : Req) (v : W72) (w : Nat) : State :=
  if w = 0 then s.setReq q { s.req q with snap := v.extractLsb' 32 40 } else s

/-! ## What a block refuses and does -/

/-- Whether CE CTRL may take v: no cluster serves the channel, or its totals region lies outside DRAM or meets an enabled history
region (R142, R218). -/
def State.ceCtrlCheck (s : State) (ch : Nat) (v : W32) : Option Cause :=
  let on (k : Nat) : Bool := bitOf v k && !s.rbit (Reg.ceCtrl ch) k
  let span := (s.totBase ch, totWords)
  if on 0 && (s.clusterOf ch).isNone then some .range
  else if on 1 && (decide (s.dramWords < s.totBase ch + totWords) || s.meetsHistory none span) then some .range
  else none

/-- Whether a GO of a controller is refused (R292, R297). -/
def State.mcGoCheck (s : State) (m off : Nat) (v go : W32) : Option Cause :=
  if !bitOf go 0 then none
  else if off = 0x24 then
    (if s.freqBusy m then some .busy else if field v 4 4 = s.fld (Reg.mcStatus m) 5 5 then some .range else none)
  else if off = 0x2C then (if s.trainBusy m then some .busy else none)
  else none

/-- Whether a block refuses a write that leaves v in a register and acts through the bits go, beyond locks and field ranges. -/
def State.blockCheck (s : State) (b : Blk) (i off : Nat) (v go : W32) : Option Cause :=
  match b with
  | .head => headCheck s i off v
  | .lane => laneCheck s i off v
  | .ce => if off = 0 then s.ceCtrlCheck i v else ceCheck s i off v
  | .shot => shotCheck s off v
  | .tdc => tdcCheck s off v
  | .cal => calCheck s off v
  | .hk => hkCheck s off v
  | .pfe => pfeCheck s off v
  | .loop => loopCheck s off v
  | .lamp => lampCheck s off v
  | .zone =>
    if off = 0 then (if bitOf v 1 && !s.rbit Reg.zoneCtrl 1 && s.dmaHostRuns 62 63 then some .busy else none)
    else zoneRegCheck s off
  | .dma => if 0x100 ≤ off ∧ off < 0x1100 ∧ off % 0x40 = 0 then s.dmaCtrlCheck ((off - 0x100) / 0x40) go else dmaCheck s off v
  | .attn => attnCheck s off v
  | .net => netCheck s off v
  | .can => canCheck s off v
  | .cl => clCheck s i off v
  | .mc => (mcCheck s i off v).or (s.mcGoCheck i off v go)
  | .sys | .life | .nvm | .time => none

/-- What an accepted write of a LANE register does besides (R84, R89). -/
def State.laneEffect (s : State) (ch off : Nat) (go : W32) (q : Req) : State :=
  if off = 0x20 then (if bitOf go 0 then s.calGo ch q else s)
  else if off = 0 ∨ 0x40 ≤ off ∧ off < 0x50 ∨ 0x100 ≤ off ∧ (off - 0x100) % 0x40 < 0x10 then s.laneStage ch
  else s

/-- What an accepted write of a HEAD register does besides. -/
def State.headEffect (s : State) (h off : Nat) (go : W32) (q : Req) : State :=
  match off with
  | 0x0 => s.darken h
  | 0x14 => if bitOf go 0 then s.probeCommitted h q else s
  | 0x50 => if bitOf go 0 then s.chirpGo h q else s
  | 0x58 => s.thermCfgWritten h
  | _ => s

/-- What an accepted write of a CE register does besides (R126, R135, R142, R382). -/
def State.ceEffect (s : State) (ch off : Nat) (old v go : W32) : State :=
  match off with
  | 0x0 =>
    let s := if bitOf v 1 && !bitOf old 1 then s.totClear ch else s
    if bitOf v 0 && !bitOf old 0 then s.engineEnabled ch else s
  | 0x8 => if old = v then s else s.laneRestart (ch / 8)
  | 0x3C => if bitOf go 0 then s.totClear ch else s
  | _ => s

/-- What an accepted write of a CL register does besides (R217). -/
def State.clEffect (s : State) (cl off : Nat) (go : W32) (q : Req) : State :=
  if !bitOf go 0 then s
  else
    match off with
    | 0x50 => s.hostSend cl q
    | 0x90 => s.hostOutPop cl
    | 0xD0 => s.hostBncPop cl
    | _ => s

/-- What an accepted write of an ATTN register does besides (R319, R321). -/
def State.attnEffect (s : State) (off : Nat) (go : W32) : State :=
  if 0x200 ≤ off ∧ off < 0x500 then s.modWritten ((off - 0x200) / 4)
  else if 0x800 ≤ off ∧ off < 0x1800 ∧ off % 0x20 = 0x10 ∧ bitOf go 0 then s.exportPop ((off - 0x800) / 0x20)
  else s

/-- What an accepted write of an MC register does besides (R289, R292): with EN at 1 requests that waited are served (R297). -/
def State.mcEffect (s : State) (m off : Nat) (v go : W32) (q : Req) : State :=
  if off = 0 then s.mcDrain m
  else if !bitOf go 0 then s
  else if off = 0x24 then s.freqGo m (field v 4 4) q
  else if off = 0x2C then s.trainGo m q
  else s

/-- What an accepted write of an HK register does besides (R364 to R367). -/
def State.hkWritten (s : State) (off : Nat) (old v go : W32) : State :=
  match off with
  | 0x10 => if bitOf go 0 then s.regTriggerFrom 0 else s
  | 0x18 => if bitOf go 0 && decide (s.fld Reg.hkInjCfg 25 24 = 0) then s.injTrigger else s
  | _ => hkEffect s off old v

/-- What an accepted write does besides leaving v in a register that held old: go holds its W1P and WO bits, w the bits written as
1 and left at 1. -/
def State.blockEffect (s : State) (b : Blk) (i off : Nat) (old v go w : W32) (q : Req) : State :=
  match b with
  | .head => s.headEffect i off go q
  | .lane => s.laneEffect i off go q
  | .ce => s.ceEffect i off old v go
  | .shot => if off < 0x400 ∧ off % 0x100 = 0x20 ∧ bitOf go 0 then s.shotCapture (off / 0x100) else shotEffect s off old v
  | .time => if off = 0 then s.srcCtrlWritten else if off = 8 then s.srcPolicyWritten else s
  | .tdc => tdcEffect s off (if 0x100 ≤ off ∧ (off - 0x100) % 0x40 = 0xC then go else v) q
  | .cal => calEffect s off (if off = 8 then go else w)
  | .hk => s.hkWritten off old v go
  | .pfe => pfeEffect s off old v
  | .loop => loopEffect s off
  | .lamp => lampEffect s off old v
  | .zone =>
    if off = 0x14 then (if bitOf go 0 then s.evPop else s)
    else if off = 0x5C then s.capFree go q else s
  | .dma => if 0x100 ≤ off ∧ off < 0x1100 ∧ off % 0x40 = 0 then s.dmaCtrlWrite ((off - 0x100) / 0x40) go else s
  | .attn => s.attnEffect off go
  | .net => netEffect s off old (if off = 0x24 then go else v) q
  | .can => canEffect s off old v
  | .cl => s.clEffect i off go q
  | .mc => s.mcEffect i off v go q
  | .sys | .life | .nvm => s

/-! ## Writing a register -/

/-- Whether a write is refused, with the cause of R41: the lock first (R42), then an operation that runs, then the ranges of the
fields, then the block's other rules. -/
def State.writeCheck (s : State) (b : Blk) (i off : Nat) (r : RegRow) (old v go : W32) : Option Cause :=
  if r.lk ≠ 0 ∧ bitOf old 31 ∧ (v ^^^ old) &&& BitVec.ofNat 32 r.rwl ≠ 0 then some .locked
  else
    let c := s.blockCheck b i off v go
    if c = some .busy then c else (fieldsRefuse v r.chk).or c

/-- A register whose write is an operation of its own: PWR_CTRL, CLK_CTRL (R427, R428), ASSIGN (R218) and CORE[c].CTRL (R210). -/
def State.ownWrite (s : State) (b : Blk) (i off : Nat) (v go : W32) (q : Req) : Option State :=
  match b with
  | .sys => s.sysWrite off v q
  | .cl =>
    if off = 0 then some (s.assignWrite i v q)
    else if 0x400 ≤ off ∧ (off - 0x400) % 0x80 = 0 then some (s.coreCtrlWrite i ((off - 0x400) / 0x80) (v ||| go) q)
    else none
  | _ => none

/-- The bits that minimal mode holds at 0: HEAD[h].CTRL.RUN and MC[m].CTRL.EN (R437, DESIGN CHOICE, log entry 101). -/
def State.heldBits (s : State) (b : Blk) (off : Nat) : W32 :=
  if s.minimal ∧ off = 0 then (match b with | .head | .mc => 1 | _ => 0) else 0

/-- CTRL of a DMA channel with an owner: every write there is refused, one that writes no bit as 1 too (R312). -/
def State.ownedCtrl (s : State) (b : Blk) (off : Nat) : Bool :=
  decide (b = .dma) && decide (0x100 ≤ off ∧ off < 0x1100 ∧ off % 0x40 = 0) && decide (s.dmaOwner ((off - 0x100) / 0x40) ≠ 0)

/-- A write of d in a view to a register of fields (R35, R36, R42, R43). -/
def State.regWrite (s : State) (q : Req) (b : Blk) (i off : Nat) (r : RegRow) (w : View) (d : W32) : State :=
  let a := b.at i + off
  let old := s.reg a
  let mask := (r.rwMask b i off ||| BitVec.ofNat 32 r.rwl) &&& ~~~s.heldBits b off
  let v := w.apply mask old d ||| w.locks (BitVec.ofNat 32 r.lk) d
  let go := w.acts (BitVec.ofNat 32 r.w1p) (BitVec.ofNat 32 r.wo) d
  if mask = 0 ∧ go = 0 ∧ (r.wo = 0 ∨ w ≠ .normal) ∧ !s.ownedCtrl b off then s
  else
    match s.writeCheck b i off r old v go with
    | some c => s.err (b.at i) c off q
    | none =>
      match s.ownWrite b i off v go q with
      | some t => t
      | none => (s.setReg a v).blockEffect b i off old v go (v &&& d) q

/-! ## 72-bit values (R46 to R48) -/

/-- A write of LO or MID is staged for the value whose LO has address a. -/
def State.stage (s : State) (q : Req) (a : Nat) (w : Nat) (d : W32) : State :=
  let r := s.req q
  s.setReq q (if w = 0 then { r with lo := some (a, d) } else { r with mid := some (a, d) })

/-- Staging ends. -/
def State.unstage (s : State) (q : Req) : State := s.setReq q { s.req q with lo := none, mid := none }

/-- The value a write of HI commits, where LO and MID of the same value are staged. -/
def State.staged72 (s : State) (q : Req) (a : Nat) (d : W32) : Option W72 :=
  match (s.req q).lo, (s.req q).mid with
  | some (x, l), some (y, m) => if x = a ∧ y = a then some (d.extractLsb' 0 8 ++ m ++ l) else none
  | _, _ => none

/-- A write of word w of the value at a: LO and MID are staged, HI commits by f or is refused with cause STAGE in the block at base
with offset off. Every write of HI ends staging. -/
def State.wideWrite (s : State) (q : Req) (a w : Nat) (d : W32) (base off : Nat) (f : W72 → State → State) : State :=
  if w < 2 then s.stage q a w d
  else
    match s.staged72 q a d with
    | some v => f v (s.unstage q)
    | none => (s.unstage q).err base .stage off q

/-- The commit of a 72-bit register: a step of local time (R108), or a host message word (R217). -/
def State.wideCommit (s : State) (q : Req) (b : Blk) (i lo : Nat) (v : W72) : State :=
  match b with
  | .time => if s.rbit Reg.timeSrcPolicy 2 then s.timeStep v else s.err timeBase .range (lo + 8) q
  | _ => s.setWreg (b.at i + lo) v

/-! ## The windows (R465) -/

/-- An entry of a table or memory window. -/
inductive WinEntry where
  | probe (h bank w : Nat)
  | zone (z w : Nat)
  | status (z w : Nat)
  | desc (d w : Nat)
  | group (p e : Nat)
  | output (p k : Nat)
  | cluster (cl e : Nat)
  deriving DecidableEq, Repr

/-- The window entry an address lies in. -/
def winAt (a : Nat) : Option WinEntry :=
  if 0x1000000 ≤ a ∧ a < 0x1100000 then
    some (.probe ((a - 0x1000000) / 0x40000) (a / 0x20000 % 2) (a % 0x20000 / 16))
  else if 0x1200000 ≤ a ∧ a < 0x1280000 then some (.zone ((a - 0x1200000) / 0x80) (a % 0x80 / 16))
  else if 0x1280000 ≤ a ∧ a < 0x12A0000 then some (.status ((a - 0x1280000) / 0x20) (a % 0x20 / 16))
  else if 0x1400000 ≤ a ∧ a < 0x1440000 then some (.desc ((a - 0x1400000) / 0x40) (a % 0x40 / 16))
  else if 0x1600000 ≤ a ∧ a < 0x1602000 then some (.group ((a - 0x1600000) / 0x800) (a % 0x800 / 16))
  else if 0x1640000 ≤ a ∧ a < 0x1680000 then some (.output ((a - 0x1640000) / 0x10000) (a % 0x10000 / 16))
  else if 0x2000000 ≤ a ∧ a < 0x2800000 then some (.cluster ((a - 0x2000000) / 0x40000) (a % 0x40000 / 16))
  else none

/-- The base of the block whose ERR records accesses of a window (R465). -/
def WinEntry.base : WinEntry → Nat
  | .probe h _ _ => headBase h
  | .zone _ _ | .status _ _ => zoneBase
  | .desc _ _ => dmaBase
  | .group _ _ | .output _ _ => lampBase
  | .cluster cl _ => clBase cl

/-- What WIN of a cluster selects (R221). -/
def State.winSpace (s : State) (cl : Nat) : Nat := s.fld (Reg.clWin cl) 2 0
def State.winCore (s : State) (cl : Nat) : Nat := coreOf cl (s.fld (Reg.clWin cl) 6 4)
def State.winPage (s : State) (cl : Nat) : Nat := s.fld (Reg.clWin cl) 9 8

/-- How many entries of a cluster window are mapped (R221). -/
def State.winMapped (s : State) (cl : Nat) : Nat :=
  match s.winSpace cl with
  | 0 => 16384
  | 1 | 2 => 4096
  | _ => 2048

/-- An entry is mapped. -/
def State.winOk (s : State) : WinEntry → Bool
  | .cluster cl e => decide (e < s.winMapped cl)
  | _ => true

/-- A cluster window shows nothing: its domain is gated, or it names a core with a vendor role (R194, R212). -/
def State.winHidden (s : State) : WinEntry → Bool
  | .cluster cl _ => !s.dspPowered cl || (decide (s.winSpace cl ≠ 0) && (s.core (s.winCore cl)).vendor)
  | _ => false

/-- A word of a cluster window. -/
def State.clusterWord (s : State) (cl e : Nat) : W72 :=
  match s.winSpace cl with
  | 0 => s.sram.get 0 (65536 * cl + 16384 * s.winPage cl + e)
  | 4 => (s.imem.get 0 (2048 * s.winCore cl + e)).setWidth 72
  | k => s.cmem.get 0 (16384 * s.winCore cl + 4096 * (k - 1) + e)

/-- The word of an entry. -/
def State.winWord (s : State) : WinEntry → W72
  | .probe h bank w => s.probe.get 0 (probeKey h bank w)
  | .zone z w => s.zoneWord z w
  | .status z w => s.zoneStatus z w
  | .desc d w => s.descs.get 0 (4 * d + w)
  | .group p e => s.groups.get 0 (128 * p + e)
  | .output p k =>
    let o (n : Nat) : BitVec 18 := s.lampOuts.get 0 (outKey p (4 * k + n))
    o 3 ++ o 2 ++ o 1 ++ o 0
  | .cluster cl e => s.clusterWord cl e

/-- A write of the core memory a cluster window names makes its loop cache invalid (R202). -/
def State.imemWrite (s : State) (c e : Nat) (v : W72) : State :=
  let x := s.core c
  let s := { s with imem := s.imem.set 0 (2048 * c + e) (v.extractLsb' 0 64) }
  if x.loops.any fun l => l.again then s.setCore c { x with loops := x.loops.map fun l => { l with again := false } } else s

/-- A commit through a cluster window, refused or made (R194, R197, R212, R221). -/
def State.clusterCommit (s : State) (cl e : Nat) (v : W72) : Cause ⊕ State :=
  let c := s.winCore cl
  let shut := (s.core c).vendor || decide ((s.core c).mode = .running)
  let a := 16384 * s.winPage cl + e
  if !s.dspPowered cl then .inl .busy
  else
    match s.winSpace cl with
    | 0 => if s.vendorOn cl ∧ a < 0x4000 then .inl .busy else .inr { s with sram := s.sram.set 0 (65536 * cl + a) v }
    | 4 => if shut then .inl .busy else if v.extractLsb' 64 8 ≠ 0 then .inl .range else .inr (s.imemWrite c e v)
    | k => if shut then .inl .busy else .inr { s with cmem := s.cmem.set 0 (16384 * c + 4096 * (k - 1) + e) v }

/-- The commit of a window entry at offset off; status words are read only (R271, R344), [71:64] of a group word is zero (R332). -/
def State.winCommit (s : State) (q : Req) (x : WinEntry) (off : Nat) (v : W72) : State :=
  match x with
  | .probe h bank w => s.probeWordWrite h bank w v q
  | .zone z w => s.zoneCommit z w v q
  | .desc d w => s.descCommit d w v q
  | .group p e => { s with groups := s.groups.set 0 (128 * p + e) (v &&& 0xFFFFFFFFFFFFFFFF) }
  | .cluster cl e =>
    match s.clusterCommit cl e v with
    | .inl c => s.err (clBase cl) c off q
    | .inr t => t
  | .status _ _ | .output _ _ => s

/-- Entries that ignore writes. -/
def WinEntry.readOnly : WinEntry → Bool
  | .status _ _ | .output _ _ => true
  | _ => false

/-! ## The privileged window (R44, R45) -/

/-- The register of a privileged index: its block and offset. -/
def privReg (p : Nat) : Blk × Nat :=
  match p with
  | 0 => (.life, 4)
  | 1 => (.sys, 0x14)
  | 2 => (.lamp, 0)
  | 3 => (.nvm, 4)
  | _ => (.sys, 0x10)

/-- The bits of a privileged register that the window may write. -/
def privMask (p : Nat) : W32 :=
  match p with
  | 0 => 0x80000031
  | 1 | 2 | 4 => 0xF
  | _ => 7

/-- A write of STATE_CTRL through the window: GO, TARGET or LOCK; every change raises vector 237 (R42, R445, R448). -/
def State.stateCtrlBit (s : State) (b : Nat) (v : Bool) (q : Req) : State :=
  let off := 4 * b
  let old := s.rbit Reg.lifeStateCtrl b
  let locked := s.rbit Reg.lifeStateCtrl 31
  if b = 0 then (if v then s.lifeGo q else s)
  else if b = 31 then (if v && !old then (s.setRbit Reg.lifeStateCtrl 31 true).event 237 else s)
  else if v = old then s
  else if locked then s.err 0 .locked off q
  else (s.setRbit Reg.lifeStateCtrl b v).event 237

/-- A permitted write of one bit through the window. -/
def State.privWrite (s : State) (p b : Nat) (v : Bool) (q : Req) : State :=
  match p with
  | 0 => s.stateCtrlBit b v q
  | 1 => s.armWrite b v
  | 2 => if v then s.emergSet b else s.emergClear b
  | 3 => s.setRbit Reg.nvmWriteCtrl b v
  | _ => if v then s.resetCtrl (b = 0) (b = 1) (b = 2) (b = 3) else s

/-- A write to the window's word at offset o: the bit, or a refusal recorded in SYS.ERR. -/
def State.privWindowWrite (s : State) (o : Nat) (d : W32) (q : Req) : State :=
  let p := o / 128
  let b := o / 4 % 32
  if bitOf (privMask p) b then s.privWrite p b (bitOf d 0) q else s.err 0 .priv o q

/-! ## What an address reaches -/

/-- What an address of BAR0 reaches. -/
inductive Target where
  /-- Nothing: recorded in the ERR of the block at base with an offset (R31, R465). -/
  | unmapped (base off : Nat)
  /-- A register of fields, an RS, an ACK or a privileged register, in a view. -/
  | reg (b : Blk) (i off : Nat) (r : RegRow) (w : View)
  /-- Word w of the 72-bit register whose LO lies at an offset, in a view. -/
  | wide (b : Blk) (i lo w : Nat) (rw : Bool) (v : View)
  /-- Word w of a window entry; the entry lies at an offset. -/
  | win (x : WinEntry) (off w : Nat)
  /-- A word of the MSI-X window. -/
  | msix (i : Nat)
  /-- A word of the privileged window. -/
  | priv (o : Nat)
  deriving DecidableEq, Repr

/-- What an address below 0x0100_0000 reaches (R30 to R32, R44, R45). -/
def regTarget (a : Nat) : Target :=
  match blockAt a with
  | none => if 0xF00000 ≤ a ∧ a < 0xF00280 then .priv (a - 0xF00000) else .unmapped 0 (a % 0x10000)
  | some (b, i) =>
    let off := a % 0x10000
    match b.row (off % 0x4000) with
    | none => .unmapped (b.at i) off
    | some (r, _, w) =>
      match r.kind with
      | .wideRO => .wide b i (off % 0x4000 - 4 * w) w false (viewOf off)
      | .wideRW => .wide b i (off % 0x4000 - 4 * w) w true (viewOf off)
      | .plain | .rs | .ack | .priv => .reg b i (off % 0x4000) r (viewOf off)

/-- What a word-aligned address reaches; an entry a cluster window does not map is unmapped (R221, R465). -/
def State.target (s : State) (a : Nat) : Target :=
  if a < 0x1000000 then regTarget a
  else if 0x1500000 ≤ a ∧ a < 0x1502040 then .msix ((a - 0x1500000) / 4)
  else
    match winAt a with
    | none => .unmapped 0 (a % 0x10000)
    | some x =>
      if s.winOk x || decide (a % 16 = 12) then .win x (a % 0x10000 / 16 * 16) (a % 16 / 4) else .unmapped x.base (a % 0x10000)

/-- An address with its two low bits dropped (R33). -/
def wordAddr (a : Addr) : Nat := a.toNat / 4 * 4

/-! ## Reads -/

/-- The bits a normal-view read of a register clears: the RC bits it returned as 1 (R39). -/
def State.readClear (s : State) (b : Blk) (i off : Nat) (r : RegRow) (w : View) (v : W32) : State :=
  if r.rc = 0 ∨ w ≠ .normal then s
  else s.setReg (b.at i + off) (s.reg (b.at i + off) &&& ~~~(v &&& BitVec.ofNat 32 r.rc))

/-- A read by a requester: the value it returns, and the state it leaves (R31, R36, R37, R39, R47). A scrapped device serves reads of
SYS and LIFE only, and a device held in reset none (R429, R443). -/
def State.busRead (s : State) (q : Req) (a : Nat) : W32 × State :=
  if s.boot.held ∨ s.scrapped ∧ 0x20000 ≤ a then (0, s)
  else
    match s.target a with
    | .unmapped base off => (0, s.err base .unmapped off q)
    | .reg b i off r w =>
      let v := if r.kind = .ack then 0 else s.readReg b i off
      (v, (s.readClear b i off r w v).when (b = .dma && s.dmaShowsOwner off) State.drawn)
    | .wide b i lo w _ view =>
      let x := s.readWide b i lo
      (s.wideWord q x w, if view = .normal then s.wideSnap q x w else s)
    | .win x _ w =>
      if w = 3 ∨ s.winHidden x then (0, s) else (s.wideWord q (s.winWord x) w, s.wideSnap q (s.winWord x) w)
    | .msix i => (s.msixWord i, s)
    | .priv o => (BitVec.ofNat 32 (b2n (bitOf (s.readReg (privReg (o / 128)).1 0 (privReg (o / 128)).2) (o / 4 % 32))), s)

/-- The bytes that byte enables address; the others read 0 (R33, DEDUCED, log entry 52). -/
def byteMask (be : BitVec 4) : W32 :=
  BitVec.ofNat 32 ((List.range 4).foldl (fun a i => a + if be.getLsbD i then 255 * 2 ^ (8 * i) else 0) 0)

/-- A read with byte enables: only the addressed bytes come back, with the side effects of a full read (R33). The data is kept as what the
requester last read (DESIGN CHOICE, log entry 3). -/
def State.readBy (s : State) (q : Req) (a : Addr) (be : BitVec 4) : State :=
  let (v, t) := s.busRead q (wordAddr a)
  t.answer q (v &&& byteMask be)

/-! ## Writes -/

/-- A write to a register in a view: ACK registers clear by ACK_SEQ, RS registers ignore it, privileged ones refuse it
(R36, R40, R44). -/
def State.regTargetWrite (s : State) (q : Req) (b : Blk) (i off : Nat) (r : RegRow) (w : View) (d : W32) : State :=
  match r.kind with
  | .priv => s.err (b.at i) .priv off q
  | .ack => if w = .normal then s.ack (b.at i + off - 4) d else s
  | .plain => s.regWrite q b i off r w d
  | .rs | .wideRO | .wideRW => s

/-- A write of d by a requester with all byte enables set (R31, R35 to R37, R45 to R48). A LO or MID write to a read-only 72-bit value leaves
what is staged as it is (R48, DEDUCED, log entry 26). A scrapped device and one held in reset ignore it (R429, R443). -/
def State.busWrite (s : State) (q : Req) (a : Nat) (d : W32) : State :=
  if s.shut then s
  else
    match s.target a with
    | .unmapped base off => s.err base .unmapped off q
    | .reg b i off r w =>
      let t := s.regTargetWrite q b i off r w d
      if w = .normal then t else s.errAt t (b.at i) (a % 0x10000)
    | .wide b i lo w rw view =>
      if view ≠ .normal then s
      else if !rw then (if w = 2 then s.unstage q else s)
      else s.wideWrite q (b.at i + lo) w d (b.at i) (lo + 4 * w) fun v t => t.wideCommit q b i lo v
    | .win x off w =>
      if w = 3 then s
      else if x.readOnly then (if w = 2 then s.unstage q else s)
      else s.wideWrite q (a - 4 * w) w d x.base off fun v t => t.winCommit q x off v
    | .msix i => s.msixWrite i d
    | .priv o => s.privWindowWrite o d q

/-- A write whose byte enables are not all set: refused with cause WIDTH where the address is mapped, ending staging where it is of
HI (R33, R48). At +0xC of a window entry the write is ignored and not recorded, as any write there is (R33, R465, DEDUCED, log entry 24). -/
def State.partialWrite (s : State) (q : Req) (a : Nat) : State :=
  if s.shut then s
  else
    match s.target a with
    | .unmapped base off => s.err base .unmapped off q
    | .reg b i _ _ _ => s.err (b.at i) .width (a % 0x10000) q
    | .wide b i _ w _ view => (if w = 2 ∧ view = .normal then s.unstage q else s).err (b.at i) .width (a % 0x10000) q
    | .win x off w => if w = 3 then s else (if w = 2 then s.unstage q else s).err x.base .width off q
    | .msix _ => s.err attnBase .width (a % 0x10000) q
    | .priv o => s.err 0 .width o q

/-- A write with byte enables (R33). -/
def State.writeBe (s : State) (q : Req) (a : Nat) (be : BitVec 4) (d : W32) : State :=
  if be = 0xF then s.busWrite q a d else s.partialWrite q a

/-! ## The commands -/

/-- REGISTER_WRITE (R33, R36): one access of 32 bits, or of 64 bits taken as two, the lower address first. -/
def execRegisterWrite (q : Req) (a : Addr) (be : BitVec 4) (v : W32) (hi : Option (BitVec 4 × W32)) (s : State) :
    Host.Outcome State Fault Refusal :=
  let t := s.writeBe q (wordAddr a) be v
  .next (match hi with
  | none => t
  | some (be', v') => t.writeBe q (wordAddr (a + 4)) be' v')

/-- The address of a view of the register an address names. -/
def aliasAddr (a : Addr) (k : Nat) : Nat := wordAddr a / 0x10000 * 0x10000 + wordAddr a % 0x4000 + 0x4000 * k

/-- SET_ALIAS_WRITE (R37): a write of v at the SET alias of a register of the blocks. -/
def execSetAliasWrite (q : Req) (a : Addr) (v : W32) (s : State) : Host.Outcome State Fault Refusal :=
  .next (if wordAddr a < 0x1000000 then s.busWrite q (aliasAddr a 1) v else s)

/-- CLR_ALIAS_WRITE (R37). -/
def execClrAliasWrite (q : Req) (a : Addr) (v : W32) (s : State) : Host.Outcome State Fault Refusal :=
  .next (if wordAddr a < 0x1000000 then s.busWrite q (aliasAddr a 2) v else s)

/-- TGL_ALIAS_WRITE (R37). -/
def execTglAliasWrite (q : Req) (a : Addr) (v : W32) (s : State) : Host.Outcome State Fault Refusal :=
  .next (if wordAddr a < 0x1000000 then s.busWrite q (aliasAddr a 3) v else s)

/-- UNMAPPED_ACCESS (R31): a read, or a write of w, at an address. -/
def execUnmappedAccess (q : Req) (a : Addr) (w : BusAccess) (s : State) : Host.Outcome State Fault Refusal :=
  .next (match w.w with
  | none => s.readBy q a w.be
  | some d => s.writeBe q (wordAddr a) w.be d)

/-- CLEARING_READ (R39): a read. -/
def execClearingRead (q : Req) (a : ReadAt) (s : State) : Host.Outcome State Fault Refusal := .next (s.readBy q a.addr a.be)

/-- ACK_WRITE (R40): a write. -/
def execAckWrite (q : Req) (a : Addr) (v : W32) (s : State) : Host.Outcome State Fault Refusal :=
  .next (s.busWrite q (wordAddr a) v)

/-- LO_READ (R47): a read. -/
def execLoRead (q : Req) (a : ReadAt) (s : State) : Host.Outcome State Fault Refusal := .next (s.readBy q a.addr a.be)

/-- STAGE_WRITE (R48): a write. -/
def execStageWrite (q : Req) (a : Addr) (v : W32) (s : State) : Host.Outcome State Fault Refusal :=
  .next (s.busWrite q (wordAddr a) v)

/-- HI_COMMIT (R48): a write. -/
def execHiCommit (q : Req) (a : Addr) (v : W32) (s : State) : Host.Outcome State Fault Refusal :=
  .next (s.busWrite q (wordAddr a) v)

/-- BIT_ALIAS_WRITE (R45): a write. -/
def execBitAliasWrite (q : Req) (a : Addr) (v : W32) (s : State) : Host.Outcome State Fault Refusal :=
  .next (s.busWrite q (wordAddr a) v)

/-- TIME_STEP_COMMIT (R108): a write of STEP.HI. -/
def execTimeStepCommit (q : Req) (v : W32) (s : State) : Host.Outcome State Fault Refusal :=
  .next (s.busWrite q (Reg.timeStep + 8) v)

/-- ZONE_ENABLE (R254): a write of HI of word 0 of a zone with EN at 1. -/
def execZoneEnable (q : Req) (z : Zone) (v : W32) (s : State) : Host.Outcome State Fault Refusal :=
  .next (s.busWrite q (0x1200008 + 0x80 * z.val) (withBit v 7 true))

/-- ZONE_DISABLE (R270): a write of HI of word 0 of a zone with EN at 0. -/
def execZoneDisable (q : Req) (z : Zone) (v : W32) (s : State) : Host.Outcome State Fault Refusal :=
  .next (s.busWrite q (0x1200008 + 0x80 * z.val) (withBit v 7 false))

end Sys2Proof.Machine
end

