-- ==== Sys2Proof/Machine/Operands.lean ====
section
/-!
DEFINITION. The instruction words of the Soric cores (R224 to R231, R243, R247): their forms, decoding and encoding, the operand
columns of the opcode table, the static checks that make an instruction ILLEGAL, and the operands' values (R223, R230).
-/
namespace Sys2Proof.Machine

/-! ## Words -/

/-- A compute slot in its form (R225). -/
inductive Slot where
  | reg (op : BitVec 7) (w : FormR)
  | con (op : BitVec 7) (w : FormK)
  | fld (op : BitVec 7) (w : FormF)
  deriving DecidableEq, Repr

/-- An instruction of a core (R224). -/
inductive Soric where
  | par (c : Slot) (x y : MoveF)
  | br (cond : BitVec 4) (target : BitVec 11) (popn : BitVec 2)
  | call (d : BitVec 4) (target : BitVec 11)
  | jmp (cond a : BitVec 4) (popn : BitVec 2)
  | loop (rc : Bool) (a : BitVec 4) (count : BitVec 16) (last : BitVec 11)
  | halt
  | send (reg : BitVec 4)
  | recv (reg : BitVec 4) (wait : Bool)
  | rbnc (reg : BitVec 4) (wait : Bool)
  | dbell
  | lig (reg : BitVec 4) (imm : BitVec 56)
  | lih (reg : BitVec 4) (imm : BitVec 16)
  | lis (sr : BitVec 7) (imm : BitVec 18)
  deriving DecidableEq, Repr

/-- The empty move slot (R226). -/
def noMove : MoveF := ⟨0, 0, 0, false, 0⟩

/-- The compute slot of NOP (R231). -/
def nopSlot : Slot := Slot.reg 0 ⟨0, 0, 0, 0, false, 0, false, 0⟩

/-! ## The opcode table -/

/-- One row of the opcode table: form, whether D, SA, SB, ACC and MOD are used, whether b may come from C, and whether the count
may come from G[SB] (R231). -/
structure OpRow where
  form : Nat := 0
  d : Bool := true
  a : Bool := true
  b : Bool := false
  c : Bool := false
  acc : Bool := false
  md : Bool := false
  cnt : Bool := false
  x : Bool := false

/-- The compute opcodes of R231 by number; none for a code that is not listed. -/
def opRow (op : Nat) : Option OpRow :=
  let ab : OpRow := { b := true, c := true }
  let shift : OpRow := { form := 1, cnt := true }
  match op with
  | 0x00 => some { d := false, a := false }
  | 0x01 => some {}
  | 0x02 | 0x03 | 0x04 | 0x05 => some ab
  | 0x06 => some { ab with d := false }
  | 0x07 | 0x08 => some {}
  | 0x09 | 0x0A | 0x0B | 0x0C | 0x0D | 0x0E | 0x0F | 0x10 => some ab
  | 0x11 => some {}
  | 0x12 => some { form := 1, a := false }
  | 0x13 => some { form := 1, d := false }
  | 0x14 | 0x15 => some ab
  | 0x16 | 0x17 | 0x18 => some {}
  | 0x20 => some { ab with md := true }
  | 0x21 => some { ab with d := false, acc := true, md := true }
  | 0x22 | 0x23 | 0x24 => some { form := 1, a := false, acc := true, x := true }
  | 0x25 => some { form := 1, d := false, acc := true, x := true }
  | 0x26 => some { d := false, a := false, acc := true }
  | 0x27 => some { d := false, acc := true }
  | 0x30 => some { ab with md := true }
  | 0x31 => some { d := false, a := false }
  | 0x38 | 0x39 | 0x3A => some {}
  | 0x3B => some { ab with md := true }
  | 0x3C => some ab
  | 0x40 | 0x41 | 0x42 | 0x43 | 0x44 | 0x48 | 0x49 | 0x4A => some shift
  | 0x45 | 0x46 | 0x47 => some { form := 1 }
  | 0x4B | 0x4C => some { form := 2 }
  | 0x4D => some {}
  | _ => none

/-! ## Encoding -/

/-- The bits [61:32] of a compute slot (R225). -/
def Slot.bits : Slot → BitVec 30
  | .reg op f => op ++ f.d ++ f.sa ++ f.sb ++ f.acc ++ BitVec.ofBool f.cs ++ f.cp ++ BitVec.ofBool f.cpm ++ f.md
  | .con op f => op ++ f.d ++ f.sa ++ f.sb ++ f.acc ++ (0#1) ++ f.k ++ BitVec.ofBool f.x
  | .fld op f => op ++ f.d ++ f.sa ++ f.w ++ f.k ++ (0#1)

/-- The 16 bits of a move slot (R226). -/
def moveBits (m : MoveF) : BitVec 16 := m.mop ++ m.space ++ m.ptr ++ BitVec.ofBool m.pm ++ m.greg ++ (0#3)

/-- The word of an instruction (R224 to R226, R243, R247). -/
def Soric.encode : Soric → BitVec 64
  | .par c x y => (0#2) ++ c.bits ++ moveBits x ++ moveBits y
  | .br c t n => (2#2) ++ (1#6) ++ c ++ t ++ n ++ (0#39)
  | .call d t => (2#2) ++ (2#6) ++ d ++ t ++ (0#41)
  | .jmp c a n => (2#2) ++ (3#6) ++ c ++ a ++ (0#7) ++ n ++ (0#39)
  | .loop rc a n e => (2#2) ++ (4#6) ++ BitVec.ofBool rc ++ a ++ n ++ e ++ (0#24)
  | .halt => (2#2) ++ (5#6) ++ (0#56)
  | .send r => (2#2) ++ (6#6) ++ r ++ (0#52)
  | .recv r w => (2#2) ++ (7#6) ++ r ++ BitVec.ofBool w ++ (0#51)
  | .rbnc r w => (2#2) ++ (8#6) ++ r ++ BitVec.ofBool w ++ (0#51)
  | .dbell => (2#2) ++ (9#6) ++ (0#56)
  | .lig r i => (3#2) ++ (0#2) ++ r ++ i
  | .lih r i => (3#2) ++ (1#2) ++ r ++ (0#40) ++ i
  | .lis r i => (3#2) ++ (2#2) ++ r ++ (0#35) ++ i

/-! ## Decoding -/

/-- A move slot from its bits, none where the layout's zero is not 0 (R226). -/
def decodeMove (v : BitVec 16) : Option MoveF :=
  if v.extractLsb' 0 3 = 0 then
    some ⟨v.extractLsb' 13 3, v.extractLsb' 11 2, v.extractLsb' 8 3, v.getLsbD 7, v.extractLsb' 3 4⟩
  else none

/-- A compute slot from bits [61:32], in the form its opcode has (R225, R231). -/
def decodeSlot (v : BitVec 30) : Option Slot :=
  let op : BitVec 7 := v.extractLsb' 23 7
  let d : BitVec 4 := v.extractLsb' 19 4
  let sa : BitVec 4 := v.extractLsb' 15 4
  let sb : BitVec 4 := v.extractLsb' 11 4
  let acc : BitVec 2 := v.extractLsb' 9 2
  match opRow op.toNat with
  | none => none
  | some row =>
    match row.form with
    | 0 => some (.reg op ⟨d, sa, sb, acc, v.getLsbD 8, v.extractLsb' 5 3, v.getLsbD 4, v.extractLsb' 0 4⟩)
    | 1 => if v.getLsbD 8 then none else some (.con op ⟨d, sa, sb, acc, v.extractLsb' 1 7, v.getLsbD 0⟩)
    | _ => if v.getLsbD 0 then none else some (.fld op ⟨d, sa, v.extractLsb' 8 7, v.extractLsb' 1 7⟩)

/-- A control instruction from its low 56 bits and COP (R243). -/
def decodeControl (cop : BitVec 6) (v : BitVec 56) : Option Soric :=
  let r : BitVec 4 := v.extractLsb' 52 4
  let t : BitVec 11 := v.extractLsb' 41 11
  let n : BitVec 2 := v.extractLsb' 39 2
  match cop.toNat with
  | 1 => if v.extractLsb' 0 39 = 0 then some (.br r t n) else none
  | 2 => if v.extractLsb' 0 41 = 0 then some (.call r t) else none
  | 3 => if v.extractLsb' 0 39 = 0 ∧ v.extractLsb' 41 7 = 0 then some (.jmp r (v.extractLsb' 48 4) n) else none
  | 4 =>
    if v.extractLsb' 0 24 = 0 then
      some (.loop (v.getLsbD 55) (v.extractLsb' 51 4) (v.extractLsb' 35 16) (v.extractLsb' 24 11))
    else none
  | 5 => if v = 0 then some .halt else none
  | 6 => if v.extractLsb' 0 52 = 0 then some (.send r) else none
  | 7 => if v.extractLsb' 0 51 = 0 then some (.recv r (v.getLsbD 51)) else none
  | 8 => if v.extractLsb' 0 51 = 0 then some (.rbnc r (v.getLsbD 51)) else none
  | 9 => if v = 0 then some .dbell else none
  | _ => none

/-- The instruction of a word; none where the word has no defined encoding (R224, R227). -/
def decodeSoric (v : BitVec 64) : Option Soric :=
  match (v.extractLsb' 62 2).toNat with
  | 0 =>
    match decodeSlot (v.extractLsb' 32 30), decodeMove (v.extractLsb' 16 16), decodeMove (v.extractLsb' 0 16) with
    | some c, some x, some y => some (.par c x y)
    | _, _, _ => none
  | 1 => none
  | 2 => decodeControl (v.extractLsb' 56 6) (v.extractLsb' 0 56)
  | _ =>
    match (v.extractLsb' 60 2).toNat with
    | 0 => some (.lig (v.extractLsb' 56 4) (v.extractLsb' 0 56))
    | 1 => if v.extractLsb' 16 40 = 0 then some (.lih (v.extractLsb' 56 4) (v.extractLsb' 0 16)) else none
    | 2 => if v.extractLsb' 18 35 = 0 then some (.lis (v.extractLsb' 53 7) (v.extractLsb' 0 18)) else none
    | _ => none

/-! ## Checks that make an instruction ILLEGAL -/

/-- A move slot loads, stores, or does neither. -/
def moveLoads (m : MoveF) : Bool := decide (m.mop = 1)
def moveStores (m : MoveF) : Bool := decide (m.mop = 2) || decide (m.mop = 3)

/-- A move slot post-modifies its pointer. -/
def moveMods (m : MoveF) : Bool := m.pm && decide (m.mop ≠ 0)

/-- A move slot is legal by itself (R226). -/
def moveOk (m : MoveF) : Bool :=
  match m.mop.toNat with
  | 0 => decide (m = noMove)
  | 1 | 2 | 3 => decide (m.space ≠ 3)
  | 4 => decide (m.space = 0) && decide (m.greg = 0) && m.pm
  | _ => false

/-- Fields an opcode does not use are 0, and its own ranges hold (R225, R227, R230, R231, R236 to R241). -/
def Slot.ok : Slot → Bool
  | .reg op f =>
    match opRow op.toNat with
    | none => false
    | some w =>
      decide (w.form = 0) && (w.d || decide (f.d = 0)) && (w.a || decide (f.sa = 0)) && (w.b || decide (f.sb = 0)) &&
      (w.acc || decide (f.acc = 0)) && (w.md || decide (f.md = 0)) &&
      (w.c || (!f.cs && decide (f.cp = 0) && !f.cpm)) && (f.cs || !f.cpm) &&
      (match op.toNat with
        | 0x20 => !f.md.getLsbD 2 && (decide (f.md.extractLsb' 0 2 ≠ 3) || (!f.cs && decide (f.sb = 0)))
        | 0x21 => decide (f.md.extractLsb' 0 2 ≠ 3) || (!f.cs && decide (f.sb = 0))
        | 0x27 => decide (f.sa.toNat < 4)
        | 0x30 => decide (f.md.toNat < 4)
        | 0x3B => decide (f.md.toNat < 2)
        | _ => true)
  | .con op f =>
    match opRow op.toNat with
    | none => false
    | some w =>
      decide (w.form = 1) && (w.d || decide (f.d = 0)) && (w.a || decide (f.sa = 0)) && (w.cnt || decide (f.sb = 0)) &&
      (w.acc || decide (f.acc = 0)) && (w.cnt || w.x || !f.x) &&
      (match op.toNat with
        | 0x12 => decide (f.k.toNat ≤ 0x27)
        | 0x13 => decide (f.k.toNat ≤ 0x23)
        | 0x22 | 0x23 | 0x24 => decide (f.k.toNat ≤ 79)
        | 0x25 => decide (f.k.toNat ≤ if f.x then 7 else 43)
        | 0x45 | 0x47 => decide (1 ≤ f.k.toNat) && decide (f.k.toNat ≤ 72)
        | 0x46 => decide (f.k.toNat ≤ 71)
        | _ => true)
  | .fld op f =>
    match opRow op.toNat with
    | none => false
    | some w => decide (w.form = 2) && decide (f.k.toNat + f.w.toNat ≤ 71)

/-- The opcode of a compute slot. -/
def Slot.op : Slot → Nat
  | .reg op _ => op.toNat
  | .con op _ => op.toNat
  | .fld op _ => op.toNat

/-- The destination field of a compute slot. -/
def Slot.d : Slot → Nat
  | .reg _ f => f.d.toNat
  | .con _ f => f.d.toNat
  | .fld _ f => f.d.toNat

/-- The G registers a compute slot writes (R231). -/
def Slot.dests (c : Slot) : List Nat :=
  match opRow c.op with
  | none => []
  | some w => if !w.d then [] else if c.op = 0x30 then [c.d, Nat.xor c.d 1] else [c.d]

/-- The pointers a parallel instruction post-modifies, one entry per part. -/
def Slot.cMods : Slot → List Nat
  | .reg _ f => if f.cpm then [f.cp.toNat] else []
  | _ => []

/-- The pointer an MSR writes, if it writes one. -/
def Slot.msrP : Slot → Option Nat
  | .con op f => if op = 0x13 ∧ f.k.toNat < 8 then some f.k.toNat else none
  | _ => none

/-- No two parts of a parallel instruction write one G register or post-modify one pointer, and no MSR writes a pointer that is
post-modified (R229). -/
def partsOk (c : Slot) (x y : MoveF) : Bool :=
  let gs := c.dests ++ (if moveLoads x then [x.greg.toNat] else []) ++ (if moveLoads y then [y.greg.toNat] else [])
  let ps := c.cMods ++ (if moveMods x then [x.ptr.toNat] else []) ++ (if moveMods y then [y.ptr.toNat] else [])
  decide gs.Nodup && decide ps.Nodup && (match c.msrP with | some p => !ps.contains p | none => true)

/-- The width of a special register (R234). -/
def srWidth (sr : Nat) : Nat :=
  if sr < 0x10 then 16 else if sr < 0x18 then 18 else if sr < 0x22 then 16
  else match sr with
    | 0x22 => 10
    | 0x23 => 16
    | 0x24 => 4
    | 0x25 => 12
    | 0x26 => 11
    | 0x27 => 2
    | _ => 0

/-- An instruction is legal at address pc, by the checks of R248 that R227, R229, R237, R241, R245 and R247 make. -/
def Soric.ok (i : Soric) (pc : Nat) : Bool :=
  match i with
  | .par c x y => c.ok && moveOk x && moveOk y && partsOk c x y
  | .loop rc a n e => decide (pc + 1 ≤ e.toNat) && (if rc then decide (n = 0) else decide (a = 0))
  | .send r => decide (r.toNat % 4 = 0)
  | .recv r _ => decide (r.toNat % 4 = 0)
  | .rbnc r _ => decide (r.toNat % 4 = 0)
  | .lis sr imm => decide (sr.toNat ≤ 0x23) && decide (imm.toNat < 2 ^ srWidth sr.toNat)
  | _ => true

/-! ## Values -/

/-- x.w of a word (R223). -/
def ww (v : W72) : Int := v.toInt

/-- x.re and x.im of a word (R223). -/
def re (v : W72) : Int := fieldS v 71 36
def im (v : W72) : Int := fieldS v 35 0

/-- The word of an integer result (R223). -/
def ofInt (x : Int) : W72 := toW 72 x

/-- cq(re, im) (R223). -/
def cqw (r i : Int) : W72 := BitVec.ofNat 72 ((r % 2 ^ 36).toNat * 2 ^ 36 + (i % 2 ^ 36).toNat)

end Sys2Proof.Machine
end

