-- ==== Sys2Proof/Machine/Flags.lean ====
section
/-!
DEFINITION. What each compute opcode yields (R232 to R242): the values for G registers, an accumulator or a special register, and
the flags it changes. Nothing here reads or writes State.
-/
namespace Sys2Proof.Machine

/-- What a compute operation yields: none in a flag's place leaves the flag unchanged (R242). -/
structure Effect where
  gs : List (Nat × W72) := []
  acc : Option (Nat × (Int × Int)) := none
  z : Option Bool := none
  n : Option Bool := none
  v : Option Bool := none
  c : Option Bool := none
  satd : Bool := false
  gov : Bool := false
  /-- The detection class of a BFLY with DET (R238). -/
  det : Nat := 0
  stgend : Bool := false
  sr : Option (Nat × W72) := none
  deriving DecidableEq

/-- A result for G[d] that sets Z and N (R242). -/
def effZN (d : Nat) (r : W72) : Effect := { gs := [(d, r)], z := some (r = 0), n := some (r.getLsbD 71) }

/-- A result for G[d] that sets Z, N and V. -/
def effZNV (d : Nat) (r : W72) (v : Bool) : Effect := { effZN d r with v := some v }

/-- A complex result whose parts saturate to 36 bits; V where one changed (R233). -/
def effSat (d : Nat) (r i : Int) : Effect :=
  { gs := [(d, cqw (sat r 36) (sat i 36))], v := some (sat r 36 ≠ r || sat i 36 ≠ i) }

/-- A result for G[d] saturated to 72 bits, with V where it changed. -/
def effSat72 (d : Nat) (t : Int) : Effect := effZNV d (ofInt (sat t 72)) (sat t 72 ≠ t)

/-! ## Scalar group (R232) -/

/-- An exact sum or difference lies outside the 72-bit range. -/
def over72 (t : Int) : Bool := t < -2 ^ 71 || 2 ^ 71 - 1 < t

def effMov (d : Nat) (a : W72) : Effect := effZN d a
def effAdd (d : Nat) (a b : W72) : Effect :=
  { effZNV d (a + b) (over72 (ww a + ww b)) with c := some (2 ^ 72 ≤ a.toNat + b.toNat) }
def effSub (d : Nat) (a b : W72) : Effect :=
  { effZNV d (a - b) (over72 (ww a - ww b)) with c := some (b.toNat ≤ a.toNat) }
def effCmp (a b : W72) : Effect := { effSub 0 a b with gs := [] }
def effAdds (d : Nat) (a b : W72) : Effect := effSat72 d (ww a + ww b)
def effSubs (d : Nat) (a b : W72) : Effect := effSat72 d (ww a - ww b)
def effNeg (d : Nat) (a : W72) : Effect := effSat72 d (-ww a)
def effAbs (d : Nat) (a : W72) : Effect := effSat72 d (ww a).natAbs
def effMin (d : Nat) (a b : W72) : Effect := effZN d (if ww a ≤ ww b then a else b)
def effMax (d : Nat) (a b : W72) : Effect := effZN d (if ww a ≤ ww b then b else a)
def effAnd (d : Nat) (a b : W72) : Effect := effZN d (a &&& b)
def effOr (d : Nat) (a b : W72) : Effect := effZN d (a ||| b)
def effXor (d : Nat) (a b : W72) : Effect := effZN d (a ^^^ b)
def effAndn (d : Nat) (a b : W72) : Effect := effZN d (a &&& ~~~b)
def effMull (d : Nat) (a b : W72) : Effect := effZNV d (a * b) (wrap (ww a * ww b) 72 ≠ ww a * ww b)
def effDivr (d : Nat) (a b : W72) : Effect :=
  if ww b ≤ 0 then effZNV d 0 true else effZNV d (ofInt (divr (ww a) (ww b))) false
def effLnq (d : Nat) (a : W72) : Effect :=
  if ww a ≤ 0 then effZNV d 0 true else effZNV d (ofInt (lnq (ww a).toNat)) false

/-! ## Complex group (R233, R236, R237) -/

def effCadd (d : Nat) (a b : W72) : Effect := effSat d (re a + re b) (im a + im b)
def effCsub (d : Nat) (a b : W72) : Effect := effSat d (re a - re b) (im a - im b)
def effCneg (d : Nat) (a : W72) : Effect := effSat d (-re a) (-im a)
def effConj (d : Nat) (a : W72) : Effect := effSat d (re a) (-im a)
def effCswp (d : Nat) (a : W72) : Effect := { gs := [(d, cqw (im a) (re a))] }

/-- The exact product of a kind (R236). -/
def product (kind : Nat) (a b : W72) : Int × Int :=
  let xr := re a
  let xi := im a
  let yr := re b
  let yi := im b
  match kind with
  | 0 => (xr * yr - xi * yi, xr * yi + xi * yr)
  | 1 => (xr * yr + xi * yi, xi * yr - xr * yi)
  | 2 => (xr * yr, xi * yi)
  | _ => (xr * xr + xi * xi, 0)

/-- The product with its sign as MOD gives it (R236). -/
def signedProduct (md : BitVec 4) (a b : W72) : Int × Int :=
  let p := product (md.extractLsb' 0 2).toNat a b
  if md.getLsbD 3 then (-p.1, -p.2) else p

def effCmul (d : Nat) (md : BitVec 4) (a b : W72) : Effect :=
  let p := signedProduct md a b
  effSat d (rne p.1 35) (rne p.2 35)

/-- One part of an accumulator updated, and whether it overflowed (R204). -/
def accPart (satmode : Bool) (v : Int) : Int × Bool :=
  if v < -2 ^ 79 ∨ 2 ^ 79 - 1 < v then (if satmode then sat v 80 else wrap v 80, true) else (v, false)

def effCmac (n : Nat) (md : BitVec 4) (satmode : Bool) (acc : Int × Int) (a b : W72) : Effect :=
  let p := signedProduct md a b
  if md.getLsbD 2 then { acc := some (n, p) }
  else
    let r := accPart satmode (acc.1 + p.1)
    let i := accPart satmode (acc.2 + p.2)
    { acc := some (n, (r.1, i.1)), gov := r.2 || i.2 }

def effExtc (d k : Nat) (x : Bool) (acc : Int × Int) : Effect :=
  let r := rne acc.1 k
  let i := rne acc.2 k
  let out := sat r 36 ≠ r || sat i 36 ≠ i
  { gs := [(d, if x then cqw (wrap r 36) (wrap i 36) else cqw (sat r 36) (sat i 36))], v := some out, satd := !x && out }

/-- EXTR and EXTI of one part (R237). -/
def effExt (d k : Nat) (x : Bool) (part : Int) : Effect :=
  let t := rne part k
  let out := sat t 72 ≠ t
  { gs := [(d, ofInt (if x then wrap t 72 else sat t 72))], v := some out, satd := !x && out }

def effExtr (d k : Nat) (x : Bool) (acc : Int × Int) : Effect := effExt d k x acc.1
def effExti (d k : Nat) (x : Bool) (acc : Int × Int) : Effect := effExt d k x acc.2
def effLda (n k : Nat) (x : Bool) (a : W72) : Effect :=
  { acc := some (n, if x then (ww a * 2 ^ k, 0) else (re a * 2 ^ k, im a * 2 ^ k)) }
def effAclr (n : Nat) : Effect := { acc := some (n, (0, 0)) }
def effAmov (n : Nat) (src : Int × Int) : Effect := { acc := some (n, src) }

/-! ## Butterfly (R206, R238, R239) -/

/-- The detection class of a stored complex value (R206). -/
def detClass (v : W72) : Nat :=
  let m := max (re v).natAbs (im v).natAbs
  if m < 2 ^ 33 then 0 else if m < 2 ^ 34 then 1 else 2

def effBfly (d : Nat) (md : BitVec 4) (s : Nat) (top bottom w : W72) : Effect :=
  let wr := re w
  let wi := if md.getLsbD 1 then -im w else im w
  let tr := rne (re bottom * wr - im bottom * wi) 17
  let ti := rne (re bottom * wi + im bottom * wr) 17
  let e1 := effSat d (rne (re top + tr) s) (rne (im top + ti) s)
  let e2 := effSat (Nat.xor d 1) (rne (re top - tr) s) (rne (im top - ti) s)
  let out := e1.gs ++ e2.gs
  { gs := out, v := some (e1.v = some true || e2.v = some true),
    det := if md.getLsbD 0 then out.foldl (fun m g => max m (detClass g.2)) 0 else 0 }

def effStgend : Effect := { stgend := true }

/-- BEXP after the stage-end operation (R206). -/
def stageEnd (v : BitVec 10) : BitVec 10 :=
  let e := field v 4 0
  let d := field v 9 8
  let s := if 31 < e + d then 31 - e else d
  BitVec.ofNat 10 (s * 32 + (e + s))

/-- BEXP with a class detected (R206). -/
def detected (v : BitVec 10) (c : Nat) : BitVec 10 := withField v 9 8 (max (field v 9 8) c)

/-- BEXP as a kernel's write of 0b11 leaves it (R206). -/
def bexpWritten (v : W72) : BitVec 10 :=
  let two (x : Nat) : Nat := if x = 3 then 2 else x
  BitVec.ofNat 10 (two (field v 9 8) * 256 + two (field v 6 5) * 32 + field v 4 0)

/-! ## Phase (R240) -/

def effAng (d : Nat) (a : W72) : Effect := effZN d (ofInt (ang (re a) (im a)))
def effMag (d : Nat) (a : W72) : Effect :=
  let r := ofInt (mag (re a) (im a))
  { gs := [(d, r)], z := some (r = 0) }
def effCis (d : Nat) (a : W72) : Effect := { gs := [(d, cqw (cosTab (field a 15 0)) (sinTab (field a 15 0)))] }
def effRot (d : Nat) (md : BitVec 4) (a b : W72) : Effect :=
  let c := cosTab (field b 15 0)
  let s := if md.getLsbD 0 then -sinTab (field b 15 0) else sinTab (field b 15 0)
  effSat d (rne (re a * c - im a * s) 17) (rne (re a * s + im a * c) 17)
def effUnw (d : Nat) (a b : W72) : Effect :=
  let t := ww b + wrap (ww a - ww b) 16
  effZNV d (ofInt t) (32768 < t || t < -32768)

/-! ## Shifts and fields (R241) -/

def effAsr (d k : Nat) (a : W72) : Effect := effZN d (ofInt (asr (ww a) k))
def effLsr (d k : Nat) (a : W72) : Effect := effZN d (BitVec.ofNat 72 (a.toNat / 2 ^ k))
def effRne (d k : Nat) (a : W72) : Effect := effZN d (ofInt (rne (ww a) k))
def effShl (d k : Nat) (a : W72) : Effect := effSat72 d (ww a * 2 ^ k)
def effShlw (d k : Nat) (a : W72) : Effect := effZN d (ofInt (ww a * 2 ^ k))
def effSatk (d k : Nat) (a : W72) : Effect := effZNV d (ofInt (sat (ww a) k)) (sat (ww a) k ≠ ww a)
def effSatu (d k : Nat) (a : W72) : Effect := effZNV d (ofInt (satu (ww a) k)) (satu (ww a) k ≠ ww a)
def effWrap (d k : Nat) (a : W72) : Effect := effZN d (ofInt (wrap (ww a) k))
def effCasr (d k : Nat) (a : W72) : Effect := { gs := [(d, cqw (asr (re a) k) (asr (im a) k))] }
def effCrne (d k : Nat) (a : W72) : Effect := { gs := [(d, cqw (rne (re a) k) (rne (im a) k))] }
def effCshl (d k : Nat) (a : W72) : Effect := effSat d (re a * 2 ^ k) (im a * 2 ^ k)
def effBits (d k w : Nat) (a : W72) : Effect := effZN d (BitVec.ofNat 72 (field a (k + w) k))
def effIns (d k w : Nat) (a old : W72) : Effect := effZN d (withField old (k + w) k (field a w 0))

/-- Bits below bit 71 equal to it, counted down from bit n - 1 until the first that differs. -/
def leadCount (a : W72) : Nat → Nat
  | 0 => 0
  | n + 1 => if a.getLsbD n = a.getLsbD 71 then leadCount a n + 1 else 0

def effCls (d : Nat) (a : W72) : Effect :=
  let r := BitVec.ofNat 72 (leadCount a 71)
  { gs := [(d, r)], z := some (r = 0) }

/-! ## Conditions (R244) -/

/-- A branch condition under COND and the live bits (R244). -/
def condHolds (cond : BitVec 4) (flags : BitVec 4) (msg bnc : Bool) : Bool :=
  let z := flags.getLsbD 3
  let n := flags.getLsbD 2
  let v := flags.getLsbD 1
  let c := flags.getLsbD 0
  match cond.toNat with
  | 0 => true
  | 1 => z
  | 2 => !z
  | 3 => n != v
  | 4 => n == v
  | 5 => z || n != v
  | 6 => !z && n == v
  | 7 => v
  | 8 => !v
  | 9 => c
  | 10 => !c
  | 11 => n
  | 12 => !n
  | 13 => msg
  | 14 => bnc
  | _ => !msg

/-- COND with the flags an effect sets (R242). -/
def newFlags (f : BitVec 4) (e : Effect) : BitVec 4 :=
  let f := withBit f 3 (e.z.getD (f.getLsbD 3))
  let f := withBit f 2 (e.n.getD (f.getLsbD 2))
  let f := withBit f 1 (e.v.getD (f.getLsbD 1))
  withBit f 0 (e.c.getD (f.getLsbD 0))

end Sys2Proof.Machine
end

