-- ==== Sys2Proof/Machine/Soric.lean ====
section
/-!
DEFINITION. How a core issues an instruction (R196 to R211, R226 to R249): its checks and faults, address generation, memory and
port accesses, hazards, write back, hardware loops and control instructions.
-/
namespace Sys2Proof.Machine

/-! ## Causes of a core fault (R211) -/

def whyIllegal : Nat := 1
def whyAddr : Nat := 2
def whyLoop : Nat := 3
def whyPc : Nat := 4

/-- A core goes to FAULT at an address (R211). -/
def State.coreFault (s : State) (c why pc : Nat) : State :=
  (s.setCore c { s.core c with mode := .fault, why := why, faultPc := pc }).fault (Reg.clFault (c / 8)) (2 ^ (c % 8))

/-! ## Address generation (R207 to R209) -/

/-- CIRC: the new pointer, and whether it was forced to its base (R208). -/
def stepCirc (p m b l : Int) : Int × Bool :=
  let t := p + m
  let t := if b + l ≤ t then t - l else if t < b then t + l else t
  if t < b ∨ b + l ≤ t then (b, true) else (t, false)

/-- The low k bits of x in reverse order (R209). -/
def revBits (k x : Nat) : Nat := bitRev k (x % 2 ^ k)

/-- BITREV (R209). -/
def stepRev (p : Int) (m : Int) (b l : Nat) : Int × Bool :=
  let k := l.log2
  let o := ((p - b) % 65536).toNat
  if 2 ^ k ≤ o then (b, true)
  else (b + revBits k ((revBits k o + revBits k ((m % 2 ^ k).toNat)) % 2 ^ k), false)

/-- A pointer after post-modification, and whether CIRC_OOR sets (R207). -/
def postMod (x : CoreSt) (i : Nat) : BitVec 16 × Bool :=
  let p : Int := (nth x.p i 0).toNat
  let m : Int := (nth x.m i 0).toInt
  let b := (nth x.b i 0).toNat
  let l := nth x.l i 0
  let len := field l 15 0
  let r : Int × Bool :=
    match field l 17 16 with
    | 1 => if len = 0 then (p + m, false) else stepCirc p m b len
    | 2 => if len < 2 then (p + m, false) else stepRev p m b len
    | _ => (p + m, false)
  (BitVec.ofInt 16 r.1, r.2)

/-! ## Memory and ports -/

/-- The key of a word of a core's X, Y or C memory. -/
def cmemKey (c k a : Nat) : Nat := 16384 * c + 4096 * k + a

/-- The size of the space a slot addresses: own memory, shared SRAM, ports (R198, R201). -/
def spaceSize (space : BitVec 2) : Nat := match space.toNat with | 0 => 4096 | 1 => 65536 | _ => 64

/-- A port word as read (R198). -/
def State.portRead (s : State) (c a : Nat) : W72 × State :=
  let cl := c / 8
  let ch := s.served cl
  match a with
  | 0 => (match ch with | some h => BitVec.ofNat 72 (s.reg (Reg.ceOutWp h)).toNat | none => 0, s)
  | 1 => (match ch with | some h => BitVec.ofNat 72 (s.reg (Reg.ceOutRp h)).toNat | none => 0, s)
  | 2 => (s.stamp, s)
  | 3 => (BitVec.ofNat 72 (cl * 2 ^ 16 + c % 8 * 2 ^ 8 + (match ch with | some h => 32 + h | none => s.fld (Reg.clAssign cl) 4 0)), s)
  | _ =>
    if 8 ≤ a ∧ a < 16 then
      let x := s.cluster cl
      let w := nth x.sems (a - 8) 0
      (w, s.setCluster cl { x with sems := setNth x.sems (a - 8) (w ||| 1) })
    else (0, s)

/-- A write of a port word (R198). -/
def State.portWrite (s : State) (c a : Nat) (v : W72) : State :=
  let cl := c / 8
  if a = 1 then
    match s.served cl with
    | none => s
    | some h =>
      let w : W32 := BitVec.ofNat 32 v.toNat
      if (ceCheck s h 0x30 w).isSome then s.fault (Reg.clFault cl) (2 ^ 9) else s.setReg (Reg.ceOutRp h) w
  else if 8 ≤ a ∧ a < 16 then
    let x := s.cluster cl
    s.setCluster cl { x with sems := setNth x.sems (a - 8) v }
  else s

/-- A slot's load (R226). -/
def State.slotLoad (s : State) (c own : Nat) (space : BitVec 2) (a : Nat) : W72 × State :=
  match space.toNat with
  | 0 => (s.cmem.get 0 (cmemKey c own a), s)
  | 1 => (s.sram.get 0 (65536 * (c / 8) + a), s)
  | _ => s.portRead c a

/-- A slot's store (R226). -/
def State.slotStore (s : State) (c own : Nat) (space : BitVec 2) (a : Nat) (v : W72) : State :=
  match space.toNat with
  | 0 => { s with cmem := s.cmem.set 0 (cmemKey c own a) v }
  | 1 => { s with sram := s.sram.set 0 (65536 * (c / 8) + a) v }
  | _ => s.portWrite c a v

/-- A slot's access faults with cause ADDR (R197, R198, R201). -/
def State.slotAddrBad (s : State) (c : Nat) (m : MoveF) : Bool :=
  let a := (nth (s.core c).p m.ptr.toNat 0).toNat
  (moveLoads m || moveStores m) &&
    (decide (spaceSize m.space ≤ a) ||
      (moveStores m && decide (m.space = 1) && decide (a < 0x4000) && s.vendorOn (c / 8)))

/-! ## Special registers (R205, R206, R234) -/

/-- MRS: the value of a special register. -/
def CoreSt.special (x : CoreSt) (k : Nat) : W72 :=
  if k < 0x08 then BitVec.ofNat 72 (nth x.p k 0).toNat
  else if k < 0x10 then toW 72 (nth x.m (k - 0x08) 0).toInt
  else if k < 0x18 then BitVec.ofNat 72 (nth x.l (k - 0x10) 0).toNat
  else if k < 0x20 then BitVec.ofNat 72 (nth x.b (k - 0x18) 0).toNat
  else if k < 0x22 then BitVec.ofNat 72 (nth x.lc (k - 0x20) 0).toNat
  else match k with
    | 0x22 => BitVec.ofNat 72 x.bexp.toNat
    | 0x23 => BitVec.ofNat 72 x.status.toNat
    | 0x24 => BitVec.ofNat 72 x.role.toNat
    | 0x25 => BitVec.ofNat 72 x.epoch.toNat
    | 0x26 => BitVec.ofNat 72 x.govPc
    | 0x27 => BitVec.ofNat 72 x.loops.length
    | _ => 0

/-- SSTAT as a kernel's write leaves it: SATMODE and COND replaced, sticky flags written as 0 cleared (R205). -/
def sstatWritten (old : BitVec 16) (v : W72) : BitVec 16 :=
  let w : BitVec 16 := BitVec.ofNat 16 v.toNat
  (w &&& 0x800F) ||| (old &&& w &&& 0x0270)

/-- MSR and LIS: a special register takes a value (R234). -/
def CoreSt.setSpecial (x : CoreSt) (k : Nat) (v : W72) : CoreSt :=
  let w16 : BitVec 16 := BitVec.ofNat 16 v.toNat
  if k < 0x08 then { x with p := setNth x.p k w16 }
  else if k < 0x10 then { x with m := setNth x.m (k - 0x08) w16 }
  else if k < 0x18 then { x with l := setNth x.l (k - 0x10) (BitVec.ofNat 18 v.toNat) }
  else if k < 0x20 then { x with b := setNth x.b (k - 0x18) w16 }
  else if k < 0x22 then { x with lc := setNth x.lc (k - 0x20) w16 }
  else if k = 0x22 then { x with bexp := bexpWritten v }
  else if k = 0x23 then { x with sstat := sstatWritten x.sstat v }
  else x

/-! ## What a compute slot yields -/

/-- The count of a form K shift: K, or bits [6:0] of G[SB] (R231). -/
def shiftCount (x : CoreSt) (f : FormK) : Nat := if f.x then field (nth x.g f.sb.toNat 0) 6 0 else f.k.toNat

/-- The effect of a form R opcode with operands a and b (R232 to R241). -/
def effR (x : CoreSt) (op : Nat) (f : FormR) (a b : W72) : Effect :=
  let d := f.d.toNat
  let n := f.acc.toNat
  match op with
  | 0x01 => effMov d a
  | 0x02 => effAdd d a b
  | 0x03 => effAdds d a b
  | 0x04 => effSub d a b
  | 0x05 => effSubs d a b
  | 0x06 => effCmp a b
  | 0x07 => effNeg d a
  | 0x08 => effAbs d a
  | 0x09 => effMin d a b
  | 0x0A => effMax d a b
  | 0x0B => effAnd d a b
  | 0x0C => effOr d a b
  | 0x0D => effXor d a b
  | 0x0E => effAndn d a b
  | 0x0F => effMull d a b
  | 0x10 => effDivr d a b
  | 0x11 => effLnq d a
  | 0x14 => effCadd d a b
  | 0x15 => effCsub d a b
  | 0x16 => effCneg d a
  | 0x17 => effConj d a
  | 0x18 => effCswp d a
  | 0x20 => effCmul d f.md a b
  | 0x21 => effCmac n f.md (x.sstat.getLsbD 15) (nth x.acc n (0, 0)) a b
  | 0x26 => effAclr n
  | 0x27 => effAmov n (nth x.acc f.sa.toNat (0, 0))
  | 0x30 => effBfly d f.md (field x.bexp 6 5) a (nth x.g f.sb.toNat 0) (if f.cs then b else nth x.g d 0)
  | 0x31 => effStgend
  | 0x38 => effAng d a
  | 0x39 => effMag d a
  | 0x3A => effCis d a
  | 0x3B => effRot d f.md a b
  | 0x3C => effUnw d a b
  | 0x4D => effCls d a
  | _ => {}

/-- The effect of a form K opcode (R234, R237, R241). -/
def effK (x : CoreSt) (op : Nat) (f : FormK) : Effect :=
  let d := f.d.toNat
  let a := nth x.g f.sa.toNat 0
  let n := f.acc.toNat
  let k := f.k.toNat
  let m := shiftCount x f
  match op with
  | 0x12 => effZN d (x.special k)
  | 0x13 => { sr := some (k, a) }
  | 0x22 => effExtc d k f.x (nth x.acc n (0, 0))
  | 0x23 => effExtr d k f.x (nth x.acc n (0, 0))
  | 0x24 => effExti d k f.x (nth x.acc n (0, 0))
  | 0x25 => effLda n k f.x a
  | 0x40 => effAsr d m a
  | 0x41 => effLsr d m a
  | 0x42 => effRne d m a
  | 0x43 => effShl d m a
  | 0x44 => effShlw d m a
  | 0x45 => effSatk d k a
  | 0x46 => effSatu d k a
  | 0x47 => effWrap d k a
  | 0x48 => effCasr d m a
  | 0x49 => effCrne d m a
  | 0x4A => effCshl d m a
  | _ => {}

/-- The effect of a compute slot, b from C being given (R230 to R241). -/
def slotEffect (x : CoreSt) (cword : W72) : Slot → Effect
  | .reg op f => effR x op.toNat f (nth x.g f.sa.toNat 0) (if f.cs then cword else nth x.g f.sb.toNat 0)
  | .con op f => effK x op.toNat f
  | .fld op f =>
    let a := nth x.g f.sa.toNat 0
    match op.toNat with
    | 0x4B => effBits f.d.toNat f.k.toNat f.w.toNat a
    | 0x4C => effIns f.d.toNat f.k.toNat f.w.toNat a (nth x.g f.d.toNat 0)
    | _ => {}

/-- The C pointer of a compute slot that takes b from C (R230). -/
def slotC : Slot → Option Nat
  | .reg _ f => if f.cs then some f.cp.toNat else none
  | _ => none

/-! ## Hazards (R249) -/

/-- Numbers of what an instruction may wait for: G registers from 0, flags C, V, N and Z from 16, accumulators 20 for the adder and 24 for extraction,
pointers 30, their modifiers 40, BEXP 50 for BFLY and STD and 51 for STGEND, the whole core 52, the send buffer 53. -/
def useFlags : Nat := 16
def useAcc : Nat := 20
def useExt : Nat := 24
def useP : Nat := 30
def useM : Nat := 40
def useBexp : Nat := 50
def useStg : Nat := 51
def useAll : Nat := 52
def useSend : Nat := 53

/-- The flags an opcode writes, by their bits in COND (R231, R242). -/
def opFlags (op : Nat) : List Nat :=
  match op with
  | 0x02 | 0x04 | 0x06 => [0, 1, 2, 3]
  | 0x03 | 0x05 | 0x07 | 0x08 | 0x0F | 0x10 | 0x11 | 0x3C | 0x43 | 0x45 | 0x46 => [1, 2, 3]
  | 0x01 | 0x09 | 0x0A | 0x0B | 0x0C | 0x0D | 0x0E | 0x12 | 0x38 | 0x40 | 0x41 | 0x42 | 0x44 | 0x47 | 0x4B | 0x4C => [2, 3]
  | 0x14 | 0x15 | 0x16 | 0x17 | 0x20 | 0x22 | 0x23 | 0x24 | 0x30 | 0x3B | 0x4A => [1]
  | 0x39 | 0x4D => [3]
  | _ => []

/-- The flags a condition reads, by their bits in COND (R244). -/
def condFlags (cc : BitVec 4) : List Nat :=
  match cc.toNat with
  | 0x1 | 0x2 => [3]
  | 0x3 | 0x4 => [1, 2]
  | 0x5 | 0x6 => [1, 2, 3]
  | 0x7 | 0x8 => [1]
  | 0x9 | 0xA => [0]
  | 0xB | 0xC => [2]
  | _ => []

/-- What a branch waits for by its condition: MSG and BNC wait for nothing longer than any issue (R249). -/
def condUses (cc : BitVec 4) : List Nat := (condFlags cc).map (useFlags + ·)

/-- CMUL or CMAC in the mode that reads no b (R236). -/
def powerMode (op : Nat) (f : FormR) : Bool := (decide (op = 0x20) || decide (op = 0x21)) && decide (f.md.toNat % 4 = 3)

/-- What a compute slot waits for. -/
def slotUses : Slot → List Nat
  | .reg op f =>
    match opRow op.toNat with
    | none => []
    | some w =>
      (if w.a ∧ op.toNat ≠ 0x27 then [f.sa.toNat] else []) ++
      (if f.cs then [useP + f.cp.toNat] else if w.b && !powerMode op.toNat f then [f.sb.toNat] else []) ++
      (if f.cpm then [useM + f.cp.toNat] else []) ++
      (match op.toNat with
        | 0x21 => [useAcc + f.acc.toNat]
        | 0x27 => [useAcc + f.acc.toNat, useExt + f.sa.toNat % 4]
        | 0x30 => (if f.cs then [f.sb.toNat] else [f.d.toNat]) ++ [useBexp]
        | 0x31 => [useStg]
        | _ => [])
  | .con op f =>
    match op.toNat with
    | 0x12 => if f.k = 0x23 then [0, 1, 2, 3].map (useFlags + ·) else []
    | 0x22 | 0x23 | 0x24 => [useExt + f.acc.toNat]
    | 0x25 => [f.sa.toNat, useAcc + f.acc.toNat]
    | _ => f.sa.toNat :: (if f.x then [f.sb.toNat] else [])
  | .fld op f => f.sa.toNat :: (if op.toNat = 0x4C then [f.d.toNat] else [])

/-- What a move slot waits for. -/
def moveUses (m : MoveF) : List Nat :=
  (if moveLoads m || moveStores m then [useP + m.ptr.toNat] else []) ++
  (if moveMods m then [useP + m.ptr.toNat, useM + m.ptr.toNat] else []) ++
  (if moveStores m then [m.greg.toNat] else []) ++ (if m.mop = 3 then [useBexp] else [])

/-- What a compute slot gives, with the latency of each dependent use (R249). -/
def slotGives (c : Slot) : List (Nat × Nat) :=
  let op := c.op
  let lat := match op with
    | 0x20 | 0x3B | 0x30 => 3
    | 0x0F => 4
    | 0x38 | 0x39 => 6
    | 0x22 | 0x23 | 0x24 => 2
    | _ => 1
  c.dests.map (fun g => (g, lat)) ++ (opFlags op).map (fun i => (useFlags + i, lat)) ++
    (match c with
      | .reg _ f =>
        match op with
        | 0x10 => [(useAll, 40)]
        | 0x11 => [(useAll, 12)]
        | 0x21 => [(useAcc + f.acc.toNat, 1), (useExt + f.acc.toNat, 3)]
        | 0x26 | 0x27 => [(useAcc + f.acc.toNat, 1), (useExt + f.acc.toNat, 1)]
        | 0x30 => if f.md.getLsbD 0 then [(useStg, 3)] else []
        | 0x31 => [(useBexp, 2)]
        | _ => []
      | .con _ f =>
        if op = 0x13 then
          if f.k.toNat < 8 then [(useP + f.k.toNat, 2)]
          else if f.k.toNat < 0x20 then [(useM + f.k.toNat % 8, 2)]
          else if f.k = 0x22 then [(useBexp, 2)]
          else if f.k = 0x23 then [0, 1, 2, 3].map fun i => (useFlags + i, 1) else []
        else if op = 0x25 then [(useAcc + f.acc.toNat, 1), (useExt + f.acc.toNat, 1)]
        else []
      | _ => [])

/-- The instruction issues at the first cycle all it waits for allows; the cycles between are stalls (R249). -/
def issueAt (x : CoreSt) (uses : List Nat) : Nat := (useAll :: uses).foldl (fun t u => max t (x.ready.get 0 u)) x.cycle

/-- The ready cycles after an issue at cycle t. -/
def readyAfter (x : CoreSt) (t : Nat) (gives : List (Nat × Nat)) : Store Nat :=
  gives.foldl (fun m g => m.set 0 g.1 (t + g.2)) x.ready

/-- Time passes for a core: it issued at t and holds the next issue for n more cycles, of which some are stalls
(R196, R202, R249, R250). -/
def State.coreTime (s : State) (c t n stalls : Nat) (gives : List (Nat × Nat)) : State :=
  let x := s.core c
  let s := s.setCore c { x with cycle := t + 1 + n, ready := readyAfter x t gives }
  let cl := c / 8
  let i := c % 8
  (s.count (Reg.clCoreCycles cl i) (t + 1 + n - x.cycle)).count (Reg.clCoreStalls cl i) (t - x.cycle + stalls)

/-- An address runs from the loop cache (R202). -/
def cached (x : CoreSt) (pc : Nat) : Bool :=
  match (x.loops.filter fun l => decide (l.last - l.first < 32)).getLast? with
  | none => false
  | some l => l.again && decide (l.first ≤ pc) && decide (pc ≤ l.last)

/-! ## Sequence (R244, R245) -/

/-- The test at the end of a loop body, from the innermost level out: the loop stack, the counters and the next address. -/
def loopEnd (pc : Nat) (lc : List (BitVec 16)) : List LoopSt → Nat → List LoopSt × List (BitVec 16) × Nat
  | [], next => ([], lc, next)
  | l :: rest, next =>
    if pc ≠ l.last then ((l :: rest).reverse, lc, next)
    else
      let i := rest.length
      let n := nth lc i 0 - 1
      let lc' := setNth lc i n
      if n ≠ 0 then (({ l with again := true } :: rest).reverse, lc', l.first)
      else
        match rest with
        | [] => ([], lc', next)
        | o :: _ =>
          if pc ≠ o.last then (rest.reverse, lc', next)
          else
            let m := nth lc' 0 0 - 1
            let lc'' := setNth lc' 0 m
            if m ≠ 0 then ([{ o with again := true }], lc'', o.first) else ([], lc'', next)

/-- The core goes on in sequence after the instruction at pc: loop ends are tested, and a fetch beyond 2,047 faults (R245, R248). -/
def State.sequence (s : State) (c pc : Nat) : State :=
  let x := s.core c
  let (loops, lc, next) := loopEnd pc x.lc x.loops.reverse (pc + 1)
  let s := s.setCore c { x with loops := loops, lc := lc, pc := next % 2048 }
  if 2048 ≤ next then s.coreFault c whyPc 2047 else s

/-- The core takes a branch; it ends the n innermost loops (R244). -/
def State.branch (s : State) (c n target : Nat) : State :=
  let x := s.core c
  s.setCore c { x with loops := x.loops.take (x.loops.length - n), pc := target }

/-! ## Parallel instructions -/

/-- Write back: stores first, then registers, accumulators, flags and pointers (R204, R206, R228). -/
def writeBack (x : CoreSt) (pc : Nat) (e : Effect) (loads : List (Nat × W72)) (det : Option Nat) (mods : List Nat) : CoreSt :=
  let moved := mods.map fun i => (i, postMod x i)
  let g := (e.gs ++ loads).foldl (fun g w => setNth g w.1 w.2) x.g
  let acc := match e.acc with | some (n, v) => setNth x.acc n v | none => x.acc
  let govPc := if e.gov && !x.sstat.getLsbD 4 then pc else x.govPc
  let y : CoreSt := { x with g := g, acc := acc, govPc := govPc }
  let y := match e.sr with | some (k, v) => y.setSpecial k v | none => y
  let st : BitVec 16 := (y.sstat &&& 0xFFF0) ||| (newFlags (BitVec.ofNat 4 y.sstat.toNat) e).zeroExtend 16
  let st := if e.satd then st ||| 0x40 else st
  let st := if e.gov then st ||| 0x10 else st
  let st := if moved.any fun m => m.2.2 then st ||| 0x20 else st
  let bexp := if e.stgend then stageEnd y.bexp else y.bexp
  let bexp := detected bexp e.det
  let bexp := match det with | some d => detected bexp d | none => bexp
  { y with sstat := st, bexp := bexp, p := moved.foldl (fun p m => setNth p m.1 m.2.1) y.p }

/-- The most cycles an access of core c to a bank may wait: one core cycle in two for each other running core of the cluster, or every
cycle where neither the engine nor a DMA channel uses the port cycles (R195). -/
def State.grantMost (s : State) (c : Nat) : Nat :=
  let cl := c / 8
  let others := ((List.range 8).filter fun i => decide (i ≠ c % 8) && decide ((s.core (coreOf cl i)).mode = .running)).length
  let engine := match s.served cl with | some ch => s.rbit (Reg.ceStatus ch) 0 | none => false
  if engine || (List.range 64).any fun n => (s.dma n).desc.isSome then 2 * others + 1 else others

/-- Cycles a shared access of core c waits for its grant behind other requesters: a free value up to the most that R195 allows (R195, R196,
DESIGN CHOICE, log entry 4). -/
def State.grantDelay (s : State) (c : Nat) : Nat := s.free.toNat % (s.grantMost c + 1)

/-- The bank of a word of shared SRAM (R195). -/
def bankOf (a : Nat) : Nat := a % 16

/-- Core c is the one last granted at a bank of its cluster's SRAM (R195). -/
def State.grantTo (s : State) (c b : Nat) : State :=
  s.setCluster (c / 8) { s.cluster (c / 8) with granted := setNth (s.cluster (c / 8)).granted b (c % 8) }

/-- A move slot reaches shared SRAM. -/
def moveShared (m : MoveF) : Bool := (moveLoads m || moveStores m) && decide (m.space = 1)

/-- The cycles the access of a move slot waits for its grant; before is the bank and the wait of the other slot, which is served first, so that
two accesses to one bank never share a cycle; the wait counts in CONFLICT_CNT (R195, R196, R222). A port load waits like an access, at no bank
(DEDUCED, log entry 46). -/
def State.slotGrant (s : State) (c : Nat) (m : MoveF) (before : Option (Nat × Nat)) : Nat × State :=
  if moveShared m then
    let b := bankOf (nth (s.core c).p m.ptr.toNat 0).toNat
    let n := match before with | some (b', n') => if b = b' then min 16 (n' + 1 + s.grantDelay c) else s.grantDelay c | none => s.grantDelay c
    (n, ((s.drawn).grantTo c b).count (Reg.clConflictCnt (c / 8)) n)
  else if moveLoads m && decide (m.space ≠ 0) then (s.grantDelay c, s.drawn)
  else (0, s)

/-- The grants of both slots, X before Y (R195). -/
def State.slotGrants (s : State) (c : Nat) (x y : MoveF) : Nat × Nat × State :=
  let b := bankOf (nth (s.core c).p x.ptr.toNat 0).toNat
  let (nx, s) := s.slotGrant c x none
  let (ny, s) := s.slotGrant c y (if moveShared x then some (b, nx) else none)
  (nx, ny, s)

/-- Loads of both slots, X before Y, that wait nx and ny cycles for their grants: their values and the latency of each (R196, R226, R228,
R249). -/
def State.slotLoads (s : State) (c : Nat) (x y : MoveF) (nx ny : Nat) : List (Nat × W72) × List (Nat × Nat) × State :=
  let one (own n : Nat) (m : MoveF) (s : State) : List (Nat × W72) × List (Nat × Nat) × State :=
    if !moveLoads m then ([], [], s)
    else
      let (w, t) := s.slotLoad c own m.space (nth (s.core c).p m.ptr.toNat 0).toNat
      ([(m.greg.toNat, w)], [(m.greg.toNat, if m.space = 0 then 1 else 6 + n)], t)
  let (l1, g1, s) := one 0 nx x s
  let (l2, g2, s) := one 1 ny y s
  (l1 ++ l2, g1 ++ g2, s)

/-- A parallel instruction that passed its checks acts (R228). -/
def State.parallel (s : State) (c : Nat) (sl : Slot) (mx my : MoveF) : State :=
  let x := s.core c
  let pc := x.pc
  let t := issueAt x (slotUses sl ++ moveUses mx ++ moveUses my)
  let addr (m : MoveF) : Nat := (nth x.p m.ptr.toNat 0).toNat
  let cword := match slotC sl with | some p => s.cmem.get 0 (cmemKey c 2 (nth x.p p 0).toNat) | none => 0
  let (nx, ny, s) := s.slotGrants c mx my
  let (loads, lat, s) := s.slotLoads c mx my nx ny
  let e := slotEffect x cword sl
  let s := if moveStores mx then s.slotStore c 0 mx.space (addr mx) (nth x.g mx.greg.toNat 0) else s
  let s := if moveStores my then s.slotStore c 1 my.space (addr my) (nth x.g my.greg.toNat 0) else s
  let dets := (if mx.mop = 3 then [detClass (nth x.g mx.greg.toNat 0)] else []) ++
    (if my.mop = 3 then [detClass (nth x.g my.greg.toNat 0)] else [])
  let det := if dets = [] then none else some (dets.foldl max 0)
  let mods := sl.cMods ++ (if moveMods mx then [mx.ptr.toNat] else []) ++ (if moveMods my then [my.ptr.toNat] else [])
  let s := s.setCore c (writeBack (s.core c) pc e loads det mods)
  let stall := if (slotC sl).isSome && !cached x pc then 1 else 0
  (s.coreTime c t stall stall (slotGives sl ++ lat)).sequence c pc

/-! ## Control instructions (R243 to R246) -/

/-- COND and the live bits of a core. -/
def CoreSt.cond (x : CoreSt) (cc : BitVec 4) : Bool :=
  condHolds cc (BitVec.ofNat 4 x.sstat.toNat) (x.inbox ≠ []) (x.bounce ≠ [])

/-- G registers r to r + 3 take a message. -/
def CoreSt.takeMsg (x : CoreSt) (r : Nat) (m : Msg) : CoreSt :=
  { x with g := (List.range 4).foldl (fun g i => setNth g (r + i) (m.word i)) x.g }

/-- Z of SSTAT set or cleared. -/
def CoreSt.setZ (x : CoreSt) (z : Bool) : CoreSt := { x with sstat := withBit x.sstat 3 z }

/-- A simple instruction: wait, change the core, go on in sequence. -/
def State.plain (s : State) (c : Nat) (uses : List Nat) (gives : List (Nat × Nat)) (f : CoreSt → CoreSt) : State :=
  let x := s.core c
  let t := issueAt x uses
  ((s.setCore c (f x)).coreTime c t 0 0 gives).sequence c x.pc

/-- A branch that is taken costs 2 cycles (R250). -/
def State.branchTo (s : State) (c : Nat) (uses : List Nat) (gives : List (Nat × Nat)) (n target : Nat) : State :=
  ((s.coreTime c (issueAt (s.core c) uses) 2 0 gives)).branch c n target

/-- RECV and RBNC from a queue; an empty queue waits or sets Z (R246). -/
def State.receive (s : State) (c : Nat) (r : BitVec 4) (wait bnc : Bool) : State :=
  let x := s.core c
  match (if bnc then x.bounce else x.inbox) with
  | [] =>
    if wait then s.coreTime c (issueAt x []) 0 1 []
    else s.plain c [] [(useFlags + 3, 1)] (fun y => y.setZ true)
  | m :: rest =>
    let gives := ((List.range 4).map fun i => (r.toNat + i, 1)) ++ [(useFlags + 3, 1)]
    s.plain c [] gives fun y =>
      let y := (y.takeMsg r.toNat m).setZ false
      if bnc then { y with bounce := rest } else { y with inbox := rest }

/-- SEND: hardware fills the header and the message goes to the fabric (R246). -/
def State.sendMsg (s : State) (c : Nat) (r : BitVec 4) : State :=
  let x := s.core c
  let g (i : Nat) : W72 := nth x.g (r.toNat + i) 0
  let m : Msg := { h := sendHeader (g 0) 0 (c / 8) (c % 8) x.role.toNat x.epoch.toNat, w1 := g 1, w2 := g 2, w3 := g 3 }
  let s := { s with fabric := s.fabric ++ [m] }
  s.plain c (useSend :: (List.range 4).map (r.toNat + ·)) [(useSend, 4)] id

/-- A LOOP that passed its checks starts (R245). -/
def State.loopStart (s : State) (c : Nat) (rc : Bool) (a : BitVec 4) (count : BitVec 16) (last : BitVec 11) : State :=
  let x := s.core c
  let n : BitVec 16 := if rc then BitVec.ofNat 16 (nth x.g a.toNat 0).toNat else count
  s.plain c (if rc then [a.toNat] else []) [] fun y =>
    { y with lc := setNth y.lc y.loops.length n, loops := y.loops ++ [{ first := x.pc + 1, last := last.toNat }] }

/-! ## Issue -/

/-- The fault of an instruction before it acts, in the order of R248. -/
def State.issueFault (s : State) (c : Nat) (i : Soric) : Option Nat :=
  let x := s.core c
  if !i.ok x.pc then some whyIllegal
  else
    match i with
    | .loop _ _ _ e =>
      match x.loops with
      | [] => none
      | [o] => if o.last < e.toNat then some whyLoop else none
      | _ => some whyLoop
    | .br _ _ n => if x.loops.length < n.toNat then some whyLoop else none
    | .jmp _ _ n => if x.loops.length < n.toNat then some whyLoop else none
    | .par sl mx my =>
      let cBad := match slotC sl with | some p => decide (2048 ≤ (nth x.p p 0).toNat) | none => false
      if cBad || s.slotAddrBad c mx || s.slotAddrBad c my then some whyAddr else none
    | _ => none

/-- An instruction that passed its checks acts. -/
def State.act (s : State) (c : Nat) (i : Soric) : State :=
  let x := s.core c
  match i with
  | .par sl mx my => s.parallel c sl mx my
  | .br cc t n => if x.cond cc then s.branchTo c (condUses cc) [] n.toNat t.toNat else s.plain c (condUses cc) [] id
  | .call d t =>
    (s.setCore c { x with g := setNth x.g d.toNat (BitVec.ofNat 72 (x.pc + 1)) }).branchTo c [] [(d.toNat, 1)] 0 t.toNat
  | .jmp cc a n =>
    if x.cond cc then s.branchTo c (a.toNat :: condUses cc) [] n.toNat (field (nth x.g a.toNat 0) 10 0)
    else s.plain c (a.toNat :: condUses cc) [] id
  | .loop rc a n e => s.loopStart c rc a n e
  | .halt => let s := s.plain c [] [] id
    if (s.core c).mode = .running then s.haltCore c else s
  | .send r => s.sendMsg c r
  | .recv r w => s.receive c r w false
  | .rbnc r w => s.receive c r w true
  | .dbell => (s.event (256 + c)).plain c [] [] id
  | .lig r v => s.plain c [] [(r.toNat, 1)] fun y => { y with g := setNth y.g r.toNat (v.signExtend 72) }
  | .lih r v => s.plain c [r.toNat] [(r.toNat, 1)] fun y =>
      { y with g := setNth y.g r.toNat (withField (nth y.g r.toNat 0) 71 56 v.toNat) }
  | .lis sr v => s.plain c [] (slotGives (.con 0x13 ⟨0, 0, 0, 0, sr, false⟩)) fun y => y.setSpecial sr.toNat (v.zeroExtend 72)

/-- A core that runs a user role and is not stalled issues an instruction (R210, R211, R428). -/
def State.issue (s : State) (c : Nat) (i : Soric) : State :=
  let x := s.core c
  if x.mode ≠ .running ∨ x.vendor ∨ s.stalled then s
  else
    match s.issueFault c i with
    | some why => s.coreFault c why x.pc
    | none => s.act c i

/-- The instruction at a core's PC, issued from its memory; a word with no encoding faults (R211, R224). -/
def State.stepCore (s : State) (c : Nat) : State :=
  let x := s.core c
  if x.mode ≠ .running ∨ x.vendor ∨ s.stalled then s
  else
    match decodeSoric (s.imem.get 0 (2048 * c + x.pc)) with
    | some i => s.issue c i
    | none => s.coreFault c whyIllegal x.pc

end Sys2Proof.Machine
end

