-- ==== Sys2Proof/Machine/SoricExec.lean ====
section
/-!
DEFINITION. The meaning of each Soric instruction as a command: core c issues it where its PC stands, by the shared issue of
Soric.lean (R210, R211, R228). A command carries the fields of the instruction word; a move's command fills one move slot.
-/
namespace Sys2Proof.Machine

/-- NOP (R231). -/
def execNop (c : Core) (f : FormR) (x y : MoveF) (s : State) : Host.Outcome State Fault Refusal :=
  .next (s.issue c (.par (.reg 0x00 f) x y))

/-- MOV (R232). -/
def execMov (c : Core) (f : FormR) (x y : MoveF) (s : State) : Host.Outcome State Fault Refusal :=
  .next (s.issue c (.par (.reg 0x01 f) x y))

/-- ADD (R232). -/
def execAdd (c : Core) (f : FormR) (x y : MoveF) (s : State) : Host.Outcome State Fault Refusal :=
  .next (s.issue c (.par (.reg 0x02 f) x y))

/-- ADDS (R232). -/
def execAdds (c : Core) (f : FormR) (x y : MoveF) (s : State) : Host.Outcome State Fault Refusal :=
  .next (s.issue c (.par (.reg 0x03 f) x y))

/-- SUB (R232). -/
def execSub (c : Core) (f : FormR) (x y : MoveF) (s : State) : Host.Outcome State Fault Refusal :=
  .next (s.issue c (.par (.reg 0x04 f) x y))

/-- SUBS (R232). -/
def execSubs (c : Core) (f : FormR) (x y : MoveF) (s : State) : Host.Outcome State Fault Refusal :=
  .next (s.issue c (.par (.reg 0x05 f) x y))

/-- CMP (R232). -/
def execCmp (c : Core) (f : FormR) (x y : MoveF) (s : State) : Host.Outcome State Fault Refusal :=
  .next (s.issue c (.par (.reg 0x06 f) x y))

/-- NEG (R232). -/
def execNeg (c : Core) (f : FormR) (x y : MoveF) (s : State) : Host.Outcome State Fault Refusal :=
  .next (s.issue c (.par (.reg 0x07 f) x y))

/-- ABS (R232). -/
def execAbs (c : Core) (f : FormR) (x y : MoveF) (s : State) : Host.Outcome State Fault Refusal :=
  .next (s.issue c (.par (.reg 0x08 f) x y))

/-- MIN (R232). -/
def execMin (c : Core) (f : FormR) (x y : MoveF) (s : State) : Host.Outcome State Fault Refusal :=
  .next (s.issue c (.par (.reg 0x09 f) x y))

/-- MAX (R232). -/
def execMax (c : Core) (f : FormR) (x y : MoveF) (s : State) : Host.Outcome State Fault Refusal :=
  .next (s.issue c (.par (.reg 0x0A f) x y))

/-- AND (R232). -/
def execAnd (c : Core) (f : FormR) (x y : MoveF) (s : State) : Host.Outcome State Fault Refusal :=
  .next (s.issue c (.par (.reg 0x0B f) x y))

/-- OR (R232). -/
def execOr (c : Core) (f : FormR) (x y : MoveF) (s : State) : Host.Outcome State Fault Refusal :=
  .next (s.issue c (.par (.reg 0x0C f) x y))

/-- XOR (R232). -/
def execXor (c : Core) (f : FormR) (x y : MoveF) (s : State) : Host.Outcome State Fault Refusal :=
  .next (s.issue c (.par (.reg 0x0D f) x y))

/-- ANDN (R232). -/
def execAndn (c : Core) (f : FormR) (x y : MoveF) (s : State) : Host.Outcome State Fault Refusal :=
  .next (s.issue c (.par (.reg 0x0E f) x y))

/-- MULL (R232). -/
def execMull (c : Core) (f : FormR) (x y : MoveF) (s : State) : Host.Outcome State Fault Refusal :=
  .next (s.issue c (.par (.reg 0x0F f) x y))

/-- DIVR (R232). -/
def execDivr (c : Core) (f : FormR) (x y : MoveF) (s : State) : Host.Outcome State Fault Refusal :=
  .next (s.issue c (.par (.reg 0x10 f) x y))

/-- LNQ (R232). -/
def execLnq (c : Core) (f : FormR) (x y : MoveF) (s : State) : Host.Outcome State Fault Refusal :=
  .next (s.issue c (.par (.reg 0x11 f) x y))

/-- MRS (R234). -/
def execMrs (c : Core) (f : FormK) (x y : MoveF) (s : State) : Host.Outcome State Fault Refusal :=
  .next (s.issue c (.par (.con 0x12 f) x y))

/-- MSR (R234). -/
def execMsr (c : Core) (f : FormK) (x y : MoveF) (s : State) : Host.Outcome State Fault Refusal :=
  .next (s.issue c (.par (.con 0x13 f) x y))

/-- CADD (R233). -/
def execCadd (c : Core) (f : FormR) (x y : MoveF) (s : State) : Host.Outcome State Fault Refusal :=
  .next (s.issue c (.par (.reg 0x14 f) x y))

/-- CSUB (R233). -/
def execCsub (c : Core) (f : FormR) (x y : MoveF) (s : State) : Host.Outcome State Fault Refusal :=
  .next (s.issue c (.par (.reg 0x15 f) x y))

/-- CNEG (R233). -/
def execCneg (c : Core) (f : FormR) (x y : MoveF) (s : State) : Host.Outcome State Fault Refusal :=
  .next (s.issue c (.par (.reg 0x16 f) x y))

/-- CONJ (R233). -/
def execConj (c : Core) (f : FormR) (x y : MoveF) (s : State) : Host.Outcome State Fault Refusal :=
  .next (s.issue c (.par (.reg 0x17 f) x y))

/-- CSWP (R233). -/
def execCswp (c : Core) (f : FormR) (x y : MoveF) (s : State) : Host.Outcome State Fault Refusal :=
  .next (s.issue c (.par (.reg 0x18 f) x y))

/-- CMUL (R236). -/
def execCmul (c : Core) (f : FormR) (x y : MoveF) (s : State) : Host.Outcome State Fault Refusal :=
  .next (s.issue c (.par (.reg 0x20 f) x y))

/-- CMAC (R236). -/
def execCmac (c : Core) (f : FormR) (x y : MoveF) (s : State) : Host.Outcome State Fault Refusal :=
  .next (s.issue c (.par (.reg 0x21 f) x y))

/-- EXTC (R237). -/
def execExtc (c : Core) (f : FormK) (x y : MoveF) (s : State) : Host.Outcome State Fault Refusal :=
  .next (s.issue c (.par (.con 0x22 f) x y))

/-- EXTR (R237). -/
def execExtr (c : Core) (f : FormK) (x y : MoveF) (s : State) : Host.Outcome State Fault Refusal :=
  .next (s.issue c (.par (.con 0x23 f) x y))

/-- EXTI (R237). -/
def execExti (c : Core) (f : FormK) (x y : MoveF) (s : State) : Host.Outcome State Fault Refusal :=
  .next (s.issue c (.par (.con 0x24 f) x y))

/-- LDA (R237). -/
def execLda (c : Core) (f : FormK) (x y : MoveF) (s : State) : Host.Outcome State Fault Refusal :=
  .next (s.issue c (.par (.con 0x25 f) x y))

/-- ACLR (R237). -/
def execAclr (c : Core) (f : FormR) (x y : MoveF) (s : State) : Host.Outcome State Fault Refusal :=
  .next (s.issue c (.par (.reg 0x26 f) x y))

/-- AMOV (R237). -/
def execAmov (c : Core) (f : FormR) (x y : MoveF) (s : State) : Host.Outcome State Fault Refusal :=
  .next (s.issue c (.par (.reg 0x27 f) x y))

/-- BFLY (R238). -/
def execBfly (c : Core) (f : FormR) (x y : MoveF) (s : State) : Host.Outcome State Fault Refusal :=
  .next (s.issue c (.par (.reg 0x30 f) x y))

/-- STGEND (R239). -/
def execStgend (c : Core) (f : FormR) (x y : MoveF) (s : State) : Host.Outcome State Fault Refusal :=
  .next (s.issue c (.par (.reg 0x31 f) x y))

/-- ANG (R240). -/
def execAng (c : Core) (f : FormR) (x y : MoveF) (s : State) : Host.Outcome State Fault Refusal :=
  .next (s.issue c (.par (.reg 0x38 f) x y))

/-- MAG (R240). -/
def execMag (c : Core) (f : FormR) (x y : MoveF) (s : State) : Host.Outcome State Fault Refusal :=
  .next (s.issue c (.par (.reg 0x39 f) x y))

/-- CIS (R240). -/
def execCis (c : Core) (f : FormR) (x y : MoveF) (s : State) : Host.Outcome State Fault Refusal :=
  .next (s.issue c (.par (.reg 0x3A f) x y))

/-- ROT (R240). -/
def execRot (c : Core) (f : FormR) (x y : MoveF) (s : State) : Host.Outcome State Fault Refusal :=
  .next (s.issue c (.par (.reg 0x3B f) x y))

/-- UNW (R240). -/
def execUnw (c : Core) (f : FormR) (x y : MoveF) (s : State) : Host.Outcome State Fault Refusal :=
  .next (s.issue c (.par (.reg 0x3C f) x y))

/-- ASR (R241). -/
def execAsr (c : Core) (f : FormK) (x y : MoveF) (s : State) : Host.Outcome State Fault Refusal :=
  .next (s.issue c (.par (.con 0x40 f) x y))

/-- LSR (R241). -/
def execLsr (c : Core) (f : FormK) (x y : MoveF) (s : State) : Host.Outcome State Fault Refusal :=
  .next (s.issue c (.par (.con 0x41 f) x y))

/-- RNE (R241). -/
def execRne (c : Core) (f : FormK) (x y : MoveF) (s : State) : Host.Outcome State Fault Refusal :=
  .next (s.issue c (.par (.con 0x42 f) x y))

/-- SHL (R241). -/
def execShl (c : Core) (f : FormK) (x y : MoveF) (s : State) : Host.Outcome State Fault Refusal :=
  .next (s.issue c (.par (.con 0x43 f) x y))

/-- SHLW (R241). -/
def execShlw (c : Core) (f : FormK) (x y : MoveF) (s : State) : Host.Outcome State Fault Refusal :=
  .next (s.issue c (.par (.con 0x44 f) x y))

/-- SAT (R241). -/
def execSat (c : Core) (f : FormK) (x y : MoveF) (s : State) : Host.Outcome State Fault Refusal :=
  .next (s.issue c (.par (.con 0x45 f) x y))

/-- SATU (R241). -/
def execSatu (c : Core) (f : FormK) (x y : MoveF) (s : State) : Host.Outcome State Fault Refusal :=
  .next (s.issue c (.par (.con 0x46 f) x y))

/-- WRAP (R241). -/
def execWrap (c : Core) (f : FormK) (x y : MoveF) (s : State) : Host.Outcome State Fault Refusal :=
  .next (s.issue c (.par (.con 0x47 f) x y))

/-- CASR (R241). -/
def execCasr (c : Core) (f : FormK) (x y : MoveF) (s : State) : Host.Outcome State Fault Refusal :=
  .next (s.issue c (.par (.con 0x48 f) x y))

/-- CRNE (R241). -/
def execCrne (c : Core) (f : FormK) (x y : MoveF) (s : State) : Host.Outcome State Fault Refusal :=
  .next (s.issue c (.par (.con 0x49 f) x y))

/-- CSHL (R241). -/
def execCshl (c : Core) (f : FormK) (x y : MoveF) (s : State) : Host.Outcome State Fault Refusal :=
  .next (s.issue c (.par (.con 0x4A f) x y))

/-- BITS (R241). -/
def execBits (c : Core) (f : FormF) (x y : MoveF) (s : State) : Host.Outcome State Fault Refusal :=
  .next (s.issue c (.par (.fld 0x4B f) x y))

/-- INS (R241). -/
def execIns (c : Core) (f : FormF) (x y : MoveF) (s : State) : Host.Outcome State Fault Refusal :=
  .next (s.issue c (.par (.fld 0x4C f) x y))

/-- CLS (R241). -/
def execCls (c : Core) (f : FormR) (x y : MoveF) (s : State) : Host.Outcome State Fault Refusal :=
  .next (s.issue c (.par (.reg 0x4D f) x y))

/-- A parallel instruction with one move, in the Y slot or the X slot, and an empty compute slot (R226). -/
def oneMove (ySlot : Bool) (m : MoveF) : Soric := if ySlot then .par nopSlot noMove m else .par nopSlot m noMove

/-- MOVE_LD (R226). -/
def execMoveLd (c : Core) (ySlot : Bool) (space : BitVec 2) (ptr : BitVec 3) (pm : Bool) (greg : BitVec 4) (s : State) :
    Host.Outcome State Fault Refusal := .next (s.issue c (oneMove ySlot ⟨1, space, ptr, pm, greg⟩))

/-- MOVE_ST (R226). -/
def execMoveSt (c : Core) (ySlot : Bool) (space : BitVec 2) (ptr : BitVec 3) (pm : Bool) (greg : BitVec 4) (s : State) :
    Host.Outcome State Fault Refusal := .next (s.issue c (oneMove ySlot ⟨2, space, ptr, pm, greg⟩))

/-- MOVE_STD (R206, R226). -/
def execMoveStd (c : Core) (ySlot : Bool) (space : BitVec 2) (ptr : BitVec 3) (pm : Bool) (greg : BitVec 4) (s : State) :
    Host.Outcome State Fault Refusal := .next (s.issue c (oneMove ySlot ⟨3, space, ptr, pm, greg⟩))

/-- MOVE_MODIFY (R226). -/
def execMoveModify (c : Core) (ySlot : Bool) (ptr : BitVec 3) (s : State) : Host.Outcome State Fault Refusal :=
  .next (s.issue c (oneMove ySlot ⟨4, 0, ptr, true, 0⟩))

/-- BR (R244). -/
def execBr (c : Core) (cond : BitVec 4) (target : BitVec 11) (popn : BitVec 2) (s : State) :
    Host.Outcome State Fault Refusal := .next (s.issue c (.br cond target popn))

/-- CALL (R244). -/
def execCall (c : Core) (d : BitVec 4) (target : BitVec 11) (s : State) : Host.Outcome State Fault Refusal :=
  .next (s.issue c (.call d target))

/-- JMP (R244). -/
def execJmp (c : Core) (cond : BitVec 4) (a : BitVec 4) (popn : BitVec 2) (s : State) :
    Host.Outcome State Fault Refusal := .next (s.issue c (.jmp cond a popn))

/-- LOOP (R245). -/
def execLoop (c : Core) (rc : Bool) (a : BitVec 4) (count : BitVec 16) (fin : BitVec 11) (s : State) :
    Host.Outcome State Fault Refusal := .next (s.issue c (.loop rc a count fin))

/-- HALT (R246). -/
def execHalt (c : Core) (s : State) : Host.Outcome State Fault Refusal := .next (s.issue c .halt)

/-- SEND (R246). -/
def execSend (c : Core) (reg : BitVec 4) (s : State) : Host.Outcome State Fault Refusal := .next (s.issue c (.send reg))

/-- RECV (R246). -/
def execRecv (c : Core) (reg : BitVec 4) (wait : Bool) (s : State) : Host.Outcome State Fault Refusal :=
  .next (s.issue c (.recv reg wait))

/-- RBNC (R246). -/
def execRbnc (c : Core) (reg : BitVec 4) (wait : Bool) (s : State) : Host.Outcome State Fault Refusal :=
  .next (s.issue c (.rbnc reg wait))

/-- DBELL (R217, R246). -/
def execDbell (c : Core) (s : State) : Host.Outcome State Fault Refusal := .next (s.issue c .dbell)

/-- LIG (R247). -/
def execLig (c : Core) (reg : BitVec 4) (imm : BitVec 56) (s : State) : Host.Outcome State Fault Refusal :=
  .next (s.issue c (.lig reg imm))

/-- LIH (R247). -/
def execLih (c : Core) (reg : BitVec 4) (imm : BitVec 16) (s : State) : Host.Outcome State Fault Refusal :=
  .next (s.issue c (.lih reg imm))

/-- LIS (R247). -/
def execLis (c : Core) (sr : BitVec 7) (imm : BitVec 18) (s : State) : Host.Outcome State Fault Refusal :=
  .next (s.issue c (.lis sr imm))

end Sys2Proof.Machine
end

