-- ==== Sys2Proof/Machine/Dispatch.lean ====
section
/-!
DEFINITION. The dispatch of the commands: one arm per constructor of Instr, each a direct call of its meaning.
-/
namespace Sys2Proof.Machine

def exec (i : Instr) (s : State) : Host.Outcome State Fault Refusal :=
  match i with
  | .registerWrite q a be v hi => Sys2Proof.Machine.execRegisterWrite q a be v hi s
  | .setAliasWrite q a v => Sys2Proof.Machine.execSetAliasWrite q a v s
  | .clrAliasWrite q a v => Sys2Proof.Machine.execClrAliasWrite q a v s
  | .tglAliasWrite q a v => Sys2Proof.Machine.execTglAliasWrite q a v s
  | .unmappedAccess q a w => Sys2Proof.Machine.execUnmappedAccess q a w s
  | .clearingRead q a => Sys2Proof.Machine.execClearingRead q a s
  | .ackWrite q a v => Sys2Proof.Machine.execAckWrite q a v s
  | .loRead q a => Sys2Proof.Machine.execLoRead q a s
  | .stageWrite q a v => Sys2Proof.Machine.execStageWrite q a v s
  | .hiCommit q a v => Sys2Proof.Machine.execHiCommit q a v s
  | .bitAliasWrite q a v => Sys2Proof.Machine.execBitAliasWrite q a v s
  | .headokFall h t => Sys2Proof.Machine.execHeadokFall h t s
  | .headokRise h => Sys2Proof.Machine.execHeadokRise h s
  | .headokQualified h => Sys2Proof.Machine.execHeadokQualified h s
  | .armWrite q h v => Sys2Proof.Machine.execArmWrite q h v s
  | .probeCommit q h => Sys2Proof.Machine.execProbeCommit q h s
  | .chirpGo q h => Sys2Proof.Machine.execChirpGo q h s
  | .chirpDone h => Sys2Proof.Machine.execChirpDone h s
  | .shotBoundary h raw => Sys2Proof.Machine.execShotBoundary h raw s
  | .subProbeLaunch h k => Sys2Proof.Machine.execSubProbeLaunch h k s
  | .lmonEdge ch e ofs => Sys2Proof.Machine.execLmonEdge ch e ofs s
  | .lmonMiss ch => Sys2Proof.Machine.execLmonMiss ch s
  | .headTempReading h t => Sys2Proof.Machine.execHeadTempReading h t s
  | .headTempStale h => Sys2Proof.Machine.execHeadTempStale h s
  | .calGo q ch => Sys2Proof.Machine.execCalGo q ch s
  | .calSlotStart ch => Sys2Proof.Machine.execCalSlotStart ch s
  | .calSlotEnd ch raw => Sys2Proof.Machine.execCalSlotEnd ch raw s
  | .schedEnable q h => Sys2Proof.Machine.execSchedEnable q h s
  | .schedLastPeriodEnd h raw => Sys2Proof.Machine.execSchedLastPeriodEnd h raw s
  | .followLost h => Sys2Proof.Machine.execFollowLost h s
  | .localSecond e0 e1 e2 e3 => Sys2Proof.Machine.execLocalSecond e0 e1 e2 e3 s
  | .alignWaitEnd h => Sys2Proof.Machine.execAlignWaitEnd h s
  | .shotCapture q h => Sys2Proof.Machine.execShotCapture q h s
  | .ocxoCheckStart rdy refin => Sys2Proof.Machine.execOcxoCheckStart rdy refin s
  | .ocxoCheckDone count => Sys2Proof.Machine.execOcxoCheckDone count s
  | .ocxoLoss rdy refin => Sys2Proof.Machine.execOcxoLoss rdy refin s
  | .sourceSwitchTimeout => Sys2Proof.Machine.execSourceSwitchTimeout s
  | .refPllUnlock => Sys2Proof.Machine.execRefPllUnlock s
  | .timeStepCommit q v => Sys2Proof.Machine.execTimeStepCommit q v s
  | .tdcEdge u stop e ofs => Sys2Proof.Machine.execTdcEdge u stop e ofs s
  | .tdcComplete u => Sys2Proof.Machine.execTdcComplete u s
  | .tdcWindowEnd u => Sys2Proof.Machine.execTdcWindowEnd u s
  | .tdcArmGo q u => Sys2Proof.Machine.execTdcArmGo q u s
  | .tdcDisarm q u => Sys2Proof.Machine.execTdcDisarm q u s
  | .tdcRearm u => Sys2Proof.Machine.execTdcRearm u s
  | .tinEdge pin rise e ofs => Sys2Proof.Machine.execTinEdge pin rise e ofs s
  | .tdcLoopsLocked => Sys2Proof.Machine.execTdcLoopsLocked s
  | .tdcUnlock slow fast => Sys2Proof.Machine.execTdcUnlock slow fast s
  | .tdcLate ch => Sys2Proof.Machine.execTdcLate ch s
  | .replicaDone ch => Sys2Proof.Machine.execReplicaDone ch s
  | .traceWindowEnd ch raw => Sys2Proof.Machine.execTraceWindowEnd ch raw s
  | .recordComplete ch => Sys2Proof.Machine.execRecordComplete ch s
  | .outRpWrite q ch v => Sys2Proof.Machine.execOutRpWrite q ch v s
  | .flushDone ch => Sys2Proof.Machine.execFlushDone ch s
  | .totClear q ch => Sys2Proof.Machine.execTotClear q ch s
  | .phaseRecord ch => Sys2Proof.Machine.execPhaseRecord ch s
  | .unwrapShot ch => Sys2Proof.Machine.execUnwrapShot ch s
  | .headerRingClear ch => Sys2Proof.Machine.execHeaderRingClear ch s
  | .bandSample ch => Sys2Proof.Machine.execBandSample ch s
  | .bandFrameEnd ch => Sys2Proof.Machine.execBandFrameEnd ch s
  | .dtsFlushRead ch => Sys2Proof.Machine.execDtsFlushRead ch s
  | .fuseShot ch => Sys2Proof.Machine.execFuseShot ch s
  | .fuseFrameEnd ch => Sys2Proof.Machine.execFuseFrameEnd ch s
  | .coreCommit q c role => Sys2Proof.Machine.execCoreCommit q c role s
  | .coreHalt q c => Sys2Proof.Machine.execCoreHalt q c s
  | .coreRun q c => Sys2Proof.Machine.execCoreRun q c s
  | .coreRelease q c => Sys2Proof.Machine.execCoreRelease q c s
  | .vendorReload c => Sys2Proof.Machine.execVendorReload c s
  | .assignWrite q cl v => Sys2Proof.Machine.execAssignWrite q cl v s
  | .messageArrive n0 => Sys2Proof.Machine.execMessageArrive n0 s
  | .messageBounce n0 => Sys2Proof.Machine.execMessageBounce n0 s
  | .hostSend q cl => Sys2Proof.Machine.execHostSend q cl s
  | .hostOutPop q cl => Sys2Proof.Machine.execHostOutPop q cl s
  | .hostBncPop q cl => Sys2Proof.Machine.execHostBncPop q cl s
  | .dspDomainGated b => Sys2Proof.Machine.execDspDomainGated b s
  | .nop c f x y => Sys2Proof.Machine.execNop c f x y s
  | .mov c f x y => Sys2Proof.Machine.execMov c f x y s
  | .add c f x y => Sys2Proof.Machine.execAdd c f x y s
  | .adds c f x y => Sys2Proof.Machine.execAdds c f x y s
  | .sub c f x y => Sys2Proof.Machine.execSub c f x y s
  | .subs c f x y => Sys2Proof.Machine.execSubs c f x y s
  | .cmp c f x y => Sys2Proof.Machine.execCmp c f x y s
  | .neg c f x y => Sys2Proof.Machine.execNeg c f x y s
  | .abs c f x y => Sys2Proof.Machine.execAbs c f x y s
  | .min c f x y => Sys2Proof.Machine.execMin c f x y s
  | .max c f x y => Sys2Proof.Machine.execMax c f x y s
  | .and c f x y => Sys2Proof.Machine.execAnd c f x y s
  | .or c f x y => Sys2Proof.Machine.execOr c f x y s
  | .xor c f x y => Sys2Proof.Machine.execXor c f x y s
  | .andn c f x y => Sys2Proof.Machine.execAndn c f x y s
  | .mull c f x y => Sys2Proof.Machine.execMull c f x y s
  | .divr c f x y => Sys2Proof.Machine.execDivr c f x y s
  | .lnq c f x y => Sys2Proof.Machine.execLnq c f x y s
  | .mrs c f x y => Sys2Proof.Machine.execMrs c f x y s
  | .msr c f x y => Sys2Proof.Machine.execMsr c f x y s
  | .cadd c f x y => Sys2Proof.Machine.execCadd c f x y s
  | .csub c f x y => Sys2Proof.Machine.execCsub c f x y s
  | .cneg c f x y => Sys2Proof.Machine.execCneg c f x y s
  | .conj c f x y => Sys2Proof.Machine.execConj c f x y s
  | .cswp c f x y => Sys2Proof.Machine.execCswp c f x y s
  | .cmul c f x y => Sys2Proof.Machine.execCmul c f x y s
  | .cmac c f x y => Sys2Proof.Machine.execCmac c f x y s
  | .extc c f x y => Sys2Proof.Machine.execExtc c f x y s
  | .extr c f x y => Sys2Proof.Machine.execExtr c f x y s
  | .exti c f x y => Sys2Proof.Machine.execExti c f x y s
  | .lda c f x y => Sys2Proof.Machine.execLda c f x y s
  | .aclr c f x y => Sys2Proof.Machine.execAclr c f x y s
  | .amov c f x y => Sys2Proof.Machine.execAmov c f x y s
  | .bfly c f x y => Sys2Proof.Machine.execBfly c f x y s
  | .stgend c f x y => Sys2Proof.Machine.execStgend c f x y s
  | .ang c f x y => Sys2Proof.Machine.execAng c f x y s
  | .mag c f x y => Sys2Proof.Machine.execMag c f x y s
  | .cis c f x y => Sys2Proof.Machine.execCis c f x y s
  | .rot c f x y => Sys2Proof.Machine.execRot c f x y s
  | .unw c f x y => Sys2Proof.Machine.execUnw c f x y s
  | .asr c f x y => Sys2Proof.Machine.execAsr c f x y s
  | .lsr c f x y => Sys2Proof.Machine.execLsr c f x y s
  | .rne c f x y => Sys2Proof.Machine.execRne c f x y s
  | .shl c f x y => Sys2Proof.Machine.execShl c f x y s
  | .shlw c f x y => Sys2Proof.Machine.execShlw c f x y s
  | .sat c f x y => Sys2Proof.Machine.execSat c f x y s
  | .satu c f x y => Sys2Proof.Machine.execSatu c f x y s
  | .wrap c f x y => Sys2Proof.Machine.execWrap c f x y s
  | .casr c f x y => Sys2Proof.Machine.execCasr c f x y s
  | .crne c f x y => Sys2Proof.Machine.execCrne c f x y s
  | .cshl c f x y => Sys2Proof.Machine.execCshl c f x y s
  | .bits c f x y => Sys2Proof.Machine.execBits c f x y s
  | .ins c f x y => Sys2Proof.Machine.execIns c f x y s
  | .cls c f x y => Sys2Proof.Machine.execCls c f x y s
  | .moveLd c ySlot space ptr pm greg => Sys2Proof.Machine.execMoveLd c ySlot space ptr pm greg s
  | .moveSt c ySlot space ptr pm greg => Sys2Proof.Machine.execMoveSt c ySlot space ptr pm greg s
  | .moveStd c ySlot space ptr pm greg => Sys2Proof.Machine.execMoveStd c ySlot space ptr pm greg s
  | .moveModify c ySlot ptr => Sys2Proof.Machine.execMoveModify c ySlot ptr s
  | .br c cond target popn => Sys2Proof.Machine.execBr c cond target popn s
  | .call c d target => Sys2Proof.Machine.execCall c d target s
  | .jmp c cond a popn => Sys2Proof.Machine.execJmp c cond a popn s
  | .loop c rc a count fin => Sys2Proof.Machine.execLoop c rc a count fin s
  | .halt c => Sys2Proof.Machine.execHalt c s
  | .send c reg => Sys2Proof.Machine.execSend c reg s
  | .recv c reg wait => Sys2Proof.Machine.execRecv c reg wait s
  | .rbnc c reg wait => Sys2Proof.Machine.execRbnc c reg wait s
  | .dbell c => Sys2Proof.Machine.execDbell c s
  | .lig c reg imm => Sys2Proof.Machine.execLig c reg imm s
  | .lih c reg imm => Sys2Proof.Machine.execLih c reg imm s
  | .lis c sr imm => Sys2Proof.Machine.execLis c sr imm s
  | .zoneEnable q z v => Sys2Proof.Machine.execZoneEnable q z v s
  | .zoneDisable q z v => Sys2Proof.Machine.execZoneDisable q z v s
  | .zoneEvaluate z => Sys2Proof.Machine.execZoneEvaluate z s
  | .zoneInputWrite z v => Sys2Proof.Machine.execZoneInputWrite z v s
  | .zoneInputTick => Sys2Proof.Machine.execZoneInputTick s
  | .remoteWriteTimeout z => Sys2Proof.Machine.execRemoteWriteTimeout z s
  | .remoteWriteAck z abort => Sys2Proof.Machine.execRemoteWriteAck z abort s
  | .remoteRefresh z => Sys2Proof.Machine.execRemoteRefresh z s
  | .captureShotCopy k => Sys2Proof.Machine.execCaptureShotCopy k s
  | .captureDone k => Sys2Proof.Machine.execCaptureDone k s
  | .capFree q v => Sys2Proof.Machine.execCapFree q v s
  | .evqPop q => Sys2Proof.Machine.execEvqPop q s
  | .dramRead a flip => Sys2Proof.Machine.execDramRead a flip s
  | .dramWrite a v poison => Sys2Proof.Machine.execDramWrite a v poison s
  | .rowTimeout m bank => Sys2Proof.Machine.execRowTimeout m bank s
  | .refreshDue m rank queued => Sys2Proof.Machine.execRefreshDue m rank queued s
  | .retryRetire m => Sys2Proof.Machine.execRetryRetire m s
  | .alertNFall m => Sys2Proof.Machine.execAlertNFall m s
  | .caReplay m => Sys2Proof.Machine.execCaReplay m s
  | .trainGo q m => Sys2Proof.Machine.execTrainGo q m s
  | .trainingDone m r => Sys2Proof.Machine.execTrainingDone m r s
  | .periodicTrain m r => Sys2Proof.Machine.execPeriodicTrain m r s
  | .freqGo q m => Sys2Proof.Machine.execFreqGo q m s
  | .freqChangeSre e => Sys2Proof.Machine.execFreqChangeSre e s
  | .memPllRelock m => Sys2Proof.Machine.execMemPllRelock m s
  | .freqChangeDone m r => Sys2Proof.Machine.execFreqChangeDone m r s
  | .freqChangeReturn e rgOk r => Sys2Proof.Machine.execFreqChangeReturn e rgOk r s
  | .idleSelfRefresh e k => Sys2Proof.Machine.execIdleSelfRefresh e k s
  | .selfRefreshExit m rank => Sys2Proof.Machine.execSelfRefreshExit m rank s
  | .rgnEnable q k v => Sys2Proof.Machine.execRgnEnable q k v s
  | .dmaGo q e => Sys2Proof.Machine.execDmaGo q e s
  | .dmaStop q n => Sys2Proof.Machine.execDmaStop q n s
  | .dmaBurst n request host fail => Sys2Proof.Machine.execDmaBurst n request host fail s
  | .descComplete e => Sys2Proof.Machine.execDescComplete e s
  | .bar2Read byte len => Sys2Proof.Machine.execBar2Read byte len s
  | .bar2Write byte data => Sys2Proof.Machine.execBar2Write byte data s
  | .exportPop q v => Sys2Proof.Machine.execExportPop q v s
  | .attnEvent v => Sys2Proof.Machine.execAttnEvent v s
  | .moderationTimeout v => Sys2Proof.Machine.execModerationTimeout v s
  | .msixUnmask v => Sys2Proof.Machine.execMsixUnmask v s
  | .lampFrameStart p => Sys2Proof.Machine.execLampFrameStart p s
  | .lampShiftDone p marker slots => Sys2Proof.Machine.execLampShiftDone p marker slots s
  | .lampFrameEnd p => Sys2Proof.Machine.execLampFrameEnd p s
  | .psync p => Sys2Proof.Machine.execPsync p s
  | .busReply p m bytes => Sys2Proof.Machine.execBusReply p m bytes s
  | .busReplyTimeout p m => Sys2Proof.Machine.execBusReplyTimeout p m s
  | .matrixPlane p => Sys2Proof.Machine.execMatrixPlane p s
  | .emergBlankSet q p => Sys2Proof.Machine.execEmergBlankSet q p s
  | .emergBlankClear q p => Sys2Proof.Machine.execEmergBlankClear q p s
  | .thStaleExpire k => Sys2Proof.Machine.execThStaleExpire k s
  | .padcPassStart overrun => Sys2Proof.Machine.execPadcPassStart overrun s
  | .padcOutput xr => Sys2Proof.Machine.execPadcOutput xr s
  | .padcResultConvert k => Sys2Proof.Machine.execPadcResultConvert k s
  | .padcOpenDetect => Sys2Proof.Machine.execPadcOpenDetect s
  | .padcOpenRetryTimeout => Sys2Proof.Machine.execPadcOpenRetryTimeout s
  | .burnoutTest xs => Sys2Proof.Machine.execBurnoutTest xs s
  | .hadcRegGo q => Sys2Proof.Machine.execHadcRegGo q s
  | .hadcRegTimer => Sys2Proof.Machine.execHadcRegTimer s
  | .hadcInjGo q => Sys2Proof.Machine.execHadcInjGo q s
  | .hadcInjTrigger src => Sys2Proof.Machine.execHadcInjTrigger src s
  | .hadcConversionDone rw => Sys2Proof.Machine.execHadcConversionDone rw s
  | .refSettled => Sys2Proof.Machine.execRefSettled s
  | .loopTargetUpdate n => Sys2Proof.Machine.execLoopTargetUpdate n s
  | .loopReadback n ua => Sys2Proof.Machine.execLoopReadback n ua s
  | .loopHostTimeout n => Sys2Proof.Machine.execLoopHostTimeout n s
  | .loopMismatch n => Sys2Proof.Machine.execLoopMismatch n s
  | .loopOpen n => Sys2Proof.Machine.execLoopOpen n s
  | .quinceTempRead ms => Sys2Proof.Machine.execQuinceTempRead ms s
  | .laneStepStart ch => Sys2Proof.Machine.execLaneStepStart ch s
  | .laneStepSlotResult e => Sys2Proof.Machine.execLaneStepSlotResult e s
  | .iqAccumDone ch sx sy => Sys2Proof.Machine.execIqAccumDone ch sx sy s
  | .padcCalStep g zeroA refA zeroB refB => Sys2Proof.Machine.execPadcCalStep g zeroA refA zeroB refB s
  | .matchStep va vb => Sys2Proof.Machine.execMatchStep va vb s
  | .calStore ok => Sys2Proof.Machine.execCalStore ok s
  | .calGoAll q => Sys2Proof.Machine.execCalGoAll q s
  | .calGoPadc q => Sys2Proof.Machine.execCalGoPadc q s
  | .calGoMatch q => Sys2Proof.Machine.execCalGoMatch q s
  | .calGoStore q => Sys2Proof.Machine.execCalGoStore q s
  | .laneReq q ch => Sys2Proof.Machine.execLaneReq q ch s
  | .dictRead p idx sub ofs => Sys2Proof.Machine.execDictRead p idx sub ofs s
  | .dictWrite p idx sub ty ofs more data => Sys2Proof.Machine.execDictWrite p idx sub ty ofs more data s
  | .store p ok => Sys2Proof.Machine.execStore p ok s
  | .restoreDefaults p sig => Sys2Proof.Machine.execRestoreDefaults p sig s
  | .subscribeAdd n0 lease vs => Sys2Proof.Machine.execSubscribeAdd n0 lease vs s
  | .subscribeRemove n0 vs => Sys2Proof.Machine.execSubscribeRemove n0 vs s
  | .subscribeClear n0 => Sys2Proof.Machine.execSubscribeClear n0 s
  | .subscriptionLeaseExpire n0 v => Sys2Proof.Machine.execSubscriptionLeaseExpire n0 v s
  | .yarfelFrameRx ip bytes => Sys2Proof.Machine.execYarfelFrameRx ip bytes s
  | .sessionOpen ip client role nonce => Sys2Proof.Machine.execSessionOpen ip client role nonce s
  | .sessionConfirm f verified => Sys2Proof.Machine.execSessionConfirm f verified s
  | .sessionConfirmTimeout n0 => Sys2Proof.Machine.execSessionConfirmTimeout n0 s
  | .sessionIdleTimeout n0 => Sys2Proof.Machine.execSessionIdleTimeout n0 s
  | .broadcastWrite src seq idx sub ty data => Sys2Proof.Machine.execBroadcastWrite src seq idx sub ty data s
  | .localGo q => Sys2Proof.Machine.execLocalGo q s
  | .ptpMessageRx n m => Sys2Proof.Machine.execPtpMessageRx n m s
  | .ptpAnnounceInterval n => Sys2Proof.Machine.execPtpAnnounceInterval n s
  | .ptpAnnounceTimeout n => Sys2Proof.Machine.execPtpAnnounceTimeout n s
  | .ptpSyncInterval n => Sys2Proof.Machine.execPtpSyncInterval n s
  | .nmtStart c node => Sys2Proof.Machine.execNmtStart c node s
  | .nmtStop c node => Sys2Proof.Machine.execNmtStop c node s
  | .nmtPreOperational c node => Sys2Proof.Machine.execNmtPreOperational c node s
  | .nmtResetCommunication c node => Sys2Proof.Machine.execNmtResetCommunication c node s
  | .sdoRequest c data => Sys2Proof.Machine.execSdoRequest c data s
  | .heartbeatProduce c => Sys2Proof.Machine.execHeartbeatProduce c s
  | .heartbeatLoss c node => Sys2Proof.Machine.execHeartbeatLoss c node s
  | .tpdoTransmit c t => Sys2Proof.Machine.execTpdoTransmit c t s
  | .tpdoEventTimer c t => Sys2Proof.Machine.execTpdoEventTimer c t s
  | .rpdoReceive c r data => Sys2Proof.Machine.execRpdoReceive c r data s
  | .canRxFrame c f => Sys2Proof.Machine.execCanRxFrame c f s
  | .canBusOff c => Sys2Proof.Machine.execCanBusOff c s
  | .canBusOffRecovery c => Sys2Proof.Machine.execCanBusOffRecovery c s
  | .ethernetFrameRx n f => Sys2Proof.Machine.execEthernetFrameRx n f s
  | .linkLoss n => Sys2Proof.Machine.execLinkLoss n s
  | .por => Sys2Proof.Machine.execPor s
  | .resetN => Sys2Proof.Machine.execResetN s
  | .brownout => Sys2Proof.Machine.execBrownout s
  | .glitch => Sys2Proof.Machine.execGlitch s
  | .softCold q => Sys2Proof.Machine.execSoftCold q s
  | .softWarm q => Sys2Proof.Machine.execSoftWarm q s
  | .retry q => Sys2Proof.Machine.execRetry q s
  | .minimal q => Sys2Proof.Machine.execMinimal q s
  | .watchdog => Sys2Proof.Machine.execWatchdog s
  | .dieHot => Sys2Proof.Machine.execDieHot s
  | .supplyWarn => Sys2Proof.Machine.execSupplyWarn s
  | .perstN => Sys2Proof.Machine.execPerstN s
  | .bootAttempt sigs flips => Sys2Proof.Machine.execBootAttempt sigs flips s
  | .bootFailure why => Sys2Proof.Machine.execBootFailure why s
  | .dramFillDone => Sys2Proof.Machine.execDramFillDone s
  | .bootDone => Sys2Proof.Machine.execBootDone s
  | .pwrCtrlWrite q v => Sys2Proof.Machine.execPwrCtrlWrite q v s
  | .domainPowered d => Sys2Proof.Machine.execDomainPowered d s
  | .domainReadyToGate e => Sys2Proof.Machine.execDomainReadyToGate e s
  | .domainFail d => Sys2Proof.Machine.execDomainFail d s
  | .cclkSelChange q v => Sys2Proof.Machine.execCclkSelChange q v s
  | .imageWrite p b ofs more data sigOk => Sys2Proof.Machine.execImageWrite p b ofs more data sigOk s
  | .nvmOperationDone e => Sys2Proof.Machine.execNvmOperationDone e s
  | .lifeGo q => Sys2Proof.Machine.execLifeGo q s
  | .alertNRise m tck => Sys2Proof.Machine.execAlertNRise m tck s
  | .configurationSpaceWrite bme msixEn fmask => Sys2Proof.Machine.execConfigurationSpaceWrite bme msixEn fmask s
  | .vrefxRangeChange inRange => Sys2Proof.Machine.execVrefxRangeChange inRange s
  | .loopMismatchClear n => Sys2Proof.Machine.execLoopMismatchClear n s
  | .loopOpenClear n => Sys2Proof.Machine.execLoopOpenClear n s
  | .delayReqInterval n => Sys2Proof.Machine.execDelayReqInterval n s
  | .heartbeatReceive c node state => Sys2Proof.Machine.execHeartbeatReceive c node state s
  | .canErrstateChange c tec rec => Sys2Proof.Machine.execCanErrstateChange c tec rec s
  | .linkUp n anDone => Sys2Proof.Machine.execLinkUp n anDone s
  | .dieHotRelease => Sys2Proof.Machine.execDieHotRelease s
  | .dieHotWarning => Sys2Proof.Machine.execDieHotWarning s
  | .corePllRelock => Sys2Proof.Machine.execCorePllRelock s
  | .refPllRelock => Sys2Proof.Machine.execRefPllRelock s
  | .boReqInterval => Sys2Proof.Machine.execBoReqInterval s
  | .excitationComplianceHeld => Sys2Proof.Machine.execExcitationComplianceHeld s

end Sys2Proof.Machine
end

