-- ==== Sys2Proof/Machine/Tick.lean ====
section
/-!
DEFINITION. What the block does of itself while no command waits (DESIGN CHOICE, log entry 1): one REFCLK cycle of local time, one instruction on
every core that runs a user role, the NOTIFYs that wait, and one zone write to the device's own dictionary.
-/
namespace Sys2Proof.Machine

/-- The move slots of the instruction at a core's PC. -/
def State.slotsAt (s : State) (c : Nat) : List MoveF :=
  match decodeSoric (s.imem.get 0 (2048 * c + (s.core c).pc)) with
  | some (.par _ x y) => [x, y]
  | _ => []

/-- The core's instruction reaches a port word. -/
def State.portAt (s : State) (c : Nat) : Bool := (s.slotsAt c).any fun m => (moveLoads m || moveStores m) && decide (2 ≤ m.space.toNat)

/-- The turn of a core at the first bank its instruction reaches: 0 for the core after the one last granted there (R195). -/
def State.turnAt (s : State) (c : Nat) : Nat :=
  match (s.slotsAt c).find? moveShared with
  | some m => (c % 8 + 15 - nth (s.cluster (c / 8)).granted (bankOf (nth (s.core c).p m.ptr.toNat 0).toNat) 7) % 8
  | none => 0

/-- The cores in the order a tick takes them: those that reach a port word in core-number order (R198), then the others, round-robin at each bank
from the core after the one last granted there (R195, DESIGN CHOICE, log entry 1). -/
def State.coreOrder (s : State) : List Nat :=
  s.cores.keys.filter s.portAt ++ (List.range 8).flatMap fun i => s.cores.keys.filter fun c => !s.portAt c && decide (s.turnAt c = i)

/-- One idle tick: a cycle ends; nothing else happens while reset is held (R429, DESIGN CHOICE, log entry 1). -/
def State.tick (s : State) : State :=
  let s := s.cycleOver
  if s.shut then s else
  let s := s.cycle
  let s := forEach s.coreOrder (fun c t => t.stepCore c) s
  s.notifyWaiting.selfWrite

end Sys2Proof.Machine
end

