-- ==== Sys2Proof/WellFormed.lean ====
section
/-!
DEFINITION. Which commands the outside can send: operands lie within the widths the spec gives them. Every command has its meaning
whether it is well formed or not; a statement about commands from outside may assume it.
-/
namespace Sys2Proof

/-- An integer fits in a signed field of n bits. -/
def signedIn (x : Int) (n : Nat) : Bool := decide (-(2 ^ (n - 1)) ≤ x) && decide (x < 2 ^ (n - 1))

/-- The raw codes of a channel: four coherent lanes of 12 bits, then two Raman lanes of 14 bits (R76, R78). -/
def codesOk (raw : ChCodes) : Bool :=
  decide (raw.length ≤ 6) && ((raw.take 4).all fun l => l.all fun x => signedIn x 12) &&
    (raw.drop 4).all fun l => l.all fun x => signedIn x 14

/-- A command is well formed: addresses are word-aligned (R33), converter codes and readings lie in their widths (R76, R353, R365),
data fits its frame or burst (R304, R415). -/
def Instr.wf : Instr → Bool
  | .registerWrite _ a _ _ _ => decide (a.toNat % 4 = 0)
  | .setAliasWrite _ a _ => decide (a.toNat % 4 = 0)
  | .clrAliasWrite _ a _ => decide (a.toNat % 4 = 0)
  | .tglAliasWrite _ a _ => decide (a.toNat % 4 = 0)
  | .unmappedAccess _ a _ => decide (a.toNat % 4 = 0)
  | .clearingRead _ a => decide (a.addr.toNat % 4 = 0)
  | .ackWrite _ a _ => decide (a.toNat % 4 = 0)
  | .loRead _ a => decide (a.addr.toNat % 4 = 0)
  | .stageWrite _ a _ => decide (a.toNat % 4 = 0)
  | .hiCommit _ a _ => decide (a.toNat % 4 = 0)
  | .bitAliasWrite _ a _ => decide (0xF00000 ≤ a.toNat) && decide (a.toNat < 0xF00280) && decide (a.toNat % 4 = 0)
  | .shotBoundary _ raw => decide (raw.codes.length ≤ 8) && raw.codes.all codesOk
  | .headTempReading _ t => signedIn t 16
  | .calSlotEnd _ raw => codesOk raw
  | .schedLastPeriodEnd _ raw => decide (raw.length ≤ 8) && raw.all codesOk
  | .traceWindowEnd _ raw => codesOk raw
  | .zoneInputWrite _ v => signedIn v 64
  | .dramRead a _ => decide (a < 2 ^ 36)
  | .dramWrite a _ _ => decide (a < 2 ^ 36)
  | .rowTimeout _ bank => decide (bank < 32)
  | .dmaBurst _ _ host _ => decide (host.length ≤ 576)
  | .busReply _ _ bytes => decide (bytes.length ≤ 64)
  | .padcOutput x => signedIn x.xr 24
  | .hadcConversionDone rw => decide (rw < 2 ^ 14)
  | .sdoRequest _ data => decide (data.length = 8)
  | .rpdoReceive _ _ data => decide (data.length ≤ 64)
  | .canRxFrame _ f => decide (f.data.length ≤ (if f.fd then 64 else 8)) && (f.ext || decide (f.id.toNat < 2 ^ 11))
  | .bootFailure why => decide (1 ≤ why.toNat) && decide (why.toNat ≤ 4)
  | .headokFall .. | .headokRise .. | .headokQualified .. | .armWrite .. | .probeCommit .. | .chirpGo ..
  | .chirpDone .. | .subProbeLaunch .. | .lmonEdge .. | .lmonMiss .. | .headTempStale .. | .calGo ..
  | .calSlotStart .. | .schedEnable .. | .followLost .. | .localSecond .. | .alignWaitEnd .. | .shotCapture ..
  | .ocxoCheckStart .. | .ocxoCheckDone .. | .ocxoLoss .. | .sourceSwitchTimeout | .refPllUnlock | .timeStepCommit ..
  | .tdcEdge .. | .tdcComplete .. | .tdcWindowEnd .. | .tdcArmGo .. | .tdcDisarm .. | .tdcRearm ..
  | .tinEdge .. | .tdcLoopsLocked | .tdcUnlock .. | .tdcLate .. | .replicaDone .. | .recordComplete ..
  | .outRpWrite .. | .flushDone .. | .totClear .. | .phaseRecord .. | .unwrapShot .. | .headerRingClear ..
  | .bandSample .. | .bandFrameEnd .. | .dtsFlushRead .. | .fuseShot .. | .fuseFrameEnd .. | .coreCommit ..
  | .coreHalt .. | .coreRun .. | .coreRelease .. | .vendorReload .. | .assignWrite .. | .messageArrive ..
  | .messageBounce .. | .hostSend .. | .hostOutPop .. | .hostBncPop .. | .dspDomainGated .. | .nop ..
  | .mov .. | .add .. | .adds .. | .sub .. | .subs .. | .cmp ..
  | .neg .. | .abs .. | .min .. | .max .. | .and .. | .or ..
  | .xor .. | .andn .. | .mull .. | .divr .. | .lnq .. | .mrs ..
  | .msr .. | .cadd .. | .csub .. | .cneg .. | .conj .. | .cswp ..
  | .cmul .. | .cmac .. | .extc .. | .extr .. | .exti .. | .lda ..
  | .aclr .. | .amov .. | .bfly .. | .stgend .. | .ang .. | .mag ..
  | .cis .. | .rot .. | .unw .. | .asr .. | .lsr .. | .rne ..
  | .shl .. | .shlw .. | .sat .. | .satu .. | .wrap .. | .casr ..
  | .crne .. | .cshl .. | .bits .. | .ins .. | .cls .. | .moveLd ..
  | .moveSt .. | .moveStd .. | .moveModify .. | .br .. | .call .. | .jmp ..
  | .loop .. | .halt .. | .send .. | .recv .. | .rbnc .. | .dbell ..
  | .lig .. | .lih .. | .lis .. | .zoneEnable .. | .zoneDisable .. | .zoneEvaluate ..
  | .zoneInputTick | .remoteWriteTimeout .. | .remoteWriteAck .. | .remoteRefresh .. | .captureShotCopy .. | .captureDone ..
  | .capFree .. | .evqPop .. | .refreshDue .. | .retryRetire .. | .alertNFall .. | .caReplay ..
  | .trainGo .. | .trainingDone .. | .periodicTrain .. | .freqGo .. | .freqChangeSre .. | .memPllRelock ..
  | .freqChangeDone .. | .freqChangeReturn .. | .idleSelfRefresh .. | .selfRefreshExit .. | .rgnEnable .. | .dmaGo ..
  | .dmaStop .. | .descComplete .. | .bar2Read .. | .bar2Write .. | .exportPop .. | .attnEvent ..
  | .moderationTimeout .. | .msixUnmask .. | .lampFrameStart .. | .lampShiftDone .. | .lampFrameEnd .. | .psync ..
  | .busReplyTimeout .. | .matrixPlane .. | .emergBlankSet .. | .emergBlankClear .. | .thStaleExpire .. | .padcPassStart ..
  | .padcResultConvert .. | .padcOpenDetect | .padcOpenRetryTimeout | .burnoutTest .. | .hadcRegGo .. | .hadcRegTimer
  | .hadcInjGo .. | .hadcInjTrigger .. | .refSettled | .loopTargetUpdate .. | .loopReadback .. | .loopHostTimeout ..
  | .loopMismatch .. | .loopOpen .. | .laneStepStart .. | .laneStepSlotResult .. | .iqAccumDone .. | .quinceTempRead .. | .padcCalStep ..
  | .matchStep .. | .calStore .. | .calGoAll .. | .calGoPadc .. | .calGoMatch .. | .calGoStore ..
  | .laneReq .. | .dictRead .. | .dictWrite .. | .store .. | .restoreDefaults .. | .subscribeAdd ..
  | .subscribeRemove .. | .subscribeClear .. | .subscriptionLeaseExpire .. | .yarfelFrameRx .. | .sessionOpen .. | .sessionConfirm ..
  | .sessionConfirmTimeout .. | .sessionIdleTimeout .. | .broadcastWrite .. | .localGo .. | .ptpMessageRx .. | .ptpAnnounceInterval ..
  | .ptpAnnounceTimeout .. | .ptpSyncInterval .. | .nmtStart .. | .nmtStop .. | .nmtPreOperational .. | .nmtResetCommunication ..
  | .heartbeatProduce .. | .heartbeatLoss .. | .tpdoTransmit .. | .tpdoEventTimer .. | .canBusOff .. | .canBusOffRecovery ..
  | .ethernetFrameRx .. | .linkLoss .. | .por | .resetN .. | .brownout .. | .glitch ..
  | .softCold .. | .softWarm .. | .retry .. | .minimal .. | .watchdog .. | .dieHot ..
  | .supplyWarn | .perstN | .bootAttempt .. | .dramFillDone | .bootDone | .pwrCtrlWrite ..
  | .domainPowered .. | .domainReadyToGate .. | .domainFail .. | .cclkSelChange .. | .imageWrite .. | .nvmOperationDone ..
  | .lifeGo .. | .alertNRise .. | .configurationSpaceWrite .. | .vrefxRangeChange .. | .loopMismatchClear .. | .loopOpenClear ..
  | .delayReqInterval .. | .heartbeatReceive .. | .canErrstateChange .. | .linkUp .. | .dieHotRelease | .dieHotWarning
  | .corePllRelock | .refPllRelock | .boReqInterval | .excitationComplianceHeld => true

end Sys2Proof
end

