-- ==== Sys2Proof/Safety.lean ====
section
/-!
DEFINITION. What claims about the block call well kept and safe: memories in canonical form, and the laser interlock.
-/
namespace Sys2Proof.Machine

/-- Every addressed memory of the block is in canonical form (DESIGN CHOICE, log entry 6): registers, 72-bit registers, probe memory, DRAM, cluster
SRAM, core memories, the zone, descriptor and group tables, the MSI-X table and the lamp output status. -/
def State.memoryWf (s : State) : Bool :=
  s.regs.wf resetOf && s.wide.wf (fun _ => 0) && s.probe.wf (fun _ => 0) && s.dram.wf (fun _ => 0) && s.sram.wf (fun _ => 0) &&
    s.cmem.wf (fun _ => 0) && s.imem.wf (fun _ => 0) && s.zones.wf (fun _ => 0) && s.descs.wf (fun _ => 0) &&
    s.groups.wf (fun _ => 0) && s.msix.wf msixDefault && s.lampOuts.wf (fun _ => 0)

/-- A head whose LASEN is low opens no gate and plays no sub-probe (R51, R66, R70). -/
def State.laserSafe (s : State) (h : Nat) : Bool := s.lasen h || (!(s.head h).playing && decide ((s.head h).gates = 0))

/-- Every GATE output of head h is low. -/
def State.gatesLow (s : State) (h : Nat) : Bool := decide ((s.head h).gates = 0)

/-! ## The Soric cores -/

/-- Core c issues instruction i: it runs a user role, does not wait for the core PLL, and the checks of R248 find no fault. -/
def State.canIssue (s : State) (c : Nat) (i : Soric) : Bool :=
  decide ((s.core c).mode = .running) && !(s.core c).vendor && !s.stalled && (s.issueFault c i).isNone

/-- The register files of a core have their sizes (R203 to R207). -/
def CoreSt.sized (x : CoreSt) : Bool :=
  decide (x.g.length = 16) && decide (x.acc.length = 4) && decide (x.p.length = 8) && decide (x.m.length = 8) &&
    decide (x.l.length = 8) && decide (x.b.length = 8) && decide (x.lc.length = 2)

/-- G[r] of core c. -/
def State.greg (s : State) (c : Nat) (r : BitVec 4) : W72 := (s.core c).g.getD r.toNat 0

/-- Operand b of a form R instruction of core c: the C word its pointer names, or G[SB] (R230). -/
def State.operandB (s : State) (c : Nat) (f : FormR) : W72 :=
  if f.cs then s.cmem.get 0 (cmemKey c 2 ((s.core c).p.getD f.cp.toNat 0).toNat) else s.greg c f.sb

/-- Flag i of core c: 3 Z, 2 N, 1 V, 0 C (R205). -/
def State.flag (s : State) (c i : Nat) : Bool := (s.core c).sstat.getLsbD i

/-- From s to t core c took r in G[d] and the flags Z, N, V and C given, none leaving a flag as it was (R242). -/
def State.tookResult (s t : State) (c : Nat) (d : BitVec 4) (r : W72) (z n v k : Option Bool) : Prop :=
  t.greg c d = r ∧ t.flag c 3 = z.getD (s.flag c 3) ∧ t.flag c 2 = n.getD (s.flag c 2) ∧ t.flag c 1 = v.getD (s.flag c 1) ∧
    t.flag c 0 = k.getD (s.flag c 0)

/-- From s to t core c took r in G[d], Z and N of r, and left V and C (R242). -/
def State.tookZN (s t : State) (c : Nat) (d : BitVec 4) (r : W72) : Prop :=
  s.tookResult t c d r (some (decide (r = 0))) (some r.msb) none none

/-- From s to t core c took r in G[d], Z and N of r, the V given, and left C (R242). -/
def State.tookZNV (s t : State) (c : Nat) (d : BitVec 4) (r : W72) (v : Bool) : Prop :=
  s.tookResult t c d r (some (decide (r = 0))) (some r.msb) (some v) none

/-- From s to t core c took the complex value of parts i and q, saturated to 36 bits, in G[d]; V says that a part changed (R233). -/
def State.tookComplex (s t : State) (c : Nat) (d : BitVec 4) (i q : Int) : Prop :=
  s.tookResult t c d (cqw (sat i 36) (sat q 36)) none none (some (decide (sat i 36 ≠ i ∨ sat q 36 ≠ q))) none

/-- Accumulator n of core c. -/
def State.accum (s : State) (c : Nat) (n : BitVec 2) : Int × Int := (s.core c).acc.getD n.toNat (0, 0)

/-- The core and the instruction of a command that is an instruction of a core; none for any other command (R226 to R247). -/
def coreWord : Instr → Option (Core × Soric)
  | .nop c f x y => some (c, .par (.reg 0x00 f) x y)
  | .mov c f x y => some (c, .par (.reg 0x01 f) x y)
  | .add c f x y => some (c, .par (.reg 0x02 f) x y)
  | .adds c f x y => some (c, .par (.reg 0x03 f) x y)
  | .sub c f x y => some (c, .par (.reg 0x04 f) x y)
  | .subs c f x y => some (c, .par (.reg 0x05 f) x y)
  | .cmp c f x y => some (c, .par (.reg 0x06 f) x y)
  | .neg c f x y => some (c, .par (.reg 0x07 f) x y)
  | .abs c f x y => some (c, .par (.reg 0x08 f) x y)
  | .min c f x y => some (c, .par (.reg 0x09 f) x y)
  | .max c f x y => some (c, .par (.reg 0x0A f) x y)
  | .and c f x y => some (c, .par (.reg 0x0B f) x y)
  | .or c f x y => some (c, .par (.reg 0x0C f) x y)
  | .xor c f x y => some (c, .par (.reg 0x0D f) x y)
  | .andn c f x y => some (c, .par (.reg 0x0E f) x y)
  | .mull c f x y => some (c, .par (.reg 0x0F f) x y)
  | .divr c f x y => some (c, .par (.reg 0x10 f) x y)
  | .lnq c f x y => some (c, .par (.reg 0x11 f) x y)
  | .mrs c f x y => some (c, .par (.con 0x12 f) x y)
  | .msr c f x y => some (c, .par (.con 0x13 f) x y)
  | .cadd c f x y => some (c, .par (.reg 0x14 f) x y)
  | .csub c f x y => some (c, .par (.reg 0x15 f) x y)
  | .cneg c f x y => some (c, .par (.reg 0x16 f) x y)
  | .conj c f x y => some (c, .par (.reg 0x17 f) x y)
  | .cswp c f x y => some (c, .par (.reg 0x18 f) x y)
  | .cmul c f x y => some (c, .par (.reg 0x20 f) x y)
  | .cmac c f x y => some (c, .par (.reg 0x21 f) x y)
  | .extc c f x y => some (c, .par (.con 0x22 f) x y)
  | .extr c f x y => some (c, .par (.con 0x23 f) x y)
  | .exti c f x y => some (c, .par (.con 0x24 f) x y)
  | .lda c f x y => some (c, .par (.con 0x25 f) x y)
  | .aclr c f x y => some (c, .par (.reg 0x26 f) x y)
  | .amov c f x y => some (c, .par (.reg 0x27 f) x y)
  | .bfly c f x y => some (c, .par (.reg 0x30 f) x y)
  | .stgend c f x y => some (c, .par (.reg 0x31 f) x y)
  | .ang c f x y => some (c, .par (.reg 0x38 f) x y)
  | .mag c f x y => some (c, .par (.reg 0x39 f) x y)
  | .cis c f x y => some (c, .par (.reg 0x3A f) x y)
  | .rot c f x y => some (c, .par (.reg 0x3B f) x y)
  | .unw c f x y => some (c, .par (.reg 0x3C f) x y)
  | .asr c f x y => some (c, .par (.con 0x40 f) x y)
  | .lsr c f x y => some (c, .par (.con 0x41 f) x y)
  | .rne c f x y => some (c, .par (.con 0x42 f) x y)
  | .shl c f x y => some (c, .par (.con 0x43 f) x y)
  | .shlw c f x y => some (c, .par (.con 0x44 f) x y)
  | .sat c f x y => some (c, .par (.con 0x45 f) x y)
  | .satu c f x y => some (c, .par (.con 0x46 f) x y)
  | .wrap c f x y => some (c, .par (.con 0x47 f) x y)
  | .casr c f x y => some (c, .par (.con 0x48 f) x y)
  | .crne c f x y => some (c, .par (.con 0x49 f) x y)
  | .cshl c f x y => some (c, .par (.con 0x4A f) x y)
  | .bits c f x y => some (c, .par (.fld 0x4B f) x y)
  | .ins c f x y => some (c, .par (.fld 0x4C f) x y)
  | .cls c f x y => some (c, .par (.reg 0x4D f) x y)
  | .moveLd c ySlot space ptr pm greg => some (c, oneMove ySlot ⟨1, space, ptr, pm, greg⟩)
  | .moveSt c ySlot space ptr pm greg => some (c, oneMove ySlot ⟨2, space, ptr, pm, greg⟩)
  | .moveStd c ySlot space ptr pm greg => some (c, oneMove ySlot ⟨3, space, ptr, pm, greg⟩)
  | .moveModify c ySlot ptr => some (c, oneMove ySlot ⟨4, 0, ptr, true, 0⟩)
  | .br c cond target popn => some (c, .br cond target popn)
  | .call c d target => some (c, .call d target)
  | .jmp c cond a popn => some (c, .jmp cond a popn)
  | .loop c rc a count fin => some (c, .loop rc a count fin)
  | .halt c => some (c, .halt)
  | .send c reg => some (c, .send reg)
  | .recv c reg wait => some (c, .recv reg wait)
  | .rbnc c reg wait => some (c, .rbnc reg wait)
  | .dbell c => some (c, .dbell)
  | .lig c reg imm => some (c, .lig reg imm)
  | .lih c reg imm => some (c, .lih reg imm)
  | .lis c sr imm => some (c, .lis sr imm)
  | _ => none

end Sys2Proof.Machine
end

