-- ==== Sys2Proof/Certificates/Slice0/Obligations.lean ====
section
/-!
DEFINITION. The statements for the provers, one def of type Prop each.
-/
open Sys2Proof Sys2Proof.Machine

/-- A step runs the command at the front of the queue, and an empty queue ticks. Rests on INDEX: this hardware is modelled as a
block. -/
def Obligations.StepRunsFrontCommand : Prop :=
  (∀ (s : State) (c : Instr) (rest : List Instr), s.pending = c :: rest → step s = exec c { s with pending := rest }) ∧
  (∀ s : State, s.pending = [] → step s = .next s.tick)

/-- Every command in every state answers a next state: no fault and no refusal. Rests on INDEX: the commands of this hardware. -/
def Obligations.EveryCommandAnswersNextState : Prop :=
  ∀ (c : Instr) (s : State), ∃ t, exec c s = .next t

/-- An unmapped read returns 0, an unmapped write is ignored, and both are recorded with cause UNMAPPED. Rests on R31, R32, R41,
R465. Its conclusion is that exec answers a next state for unmappedAccess. -/
def Obligations.UnmappedAccessRecorded : Prop :=
  (∀ (s : State) (q : Req) (a : Addr) (d : W32) (base off : Nat), s.shut = false → s.target (wordAddr a) = .unmapped base off →
    exec (.unmappedAccess q a ⟨0xF, some d⟩) s = .next (s.err base .unmapped off q)) ∧
  (∀ (s : State) (q : Req) (a : Addr) (be : BitVec 4) (base off : Nat), s.shut = false → s.target (wordAddr a) = .unmapped base off →
    exec (.unmappedAccess q a ⟨be, none⟩) s = .next ((s.err base .unmapped off q).answer q 0)) ∧
  (∀ (s : State) (n : Nat),
    (0x140000 ≤ n ∧ n < 0x200000 ∨ 0x820000 ≤ n ∧ n < 0xF00000 ∨ 0xF00280 ≤ n ∧ n < 0x1000000) →
    s.target n = .unmapped 0 (n % 0x10000))

/-- A write of a register's RW field in each view, byte enables, a 64-bit access and the refusal while its engine runs. Rests on
R32, R33, R35, R36, R37, R57. The model's choices are WIDTH for every requester (log entry 52) and WIDTH before BUSY (log entry
24). Its conclusion is that exec answers a next state for registerWrite, setAliasWrite, clrAliasWrite, tglAliasWrite. -/
def Obligations.ChirpStartFrequencyWrites : Prop :=
  (∀ (s : State) (q : Req) (h : Head) (v : W32) (a : Addr), s.shut = false → a.toNat = Reg.headChirpF0 h →
    s.rbit (Reg.headStatus h) 5 = false →
    exec (.registerWrite q a 0xF v none) s = .next (s.setReg (Reg.headChirpF0 h) v) ∧
    exec (.setAliasWrite q a v) s = .next (s.setReg (Reg.headChirpF0 h) (s.reg (Reg.headChirpF0 h) ||| v)) ∧
    exec (.clrAliasWrite q a v) s = .next (s.setReg (Reg.headChirpF0 h) (s.reg (Reg.headChirpF0 h) &&& ~~~v)) ∧
    exec (.tglAliasWrite q a v) s = .next (s.setReg (Reg.headChirpF0 h) (s.reg (Reg.headChirpF0 h) ^^^ v)) ∧
    ∀ u : W32, exec (.registerWrite q a 0xF v (some (0xF, u))) s =
      .next ((s.setReg (Reg.headChirpF0 h) v).setReg (Reg.headChirpRate h) u)) ∧
  (∀ (s : State) (q : Req) (h : Head) (v : W32) (a : Addr), s.shut = false → a.toNat = Reg.headChirpF0 h →
    s.rbit (Reg.headStatus h) 5 = true →
    exec (.registerWrite q a 0xF v none) s = .next (s.err (headBase h) .busy 0x40 q)) ∧
  (∀ (s : State) (q : Req) (h : Head) (v : W32) (a : Addr) (be : BitVec 4), s.shut = false →
    a.toNat = Reg.headChirpF0 h → be ≠ 0xF →
    exec (.registerWrite q a be v none) s = .next (s.err (headBase h) .width 0x40 q))

/-- A read clears RC bits it returns as 1, a matching ACK_SEQ clears fault bits, and setting fault bits advances SEQ once. Rests on
R37, R39, R40, R41, R323. Its conclusion is that exec answers a next state for clearingRead, ackWrite. -/
def Obligations.ReadClearAcknowledgeAndFaultBits : Prop :=
  (
  (∀ (s : State) (q : Req) (a : Addr) (be : BitVec 4) (b : Blk) (i off : Nat) (r : RegRow), s.shut = false →
    s.target (wordAddr a) = .reg b i off r .normal → r.kind ≠ .ack → r.rc ≠ 0 → b ≠ .dma →
    exec (.clearingRead q ⟨a, be⟩) s = .next ((s.setReg (b.at i + off)
      (s.reg (b.at i + off) &&& ~~~(s.readReg b i off &&& BitVec.ofNat 32 r.rc))).answer q (s.readReg b i off &&& byteMask be))) ∧
  (∀ (s : State) (q : Req) (a : Addr) (be : BitVec 4) (b : Blk) (i off : Nat) (r : RegRow) (w : View), s.shut = false →
    s.target (wordAddr a) = .reg b i off r w → w ≠ .normal → r.kind ≠ .ack → b ≠ .dma →
    exec (.clearingRead q ⟨a, be⟩) s = .next (s.answer q (s.readReg b i off &&& byteMask be))) ∧
  (∀ v : W32, v &&& byteMask 0xF = v) ∧
  (∀ (s : State) (q : Req) (a : Addr) (v : W32) (b : Blk) (i off : Nat) (r : RegRow), s.shut = false →
    s.target (wordAddr a) = .reg b i off r .normal → r.kind = .ack → field v 7 0 = s.fld (b.at i + off - 4) 31 24 →
    exec (.ackWrite q a v) s = .next (s.setReg (b.at i + off - 4) (s.reg (b.at i + off - 4) &&& 0xFF000000))) ∧
  (∀ (s : State) (q : Req) (a : Addr) (v : W32) (b : Blk) (i off : Nat) (r : RegRow), s.shut = false →
    s.target (wordAddr a) = .reg b i off r .normal → r.kind = .ack → field v 7 0 ≠ s.fld (b.at i + off - 4) 31 24 →
    exec (.ackWrite q a v) s = .next s)) ∧
  (
  (∀ (s : State) (a : Nat) (m : Nat), a ≠ Reg.canFault → BitVec.ofNat 32 (m % 2 ^ 24) &&& ~~~s.reg a ≠ 0 →
    s.fault a m = (s.setReg a (BitVec.ofNat 32 ((s.fld a 31 24 + 1) % 256 * 2 ^ 24) |||
      ((s.reg a ||| BitVec.ofNat 32 (m % 2 ^ 24)) &&& 0xFFFFFF))).event 224) ∧
  (∀ (s : State) (a : Nat) (m : Nat), BitVec.ofNat 32 (m % 2 ^ 24) &&& ~~~s.reg a = 0 → s.fault a m = s) ∧
  (∀ (s : State) (base off : Nat) (c : Cause) (q : Req), s.fld (base + 0x3FF0) 23 0 = 0 →
    s.err base c off q = (s.setReg (base + 0x3FF8)
      (BitVec.ofNat 32 (Req.code q * 2 ^ 16 + off % 2 ^ 16))).fault (base + 0x3FF0) (2 ^ c.bit)) ∧
  (∀ (s : State) (base off : Nat) (c : Cause) (q : Req), s.fld (base + 0x3FF0) 23 0 ≠ 0 →
    s.err base c off q = s.fault (base + 0x3FF0) (2 ^ c.bit)))

/-- A read of LO takes the requester's snapshot; LO and MID are staged and HI commits all three or is refused with cause STAGE.
Rests on R46, R47, R48. Its conclusion is that exec answers a next state for loRead, stageWrite, hiCommit. -/
def Obligations.WideValueSnapshotAndStaging : Prop :=
  (∀ (s : State) (q : Req) (a : Addr) (b : Blk) (i lo : Nat) (rw : Bool), s.shut = false →
    s.target (wordAddr a) = .wide b i lo 0 rw .normal →
    exec (.loRead q ⟨a, 0xF⟩) s = .next ((s.setReq q { s.req q with snap := (s.readWide b i lo).extractLsb' 32 40 }).answer q
      ((s.readWide b i lo).extractLsb' 0 32))) ∧
  (∀ (s : State) (q : Req) (a : Addr) (b : Blk) (i lo : Nat) (rw : Bool), s.shut = false →
    s.target (wordAddr a) = .wide b i lo 1 rw .normal →
    exec (.loRead q ⟨a, 0xF⟩) s = .next (s.answer q ((s.req q).snap.extractLsb' 0 32))) ∧
  (∀ (s : State) (q : Req) (a : Addr) (v : W32) (b : Blk) (i lo : Nat), s.shut = false →
    s.target (wordAddr a) = .wide b i lo 0 true .normal →
    exec (.stageWrite q a v) s = .next (s.setReq q { s.req q with lo := some (b.at i + lo, v) })) ∧
  (∀ (s : State) (q : Req) (a : Addr) (v : W32) (b : Blk) (i lo : Nat), s.shut = false →
    s.target (wordAddr a) = .wide b i lo 1 true .normal →
    exec (.stageWrite q a v) s = .next (s.setReq q { s.req q with mid := some (b.at i + lo, v) })) ∧
  (∀ (s : State) (q : Req) (a : Addr) (v l m : W32) (cl : Clus) (k : Fin 4), s.shut = false →
    s.target (wordAddr a) = .wide .cl cl (0x20 + 12 * k) 2 true .normal →
    (s.req q).lo = some (Reg.clHostMsg cl k, l) → (s.req q).mid = some (Reg.clHostMsg cl k, m) →
    exec (.hiCommit q a v) s = .next ((s.setReq q { s.req q with lo := none, mid := none }).setWreg (Reg.clHostMsg cl k)
      (v.extractLsb' 0 8 ++ m ++ l))) ∧
  (∀ (s : State) (q : Req) (a : Addr) (v : W32) (b : Blk) (i lo : Nat), s.shut = false →
    s.target (wordAddr a) = .wide b i lo 2 true .normal →
    ((s.req q).lo.map Prod.fst ≠ some (b.at i + lo) ∨ (s.req q).mid.map Prod.fst ≠ some (b.at i + lo)) →
    exec (.hiCommit q a v) s =
      .next ((s.setReq q { s.req q with lo := none, mid := none }).err (b.at i) .stage (lo + 8) q)) ∧
  (∀ (s : State) (q : Req) (a : Addr) (v : W32) (b : Blk) (i lo w : Nat) (rw : Bool) (view : View), s.shut = false →
    s.target (wordAddr a) = .wide b i lo w rw view → view ≠ .normal →
    exec (.stageWrite q a v) s = .next s ∧ exec (.hiCommit q a v) s = .next s)

/-- The bit-alias window writes one bit of a privileged register; other bits and normal addresses are refused with cause PRIV. Rests
on R44, R45. Its conclusion is that exec answers a next state for bitAliasWrite, registerWrite. -/
def Obligations.PrivilegedWindowWrites : Prop :=
  (∀ (s : State) (q : Req) (b : Fin 3) (v : W32) (a : Addr), s.shut = false → a.toNat = 0xF00000 + 4 * (32 * 3 + b) →
    exec (.bitAliasWrite q a v) s = .next (s.setRbit Reg.nvmWriteCtrl b (v.getLsbD 0))) ∧
  (∀ (s : State) (q : Req) (b : Nat) (v : W32) (a : Addr), s.shut = false → a.toNat = 0xF00000 + 4 * (32 * 3 + b) →
    3 ≤ b → b < 32 → exec (.bitAliasWrite q a v) s = .next (s.err 0 .priv (4 * (32 * 3 + b)) q)) ∧
  (∀ (s : State) (q : Req) (v : W32) (a : Addr), s.shut = false → a.toNat = Reg.nvmWriteCtrl →
    exec (.registerWrite q a 0xF v none) s = .next (s.err 0x20000 .priv 4 q))

/-- HEADOK rises when qualified, its fall darkens and trips the head, ARM 0 clears TRIP only under HEADOK; a head temperature sets
DUTY and the suspension. Rests on R67, R68, R69, R70, R71, R73, R467. Its conclusion is that exec answers a next state for
headokRise, headokQualified, armWrite, headTempReading, headTempStale, lmonEdge, lmonMiss, headokFall. -/
def Obligations.HeadokArmTemperatureAndSupervisor : Prop :=
  (
  (
  (∀ (s : State) (h : Head), exec (.headokRise h) s = .next (s.setHead h { s.head h with headok := true, qualifying := true })) ∧
  (∀ (s : State) (h : Head), (s.head h).headok = true → (s.head h).qualifying = true →
    exec (.headokQualified h) s =
      .next ((s.setHead h { s.head h with qualifying := false }).setRbit Reg.sysOptInterlock (8 + h) true)) ∧
  (∀ (s : State) (q : Req) (h : Head) (v : Bool), s.shut = false → ∃ t, exec (.armWrite q h v) s = .next t ∧
    t.rbit Reg.sysOptInterlock h = v ∧
    t.rbit Reg.sysOptInterlock (16 + h) = (s.rbit Reg.sysOptInterlock (16 + h) && (v || !s.rbit Reg.sysOptInterlock (8 + h))) ∧
    (∀ k : Fin 32, k.val ≠ h → k.val ≠ 16 + h → t.rbit Reg.sysOptInterlock k = s.rbit Reg.sysOptInterlock k) ∧
    (∀ a, a ≠ Reg.sysOptInterlock → t.reg a = s.reg a) ∧ (∀ k, k ≠ h.val → t.head k = s.head k) ∧
    (t.lasen h = false → (t.head h).gates = 0 ∧ (t.head h).playing = false) ∧ (t.lasen h = true → t.heads = s.heads))) ∧
  (
  (∀ (s : State) (h : Head) (x : Int), s.shut = false → s.fldS (Reg.headThermLim h) 31 16 ≤ x →
    ∃ t, exec (.headTempReading h x) s = .next t ∧ (t.head h).suspended = true ∧ t.fld (Reg.headDuty h) 16 0 = 0 ∧
      ((s.head h).suspended = false → t.rbit (Reg.headFault h) 1 = true)) ∧
  (∀ (s : State) (h : Head) (x : Int), s.shut = false → x < s.fldS (Reg.headThermLim h) 31 16 → (s.head h).suspended = false →
    x ≤ s.fldS (Reg.headThermLim h) 15 0 →
    ∃ t, exec (.headTempReading h x) s = .next t ∧ (t.head h).suspended = false ∧ t.fld (Reg.headDuty h) 16 0 = 65536) ∧
  (∀ (s : State) (h : Head), s.rbit (Reg.headHeadTemp h) 16 = true → s.rbit (Reg.headHeadTemp h) 17 = false →
    exec (.headTempStale h) s =
      .next (((((s.setRbit (Reg.headHeadTemp h) 17 true).setFld (Reg.headDuty h) 16 0 0).setRbit (Reg.headStatus h) 4 true).setRbit
        (Reg.headStatus h) 3 false).fault (Reg.headFault h) 4)) ∧
  (∀ (s : State) (ch : Chan) (e ofs : Nat), s.shut = false → (s.head (ch / 8)).lmonOpen.getLsbD (ch % 8) = true →
    exec (.lmonEdge ch e ofs) s = .next ((s.setHead (ch / 8) { s.head (ch / 8) with
      lmonSeen := withBit (s.head (ch / 8)).lmonSeen (ch % 8) true,
      missRun := (s.head (ch / 8)).missRun.set (ch % 8) 0 }).tdcEdge ch false e ofs)) ∧
  (∀ (s : State) (ch : Chan), s.shut = false → (s.head (ch / 8)).lmonOpen.getLsbD (ch % 8) = true →
    (s.head (ch / 8)).lmonSeen.getLsbD (ch % 8) = false →
    ∃ t, exec (.lmonMiss ch) s = .next t ∧
      t.fld (Reg.headMiss (ch / 8) (ch % 8)) 15 0 = min (s.fld (Reg.headMiss (ch / 8) (ch % 8)) 15 0 + 1) 65535 ∧
      ((s.head (ch / 8)).missLimit = (s.head (ch / 8)).missRun.getD (ch % 8) 0 + 1 →
        t.rbit (Reg.headFault (ch / 8)) (8 + ch % 8) = true) ∧
      ((s.head (ch / 8)).missRun.length = 8 → (t.head (ch / 8)).missRun.getD (ch % 8) 0 =
        if 0 < (s.head (ch / 8)).missLimit ∧ (s.head (ch / 8)).missLimit ≤ (s.head (ch / 8)).missRun.getD (ch % 8) 0 + 1 then 0
        else (s.head (ch / 8)).missRun.getD (ch % 8) 0 + 1)))) ∧
  (
  ∀ (s : State) (h : Head) (n : Nat), ∃ t, exec (.headokFall h n) s = .next t ∧
    t.rbit Reg.sysOptInterlock (8 + h) = false ∧ t.lasen h = false ∧
    (t.head h).gates = 0 ∧ (t.head h).playing = false ∧ (t.head h).headok = false ∧
    (s.rbit Reg.sysOptInterlock (8 + h) = true → s.rbit Reg.sysOptInterlock h = true → t.rbit Reg.sysOptInterlock (16 + h) = true) ∧
    ∀ k, k ≠ h.val → t.head k = s.head k)

/-- PROBE_COMMIT takes the whole staged set where it keeps every rule, else none; CHIRP_GO and CHIRP_DONE run the chirp synthesiser.
Rests on R55, R56, R57, R60, R62, R63, R94, R129. Its conclusion is that exec answers a next state for probeCommit, chirpGo,
chirpDone. -/
def Obligations.ProbeSetCommitAndChirpSynthesis : Prop :=
  (
  (∀ (s : State) (h : Head), s.commitOk h = true → s.setOk h (s.period h) (s.staged h) (s.gateEn h) (s.counts h) = true ∧
    ∀ p ∈ s.periods h, gapOk p (s.staged h) (s.gateEn h) (s.counts h) = true) ∧
  (∀ (s : State) (q : Req) (h : Head), s.shut = false → s.commitOk h = true →
    s.laneStep h = none →
    exec (.probeCommit q h) s =
      .next ((s.setHead h { s.head h with pend := some (s.staged h) }).setRbit (Reg.headStatus h) 6 true)) ∧
  (∀ (s : State) (q : Req) (h : Head), s.shut = false → s.commitOk h = false →
    exec (.probeCommit q h) s = .next (s.err (headBase h) .range 0x14 q))) ∧
  (
  (∀ (s : State) (q : Req) (h : Head), s.shut = false → s.rbit (Reg.headStatus h) 5 = false →
    (s.headRunning h = true → (s.head h).act.bank ≠ s.fld (Reg.headChirpCfg h) 20 20) →
    (∀ p, (s.head h).pend = some p → p.bank ≠ s.fld (Reg.headChirpCfg h) 20 20) →
    exec (.chirpGo q h) s = .next (s.setRbit (Reg.headStatus h) 5 true)) ∧
  (∀ (s : State) (q : Req) (h : Head), s.shut = false → (s.rbit (Reg.headStatus h) 5 = true ∨
    s.headRunning h = true ∧ (s.head h).act.bank = s.fld (Reg.headChirpCfg h) 20 20 ∨
    (s.head h).pend.map ProbeSet.bank = some (s.fld (Reg.headChirpCfg h) 20 20)) →
    exec (.chirpGo q h) s = .next (s.err (headBase h) .busy 0x50 q)) ∧
  (∀ (s : State) (h : Head), (s.chirp h).length = s.fld (Reg.headChirpCfg h) 14 0) ∧
  (∀ (s : State) (h : Head), s.rbit (Reg.headStatus h) 5 = true →
    exec (.chirpDone h) s = .next ((State.fillProbe h (s.fld (Reg.headChirpCfg h) 20 20) (s.chirp h) 0 s).setRbit
      (Reg.headStatus h) 5 false)) ∧
  (∀ (s : State) (h bank n : Nat) (i q : Int), -2 ^ 17 ≤ i → i < 2 ^ 17 → -2 ^ 17 ≤ q → q < 2 ^ 17 →
    (s.setProbeSample h bank n i q).probeSample h bank n = (i, q)))

/-- Enabling a scheduler, its boundaries and its last period: the shot index advances by one and the stamp is local time. Rests on
R24, R93, R95, R96. Its conclusion is that exec answers a next state for schedEnable, shotBoundary, shotCapture,
schedLastPeriodEnd. -/
def Obligations.ShotSchedule : Prop :=
  (∀ (s : State) (q : Req) (h : Head), s.shut = false →
    shotCheck s (0x100 * h) (withBit (s.reg (Reg.shotCfg h)) 0 true) = none →
    exec (.schedEnable q h) s = .next (s.setRbit (Reg.shotCfg h) 0 true)) ∧
  (∀ (s : State) (q : Req) (h : Head) (c : Cause), s.shut = false → shotCheck s (0x100 * h) (withBit (s.reg (Reg.shotCfg h)) 0 true) = some c →
    exec (.schedEnable q h) s = .next (s.err 0x50000 c (0x100 * h) q)) ∧
  (∀ (s : State) (h : Head) (raw : PeriodIn), s.rbit (Reg.shotCfg h) 0 = true → (s.sched h).ending = false →
    s.rbit (Reg.shotStatus h) 3 = false →
    ∃ t, exec (.shotBoundary h raw) s = .next t ∧ (t.sched h).index = (s.sched h).index + 1 ∧ (t.sched h).stamp = s.stamp ∧
      (t.sched h).started = true ∧ t.time.now = s.time.now ∧ ∀ k, k ≠ h.val → (t.sched k).index = (s.sched k).index) ∧
  (∀ (s : State) (h : Head) (raw : PeriodIn), s.rbit (Reg.shotCfg h) 0 = false →
    exec (.shotBoundary h raw) s = .next s) ∧
  (∀ (s : State) (q : Req) (h : Head), s.shut = false → exec (.shotCapture q h) s =
    .next ((s.setWreg (Reg.shotCapIdx h) (BitVec.ofNat 72 (s.sched h).index.toNat)).setWreg (Reg.shotCapTs h) (s.sched h).stamp)) ∧
  (∀ (s : State) (h : Head) (raw : List ChCodes), (s.sched h).ending = true →
    ∃ t, exec (.schedLastPeriodEnd h raw) s = .next t ∧ (t.sched h).started = false ∧ (t.sched h).ending = false ∧
      t.fld (Reg.shotStatus h) 3 0 = 0)

/-- Sub-probe launches play the set in force, a lost leader is flagged, and local seconds align the PPS heads. Rests on R58, R59,
R66, R67, R99, R100, R107, R116. Its conclusion is that exec answers a next state for subProbeLaunch, followLost, localSecond,
alignWaitEnd. -/
def Obligations.SubProbesFollowersAndPps : Prop :=
  (∀ (s : State) (h : Head) (k : Fin 8), (s.sched h).launched = true → (s.sched h).started = true → (s.sched h).tripped = false → s.noProbe = false →
    k.val < 2 ^ (s.head h).act.train → k.val ≠ 0 → exec (.subProbeLaunch h k) s = .next (s.play h k)) ∧
  (∀ (s : State) (h : Head), (s.sched h).launched = true → (s.sched h).started = true → (s.sched h).tripped = false → s.noProbe = false →
    exec (.subProbeLaunch h 0) s = .next (forEach (List.range 8) (fun j t =>
      if (t.head h).gateEn.getLsbD j then (t.tdcArm (8 * h + j)).markerEdge h j else t) ((s.play h 0).lmonArm h))) ∧
  (∀ (s : State) (h : Head) (k : Fin 8), (s.sched h).launched = false → exec (.subProbeLaunch h k) s = .next s) ∧
  (∀ (s : State) (h : Head), s.rbit (Reg.shotStatus h) 1 = true → (s.sched h).mode = 1 →
    s.rbit (Reg.shotCfg (s.sched h).src) 0 = false →
    exec (.followLost h) s = .next ((s.setRbit (Reg.shotStatus h) 1 false).fault Reg.shotFault (2 ^ (4 + h.val)))) ∧
  (∀ (s : State) (e0 e1 e2 e3 : Int), s.shut = false → (s.sched 0).mode ≠ 2 → (s.sched 1).mode ≠ 2 → (s.sched 2).mode ≠ 2 → (s.sched 3).mode ≠ 2 →
    (∀ (u : Fin 8) (stop : Bool), s.tdcSrc (32 + u) stop ≠ 8) →
    exec (.localSecond e0 e1 e2 e3) s = .next (s.advance s.toSecond)) ∧
  (∀ (s : State) (e0 e1 e2 e3 : Int), s.shut = false → ∃ t, exec (.localSecond e0 e1 e2 e3) s = .next t ∧ t.time = (s.advance s.toSecond).time ∧
    ∀ h : Head, (s.sched h).mode = 2 → (s.sched h).started = true → s.rbit (Reg.shotStatus h) 3 = false →
      ((s.sched h).alignWin : Int) < (nth [e0, e1, e2, e3] h.val 0).natAbs →
      t.rbit (Reg.shotStatus h) 3 = true ∧ t.rbit (Reg.shotStatus h) 2 = false ∧ t.rbit Reg.shotFault h = true) ∧
  (∀ (s : State) (h : Head), s.rbit (Reg.shotStatus h) 3 = true →
    exec (.alignWaitEnd h) s = .next ((s.setRbit (Reg.shotStatus h) 3 false).setRbit (Reg.shotStatus h) 2 true))

/-- The reference source is checked, switched and lost as ruled, and a step moves local time by its value. Rests on R101, R102,
R103, R104, R108, R121. Its conclusion is that exec answers a next state for ocxoCheckStart, ocxoCheckDone, ocxoLoss,
sourceSwitchTimeout, refPllUnlock, refPllRelock, timeStepCommit. -/
def Obligations.TimeSourcesAndSteps : Prop :=
  (∀ (s : State), s.rbit Reg.timeSrcCtrl 0 = true → s.rbit Reg.timeSrcPolicy 0 = true → s.rbit Reg.timeSrcStatus 0 = false → s.shut = false →
    exec (.ocxoCheckStart true true) s = .next (((s.setRbit Reg.timeSrcStatus 4 true).setRbit Reg.timeSrcStatus 5 true).setRbit
      Reg.timeSrcStatus 1 true)) ∧
  (∀ (s : State) (rdy refin : Bool), (rdy && refin) = false →
    exec (.ocxoCheckStart rdy refin) s = .next ((s.setRbit Reg.timeSrcStatus 4 rdy).setRbit Reg.timeSrcStatus 5 refin)) ∧
  (∀ (s : State) (n : Nat), s.rbit Reg.timeSrcStatus 1 = true → 2000 < (((n : Int) - 20000000) * 50).natAbs →
    exec (.ocxoCheckDone n) s = .next (((s.setReg Reg.timeFcheck (BitVec.ofInt 32 (((n : Int) - 20000000) * 50))).setRbit
      Reg.timeSrcStatus 1 false).fault Reg.timeFault 4)) ∧
  (∀ (s : State) (n : Nat), s.rbit Reg.timeSrcStatus 1 = true → (((n : Int) - 20000000) * 50).natAbs ≤ 2000 → s.lowestOn = none →
    ∃ t, exec (.ocxoCheckDone n) s = .next t ∧ t.rbit Reg.timeSrcStatus 0 = true ∧ t.rbit Reg.timeSrcStatus 1 = false ∧
      t.rbit Reg.timeFault 0 = true ∧ t.time.switchTo = none) ∧
  (∀ (s : State) (refin : Bool), s.shut = false → s.rbit Reg.timeSrcStatus 0 = false → s.time.switchTo = none →
    exec (.ocxoLoss false refin) s = .next (((s.setRbit Reg.timeSrcStatus 4 false).setRbit Reg.timeSrcStatus 5 refin).setRbit
      Reg.timeSrcStatus 1 false)) ∧
  (∀ (s : State) (rdy refin : Bool), s.shut = false → (rdy && refin) = false → s.rbit Reg.timeSrcStatus 0 = true → s.rbit Reg.timeSrcStatus 2 = false →
    ∃ t, exec (.ocxoLoss rdy refin) s = .next t ∧ t.rbit Reg.timeFault 1 = true ∧
      (s.lowestOn = none → t.rbit Reg.timeSrcStatus 0 = false) ∧
      (s.lowestOn ≠ none → t.rbit Reg.timeSrcStatus 2 = true ∧ t.time.switchTo = some false)) ∧
  (∀ (s : State), s.rbit Reg.timeSrcStatus 2 = true → s.time.switchTo = some false →
    ∃ t, exec .sourceSwitchTimeout s = .next t ∧ t.rbit Reg.timeSrcStatus 0 = false ∧ t.rbit Reg.timeSrcStatus 2 = false ∧
      t.rbit Reg.timeFault 0 = true) ∧
  (∀ (s : State), s.shut = false → s.rbit Reg.timeSrcStatus 3 = true →
    exec .refPllUnlock s = .next ((s.setRbit Reg.timeSrcStatus 3 false).fault Reg.timeFault 8)) ∧
  (∀ (s : State), s.shut = false → exec .refPllRelock s = .next (s.setRbit Reg.timeSrcStatus 3 true)) ∧
  (∀ (s : State) (q : Req) (v l m : W32), s.shut = false → (s.req q).lo = some (Reg.timeStep, l) →
    (s.req q).mid = some (Reg.timeStep, m) → s.rbit Reg.timeSrcPolicy 2 = true → s.lowestOn = none →
    (∀ h : Fin 4, (s.sched h).mode ≠ 2) →
    ∃ t, exec (.timeStepCommit q v) s = .next t ∧
      t.time.now = (((s.time.now : Int) + (v.extractLsb' 0 8 ++ m ++ l).toInt * 2 ^ 22) % timeMod).toNat) ∧
  (∀ (s : State) (q : Req) (v l m : W32), s.shut = false → (s.req q).lo = some (Reg.timeStep, l) →
    (s.req q).mid = some (Reg.timeStep, m) → s.rbit Reg.timeSrcPolicy 2 = false →
    exec (.timeStepCommit q v) s = .next ((s.setReq q { s.req q with lo := none, mid := none }).err 0x30000 .range 0x38 q))

/-- Time-interval units take first edges while armed, complete into RESULT, TSTART and RSTAT, and arm, hold and unlock as ruled.
Rests on R110, R111, R112, R113, R114, R115, R116, R117, R118, R119, R126. The model's choices: an edge, completion or re-arm
whose condition is off changes nothing (log entry 2); the general unit's TAG counts its results (log entry 83). Its conclusion
is that exec answers a next state for tdcEdge, tdcComplete, tdcWindowEnd, tdcArmGo, tdcDisarm, tdcRearm, tdcLoopsLocked,
tdcUnlock, tinEdge. -/
def Obligations.TimeIntervalUnits : Prop :=
  (∀ (s : State) (u : Unit40) (stop : Bool) (e ofs : Nat), (s.tdc u).armed = false → exec (.tdcEdge u stop e ofs) s = .next s) ∧
  (∀ (s : State) (u : Unit40) (e ofs : Nat), u.val < 32 ∨ s.fld (tdcCfgAt u) 7 4 < 8 →
    (s.tdc u).armed = true → (s.tdc u).start = none → exec (.tdcEdge u false e ofs) s =
      .next (s.setTdc u { s.tdc u with start := some (e % (160 * 2 ^ 40)), startAt := tstart s.time.now ofs })) ∧
  (∀ (s : State) (u : Unit40) (e ofs : Nat), 32 ≤ u.val → s.fld (tdcCfgAt u) 11 8 < 8 →
    (s.tdc u).armed = true → (s.tdc u).stop = none → exec (.tdcEdge u true e ofs) s = .next (s.setTdc u { s.tdc u with stop := some (e % (160 * 2 ^ 40)) })) ∧
  (∀ (s : State) (u : Unit40) (a b : Nat), (s.tdc u).armed = true → (s.tdc u).start = some a → (s.tdc u).stop = some b →
    let d := ((b : Int) - a) % (160 * 2 ^ 40)
    let iv := (if 80 * 2 ^ 40 ≤ d then d - 160 * 2 ^ 40 else d) - s.fldS (Reg.tdcTrim u) 15 0 - s.fldS (Reg.tdcOfsAdj u) 15 0
    ∃ t, exec (.tdcComplete u) s = .next t ∧ (t.tdc u).armed = false ∧ t.wreg (Reg.tdcTstart u) = (s.tdc u).startAt ∧
      t.rbit (Reg.tdcRstat u) 0 = true ∧ t.rbit (Reg.tdcRstat u) 1 = (s.rbit (Reg.tdcRstat u) 0 || s.rbit (Reg.tdcRstat u) 1) ∧
      t.reg (Reg.tdcToutCnt u) = s.reg (Reg.tdcToutCnt u) ∧
      (t.wreg (Reg.tdcResult u)).extractLsb' 0 48 = BitVec.ofInt 48 iv ∧
      (t.wreg (Reg.tdcResult u)).extractLsb' 48 2 = BitVec.ofNat 2 (s.tdc u).extra ∧
      (t.wreg (Reg.tdcResult u)).getLsbD 50 = true ∧ (t.wreg (Reg.tdcResult u)).getLsbD 51 = true ∧
      (t.wreg (Reg.tdcResult u)).getLsbD 52 = decide (-1 ≤ iv ∧ iv ≤ 1) ∧
      (t.wreg (Reg.tdcResult u)).getLsbD 53 = (decide (iv < -1) && s.rbit (tdcCfgAt u) 0) ∧
      (t.wreg (Reg.tdcResult u)).getLsbD 54 = false ∧ (t.wreg (Reg.tdcResult u)).getLsbD 55 = (s.tdc u).unlocked ∧
      (t.wreg (Reg.tdcResult u)).extractLsb' 56 16 =
        (if u.val < 32 then (s.tdc u).shot.extractLsb' 0 16 else (s.tdc u).count) ∧
      (∀ k, k ≠ u.val → t.tdc k = s.tdc k) ∧
      ∀ r : RecSt, u.val < 32 →
        (s.ce u).recs.find? (fun x => !x.skipped && x.q.isNone && decide (x.index = (s.tdc u).shot)) = some r →
        ∃ r', r' ∈ (t.ce u).recs ∧ r'.index = r.index ∧ r'.hold = (s.tdc u).unlocked ∧ r'.extra = (s.tdc u).extra ∧
          r'.q = some (if (s.tdc u).unlocked = true then s.heldQ u r.alignOfs
            else ((r.mark * 2000 - iv + r.alignOfs) * 32 + 125) / 250)) ∧
  (∀ (s : State) (u : Unit40), (s.tdc u).armed = true → (s.tdc u).start = none ∨ (s.tdc u).stop = none →
    ∃ t, exec (.tdcWindowEnd u) s = .next t ∧ (t.tdc u).armed = false ∧ t.reg (Reg.tdcToutCnt u) = s.reg (Reg.tdcToutCnt u) + 1 ∧
      t.wreg (Reg.tdcTstart u) = (s.tdc u).startAt ∧ t.rbit (Reg.tdcRstat u) 0 = true ∧
      t.rbit (Reg.tdcRstat u) 1 = (s.rbit (Reg.tdcRstat u) 0 || s.rbit (Reg.tdcRstat u) 1) ∧
      (t.wreg (Reg.tdcResult u)).extractLsb' 0 48 = 0 ∧ (t.wreg (Reg.tdcResult u)).getLsbD 54 = true ∧
      (t.wreg (Reg.tdcResult u)).getLsbD 52 = false ∧ (t.wreg (Reg.tdcResult u)).getLsbD 53 = false ∧
      (t.wreg (Reg.tdcResult u)).getLsbD 51 = (s.tdc u).start.isSome ∧ (t.wreg (Reg.tdcResult u)).getLsbD 50 = (s.tdc u).stop.isSome ∧
      (t.wreg (Reg.tdcResult u)).getLsbD 55 = (s.tdc u).unlocked) ∧
  (∀ (s : State) (u : Unit40), (s.tdc u).armed = false → exec (.tdcComplete u) s = .next s ∧ exec (.tdcWindowEnd u) s = .next s) ∧
  (∀ (s : State) (q : Req) (u : Unit40), s.shut = false → 32 ≤ u.val → (s.tdc u).armed = true →
    exec (.tdcArmGo q u) s = .next (s.err 0x40000 .busy (0x10C + 0x40 * u) q)) ∧
  (∀ (s : State) (q : Req) (u : Unit40), s.shut = false → 32 ≤ u.val → (s.tdc u).armed = false → (s.tdc u).hold = false →
    s.armMode u = 0 →
    exec (.tdcArmGo q u) s = .next (s.setTdc u { s.tdc u with
      armed := true, start := none, startAt := 0, stop := none, extra := 0, holdAfter := false, shot := 0
      unlocked := !(s.rbit Reg.tdcStatus 0 && s.rbit Reg.tdcStatus 1) })) ∧
  (∀ (s : State) (q : Req) (u : Unit40), s.shut = false → 32 ≤ u.val → (s.tdc u).armed = false → (s.tdc u).hold = false →
    exec (.tdcDisarm q u) s = .next (s.setTdc u { s.tdc u with hold := true })) ∧
  (∀ (s : State) (u : Unit40), 32 ≤ u.val → s.armMode u = 1 → (s.tdc u).armed = false → (s.tdc u).hold = false →
    ∃ t, exec (.tdcRearm u) s = .next t ∧ (t.tdc u).armed = true ∧ (t.tdc u).start = none ∧ (t.tdc u).stop = none ∧
      (t.tdc u).extra = 0 ∧ ∀ k, k ≠ u.val → t.tdc k = s.tdc k) ∧
  (∀ (s : State) (u : Unit40), (s.tdc u).hold = true → exec (.tdcRearm u) s = .next s) ∧
  (∀ (s : State), s.shut = false → s.rbit Reg.tdcCtrl 0 = true → exec .tdcLoopsLocked s = .next (s.setFld Reg.tdcStatus 1 0 3)) ∧
  (∀ (s : State) (slow fast : Bool), s.shut = false → s.rbit Reg.tdcCtrl 0 = true →
    (slow && s.rbit Reg.tdcStatus 0 || fast && s.rbit Reg.tdcStatus 1) = true →
    ∃ t, exec (.tdcUnlock slow fast) s = .next t ∧ t.rbit Reg.tdcStatus 0 = (s.rbit Reg.tdcStatus 0 && !slow) ∧
      t.rbit Reg.tdcStatus 1 = (s.rbit Reg.tdcStatus 1 && !fast) ∧ t.rbit Reg.tdcFault 0 = true ∧
      ∀ u : Unit40, t.tdc u = { s.tdc u with unlocked := (s.tdc u).unlocked || (s.tdc u).armed }) ∧
  (∀ (s : State) (pin : Fin 8) (e ofs : Nat),
    (∀ u, 32 ≤ u → u < 40 → (s.tdc u).armed = false ∧ s.armMode u ≠ 2) → exec (.tinEdge pin true e ofs) s = .next s) ∧
  (∀ (s : State) (pin : Fin 8) (u : Unit40) (e ofs : Nat), 32 ≤ u.val → s.rbit (0x40104 + 0x40 * (32 + pin)) 0 = false →
    (∀ k, 32 ≤ k → k < 40 → s.armMode k ≠ 2) → s.fld (tdcCfgAt u) 7 4 = pin → s.fld (tdcCfgAt u) 11 8 ≠ pin →
    (s.tdc u).armed = true → (s.tdc u).start = none →
    ∃ t, exec (.tinEdge pin true e ofs) s = .next t ∧
      t.tdc u = { s.tdc u with start := some (e % (160 * 2 ^ 40)), startAt := tstart s.time.now ofs })

/-- CAL_GO arms one slot, CAL_BUSY follows it and its sums are written; calibration requests mark steps due, a temperature read
begins at its period. Rests on R84, R89, R91, R358, R375, R376, R387. The model's choices: a slot that a boundary has taken and
that has not yet begun refuses with BUSY too (log entry 88); a slot start with none due changes nothing (log entry 2). Its
conclusion is that exec answers a next state for calGo, calSlotStart, calSlotEnd, calGoAll, calGoPadc, calGoMatch, calGoStore,
laneReq, quinceTempRead, boReqInterval. -/
def Obligations.LaneSlotsAndCalibrationRequests : Prop :=
  (
  (∀ (s : State) (q : Req) (ch : Chan), s.shut = false → (s.lane ch).armed = false → (s.lane ch).slotDue = false →
    s.rbit (Reg.laneStatus ch) 24 = false → exec (.calGo q ch) s = .next (s.setLane ch { s.lane ch with armed := true })) ∧
  (∀ (s : State) (q : Req) (ch : Chan), s.shut = false →
    ((s.lane ch).armed || (s.lane ch).slotDue || s.rbit (Reg.laneStatus ch) 24) = true →
    exec (.calGo q ch) s = .next (s.err (laneBase ch) .busy 0x20 q)) ∧
  (∀ (s : State) (ch : Chan), (s.lane ch).slotDue = true → exec (.calSlotStart ch) s =
    .next ((s.setLane ch { s.lane ch with slotDue := false }).setRbit (Reg.laneStatus ch) 24 true)) ∧
  (∀ (s : State) (ch : Chan), (s.lane ch).slotDue = false → exec (.calSlotStart ch) s = .next s) ∧
  (∀ (s : State) (ch : Chan) (raw : ChCodes) (c : CalSlot), (s.lane ch).cur.slot = some c → s.rbit (Reg.laneStatus ch) 24 = true →
    s.laneStep (ch / 8) = none →
    ∃ t, exec (.calSlotEnd ch raw) s = .next t ∧ t.rbit (Reg.laneStatus ch) 24 = false ∧ t.rbit (Reg.laneStatus ch) 25 = true ∧
      t.lanes = s.lanes ∧
      ∀ p : Fin 6, c.mask.getLsbD p = true → t.reg (Reg.laneCalSum ch p) =
        BitVec.ofInt 32 (sumInt (((raw.getD p []).take c.len).map
          (laneU p ((s.lane ch).cur.corr.getD p {})))))) ∧
  (
  (∀ (s : State) (q : Req), s.shut = false → exec (.calGoAll q) s = .next { s with quince := { s.quince with
      laneDue := BitVec.allOnes 32, iqDue := BitVec.allOnes 32, padcDue := true, matchDue := true, swapDue := true, storeDue := true } }) ∧
  (∀ (s : State) (q : Req), s.shut = false → exec (.calGoPadc q) s = .next { s with quince := { s.quince with padcDue := true } }) ∧
  (∀ (s : State) (q : Req), s.shut = false → exec (.calGoMatch q) s = .next { s with quince := { s.quince with matchDue := true } }) ∧
  (∀ (s : State) (q : Req), s.shut = false → exec (.calGoStore q) s = .next { s with quince := { s.quince with storeDue := true } }) ∧
  (∀ (s : State) (q : Req) (ch : Chan), s.shut = false → ∃ t, exec (.laneReq q ch) s = .next t ∧ t.rbit Reg.calLaneReq ch = true ∧
    t.quince = { s.quince with laneDue := withBit s.quince.laneDue ch true }) ∧
  (∀ (s : State) (ms : Nat), s.shut = false → s.fld Reg.calTempCfg 31 16 ≤ ms → s.rbit Reg.hkStatus 0 = true → s.hadc.inj = none →
    s.hadc.conv = none → s.hadc.quince = none →
    ∃ t, exec (.quinceTempRead ms) s = .next t ∧ t.hadc.conv = some (.quince 0) ∧ t.hadc.quince = some 0 ∧
      ∀ k : Fin 4, t.reg (Reg.calTemp k) = s.reg (Reg.calTemp k)) ∧
  (∀ (s : State) (ms : Nat), ms < s.fld Reg.calTempCfg 31 16 → exec (.quinceTempRead ms) s = .next s) ∧
  (∀ (s : State), s.shut = false → s.quince.swapDue = false →
    ∃ t, exec .boReqInterval s = .next t ∧ (∀ k : Fin 16, s.slotOn k = true → (s.slotKind k = 1 ∨ s.slotKind k = 2) →
      t.rbit Reg.pfeBoReq k = true) ∧ (s.rbit Reg.pfeCtrl 0 = false → s.padc.inPass = false → t.padc.tests = t.reg Reg.pfeBoReq)))

/-- A compression engine takes late offsets, forms its gauge words and writes records, frees ring words and flushes its totals.
Rests on R123, R126, R127, R131, R132, R133, R135, R136, R138, R140, R142. The model's choices: a command with nothing to act on
changes nothing (log entry 2); the samples of a shot are N x TRACE (log entry 104). Its conclusion is that exec answers a next
state for tdcLate, replicaDone, traceWindowEnd, recordComplete, outRpWrite, totClear, flushDone. -/
def Obligations.CompressionRecordsAndTotals : Prop :=
  (∀ (s : State) (ch : Chan), (s.ce ch).recs.find? RecSt.waitsQ = none → exec (.tdcLate ch) s = .next s) ∧
  (∀ (s : State) (ch : Chan) (r : RecSt), (s.ce ch).recs.find? RecSt.waitsQ = some r →
    exec (.tdcLate ch) s = .next (if r.samples < 8192 then s else (((s.setCe ch { s.ce ch with
      recs := updFirst (fun x => x.waitsQ && decide (x.index = r.index))
        (fun x => { x with q := some (s.heldQ ch r.alignOfs), hold := true }) (s.ce ch).recs }).count
        (Reg.ceHoldCnt ch) 1).setReg (Reg.ceTauLast ch) (BitVec.ofInt 32 (s.heldQ ch r.alignOfs))).fault (Reg.ceFault ch) 2)) ∧
  (∀ (s : State) (ch : Chan), exec (.replicaDone ch) s = .next (s.setRbit (Reg.ceStatus ch) 2 false)) ∧
  (∀ (s : State) (ch : Chan) (raw : ChCodes), (s.ce ch).recs = [] → (s.ce ch).ramans = [] → (s.lane ch).tail = none →
    exec (.traceWindowEnd ch raw) s = .next s) ∧
  (∀ (s : State) (ch : Chan) (raw : ChCodes) (r : RecSt) (rest : List RecSt) (q : Int), (s.ce ch).recs = r :: rest →
    (s.ce ch).ramans = [] → r.skipped = false → r.q = some q → r.gauges = none → r.span = none → (s.lane ch).tail = none →
    let x := s.spanOuts ch r.index raw
    let n := trainLen r.train
    let w (k : Nat) := wrap (4 * fieldS (r.probe.slots.getD k 0) 31 0 + r.ffc) 32
    let bad (p m : Nat) := decide ((x.out.getD (2 * p) #[]).size ≤ m) || (x.v.getD (2 * p) #[]).getD m true ||
      (x.v.getD (2 * p + 1) #[]).getD m true
    let li (p m : Nat) := (x.out.getD (2 * p) #[]).getD m 0
    let lq (p m : Nat) := (x.out.getD (2 * p + 1) #[]).getD m 0
    let gc := (r.gaugeCount + n - 1) / n
    let lr := (r.probe.len + 3) / 4
    let hop := 2 * ((2 ^ (10 + r.specSize) - lr + 1) / 2)
    let ni := q / 256
    let last : Int := 2 * n * ((gc : Int) - 1) + ni + 4
    let blocks := if last < 0 ∨ hop = 0 then 0 else last.toNat / hop + 1
    ∃ t r', exec (.traceWindowEnd ch raw) s = .next t ∧ (t.ce ch).recs = r' :: rest ∧ r'.index = r.index ∧
      r'.stamp = r.stamp ∧ r'.q = r.q ∧ r'.span = none ∧ (∀ k, k ≠ ch.val → t.ce k = s.ce k) ∧
      ∃ zs, r'.gauges = some zs ∧ zs.length = 2 * n * gc ∧
        ∀ (k g p : Nat), k < n → g < gc → p < 2 →
          let a : Array (Int × Int) := (Array.range r.trace).map fun m =>
            let at' := 24 + k * r.period / n + m
            let j := (((m : Int) * w k - rne (w k * q) 8) % 2 ^ 32).toNat / 2 ^ 16
            if bad p at' then (0, 0)
            else (4 * (li p at' * cosTab j + lq p at' * sinTab j), 4 * (lq p at' * cosTab j - li p at' * sinTab j))
          let y := (corrBlocks a r.spectrum.toArray (10 + r.specSize) hop r.er r.outShift blocks).y
          let c : Int := 2 * n * (g : Int) + ni
          let tap (m : Nat) : Int × Int := if c + (m : Int) - 3 < 0 then (0, 0) else y.getD (c + (m : Int) - 3).toNat (0, 0)
          let cd := taps 256 (q % 256).toNat
          let z := (sat (rne ((List.range 8).foldl (fun v m => v + cd.getD m 0 * (tap m).1) 0) 15) 36,
            sat (rne ((List.range 8).foldl (fun v m => v + cd.getD m 0 * (tap m).2) 0) 15) 36)
          zs.getD (2 * (k * gc + g) + p) 0 = BitVec.ofInt 36 z.1 ++ BitVec.ofInt 36 z.2) ∧
  (∀ (s : State) (ch : Chan) (r : RecSt) (rest : List RecSt), (s.ce ch).recs = r :: rest → r.ready = true →
    exec (.recordComplete ch) s = .next (State.recordWrite (s.setCe ch { s.ce ch with recs := rest }) ch r)) ∧
  (∀ (s : State) (ch : Chan) (r : RecSt) (rest : List RecSt), (s.ce ch).recs = r :: rest → r.ready = false →
    exec (.recordComplete ch) s = .next s) ∧
  (∀ (s : State) (q : Req) (ch : Chan) (v : W32), s.shut = false → (s.reg (Reg.ceOutWp ch) - v).toNat ≤ s.fld (Reg.ceOutLen ch) 16 0 →
    exec (.outRpWrite q ch v) s = .next (s.setReg (Reg.ceOutRp ch) v)) ∧
  (∀ (s : State) (q : Req) (ch : Chan) (v : W32), s.shut = false → s.fld (Reg.ceOutLen ch) 16 0 < (s.reg (Reg.ceOutWp ch) - v).toNat →
    exec (.outRpWrite q ch v) s = .next (s.err (ceBase ch) .range 0x30 q)) ∧
  (∀ (s : State) (q : Req) (ch : Chan), s.shut = false →
    exec (.totClear q ch) s = .next (s.setCe ch { s.ce ch with replace := true })) ∧
  (∀ (s : State) (ch : Chan) (b : BatchSt) (rep : Bool), (s.ce ch).flush = some (b, rep) → (s.ce ch).coveredBy b b.last.toNat = [] →
    ∃ t, exec (.flushDone ch) s = .next t ∧ (t.ce ch).flush = none ∧ t.rbit (Reg.ceStatus ch) 3 = false ∧
      ∀ k, k ≠ ch.val → t.ce k = s.ce k)

/-- Lane, IQ, converter and current-source steps take their measurements, install what agrees and end with their outcome in LAST.
Rests on R377, R378, R379, R380, R381, R383, R384, R385, R386, R388, R390, R392. The model's choice: TCAL is 0 where the sensor
has no valid reading (log entry 98). Its conclusion is that exec answers a next state for laneStepStart, calSlotEnd,
laneStepSlotResult, iqAccumDone, padcCalStep, matchStep, calStore. -/
def Obligations.CalibrationSteps : Prop :=
  (∀ (s : State) (ch : Chan), s.laneStep (ch / 8) = none → s.laneNext (ch / 8) = some ch.val →
    (s.calKind 1 && s.quince.laneDue.getLsbD ch && s.laneMay ch) = false →
    exec (.laneStepStart ch) s =
      .next ((s.setLaneStep (ch / 8) (some { ch := ch, iq := true, attempts := 1 })).calShow)) ∧
  (∀ (s : State) (ch : Chan), s.laneStep (ch / 8) = none → s.laneNext (ch / 8) = some ch.val →
    (s.calKind 1 && s.quince.laneDue.getLsbD ch && s.laneMay ch) = true →
    let g0 := s.fld (Reg.shotNgapStart (ch / 8)) 23 0
    let q0 := s.fld (Reg.laneQuietStart ch) 23 0
    let q1 := q0 + 2 * s.fld (Reg.laneQuietCfg ch) 10 0
    let start := max g0 q1 + max g0 q1 % 2
    let fits := start + 56 + 2 * s.fld Reg.calLaneLen 10 0 ≤ g0 + s.fld (Reg.shotNgapLen (ch / 8)) 23 0 ∧ g0 ≤ q0 ∧
      q1 ≤ g0 + s.fld (Reg.shotNgapLen (ch / 8)) 23 0
    ∃ t, exec (.laneStepStart ch) s = .next t ∧
      (fits → s.allQuiet ch = true → s.slotBusy ch = false →
        t.laneStep (ch / 8) = some { ch := ch, attempts := 1, started := true } ∧ (t.lane ch).armed = true ∧
        t.reg (Reg.laneCalStart ch) = BitVec.ofNat 32 start ∧
        t.reg (Reg.laneCalCfg ch) = BitVec.ofNat 32 (0x3F * 2 ^ 24 + s.fld Reg.calLaneLen 10 0)) ∧
      (¬ fits → t.laneStep (ch / 8) = none ∧ t.rbit Reg.calFault 2 = true ∧
        t.reg Reg.calLast = BitVec.ofNat 32 (1 * 2 ^ 28 + 3 * 2 ^ 24 + ch * 2 ^ 16 + 1))) ∧
  (∀ (s : State) (ch : Chan) (raw : ChCodes) (x : LaneStep) (c : CalSlot), s.laneStep (ch / 8) = some x → x.ch = ch.val →
    x.iq = false → x.started = true → (s.lane ch).cur.slot = some c → s.rbit (Reg.laneStatus ch) 24 = true →
    x.slot < 4 → (x.slot < 3 → (s.calPlace ch).isSome) →
    ∃ t m, exec (.calSlotEnd ch raw) s = .next t ∧ t.laneStep (ch / 8) = some { x with slot := x.slot + 1, meas := x.meas ++ [m] } ∧
      ∀ p : Fin 6, (x.slot < 2 → (m.getD p (0, 0)).1 =
          ((s.lane ch).cur.corr.getD p {}).ofs + divr (t.fldS (Reg.laneCalSum ch p) 31 0) c.len) ∧
        (2 ≤ x.slot → mag (t.fldS (Reg.laneCalC ch p) 31 0) (t.fldS (Reg.laneCalS ch p) 31 0) ≠ 0 → (m.getD p (0, 0)).1 =
          divr (16384 * rne ((c.len : Int) / 2 * 16384 * 131071) 17)
            (mag (t.fldS (Reg.laneCalC ch p) 31 0) (t.fldS (Reg.laneCalS ch p) 31 0)))) ∧
  (∀ (s : State) (ch : Chan) (x : LaneStep), s.shut = false → s.laneStep (ch / 8) = some x → x.ch = ch.val → x.iq = false →
    x.started = true → x.checked < x.slot → x.checked < 3 → (s.lane ch).cur.slot = none → s.allQuiet ch = true →
    exec (.laneStepSlotResult ⟨ch, false⟩) s = .next (s.setLaneStep (ch / 8) (some { x with checked := x.checked + 1 }))) ∧
  (∀ (s : State) (ch : Chan) (x : LaneStep), s.shut = false → s.laneStep (ch / 8) = some x → x.ch = ch.val → x.iq = false →
    x.started = true → x.checked < x.slot → (s.lane ch).cur.slot = none → s.allQuiet ch = false →
    ∃ t, exec (.laneStepSlotResult ⟨ch, false⟩) s = .next t ∧ t.laneStep (ch / 8) = none ∧
      t.reg Reg.calLast = BitVec.ofNat 32 (1 * 2 ^ 28 + 2 * 2 ^ 24 + ch * 2 ^ 16 + min x.attempts 255) ∧
      t.rbit Reg.calFault 1 = true) ∧
  (∀ (s : State) (ch : Chan) (x : LaneStep), s.shut = false → s.laneStep (ch / 8) = some x → x.ch = ch.val → x.iq = false →
    x.started = true → x.checked < x.slot → x.checked = 3 → (s.lane ch).cur.slot = none → s.allQuiet ch = true →
    let m (i p : Nat) := (x.meas.getD i []).getD p (0, 0)
    let agree := ∀ p : Fin 6, ((m 0 p).1 - (m 1 p).1).natAbs ≤ s.fld Reg.calTolA 31 16 ∧
      ((m 2 p).1 - (m 3 p).1).natAbs ≤ s.fld Reg.calTolA 15 0 ∧ ((m 2 p).2 - (m 3 p).2).natAbs ≤ s.fld Reg.calTolB 31 24
    let ofs (p : Nat) := divr ((m 0 p).1 + (m 1 p).1) 2
    let gc (p : Nat) := divr ((m 2 p).1 + (m 3 p).1) 2
    let skew (p : Nat) := divr ((m 2 p).2 + (m 3 p).2) 2
    ∃ t, exec (.laneStepSlotResult ⟨ch, false⟩) s = .next t ∧
      (agree → (∀ p : Fin 6, -4096 ≤ ofs p ∧ ofs p ≤ 4095 ∧ 8192 ≤ gc p ∧ gc p ≤ 32767 ∧ -64 ≤ skew p ∧ skew p ≤ 63) →
        t.reg Reg.calLast = BitVec.ofNat 32 (1 * 2 ^ 28 + 1 * 2 ^ 24 + ch * 2 ^ 16 + min x.attempts 255) ∧
        t.rbit (Reg.laneCtrl ch) 16 = false ∧ t.rbit (Reg.calLaneStat ch) 0 = true ∧
        ∀ p : Fin 6, t.fldS (Reg.laneOffset ch p) 15 0 = ofs p ∧ (t.fld (Reg.laneGcorr ch p) 15 0 : Int) = gc p ∧
          t.fldS (Reg.laneSkew ch p) 6 0 = skew p) ∧
      (¬ agree → s.fld Reg.calTolB 19 16 < x.attempts →
        t.reg Reg.calLast = BitVec.ofNat 32 (1 * 2 ^ 28 + 4 * 2 ^ 24 + ch * 2 ^ 16 + min x.attempts 255) ∧
        t.laneStep (ch / 8) = none ∧ t.rbit Reg.calFault 3 = true ∧
        ∀ p : Fin 6, t.reg (Reg.laneOffset ch p) = s.reg (Reg.laneOffset ch p) ∧
          t.reg (Reg.laneGcorr ch p) = s.reg (Reg.laneGcorr ch p) ∧ t.reg (Reg.laneSkew ch p) = s.reg (Reg.laneSkew ch p))) ∧
  (∀ (s : State) (ch : Chan) (st : LaneStep) (a b c d : Int), s.laneStep (ch / 8) = some st → st.ch = ch.val →
    st.iq = true → st.iqA = none → s.fld Reg.calIqCfg 31 16 ≤ st.tapShots →
    iqMatrix st.tapX = some (a, b) → iqMatrix st.tapY = some (c, d) →
    exec (.iqAccumDone ch st.tapX st.tapY) s = .next (s.setLaneStep (ch / 8)
      (some { st with iqA := some [a, b, c, d], tapX := {}, tapY := {}, tapShots := 0 }))) ∧
  (∀ (s : State) (ch : Chan) (st : LaneStep), s.laneStep (ch / 8) = some st → st.ch = ch.val →
    st.iq = true → s.fld Reg.calIqCfg 31 16 ≤ st.tapShots → iqMatrix st.tapX = none →
    ∃ t, exec (.iqAccumDone ch st.tapX st.tapY) s = .next t ∧ t.laneStep (ch / 8) = none ∧
      t.reg Reg.calLast = BitVec.ofNat 32 (2 * 2 ^ 28 + 5 * 2 ^ 24 + ch * 2 ^ 16 + min st.attempts 255)) ∧
  (∀ (s : State) (g : Fin 8) (za ra zb rb : List Int), s.padcStands = true → s.padcIdle = true →
    (if s.quince.padcLeft = 0 then s.fld Reg.calPadcCfg 15 8 else s.quince.padcLeft).testBit g = true →
    za.length = 16 → ra.length = 16 → zb.length = 16 → rb.length = 16 → mean ra ≠ mean za → mean rb ≠ mean zb →
    ((padcCorr za ra).1 - (padcCorr zb rb).1).natAbs ≤ 16 → ((padcCorr za ra).2 - (padcCorr zb rb).2).natAbs ≤ 64 →
    -(2 ^ 23) ≤ divr ((padcCorr za ra).1 + (padcCorr zb rb).1) 2 → divr ((padcCorr za ra).1 + (padcCorr zb rb).1) 2 < 2 ^ 23 →
    0 ≤ divr ((padcCorr za ra).2 + (padcCorr zb rb).2) 2 → divr ((padcCorr za ra).2 + (padcCorr zb rb).2) 2 < 2 ^ 24 →
    ∃ t, exec (.padcCalStep g za ra zb rb) s = .next t ∧
      t.fldS (Reg.pfeOfs g) 23 0 = divr ((padcCorr za ra).1 + (padcCorr zb rb).1) 2 ∧
      (t.fld (Reg.pfeGc g) 23 0 : Int) = divr ((padcCorr za ra).2 + (padcCorr zb rb).2) 2) ∧
  (∀ (s : State) (va vb : List Int), (s.quince.matchDue && s.calKind 4 && !s.padcStands && s.padcIdle) = true →
    va.length = 4 → vb.length = 4 →
    ((s.matchTrims va).zip (s.matchTrims vb)).all (fun x => decide ((x.1 - x.2).natAbs ≤ 2)) = true →
    ((s.matchTrims va).zip (s.matchTrims vb)).all
      (fun x => decide (-128 ≤ divr (x.1 + x.2) 2) && decide (divr (x.1 + x.2) 2 ≤ 127)) = true →
    ∃ t, exec (.matchStep va vb) s = .next t ∧ t.quince.matchDue = false ∧ t.quince.swapDue = false ∧
      ∀ i : Fin 4, t.fldS (Reg.pfeIxTrim i) 7 0 = divr ((s.matchTrims va).getD i 0 + (s.matchTrims vb).getD i 0) 2) ∧
  (∀ (s : State), (s.calKind 5 && s.quince.storeDue && !s.quince.storing && s.calClear) = true →
    s.rbit Reg.nvmWriteCtrl 2 = true → s.rbit Reg.nvmProt 3 = false →
    ∃ t, exec (.calStore true) s = .next t ∧ t.quince.storing = true ∧ t.quince.storeDue = false ∧
      t.nvm.ops = s.nvm.ops ++ [.calibration] ∧ (calSlotAt t.nvm.cal s.calSlotOut).seq = s.reg Reg.calStoreSeq + 1 ∧
      (calSlotAt t.nvm.cal s.calSlotOut).valid = false) ∧
  (∀ (s : State) (ok : Bool), s.quince.storeDue = false → exec (.calStore ok) s = .next s)

/-- The housekeeping reference, triggers and conversions; a loop target follows its request, range and failures, and readback and
timeout act on it. Rests on R364, R365, R366, R367, R368, R369, R370, R371. The model's choices: a trigger that is not the
chosen one, and an end with nothing in progress, change nothing (log entry 2); the reading of a sensor is a free value (log
entry 4). Its conclusion is that exec answers a next state for refSettled, vrefxRangeChange, hadcRegGo, hadcRegTimer, hadcInjGo,
hadcInjTrigger, hadcConversionDone, loopTargetUpdate, loopReadback, loopHostTimeout, loopMismatch, loopMismatchClear, loopOpen,
loopOpenClear. -/
def Obligations.HousekeepingConverterAndLoopOutputs : Prop :=
  (
  (∀ (s : State), s.shut = false → s.fld Reg.hkCtrl 5 4 ≠ 1 → ∃ t, exec .refSettled s = .next t ∧ t.rbit Reg.hkStatus 0 = true) ∧
  (∀ (s : State), s.shut = false → s.fld Reg.hkCtrl 5 4 = 1 →
    ∃ t, exec (.vrefxRangeChange false) s = .next t ∧ t.rbit Reg.hkStatus 0 = false ∧ t.rbit Reg.hkFault 1 = true) ∧
  (∀ (s : State) (q : Req), s.shut = false → s.fld Reg.hkRegCfg 25 24 = 0 → s.rbit Reg.hkCtrl 0 = true → s.rbit Reg.hkStatus 0 = true →
    s.hadc.reg = none → ∃ t, exec (.hadcRegGo q) s = .next t ∧ t.hadc.reg = some 0) ∧
  (∀ (s : State) (q : Req), s.fld Reg.hkRegCfg 25 24 ≠ 0 → exec (.hadcRegGo q) s = .next s) ∧
  (∀ (s : State), s.fld Reg.hkRegCfg 25 24 = 2 → s.rbit Reg.hkCtrl 0 = true → s.rbit Reg.hkStatus 0 = true →
    s.hadc.reg = none → ∃ t, exec .hadcRegTimer s = .next t ∧ t.hadc.reg = some 0) ∧
  (∀ (s : State) (i : Nat), s.fld Reg.hkRegCfg 25 24 = 2 → s.rbit Reg.hkCtrl 0 = true → s.hadc.reg = some i →
    exec .hadcRegTimer s = .next (s.count Reg.hkRegMiss 1)) ∧
  (∀ (s : State) (q : Req), s.shut = false → s.fld Reg.hkInjCfg 25 24 = 0 → s.rbit Reg.hkCtrl 1 = true → s.hadc.inj = none →
    ∃ t, exec (.hadcInjGo q) s = .next t ∧ t.hadc.inj = some 0) ∧
  (∀ (s : State) (q : Req) (i : Nat), s.shut = false → s.fld Reg.hkInjCfg 25 24 = 0 → s.rbit Reg.hkCtrl 1 = true → s.hadc.inj = some i →
    exec (.hadcInjGo q) s = .next ((s.count Reg.hkInjMiss 1).fault Reg.hkFault 1)) ∧
  (∀ (s : State) (h : Head), s.fld Reg.hkInjCfg 25 24 = 2 → s.fld Reg.hkInjCfg 29 28 = h.val → s.rbit Reg.hkCtrl 1 = true →
    s.hadc.inj = none → ∃ t, exec (.hadcInjTrigger (.headok h)) s = .next t ∧ t.hadc.inj = some 0) ∧
  (∀ (s : State) (src : InjSrc), s.fld Reg.hkInjCfg 25 24 = 0 → exec (.hadcInjTrigger src) s = .next s) ∧
  (∀ (s : State) (rw i : Nat), s.hadc.conv = some (.reg i) → i < 32 →
    ∃ t, exec (.hadcConversionDone rw) s = .next t ∧ t.fld (Reg.hkRegRes (i / 2)) (16 * (i % 2) + 11) (16 * (i % 2)) =
      s.hadcCode rw) ∧
  (∀ (s : State) (rw k : Nat), s.hadc.conv = some (.quince k) → k < 4 →
    ∃ t, exec (.hadcConversionDone rw) s = .next t ∧ t.rbit (Reg.calTemp k) 16 = true ∧
      t.hadc.quince = if k < 3 then some (k + 1) else none) ∧
  (∀ (s : State) (rw : Nat), s.hadc.conv = none → exec (.hadcConversionDone rw) s = .next s)) ∧
  (
  (∀ (r : W32) (d : Bool), loopTarget r true d 0 = (if d then 100 * field r 30 23 else 100 * field r 22 16)) ∧
  (∀ (r : W32) (d : Bool) (q : Nat), 100 * field r 22 16 < q → q < 100 * field r 30 23 → 100 * field r 7 0 ≤ q →
    q ≤ 100 * field r 15 8 → loopTarget r false d q = q) ∧
  (∀ (r : W32) (d : Bool) (q : Nat), field r 22 16 < field r 7 0 → field r 7 0 < field r 15 8 → field r 15 8 < field r 30 23 →
    100 * field r 22 16 ≤ loopTarget r false d q ∧ loopTarget r false d q ≤ 100 * field r 30 23) ∧
  (∀ (s : State) (n : Fin 8), s.shut = false → ∃ t, exec (.loopTargetUpdate n) s = .next t ∧
    t.reg (Reg.loopTarget n) = BitVec.ofNat 32 (loopTarget (s.reg Reg.loopRange) (s.loopFailed n) (s.rbit (Reg.loopCfg n) 3)
      (s.loopQ n).1) ∧ t.loopOuts = s.loopOuts) ∧
  (∀ (s : State) (n : Fin 8) (ua : Nat), s.shut = false → ua < 65536 →
    exec (.loopReadback n ua) s = .next (s.setReg (Reg.loopReadback n) (BitVec.ofNat 32 ua))) ∧
  (∀ (s : State) (n : Fin 8), s.shut = false → s.fld (Reg.loopCfg n) 31 16 ≠ 0 → (s.loopQ n).2 = true →
    exec (.loopHostTimeout n) s = .next (State.loopForm
      ((s.setLoopOut n { s.loopOut n with timedOut := true }).fault Reg.loopFault (2 ^ (16 + n.val))) n)) ∧
  (∀ (s : State) (n : Fin 8), s.shut = false → s.loopOff n = true → (s.loopOut n).isOpen = false →
    exec (.loopMismatch n) s = .next (State.loopForm
      ((s.setLoopOut n { s.loopOut n with mismatch := true }).fault Reg.loopFault (2 ^ (8 + n.val))) n)) ∧
  (∀ (s : State) (n : Fin 8), s.shut = false → s.loopOff n = false →
    exec (.loopMismatchClear n) s = .next (State.loopForm (s.setLoopOut n { s.loopOut n with mismatch := false }) n)) ∧
  (∀ (s : State) (n : Fin 8), s.shut = false → s.rbit (Reg.loopCfg n) 0 = true → 3600 ≤ s.fld (Reg.loopTarget n) 15 0 →
    exec (.loopOpen n) s = .next (State.loopForm
      ((s.setLoopOut n { s.loopOut n with isOpen := true }).fault Reg.loopFault (2 ^ n.val)) n)) ∧
  (∀ (s : State) (n : Fin 8), s.rbit (Reg.loopCfg n) 0 = false ∨ s.fld (Reg.loopTarget n) 15 0 < 3600 → exec (.loopOpen n) s = .next s) ∧
  (∀ (s : State) (n : Fin 8), s.shut = false →
    exec (.loopOpenClear n) s = .next (State.loopForm (s.setLoopOut n { s.loopOut n with isOpen := false }) n)))

/-- The precision sequence: passes, outputs, open leads, burn-out tests and the conversion of results. Rests on R353, R354, R355,
R356, R357, R358, R359. The model's choices: when tests begin and what waits for them (log entry 110); a command whose condition
is off changes nothing (log entry 2). Its conclusion is that exec answers a next state for padcPassStart, padcOutput,
padcOpenDetect, padcOpenRetryTimeout, excitationComplianceHeld, burnoutTest, padcResultConvert. -/
def Obligations.PrecisionSequence : Prop :=
  (∀ (s : State) (o : Bool), s.rbit Reg.pfeCtrl 0 = true → s.padc.inPass = false → s.padc.tests = 0 → s.fld Reg.pfeSeqCfg 31 16 = 0 →
    exec (.padcPassStart o) s =
      .next ((State.padcEnter (s.fld Reg.pfeSeqCfg 4 0) 0 { s with padc := { s.padc with inPass := true } }).padcShow true)) ∧
  (∀ (s : State) (o : Bool), s.padc.tests ≠ 0 → exec (.padcPassStart o) s = .next s) ∧
  (∀ (s : State) (k : Nat), ∃ t, State.padcEnter 0 k s = t ∧ t.padc.inPass = false ∧ t.reg Reg.pfePass = s.reg Reg.pfePass + 1) ∧
  (∀ (s : State) (xr : Int), s.padc.inPass = true → s.padc.waitComp = false →
    exec (.padcOutput { xr := xr }) s = .next (s.padcOutput xr)) ∧
  (∀ (s : State) (xr : Int), s.padc.inPass = true → s.padc.waitComp = false → s.slotCount s.padc.slot = 0 → s.padc.slot < 16 →
    s.slotNavg s.padc.slot ≤ 1 →
    ∃ t, exec (.padcOutput { xr := xr }) s = .next t ∧
      t.reg (Reg.pfeResult s.padc.slot) = BitVec.ofInt 32 (s.padcCorrect (s.slotGain s.padc.slot) (wrap xr 24)).1) ∧
  (∀ (s : State) (xr : Int), s.padc.inPass = true → s.padc.waitComp = false →
    ∃ t, exec (.padcOutput { xr := xr, stopped := true }) s = .next t ∧ t.padc.inPass = false ∧ t.padc.due = s.padc.due ∧
      ∀ k : Fin 16, t.reg (Reg.pfeResult k) = s.reg (Reg.pfeResult k)) ∧
  (∀ (s : State) (xr : PadcSample), s.padc.inPass = false → exec (.padcOutput xr) s = .next s) ∧
  (∀ (s : State) (g : Nat) (xr : Int), (s.padcCorrect g xr).1 =
    sat (rne ((xr - s.fldS (Reg.pfeOfs g) 23 0) * s.fld (Reg.pfeGc g) 23 0) 22) 24) ∧
  (∀ (s : State), s.padc.inPass = true → s.padc.waitComp = false → s.padc.slot < 16 → s.slotDriven s.padc.slot = true →
    ∃ t, exec .padcOpenDetect s = .next t ∧ t.rbit Reg.pfeStatus s.padc.slot = true ∧ t.rbit Reg.pfeFault s.padc.slot = true) ∧
  (∀ (s : State), s.padc.inPass = true → s.padc.waitComp = true →
    exec .padcOpenRetryTimeout s = .next ((s.padcResult s.padc.slot 0 true false false 0 0).padcNext)) ∧
  (∀ (s : State), s.padc.inPass = true → s.padc.waitComp = true →
    ∃ t, exec .excitationComplianceHeld s = .next t ∧ t.rbit Reg.pfeStatus s.padc.slot = false ∧ t.padc.waitComp = false ∧
      t.padc.settle = s.slotSettle s.padc.slot ∧ t.padc.outs = []) ∧
  (∀ (s : State) (k : Fin 16) (xr : Int), s.padc.tests.getLsbD k = false → exec (.burnoutTest [(k.val, xr)]) s = .next s) ∧
  (∀ (s : State) (k : Fin 16) (xr : Int), s.padc.tests.getLsbD k = true →
    ∃ t, exec (.burnoutTest [(k.val, xr)]) s = .next t ∧ t.rbit Reg.pfeBoReq k = false ∧
      (∀ j : Fin 32, t.padc.tests.getLsbD j = (s.padc.tests.getLsbD j && decide (j.val ≠ k.val))) ∧
      t.rbit Reg.pfeStatus 29 = decide (t.padc.tests ≠ 0) ∧
      t.rbit Reg.pfeBoResult k = decide (s.fld Reg.pfeBoLimit 23 0 ≤ (s.padcCorrect 0 (wrap xr 24)).1.natAbs)) ∧
  (∀ (s : State) (k : Fin 16) (d : PadcDue) (rest : List PadcDue), s.padc.due = d :: rest → d.slot = k.val → d.isOpen = true →
    exec (.padcResultConvert k) s = .next { s with padc := { s.padc with due := rest } }) ∧
  (∀ (s : State) (k : Fin 16) (d : PadcDue) (rest : List PadcDue), s.padc.due = d :: rest → d.slot = k.val → d.isOpen = false →
    s.slotKind k = 3 → s.fld (Reg.pfeSlotDest k) 5 0 = 0 →
    ∃ t, exec (.padcResultConvert k) s = .next t ∧ t.padc.due = rest ∧ t.odv (0x4410 + k) 0xA = d.stamp.toNat)

/-- The sums, differences, negations and selections of the scalar group give their result and flags. Rests on R223, R228, R230,
R232, R242. Its conclusion is that exec answers a next state for mov, add, adds, sub, subs, cmp, neg, abs, min, max. -/
def Obligations.ScalarSumsAndComparisons : Prop :=
  (∀ (s : State) (c : Core) (f : FormR) (x y : MoveF), (s.core c).sized = true →
    let a := s.greg c f.sa; let b := s.operandB c f;
    (s.canIssue c (.par (.reg 0x01 f) x y) = true → ∃ t, exec (.mov c f x y) s = .next t ∧
      s.tookZN t c f.d a) ∧
    (s.canIssue c (.par (.reg 0x02 f) x y) = true → ∃ t, exec (.add c f x y) s = .next t ∧
      s.tookResult t c f.d (a + b) (some (decide (a + b = 0))) (some (a + b).msb)
        (some (decide (a.toInt + b.toInt < -2 ^ 71 ∨ 2 ^ 71 ≤ a.toInt + b.toInt))) (some (decide (2 ^ 72 ≤ a.toNat + b.toNat)))) ∧
    (s.canIssue c (.par (.reg 0x03 f) x y) = true → ∃ t, exec (.adds c f x y) s = .next t ∧
      s.tookZNV t c f.d (BitVec.ofInt 72 (sat (a.toInt + b.toInt) 72)) (decide (sat (a.toInt + b.toInt) 72 ≠ a.toInt + b.toInt))) ∧
    (s.canIssue c (.par (.reg 0x04 f) x y) = true → ∃ t, exec (.sub c f x y) s = .next t ∧
      s.tookResult t c f.d (a - b) (some (decide (a - b = 0))) (some (a - b).msb)
        (some (decide (a.toInt - b.toInt < -2 ^ 71 ∨ 2 ^ 71 ≤ a.toInt - b.toInt))) (some (decide (b.toNat ≤ a.toNat)))) ∧
    (s.canIssue c (.par (.reg 0x05 f) x y) = true → ∃ t, exec (.subs c f x y) s = .next t ∧
      s.tookZNV t c f.d (BitVec.ofInt 72 (sat (a.toInt - b.toInt) 72)) (decide (sat (a.toInt - b.toInt) 72 ≠ a.toInt - b.toInt))) ∧
    (s.canIssue c (.par (.reg 0x06 f) x y) = true → ∃ t, exec (.cmp c f x y) s = .next t ∧
      t.flag c 3 = decide (a = b) ∧ t.flag c 2 = (a - b).msb ∧
      t.flag c 1 = decide (a.toInt - b.toInt < -2 ^ 71 ∨ 2 ^ 71 ≤ a.toInt - b.toInt) ∧ t.flag c 0 = decide (b.toNat ≤ a.toNat)) ∧
    (s.canIssue c (.par (.reg 0x07 f) x y) = true → ∃ t, exec (.neg c f x y) s = .next t ∧
      s.tookZNV t c f.d (BitVec.ofInt 72 (sat (-a.toInt) 72)) (decide (sat (-a.toInt) 72 ≠ -a.toInt))) ∧
    (s.canIssue c (.par (.reg 0x08 f) x y) = true → ∃ t, exec (.abs c f x y) s = .next t ∧
      s.tookZNV t c f.d (BitVec.ofInt 72 (sat a.toInt.natAbs 72)) (decide (sat a.toInt.natAbs 72 ≠ a.toInt.natAbs))) ∧
    (s.canIssue c (.par (.reg 0x09 f) x y) = true → ∃ t, exec (.min c f x y) s = .next t ∧
      s.tookZN t c f.d (if a.toInt ≤ b.toInt then a else b)) ∧
    (s.canIssue c (.par (.reg 0x0A f) x y) = true → ∃ t, exec (.max c f x y) s = .next t ∧
      s.tookZN t c f.d (if a.toInt ≤ b.toInt then b else a)))

/-- Bitwise operations, the low product, the rounded quotient and the natural logarithm give their result and flags. Rests on R172,
R223, R230, R232, R242. Its conclusion is that exec answers a next state for nop, and, or, xor, andn, mull, divr, lnq. -/
def Obligations.ScalarLogicProductsAndQuotients : Prop :=
  (∀ (s : State) (c : Core) (f : FormR) (x y : MoveF), (s.core c).sized = true →
    let a := s.greg c f.sa; let b := s.operandB c f;
    (s.canIssue c (.par (.reg 0x00 f) x y) = true → ∃ t, exec (.nop c f x y) s = .next t ∧
      t.flag c 3 = s.flag c 3 ∧ t.flag c 2 = s.flag c 2 ∧ t.flag c 1 = s.flag c 1 ∧ t.flag c 0 = s.flag c 0) ∧
    (s.canIssue c (.par (.reg 0x0B f) x y) = true → ∃ t, exec (.and c f x y) s = .next t ∧
      s.tookZN t c f.d (a &&& b)) ∧
    (s.canIssue c (.par (.reg 0x0C f) x y) = true → ∃ t, exec (.or c f x y) s = .next t ∧
      s.tookZN t c f.d (a ||| b)) ∧
    (s.canIssue c (.par (.reg 0x0D f) x y) = true → ∃ t, exec (.xor c f x y) s = .next t ∧
      s.tookZN t c f.d (a ^^^ b)) ∧
    (s.canIssue c (.par (.reg 0x0E f) x y) = true → ∃ t, exec (.andn c f x y) s = .next t ∧
      s.tookZN t c f.d (a &&& ~~~b)) ∧
    (s.canIssue c (.par (.reg 0x0F f) x y) = true → ∃ t, exec (.mull c f x y) s = .next t ∧
      s.tookZNV t c f.d (a * b) (decide (a.toInt * b.toInt < -2 ^ 71 ∨ 2 ^ 71 ≤ a.toInt * b.toInt))) ∧
    (s.canIssue c (.par (.reg 0x10 f) x y) = true → ∃ t, exec (.divr c f x y) s = .next t ∧
      s.tookZNV t c f.d (if b.toInt ≤ 0 then 0 else BitVec.ofInt 72 (divr a.toInt b.toInt)) (decide (b.toInt ≤ 0)) ∧
      (0 < b.toInt → 2 * (divr a.toInt b.toInt * b.toInt - a.toInt).natAbs ≤ b.toInt.natAbs ∧
        (2 * (divr a.toInt b.toInt * b.toInt - a.toInt).natAbs = b.toInt.natAbs →
          a.toInt.natAbs < (divr a.toInt b.toInt * b.toInt).natAbs))) ∧
    (s.canIssue c (.par (.reg 0x11 f) x y) = true → ∃ t, exec (.lnq c f x y) s = .next t ∧
      s.tookZNV t c f.d (if a.toInt ≤ 0 then 0 else BitVec.ofInt 72 (lnq a.toNat)) (decide (a.toInt ≤ 0))))

/-- The complex sums, negation, conjugate, swap and product give saturated parts, V telling saturation. Rests on R223, R230, R233,
R236. Its conclusion is that exec answers a next state for cadd, csub, cneg, conj, cswp, cmul. -/
def Obligations.ComplexSumsAndProducts : Prop :=
  (∀ (s : State) (c : Core) (f : FormR) (x y : MoveF), (s.core c).sized = true →
    let a := s.greg c f.sa; let b := s.operandB c f;
    (s.canIssue c (.par (.reg 0x14 f) x y) = true → ∃ t, exec (.cadd c f x y) s = .next t ∧
      s.tookComplex t c f.d (re a + re b) (im a + im b)) ∧
    (s.canIssue c (.par (.reg 0x15 f) x y) = true → ∃ t, exec (.csub c f x y) s = .next t ∧
      s.tookComplex t c f.d (re a - re b) (im a - im b)) ∧
    (s.canIssue c (.par (.reg 0x16 f) x y) = true → ∃ t, exec (.cneg c f x y) s = .next t ∧
      s.tookComplex t c f.d (-re a) (-im a)) ∧
    (s.canIssue c (.par (.reg 0x17 f) x y) = true → ∃ t, exec (.conj c f x y) s = .next t ∧
      s.tookComplex t c f.d (re a) (-im a)) ∧
    (s.canIssue c (.par (.reg 0x18 f) x y) = true → ∃ t, exec (.cswp c f x y) s = .next t ∧
      s.tookResult t c f.d (cqw (im a) (re a)) none none none none) ∧
    (s.canIssue c (.par (.reg 0x20 f) x y) = true → ∃ t, exec (.cmul c f x y) s = .next t ∧
      s.tookComplex t c f.d (rne (signedProduct f.md a b).1 35) (rne (signedProduct f.md a b).2 35))) ∧
  (∀ a b : W72, product 0 a b = (re a * re b - im a * im b, re a * im b + im a * re b) ∧
    product 1 a b = (re a * re b + im a * im b, im a * re b - re a * im b) ∧
    product 2 a b = (re a * re b, im a * im b) ∧ product 3 a b = (re a * re a + im a * im a, 0)) ∧
  (∀ (md : BitVec 4) (a b : W72), md.getLsbD 3 = true →
    signedProduct md a b = (-(product (md.extractLsb' 0 2).toNat a b).1, -(product (md.extractLsb' 0 2).toNat a b).2))

/-- Multiply-accumulate, extraction and loading of the accumulators give their result, GOV and SATD as ruled. Rests on R204, R236,
R237, R242. Its conclusion is that exec answers a next state for cmac, aclr, amov, extc, extr, exti, lda. -/
def Obligations.AccumulatorInstructions : Prop :=
  (∀ (s : State) (c : Core) (f : FormR) (x y : MoveF), (s.core c).sized = true →
    let a := s.greg c f.sa; let b := s.operandB c f;
    (s.canIssue c (.par (.reg 0x21 f) x y) = true → ∃ t, exec (.cmac c f x y) s = .next t ∧ (∀ k, k < 4 → t.flag c k = s.flag c k) ∧
      (f.md.getLsbD 2 = true → t.accum c f.acc = signedProduct f.md a b ∧ t.flag c 4 = s.flag c 4 ∧
        (t.core c).govPc = (s.core c).govPc) ∧
      (f.md.getLsbD 2 = false →
        let v := (s.accum c f.acc).1 + (signedProduct f.md a b).1
        let w := (s.accum c f.acc).2 + (signedProduct f.md a b).2
        let high (z : Int) : Bool := decide (z < -2 ^ 79 ∨ 2 ^ 79 - 1 < z)
        let part (z : Int) : Int := if high z then (if s.flag c 15 then sat z 80 else wrap z 80) else z
        t.accum c f.acc = (part v, part w) ∧ t.flag c 4 = (s.flag c 4 || high v || high w) ∧
          (t.core c).govPc = if (high v || high w) && !s.flag c 4 then (s.core c).pc else (s.core c).govPc)) ∧
    (s.canIssue c (.par (.reg 0x26 f) x y) = true → ∃ t, exec (.aclr c f x y) s = .next t ∧
      t.accum c f.acc = (0, 0) ∧ (∀ k, k < 4 → t.flag c k = s.flag c k)) ∧
    (s.canIssue c (.par (.reg 0x27 f) x y) = true → ∃ t, exec (.amov c f x y) s = .next t ∧
      t.accum c f.acc = (s.core c).acc.getD f.sa.toNat (0, 0) ∧ (∀ k, k < 4 → t.flag c k = s.flag c k))) ∧
  (∀ (s : State) (c : Core) (f : FormK) (x y : MoveF), (s.core c).sized = true →
    
    (s.canIssue c (.par (.con 0x22 f) x y) = true → ∃ t, exec (.extc c f x y) s = .next t ∧
      s.tookResult t c f.d (if f.x then cqw (wrap (rne (s.accum c f.acc).1 f.k.toNat) 36) (wrap (rne (s.accum c f.acc).2 f.k.toNat) 36)
        else cqw (sat (rne (s.accum c f.acc).1 f.k.toNat) 36) (sat (rne (s.accum c f.acc).2 f.k.toNat) 36)) none none
        (some (decide (sat (rne (s.accum c f.acc).1 f.k.toNat) 36 ≠ rne (s.accum c f.acc).1 f.k.toNat ∨
          sat (rne (s.accum c f.acc).2 f.k.toNat) 36 ≠ rne (s.accum c f.acc).2 f.k.toNat))) none ∧
      t.flag c 6 = (s.flag c 6 || !f.x && t.flag c 1)) ∧
    (s.canIssue c (.par (.con 0x23 f) x y) = true → ∃ t, exec (.extr c f x y) s = .next t ∧
      s.tookResult t c f.d (BitVec.ofInt 72 (if f.x then wrap (rne (s.accum c f.acc).1 f.k.toNat) 72 else
        sat (rne (s.accum c f.acc).1 f.k.toNat) 72)) none none
        (some (decide (sat (rne (s.accum c f.acc).1 f.k.toNat) 72 ≠ rne (s.accum c f.acc).1 f.k.toNat))) none ∧
      t.flag c 6 = (s.flag c 6 || !f.x && t.flag c 1)) ∧
    (s.canIssue c (.par (.con 0x24 f) x y) = true → ∃ t, exec (.exti c f x y) s = .next t ∧
      s.tookResult t c f.d (BitVec.ofInt 72 (if f.x then wrap (rne (s.accum c f.acc).2 f.k.toNat) 72 else
        sat (rne (s.accum c f.acc).2 f.k.toNat) 72)) none none
        (some (decide (sat (rne (s.accum c f.acc).2 f.k.toNat) 72 ≠ rne (s.accum c f.acc).2 f.k.toNat))) none ∧
      t.flag c 6 = (s.flag c 6 || !f.x && t.flag c 1)) ∧
    (s.canIssue c (.par (.con 0x25 f) x y) = true → ∃ t, exec (.lda c f x y) s = .next t ∧
      t.accum c f.acc = (if f.x then ((s.greg c f.sa).toInt * 2 ^ f.k.toNat, 0) else
        (re (s.greg c f.sa) * 2 ^ f.k.toNat, im (s.greg c f.sa) * 2 ^ f.k.toNat)) ∧ (∀ k, k < 4 → t.flag c k = s.flag c k)))

/-- The butterfly writes its two outputs, STGEND closes the stage, and the phase group gives angle, magnitude, rotation and
unwrapping. Rests on R206, R238, R239, R240. Its conclusion is that exec answers a next state for bfly, stgend, ang, mag, cis,
rot, unw. -/
def Obligations.ButterflyAndPhaseInstructions : Prop :=
  (∀ (s : State) (c : Core) (f : FormR) (x y : MoveF), (s.core c).sized = true →
    let a := s.greg c f.sa; let b := s.operandB c f;
    (s.canIssue c (.par (.reg 0x30 f) x y) = true → ∃ t, exec (.bfly c f x y) s = .next t ∧
      (let w := if f.cs then b else s.greg c f.d
      let wi := if f.md.getLsbD 1 then -im w else im w
      let z := s.greg c f.sb
      let tr := rne (re z * re w - im z * wi) 17
      let ti := rne (re z * wi + im z * re w) 17
      let k := field (s.core c).bexp 6 5
      t.greg c f.d = cqw (sat (rne (re a + tr) k) 36) (sat (rne (im a + ti) k) 36) ∧
      t.greg c (f.d ^^^ 1) = cqw (sat (rne (re a - tr) k) 36) (sat (rne (im a - ti) k) 36) ∧
      t.flag c 1 = [re a + tr, im a + ti, re a - tr, im a - ti].any (fun v => decide (sat (rne v k) 36 ≠ rne v k)) ∧
      t.flag c 3 = s.flag c 3 ∧ t.flag c 2 = s.flag c 2 ∧ t.flag c 0 = s.flag c 0 ∧
      (x = noMove → y = noMove →
        let m := [re a + tr, im a + ti, re a - tr, im a - ti].foldl (fun m v => max m (sat (rne v k) 36).natAbs) 0
        let cls := if m < 2 ^ 33 then 0 else if m < 2 ^ 34 then 1 else 2
        field (t.core c).bexp 9 8 = (if f.md.getLsbD 0 then max (field (s.core c).bexp 9 8) cls else field (s.core c).bexp 9 8) ∧
          field (t.core c).bexp 6 0 = field (s.core c).bexp 6 0))) ∧
    (s.canIssue c (.par (.reg 0x31 f) x y) = true → ∃ t, exec (.stgend c f x y) s = .next t ∧
      (x = noMove → y = noMove → (t.core c).bexp = (let e := field (s.core c).bexp 4 0
        let z := if 31 < e + field (s.core c).bexp 9 8 then 31 - e else field (s.core c).bexp 9 8
        BitVec.ofNat 10 (z * 32 + (e + z))))) ∧
    (s.canIssue c (.par (.reg 0x38 f) x y) = true → ∃ t, exec (.ang c f x y) s = .next t ∧
      s.tookZN t c f.d (BitVec.ofInt 72 (ang (re a) (im a)))) ∧
    (s.canIssue c (.par (.reg 0x39 f) x y) = true → ∃ t, exec (.mag c f x y) s = .next t ∧
      s.tookResult t c f.d (BitVec.ofInt 72 (mag (re a) (im a))) (some (decide (BitVec.ofInt 72 (mag (re a) (im a)) = 0))) none none none) ∧
    (s.canIssue c (.par (.reg 0x3A f) x y) = true → ∃ t, exec (.cis c f x y) s = .next t ∧
      s.tookResult t c f.d (cqw (cosTab (field a 15 0)) (sinTab (field a 15 0))) none none none none) ∧
    (s.canIssue c (.par (.reg 0x3B f) x y) = true → ∃ t, exec (.rot c f x y) s = .next t ∧
      (let p := field b 15 0
      let sn := if f.md.getLsbD 0 then -sinTab p else sinTab p
      s.tookComplex t c f.d (rne (re a * cosTab p - im a * sn) 17) (rne (re a * sn + im a * cosTab p) 17))) ∧
    (s.canIssue c (.par (.reg 0x3C f) x y) = true → ∃ t, exec (.unw c f x y) s = .next t ∧
      s.tookZNV t c f.d (BitVec.ofInt 72 (b.toInt + wrap (a.toInt - b.toInt) 16))
        (decide (32768 < b.toInt + wrap (a.toInt - b.toInt) 16 ∨ b.toInt + wrap (a.toInt - b.toInt) 16 < -32768))))

/-- Shifts, roundings, saturations, field operations and special register moves give their result and flags. Rests on R205, R231,
R234, R235, R241. Its conclusion is that exec answers a next state for asr, lsr, rne, shl, shlw, sat, satu, wrap, casr, crne,
cshl, mrs, msr, bits, ins, cls. -/
def Obligations.ShiftsFieldsAndSpecialRegisters : Prop :=
  (∀ (s : State) (c : Core) (f : FormK) (x y : MoveF), (s.core c).sized = true →
    let a := s.greg c f.sa; let m := if f.x then field (s.greg c f.sb) 6 0 else f.k.toNat;
    (s.canIssue c (.par (.con 0x40 f) x y) = true → ∃ t, exec (.asr c f x y) s = .next t ∧
      s.tookZN t c f.d (BitVec.ofInt 72 (a.toInt / 2 ^ m))) ∧
    (s.canIssue c (.par (.con 0x41 f) x y) = true → ∃ t, exec (.lsr c f x y) s = .next t ∧
      s.tookZN t c f.d (a >>> m)) ∧
    (s.canIssue c (.par (.con 0x42 f) x y) = true → ∃ t, exec (.rne c f x y) s = .next t ∧
      s.tookZN t c f.d (BitVec.ofInt 72 (rne a.toInt m))) ∧
    (s.canIssue c (.par (.con 0x43 f) x y) = true → ∃ t, exec (.shl c f x y) s = .next t ∧
      s.tookZNV t c f.d (BitVec.ofInt 72 (sat (a.toInt * 2 ^ m) 72)) (decide (sat (a.toInt * 2 ^ m) 72 ≠ a.toInt * 2 ^ m))) ∧
    (s.canIssue c (.par (.con 0x44 f) x y) = true → ∃ t, exec (.shlw c f x y) s = .next t ∧
      s.tookZN t c f.d (a <<< m)) ∧
    (s.canIssue c (.par (.con 0x45 f) x y) = true → ∃ t, exec (.sat c f x y) s = .next t ∧
      s.tookZNV t c f.d (BitVec.ofInt 72 (sat a.toInt f.k.toNat)) (decide (sat a.toInt f.k.toNat ≠ a.toInt))) ∧
    (s.canIssue c (.par (.con 0x46 f) x y) = true → ∃ t, exec (.satu c f x y) s = .next t ∧
      s.tookZNV t c f.d (BitVec.ofInt 72 (satu a.toInt f.k.toNat)) (decide (satu a.toInt f.k.toNat ≠ a.toInt))) ∧
    (s.canIssue c (.par (.con 0x47 f) x y) = true → ∃ t, exec (.wrap c f x y) s = .next t ∧
      s.tookZN t c f.d (BitVec.ofInt 72 (wrap a.toInt f.k.toNat))) ∧
    (s.canIssue c (.par (.con 0x48 f) x y) = true → ∃ t, exec (.casr c f x y) s = .next t ∧
      s.tookResult t c f.d (cqw (re a / 2 ^ m) (im a / 2 ^ m)) none none none none) ∧
    (s.canIssue c (.par (.con 0x49 f) x y) = true → ∃ t, exec (.crne c f x y) s = .next t ∧
      s.tookResult t c f.d (cqw (rne (re a) m) (rne (im a) m)) none none none none) ∧
    (s.canIssue c (.par (.con 0x4A f) x y) = true → ∃ t, exec (.cshl c f x y) s = .next t ∧
      s.tookComplex t c f.d (re a * 2 ^ m) (im a * 2 ^ m)) ∧
    (s.canIssue c (.par (.con 0x12 f) x y) = true → ∃ t, exec (.mrs c f x y) s = .next t ∧
      s.tookZN t c f.d ((s.core c).special f.k.toNat)) ∧
    (s.canIssue c (.par (.con 0x13 f) x y) = true → ∃ t, exec (.msr c f x y) s = .next t ∧
      ((s.core c).loops = [] → x = noMove → y = noMove → (t.core c).special f.k.toNat =
        ((s.core c).setSpecial f.k.toNat a).special f.k.toNat))) ∧
  (∀ (s : State) (c : Core) (f : FormF) (x y : MoveF), (s.core c).sized = true →
    
    (s.canIssue c (.par (.fld 0x4B f) x y) = true → ∃ t, exec (.bits c f x y) s = .next t ∧
      s.tookZN t c f.d (BitVec.ofNat 72 ((s.greg c f.sa).toNat / 2 ^ f.k.toNat % 2 ^ (f.w.toNat + 1)))) ∧
    (s.canIssue c (.par (.fld 0x4C f) x y) = true → ∃ t, exec (.ins c f x y) s = .next t ∧
      s.tookZN t c f.d (withField (s.greg c f.d) (f.k.toNat + f.w.toNat) f.k.toNat ((s.greg c f.sa).toNat % 2 ^ (f.w.toNat + 1))))) ∧
  (∀ (s : State) (c : Core) (f : FormR) (x y : MoveF), (s.core c).sized = true →
    let a := s.greg c f.sa;
    (s.canIssue c (.par (.reg 0x4D f) x y) = true → ∃ t, exec (.cls c f x y) s = .next t ∧
      s.tookResult t c f.d (BitVec.ofNat 72 (leadCount a 71)) (some (decide (BitVec.ofNat 72 (leadCount a 71) = 0))) none none none))

/-- Decoding the word of any legal Soric instruction gives that instruction back, and words written out from the tables decode as
they say. Rests on R224, R225, R226, R227, R231, R243, R247. -/
def Obligations.SoricDecodeOfEncode : Prop :=
  (∀ (i : Soric) (pc : Nat), i.ok pc = true → decodeSoric i.encode = some i) ∧
  decodeSoric 0x0170814028C84198 =
    some (.par (.reg 0x02 ⟨14, 1, 0, 0, true, 2, false, 0⟩) ⟨1, 1, 0, true, 9⟩ ⟨2, 0, 1, true, 3⟩) ∧
  decodeSoric 0x8118028000000000 = some (.br 1 0x401 1) ∧
  decodeSoric 0x84C80007FF000000 = some (.loop true 9 0 0x7FF) ∧
  decodeSoric 0xC580000000000001 = some (.lig 5 0x80000000000001) ∧
  decodeSoric 0x8500000000000000 = some .halt ∧
  decodeSoric 0x8500000000000001 = none ∧ decodeSoric 0x4000000000000000 = none ∧ decodeSoric 0x0C80000000000000 = none

/-- The model's lnq is within 2^-100 of the integer nearest to 2^24 times the natural logarithm. Rests on R172, R232. The model's
choice: lnq is computed with 200 fraction bits and then rounded (log entry 11), so the statement leaves a margin of 2^-100 at a
tie, where R172 has none. -/
def Obligations.LogarithmOfLnq : Prop :=
  ∀ x : Nat, 1 ≤ x → x < 2 ^ 71 → |(2 : ℝ) ^ 24 * Real.log (x : ℝ) - (lnq x : ℝ)| ≤ 1 / 2 + 1 / 2 ^ 100

/-- A command of a core issues its instruction: it acts, or faults by the checks in their order, or the core does not run. Rests on
R197, R210, R211, R226, R227, R230, R237, R241, R244, R245, R248, R428. The model's choice: a command of a core that does not
run changes nothing (log entry 2). -/
def Obligations.CoreCommandsIssueTheirInstruction : Prop :=
  (∀ (i : Instr) (c : Core) (w : Soric) (s : State), coreWord i = some (c, w) → s.canIssue c w = true →
    exec i s = .next (s.act c w)) ∧
  (∀ (i : Instr) (c : Core) (w : Soric) (s : State) (why : Nat), coreWord i = some (c, w) → (s.core c).mode = .running →
    (s.core c).vendor = false → s.stalled = false → s.issueFault c w = some why →
    exec i s = .next ((s.setCore c { s.core c with mode := .fault, why := why, faultPc := (s.core c).pc }).fault
      (Reg.clFault (c / 8)) (2 ^ (c.val % 8)))) ∧
  (∀ (i : Instr) (c : Core) (w : Soric) (s : State), coreWord i = some (c, w) →
    (s.core c).mode ≠ .running ∨ (s.core c).vendor = true ∨ s.stalled = true → exec i s = .next s) ∧
  (∀ (s : State) (c : Core) (w : Soric), w.ok (s.core c).pc = false → s.issueFault c w = some 1) ∧
  (∀ (op : BitVec 7) (f : FormK), (op = 0x22 ∨ op = 0x23 ∨ op = 0x24) ∧ 79 < f.k.toNat ∨
    (op = 0x45 ∨ op = 0x47) ∧ (f.k = 0 ∨ 72 < f.k.toNat) → (Slot.con op f).ok = false) ∧
  (∀ (op : BitVec 7) (f : FormF), 71 < f.k.toNat + f.w.toNat → (Slot.fld op f).ok = false) ∧
  (∀ (sl : Slot) (x y : MoveF) (pc : Nat), sl.ok = false ∨ moveOk x = false ∨ moveOk y = false ∨
    ¬ (sl.dests ++ (if moveLoads x then [x.greg.toNat] else []) ++ (if moveLoads y then [y.greg.toNat] else [])).Nodup ∨
    ¬ (sl.cMods ++ (if moveMods x then [x.ptr.toNat] else []) ++ (if moveMods y then [y.ptr.toNat] else [])).Nodup →
    (Soric.par sl x y).ok pc = false) ∧
  (∀ (rc : Bool) (a : BitVec 4) (n : BitVec 16) (e : BitVec 11) (pc : Nat), e.toNat < pc + 1 → (Soric.loop rc a n e).ok pc = false) ∧
  (∀ (r : BitVec 4) (wt : Bool) (pc : Nat), r.toNat % 4 ≠ 0 →
    (Soric.send r).ok pc = false ∧ (Soric.recv r wt).ok pc = false ∧ (Soric.rbnc r wt).ok pc = false) ∧
  (∀ (s : State) (c : Core) (rc : Bool) (a : BitVec 4) (n : BitVec 16) (e : BitVec 11),
    (Soric.loop rc a n e).ok (s.core c).pc = true →
    (2 ≤ (s.core c).loops.length → s.issueFault c (.loop rc a n e) = some 3) ∧
    (∀ o, (s.core c).loops = [o] → s.issueFault c (.loop rc a n e) = if o.last < e.toNat then some 3 else none) ∧
    ((s.core c).loops = [] → s.issueFault c (.loop rc a n e) = none)) ∧
  (∀ (s : State) (c : Core) (cc a : BitVec 4) (tg : BitVec 11) (n : BitVec 2),
    s.issueFault c (.br cc tg n) = (if (s.core c).loops.length < n.toNat then some 3 else none) ∧
    s.issueFault c (.jmp cc a n) = (if (s.core c).loops.length < n.toNat then some 3 else none)) ∧
  (∀ (s : State) (c : Core) (sl : Slot) (x y : MoveF), (Soric.par sl x y).ok (s.core c).pc = true →
    let at' (m : MoveF) := ((s.core c).p.getD m.ptr.toNat 0).toNat
    let bad (m : MoveF) : Bool := (moveLoads m || moveStores m) &&
      (decide ((if m.space = 0 then 4096 else if m.space = 1 then 65536 else 64) ≤ at' m) ||
        moveStores m && decide (m.space = 1) && decide (at' m < 0x4000) && s.vendorOn (c / 8))
    let badC : Bool := match sl with
      | .reg _ f => f.cs && decide (2048 ≤ ((s.core c).p.getD f.cp.toNat 0).toNat)
      | _ => false
    s.issueFault c (.par sl x y) = if badC || bad x || bad y then some 2 else none)

/-- A parallel instruction changes only its core, the words its moves store, and what a port access names. Rests on R197, R198,
R203, R204, R206, R207, R226, R228, R229, R236. -/
def Obligations.ParallelInstructionFrame : Prop :=
  ∀ (i : Instr) (c : Core) (sl : Slot) (x y : MoveF) (s : State), coreWord i = some (c, .par sl x y) →
    s.canIssue c (.par sl x y) = true → ∃ t, exec i s = .next t ∧
    (∀ k, k ≠ c.val → t.core k = s.core k) ∧ t.imem = s.imem ∧ t.dram = s.dram ∧ t.zones = s.zones ∧ t.fabric = s.fabric ∧
    t.returning = s.returning ∧ t.probe = s.probe ∧ t.wide = s.wide ∧ t.descs = s.descs ∧ t.heads = s.heads ∧ t.ces = s.ces ∧
    t.time = s.time ∧ t.lanes = s.lanes ∧ t.scheds = s.scheds ∧ t.tdcs = s.tdcs ∧ t.chains = s.chains ∧ t.zoneSts = s.zoneSts ∧
    t.evq = s.evq ∧ t.od = s.od ∧ t.queues = s.queues ∧ t.dmas = s.dmas ∧ t.lamps = s.lamps ∧ t.padc = s.padc ∧ t.nvm = s.nvm ∧
    t.boot = s.boot ∧ t.sessions = s.sessions ∧
    (∀ k, k ≠ c / 8 → t.cluster k = s.cluster k) ∧
    (∀ r : BitVec 4, r.toNat ∉ sl.dests → (moveLoads x = true → r ≠ x.greg) → (moveLoads y = true → r ≠ y.greg) →
      t.greg c r = s.greg c r) ∧
    (∀ n : BitVec 2, (match sl with
        | .reg op f => (op = 0x21 ∨ op = 0x26 ∨ op = 0x27) ∧ f.acc = n
        | .con op f => op = 0x25 ∧ f.acc = n
        | .fld _ _ => False) ∨ t.accum c n = s.accum c n) ∧
    (∀ k : Fin 8, k.val ∉ sl.cMods ++ (if moveMods x then [x.ptr.toNat] else []) ++ (if moveMods y then [y.ptr.toNat] else []) →
      sl.msrP ≠ some k.val → (t.core c).p.getD k 0 = (s.core c).p.getD k 0) ∧
    (sl.op ≠ 0x13 → (t.core c).m = (s.core c).m ∧ (t.core c).l = (s.core c).l ∧ (t.core c).b = (s.core c).b ∧
      ((s.core c).loops = [] → (t.core c).lc = (s.core c).lc)) ∧
    (t.core c).role = (s.core c).role ∧ (t.core c).epoch = (s.core c).epoch ∧ (t.core c).vendor = (s.core c).vendor ∧
    (t.core c).inbox = (s.core c).inbox ∧ (t.core c).bounce = (s.core c).bounce ∧
    (∀ k, (moveStores x = true → x.space = 0 → k ≠ cmemKey c 0 ((s.core c).p.getD x.ptr.toNat 0).toNat) →
      (moveStores y = true → y.space = 0 → k ≠ cmemKey c 1 ((s.core c).p.getD y.ptr.toNat 0).toNat) →
      t.cmem.get 0 k = s.cmem.get 0 k) ∧
    (∀ k, (moveStores x = true → x.space = 1 → k ≠ 65536 * (c / 8) + ((s.core c).p.getD x.ptr.toNat 0).toNat) →
      (moveStores y = true → y.space = 1 → k ≠ 65536 * (c / 8) + ((s.core c).p.getD y.ptr.toNat 0).toNat) →
      t.sram.get 0 k = s.sram.get 0 k) ∧
    ((s.core c).loops = [] → (s.core c).pc < 2047 → (moveStores x = true → x.space ≠ 2) → (moveStores y = true → y.space ≠ 2) →
      ∀ a, a ≠ Reg.clCoreCycles (c / 8) (c % 8) → a ≠ Reg.clCoreStalls (c / 8) (c % 8) → a ≠ Reg.clConflictCnt (c / 8) →
        t.reg a = s.reg a)

/-- A move loads or stores the word its pointer names and post-modifies the pointer when told to. Rests on R135, R198, R201, R206,
R207, R208, R209, R226. Its conclusion is that exec answers a next state for moveLd, moveStd, moveSt, moveModify. -/
def Obligations.MoveInstructions : Prop :=
  (∀ (s : State) (c : Core) (ys pm : Bool) (ptr : BitVec 3) (g : BitVec 4), (s.core c).sized = true →
    s.canIssue c (oneMove ys ⟨1, 0, ptr, pm, g⟩) = true → ∃ t, exec (.moveLd c ys 0 ptr pm g) s = .next t ∧
      t.greg c g = s.cmem.get 0 (cmemKey c (if ys then 1 else 0) ((s.core c).p.getD ptr.toNat 0).toNat) ∧
      (t.core c).p.getD ptr.toNat 0 = (if pm then (postMod (s.core c) ptr.toNat).1 else (s.core c).p.getD ptr.toNat 0) ∧
      t.cmem = s.cmem ∧ t.sram = s.sram) ∧
  (∀ (s : State) (c : Core) (ys pm : Bool) (ptr : BitVec 3) (g : BitVec 4), (s.core c).sized = true →
    s.canIssue c (oneMove ys ⟨1, 1, ptr, pm, g⟩) = true → ∃ t, exec (.moveLd c ys 1 ptr pm g) s = .next t ∧
      t.greg c g = s.sram.get 0 (65536 * (c / 8) + ((s.core c).p.getD ptr.toNat 0).toNat) ∧ t.cmem = s.cmem ∧ t.sram = s.sram) ∧
  (∀ (s : State) (c : Core) (ys pm : Bool) (ptr : BitVec 3) (g : BitVec 4), (s.core c).sized = true →
    (s.core c).p.getD ptr.toNat 0 = 2 → s.canIssue c (oneMove ys ⟨1, 2, ptr, pm, g⟩) = true →
    ∃ t, exec (.moveLd c ys 2 ptr pm g) s = .next t ∧ t.greg c g = s.stamp) ∧
  (∀ (s : State) (c : Core) (ys pm : Bool) (ptr : BitVec 3) (g : BitVec 4), (s.core c).sized = true →
    s.canIssue c (oneMove ys ⟨1, 2, ptr, pm, g⟩) = true →
    let a := ((s.core c).p.getD ptr.toNat 0).toNat
    let sem := (s.cluster (c / 8)).sems.getD (a - 8) 0
    ∃ t, exec (.moveLd c ys 2 ptr pm g) s = .next t ∧
      (∀ ch, s.served (c / 8) = some ch → (a = 0 → t.greg c g = (s.reg (Reg.ceOutWp ch)).zeroExtend 72) ∧
        (a = 1 → t.greg c g = (s.reg (Reg.ceOutRp ch)).zeroExtend 72) ∧
        (a = 3 → t.greg c g = BitVec.ofNat 72 (c / 8 * 2 ^ 16 + c % 8 * 2 ^ 8 + 2 ^ 5 + ch))) ∧
      (s.served (c / 8) = none → (a = 0 ∨ a = 1 → t.greg c g = 0) ∧
        (a = 3 → t.greg c g = BitVec.ofNat 72 (c / 8 * 2 ^ 16 + c % 8 * 2 ^ 8 + s.fld (Reg.clAssign (c / 8)) 4 0))) ∧
      (8 ≤ a → a < 16 → (s.cluster (c / 8)).sems.length = 8 → t.greg c g = sem ∧
        (t.cluster (c / 8)).sems.getD (a - 8) 0 = sem ||| 1) ∧
      (4 ≤ a → a < 8 ∨ 16 ≤ a → t.greg c g = 0 ∧ t.cluster (c / 8) = s.cluster (c / 8))) ∧
  (∀ (s : State) (c : Core) (ys pm std : Bool) (ptr : BitVec 3) (g : BitVec 4),
    s.canIssue c (oneMove ys ⟨if std then 3 else 2, 2, ptr, pm, g⟩) = true →
    let a := ((s.core c).p.getD ptr.toNat 0).toNat
    ∃ t, exec (if std then .moveStd c ys 2 ptr pm g else .moveSt c ys 2 ptr pm g) s = .next t ∧ t.cmem = s.cmem ∧ t.sram = s.sram ∧
      (∀ ch, a = 1 → s.served (c / 8) = some ch →
        if (s.reg (Reg.ceOutWp ch) - (s.greg c g).extractLsb' 0 32).toNat ≤ s.fld (Reg.ceOutLen ch) 16 0 then
          t.reg (Reg.ceOutRp ch) = (s.greg c g).extractLsb' 0 32
        else t.reg (Reg.ceOutRp ch) = s.reg (Reg.ceOutRp ch) ∧ t.rbit (Reg.clFault (c / 8)) 9 = true) ∧
      (8 ≤ a → a < 16 → (s.cluster (c / 8)).sems.length = 8 → (t.cluster (c / 8)).sems.getD (a - 8) 0 = s.greg c g) ∧
      (a < 8 ∨ 16 ≤ a → t.cluster (c / 8) = s.cluster (c / 8))) ∧
  (∀ (s : State) (c : Core) (ys pm : Bool) (ptr : BitVec 3) (g : BitVec 4),
    s.canIssue c (oneMove ys ⟨3, 1, ptr, pm, g⟩) = true → ∃ t, exec (.moveStd c ys 1 ptr pm g) s = .next t ∧
      t.sram = s.sram.set 0 (65536 * (c / 8) + ((s.core c).p.getD ptr.toNat 0).toNat) (s.greg c g) ∧ t.cmem = s.cmem ∧
      field (t.core c).bexp 9 8 = max (field (s.core c).bexp 9 8) (detClass (s.greg c g))) ∧
  (∀ (s : State) (c : Core) (ys pm : Bool) (ptr : BitVec 3) (g : BitVec 4),
    s.canIssue c (oneMove ys ⟨2, 0, ptr, pm, g⟩) = true → ∃ t, exec (.moveSt c ys 0 ptr pm g) s = .next t ∧
      t.cmem = s.cmem.set 0 (cmemKey c (if ys then 1 else 0) ((s.core c).p.getD ptr.toNat 0).toNat) (s.greg c g) ∧
      t.sram = s.sram ∧ (t.core c).g = (s.core c).g) ∧
  (∀ (s : State) (c : Core) (ys pm : Bool) (ptr : BitVec 3) (g : BitVec 4),
    s.canIssue c (oneMove ys ⟨2, 1, ptr, pm, g⟩) = true → ∃ t, exec (.moveSt c ys 1 ptr pm g) s = .next t ∧
      t.sram = s.sram.set 0 (65536 * (c / 8) + ((s.core c).p.getD ptr.toNat 0).toNat) (s.greg c g) ∧ t.cmem = s.cmem) ∧
  (∀ (s : State) (c : Core) (ys pm : Bool) (ptr : BitVec 3) (g : BitVec 4),
    s.canIssue c (oneMove ys ⟨3, 0, ptr, pm, g⟩) = true → ∃ t, exec (.moveStd c ys 0 ptr pm g) s = .next t ∧
      t.cmem = s.cmem.set 0 (cmemKey c (if ys then 1 else 0) ((s.core c).p.getD ptr.toNat 0).toNat) (s.greg c g) ∧
      field (t.core c).bexp 9 8 = max (field (s.core c).bexp 9 8) (detClass (s.greg c g)) ∧
      field (t.core c).bexp 6 0 = field (s.core c).bexp 6 0) ∧
  (∀ (s : State) (c : Core) (ys : Bool) (ptr : BitVec 3), (s.core c).sized = true →
    s.canIssue c (oneMove ys ⟨4, 0, ptr, true, 0⟩) = true → ∃ t, exec (.moveModify c ys ptr) s = .next t ∧
      (t.core c).p.getD ptr.toNat 0 = (postMod (s.core c) ptr.toNat).1 ∧ (t.core c).g = (s.core c).g ∧ t.cmem = s.cmem ∧
      t.sram = s.sram) ∧
  (∀ (x : CoreSt) (i : Nat), field (x.l.getD i 0) 17 16 = 0 → postMod x i = (x.p.getD i 0 + x.m.getD i 0, false))

/-- Branches, calls, hardware loops and HALT set the PC, the return address, the loop counter and the core's state. Rests on R202,
R244, R245, R246. Its conclusion is that exec answers a next state for br, call, jmp, loop, halt. -/
def Obligations.BranchesAndLoops : Prop :=
  (∀ (s : State) (c : Core) (cc : BitVec 4) (tg : BitVec 11) (n : BitVec 2), s.canIssue c (.br cc tg n) = true →
    (s.core c).cond cc = true → ∃ t, exec (.br c cc tg n) s = .next t ∧ (t.core c).pc = tg.toNat ∧
      (t.core c).loops = (s.core c).loops.take ((s.core c).loops.length - n.toNat) ∧ (t.core c).g = (s.core c).g) ∧
  (∀ (s : State) (c : Core) (cc : BitVec 4) (tg : BitVec 11) (n : BitVec 2), s.canIssue c (.br cc tg n) = true →
    (s.core c).cond cc = false → (s.core c).loops = [] → (s.core c).pc < 2047 → ∃ t, exec (.br c cc tg n) s = .next t ∧
      (t.core c).pc = (s.core c).pc + 1 ∧ (t.core c).mode = .running ∧ (t.core c).g = (s.core c).g) ∧
  (∀ (s : State) (c : Core) (d : BitVec 4) (tg : BitVec 11), s.canIssue c (.call d tg) = true → (s.core c).sized = true →
    ∃ t, exec (.call c d tg) s = .next t ∧ (t.core c).pc = tg.toNat ∧ t.greg c d = BitVec.ofNat 72 ((s.core c).pc + 1) ∧
      (t.core c).loops = (s.core c).loops) ∧
  (∀ (s : State) (c : Core) (cc a : BitVec 4) (n : BitVec 2), s.canIssue c (.jmp cc a n) = true → (s.core c).cond cc = true →
    ∃ t, exec (.jmp c cc a n) s = .next t ∧ (t.core c).pc = (s.greg c a).toNat % 2048 ∧ (t.core c).g = (s.core c).g) ∧
  (∀ (s : State) (c : Core) (rc : Bool) (a : BitVec 4) (n : BitVec 16) (e : BitVec 11), s.canIssue c (.loop rc a n e) = true →
    (s.core c).sized = true → ∃ t, exec (.loop c rc a n e) s = .next t ∧
      (t.core c).lc.getD (s.core c).loops.length 0 = (if rc then BitVec.ofNat 16 (s.greg c a).toNat else n) ∧
      (t.core c).loops = (s.core c).loops ++ [{ first := (s.core c).pc + 1, last := e.toNat }] ∧
      (t.core c).pc = (s.core c).pc + 1) ∧
  (∀ (s : State) (c : Core), s.canIssue c .halt = true → (s.core c).loops = [] → (s.core c).pc < 2047 →
    ∃ t, exec (.halt c) s = .next t ∧ (t.core c).mode = .halted ∧ (t.core c).pc = (s.core c).pc + 1 ∧ (t.core c).g = (s.core c).g)

/-- SEND, RECV, RBNC and DBELL move messages and raise the core's vector, and LIG, LIH and LIS load constants. Rests on R215, R216,
R217, R234, R246, R247. Its conclusion is that exec answers a next state for send, recv, rbnc, dbell, lig, lih, lis. -/
def Obligations.MessagesDoorbellsAndConstants : Prop :=
  (∀ (s : State) (c : Core) (r : BitVec 4), s.canIssue c (.send r) = true → ∃ t, exec (.send c r) s = .next t ∧
    t.fabric = s.fabric ++ [⟨sendHeader (s.greg c r) 0 (c / 8) (c.val % 8) (s.core c).role.toNat (s.core c).epoch.toNat,
      s.greg c (r + 1), s.greg c (r + 2), s.greg c (r + 3)⟩] ∧ (t.core c).g = (s.core c).g) ∧
  (∀ (s : State) (c : Core) (r : BitVec 4) (w : Bool) (m : Msg) (rest : List Msg), s.canIssue c (.recv r w) = true →
    (s.core c).sized = true → (s.core c).inbox = m :: rest → ∃ t, exec (.recv c r w) s = .next t ∧ t.greg c r = m.h ∧
      t.greg c (r + 1) = m.w1 ∧ t.greg c (r + 2) = m.w2 ∧ t.greg c (r + 3) = m.w3 ∧ t.flag c 3 = false ∧
      (t.core c).inbox = rest ∧ (t.core c).bounce = (s.core c).bounce) ∧
  (∀ (s : State) (c : Core) (r : BitVec 4), s.canIssue c (.recv r true) = true → (s.core c).inbox = [] →
    ∃ t, exec (.recv c r true) s = .next t ∧ (t.core c).pc = (s.core c).pc ∧ (t.core c).g = (s.core c).g) ∧
  (∀ (s : State) (c : Core) (r : BitVec 4), s.canIssue c (.recv r false) = true → (s.core c).inbox = [] →
    ∃ t, exec (.recv c r false) s = .next t ∧ t.flag c 3 = true ∧ (t.core c).g = (s.core c).g) ∧
  (∀ (s : State) (c : Core) (r : BitVec 4) (w : Bool) (m : Msg) (rest : List Msg), s.canIssue c (.rbnc r w) = true →
    (s.core c).sized = true → (s.core c).bounce = m :: rest → ∃ t, exec (.rbnc c r w) s = .next t ∧ t.greg c r = m.h ∧
      t.greg c (r + 1) = m.w1 ∧ t.greg c (r + 2) = m.w2 ∧
      t.greg c (r + 3) = m.w3 ∧ t.flag c 3 = false ∧ (t.core c).bounce = rest ∧ (t.core c).inbox = (s.core c).inbox) ∧
  (∀ (s : State) (c : Core) (r : BitVec 4), s.canIssue c (.rbnc r true) = true → (s.core c).bounce = [] →
    ∃ t, exec (.rbnc c r true) s = .next t ∧ (t.core c).pc = (s.core c).pc ∧ (t.core c).g = (s.core c).g ∧
      (t.core c).inbox = (s.core c).inbox) ∧
  (∀ (s : State) (c : Core) (r : BitVec 4), s.canIssue c (.rbnc r false) = true → (s.core c).bounce = [] →
    ∃ t, exec (.rbnc c r false) s = .next t ∧ t.flag c 3 = true ∧ (t.core c).g = (s.core c).g ∧
      (t.core c).inbox = (s.core c).inbox) ∧
  (∀ (s : State) (c : Core), s.canIssue c .dbell = true → ∃ t, exec (.dbell c) s = .next t ∧
    t.rbit (Reg.attnLatch (8 + c / 32)) (c.val % 32) = true ∧ (t.core c).g = (s.core c).g) ∧
  (∀ (s : State) (c : Core) (r : BitVec 4) (v : BitVec 56), s.canIssue c (.lig r v) = true → (s.core c).sized = true →
    ∃ t, exec (.lig c r v) s = .next t ∧ t.greg c r = v.signExtend 72 ∧ ∀ k, k ≠ r → t.greg c k = s.greg c k) ∧
  (∀ (s : State) (c : Core) (r : BitVec 4) (v : BitVec 16), s.canIssue c (.lih r v) = true → (s.core c).sized = true →
    ∃ t, exec (.lih c r v) s = .next t ∧ t.greg c r = v ++ (s.greg c r).extractLsb' 0 56 ∧
      ∀ k, k ≠ r → t.greg c k = s.greg c k) ∧
  (∀ (s : State) (c : Core) (k : BitVec 7) (v : BitVec 18), s.canIssue c (.lis k v) = true → (s.core c).sized = true →
    (s.core c).loops = [] → ∃ t, exec (.lis c k v) s = .next t ∧ (t.core c).g = (s.core c).g ∧
      (t.core c).special k.toNat = ((s.core c).setSpecial k.toNat (v.zeroExtend 72)).special k.toNat)

/-- A step that runs an instruction of a core keeps every memory in canonical form and every core's register files whole. Rests on
R201, R203, R204, R207, R226, R228, R246. -/
def Obligations.CoreInstructionsKeepStateWellFormed : Prop :=
  ∀ (s t : State) (i : Instr) (rest : List Instr) (c : Core) (w : Soric), s.pending = i :: rest → coreWord i = some (c, w) →
    s.memoryWf = true → (∀ k, (s.core k).sized = true) → step s = .next t →
    t.memoryWf = true ∧ (∀ k, (t.core k).sized = true) ∧ t.pending = rest

/-- COMMIT, HALT, RUN and RELEASE act on a user core in the states the table names, and bounce the inbox of a core that changes its
role. Rests on R200, R210, R211, R214, R216. Its conclusion is that exec answers a next state for coreCommit, coreHalt, coreRun,
coreRelease. -/
def Obligations.UserCoreCommands : Prop :=
  (∀ (s : State) (q : Req) (c : Core) (role : BitVec 4), s.shut = false → 8 ≤ role.toNat → (s.core c).vendor = false → (s.core c).mode ≠ .running →
    s.needed (coreCl c) (corePl c) = none → s.dspPowered (coreCl c) = true →
    ∃ t, exec (.coreCommit q c role) s = .next t ∧
      t.core c = { mode := .running, role := role, epoch := (s.core c).epoch + 1,
                   pc := s.fld (Reg.clCoreEntry (coreCl c) (corePl c)) 10 0 } ∧
      ((∀ m ∈ (s.core c).inbox, msgKind m = 0) → t.returning = s.returning ++ (s.core c).inbox.map (bounced · 3)) ∧
      ∀ k, k ≠ c.val → t.core k = s.core k) ∧
  (∀ (s : State) (q : Req) (c : Core), s.shut = false → (s.core c).vendor = false → (s.core c).mode = .running →
    ∃ t, exec (.coreHalt q c) s = .next t ∧ t.core c = { s.core c with mode := .halted, cycle := (t.core c).cycle, ready := .empty } ∧
      (s.core c).cycle ≤ (t.core c).cycle ∧ t.fabric = s.fabric ∧
      t.returning = s.returning ∧ ∀ k, k ≠ c.val → t.core k = s.core k) ∧
  (∀ (s : State) (q : Req) (c : Core), s.shut = false → (s.core c).vendor = false → (s.core c).mode = .halted →
    ∃ t, exec (.coreRun q c) s = .next t ∧ t.core c = { s.core c with mode := .running } ∧ t.fabric = s.fabric ∧
      t.returning = s.returning ∧ ∀ k, k ≠ c.val → t.core k = s.core k) ∧
  (∀ (s : State) (q : Req) (c : Core), s.shut = false → (s.core c).vendor = false → (s.core c).mode = .halted ∨ (s.core c).mode = .fault →
    (∀ p, s.needed (coreCl c) p = none) → ∃ t, exec (.coreRelease q c) s = .next t ∧
      t.core c = { s.core c with mode := .free, role := 0, epoch := (s.core c).epoch + 1, inbox := [], bounce := [] } ∧
      ((∀ m ∈ (s.core c).inbox, msgKind m = 0) → t.returning = s.returning ++ (s.core c).inbox.map (bounced · 1)) ∧
      ∀ k, k ≠ c.val → t.core k = s.core k) ∧
  (∀ (s : State) (q : Req) (c : Core) (role : BitVec 4), s.shut = false → (s.core c).vendor = true ∨ (s.core c).mode = .running →
    exec (.coreCommit q c role) s = .next (s.err (clBase (coreCl c)) .busy (coreCtrlOff (corePl c)) q)) ∧
  (∀ (s : State) (q : Req) (c : Core) (role : BitVec 4), s.shut = false → role.toNat < 8 → (s.core c).vendor = false → (s.core c).mode ≠ .running →
    s.needed (coreCl c) (corePl c) = none → s.dspPowered (coreCl c) = true →
    exec (.coreCommit q c role) s = .next (s.err (clBase (coreCl c)) .range (coreCtrlOff (corePl c)) q)) ∧
  (∀ (s : State) (q : Req) (c : Core), s.shut = false → (s.core c).vendor = true ∨ (s.core c).mode ≠ .running →
    exec (.coreHalt q c) s = .next (s.err (clBase (coreCl c)) .busy (coreCtrlOff (corePl c)) q)) ∧
  (∀ (s : State) (q : Req) (c : Core), s.shut = false → (s.core c).vendor = true ∨ (s.core c).mode ≠ .halted →
    exec (.coreRun q c) s = .next (s.err (clBase (coreCl c)) .busy (coreCtrlOff (corePl c)) q)) ∧
  (∀ (s : State) (q : Req) (c : Core),
    s.shut = false → (s.core c).vendor = true ∨ (s.core c).mode = .free ∨ (s.core c).mode = .running →
    exec (.coreRelease q c) s = .next (s.err (clBase (coreCl c)) .busy (coreCtrlOff (corePl c)) q))

/-- An accepted ASSIGN write sets the channel served, a vendor reload advances every vendor core, and gating a domain frees its
cores and empties its memories. Rests on R194, R197, R211, R213, R214, R218, R219, R427. The model's choice: a fault of a core
that runs no vendor role, and an end of a transition that is not under way, change nothing (log entry 2). Its conclusion is that
exec answers a next state for assignWrite, vendorReload, dspDomainGated. -/
def Obligations.ServiceOfAChannel : Prop :=
  (∀ (s : State) (q : Req) (cl : Clus) (v : W32), s.shut = false → s.assignCheck cl v = none →
    ∃ t, exec (.assignWrite q cl v) s = .next t ∧ t.served cl = (if bitOf v 8 then some (field v 4 0) else none) ∧
      ∀ k, k < 32 → k ≠ cl.val → t.served k = s.served k) ∧
  (∀ (s : State) (q : Req) (cl : Clus) (v : W32) (c : Cause), s.shut = false → s.assignCheck cl v = some c →
    exec (.assignWrite q cl v) s = .next (s.err (clBase cl) c 0 q)) ∧
  (∀ (s : State) (f : Core) (ch : Nat), (s.core f).vendor = true → s.served (f / 8) = some ch →
    ∃ t, exec (.vendorReload f) s = .next t ∧
      (∀ c : Fin 8, t.core (8 * (f / 8) + c) = (if (s.core (8 * (f / 8) + c)).vendor then
        { mode := .running, vendor := true, role := (s.core (8 * (f / 8) + c)).role, epoch := (s.core (8 * (f / 8) + c)).epoch + 1 }
        else s.core (8 * (f / 8) + c))) ∧
      t.rbit (Reg.clFault (f / 8)) (f % 8) = true ∧ t.rbit (Reg.clFault (f / 8)) 8 = true ∧ (t.chain ch).restart = true) ∧
  (∀ (s : State) (f : Core), (s.core f).vendor = false → exec (.vendorReload f) s = .next s) ∧
  (∀ (s : State) (b : Bool), s.rbit Reg.sysPwrStat b.toNat = false ∨ s.rbit Reg.sysPwrStat (8 + b.toNat) = false ∨
    s.rbit Reg.sysPwrCtrl b.toNat = true → exec (.dspDomainGated b) s = .next s) ∧
  (∀ (s : State) (b : Bool), s.rbit Reg.sysPwrStat b.toNat = true → s.rbit Reg.sysPwrStat (8 + b.toNat) = true →
    s.rbit Reg.sysPwrCtrl b.toNat = false → ∃ t, exec (.dspDomainGated b) s = .next t ∧
    t.rbit Reg.sysPwrStat b.toNat = false ∧ t.rbit Reg.sysPwrStat (8 + b.toNat) = false ∧
    (∀ cl : Fin 16, t.dspPowered (16 * b.toNat + cl) = false ∧ ∀ c : Fin 8,
      t.core (8 * (16 * b.toNat + cl) + c) = { epoch := (s.core (8 * (16 * b.toNat + cl) + c)).epoch + 1 }) ∧
    (∀ a, a < 65536 * 16 → t.sram.get 0 (65536 * 16 * b.toNat + a) = 0) ∧
    (∀ a, a < 131072 * 16 → t.cmem.get 0 (131072 * 16 * b.toNat + a) = 0) ∧
    (∀ a, a < 16384 * 16 → t.imem.get 0 (16384 * 16 * b.toNat + a) = 0) ∧
    (∀ k, k < 128 → t.core (128 * (!b).toNat + k) = s.core (128 * (!b).toNat + k)))

/-- A message is checked at its destination, enters the inbox, the host queue or goes back with its reason; the host's send and pops
act on one entry. Rests on R215, R216, R217. Its conclusion is that exec answers a next state for messageArrive, messageBounce,
hostSend, hostOutPop, hostBncPop. -/
def Obligations.MessagesAndHostQueues : Prop :=
  (∀ (s : State) (m : Msg) (a r : List Msg), s.fabric = a ++ m :: r → (∀ z ∈ a, sameWay m z = false) → msgHost m = false →
    s.msgFails m = none →
    exec (.messageArrive a.length) s = .next (({ s with fabric := a ++ r } : State).setCore (8 * msgDcl m + msgDcore m)
      { s.core (8 * msgDcl m + msgDcore m) with inbox := (s.core (8 * msgDcl m + msgDcore m)).inbox ++ [m] })) ∧
  (∀ (s : State) (m : Msg) (a r : List Msg) (why : Nat), s.fabric = a ++ m :: r → (∀ z ∈ a, sameWay m z = false) →
    msgHost m = false → s.msgFails m = some why → msgKind m = 0 →
    exec (.messageArrive a.length) s = .next { s with
      fabric := a ++ r
      returning := s.returning ++ [bounced m why] }) ∧
  (∀ (s : State) (m : Msg) (r : List Msg) (why : Nat), s.fabric = m :: r → msgHost m = false → s.msgFails m = some why →
    (msgKind m = 1 ∨ msgKind m = 2) →
    ∃ t, exec (.messageArrive 0) s = .next t ∧ t.fabric = r ∧ (∀ k, t.core k = s.core k) ∧
      (t.cluster (msgScl m)).hostOut = (s.cluster (msgScl m)).hostOut ∧
      ((s.cluster (msgScl m)).hostBnc.length < 8 →
        (t.cluster (msgScl m)).hostBnc = (s.cluster (msgScl m)).hostBnc ++ [bounced m why]) ∧
      (8 ≤ (s.cluster (msgScl m)).hostBnc.length → (t.cluster (msgScl m)).hostBnc = (s.cluster (msgScl m)).hostBnc ∧
        t.rbit (Reg.clFault (msgScl m)) 10 = true)) ∧
  (∀ (s : State) (m : Msg) (r : List Msg), s.fabric = m :: r → msgHost m = true → msgKind m = 0 →
    16 ≤ (s.cluster (msgScl m)).hostOut.length →
    exec (.messageArrive 0) s = .next { s with
      fabric := r
      returning := s.returning ++ [bounced m 4] }) ∧
  (∀ (s : State) (m : Msg) (r : List Msg), s.fabric = m :: r → msgHost m = true → (s.cluster (msgScl m)).hostOut ≠ [] →
    (s.cluster (msgScl m)).hostOut.length < 16 →
    exec (.messageArrive 0) s = .next (({ s with fabric := r } : State).setCluster (msgScl m)
      { s.cluster (msgScl m) with hostOut := (s.cluster (msgScl m)).hostOut ++ [m] })) ∧
  (∀ (s : State) (m : Msg) (r : List Msg), s.fabric = m :: r → msgHost m = true → (s.cluster (msgScl m)).hostOut = [] →
    exec (.messageArrive 0) s = .next ((({ s with fabric := r } : State).setCluster (msgScl m)
      { s.cluster (msgScl m) with hostOut := [m] }).event (192 + msgScl m))) ∧
  (∀ (s : State) (m : Msg) (r : List Msg), s.returning = m :: r →
    (s.core (8 * msgScl m + msgScore m)).bounce.length < 8 →
    ∃ t, exec (.messageBounce 0) s = .next t ∧ t.returning = r ∧
      (t.core (8 * msgScl m + msgScore m)).bounce = (s.core (8 * msgScl m + msgScore m)).bounce ++ [m] ∧
      t.reg (Reg.clCoreBounceCnt (msgScl m) (msgScore m)) = s.reg (Reg.clCoreBounceCnt (msgScl m) (msgScore m)) + 1) ∧
  (∀ (s : State) (m : Msg) (r : List Msg), s.returning = m :: r →
    8 ≤ (s.core (8 * msgScl m + msgScore m)).bounce.length →
    ∃ t, exec (.messageBounce 0) s = .next t ∧ t.returning = r ∧
      (t.core (8 * msgScl m + msgScore m)).bounce = (s.core (8 * msgScl m + msgScore m)).bounce ∧
      (t.core (8 * msgScl m + msgScore m)).sstat.getLsbD 9 = true ∧ t.rbit (Reg.clFault (msgScl m)) 12 = true ∧
      t.reg (Reg.clCoreBounceCnt (msgScl m) (msgScore m)) = s.reg (Reg.clCoreBounceCnt (msgScl m) (msgScore m)) + 1) ∧
  (∀ (s : State) (q : Req) (cl : Clus), s.shut = false → field (s.wreg (Reg.clHostMsg cl 0)) 71 67 = cl.val →
    ∃ m, exec (.hostSend q cl) s = .next { s with fabric := s.fabric ++ [m] } ∧
      field m.h 71 48 = field (s.wreg (Reg.clHostMsg cl 0)) 71 48 ∧ msgKind m = (if q = .cp then 2 else 1) ∧ msgScl m = cl.val ∧ field m.h 40 18 = 0 ∧
      field m.h 15 0 = field (s.wreg (Reg.clHostMsg cl 0)) 15 0 ∧ m.h.getLsbD 16 = false ∧ m.w1 = s.wreg (Reg.clHostMsg cl 1) ∧
      m.w2 = s.wreg (Reg.clHostMsg cl 2) ∧ m.w3 = s.wreg (Reg.clHostMsg cl 3)) ∧
  (∀ (s : State) (q : Req) (cl : Clus), s.shut = false → field (s.wreg (Reg.clHostMsg cl 0)) 71 67 ≠ cl.val →
    exec (.hostSend q cl) s = .next (s.err (clBase cl) .range 0x50 q)) ∧
  (∀ (s : State) (q : Req) (cl : Clus) (m : Msg), s.shut = false → (s.cluster cl).hostOut = [m] → (s.cluster cl).hostBnc = [] →
    exec (.hostOutPop q cl) s = .next (s.setCluster cl { s.cluster cl with hostOut := [] })) ∧
  (∀ (s : State) (q : Req) (cl : Clus) (m n : Msg) (r : List Msg), s.shut = false → (s.cluster cl).hostOut = m :: n :: r →
    exec (.hostOutPop q cl) s = .next ((s.setCluster cl { s.cluster cl with hostOut := n :: r }).event (192 + cl))) ∧
  (∀ (s : State) (q : Req) (cl : Clus) (m : Msg), s.shut = false → (s.cluster cl).hostBnc = [m] → (s.cluster cl).hostOut = [] →
    exec (.hostBncPop q cl) s = .next (s.setCluster cl { s.cluster cl with hostBnc := [] })) ∧
  (∀ (s : State) (q : Req) (cl : Clus) (m n : Msg) (r : List Msg), s.shut = false → (s.cluster cl).hostBnc = m :: n :: r →
    exec (.hostBncPop q cl) s = .next ((s.setCluster cl { s.cluster cl with hostBnc := n :: r }).event (192 + cl))) ∧
  (∀ (s : State) (q : Req) (cl : Clus), (s.cluster cl).hostOut = [] → exec (.hostOutPop q cl) s = .next s)

/-- PHASE hands on shots with their records, UNWRAP moves phases and forms the PHASE4 frame, BAND takes samples and ends frames of K
samples. Rests on R147, R149, R150, R151, R154, R155, R157, R158, R159, R160, R165. The model's choice: a command with nothing
due changes nothing (log entry 2). Its conclusion is that exec answers a next state for phaseRecord, unwrapShot,
headerRingClear, bandSample, bandFrameEnd. -/
def Obligations.VibrationAndBandChains : Prop :=
  (
  (∀ (s : State) (ch : Chan) (sh : ChainShot) (rest : List ChainShot) (r : RecOut), s.chainShots ch = sh :: rest →
    (s.ce ch).out.find? (fun r => decide (r.index = sh.index)) = some r →
    ∃ t x, exec (.phaseRecord ch) s = .next t ∧ (t.chain ch).shots = rest ∧ (t.chain ch).incs = (s.chain ch).incs ++ [x] ∧ x.shot = sh ∧
      x.dropped = !r.full ∧ (r.full = false → x.hold = true ∧ x.w1 = r.w1 ∧ x.w2 = 0 ∧ x.dc = [] ∧ x.amp = []) ∧
      (r.full = true → x.w1 = s.recordWord ch r 1 ∧ x.w2 = s.recordWord ch r 2 ∧
        x.hold = (x.w1.getLsbD 71 || x.w1.getLsbD 70) ∧
        (x.w1.getLsbD 71 = false → x.dc.length = vibRows sh.cfg ∧ x.amp.length = vibRows sh.cfg))) ∧
  (∀ (s : State) (ch : Chan), s.chainShots ch = [] → exec (.phaseRecord ch) s = .next s) ∧
  (∀ (s : State) (ch : Chan) (sh : ChainShot) (rest : List ChainShot), s.chainShots ch = sh :: rest →
    (s.ce ch).out.find? (fun r => decide (r.index = sh.index)) = none → exec (.phaseRecord ch) s = .next s) ∧
  (∀ (c : VibCfg) (ch t g : Nat) (z : Nat → Nat → Nat → Int × Int) (st : Store (Option Int)),
    vibEdge c g = true → phaseGauge c ch t z g st = ((0, 0), st)) ∧
  (∀ (m : Nat) (a b : Int × Int) (prev : Option Int),
    mag (sat (rne (a.1 * b.1 + a.2 * b.2) 35) 36) (sat (rne (a.2 * b.1 - a.1 * b.2) 35) 36) < m → phaseBranch m a b prev = ((0, 0), none)) ∧
  (∀ (c : VibCfg) (hold : Bool) (dc phi v phi0 : Int) (amp : Nat), (hold || decide (amp < c.fade)) = true →
    unwrapGauge c 0 hold dc amp phi v phi0 = (phi, 0, 0)) ∧
  (∀ (c : VibCfg) (dc phi v phi0 : Int) (amp : Nat), c.fade ≤ amp →
    (unwrapGauge c 0 false dc amp phi v phi0).1 % 65536 = (phi + dc) % 65536 ∧
      -32768 ≤ (unwrapGauge c 0 false dc amp phi v phi0).1 ∧ (unwrapGauge c 0 false dc amp phi v phi0).1 ≤ 32767 ∧
      ((unwrapGauge c 0 false dc amp phi v phi0).2.2 = 1 ↔ 32768 < (v + wrap (dc - v) 16).natAbs)) ∧
  (∀ (s : State) (ch : Chan) (x : IncSt) (rest : List IncSt), (s.chain ch).incs = x :: rest →
    let phis := if x.shot.restart then s.phis.dropRange (65536 * 8 * ch) (65536 * 8 * (ch + 1)) else s.phis
    let rows := unwrapRows x.shot.cfg ch x phis
    ∃ t, exec (.unwrapShot ch) s = .next t ∧ (t.chain ch).incs = rest ∧ t.phis = phisAfter ch rows phis ∧
      t.frames.get [] (4 * ch) = phase4Header ch x rows ++ rows.flatMap phase4Row ∧ rows.length = vibRows x.shot.cfg) ∧
  (∀ (s : State) (ch : Chan), (s.chain ch).incs = [] → exec (.unwrapShot ch) s = .next s) ∧
  (∀ (s : State) (ch : Chan), (s.chain ch).clearDue = true → s.histEn ch = true →
    ∃ t, exec (.headerRingClear ch) s = .next t ∧ (t.chain ch).clearDue = false ∧
      t.dram = (State.dramWriteMany (List.replicate (4 * s.odv (odHist ch) 5) 0) (s.odv (odHist ch) 4) s).dram) ∧
  (∀ (s : State) (ch : Chan), (s.chain ch).clearDue = false ∨ s.histEn ch = false → exec (.headerRingClear ch) s = .next s)) ∧
  (
  (∀ (s : State) (ch : Chan), (s.chain ch).band.due = false → (s.chain ch).band.stops = [] → s.bandReady ch = true →
    (s.bandEn ch ≠ 0 ∨ (s.chain ch).band.next % 2 ^ s.odv (odVib ch) 10 ≠ 0) →
    ∃ t, exec (.bandSample ch) s = .next t ∧ (t.chain ch).band.next = (s.chain ch).band.next + 1) ∧
  (∀ (s : State) (ch : Chan), (s.chain ch).band.due = false → (s.chain ch).band.stops = [] → s.bandReady ch = true →
    s.bandEn ch = 0 → (s.chain ch).band.next % 2 ^ s.odv (odVib ch) 10 = 0 →
    ∃ t, exec (.bandSample ch) s = .next t ∧ (t.chain ch).band.active = false) ∧
  (∀ (s : State) (ch : Chan), (s.chain ch).band.due = false → (s.chain ch).band.stops = [] → s.bandReady ch = false →
    ∃ t, exec (.bandSample ch) s = .next t ∧ t.chain ch = s.chain ch) ∧
  (∀ (s : State) (ch : Chan), (s.chain ch).band.due = true → exec (.bandSample ch) s = .next s) ∧
  (∀ (cfg : List BandCfg) (phi : Int) (b : BandG), (bandGauge cfg phi 0 b).n0 = b.n0 + 1 ∧ (bandGauge cfg phi 0 b).n1 = b.n1 ∧
    (bandGauge cfg phi 0 b).n2 = b.n2 ∧ (bandGauge cfg phi 0 b).x1 = 0 ∧ (bandGauge cfg phi 0 b).vb = 0) ∧
  (∀ (cfg : List BandCfg) (phi : Int) (q : Nat) (b : BandG), q ≠ 0 →
    ((bandGauge cfg phi q b).x1 - (phi - b.phiLast)) % 65536 = 0 ∧ (bandGauge cfg phi q b).x2 = b.x1 ∧
      (bandGauge cfg phi q b).phiLast = phi) ∧
  (∀ (s : State) (ch : Chan), (s.chain ch).band.due = true →
    ∃ t, exec (.bandFrameEnd ch) s = .next t ∧ (t.chain ch).band.due = false ∧ (t.chain ch).band.inFrame = false ∧
      t.frames.get [] (4 * ch + 1) = bandHeader ch (s.chain ch).band.vib (s.chain ch).band ++
        ((List.range (vibG (s.chain ch).band.vib)).flatMap fun g => bandWords (s.chain ch).band (s.bands.get {} (65536 * ch + g))) ∧
      ∀ g, g < vibG (s.chain ch).band.vib →
        let b := t.bands.get {} (65536 * ch + g)
        b.n0 = 0 ∧ b.n1 = 0 ∧ b.n2 = 0 ∧ ∀ f ∈ b.filt, f.es = 0) ∧
  (∀ (s : State) (ch : Chan), (s.chain ch).band.due = false → exec (.bandFrameEnd ch) s = .next s) ∧
  (∀ (c : BandCfg) (k : Nat) (f : FiltSt), bandEnergy c k f < 2 ^ 32 ∧ (c.on = false → bandEnergy c k f = 0)))

/-- DTS forms a window once its batches are there and clears the totals; FUSE takes one shot at a time and forms a frame after FDEC
of them. Rests on R141, R168, R170, R171, R177, R183, R184, R185, R187. The model's choice: with nothing to take a command
changes nothing (log entry 2). Its conclusion is that exec answers a next state for dtsFlushRead, fuseShot, fuseFrameEnd. -/
def Obligations.TemperatureChain : Prop :=
  (∀ (s : State) (ch : Chan), s.oddOfPair ch = false → s.dtsEn ch = false ∨ s.tempLoaded ch = false →
    exec (.dtsFlushRead ch) s = .next s) ∧
  (∀ (s : State) (ch : Chan), s.oddOfPair ch = false → s.dtsEn ch = true → s.tempLoaded ch = true → s.double ch = false →
    ((s.totalsHead ch).1.getD 3 0).getLsbD 0 = true →
    exec (.dtsFlushRead ch) s = .next (s.totalsHead ch).2) ∧
  (∀ (s : State) (ch : Chan), s.oddOfPair ch = false → s.dtsEn ch = true → s.tempLoaded ch = true → s.double ch = false →
    let w := (s.totalsHead ch).1
    let first := field (w.getD 0 0) 47 0
    let last := field (w.getD 1 0) 47 0
    (w.getD 3 0).getLsbD 0 = false →
    ∃ t, exec (.dtsFlushRead ch) s = .next t ∧
      ((∀ f l, (s.chain ch).dts.formed = some (f, l) → f ≠ first) → last + 1 - first < 256 * s.odv (odDts ch) 2 →
        (t.chain ch).dts.formed = none ∧ (t.chain ch).dts.expect = some first ∧ t.frames = s.frames ∧
          (t.ce ch).replace = (s.ce ch).replace) ∧
      ((∀ f l, (s.chain ch).dts.formed = some (f, l) → f ≠ first) → 256 * s.odv (odDts ch) 2 ≤ last + 1 - first →
        (t.ce ch).replace = true ∧ (t.chain ch).dts.formed = some (first, last) ∧ (t.chain ch).dts.restart = false ∧
          field ((t.frames.get [] (4 * ch + 2)).getD 1 0) 47 0 = first) ∧
      (∀ l, (s.chain ch).dts.formed = some (first, l) → t.frames = s.frames ∧
        if last ≤ l then t.chain ch = s.chain ch
        else (t.chain ch).dts.formed = some (first, last) ∧ (t.ce ch).replace = true ∧
          t.odv (odDts ch) 0xC = (s.odv (odDts ch) 0xC + (last - l + 255) / 256) % 2 ^ 32)) ∧
  (∀ (s : State) (ch : Chan), s.oddOfPair ch = false → s.dtsEn ch = true → s.tempLoaded ch = true → s.double ch = true →
    let w := (s.totalsHead ch).1
    let v := ((s.totalsHead ch).2.totalsHead (ch + 1)).1
    let first := field (w.getD 0 0) 47 0
    let last := field (w.getD 1 0) 47 0
    (w.getD 3 0).getLsbD 0 = false → (v.getD 3 0).getLsbD 0 = false → last ≤ field (v.getD 1 0) 47 0 →
    (∀ f l, (s.chain ch).dts.formed = some (f, l) → f ≠ first) → 256 * s.odv (odDts ch) 2 ≤ last + 1 - first →
    ∃ t, exec (.dtsFlushRead ch) s = .next t ∧ (t.ce ch).replace = true ∧ (t.ce (ch + 1)).replace = true ∧
      (t.chain ch).dts.formed = some (first, last)) ∧
  (∀ (s : State) (ch : Chan), s.oddOfPair ch = true → s.tempLoaded (ch - 1) = true → (s.chain (ch - 1)).dts.waiting = none →
    ∃ t, exec (.dtsFlushRead ch) s = .next t ∧ t.frames = s.frames ∧ t.chains = s.chains) ∧
  (∀ (s : State) (ch : Chan) (i : FuseIn) (rest : List FuseIn) (c : FuseCfg), (s.chain ch).fuse.due = none →
    (s.chain ch).fuseIn = i :: rest → i.shot.fuse = some c →
    let fdec := max c.fdec 1
    let idx := i.shot.index.toNat
    let opens := decide (idx % fdec = 0)
    ∃ t, exec (.fuseShot ch) s = .next t ∧ (t.chain ch).fuseIn = rest ∧
      (i.shot.fuseRestart = true → (t.chain ch).fuse.p = [] ∧ (t.chain ch).fuse.anchors = 0 ∧ (t.chain ch).fuse.restart = true ∧
        (opens = false → (t.chain ch).fuse.due = none)) ∧
      (i.shot.fuseRestart = false →
        (t.chain ch).fuse.due = (if (opens || (s.chain ch).fuse.inFrame) &&
          decide (idx + 1 = (if opens then idx else (s.chain ch).fuse.first) + fdec) then some i.shot else none) ∧
        ∀ g, g < vibG i.shot.cfg → g < 65536 → ∃ x : Int,
          (t.fuses.get {} (65536 * ch + g)).sum = (if opens then 0 else (s.fuses.get {} (65536 * ch + g)).sum) + x ∧
          (t.fuses.get {} (65536 * ch + g)).phiLast = (i.row.getD g (0, 0)).1 ∧
          ((i.row.getD g (0, 0)).2 = 0 → x = 0) ∧
          ((i.row.getD g (0, 0)).2 ≠ 0 → (x - ((i.row.getD g (0, 0)).1 - (s.fuses.get {} (65536 * ch + g)).phiLast)) % 65536 = 0))) ∧
  (∀ (s : State) (ch : Chan), (s.chain ch).fuse.due = none → (s.chain ch).fuseIn = [] → exec (.fuseShot ch) s = .next s) ∧
  (∀ (s : State) (ch : Chan) (sh : ChainShot) (c : FuseCfg), (s.chain ch).fuse.due = some sh → sh.fuse = some c →
    let n := vibG sh.cfg
    let g (i : Nat) := s.fuses.get {} (65536 * ch + i)
    let coil := (List.range n).filter fun i => !(g i).any0 &&
      decide (s.fld (Reg.headCoil (ch / 8)) 7 0 + sh.cfg.len / 2 ≤ i) &&
      decide (i + (sh.cfg.len - sh.cfg.len / 2) + 1 ≤ s.fld (Reg.headCoil (ch / 8)) 7 0 + s.fld (Reg.headCoil (ch / 8)) 26 16)
    let dc := (coil.map fun i => (g i).sum).sum
    let tc := s.coilLast (ch / 8) (tsNum (s.stampOf ch (sh.index.toNat + 1)))
    let dr := match tc, (s.chain ch).fuse.tcPrev with
      | some a, some b => if s.odv (odFuse ch) 6 = 0 ∨ coil.length < 8 then 0
        else divr (dc - divr ((a - b) * coil.length * 2 ^ 32) c.fk) coil.length
      | _, _ => 0
    ∃ t, exec (.fuseFrameEnd ch) s = .next t ∧ (t.chain ch).fuse.due = none ∧ (t.chain ch).fuse.inFrame = false ∧
      (t.chain ch).fuse.tcPrev = (if tc.isSome then tc else (s.chain ch).fuse.tcPrev) ∧
      ∀ j, j < (n + max c.favg 1 - 1) / max c.favg 1 →
        let gs := (List.range (min (max c.favg 1) (n - j * max c.favg 1))).map fun i => (g (j * max c.favg 1 + i)).sum
        (t.chain ch).fuse.p.getD j 0 = wrap ((s.chain ch).fuse.p.getD j 0 + gs.sum - gs.length * dr) 64) ∧
  (∀ (s : State) (ch : Chan), (s.chain ch).fuse.due = none → exec (.fuseFrameEnd ch) s = .next s)

/-- Check bits correct every single and detect every double error; a DRAM word reads back as written, with its tag, and no word
exists from D on. Rests on R274, R275, R276, R277, R278, R279, R281, R282, R286, R296, R297. The model's choice: a read that
waits is answered with the word it will be served (log entry 93), and a read gives its word at once, in the state's own word
DRAM_OUT (log entry 6). Its conclusion is that exec answers a next state for dramWrite, dramRead. -/
def Obligations.DramReadAfterWrite : Prop :=
  (∀ d : W72,
    eccRead (eccStore d false) = (d, .good) ∧ eccRead (eccStore d true) = (d, .poison) ∧
    (∀ i, i < 80 → eccRead (eccStore d false ^^^ BitVec.ofNat 80 (2 ^ i)) = (d, .corrected)) ∧
    ∀ i j, i < 80 → j < 80 → i ≠ j → (eccRead (eccStore d false ^^^ BitVec.ofNat 80 (2 ^ i) ^^^ BitVec.ofNat 80 (2 ^ j))).2 = .bad) ∧
  (∀ (s : State) (a : Nat) (v : W72) (p : Bool), s.shut = false → a < s.dramWords → s.mcFailed (s.dramMap a).1 = false → (s.mc (s.dramMap a).1).queue = [] →
    ∃ t u, exec (.dramWrite a v p) s = .next t ∧ exec (.dramRead a 0) t = .next u ∧ u.dramOut = (v, p)) ∧
  (∀ (s : State) (a i : Nat) (v : W72), s.shut = false → a < s.dramWords → s.mcFailed (s.dramMap a).1 = false → (s.mc (s.dramMap a).1).queue = [] →
    s.mcHeld (s.dramMap a).1 (s.dramMap a).2 = false → i < 80 →
    ∃ t u, exec (.dramWrite a v false) s = .next t ∧ exec (.dramRead a (BitVec.ofNat 80 (2 ^ i))) t = .next u ∧ u.dramOut = (v, false) ∧
      u.reg (Reg.mcCeCnt (s.dramMap a).1) = s.reg (Reg.mcCeCnt (s.dramMap a).1) + 1 ∧ u.rbit (Reg.mcFault (s.dramMap a).1) 0 = true) ∧
  (∀ (s : State) (a b : Nat) (v : W72) (p : Bool), s.shut = false → a < s.dramWords → b < s.dramWords → b ≠ a → s.fld (Reg.mcGeom 0) 1 0 ≤ 2 →
    s.fld (Reg.mcGeom 1) 1 0 ≤ 2 → s.mcFailed (s.dramMap a).1 = false → (s.mc (s.dramMap a).1).queue = [] →
    ∃ t, exec (.dramWrite a v p) s = .next t ∧ t.dramMap b = s.dramMap b ∧
      t.dramCell (s.dramMap b).1 (s.dramMap b).2 = s.dramCell (s.dramMap b).1 (s.dramMap b).2) ∧
  (∀ (s : State) (a : Nat) (v : W72) (p : Bool), s.shut = false → a < s.dramWords → s.mcFailed (s.dramMap a).1 = false → (s.mc (s.dramMap a).1).queue = [] →
    s.mcHeld (s.dramMap a).1 (s.dramMap a).2 = true →
    exec (.dramWrite a v p) s = .next (s.setMc (s.dramMap a).1 { s.mc (s.dramMap a).1 with
      queue := [{ rd := false, a := (s.dramMap a).2, dev := a, w := eccStore v p, came := s.time.up }] })) ∧
  (∀ (s : State) (a : Nat) (v : W72) (p : Bool), s.shut = false → s.dramWords ≤ a → exec (.dramWrite a v p) s = .next (s.fault (Reg.mcFault 0) 128)) ∧
  (∀ (s : State) (a : Nat) (f : BitVec 80), s.shut = false → s.dramWords ≤ a →
    exec (.dramRead a f) s = .next { s.fault (Reg.mcFault 0) 128 with dramOut := (0, true) }) ∧
  (∀ (s : State) (a : Nat) (f : BitVec 80), s.shut = false → a < s.dramWords → s.mcFailed (s.dramMap a).1 = true →
    ∃ t, exec (.dramRead a f) s = .next t ∧ t.dramOut = (0, true)) ∧
  (∀ (s : State) (a : Nat) (v : W72) (p : Bool), a < s.dramWords → s.mcFailed (s.dramMap a).1 = true →
    exec (.dramWrite a v p) s = .next s)

/-- Rows closed by time and refresh, refreshes postponed up to 8, and the retry of commands after an alert. Rests on R283, R285,
R286, R287. Its conclusion is that exec answers a next state for rowTimeout, refreshDue, retryRetire, alertNFall, alertNRise,
caReplay. -/
def Obligations.DramRowsRefreshAndRetry : Prop :=
  (∀ (s : State) (m : Mc) (bank row : Nat), bank < 32 → (s.bank (64 * m + bank)).row = .left row → s.mcStill m = false →
    ∃ t, exec (.rowTimeout m bank) s = .next t ∧ (t.bank (64 * m + bank)).row = .idle ∧
      (t.bank (64 * m + bank)).h = (s.bank (64 * m + bank)).h ∧ t.dram = s.dram) ∧
  (∀ (s : State) (m : Mc) (bank : Nat), s.mcStill m = true → exec (.rowTimeout m bank) s = .next s) ∧
  (∀ (s : State) (m : Mc) (rank : Bool), (s.mc m).postponed.getD rank.toNat 0 < 8 → rank.toNat < s.fld (Reg.mcGeom m) 1 0 →
    (s.mc m).sr.getLsbD rank.toNat = false →
    exec (.refreshDue m rank true) s = .next (s.setMc m { s.mc m with
      postponed := (s.mc m).postponed.set rank.toNat ((s.mc m).postponed.getD rank.toNat 0 + 1) })) ∧
  (∀ (s : State) (m : Mc) (rank queued : Bool), rank.toNat < s.fld (Reg.mcGeom m) 1 0 → (s.mc m).sr.getLsbD rank.toNat = false →
    s.mcStill m = true →
    exec (.refreshDue m rank queued) s = .next (s.setMc m { s.mc m with
      postponed := (s.mc m).postponed.set rank.toNat ((s.mc m).postponed.getD rank.toNat 0 + 1) })) ∧
  (∀ (s : State) (m : Mc) (rank : Bool), 8 ≤ (s.mc m).postponed.getD rank.toNat 0 → rank.toNat < s.fld (Reg.mcGeom m) 1 0 →
    (s.mc m).sr.getLsbD rank.toNat = false → s.mcStill m = false →
    ∃ t, exec (.refreshDue m rank true) s = .next t ∧ (t.mc m).postponed = (s.mc m).postponed ∧ (t.mc m).retry ≠ [] ∧ t.dram = s.dram ∧
      ∀ i : Fin 16, (t.bank (64 * m + 16 * rank.toNat + i)).openRow = none ∧
        (t.bank (64 * m + 16 * rank.toNat + i)).h = (s.bank (64 * m + 16 * rank.toNat + i)).h) ∧
  (∀ (s : State) (m : Mc) (rank queued : Bool), s.fld (Reg.mcGeom m) 1 0 ≤ rank.toNat ∨ (s.mc m).sr.getLsbD rank.toNat = true →
    exec (.refreshDue m rank queued) s = .next s) ∧
  (∀ (s : State) (m : Mc) (rank : Bool), (s.mc m).postponed.length = 2 → rank.toNat < s.fld (Reg.mcGeom m) 1 0 →
    (s.mc m).sr.getLsbD rank.toNat = false → (s.mc m).alert = false → (s.mc m).waiting = false →
    ∃ t, exec (.refreshDue m rank false) s = .next t ∧ (t.mc m).postponed.getD rank.toNat 0 = 0 ∧ t.dram = s.dram ∧
      ∀ i : Fin 16, (t.bank (64 * m + 16 * rank.toNat + i)).openRow = none ∧
        (t.bank (64 * m + 16 * rank.toNat + i)).h = (s.bank (64 * m + 16 * rank.toNat + i)).h) ∧
  (∀ (s : State) (m : Mc) (c : RetryCmd) (r : List RetryCmd), (s.mc m).retry = c :: r → (s.mc m).alert = false →
    (s.mc m).waiting = false →
    exec (.retryRetire m) s = .next (s.setMc m { s.mc m with
      retry := r
      replays := 0 })) ∧
  (∀ (s : State) (m : Mc), s.shut = false → exec (.alertNFall m) s = .next ((s.setMc m { s.mc m with alert := true }).setRbit (Reg.mcStatus m) 16 true)) ∧
  (∀ (s : State) (m : Mc) (tck : Nat), (s.mc m).alert = true →
    ∃ t, exec (.alertNRise m tck) s = .next t ∧ (t.mc m).alert = false ∧ (t.mc m).waiting = true ∧ t.rbit (Reg.mcStatus m) 16 = false ∧
      t.rbit (Reg.mcFault m) (if tck ≤ 24 then 4 else 3) = true ∧
      t.reg (Reg.mcCrcCnt m) = s.reg (Reg.mcCrcCnt m) + (if tck ≤ 24 then 1 else 0) ∧
      t.reg (Reg.mcParCnt m) = s.reg (Reg.mcParCnt m) + (if tck ≤ 24 then 0 else 1)) ∧
  (∀ (s : State) (m : Mc), (s.mc m).waiting = true → (s.mc m).replays < 3 → (s.mc m).queue = [] →
    (s.mc m).wants = false → (∀ k, (s.mc m).postponed.getD k 0 ≤ 8) →
    ∃ t, exec (.caReplay m) s = .next t ∧ (t.mc m).waiting = false ∧ (t.mc m).replays = (s.mc m).replays + 1 ∧
      (t.mc m).retry = (s.mc m).retry ∧ t.reg (Reg.mcReplayCnt m) = s.reg (Reg.mcReplayCnt m) + 1) ∧
  (∀ (s : State) (m : Mc) (rank : Bool), (s.mc m).waiting = true → (s.mc m).replays < 3 → (s.mc m).queue = [] → (s.mc m).wants = false →
    (s.mc m).postponed.length = 2 → 8 < (s.mc m).postponed.getD rank.toNat 0 →
    ∃ t, exec (.caReplay m) s = .next t ∧ (t.mc m).postponed.getD rank.toNat 0 = 8 ∧ (t.mc m).waiting = false) ∧
  (∀ (s : State) (m : Mc), (s.mc m).waiting = true → 3 ≤ (s.mc m).replays →
    ∃ t, exec (.caReplay m) s = .next t ∧ (t.mc m).waiting = false ∧ t.rbit (Reg.mcStatus m) 6 = true ∧
      t.rbit (Reg.mcCtrl m) 0 = false ∧ t.rbit (Reg.mcFault m) 5 = true ∧ t.dram = s.dram ∧ (t.mc m).queue = [] ∧ (t.mc m).retry = [] ∧
      t.dramOut = if (s.mc m).queue.any McReq.rd then (0, true) else s.dramOut)

/-- Training, a change of timing set through self-refresh and its return, and self-refresh of an idle rank. Rests on R289, R290,
R291, R292, R293, R294, R295, R296, R297, R435. Its conclusion is that exec answers a next state for trainGo, trainingDone,
periodicTrain, freqGo, freqChangeSre, memPllRelock, freqChangeDone, freqChangeReturn, idleSelfRefresh, selfRefreshExit. -/
def Obligations.TrainingAndFrequencyChange : Prop :=
  (∀ (s : State) (q : Req) (m : Mc), s.shut = false → s.trainBusy m = false →
    ∃ t, exec (.trainGo q m) s = .next t ∧ t.mc m = { s.mc m with
        sr := 0
        byGo := true } ∧ t.rbit (Reg.mcStatus m) 1 = true ∧ t.dram = s.dram ∧
      ∀ k, k ≠ 1 → t.rbit (Reg.mcStatus m) k = s.rbit (Reg.mcStatus m) k) ∧
  (∀ (s : State) (q : Req) (m : Mc), s.shut = false → s.rbit (Reg.mcStatus m) 1 = true ∨ (s.mc m).changing = true →
    exec (.trainGo q m) s = .next (s.err (0x800000 + 0x10000 * m) .busy 0x2C q)) ∧
  (∀ (s : State) (m : Mc) (r : TrainResult), s.rbit (Reg.mcStatus m) 1 = true → (s.mc m).changing = false → s.trainFits m r = true →
    s.boot.running = false →
    ∃ t, exec (.trainingDone m r) s = .next t ∧ t.rbit (Reg.mcStatus m) 1 = false ∧ t.reg (Reg.mcTrainStat m) = trainStat r.fail ∧
      (r.fail = none → (t.mc m).trained = true ∧ t.rbit (Reg.mcStatus m) 6 = (!(s.mc m).byGo && s.rbit (Reg.mcStatus m) 6)) ∧
      (r.fail ≠ none → t.rbit (Reg.mcFault m) 6 = true ∧ t.rbit (Reg.mcStatus m) 6 = s.rbit (Reg.mcStatus m) 6) ∧
      (r.fail ≠ none → s.rbit (Reg.mcStatus m) 4 = true → t.rbit (Reg.mcStatus m) 4 = false ∧ t.fld (Reg.mcFreqStat m) 1 0 = 2)) ∧
  (∀ (s : State) (m : Mc) (r : TrainResult), s.rbit (Reg.mcStatus m) 1 = true → (s.mc m).changing = false → s.trainFits m r = true →
    s.booting = true → s.boot.running = true → r.fail ≠ none →
    exec (.trainingDone m r) s = .next ((s.trainOver m r).bootFail 3)) ∧
  (∀ (s : State) (m : Mc) (r : TrainResult), s.rbit (Reg.mcTrainCtrl m) 8 = true → s.fld (Reg.mcGeom m) 1 0 ≠ 0 →
    s.trainBusy m = false → s.mcFailed m = false → s.mcStill m = false → s.trainFits m r = true → (∀ x, r.fail = some x → x.2.1 = 1) →
    s.boot.running = false →
    ∃ t, exec (.periodicTrain m r) s = .next t ∧ t.reg (Reg.mcTrainStat m) = trainStat r.fail ∧ t.rbit (Reg.mcStatus m) 1 = false ∧
      (r.fail ≠ none → t.rbit (Reg.mcFault m) 6 = true)) ∧
  (∀ (s : State) (m : Mc) (r : TrainResult), s.periodicMay m r = true → s.booting = true → s.boot.running = true → r.fail ≠ none →
    exec (.periodicTrain m r) s = .next ((s.periodicEnd m r).bootFail 3)) ∧
  (∀ (s : State) (q : Req) (m : Mc), s.shut = false → s.freqBusy m = false → s.rbit (Reg.mcStatus m) 1 = false →
    s.fld (Reg.mcFreqCtrl m) 4 4 ≠ s.fld (Reg.mcStatus m) 5 5 → s.mcStill m = true →
    ∃ t, exec (.freqGo q m) s = .next t ∧ (t.mc m).wants = true ∧ (t.mc m).changing = (s.mc m).changing ∧
      (t.mc m).target = s.fld (Reg.mcFreqCtrl m) 4 4) ∧
  (∀ (s : State) (q : Req) (m : Mc), s.shut = false → s.freqBusy m = false → s.rbit (Reg.mcStatus m) 1 = false →
    s.fld (Reg.mcFreqCtrl m) 4 4 ≠ s.fld (Reg.mcStatus m) 5 5 → s.mcStill m = false →
    ∃ t, exec (.freqGo q m) s = .next t ∧ (t.mc m).changing = true ∧ (t.mc m).target = s.fld (Reg.mcFreqCtrl m) 4 4) ∧
  (∀ (s : State) (q : Req) (m : Mc), s.shut = false → s.freqBusy m = false → s.rbit (Reg.mcStatus m) 1 = true →
    s.fld (Reg.mcFreqCtrl m) 4 4 ≠ s.fld (Reg.mcStatus m) 5 5 →
    exec (.freqGo q m) s =
      .next ((s.setMc m { s.mc m with target := s.fld (Reg.mcFreqCtrl m) 4 4 }).setRbit (Reg.mcStatus m) 4 true)) ∧
  (∀ (s : State) (q : Req) (m : Mc), s.shut = false → s.freqBusy m = false → s.fld (Reg.mcFreqCtrl m) 4 4 = s.fld (Reg.mcStatus m) 5 5 →
    exec (.freqGo q m) s = .next (s.err (0x800000 + 0x10000 * m) .range 0x24 q)) ∧
  (∀ (s : State) (q : Req) (m : Mc), s.shut = false → s.rbit (Reg.mcStatus m) 4 = true ∨ s.rbit (Reg.mcStatus m) 3 = true →
    exec (.freqGo q m) s = .next (s.err (0x800000 + 0x10000 * m) .busy 0x24 q)) ∧
  (∀ (s : State) (e : McEdge), (s.mc e.mc).changing = true → (s.mc e.mc).inSre = false → s.mcStill e.mc = false →
    ∃ t, exec (.freqChangeSre e) s = .next t ∧ (t.mc e.mc).inSre = true ∧ t.rbit (Reg.mcStatus e.mc) 3 = true ∧ t.dram = s.dram ∧
      (∀ k : Fin 2, k.val < s.fld (Reg.mcGeom e.mc) 1 0 → (t.mc e.mc).sr.getLsbD k = true) ∧
      ∀ (n : Fin 2) (r : Fin 7), (t.mc e.mc).work.getD (7 * n + r) 0 = s.reg (Reg.mcTsetRate e.mc n + 4 * r)) ∧
  (∀ (s : State) (m : Mc), (s.mc m).inSre = true → (s.mc m).locked = false →
    ∃ t, exec (.memPllRelock m) s = .next t ∧ t.fld (Reg.mcStatus m) 5 5 = (s.mc m).target % 2 ∧ t.rbit (Reg.mcStatus m) 1 = true ∧
      (t.mc m).locked = true ∧ (t.mc m).sr = 0) ∧
  (∀ (s : State) (m : Mc) (r : TrainResult), (s.mc m).locked = true → r.fail = none →
    ∃ t, exec (.freqChangeDone m r) s = .next t ∧ t.rbit (Reg.mcStatus m) 3 = false ∧ t.fld (Reg.mcFreqStat m) 1 0 = 1 ∧
      t.fld (Reg.mcStatus m) 5 5 = s.fld (Reg.mcStatus m) 5 5) ∧
  (∀ (s : State) (e : McEdge) (ok : Bool) (r : TrainResult), (s.mc e.mc).locked = true → r.fail ≠ none → s.trainFits e.mc r = true →
    (s.mc e.mc).target ≤ 1 → s.boot.running = false →
    ∃ t, exec (.freqChangeReturn e ok r) s = .next t ∧ t.rbit (Reg.mcStatus e.mc) 3 = false ∧ t.fld (Reg.mcFreqStat e.mc) 1 0 = 2 ∧
      t.fld (Reg.mcStatus e.mc) 5 5 = 1 - (s.mc e.mc).target ∧
      (ok = false → t.rbit (Reg.mcStatus e.mc) 6 = true ∧ t.rbit (Reg.mcCtrl e.mc) 0 = false)) ∧
  (∀ (s : State) (e : McEdge) (k : RankRest), s.rbit (Reg.mcSrCfg e.mc) 0 = true → k.rank.toNat < s.fld (Reg.mcGeom e.mc) 1 0 →
    (s.mc e.mc).sr.getLsbD k.rank.toNat = false → s.trainBusy e.mc = false → s.mcStill e.mc = false →
    (s.mc e.mc).queue.any (fun r => decide ((s.dramRow e.mc r.a).1 = k.rank.toNat)) = false →
    ∃ t, exec (.idleSelfRefresh e k) s = .next t ∧ t.dram = s.dram ∧ (t.mc e.mc).sr.getLsbD k.rank.toNat = !k.arrived ∧
      t.reg (Reg.mcSrCnt e.mc) = s.reg (Reg.mcSrCnt e.mc) + (if k.arrived then 0 else 1)) ∧
  (∀ (s : State) (m : Mc) (rank : Bool), (s.mc m).changing = false →
    (s.mc m).queue.any (fun r => decide ((s.dramRow m r.a).1 = rank.toNat)) = true →
    ∃ t, exec (.selfRefreshExit m rank) s = .next t ∧ (t.mc m).sr.getLsbD rank.toNat = false ∧
      (t.mc m).sr.getLsbD (!rank).toNat = (s.mc m).sr.getLsbD (!rank).toNat) ∧
  (∀ (s : State) (m : Mc) (rank : Bool), (s.mc m).queue = [] → exec (.selfRefreshExit m rank) s = .next s)

/-- A committed word 0 enables or disables a zone at NORMAL; evaluations move it by ON, OFF and HYST, or to VOID, and a change is
recorded. Rests on R252, R253, R254, R257, R258, R259, R260, R264, R267, R270. The model's choice: a zone is not taken while one
of lower number awaits the same frame (log entry 49), and a command with nothing to evaluate changes nothing (log entry 2). Its
conclusion is that exec answers a next state for zoneEnable, zoneDisable, zoneEvaluate, zoneInputWrite, zoneInputTick. -/
def Obligations.ZoneTableAndStateMachine : Prop :=
  (∀ (s : State) (q : Req) (z : Zone) (v : W32) (w : W72), s.shut = false →
    s.staged72 q (0x1200000 + 0x80 * z) (withBit v 7 true) = some w → zoneEn (s.zoneWord z 0) = false → s.zoneCheck z w = none →
    ∃ t, exec (.zoneEnable q z v) s = .next t ∧ t.zoneWord z 0 = w ∧ zoneEn w = true ∧ (t.zone z).st = 0 ∧ (t.zone z).due = [] ∧
      (t.zone z).asks = true ∧ (t.req q).lo = none ∧ t.evq = s.evq) ∧
  (∀ (s : State) (q : Req) (z : Zone) (v : W32) (w : W72) (c : Cause), s.shut = false →
    s.staged72 q (0x1200000 + 0x80 * z) (withBit v 7 true) = some w → zoneEn (s.zoneWord z 0) = false → s.zoneCheck z w = some c →
    exec (.zoneEnable q z v) s = .next ((s.setReq q { s.req q with lo := none, mid := none }).err zoneBase c (0x80 * z) q)) ∧
  (∀ (s : State) (q : Req) (z : Zone) (v : W32) (w : W72), s.shut = false →
    s.staged72 q (0x1200000 + 0x80 * z) (withBit v 7 false) = some w →
    ∃ t, exec (.zoneDisable q z v) s = .next t ∧ t.zoneWord z 0 = w ∧ zoneEn w = false ∧ (t.zone z).st = 0 ∧ (t.zone z).due = [] ∧
      (t.zone z).asks = false ∧ (t.zone z).remote = none ∧
      ((s.zone z).due = [] ∨ zoneEn (s.zoneWord z 0) = false ∨ s.rbit Reg.zoneCtrl 0 = false → t.evq = s.evq ∧ t.reg Reg.zoneEvalCnt = s.reg Reg.zoneEvalCnt) ∧
      (zoneEn (s.zoneWord z 0) = true → s.rbit Reg.zoneCtrl 0 = true →
        t.reg Reg.zoneEvalCnt = s.reg Reg.zoneEvalCnt + BitVec.ofNat 32 (s.zone z).due.length)) ∧
  (∀ (s : State) (z : Zone) (e : EvalSt) (r : List EvalSt) (m : Int), (s.zone z).due = e :: r → zoneEn (s.zoneWord z 0) = true →
    s.zoneBefore z e = false → s.rbit Reg.zoneCtrl 0 = true → e.m = some m → zoneBelow (s.zoneWord z 0) = false → (s.zone z).st = 0 → m < s.zoneWarn z →
    s.zoneWarn z ≤ s.zoneAlarm z →
    ∃ t, exec (.zoneEvaluate z) s = .next t ∧ (t.zone z).st = 0 ∧ (t.zone z).cu = 0 ∧ (t.zone z).m = m ∧ (t.zone z).due = r ∧
      t.evq = s.evq ∧ t.reg Reg.zoneEvalCnt = s.reg Reg.zoneEvalCnt + 1) ∧
  (∀ (s : State) (z : Zone) (e : EvalSt) (r : List EvalSt) (m : Int), (s.zone z).due = e :: r → zoneEn (s.zoneWord z 0) = true →
    s.zoneBefore z e = false → s.rbit Reg.zoneCtrl 0 = true → e.m = some m → zoneBelow (s.zoneWord z 0) = false → (s.zone z).st = 0 → s.zoneAlarm z ≤ m →
    (s.zone z).cu + 1 < zoneOn (s.zoneWord z 0) →
    ∃ t, exec (.zoneEvaluate z) s = .next t ∧ (t.zone z).st = 0 ∧ (t.zone z).cu = (s.zone z).cu + 1 ∧ t.evq = s.evq) ∧
  (∀ (s : State) (z : Zone) (e : EvalSt) (r : List EvalSt) (m : Int), (s.zone z).due = e :: r → zoneEn (s.zoneWord z 0) = true →
    s.zoneBefore z e = false → s.rbit Reg.zoneCtrl 0 = true → e.m = some m → zoneBelow (s.zoneWord z 0) = false → (s.zone z).st = 0 → s.zoneAlarm z ≤ m →
    zoneOn (s.zoneWord z 0) ≤ (s.zone z).cu + 1 → s.zoneAct z = 1 → s.evLost = 0 → s.evq.length < 1024 →
    ∃ t rec, exec (.zoneEvaluate z) s = .next t ∧ (t.zone z).st = 2 ∧ (t.zone z).cu = 0 ∧ (t.zone z).asks = true ∧
      t.evq = s.evq ++ [rec] ∧ field (rec.getD 1 0) 71 68 = 1 ∧ field (rec.getD 1 0) 63 52 = z.val ∧ field (rec.getD 1 0) 51 50 = 2 ∧
      field (rec.getD 1 0) 49 48 = 0 ∧ field (rec.getD 3 0) 31 0 = s.evSeq.toNat ∧ t.evSeq = s.evSeq + 1) ∧
  (∀ (s : State) (z : Zone) (e : EvalSt) (r : List EvalSt), (s.zone z).due = e :: r → zoneEn (s.zoneWord z 0) = true →
    s.zoneBefore z e = false → s.rbit Reg.zoneCtrl 0 = true → e.m = none → s.zoneVoid z = (s.zone z).vc + 1 → (s.zone z).st < 3 →
    ∃ t, exec (.zoneEvaluate z) s = .next t ∧ (t.zone z).st = 3 ∧ (t.zone z).prev = (s.zone z).st ∧ t.rbit Reg.zoneFault 4 = true) ∧
  (∀ (s : State) (z : Zone) (e : EvalSt) (r : List EvalSt), (s.zone z).due = e :: r → s.zoneBefore z e = true →
    exec (.zoneEvaluate z) s = .next s) ∧
  (∀ (s : State) (z : Zone), (s.zone z).due = [] → exec (.zoneEvaluate z) s = .next s) ∧
  (∀ (s : State) (z : Zone) (v : Int), zoneEn (s.zoneWord z 0) = true → zoneSrc (s.zoneWord z 0) = 4 → s.rbit Reg.zoneCtrl 0 = true →
    -2 ^ 47 ≤ v → v < 2 ^ 47 →
    ∃ t, exec (.zoneInputWrite z v) s = .next t ∧ (t.zone z).m = v ∧ (t.zone z).vc = 0 ∧
      t.reg Reg.zoneEvalCnt = s.reg Reg.zoneEvalCnt + 1) ∧
  (∀ (s : State) (z : Zone) (v : Int), zoneEn (s.zoneWord z 0) = false ∨ zoneSrc (s.zoneWord z 0) ≠ 4 →
    exec (.zoneInputWrite z v) s = .next s) ∧
  (∀ (s : State), s.rbit Reg.zoneCtrl 0 = true → s.zones.wf (fun _ => 0) = true →
    ∃ t, exec .zoneInputTick s = .next t ∧
      ∀ z : Zone, if zoneEn (s.zoneWord z 0) ∧ zoneSrc (s.zoneWord z 0) = 4 then (t.zone z).vc = (s.zone z).vc + 1
        else t.zone z = s.zone z)

/-- Remote writes repeat until acknowledged or failed, captures copy one shot at a time, and the event queue keeps its order. Rests
on R263, R265, R266, R267, R268, R269, R406. Its conclusion is that exec answers a next state for remoteWriteTimeout,
remoteWriteAck, remoteRefresh, captureShotCopy, captureDone, capFree, evqPop. -/
def Obligations.ZoneWritesCapturesAndQueue : Prop :=
  (∀ (s : State) (z : Zone) (r : RemoteSt), (s.zone z).remote = some r → r.tries < s.fld Reg.zoneRemCfg 11 8 →
    field (s.zoneWord z 6) 71 56 ≠ s.odv 0x2000 1 →
    ∃ t out, exec (.remoteWriteTimeout z) s = .next t ∧ (t.zone z).remote = some { r with tries := r.tries + 1 } ∧
      t.tx = s.tx ++ .remote z (field (s.zoneWord z 6) 71 56) (field (s.zoneWord z 6) 55 40) (field (s.zoneWord z 6) 39 32)
        r.wide r.value :: out) ∧
  (∀ (s : State) (z : Zone) (r : RemoteSt), (s.zone z).remote = some r → r.tries < s.fld Reg.zoneRemCfg 11 8 →
    field (s.zoneWord z 6) 71 56 = s.odv 0x2000 1 →
    ∃ t, exec (.remoteWriteTimeout z) s = .next t ∧ (t.zone z).remote = some { r with tries := r.tries + 1 } ∧
      ⟨z, field (s.zoneWord z 6) 55 40, field (s.zoneWord z 6) 39 32, r.wide, r.value⟩ ∈ t.selfWrites) ∧
  (∀ (s : State) (z : Zone) (r : RemoteSt), (s.zone z).remote = some r → s.fld Reg.zoneRemCfg 11 8 ≤ r.tries →
    ∃ t, exec (.remoteWriteTimeout z) s = .next t ∧ (t.zone z).remote = none ∧ t.rbit Reg.zoneFault 3 = true ∧
      t.reg Reg.zoneRemFailCnt = s.reg Reg.zoneRemFailCnt + 1) ∧
  (∀ (s : State) (z : Zone) (r : RemoteSt), (s.zone z).remote = some r →
    exec (.remoteWriteAck z 0) s = .next (s.setZone z { s.zone z with remote := none })) ∧
  (∀ (s : State) (z : Zone) (r : RemoteSt) (abort : W32), (s.zone z).remote = some r → abort ≠ 0 →
    ∃ t, exec (.remoteWriteAck z abort) s = .next t ∧ (t.zone z).remote = none ∧ t.rbit Reg.zoneFault 3 = true ∧
      t.reg Reg.zoneRemFailCnt = s.reg Reg.zoneRemFailCnt + 1) ∧
  (∀ (s : State) (z : Zone), zoneEn (s.zoneWord z 0) = true → s.zoneActs z 4 = true → field (s.zoneWord z 6) 15 0 ≠ 0 →
    field (s.zoneWord z 6) 71 56 ≠ s.odv 0x2000 1 →
    ∃ t out r, exec (.remoteRefresh z) s = .next t ∧ (t.zone z).remote = some r ∧ r.tries = 0 ∧
      (r.wide, r.value) = s.remoteValue z ∧
      t.tx = s.tx ++ .remote z (field (s.zoneWord z 6) 71 56) (field (s.zoneWord z 6) 55 40) (field (s.zoneWord z 6) 39 32)
        r.wide r.value :: out) ∧
  (∀ (s : State) (k : Fin 64) (c : CapSt), s.cap k = some c → c.copying = true → c.ended = false → c.next ≤ c.last →
    (s.chain c.ch).firstSlot.isSome = true → c.next ≤ s.ringLast c.ch →
    ∃ t, exec (.captureShotCopy k) s = .next t ∧ t.cap k = some { c with
      next := c.next + 1
      lost := c.lost + (if (s.slotRead c.ch c.next c.w).1 = none then 1 else 0) }) ∧
  (∀ (s : State) (k : Fin 64) (c : CapSt), s.cap k = some c → c.copying = true → c.last < c.next ∨ c.ended = true →
    ∃ t, exec (.captureDone k) s = .next t ∧ t.cap k = some { c with copying := false } ∧
      (c.lost ≠ 0 → t.rbit Reg.zoneFault 2 = true)) ∧
  (∀ (s : State) (q : Req) (v : W32) (c : CapSt), s.shut = false → s.cap (field v 5 0) = some c → c.copying = true →
    exec (.capFree q v) s = .next (s.err zoneBase .busy 0x5C q)) ∧
  (∀ (s : State) (q : Req) (v : W32) (c : CapSt), s.shut = false → s.cap (field v 5 0) = some c → c.copying = false →
    ∃ t, exec (.capFree q v) s = .next t ∧ t.cap (field v 5 0) = none ∧ ∀ k, k ≠ field v 5 0 → t.cap k = s.cap k) ∧
  (∀ (s : State) (q : Req), s.shut = false → exec (.evqPop q) s = .next { s with evq := s.evq.drop 1 })

/-- A channel starts with a descriptor that passes its checks, moves one burst at a time, and stops or completes at a boundary.
Rests on R299, R301, R303, R304, R305, R306, R308, R309, R310, R311, R312, R313. Its conclusion is that exec answers a next
state for rgnEnable, dmaGo, dmaStop, dmaBurst, descComplete. -/
def Obligations.DmaChannels : Prop :=
  (∀ (s : State) (q : Req) (k : Fin 16) (v : W32), s.shut = false → dmaCheck s (0x1800 + 0x20 * k) (v &&& 0x80071F00) = none →
    exec (.rgnEnable q k v) s = .next (s.setReg (Reg.dmaRgnCfg k) (v &&& 0x80071F00))) ∧
  (∀ (s : State) (q : Req) (k : Fin 16) (v : W32) (c : Cause), s.shut = false → dmaCheck s (0x1800 + 0x20 * k) (v &&& 0x80071F00) = some c →
    exec (.rgnEnable q k v) s = .next (s.err dmaBase c (0x1800 + 0x20 * k) q)) ∧
  (∀ (s : State) (q : Req) (e : DmaEdge), s.shut = false → s.dmaOwner e.chan = 0 → (s.dma e.chan).desc = none → (s.dma e.chan).stop = false →
    s.rbit (Reg.dmaLink e.chan) 12 = true → s.descCheck e.chan (descOf (s.descWords (s.fld (Reg.dmaLink e.chan) 11 0))) = none →
    ∃ t, exec (.dmaGo q e) s = .next t ∧ (t.dma e.chan).desc = some (s.descWords (s.fld (Reg.dmaLink e.chan) 11 0)) ∧ (t.dma e.chan).moved = 0 ∧
      (e.late = none → t.rbit (Reg.dmaLink e.chan) 12 = false) ∧ t.reg (Reg.dmaCfgAct e.chan) = s.reg (Reg.dmaCfg e.chan) ∧
      t.reg (Reg.dmaCur e.chan) = BitVec.ofNat 32 (s.fld (Reg.dmaLink e.chan) 11 0) ∧
      t.reg (Reg.dmaRemain e.chan) = BitVec.ofNat 32 (descOf (s.descWords (s.fld (Reg.dmaLink e.chan) 11 0))).dstSpan) ∧
  (∀ (s : State) (q : Req) (e : DmaEdge) (why : Nat), s.shut = false → s.dmaOwner e.chan = 0 → (s.dma e.chan).desc = none → (s.dma e.chan).stop = false →
    s.rbit (Reg.dmaLink e.chan) 12 = true → s.descCheck e.chan (descOf (s.descWords (s.fld (Reg.dmaLink e.chan) 11 0))) = some why →
    ∃ t, exec (.dmaGo q e) s = .next t ∧ (t.dma e.chan).desc = none ∧ t.fld (Reg.dmaStatus e.chan) 27 24 = why ∧
      t.rbit Reg.dmaFault (why - 1) = true ∧ t.reg Reg.dmaFaultCh = BitVec.ofNat 32 e.chan) ∧
  (∀ (s : State) (q : Req) (e : DmaEdge), s.shut = false → s.dmaOwner e.chan ≠ 0 ∨ (s.dma e.chan).desc.isSome = true →
    exec (.dmaGo q e) s = .next (s.err dmaBase .busy (0x100 + 0x40 * e.chan.val) q)) ∧
  (∀ (s : State) (q : Req) (e : DmaEdge), s.shut = false → s.dmaOwner e.chan = 0 → (s.dma e.chan).desc = none → s.rbit (Reg.dmaLink e.chan) 12 = false →
    exec (.dmaGo q e) s = .next (s.err dmaBase .range (0x100 + 0x40 * e.chan.val) q)) ∧
  (∀ (s : State) (q : Req) (n : Fin 64), s.dmaOwner n = 0 → s.dmaState n = 0 → exec (.dmaStop q n) s = .next s) ∧
  (∀ (s : State) (q : Req) (n : Fin 64), s.shut = false → s.dmaOwner n = 0 → s.dmaState n = 1 →
    exec (.dmaStop q n) s = .next (s.setDma n { s.dma n with stop := true })) ∧
  (∀ (s : State) (q : Req) (n : Fin 64), s.shut = false → s.dmaOwner n = 0 → s.dmaState n = 2 →
    ∃ t, exec (.dmaStop q n) s = .next t ∧ (t.dma n).desc = none ∧ t.fld (Reg.dmaStatus n) 27 24 = 2) ∧
  (∀ (s : State) (q : Req) (n : Fin 64), s.shut = false → s.dmaOwner n ≠ 0 → exec (.dmaStop q n) s = .next (s.err dmaBase .busy (0x100 + 0x40 * n.val) q)) ∧
  (∀ (s : State) (n : Fin 64) (r f : Bool) (h : List Byte), s.dmaGrant ≠ some n.val → exec (.dmaBurst n r h f) s = .next s) ∧
  (∀ (s : State) (n : Fin 64) (ws : List W72) (r : Bool) (h : List Byte), (s.dma n).desc = some ws → s.dmaGrant = some n.val → s.bme = true →
    ∃ t, exec (.dmaBurst n r h false) s = .next t ∧
      (t.dma n).moved = (s.dma n).moved + min (s.dmaBurstLen n) ((descOf ws).dstSpan - (s.dma n).moved)) ∧
  (∀ (s : State) (n : Fin 64) (ws : List W72) (r : Bool) (h : List Byte), (s.dma n).desc = some ws → s.dmaGrant = some n.val →
    (descOf ws).op ≠ 3 → s.rgnSpace (descOf ws).src = 2 →
    ∃ t, exec (.dmaBurst n r h true) s = .next t ∧ (t.dma n).desc = none ∧ t.fld (Reg.dmaStatus n) 27 24 = 8 ∧
      t.rbit Reg.dmaFault 6 = true ∧ t.reg Reg.dmaFaultCh = BitVec.ofNat 32 n) ∧
  (∀ (s : State) (n : Fin 64) (ws : List W72) (r f : Bool) (h : List Byte), (s.dma n).desc = some ws → s.dmaGrant = some n.val →
    (descOf ws).op = 0 → (descOf ws).paced = false → s.dspPowered (s.rgnCl (descOf ws).src) = true →
    s.dspPowered (s.rgnCl (descOf ws).dst) = true → s.rgnSpace (descOf ws).src = 1 → s.rgnSpace (descOf ws).dst = 1 → (s.dma n).moved < (descOf ws).len →
    let d := descOf ws
    let len := min (8 * 2 ^ s.fld (Reg.dmaCfgAct n) 17 16) (d.len - (s.dma n).moved)
    let a := 65536 * s.rgnCl d.dst + (s.rgnBase d.dst + (d.dstOfs + (s.dma n).moved))
    ∃ t, exec (.dmaBurst n r h f) s = .next t ∧ (t.dma n).moved = (s.dma n).moved + len ∧ t.dram = s.dram ∧
      t.reg (Reg.dmaRemain n) = BitVec.ofNat 32 (d.len - ((s.dma n).moved + len)) ∧
      (∀ i, i < len → t.sram.get 0 (a + i) =
        s.sram.get 0 (65536 * s.rgnCl d.src + (s.rgnBase d.src + (d.srcOfs + ((s.dma n).moved + i))))) ∧
      ∀ k, k < a ∨ a + len ≤ k → t.sram.get 0 k = s.sram.get 0 k) ∧
  (∀ (s : State) (e : DmaEdge) (ws : List W72), (s.dma e.chan).desc = some ws → (descOf ws).dstSpan ≤ (s.dma e.chan).moved →
    (s.dma e.chan).poisoned = false → (s.dma e.chan).stop = false → s.rbit (Reg.dmaLink e.chan) 12 = false → (descOf ws).last = true →
    ∃ t, exec (.descComplete e) s = .next t ∧ (t.dma e.chan).desc = none ∧ t.fld (Reg.dmaStatus e.chan) 27 24 = 1 ∧
      t.reg (Reg.dmaLastTag e.chan) = BitVec.ofNat 32 (descOf ws).tag ∧
      t.reg (Reg.dmaDoneCnt e.chan) = s.reg (Reg.dmaDoneCnt e.chan) + 1)

/-- BAR2 reads and writes the nine bytes of a word, a pop takes the oldest export entry, and an event counts or raises its vector
once or waits masked. Rests on R317, R318, R319, R320, R321, R322, R324, R325. The model's choice: a time-out with no event
waiting changes nothing (log entry 2). Its conclusion is that exec answers a next state for bar2Read, bar2Write, exportPop,
attnEvent, moderationTimeout, msixUnmask, configurationSpaceWrite. -/
def Obligations.HostWindowExportsAndAttention : Prop :=
  (
  (∀ (s : State) (a : Nat), s.shut = false → exec (.bar2Read (9 * a) 9) s =
    .next ((s.dramRead a).2.emit (.bar2 (leBytes (s.dramRead a).1.1.toNat 9) (s.dramRead a).1.2))) ∧
  (∀ (s : State) (a : Nat) (v : W72), s.shut = false → exec (.bar2Write (9 * a) (leBytes v.toNat 9)) s = .next (s.dramWrite a v false)) ∧
  (∀ (s : State) (a : Nat) (k : Fin 9) (b : Byte), s.shut = false → exec (.bar2Write (9 * a + k) [b]) s =
    .next ((s.dramRead a).2.dramWrite a (BitVec.ofNat 72 (ofLeBytes ((leBytes (s.dramRead a).1.1.toNat 9).set k b))) (s.dramRead a).1.2)) ∧
  (∀ v : W72, ofLeBytes (leBytes v.toNat 9) = v.toNat) ∧
  (∀ (s : State) (q : Req) (v : Fin 128) (x : W72) (r : List W72), s.shut = false → (s.queue v).items = x :: r →
    exec (.exportPop q v) s = .next (s.setQueue v { s.queue v with items := r })) ∧
  (∀ (s : State) (q : Req) (v : Fin 128), (s.queue v).items = [] → exec (.exportPop q v) s = .next s)) ∧
  (
  (∀ (s : State) (v : Vec), 240 ≤ v.val → v.val < 256 → exec (.attnEvent v) s = .next s) ∧
  (∀ (s : State) (v : Vec), s.shut = false → 192 ≤ v.val → v.val < 240 ∨ 256 ≤ v.val → s.rbit Reg.attnCtrl 1 = false →
    ∃ t, exec (.attnEvent v) s = .next t ∧ (t.vec v).nseq = (s.vec v).nseq + 1 ∧ t.rbit (Reg.attnLatch (v / 32)) (v % 32) = true ∧
      (s.msixOn = true → s.bme = true → s.msixMasked v = false → t.msixPending v = s.msixPending v ∧
        t.tx = s.tx ++ [.msix v (s.msixWord (4 * v + 1) ++ s.msixWord (4 * v)) (s.msixWord (4 * v + 2))]) ∧
      (s.msixMasked v = true ∨ s.bme = false → t.tx = s.tx ∧ t.msixPending v = true) ∧
      ∀ k, k ≠ v.val → t.vec k = s.vec k) ∧
  (∀ (s : State) (v : Vec), s.shut = false → v.val < 192 → (s.vec v).cnt + 1 < s.fld (Reg.attnMod v) 7 0 → s.fld (Reg.attnMod v) 31 16 = 0 →
    ∃ t, exec (.attnEvent v) s = .next t ∧ (t.vec v).cnt = (s.vec v).cnt + 1 ∧ (t.vec v).nseq = (s.vec v).nseq ∧ t.tx = s.tx ∧
      t.regs = s.regs) ∧
  (∀ (s : State) (v : Vec), s.shut = false → v.val < 192 → max (s.fld (Reg.attnMod v) 7 0) 1 ≤ (s.vec v).cnt + 1 →
    ∃ t, exec (.attnEvent v) s = .next t ∧ (t.vec v).cnt = 0 ∧ (t.vec v).nseq = (s.vec v).nseq + 1 ∧
      t.rbit (Reg.attnLatch (v / 32)) (v % 32) = true) ∧
  (∀ (s : State) (v : Vec), v.val < 192 → (s.vec v).cnt ≠ 0 → s.fld (Reg.attnMod v) 31 16 ≠ 0 →
    ∃ t, exec (.moderationTimeout v) s = .next t ∧ (t.vec v).cnt = 0 ∧ (t.vec v).nseq = (s.vec v).nseq + 1 ∧
      t.rbit (Reg.attnLatch (v / 32)) (v % 32) = true) ∧
  (∀ (s : State) (v : Vec), (s.vec v).cnt = 0 → exec (.moderationTimeout v) s = .next s) ∧
  (∀ (s : State) (v : Vec), s.shut = false → s.msixOn = true → s.bme = true → s.funcMask = false → s.msixPending v = true →
    ∃ t, exec (.msixUnmask v) s = .next t ∧ t.msixPending v = false ∧ t.msixMasked v = false ∧ 
      t.tx = s.tx ++ [.msix v (s.msixWord (4 * v + 1) ++ s.msixWord (4 * v)) (s.msixWord (4 * v + 2))]) ∧
  (∀ (s : State) (v : Vec), s.shut = false → s.msixPending v = false →
    ∃ t, exec (.msixUnmask v) s = .next t ∧ (s.funcMask = false → t.msixMasked v = false) ∧ t.tx = s.tx) ∧
  (∀ (s : State) (en fm : Bool), ∃ t, exec (.configurationSpaceWrite false en fm) s = .next t ∧ t.bme = false ∧ t.msixOn = en ∧
    t.funcMask = fm ∧ t.tx = s.tx ∧ t.msix = s.msix) ∧
  (∀ (s : State), ∃ t, exec (.configurationSpaceWrite true true false) s = .next t ∧ t.bme = true ∧ t.msixOn = true ∧
    t.funcMask = false ∧ ∀ v : Vec, bitOf (s.msixWord (4 * v + 3)) 0 = false → t.msixPending v = false))

/-- A frame of a chain takes a snapshot no code of which passes a ceiling, is latched only behind its marker, and becomes active at
PSYNC. Rests on R330, R331, R334, R336, R337, R345, R346, R347. Its conclusion is that exec answers a next state for
lampFrameStart, lampShiftDone, lampFrameEnd, psync. -/
def Obligations.LampFramesOfAChain : Prop :=
  (∀ (c gc per pceil : Nat) (de dark blank diag : Bool),
    (lampCode c gc per pceil de dark blank diag).1 ≤ min (gc * per / 255) (pceil * per / 127) ∧
      (blank = true → (lampCode c gc per pceil de dark blank diag).1 = 0) ∧
      (diag = false → (lampCode c gc per pceil de dark blank diag).1 ≤ c)) ∧
  (∀ (s : State) (p : Port4), s.lampOn p = true → s.lampMode p = 0 → (s.lamp p).inFrame = false →
    let l := s.lampSnapshot p (s.diagDue p && !s.lampBlank p)
    ∃ t, exec (.lampFrameStart p) s = .next t ∧ (t.lamp p).inFrame = true ∧ (t.lamp p).codes = l.1.map Prod.fst ∧
      (t.lamp p).elig = l.1.map Prod.snd ∧ (t.lamp p).shifted = false ∧
      t.tx = l.2.tx ++ [.lampFrame p (l.2.lampMarker p) (l.1.map Prod.fst).reverse]) ∧
  (∀ (s : State) (p : Port4), s.lampOn p = true → s.lampMode p = 1 → (s.lamp p).inFrame = false → s.lampBlank p = false →
    ∃ t, exec (.lampFrameStart p) s = .next t ∧ (t.lamp p).inFrame = true ∧ (t.lamp p).polls = List.range (s.lampLen p) ∧
      (t.lamp p).shown = (s.lampSnapshot p (s.diagDue p)).1.map Prod.fst) ∧
  (∀ (s : State) (p : Port4), s.lampOn p = false → exec (.lampFrameStart p) s = .next s) ∧
  (∀ (s : State) (p : Port4) (slots : List (BitVec 16)), s.lampMode p = 0 → (s.lamp p).inFrame = true → (s.lamp p).shifted = false →
    exec (.lampShiftDone p (s.lamp p).marker slots) s = .next ((s.setLamp p { s.lamp p with
      shifted := true
      slots := some (chainSlots (s.lampLen p) slots) }).setRbit (Reg.lampStat p) 1 true)) ∧
  (∀ (s : State) (p : Port4) (m : W32) (slots : List (BitVec 16)), s.lampMode p = 0 → (s.lamp p).inFrame = true →
    (s.lamp p).shifted = false → m ≠ (s.lamp p).marker →
    ∃ t, exec (.lampShiftDone p m slots) s = .next t ∧ (t.lamp p).slots = none ∧ (t.lamp p).shifted = true ∧
      t.rbit (Reg.lampStat p) 1 = false ∧ t.reg (Reg.lampChainErrCnt p) = s.reg (Reg.lampChainErrCnt p) + 1 ∧
      t.rbit Reg.lampFault (16 + p) = true) ∧
  (∀ (s : State) (p : Port4), s.lampMode p = 0 → (s.lamp p).inFrame = true → (s.lamp p).shifted = true → (s.lamp p).slots = none →
    ∃ t, exec (.lampFrameEnd p) s = .next t ∧ (t.lamp p).inFrame = false ∧ (t.lamp p).pend = (s.lamp p).pend ∧
      t.lampOuts = s.lampOuts ∧ t.reg (Reg.lampFrameCnt p) = s.reg (Reg.lampFrameCnt p) + 1) ∧
  (∀ (s : State) (p : Port4) (slots : List (BitVec 16)), s.lampMode p = 0 → (s.lamp p).inFrame = true → (s.lamp p).shifted = true →
    (s.lamp p).slots = some slots →
    ∃ t, exec (.lampFrameEnd p) s = .next t ∧ (t.lamp p).inFrame = false ∧ (t.lamp p).pend = some ((s.lamp p).codes, (s.lamp p).diag) ∧
      (t.lamp p).active = (s.lamp p).active ∧ t.reg (Reg.lampFrameCnt p) = s.reg (Reg.lampFrameCnt p) + 1) ∧
  (∀ (s : State) (p : Port4) (c : List Nat), s.lampOn p = true → s.lampMode p = 0 → (s.lamp p).pend = some (c, false) →
    exec (.psync p) s = .next ((s.emit (.psync p)).setLamp p { s.lamp p with
      pend := none
      active := c
      shown := c })) ∧
  (∀ (s : State) (p : Port4) (c : List Nat), s.lampOn p = true → s.lampMode p = 0 → (s.lamp p).pend = some (c, true) →
    exec (.psync p) s = .next ((s.emit (.psync p)).setLamp p { s.lamp p with
      pend := none
      shown := c })) ∧
  (∀ (s : State) (p : Port4), s.lampOn p = true → s.lampMode p = 0 → (s.lamp p).pend = none →
    exec (.psync p) s = .next ((s.emit (.psync p)).setLamp p { s.lamp p with shown := (s.lamp p).active })) ∧
  (∀ (s : State) (p : Port4), s.lampOn p = true → s.lampMode p = 1 →
    exec (.psync p) s = .next (s.setLamp p { s.lamp p with shown := (s.lamp p).active }))

/-- The bus polls modules in turn, a matrix shows its planes in turn, blanking acts at once, and a stale thermistor gives the FAIL
ceiling. Rests on R333, R338, R339, R340, R341, R343, R346. Its conclusion is that exec answers a next state for busReply,
busReplyTimeout, matrixPlane, emergBlankSet, emergBlankClear, thStaleExpire. -/
def Obligations.LampBusMatrixAndBlanking : Prop :=
  (∀ (s : State) (p : Port4) (m : Nat) (r : List Nat) (bytes : List Byte), (s.lamp p).inFrame = true → (s.lamp p).polls = m :: r →
    m < 4096 → bytes.length = 33 → crc8 (bytes.take 32) = bytes.getD 32 0 →
    ∃ t, exec (.busReply p m bytes) s = .next t ∧ (t.lamp p).polls = r ∧
      t.reg (Reg.lampBusErrCnt p) = s.reg (Reg.lampBusErrCnt p) ∧
      (∀ k : Fin 16, t.lampOuts.get 0 (outKey p (16 * m + k)) =
        outStep (BitVec.ofNat 16 (ofLeBytes ((bytes.drop (2 * k)).take 2))) (((s.lamp p).past.getD 1 []).getD (16 * m + k) false)
          (s.lampOuts.get 0 (outKey p (16 * m + k)))) ∧
      ∀ o, o < 16 * m ∨ 16 * m + 16 ≤ o → t.lampOuts.get 0 (outKey p o) = s.lampOuts.get 0 (outKey p o)) ∧
  (∀ (s : State) (p : Port4) (m : Nat) (r : List Nat) (bytes : List Byte), (s.lamp p).inFrame = true → (s.lamp p).polls = m :: r →
    bytes.length ≠ 33 ∨ crc8 (bytes.take 32) ≠ bytes.getD 32 0 →
    ∃ t, exec (.busReply p m bytes) s = .next t ∧ (t.lamp p).polls = r ∧ t.lampOuts = s.lampOuts ∧
      t.reg (Reg.lampBusErrCnt p) = s.reg (Reg.lampBusErrCnt p) + 1 ∧ t.rbit Reg.lampFault (20 + p) = true) ∧
  (∀ (s : State) (p : Port4) (m : Nat) (r : List Nat), (s.lamp p).inFrame = true → (s.lamp p).polls = m :: r →
    ∃ t, exec (.busReplyTimeout p m) s = .next t ∧ (t.lamp p).polls = r ∧ t.lampOuts = s.lampOuts ∧
      t.reg (Reg.lampBusErrCnt p) = s.reg (Reg.lampBusErrCnt p) + 1 ∧ t.rbit Reg.lampFault (20 + p) = true) ∧
  (∀ (slot : BitVec 16) (v : BitVec 18), slot.getLsbD 13 = false → slot.getLsbD 15 = false →
    field (outStep slot true v) 15 0 = min (field v 15 0 + 1) 65535 ∧ field (outStep slot false v) 15 0 = field v 15 0) ∧
  (∀ (s : State) (p : Port4) (b : Nat), s.lampOn p = true → s.lampMode p = 2 → s.lampBlank p = false → (s.lamp p).inFrame = true →
    (s.lamp p).plane = some b → s.fld (Reg.lampMxCfg p) 27 24 < b →
    ∃ t, exec (.matrixPlane p) s = .next t ∧ (t.lamp p).plane = some (b - 1) ∧ (t.lamp p).row = (s.lamp p).row) ∧
  (∀ (s : State) (p : Port4) (b : Nat), s.lampOn p = true → s.lampMode p = 2 → s.lampBlank p = false → (s.lamp p).inFrame = true →
    (s.lamp p).plane = some b → b ≤ s.fld (Reg.lampMxCfg p) 27 24 → (s.lamp p).row + 1 < s.lampLen p →
    ∃ t, exec (.matrixPlane p) s = .next t ∧ (t.lamp p).plane = none ∧ (t.lamp p).row = (s.lamp p).row + 1) ∧
  (∀ (s : State) (p : Port4) (b : Nat), s.lampOn p = true → s.lampMode p = 2 → s.lampBlank p = false → (s.lamp p).inFrame = true →
    (s.lamp p).plane = some b → b ≤ s.fld (Reg.lampMxCfg p) 27 24 → s.lampLen p ≤ (s.lamp p).row + 1 →
    ∃ t, exec (.matrixPlane p) s = .next t ∧ (t.lamp p).inFrame = false ∧
      t.reg (Reg.lampFrameCnt p) = s.reg (Reg.lampFrameCnt p) + 1) ∧
  (∀ (s : State) (p : Port4), s.lampOn p = true → s.lampMode p = 2 → s.lampBlank p = false → (s.lamp p).inFrame = false →
    ∃ t, exec (.matrixPlane p) s = .next t ∧
      (t.lamp p).words.length = s.lampLen p * (s.fld (Reg.lampMxCfg p) 31 28 + 1 - s.fld (Reg.lampMxCfg p) 27 24)) ∧
  (∀ (s : State) (q : Req) (p : Port4), s.shut = false → ∃ t, exec (.emergBlankSet q p) s = .next t ∧ t.lampBlank p = true ∧
    t.rbit (Reg.lampStat p) 3 = true ∧ (s.lampMode p ≠ 0 → (t.lamp p).inFrame = false ∧ (t.lamp p).polls = []) ∧
    (s.lampMode p = 0 → t.lamp p = s.lamp p)) ∧
  (∀ (s : State) (q : Req) (p : Port4), s.shut = false → s.rbit Reg.lampEmerg p = true → (s.lamp p).inFrame = false →
    exec (.emergBlankClear q p) s = .next (s.setRbit Reg.lampEmerg p false)) ∧
  (∀ (s : State) (q : Req) (p : Port4), s.shut = false → s.rbit Reg.lampEmerg p = true → (s.lamp p).inFrame = true → exec (.emergBlankClear q p) s =
    .next ((s.setRbit Reg.lampEmerg p false).setLamp p { s.lamp p with snapBlank := true })) ∧
  (∀ (s : State) (q : Req) (p : Port4), s.rbit Reg.lampEmerg p = false → exec (.emergBlankClear q p) s = .next s) ∧
  (∀ (s : State) (k : Fin 16), s.rbit (Reg.lampThTemp k) 16 = true → s.rbit (Reg.lampThTemp k) 17 = false →
    ∃ t, exec (.thStaleExpire k) s = .next t ∧ t.rbit (Reg.lampThTemp k) 17 = true ∧ t.rbit Reg.lampFault 3 = true ∧
      t.thCeil k = s.fld (Reg.lampThCfg k) 7 0) ∧
  (∀ (s : State) (k : Fin 16), s.rbit (Reg.lampThTemp k) 16 = false ∨ s.rbit (Reg.lampThTemp k) 17 = true →
    exec (.thStaleExpire k) s = .next s)

/-- A write of PWR_CTRL starts the transitions it asks for, each transition ends as it was asked, and a change of the core clock
stalls the cores. Rests on R25, R193, R427, R428, R431, R447. The model's choice: minimal mode holds the bits of the data
plane's domains at 0 (log entry 101), and nothing happens to a domain in no transition (log entry 2). Its conclusion is that
exec answers a next state for pwrCtrlWrite, domainReadyToGate, domainPowered, domainFail, cclkSelChange, corePllRelock, perstN,
dieHotWarning, supplyWarn. -/
def Obligations.PowerDomainsAndClock : Prop :=
  (∀ (s : State) (q : Req) (v : W32), s.shut = false → s.minimal = false → s.pwrCheck v = none →
    ∃ t, exec (.pwrCtrlWrite q v) s = .next t ∧ t.reg Reg.sysPwrCtrl = v &&& 0x1F ∧
      ∀ d : Fin 5, t.domOn d = s.domOn d ∧ t.domTrans d = (s.domTrans d || (s.domAsked d != v.getLsbD d))) ∧
  (∀ (s : State) (q : Req) (v : W32) (c : Cause), s.shut = false → s.minimal = false → s.pwrCheck v = some c →
    exec (.pwrCtrlWrite q v) s = .next (s.err 0 c 0x18 q)) ∧
  (∀ (s : State) (q : Req) (v : W32), s.shut = false → s.minimal = true → s.pwrCheck (v &&& 0x10) = none →
    ∃ t, exec (.pwrCtrlWrite q v) s = .next t ∧ t.reg Reg.sysPwrCtrl = v &&& 0x10) ∧
  (∀ (s : State) (d : Dom) (late : List McEdge), s.domTrans (Dom.bit d) = true → s.domAsked (Dom.bit d) = false → s.domMayGate d = true →
    ∃ t, exec (.domainReadyToGate ⟨d, late⟩) s = .next t ∧ t.domOn (Dom.bit d) = false ∧ t.domTrans (Dom.bit d) = false ∧
      (d = .mem → t.dram = .empty) ∧ (d ≠ .mem → t.dram = s.dram)) ∧
  (∀ (s : State) (d : Dom) (late : List McEdge), s.domTrans (Dom.bit d) = false ∨ s.domMayGate d = false → exec (.domainReadyToGate ⟨d, late⟩) s = .next s) ∧
  (∀ (s : State) (d : Dom), s.domTrans (Dom.bit d) = true → s.domAsked (Dom.bit d) = true →
    ∃ t, exec (.domainPowered d) s = .next t ∧ t.domOn (Dom.bit d) = true ∧ t.domTrans (Dom.bit d) = false) ∧
  (∀ (s : State) (d : Dom), s.domTrans (Dom.bit d) = true → s.domAsked (Dom.bit d) = true →
    exec (.domainFail d) s = .next ((s.setRbit Reg.sysPwrStat (8 + Dom.bit d) false).fault Reg.sysFault 4)) ∧
  (∀ (s : State) (q : Req) (v : W32), s.shut = false → 12 < field v 3 0 →
    exec (.cclkSelChange q v) s = .next (s.err 0 .enc 0x20 q)) ∧
  (∀ (s : State) (q : Req) (v : W32), s.shut = false → field v 3 0 < 8 → s.anyVendor = true →
    exec (.cclkSelChange q v) s = .next (s.err 0 .busy 0x20 q)) ∧
  (∀ (s : State) (q : Req) (v : W32), s.shut = false → field v 3 0 ≤ 12 → s.anyVendor = false →
    field v 3 0 ≠ s.fld Reg.sysClkCtrl 3 0 →
    exec (.cclkSelChange q v) s = .next { s.setReg Reg.sysClkCtrl (v &&& 0x1F0F) with stalled := true }) ∧
  (∀ (s : State), exec .corePllRelock s = .next { s with stalled := false }) ∧
  (∀ (s : State), ∃ t, exec .perstN s = .next t ∧ (∀ i, t.msixWord i = msixDefault i) ∧ t.funcMask = false ∧
    t.reg Reg.attnStatus = 0 ∧ (∀ a, a ≠ Reg.attnStatus → t.reg a = s.reg a) ∧ t.dram = s.dram ∧ t.cores = s.cores ∧ t.heads = s.heads) ∧
  (∀ (s : State), s.boot.held = false → exec .dieHotWarning s = .next (s.fault Reg.sysFault 1)) ∧
  (∀ (s : State), s.boot.held = false → exec .supplyWarn s = .next (s.fault Reg.sysFault 2))

/-- Every reset reports its cause and kind, returns every other register to its reset value, takes every laser enable down and keeps
what R430 keeps. Rests on R429, R430, R431, R435, R437, R438, R454. The model's choice: sources between which no idle tick and
no boot attempt lies are of one cycle (log entry 111). Its conclusion is that exec answers a next state for por, resetN,
brownout, glitch, softCold, softWarm, retry, minimal, watchdog, dieHot, dieHotRelease. -/
def Obligations.EveryResetAndItsCause : Prop :=
  (∀ (s : State) (q : Req), s.shut = false →
    let left (t : State) (cause : Nat) (cold : Bool) : Prop :=
      t.fld Reg.sysResetWhy 3 0 = cause ∧ t.rbit Reg.sysBootStat 5 = cold ∧ (∀ h : Head, t.lasen h = false ∧ (t.head h).gates = 0) ∧
      (∀ a, a ∉ [Reg.sysResetWhy, Reg.sysBootStat, Reg.sysBootWhy, Reg.sysWdogCnt, Reg.lifeState, Reg.lifeTransCnt, Reg.lifeRollbackMin,
        Reg.timeSrcStatus, Reg.mcNrfSeed 0, Reg.mcNrfSeed 1] → t.reg a = resetOf a) ∧
      (∀ m : Mc, t.reg (Reg.mcNrfSeed m) ≠ 0) ∧
      t.cores = .empty ∧ t.zones = .empty ∧ t.sram = .empty ∧ t.cmem = .empty ∧ t.imem = .empty ∧ t.wide = .empty ∧ t.msix = .empty ∧
      t.fabric = [] ∧ t.evq = [] ∧ t.pending = s.pending ∧ t.reg Reg.lifeState = s.reg Reg.lifeState ∧
      t.reg Reg.lifeRollbackMin = s.reg Reg.lifeRollbackMin ∧ t.reg Reg.lifeTransCnt = s.reg Reg.lifeTransCnt ∧
      t.reg Reg.timeSrcStatus = s.reg Reg.timeSrcStatus &&& 0x30 ∧ t.nvm.cfg = s.nvm.cfg ∧ t.nvm.cal = s.nvm.cal ∧ t.nvm.ops = []
    let first (c : Nat) : Prop := ∀ k, s.boot.cause = some k → c ≤ k
    (∃ t, exec .por s = .next t ∧ left t 0 true ∧ t.boot.cause = some 0) ∧
    (first 1 → ∃ t, exec .resetN s = .next t ∧ left t 1 true ∧ t.boot.cause = some 1) ∧
    (first 2 → ∃ t, exec .brownout s = .next t ∧ left t 2 true ∧ t.boot.cause = some 2) ∧
    (first 3 → ∃ t, exec .glitch s = .next t ∧ left t 3 true ∧ t.boot.cause = some 3) ∧
    (first 4 → ∃ t, exec (.softCold q) s = .next t ∧ left t 4 true ∧ t.boot.cause = some 4) ∧
    (first 5 → (∃ t, exec (.softWarm q) s = .next t ∧ left t 5 false ∧ t.boot.cause = some 5) ∧
      (∃ t, exec (.retry q) s = .next t ∧ left t 5 false) ∧ ∃ t, exec (.minimal q) s = .next t ∧ left t 5 false) ∧
    (first 6 → s.boot.running = false → ∃ t, exec .watchdog s = .next t ∧ left t 6 false) ∧
    (first 9 → ∃ t, exec .dieHot s = .next t ∧ left t 9 true)) ∧
  (∀ (s : State) (q : Req) (k : Nat), s.boot.cause = some k →
    (k < 1 → exec .resetN s = .next s) ∧ (k < 2 → exec .brownout s = .next s) ∧ (k < 3 → exec .glitch s = .next s) ∧
    (s.scrapped = false → k < 4 → exec (.softCold q) s = .next s) ∧ (s.scrapped = false → k < 5 → exec (.softWarm q) s = .next s) ∧
    (k < 9 → s.boot.held = false → exec .dieHot s = .next { s with boot := { s.boot with held := true } })) ∧
  (∀ (s : State) (q : Req), s.scrapped = false → s.boot.held = true → s.boot.cause = some 9 →
    ∃ t, exec (.softWarm q) s = .next t ∧ t.fld Reg.sysResetWhy 3 0 = 5 ∧ t.rbit Reg.sysBootStat 5 = false ∧ t.boot.held = true) ∧
  (∀ (s : State), s.pending = [] → s.shut = true → step s = .next { s with boot := { s.boot with cause := none } }) ∧
  (∀ (s : State), ∃ t, exec .por s = .next t ∧ t.dram = .empty ∧ t.reg Reg.sysBootWhy = 0 ∧ t.reg Reg.sysWdogCnt = 0) ∧
  (∀ (s : State), s.boot.cause = none →
    ∃ t, exec .resetN s = .next t ∧ t.dram = s.dram ∧ t.boot.fill = true ∧ t.reg Reg.sysBootWhy = s.reg Reg.sysBootWhy) ∧
  (∀ (s : State) (q : Req), s.shut = false → s.boot.cause = none →
    ∃ t, exec (.softWarm q) s = .next t ∧ t.dram = s.dram ∧ t.boot.fill = false ∧ t.reg Reg.sysBootWhy = s.reg Reg.sysBootWhy) ∧
  (∀ (s : State) (q : Req), s.shut = false → ∃ t, exec (.retry q) s = .next t ∧ t.fails = 0) ∧
  (∀ (s : State) (q : Req), s.shut = false → ∃ t, exec (.minimal q) s = .next t ∧ t.boot.manual = true) ∧
  (∀ (s : State), s.boot.held = false → ∃ t, exec .dieHot s = .next t ∧ t.boot.held = true) ∧
  (∀ (s : State), s.boot.held = true → exec .dieHot s = .next s) ∧
  (∀ (s : State), exec .dieHotRelease s = .next { s with boot := { s.boot with held := false } }) ∧
  (∀ (s : State), s.shut = false → s.boot.running = false →
    ∃ t, exec .watchdog s = .next t ∧ t.reg Reg.sysWdogCnt = s.reg Reg.sysWdogCnt + 1 ∧ t.fails = s.fails) ∧
  (∀ (s : State), s.shut = false → s.boot.cause = none → s.boot.running = true → s.rbit Reg.sysBootStat 0 = false → s.fails < 2 →
    ∃ t, exec .watchdog s = .next t ∧ t.reg Reg.sysWdogCnt = s.reg Reg.sysWdogCnt + 1 ∧ t.fails = s.fails + 1 ∧
      t.fld Reg.sysBootWhy 7 0 = 1 ∧ t.fld Reg.sysResetWhy 3 0 = 7)

/-- An attempt starts a valid image or fails with its reason; the third failure enters minimal mode; DONE ends a boot. Rests on
R430, R433, R435, R436, R437, R439, R440, R442. The model's choice: a loader that may not act changes nothing (log entry 2). Its
conclusion is that exec answers a next state for bootAttempt, bootFailure, dramFillDone, bootDone. -/
def Obligations.BootAttemptsAndMinimalMode : Prop :=
  (∀ (s : State) (a b : Bool) (l : List (Nat × BitVec 72)), s.booting = false ∨ s.boot.running = true →
    exec (.bootAttempt ⟨a, b⟩ l) s = .next s) ∧
  (∀ (s : State) (l : List (Nat × BitVec 72)), s.booting = true → s.boot.running = false → s.nvm.pending = none → s.boot.manual = false →
    s.fails < 2 →
    ∃ t, exec (.bootAttempt ⟨false, false⟩ l) s = .next t ∧ t.fld Reg.sysBootWhy 7 0 = 2 ∧ t.fails = s.fails + 1 ∧
      t.fld Reg.sysResetWhy 3 0 = 7) ∧
  (∀ (s : State) (a b x : Bool) (l : List (Nat × BitVec 72)), s.booting = true → s.boot.running = false → s.nvm.pending = none →
    s.boot.manual = false → s.fails < 3 →
    s.imageChoice ((s.nvmScan l).imageValid false a) ((s.nvmScan l).imageValid true b) = some x → s.nvm.restore = false →
    s.nvm.cfg.1.written = false → s.nvm.cfg.2.written = false →
    ∃ t, exec (.bootAttempt ⟨a, b⟩ l) s = .next t ∧ t.boot.running = true ∧ t.boot.tried = x ∧ t.rbit Reg.sysBootStat 2 = x ∧
      t.rbit Reg.sysBootStat 3 = true ∧ t.rbit Reg.sysBootStat 0 = false) ∧
  (∀ (s : State) (b sig : Bool) (l : List (Nat × BitVec 72)) (w : BitVec 72), w ∈ (s.nvm.flip l).worn (nvmImage b.toNat) → 2 ≤ flipped w →
    (s.nvmScan l).imageValid b sig = false) ∧
  (∀ (s : State) (a b : Bool) (l : List (Nat × BitVec 72)), s.booting = true → s.boot.running = false → s.nvm.pending = none →
    s.boot.manual = true →
    ∃ t, exec (.bootAttempt ⟨a, b⟩ l) s = .next t ∧ t.minimal = true ∧ t.fld Reg.sysBootWhy 7 0 = 5 ∧ t.boot.manual = false ∧
      ∀ k w, k < 9 → w ∈ (s.nvm.flip l).worn k → (flipped w = 1 → t.rbit Reg.nvmFault 2 = true) ∧ (2 ≤ flipped w → t.rbit Reg.nvmFault 3 = true)) ∧
  (∀ (s : State) (why : Byte), s.booting = true → 1 ≤ why.toNat → why.toNat ≤ 4 → s.fails < 2 →
    ∃ t, exec (.bootFailure why) s = .next t ∧ t.fld Reg.sysBootWhy 7 0 = why.toNat ∧
      t.fld Reg.sysBootWhy 15 8 = s.fld Reg.sysBootWhy 7 0 ∧ t.fails = s.fails + 1 ∧ t.fld Reg.sysResetWhy 3 0 = 7 ∧ t.dram = s.dram) ∧
  (∀ (s : State) (why : Byte), s.booting = true → 1 ≤ why.toNat → why.toNat ≤ 4 → 2 ≤ s.fails →
    ∃ t, exec (.bootFailure why) s = .next t ∧ t.minimal = true ∧ t.fails = 3 ∧ t.fld Reg.sysPwrStat 3 0 = 0 ∧
      ∀ h : Head, t.rbit (Reg.headCtrl h) 0 = false) ∧
  (∀ (s : State), s.booting = true → s.boot.running = true → s.boot.fill = true → s.memReady = true →
    exec .dramFillDone s = .next { s with
      dram := .empty
      boot := { s.boot with fill := false, filled := true } }) ∧
  (∀ (s : State), s.booting = true → s.boot.running = true → s.boot.fill = false → s.memReady = true → s.cfgIn = none →
    ∃ t, exec .bootDone s = .next t ∧ t.rbit Reg.sysBootStat 0 = true ∧ t.fld Reg.sysBootWhy 7 0 = 0 ∧ t.fails = 0) ∧
  (∀ (s : State), s.booting = false ∨ s.memReady = false → exec .bootDone s = .next s ∧ exec .dramFillDone s = .next s)

/-- Images, stores and life-cycle transitions go through the eNVM: who may ask, what is refused, and what a completed operation
leaves. Rests on R388, R398, R399, R400, R434, R438, R439, R442, R443, R444, R445. The model's choice: the refusal is recorded
in SYS at the window's offset (log entry 70). Its conclusion is that exec answers a next state for imageWrite, nvmOperationDone,
store, restoreDefaults, lifeGo, bootAttempt. -/
def Obligations.EnvmImagesStoresAndLifeCycle : Prop :=
  (∀ (s : State) (p : Path) (b m ok : Bool) (ofs r : Nat) (d : List Byte), s.pathRole p = some r → r < 3 →
    exec (.imageWrite p b ofs m d ok) s = .next (s.emit (.object 0x06010000 []))) ∧
  (∀ (s : State) (p : Path) (b m ok : Bool) (ofs r : Nat) (d : List Byte), s.pathRole p = some r → 3 ≤ r →
    s.rbit Reg.nvmWriteCtrl 0 = false →
    exec (.imageWrite p b ofs m d ok) s = .next ((s.fault Reg.nvmFault 1).emit (.object 0x08000020 []))) ∧
  (∀ (s : State) (p : Path) (b ok : Bool) (r : Nat) (d : List Byte), s.pathRole p = some r → 3 ≤ r → s.nvmMay 0 b.toNat = true →
    d.length ≤ 1572864 →
    ∃ t, exec (.imageWrite p b 0 true d ok) s = .next t ∧ (imageAt t.nvm.img b).bytes = d ∧ (imageAt t.nvm.img b).valid = false ∧
      imageAt t.nvm.img (!b) = imageAt s.nvm.img (!b) ∧ t.nvm.ops = s.nvm.ops ++ [.image b] ∧ t.fails = s.fails ∧
      t.tx = s.tx ++ [.object 0 []]) ∧
  (∀ (s : State) (p : Path) (b : Bool) (r ofs : Nat) (d : List Byte), s.pathRole p = some r → 3 ≤ r → s.nvmMay 0 b.toNat = true →
    ofs + d.length ≤ 1572864 →
    ∃ t, exec (.imageWrite p b ofs false d true) s = .next t ∧ (imageAt t.nvm.img b).ok = true ∧ t.fails = 0 ∧
      (imageAt t.nvm.img b).valid = false) ∧
  (∀ (s : State) (p : Path) (b : Bool) (r ofs : Nat) (d : List Byte), s.pathRole p = some r → 3 ≤ r → s.nvmMay 0 b.toNat = true →
    ofs + d.length ≤ 1572864 →
    ∃ t, exec (.imageWrite p b ofs false d false) s = .next t ∧ (imageAt t.nvm.img b).valid = false ∧ (imageAt t.nvm.img b).ok = false ∧
      (imageAt t.nvm.img b).bytes.take 4096 = List.replicate 4096 0xFF ∧ t.tx = s.tx ++ [.object 0x08000020 []]) ∧
  (∀ (s : State) (b ok : Bool), .image b ∈ s.nvm.ops →
    ∃ t, exec (.nvmOperationDone ⟨.image b, ok⟩) s = .next t ∧ t.nvm.ops = s.nvm.ops.erase (.image b) ∧
      (imageAt t.nvm.img b).valid = (if .image b ∈ s.nvm.ops.erase (.image b) then (imageAt s.nvm.img b).valid
        else (imageAt s.nvm.img b).ok && !(imageAt s.nvm.img b).bad && ok) ∧
      (ok = false → t.rbit Reg.nvmFault 1 = true)) ∧
  (∀ (s : State) (p : Path) (ok : Bool) (r : Nat), s.pathRole p = some r → r < 2 →
    exec (.store p ok) s = .next (s.emit (.object 0x06010000 []))) ∧
  (∀ (s : State) (p : Path) (r : Nat), s.pathRole p = some r → 2 ≤ r → s.minimal = false → s.nvmMay 1 2 = true → s.nvm.waiters = [] →
    ∃ t, exec (.store p true) s = .next t ∧ t.nvm.ops = s.nvm.ops ++ [.config] ∧ t.nvm.waiters = [(p, 0, true)] ∧
      t.nvm.snap = s.snapshot ∧ (cfgSlotAt t.nvm.cfg s.cfgOut).valid = false ∧ t.tx = s.tx) ∧
  (∀ (s : State) (p : Path) (sig : W32) (r : Nat), s.pathRole p = some r → 2 ≤ r → s.minimal = false →
    exec (.restoreDefaults p sig) s = .next (if sig = 0x64616F6C then
      ({ s with nvm := { s.nvm with restore := true } } : State).emit (.object 0 []) else s.emit (.object 0x08000020 []))) ∧
  (∀ (s : State) (p : Path) (ok : Bool), s.nvm.ops = [.config] → s.nvm.waiters = [(p, 0, ok)] →
    (∃ t, exec (.nvmOperationDone ⟨.config, true⟩) s = .next t ∧ t.nvm.ops = [] ∧ t.nvm.waiters = [] ∧
      cfgSlotAt t.nvm.cfg s.cfgOut = s.nvm.snap.seal ∧ .object 0 [] ∈ t.tx) ∧
    ∃ t, exec (.nvmOperationDone ⟨.config, false⟩) s = .next t ∧ t.nvm.ops = [] ∧ t.nvm.waiters = [] ∧ t.nvm.cfg = s.nvm.cfg ∧
      t.rbit Reg.nvmFault 1 = true ∧ .object 0x08000020 [] ∈ t.tx) ∧
  (∀ x : CfgSlotNv, x.written = true → x.seal.valid = true) ∧
  (∀ x : CalSlotNv, x.written = true → x.seal.valid = true) ∧
  (∀ (s : State) (ok : Bool), .secrets ∈ s.nvm.ops →
    ∃ t, exec (.nvmOperationDone ⟨.secrets, ok⟩) s = .next t ∧ t.nvm.ops = s.nvm.ops.erase .secrets ∧ (ok = false → t.rbit Reg.nvmFault 1 = true)) ∧
  (∀ (s : State), s.nvm.ops = [.lifeRecord] →
    ∃ t, exec (.nvmOperationDone ⟨.lifeRecord, false⟩) s = .next t ∧ t.nvm.lifeAsked = none ∧ t.nvm.pending = s.nvm.pending ∧
      t.rbit Reg.nvmFault 1 = true) ∧
  (∀ (s : State), s.nvm.ops = [.lifeRecord] →
    ∃ t, exec (.nvmOperationDone ⟨.lifeRecord, true⟩) s = .next t ∧ t.nvm.pending = s.nvm.lifeAsked ∧ t.fld Reg.sysResetWhy 3 0 = 8) ∧
  (∀ (s : State) (op : NvmOp) (ok : Bool), op ∉ s.nvm.ops → exec (.nvmOperationDone ⟨op, ok⟩) s = .next s) ∧
  (∀ (s : State) (q : Req), s.shut = false → s.rbit Reg.lifeStateCtrl 31 = true →
    exec (.lifeGo q) s = .next (s.err 0 .locked 0 q)) ∧
  (∀ (s : State) (q : Req), s.shut = false → s.rbit Reg.lifeStateCtrl 31 = false →
    s.lifeTargetOk (s.fld Reg.lifeStateCtrl 5 4) = false →
    exec (.lifeGo q) s = .next ((s.err 0 .range 0 q).fault Reg.lifeFault 1)) ∧
  (∀ (s : State) (q : Req), s.shut = false → s.rbit Reg.lifeStateCtrl 31 = false →
    s.lifeTargetOk (s.fld Reg.lifeStateCtrl 5 4) = true →
    ∃ t, exec (.lifeGo q) s = .next t ∧ t.nvm.lifeAsked = some (s.fld Reg.lifeStateCtrl 5 4) ∧
      t.nvm.ops = s.nvm.ops ++ [.lifeRecord]) ∧
  (∀ (s : State) (a b : Bool) (l : List (Nat × BitVec 72)), s.booting = true → s.boot.running = false → s.nvm.pending = some 3 →
    ∃ t, exec (.bootAttempt ⟨a, b⟩ l) s = .next t ∧ t.scrapped = true ∧ t.nvm.pending = none ∧ t.dram = .empty ∧ t.nvm.cfg = ({}, {}) ∧
      t.reg Reg.lifeTransCnt = s.reg Reg.lifeTransCnt + 1)

/-- Reads and writes of dictionary entries answer with the value or one abort code, a refused write changes nothing, and LOCAL_GO
runs one request. Rests on R393, R395, R396, R397, R400, R420. The model's choice: where several codes apply the first of a
fixed order answers (log entry 62). Its conclusion is that exec answers a next state for dictRead, dictWrite, localGo. -/
def Obligations.DictionaryAccessAndLocalWindow : Prop :=
  (∀ (s : State) (p : Path) (idx : BitVec 16) (sub : Byte) (ofs : Nat), s.pathRole p = none → exec (.dictRead p idx sub ofs) s = .next s) ∧
  (∀ (s : State) (p : Path) (idx : BitVec 16) (sub : Byte) (ofs : Nat), s.pathRole p ≠ none →
    ∃ a b, exec (.dictRead p idx sub ofs) s = .next (s.emit (.object a b)) ∧
      (isKey idx.toNat = true → sub = 0 → a = 0x08000000 ∧ b = []) ∧
      (odRows idx.toNat = [] → a = 0x06020000 ∧ b = []) ∧
      (odRows idx.toNat ≠ [] → odRow idx.toNat 0 = none → sub = 0 → ofs = 0 → a = 0 ∧ b = [BitVec.ofNat 8 (odTop idx.toNat)]) ∧
      (∀ r, odRow idx.toNat sub.toNat = some r → isKey idx.toNat = false → ofs = 0 → r.acc ≠ .wo → odBytesOf r.type ≠ 0 →
        a = 0 ∧ b = leBytes (s.odNum idx.toNat sub.toNat) (odBytesOf r.type))) ∧
  (∀ (s : State) (p : Path) (role : Nat) (idx : BitVec 16) (sub ty : Byte) (ofs : Nat) (more : Bool) (data : List Byte) (r : OdRow),
    s.pathRole p = some role → odRow idx.toNat sub.toNat = some r → isStore idx.toNat sub.toNat = false →
    (r.acc = .const ∨ r.acc = .ro → exec (.dictWrite p idx sub ty ofs more data) s = .next (s.emit (.object 0x06010002 []))) ∧
    (r.acc ≠ .const → r.acc ≠ .ro → role < odWriteRole idx.toNat sub.toNat →
      exec (.dictWrite p idx sub ty ofs more data) s = .next (s.emit (.object 0x06010000 []))) ∧
    (r.acc ≠ .const → r.acc ≠ .ro → odWriteRole idx.toNat sub.toNat ≤ role → s.minimal = false →
      (ty.toNat ≠ odCode r.type ∨ odLengthOk r idx.toNat data = false) →
      exec (.dictWrite p idx sub ty ofs more data) s = .next (s.emit (.object 0x06070010 [])))) ∧
  (∀ (s : State) (p : Path) (role : Nat) (sub ty : Byte) (more : Bool) (data : List Byte), s.pathRole p = some role →
    s.odRefuse role 0x2010 sub.toNat ty.toNat 0 data = none →
    ∃ t, exec (.dictWrite p 0x2010 sub ty 0 more data) s = .next t ∧ t.tx = s.tx ++ [.object 0 []] ∧
      t.odv 0x2010 sub.toNat = ofLeBytes data ∧
      (∀ i k, i < 65536 → k < 256 → (i, k) ≠ (0x2010, sub.toNat) → t.odv i k = s.odv i k) ∧ ∀ a, t.reg a = s.reg a) ∧
  (∀ (s : State) (q : Req), s.shut = false → s.net.localBusy = true → exec (.localGo q) s = .next (s.err 0xE0000 .busy 0x24 q)) ∧
  (∀ (s : State) (q : Req), s.shut = false → s.net.localBusy = false → 24 ≤ s.localRequest.length → leAt s.localRequest 0 1 = 1 →
    leAt s.localRequest 1 1 = 1 → leAt s.localRequest 2 1 % 2 = 0 → (frameHdr s.localRequest).len ≤ 1400 →
    24 + (frameHdr s.localRequest).len ≤ s.localRequest.length →
    let x := s.readReply ((s.localRequest.drop 24).take (frameHdr s.localRequest).len)
    ∃ t, exec (.localGo q) s = .next t ∧ t.rbit Reg.netLocalStat 0 = true ∧ t.net.localBusy = false ∧
      t.reg Reg.netLocalLen = BitVec.ofNat 32 (24 + x.2.length) ∧ t.od = s.od ∧ t.odBytes = s.odBytes)

/-- Sessions open, time out and close as R405 says, subscriptions keep R408's limits, and verified frames are applied but no
replayed or unverified one. Rests on R369, R402, R403, R404, R405, R407, R408. The model's choice: a command of a session that
cannot occur changes nothing (log entry 2). Its conclusion is that exec answers a next state for sessionOpen, sessionConfirm,
sessionConfirmTimeout, sessionIdleTimeout, subscribeAdd, subscribeRemove, subscribeClear, subscriptionLeaseExpire,
yarfelFrameRx, broadcastWrite. -/
def Obligations.SessionsAndSubscriptions : Prop :=
  (∀ (s : State) (ip : IpAddr) (client : BitVec 16) (role : Byte) (nc : List Byte), s.yarfelOn = false →
    exec (.sessionOpen ip client role nc) s = .next s) ∧
  (∀ (s : State) (ip : IpAddr) (client : BitVec 16) (role : Byte) (nc : List Byte), s.yarfelOn = true → role.toNat ≤ 3 →
    (∀ i, i < 16 → ((s.session i).active || (s.session i).challenged) = true) →
    exec (.sessionOpen ip client role nc) s = .next (s.fault Reg.netFault 16)) ∧
  (∀ (s : State) (ip : IpAddr) (client : BitVec 16) (role : Byte) (nc : List Byte) (i : Nat), s.yarfelOn = true → role.toNat ≤ 3 →
    i < 16 → ((s.session i).active || (s.session i).challenged) = false →
    (∀ j, j < i → ((s.session j).active || (s.session j).challenged) = true) →
    ∃ t, exec (.sessionOpen ip client role nc) s = .next t ∧ t.tx.length = s.tx.length + (s.routes (s.peerIp client.toNat (ipIsV6 ip))).length ∧
      (t.session i).challenged = true ∧
      (t.session i).active = false ∧ (t.session i).role = role.toNat ∧ (t.session i).client = client.toNat ∧
      (t.session i).sid ≠ 0 ∧ (t.session i).sid ≠ 0xFFFFFFFF ∧ ∀ j, j ≠ i → t.session j = s.session j) ∧
  (∀ (s : State) (i : Fin 16) (ip : IpAddr), (s.session i).challenged = true →
    (∃ t, exec (.sessionConfirm ⟨i, ip⟩ true) s = .next t ∧ (t.session i).active = true ∧ (t.session i).challenged = false ∧
      (t.session i).key = (s.session i).key ∧ (t.session i).role = (s.session i).role ∧
      (t.reg Reg.netSessActive).toNat = ((List.range 16).filter fun j => decide (j = i.val) || (s.session j).active).length ∧
      ∀ j, j ≠ i.val → (t.session j).active = (s.session j).active ∧ (t.session j).subs = (s.session j).subs) ∧
    exec (.sessionConfirm ⟨i, ip⟩ false) s = .next ((s.count Reg.netAuthFailCnt 1).fault Reg.netFault 4) ∧
    exec (.sessionConfirmTimeout i) s = .next (s.setSession i {})) ∧
  (∀ (s : State) (i : Fin 16), (s.session i).active = true →
    ∃ t, exec (.sessionIdleTimeout i) s = .next t ∧ t.session i = {} ∧
      ∀ j, j ≠ i.val → (t.session j).active = (s.session j).active ∧ (t.session j).subs = (s.session j).subs) ∧
  (∀ (s : State) (i : Fin 16) (lease : Nat) (vs : List Nat), (s.session i).active = true →
    vs.all subscribable = true → vs.Nodup → (s.session i).subs.length + vs.length ≤ 64 →
    ∃ t, exec (.subscribeAdd i lease vs) s = .next t ∧ t.tx = s.tx ++ [.object 0 []] ∧
      ∀ v, v ∈ (t.session i).subs ↔ v ∈ vs ∨ v ∈ (s.session i).subs) ∧
  (∀ (s : State) (i : Fin 16) (lease v : Nat) (vs : List Nat), (s.session i).active = true → v ∈ vs →
    (240 ≤ v ∧ v ≤ 255) ∨ 511 < v → exec (.subscribeAdd i lease vs) s = .next (s.emit (.object 0x06090030 []))) ∧
  (∀ (s : State) (i : Fin 16) (lease : Nat) (vs : List Nat), (s.session i).active = true → vs.all subscribable = true → vs.Nodup →
    (∀ v ∈ vs, v ∉ (s.session i).subs) → 64 < (s.session i).subs.length + vs.length →
    exec (.subscribeAdd i lease vs) s = .next (s.emit (.object 0x08000022 []))) ∧
  (∀ (s : State) (i : Fin 16) (vs : List Nat), (s.session i).active = true →
    ∃ t, exec (.subscribeRemove i vs) s = .next t ∧ t.tx = s.tx ++ [.object 0 []] ∧
      ∀ v, v ∈ (t.session i).subs ↔ v ∉ vs ∧ v ∈ (s.session i).subs) ∧
  (∀ (s : State) (i : Fin 16), (s.session i).active = true →
    ∃ t, exec (.subscribeClear i) s = .next t ∧ t.tx = s.tx ++ [.object 0 []] ∧ (t.session i).subs = [] ∧ (t.session i).leases = []) ∧
  (∀ (s : State) (i : Fin 16) (v lease : Nat), (v, lease) ∈ (s.session i).leases →
    ∃ t, exec (.subscriptionLeaseExpire i v) s = .next t ∧ v ∉ (t.session i).subs ∧ t.tx = s.tx) ∧
  (∀ (s : State) (ip : IpAddr) (l : List Byte), s.yarfelOn = true → (frameHdr l).flags / 2 % 2 = 0 → (frameHdr l).dst ≠ s.devAddr →
    exec (.yarfelFrameRx ip l) s = .next s) ∧
  (∀ (s : State) (ip : IpAddr) (l : List Byte) (i : Fin 16), s.yarfelOn = true → frameForm l = true → (frameHdr l).flags / 2 % 2 = 0 →
    (frameHdr l).dst = s.devAddr → (frameHdr l).type ≠ 0 → (s.session i).active = true → (s.session i).sid.toNat = (frameHdr l).session →
    (∀ j : Fin 16, j ≠ i → (s.session j).active = true → (s.session j).sid ≠ (s.session i).sid) →
    (∀ e ∈ s.net.estate, e.opened = true → l.drop (24 + (frameHdr l).len) ≠ frameTag e.key (l.take (24 + (frameHdr l).len))) →
    l.drop (24 + (frameHdr l).len) ≠ frameTag (s.session i).key (l.take (24 + (frameHdr l).len)) →
    exec (.yarfelFrameRx ip l) s = .next ((s.count Reg.netAuthFailCnt 1).fault Reg.netFault 4)) ∧
  (∀ (s : State) (ip : IpAddr) (l : List Byte) (i : Fin 16) (mx : Nat) (seen : List Nat), s.yarfelOn = true → frameForm l = true →
    (frameHdr l).flags / 2 % 2 = 0 → (frameHdr l).dst = s.devAddr → (frameHdr l).type ≠ 0 → (s.session i).active = true →
    (s.session i).sid.toNat = (frameHdr l).session →
    (∀ j : Fin 16, j ≠ i → (s.session j).active = true → (s.session j).sid ≠ (s.session i).sid) →
    (∀ e ∈ s.net.estate, e.opened = true → e.sid.toNat ≠ (frameHdr l).session) →
    l.drop (24 + (frameHdr l).len) = frameTag (s.session i).key (l.take (24 + (frameHdr l).len)) →
    seqAccept (s.session i).rxMax (s.session i).rxSeen (frameHdr l).seq = some (mx, seen) →
    (∀ r ∈ (s.session i).replies, r.1 ≠ (frameHdr l).reqId) →
    let pl := (l.take (24 + (frameHdr l).len)).drop 24
    let u := (s.setSession i { s.session i with
      rxMax := mx
      rxSeen := seen }).learnPeer (frameHdr l).src ip
    ∃ t, exec (.yarfelFrameRx ip l) s = .next t ∧ (t.session i).rxMax = mx ∧ (t.session i).rxSeen = seen ∧
      t.reg Reg.netAuthFailCnt = s.reg Reg.netAuthFailCnt ∧ t.reg Reg.netReplayCnt = s.reg Reg.netReplayCnt ∧
      ((frameHdr l).flags % 2 = 1 → t = u) ∧
      ((frameHdr l).flags % 2 = 0 → (frameHdr l).type = 1 → t.od = u.od ∧ (t.session i).txSeq = (s.session i).txSeq + 1 ∧
        (t.session i).replies.getLast? = some ((frameHdr l).reqId, 1 :: BitVec.ofNat 8 (replyFlags (u.readReply pl).1 false) :: (u.readReply pl).2)) ∧
      ∀ n : Fin 8, (frameHdr l).flags % 2 = 0 → (frameHdr l).type = 2 → s.minimal = false → 1 ≤ (s.session i).role → leAt pl 0 2 = 0x4430 + n.val →
        leAt pl 2 1 = 1 → leAt pl 3 1 = odCode .u16 → leAt pl 4 4 = 0 → pl.length = 10 → ofLeBytes (pl.drop 8) ≤ 25000 →
        t.fld (Reg.loopValue n) 15 0 = ofLeBytes (pl.drop 8) ∧
          (t.session i).replies.getLast? = some ((frameHdr l).reqId, [2, 1, 0, 0, 0, 0])) ∧
  (∀ (s : State) (src : BitVec 16) (seq : W32) (idx : BitVec 16) (sub ty : Byte) (data : List Byte) (mx : Nat) (seen : List Nat),
    s.yarfelOn = true → s.net.sources.head? = some (src.toNat, mx, seen) → seq.toNat ≤ mx →
    (seq.toNat ∈ seen ∨ seq.toNat + 64 < mx) →
    exec (.broadcastWrite src seq idx sub ty data) s = .next ((s.count Reg.netReplayCnt 1).fault Reg.netFault 8)) ∧
  (∀ (s : State) (src : BitVec 16) (seq : W32) (idx : BitVec 16) (sub ty : Byte) (data : List Byte) (r : OdRow),
    s.yarfelOn = true → (∀ x ∈ s.net.sources, x.1 ≠ src.toNat) → seq ≠ 0 → odRow idx.toNat sub.toNat = some r →
    2 ≤ odWriteRole idx.toNat sub.toNat →
    ∃ t, exec (.broadcastWrite src seq idx sub ty data) s = .next t ∧ t.od = s.od ∧ t.odBytes = s.odBytes ∧ t.tx = s.tx) ∧
  (∀ (s : State) (src : BitVec 16) (seq : W32) (n : Fin 8) (data : List Byte), s.yarfelOn = true → s.minimal = false →
    (∀ x ∈ s.net.sources, x.1 ≠ src.toNat) → seq ≠ 0 → data.length = 2 → ofLeBytes data ≤ 25000 →
    ∃ t, exec (.broadcastWrite src seq (BitVec.ofNat 16 (0x4430 + n.val)) 1 (BitVec.ofNat 8 (odCode .u16)) data) s = .next t ∧
      t.fld (Reg.loopValue n) 15 0 = ofLeBytes data ∧ t.net.sources.head? = some (src.toNat, seq.toNat, [seq.toNat]) ∧
      t.reg Reg.netReplayCnt = s.reg Reg.netReplayCnt ∧ t.od = s.od ∧ t.tx = s.tx)

/-- PTP ports take over, announce and ask as their state says, the servo steps and judges SYNCED by the offset, and links come and
go. Rests on R109, R410, R411, R412, R419. The model's choice: an interval timer of a port that does not run changes nothing
(log entry 2); a message it receives is only counted. Its conclusion is that exec answers a next state for ptpAnnounceInterval,
ptpAnnounceTimeout, ptpSyncInterval, delayReqInterval, ptpMessageRx, linkLoss, linkUp, ethernetFrameRx. -/
def Obligations.PtpPortsAndLinks : Prop :=
  (∀ (s : State) (n : Port2) (m : PtpMsg), s.ptpOn n = false → exec (.ptpAnnounceInterval n) s = .next s ∧
    exec (.ptpAnnounceTimeout n) s = .next s ∧ exec (.ptpSyncInterval n) s = .next s ∧ exec (.delayReqInterval n) s = .next s ∧
    (s.portUp n = false → exec (.ptpMessageRx n m) s = .next s) ∧
    (s.portUp n = true → exec (.ptpMessageRx n m) s = .next (s.count (Reg.netPortRxFrames n) 1))) ∧
  (∀ (s : State) (n : Port2), s.ptpOn n = true →
    ∃ t, exec (.ptpAnnounceInterval n) s = .next t ∧ (t.ptp n).cfg = s.ptpSettings ∧ t.od = s.od) ∧
  (∀ (s : State) (n : Port2), s.ptpOn n = true → (s.ptp n).state = pListening →
    ∃ t, exec (.ptpAnnounceTimeout n) s = .next t ∧ (t.ptp n).state = pMaster ∧ (t.ptp n).foreign = []) ∧
  (∀ (s : State) (n : Port2), s.ptpOn n = true → (s.ptp n).state = pMaster →
    ∃ t a b, exec (.ptpSyncInterval n) s = .next t ∧ t.tx = s.tx ++ [.ptp n (s.portVid n) 0 a s.stamp, .ptp n (s.portVid n) 8 b s.stamp] ∧
      t.reg (Reg.netPortTxFrames n) = s.reg (Reg.netPortTxFrames n) + 2) ∧
  (∀ (s : State) (n : Port2), s.ptpOn n = true → (s.ptp n).state = pSlave → (s.ptp n).set 4 = 1 →
    ∃ t a, exec (.delayReqInterval n) s = .next t ∧ t.tx = s.tx ++ [.ptp n (s.portVid n) 1 a s.stamp] ∧ (t.ptp n).delayTx = some s.time.now) ∧
  (∀ (s : State) (n : Port2) (m : PtpMsg), s.ptpOn n = true → (s.ptp n).state = pSlave →
    m.domain.toNat = (s.ptp n).set 1 → m.kind = 0 → (s.ptp n).parent = some m.source →
    ∃ t, exec (.ptpMessageRx n m) s = .next t ∧ (t.ptp n).syncRx = some (m.seqId.toNat, s.time.now) ∧
      t.reg (Reg.netPortRxFrames n) = s.reg (Reg.netPortRxFrames n) + 1) ∧
  (∀ (s : State) (n : Port2) (m : PtpMsg) (rx : Nat), s.ptpOn n = true → (s.ptp n).state = pSlave →
    m.domain.toNat = (s.ptp n).set 1 → m.kind = 8 → (s.ptp n).parent = some m.source →
    (s.ptp n).syncRx = some (m.seqId.toNat, rx) →
    let off := (rx : Int) - m.stamp - m.correction * 2 ^ 16 - (s.ptp n).delay
    ∃ t, exec (.ptpMessageRx n m) s = .next t ∧
      ((s.ptp n).set 9 * 2 ^ 32 < off.natAbs → s.rbit Reg.timeSrcPolicy 2 = true →
        t.rbit Reg.timeSync 0 = false ∧ t.wreg Reg.timeStep = toW 72 (-(off / 2 ^ 22))) ∧
      (s.rbit Reg.timeSrcPolicy 2 = false → off.natAbs ≤ (s.ptp n).set 10 * 2 ^ 32 → 15 ≤ (s.ptp n).inLock →
        t.rbit Reg.timeSync 0 = true) ∧
      (s.rbit Reg.timeSrcPolicy 2 = false → 10 * (s.ptp n).set 10 * 2 ^ 32 < off.natAbs → 2 ≤ (s.ptp n).outLock →
        t.rbit Reg.timeSync 0 = false) ∧
      (s.rbit Reg.timeSrcPolicy 2 = false → (s.ptp n).inLock < 15 → (s.ptp n).outLock < 2 →
        t.rbit Reg.timeSync 0 = s.rbit Reg.timeSync 0)) ∧
  (∀ (s : State) (n : Port2), s.fld (Reg.netPortStatus n) 2 0 ≠ 0 →
    ∃ t, exec (.linkLoss n) s = .next t ∧ t.reg (Reg.netPortStatus n) = 0 ∧ t.rbit Reg.netFault n = true ∧
      ∀ i, (t.session i).active = (s.session i).active) ∧
  (∀ (s : State) (n : Port2), s.fld (Reg.netPortStatus n) 2 0 = 0 → exec (.linkLoss n) s = .next s) ∧
  (∀ (s : State) (n : Port2) (an : Bool), s.rbit (Reg.netPortCfg n) 0 = true → s.shut = false → s.rbit (Reg.netPortCfg n) 3 = false →
    ∃ t, exec (.linkUp n an) s = .next t ∧ t.reg (Reg.netPortStatus n) = 5) ∧
  (∀ (s : State) (n : Port2) (f : EthFrame), s.portUp n = true → f.fcsOk = true → 1522 < f.len →
    exec (.ethernetFrameRx n f) s = .next (s.count (Reg.netPortRxDrop n) 1)) ∧
  (∀ (s : State) (n : Port2) (f : EthFrame) (p : Nat), s.portUp n = true → f.fcsOk = true → f.len ≤ 1522 → f.kind = .udp p →
    p ∉ [319, 320, 50170] →
    exec (.ethernetFrameRx n f) s = .next ((s.count (Reg.netPortRxFrames n) 1).count (Reg.netPortRxDrop n) 1)) ∧
  (∀ (s : State) (n : Port2) (f : EthFrame), s.portUp n = true → f.fcsOk = true → f.len ≤ 1522 →
    (∀ (from4 asked : BitVec 32), f.kind = .arpRequest from4 asked → asked ≠ 0 → asked = s.portIp4 n →
      ∃ t, exec (.ethernetFrameRx n f) s = .next t ∧ t.tx = s.tx ++ [.eth n (s.portVid n) f.mac (.arpReply asked from4)] ∧
        t.reg (Reg.netPortTxFrames n) = s.reg (Reg.netPortTxFrames n) + 1) ∧
    (∀ (from6 asked : BitVec 128), f.kind = .solicit from6 asked → asked ≠ 0 → asked = s.portIp6 n ∨ asked = s.linkLocal n →
      ∃ t, exec (.ethernetFrameRx n f) s = .next t ∧ t.tx = s.tx ++ [.eth n (s.portVid n) f.mac (.advertise asked from6)]) ∧
    (∀ (src dst : IpAddr) (d : List Byte), f.kind = .echoRequest src dst d → s.ownIp n dst = true →
      ∃ t, exec (.ethernetFrameRx n f) s = .next t ∧ t.tx = s.tx ++ [.eth n (s.portVid n) f.mac (.echoReply dst src d)] ∧
        t.reg (Reg.netPortRxFrames n) = s.reg (Reg.netPortRxFrames n) + 1) ∧
    (∀ (from4 asked : BitVec 32), f.kind = .arpRequest from4 asked → asked ≠ s.portIp4 n →
      exec (.ethernetFrameRx n f) s = .next (s.count (Reg.netPortRxFrames n) 1)))

/-- NMT commands, heartbeats and bus errors move a CAN port between its states, and a port that is off or bus-off takes none. Rests
on R414, R422. Its conclusion is that exec answers a next state for nmtStart, nmtStop, nmtPreOperational, nmtResetCommunication,
canRxFrame, sdoRequest, canBusOff, heartbeatProduce, heartbeatReceive, heartbeatLoss, canBusOffRecovery, canErrstateChange. -/
def Obligations.CanNetworkManagement : Prop :=
  (∀ (s : State) (c : Port2) (node : Byte), s.canOn c = true → node = 0 ∨ node.toNat = s.canNodeId c →
    (∃ t, exec (.nmtStart c node) s = .next t ∧ t.nmt c = 5 ∧ t.reg (Reg.canRxCnt c) = s.reg (Reg.canRxCnt c) + 1 ∧
      t.fld (Reg.canStatus c) 1 0 = s.fld (Reg.canStatus c) 1 0) ∧
    (∃ t, exec (.nmtStop c node) s = .next t ∧ t.nmt c = 4) ∧
    (∃ t, exec (.nmtPreOperational c node) s = .next t ∧ t.nmt c = 0x7F) ∧
    (∃ t, exec (.nmtResetCommunication c node) s = .next t ∧ t.nmt c = 0x7F ∧ (t.can c).sdo = none ∧ (t.can c).heard = [] ∧
      (∀ k : Fin 8, t.tpdo (8 * c + k) = {}) ∧ t.tx = s.tx ++ [.can c (0x700 + s.canNodeId c) false false [0]])) ∧
  (∀ (s : State) (c : Port2) (node : Byte), s.canOn c = true → node ≠ 0 → node.toNat ≠ s.canNodeId c →
    exec (.nmtStart c node) s = .next (s.count (Reg.canRxCnt c) 1) ∧ exec (.nmtStop c node) s = .next (s.count (Reg.canRxCnt c) 1) ∧
    exec (.nmtPreOperational c node) s = .next (s.count (Reg.canRxCnt c) 1) ∧
    exec (.nmtResetCommunication c node) s = .next (s.count (Reg.canRxCnt c) 1)) ∧
  (∀ (s : State) (c : Port2) (node : Byte) (f : CanFrame) (d : List Byte), s.canOn c = false → exec (.nmtStart c node) s = .next s ∧
    exec (.nmtResetCommunication c node) s = .next s ∧ exec (.canRxFrame c f) s = .next s ∧ exec (.sdoRequest c d) s = .next s ∧
    exec (.canBusOff c) s = .next s) ∧
  (∀ (s : State) (c : Port2), s.canOn c = true → s.odv 0x1017 0 ≠ 0 → s.nmt c ≠ 0 →
    ∃ t, exec (.heartbeatProduce c) s = .next t ∧
      t.tx = s.tx ++ [.can c (0x700 + s.canNodeId c) false false [BitVec.ofNat 8 (s.nmt c)]] ∧
      t.reg (Reg.canTxCnt c) = s.reg (Reg.canTxCnt c) + 1) ∧
  (∀ (s : State) (c : Port2) (node : BitVec 7) (x : Byte), s.canOn c = true → node ≠ 0 → s.consumes node.toNat = true →
    ∃ t, exec (.heartbeatReceive c node x) s = .next t ∧ node.toNat ∈ (t.can c).heard ∧ node.toNat ∉ (t.can c).lost ∧
      t.reg (Reg.canRxqLevel c) = s.reg (Reg.canRxqLevel c)) ∧
  (∀ (s : State) (c : Port2) (node : BitVec 7), s.canOn c = true → s.consumes node.toNat = true → node.toNat ∈ (s.can c).heard →
    node.toNat ∉ (s.can c).lost →
    ∃ t, exec (.heartbeatLoss c node) s = .next t ∧ t.rbit Reg.canFault (2 + c) = true ∧ node.toNat ∈ (t.can c).lost) ∧
  (∀ (s : State) (c : Port2), s.canOn c = true →
    ∃ t, exec (.canBusOff c) s = .next t ∧ t.fld (Reg.canStatus c) 1 0 = 2 ∧ t.rbit Reg.canFault c = true) ∧
  (∀ (s : State) (c : Port2), s.rbit (Reg.canCfg c) 0 = true → s.rbit (Reg.canCfg c) 3 = true → s.fld (Reg.canStatus c) 1 0 = 2 →
    ∃ t, exec (.canBusOffRecovery c) s = .next t ∧ t.fld (Reg.canStatus c) 1 0 = 0 ∧ t.reg (Reg.canErrcnt c) = 0 ∧ t.nmt c = s.nmt c) ∧
  (∀ (s : State) (c : Port2) (tec rec : Nat), s.canOn c = true → tec < 256 → rec < 256 →
    ∃ t, exec (.canErrstateChange c tec rec) s = .next t ∧ t.fld (Reg.canErrcnt c) 24 16 = tec ∧ t.fld (Reg.canErrcnt c) 7 0 = rec ∧
      t.fld (Reg.canStatus c) 1 0 = (if 128 ≤ tec ∨ 128 ≤ rec then 1 else 0) ∧ t.nmt c = s.nmt c)

/-- SDO requests are answered, PDOs follow the NMT state and their lengths, and a frame no service takes enters a matching port's
receive queue. Rests on R369, R413, R414, R415, R416, R417, R418. Its conclusion is that exec answers a next state for
sdoRequest, tpdoEventTimer, tpdoTransmit, rpdoReceive, canRxFrame. -/
def Obligations.CanObjectsAndReceiveQueue : Prop :=
  (∀ (s : State) (c : Port2) (cmd a b sub : Byte) (x : List Byte) (v : OdType × List Byte), s.sdoServed c = true → cmd.toNat / 32 = 2 →
    x.length = 4 → s.odRead (a.toNat + 256 * b.toNat) sub.toNat 0 = .inr v → v.2 ≠ [] → v.2.length ≤ 4 →
    ∃ t, exec (.sdoRequest c ([cmd, a, b, sub] ++ x)) s = .next t ∧ t.od = s.od ∧ (t.can c).sdo = none ∧
      t.tx = s.tx ++ [.can c (0x580 + s.canNodeId c) false false
        ([BitVec.ofNat 8 (0x43 + (4 - v.2.length) * 4), a, b, sub] ++ v.2 ++ List.replicate (4 - v.2.length) 0)]) ∧
  (∀ (s : State) (c : Port2) (cmd a b sub : Byte) (x : List Byte), s.sdoServed c = true → 5 ≤ cmd.toNat / 32 → x.length = 4 →
    ∃ t, exec (.sdoRequest c ([cmd, a, b, sub] ++ x)) s = .next t ∧ t.od = s.od ∧
      t.tx = s.tx ++ [.can c (0x580 + s.canNodeId c) false false ([0x80, a, b, sub] ++ [0x01, 0x00, 0x04, 0x05])]) ∧
  (∀ (s : State) (c : Port2) (k : Fin 8), s.odv (0x1800 + 8 * c + k) 5 ≠ 0 → s.tpdoCob c k < 2 ^ 31 → s.canOperational c = true →
    ∃ t, exec (.tpdoEventTimer c k) s = .next t ∧ (t.tpdo (8 * c + k)).asked = true ∧ t.tx = s.tx) ∧
  (∀ (s : State) (c : Port2) (k : Fin 8), (s.tpdo (8 * c + k)).asked = true → s.canOn c = true → s.canOperational c = true →
    s.tpdoCob c k < 2 ^ 31 → s.inhibitOver c k = true →
    ∃ t, exec (.tpdoTransmit c k) s = .next t ∧ (t.tpdo (8 * c + k)).asked = false ∧
      t.tx = s.tx ++ [.can c (s.tpdoCob c k % 2048) (s.rbit (Reg.canCfg c) 1) (s.rbit (Reg.canCfg c) 1 && s.rbit (Reg.canCfg c) 2)
        (s.tpdoBytes c k)] ∧ t.od = s.od) ∧
  (∀ (s : State) (c : Port2) (k : Fin 8), (s.tpdo (8 * c + k)).asked = false ∨ s.canOperational c = false →
    exec (.tpdoTransmit c k) s = .next s) ∧
  (∀ (s : State) (c : Port2) (r : Fin 4) (data : List Byte), s.rpdoOn c r = true →
    data.length < ((s.mapping (0x1600 + 4 * c + r)).map fun e => e.2.2).sum →
    ∃ t, exec (.rpdoReceive c r data) s = .next t ∧ t.rbit Reg.canFault (6 + c) = true ∧ t.od = s.od ∧ t.zones = s.zones) ∧
  (∀ (s : State) (c : Port2) (r : Fin 4) (n : Fin 8) (data : List Byte), s.rpdoOn c r = true →
    s.mapping (0x1600 + 4 * c + r) = [(0x4430 + n.val, 1, 2)] → 1 ≤ s.fld (Reg.canCfg c) 18 16 → s.minimal = false → 2 ≤ data.length →
    ofLeBytes (data.take 2) ≤ 25000 →
    ∃ t, exec (.rpdoReceive c r data) s = .next t ∧ t.fld (Reg.loopValue n) 15 0 = ofLeBytes (data.take 2) ∧
      t.reg (Reg.canRxCnt c) = s.reg (Reg.canRxCnt c) + 1 ∧ t.reg Reg.canFault = s.reg Reg.canFault ∧ t.tx = s.tx) ∧
  (∀ (s : State) (c : Port2) (r : Fin 4) (data : List Byte), s.rpdoOn c r = false →
    exec (.rpdoReceive c r data) s = exec (.canRxFrame c (s.rpdoFrame c r data)) s) ∧
  (∀ (s : State) (c : Port2) (f : CanFrame), s.canOn c = true → s.canService c f = none → s.filterMatch c f = true →
    ∃ t, exec (.canRxFrame c f) s = .next t ∧
      (s.fld (Reg.canRxqLevel c) 6 0 < 64 → t.reg (Reg.canRxqLevel c) = BitVec.ofNat 32 (s.fld (Reg.canRxqLevel c) 6 0 + 1) ∧
        t.reg Reg.canFault = s.reg Reg.canFault) ∧
      (64 ≤ s.fld (Reg.canRxqLevel c) 6 0 → t.rbit Reg.canFault (4 + c) = true ∧ t.dram = s.dram ∧
        t.reg (Reg.canLostCnt c) = s.reg (Reg.canLostCnt c) + 1)) ∧
  (∀ (s : State) (c : Port2) (f : CanFrame), s.canOn c = true → s.canService c f = none → s.filterMatch c f = false →
    exec (.canRxFrame c f) s = .next (s.count (Reg.canRxCnt c) 1)) ∧
  (∀ (s : State) (c : Port2) (f : CanFrame), f.ext = true → s.canService c f = none)

/-- The check bits of a data word are the exclusive or of its columns, the columns are those of R274, and the zero word has check
bits 0. Formalises R274. -/
def Obligations.CheckBitColumns : Prop :=
  let h (j : Nat) : Nat := nth eccColumns j 0
  let ones (x : Nat) : Nat := ((List.range 8).filter fun b => x.testBit b).length
  (∀ d : W72, eccCheck d = (List.range 72).foldl (fun c j => if d.getLsbD j then c ^^^ BitVec.ofNat 8 (h j) else c) 0) ∧
  (∀ j, j < 56 → h j < 256 ∧ ones (h j) = 3 ∧ ((List.range (h j)).filter fun x => decide (ones x = 3)).length = j) ∧
  (∀ j, 56 ≤ j → j < 72 → h j < 256 ∧ ones (h j) = 5 ∧ ((List.range (h j)).filter fun x => decide (ones x = 5)).length = j - 56) ∧
  (∀ (w : BitVec 80) (i : Nat), i < 8 →
    eccSyndrome (w ^^^ BitVec.ofNat 80 (2 ^ (72 + i))) = eccSyndrome w ^^^ BitVec.ofNat 8 (2 ^ i)) ∧
  ((List.range 72).map h ++ (List.range 8).map (2 ^ ·)).Nodup ∧
  (∀ x ∈ (List.range 72).map h ++ (List.range 8).map (2 ^ ·), ones x % 2 = 1) ∧
  eccCheck 0 = 0 ∧ eccStore 0 false = 0

/-- In BITREV mode a pointer steps in bit-reversed order within the 2^k words of its buffer, or is forced to its base with CIRC_OOR.
Formalises R209. -/
def Obligations.BitReversedPointers : Prop :=
  (∀ k x j : Nat, (revBits k x).testBit j = (decide (j < k) && x.testBit (k - 1 - j))) ∧
  (∀ (x : CoreSt) (i : Nat), field (nth x.l i 0) 17 16 = 2 → 2 ≤ field (nth x.l i 0) 15 0 →
    let k := (field (nth x.l i 0) 15 0).log2
    let b := nth x.b i 0
    let o := (nth x.p i 0 - b).toNat
    let m := ((nth x.m i 0).toInt % 2 ^ k).toNat
    (2 ^ k ≤ o → postMod x i = (b, true)) ∧
    (o < 2 ^ k → postMod x i = (b + BitVec.ofNat 16 (revBits k ((revBits k o + revBits k m) % 2 ^ k)), false)) ∧
    (∀ n, n < 2 ^ k → nth x.m i 0 = BitVec.ofNat 16 (2 ^ (k - 1)) → nth x.p i 0 = b + BitVec.ofNat 16 (revBits k n) →
      postMod x i = (b + BitVec.ofNat 16 (revBits k ((n + 1) % 2 ^ k)), false))) ∧
  (∀ (x : CoreSt) (i pc : Nat) (e : Effect) (l : List (Nat × W72)) (d : Option Nat), i < x.p.length → e.sr = none →
    nth (writeBack x pc e l d [i]).p i 0 = (postMod x i).1 ∧
    (writeBack x pc e l d [i]).sstat.getLsbD 5 = (x.sstat.getLsbD 5 || (postMod x i).2))

/-- Every step, of every command and of none, keeps all memories in canonical form and all register files whole, and takes exactly
its command. Rests on R10, R203, R274, R430. -/
def Obligations.EveryStepKeepsStateWellFormed : Prop :=
  ∀ (s t : State), s.memoryWf = true → (∀ k, (s.core k).sized = true) → step s = .next t →
    t.memoryWf = true ∧ (∀ k, (t.core k).sized = true) ∧ t.pending = s.pending.drop 1

/-- Every step, of every command and of none, keeps each head whose laser enable is low dark: no gate open, no sub-probe playing.
Rests on R51, R66, R68, R69, R70, R71. -/
def Obligations.EveryStepKeepsHeldLasersDark : Prop :=
  (∀ (s t : State), (∀ h : Head, s.laserSafe h = true) → step s = .next t → ∀ h : Head, t.laserSafe h = true) ∧
  ∀ (s : State) (h : Head), s.lasen h = true → s.rbit Reg.sysOptInterlock h = true ∧ s.rbit Reg.sysOptInterlock (8 + h) = true ∧
    s.rbit (Reg.headCtrl h) 1 = true ∧ s.rbit Reg.sysOptInterlock (16 + h) = false

/-- After reset every register holds the reset value of its map, memories are empty and canonical, no core runs and no laser is
enabled. Rests on R10, R40, R70, R210, R430. -/
def Obligations.ResetState : Prop :=
  (∀ a, a ≠ Reg.sysBootStat → State.reset.reg a = resetOf a) ∧ State.reset.fld Reg.sysBootStat 5 5 = 1 ∧
  (∀ c : Port2, State.reset.reg (Reg.canNode c) = 1 ∧ State.reset.reg (Reg.canCfg c) = 0x120) ∧
  State.reset.memoryWf = true ∧ (∀ c, (State.reset.core c).mode = .free ∧ (State.reset.core c).role = 0 ∧ (State.reset.core c).vendor = false) ∧
  (∀ h : Head, State.reset.lasen h = false ∧ State.reset.gatesLow h = true ∧ State.reset.laserSafe h = true) ∧
  (∀ a ∈ [Reg.sysFault, Reg.netFault, Reg.canFault, Reg.mcFault 0, Reg.mcFault 1, Reg.lifeFault, Reg.nvmFault],
    State.reset.reg a = 0) ∧
  State.reset.anyFault = false ∧ State.reset.fabric = [] ∧ State.reset.evq = [] ∧ State.reset.pending = []
end

