-- ==== Sys2Proof/Laws/Store.lean ====
section
/-!
SUPPORT. Laws of the sparse stores: what a read gives after a write, and that writes, drops and the empty store keep the canonical
form.
-/
namespace Sys2Proof.Machine

variable {α : Type}

theorem cellsGet_put (d : α) (k j : Nat) (x : α) (l : List (Nat × α)) :
    cellsGet d j (cellsPut k x l) = if j = k then x else cellsGet d j l := by
  induction l with
  | nil => simp only [cellsPut, cellsGet]; split <;> simp_all [eq_comm]
  | cons c r ih =>
    obtain ⟨i, v⟩ := c
    simp only [cellsPut]
    split
    · simp only [cellsGet]; by_cases h : k = j
      · simp [h]
      · simp [h, Ne.symm h]
    · split
      · rename_i h1 h2; subst h2; simp only [cellsGet]; by_cases h : k = j
        · simp [h]
        · simp [h, Ne.symm h]
      · rename_i h1 h2
        simp only [cellsGet, ih]
        by_cases hi : i = j
        · subst hi; simp [Ne.symm h2]
        · simp [hi]

theorem cellsGet_erase (d : α) (k j : Nat) (l : List (Nat × α)) :
    cellsGet d j (cellsErase k l) = if j = k then d else cellsGet d j l := by
  induction l with
  | nil => simp [cellsErase, cellsGet]
  | cons c r ih =>
    obtain ⟨i, v⟩ := c
    simp only [cellsErase]
    split
    · rename_i h; subst h; rw [ih]; simp only [cellsGet]; by_cases h : i = j
      · simp [h]
      · simp [h, Ne.symm h]
    · rename_i h; simp only [cellsGet, ih]
      by_cases hi : i = j
      · subst hi; simp [h]
      · simp [hi]

/-- A read at the key written gives the value written, whatever default either names. -/
@[simp] theorem Store.get_set_same [DecidableEq α] (m : Store α) (d : α) (k : Nat) (x : α) : (m.set d k x).get d k = x := by
  simp only [Store.set, Store.get]
  split
  · rename_i h; simp [cellsGet_erase, h]
  · simp [cellsGet_put]

/-- A read at another key gives what it gave. -/
theorem Store.get_set_ne [DecidableEq α] (m : Store α) (d e : α) {k j : Nat} (x : α) (h : j ≠ k) :
    (m.set d k x).get e j = m.get e j := by
  simp only [Store.set, Store.get]
  split <;> simp [cellsGet_erase, cellsGet_put, h]

@[simp] theorem Store.get_empty (d : α) (k : Nat) : (Store.empty : Store α).get d k = d := rfl

theorem cellsWf_mono [DecidableEq α] {d : Nat → α} {lo hi : Nat} (h : lo ≤ hi) :
    (l : List (Nat × α)) → cellsWf d hi l = true → cellsWf d lo l = true
  | [], _ => rfl
  | (j, v) :: r, w => by
    simp only [cellsWf, Bool.and_eq_true, decide_eq_true_eq] at w ⊢
    exact ⟨⟨by omega, w.1.2⟩, w.2⟩

theorem cellsWf_put [DecidableEq α] {d : Nat → α} {k : Nat} {x : α} (hx : x ≠ d k) :
    (lo : Nat) → lo ≤ k → (l : List (Nat × α)) → cellsWf d lo l = true → cellsWf d lo (cellsPut k x l) = true
  | lo, hk, [], _ => by simp [cellsPut, cellsWf, hk, hx]
  | lo, hk, (j, v) :: r, w => by
    simp only [cellsWf, Bool.and_eq_true, decide_eq_true_eq] at w
    simp only [cellsPut]
    split
    · simp only [cellsWf, Bool.and_eq_true, decide_eq_true_eq]
      exact ⟨⟨hk, hx⟩, ⟨by omega, w.1.2⟩, w.2⟩
    · split
      · rename_i h; subst h
        simp only [cellsWf, Bool.and_eq_true, decide_eq_true_eq]
        exact ⟨⟨hk, hx⟩, w.2⟩
      · simp only [cellsWf, Bool.and_eq_true, decide_eq_true_eq]
        exact ⟨w.1, cellsWf_put hx (j + 1) (by omega) r w.2⟩

theorem cellsWf_erase [DecidableEq α] {d : Nat → α} (k : Nat) :
    (lo : Nat) → (l : List (Nat × α)) → cellsWf d lo l = true → cellsWf d lo (cellsErase k l) = true
  | _, [], _ => rfl
  | lo, (j, v) :: r, w => by
    simp only [cellsWf, Bool.and_eq_true, decide_eq_true_eq] at w
    simp only [cellsErase]
    split
    · exact cellsWf_mono (by omega) _ (cellsWf_erase k (j + 1) r w.2)
    · simp only [cellsWf, Bool.and_eq_true, decide_eq_true_eq]
      exact ⟨w.1, cellsWf_erase k (j + 1) r w.2⟩

/-- The empty store is canonical. -/
theorem Store.wf_empty [DecidableEq α] (d : Nat → α) : (Store.empty : Store α).wf d = true := rfl

/-- A write keeps the canonical form. -/
theorem Store.wf_set [DecidableEq α] {d : Nat → α} {m : Store α} (k : Nat) (x : α) (h : m.wf d = true) :
    (m.set (d k) k x).wf d = true := by
  simp only [Store.set, Store.wf] at *
  split
  · exact cellsWf_erase k 0 _ h
  · rename_i hx; exact cellsWf_put hx 0 (Nat.zero_le k) _ h

theorem cellsWf_filter [DecidableEq α] {d : Nat → α} (p : Nat × α → Bool) :
    (lo : Nat) → (l : List (Nat × α)) → cellsWf d lo l = true → cellsWf d lo (l.filter p) = true
  | _, [], _ => rfl
  | lo, (j, v) :: r, w => by
    simp only [cellsWf, Bool.and_eq_true, decide_eq_true_eq] at w
    simp only [List.filter_cons]
    split
    · simp only [cellsWf, Bool.and_eq_true, decide_eq_true_eq]
      exact ⟨w.1, cellsWf_filter p (j + 1) r w.2⟩
    · exact cellsWf_mono (by omega) _ (cellsWf_filter p (j + 1) r w.2)

/-- Dropping a range keeps the canonical form. -/
theorem Store.wf_dropRange [DecidableEq α] {d : Nat → α} {m : Store α} (lo hi : Nat) (h : m.wf d = true) :
    (m.dropRange lo hi).wf d = true := cellsWf_filter _ 0 _ h

/-- Setting several keys keeps the canonical form of a store with one default. -/
theorem Store.wf_setMany [DecidableEq α] {d : α} : (l : List (Nat × α)) → {m : Store α} → m.wf (fun _ => d) = true →
    (Store.setMany d l m).wf (fun _ => d) = true
  | [], _, h => h
  | (k, x) :: r, _, h => Store.wf_setMany r (Store.wf_set (d := fun _ => d) k x h)

/-- A canonical store is what it reads: two canonical stores that read the same at every key are equal data. -/
theorem cellsGet_below [DecidableEq α] {d : Nat → α} {lo k : Nat} (h : k < lo) :
    (l : List (Nat × α)) → cellsWf d lo l = true → cellsGet (d k) k l = d k
  | [], _ => rfl
  | (j, v) :: r, w => by
    simp only [cellsWf, Bool.and_eq_true, decide_eq_true_eq] at w
    have hj : j ≠ k := by omega
    simp only [cellsGet, hj, if_false]
    exact cellsGet_below (by omega) r w.2

end Sys2Proof.Machine
end

