-- ==== Sys2Proof/Laws/State.lean ====
section
/-!
SUPPORT. What the updates of State leave alone, one lemma per field per update, each true by rfl, so that no proof unfolds a record
update; and what a read of a register, a field, a bit or an engine's record gives after an update.
-/
namespace Sys2Proof.Machine

variable (s : State)

@[simp] theorem State.setReg_pending (a : Nat) (v : W32) : (s.setReg a v).pending = s.pending := rfl
@[simp] theorem State.setReg_fresh (a : Nat) (v : W32) : (s.setReg a v).fresh = s.fresh := rfl
@[simp] theorem State.setReg_tx (a : Nat) (v : W32) : (s.setReg a v).tx = s.tx := rfl
@[simp] theorem State.setReg_wide (a : Nat) (v : W32) : (s.setReg a v).wide = s.wide := rfl
@[simp] theorem State.setReg_reqs (a : Nat) (v : W32) : (s.setReg a v).reqs = s.reqs := rfl
@[simp] theorem State.setReg_time (a : Nat) (v : W32) : (s.setReg a v).time = s.time := rfl
@[simp] theorem State.setReg_heads (a : Nat) (v : W32) : (s.setReg a v).heads = s.heads := rfl
@[simp] theorem State.setReg_probe (a : Nat) (v : W32) : (s.setReg a v).probe = s.probe := rfl
@[simp] theorem State.setReg_lanes (a : Nat) (v : W32) : (s.setReg a v).lanes = s.lanes := rfl
@[simp] theorem State.setReg_scheds (a : Nat) (v : W32) : (s.setReg a v).scheds = s.scheds := rfl
@[simp] theorem State.setReg_tdcs (a : Nat) (v : W32) : (s.setReg a v).tdcs = s.tdcs := rfl
@[simp] theorem State.setReg_ces (a : Nat) (v : W32) : (s.setReg a v).ces = s.ces := rfl
@[simp] theorem State.setReg_raman (a : Nat) (v : W32) : (s.setReg a v).raman = s.raman := rfl
@[simp] theorem State.setReg_dram (a : Nat) (v : W32) : (s.setReg a v).dram = s.dram := rfl
@[simp] theorem State.setReg_dramOut (a : Nat) (v : W32) : (s.setReg a v).dramOut = s.dramOut := rfl
@[simp] theorem State.setReg_banks (a : Nat) (v : W32) : (s.setReg a v).banks = s.banks := rfl
@[simp] theorem State.setReg_mcs (a : Nat) (v : W32) : (s.setReg a v).mcs = s.mcs := rfl
@[simp] theorem State.setReg_cores (a : Nat) (v : W32) : (s.setReg a v).cores = s.cores := rfl
@[simp] theorem State.setReg_clusters (a : Nat) (v : W32) : (s.setReg a v).clusters = s.clusters := rfl
@[simp] theorem State.setReg_chains (a : Nat) (v : W32) : (s.setReg a v).chains = s.chains := rfl
@[simp] theorem State.setReg_branches (a : Nat) (v : W32) : (s.setReg a v).branches = s.branches := rfl
@[simp] theorem State.setReg_phis (a : Nat) (v : W32) : (s.setReg a v).phis = s.phis := rfl
@[simp] theorem State.setReg_bands (a : Nat) (v : W32) : (s.setReg a v).bands = s.bands := rfl
@[simp] theorem State.setReg_fuses (a : Nat) (v : W32) : (s.setReg a v).fuses = s.fuses := rfl
@[simp] theorem State.setReg_coils (a : Nat) (v : W32) : (s.setReg a v).coils = s.coils := rfl
@[simp] theorem State.setReg_frames (a : Nat) (v : W32) : (s.setReg a v).frames = s.frames := rfl
@[simp] theorem State.setReg_sram (a : Nat) (v : W32) : (s.setReg a v).sram = s.sram := rfl
@[simp] theorem State.setReg_cmem (a : Nat) (v : W32) : (s.setReg a v).cmem = s.cmem := rfl
@[simp] theorem State.setReg_imem (a : Nat) (v : W32) : (s.setReg a v).imem = s.imem := rfl
@[simp] theorem State.setReg_fabric (a : Nat) (v : W32) : (s.setReg a v).fabric = s.fabric := rfl
@[simp] theorem State.setReg_returning (a : Nat) (v : W32) : (s.setReg a v).returning = s.returning := rfl
@[simp] theorem State.setReg_zones (a : Nat) (v : W32) : (s.setReg a v).zones = s.zones := rfl
@[simp] theorem State.setReg_zoneSts (a : Nat) (v : W32) : (s.setReg a v).zoneSts = s.zoneSts := rfl
@[simp] theorem State.setReg_evq (a : Nat) (v : W32) : (s.setReg a v).evq = s.evq := rfl
@[simp] theorem State.setReg_evLost (a : Nat) (v : W32) : (s.setReg a v).evLost = s.evLost := rfl
@[simp] theorem State.setReg_evSeq (a : Nat) (v : W32) : (s.setReg a v).evSeq = s.evSeq := rfl
@[simp] theorem State.setReg_caps (a : Nat) (v : W32) : (s.setReg a v).caps = s.caps := rfl
@[simp] theorem State.setReg_selfWrites (a : Nat) (v : W32) : (s.setReg a v).selfWrites = s.selfWrites := rfl
@[simp] theorem State.setReg_tpdos (a : Nat) (v : W32) : (s.setReg a v).tpdos = s.tpdos := rfl
@[simp] theorem State.setReg_od (a : Nat) (v : W32) : (s.setReg a v).od = s.od := rfl
@[simp] theorem State.setReg_odBytes (a : Nat) (v : W32) : (s.setReg a v).odBytes = s.odBytes := rfl
@[simp] theorem State.setReg_stalled (a : Nat) (v : W32) : (s.setReg a v).stalled = s.stalled := rfl
@[simp] theorem State.setReg_vecs (a : Nat) (v : W32) : (s.setReg a v).vecs = s.vecs := rfl
@[simp] theorem State.setReg_queues (a : Nat) (v : W32) : (s.setReg a v).queues = s.queues := rfl
@[simp] theorem State.setReg_msix (a : Nat) (v : W32) : (s.setReg a v).msix = s.msix := rfl
@[simp] theorem State.setReg_sessions (a : Nat) (v : W32) : (s.setReg a v).sessions = s.sessions := rfl
@[simp] theorem State.setReg_funcMask (a : Nat) (v : W32) : (s.setReg a v).funcMask = s.funcMask := rfl
@[simp] theorem State.setReg_dmas (a : Nat) (v : W32) : (s.setReg a v).dmas = s.dmas := rfl
@[simp] theorem State.setReg_dmaLast (a : Nat) (v : W32) : (s.setReg a v).dmaLast = s.dmaLast := rfl
@[simp] theorem State.setReg_descs (a : Nat) (v : W32) : (s.setReg a v).descs = s.descs := rfl
@[simp] theorem State.setReg_lamps (a : Nat) (v : W32) : (s.setReg a v).lamps = s.lamps := rfl
@[simp] theorem State.setReg_groups (a : Nat) (v : W32) : (s.setReg a v).groups = s.groups := rfl
@[simp] theorem State.setReg_lampOuts (a : Nat) (v : W32) : (s.setReg a v).lampOuts = s.lampOuts := rfl
@[simp] theorem State.setReg_thAt (a : Nat) (v : W32) : (s.setReg a v).thAt = s.thAt := rfl
@[simp] theorem State.setReg_padc (a : Nat) (v : W32) : (s.setReg a v).padc = s.padc := rfl
@[simp] theorem State.setReg_hadc (a : Nat) (v : W32) : (s.setReg a v).hadc = s.hadc := rfl
@[simp] theorem State.setReg_loopOuts (a : Nat) (v : W32) : (s.setReg a v).loopOuts = s.loopOuts := rfl
@[simp] theorem State.setReg_quince (a : Nat) (v : W32) : (s.setReg a v).quince = s.quince := rfl
@[simp] theorem State.setReg_net (a : Nat) (v : W32) : (s.setReg a v).net = s.net := rfl
@[simp] theorem State.setReg_cans (a : Nat) (v : W32) : (s.setReg a v).cans = s.cans := rfl
@[simp] theorem State.setReg_ptps (a : Nat) (v : W32) : (s.setReg a v).ptps = s.ptps := rfl
@[simp] theorem State.setReg_nvm (a : Nat) (v : W32) : (s.setReg a v).nvm = s.nvm := rfl
@[simp] theorem State.setReg_boot (a : Nat) (v : W32) : (s.setReg a v).boot = s.boot := rfl

@[simp] theorem State.setWreg_pending (a : Nat) (v : W72) : (s.setWreg a v).pending = s.pending := rfl
@[simp] theorem State.setWreg_fresh (a : Nat) (v : W72) : (s.setWreg a v).fresh = s.fresh := rfl
@[simp] theorem State.setWreg_tx (a : Nat) (v : W72) : (s.setWreg a v).tx = s.tx := rfl
@[simp] theorem State.setWreg_regs (a : Nat) (v : W72) : (s.setWreg a v).regs = s.regs := rfl
@[simp] theorem State.setWreg_reqs (a : Nat) (v : W72) : (s.setWreg a v).reqs = s.reqs := rfl
@[simp] theorem State.setWreg_time (a : Nat) (v : W72) : (s.setWreg a v).time = s.time := rfl
@[simp] theorem State.setWreg_heads (a : Nat) (v : W72) : (s.setWreg a v).heads = s.heads := rfl
@[simp] theorem State.setWreg_probe (a : Nat) (v : W72) : (s.setWreg a v).probe = s.probe := rfl
@[simp] theorem State.setWreg_lanes (a : Nat) (v : W72) : (s.setWreg a v).lanes = s.lanes := rfl
@[simp] theorem State.setWreg_scheds (a : Nat) (v : W72) : (s.setWreg a v).scheds = s.scheds := rfl
@[simp] theorem State.setWreg_tdcs (a : Nat) (v : W72) : (s.setWreg a v).tdcs = s.tdcs := rfl
@[simp] theorem State.setWreg_ces (a : Nat) (v : W72) : (s.setWreg a v).ces = s.ces := rfl
@[simp] theorem State.setWreg_raman (a : Nat) (v : W72) : (s.setWreg a v).raman = s.raman := rfl
@[simp] theorem State.setWreg_dram (a : Nat) (v : W72) : (s.setWreg a v).dram = s.dram := rfl
@[simp] theorem State.setWreg_dramOut (a : Nat) (v : W72) : (s.setWreg a v).dramOut = s.dramOut := rfl
@[simp] theorem State.setWreg_banks (a : Nat) (v : W72) : (s.setWreg a v).banks = s.banks := rfl
@[simp] theorem State.setWreg_mcs (a : Nat) (v : W72) : (s.setWreg a v).mcs = s.mcs := rfl
@[simp] theorem State.setWreg_cores (a : Nat) (v : W72) : (s.setWreg a v).cores = s.cores := rfl
@[simp] theorem State.setWreg_clusters (a : Nat) (v : W72) : (s.setWreg a v).clusters = s.clusters := rfl
@[simp] theorem State.setWreg_chains (a : Nat) (v : W72) : (s.setWreg a v).chains = s.chains := rfl
@[simp] theorem State.setWreg_branches (a : Nat) (v : W72) : (s.setWreg a v).branches = s.branches := rfl
@[simp] theorem State.setWreg_phis (a : Nat) (v : W72) : (s.setWreg a v).phis = s.phis := rfl
@[simp] theorem State.setWreg_bands (a : Nat) (v : W72) : (s.setWreg a v).bands = s.bands := rfl
@[simp] theorem State.setWreg_fuses (a : Nat) (v : W72) : (s.setWreg a v).fuses = s.fuses := rfl
@[simp] theorem State.setWreg_coils (a : Nat) (v : W72) : (s.setWreg a v).coils = s.coils := rfl
@[simp] theorem State.setWreg_frames (a : Nat) (v : W72) : (s.setWreg a v).frames = s.frames := rfl
@[simp] theorem State.setWreg_sram (a : Nat) (v : W72) : (s.setWreg a v).sram = s.sram := rfl
@[simp] theorem State.setWreg_cmem (a : Nat) (v : W72) : (s.setWreg a v).cmem = s.cmem := rfl
@[simp] theorem State.setWreg_imem (a : Nat) (v : W72) : (s.setWreg a v).imem = s.imem := rfl
@[simp] theorem State.setWreg_fabric (a : Nat) (v : W72) : (s.setWreg a v).fabric = s.fabric := rfl
@[simp] theorem State.setWreg_returning (a : Nat) (v : W72) : (s.setWreg a v).returning = s.returning := rfl
@[simp] theorem State.setWreg_zones (a : Nat) (v : W72) : (s.setWreg a v).zones = s.zones := rfl
@[simp] theorem State.setWreg_zoneSts (a : Nat) (v : W72) : (s.setWreg a v).zoneSts = s.zoneSts := rfl
@[simp] theorem State.setWreg_evq (a : Nat) (v : W72) : (s.setWreg a v).evq = s.evq := rfl
@[simp] theorem State.setWreg_evLost (a : Nat) (v : W72) : (s.setWreg a v).evLost = s.evLost := rfl
@[simp] theorem State.setWreg_evSeq (a : Nat) (v : W72) : (s.setWreg a v).evSeq = s.evSeq := rfl
@[simp] theorem State.setWreg_caps (a : Nat) (v : W72) : (s.setWreg a v).caps = s.caps := rfl
@[simp] theorem State.setWreg_selfWrites (a : Nat) (v : W72) : (s.setWreg a v).selfWrites = s.selfWrites := rfl
@[simp] theorem State.setWreg_tpdos (a : Nat) (v : W72) : (s.setWreg a v).tpdos = s.tpdos := rfl
@[simp] theorem State.setWreg_od (a : Nat) (v : W72) : (s.setWreg a v).od = s.od := rfl
@[simp] theorem State.setWreg_odBytes (a : Nat) (v : W72) : (s.setWreg a v).odBytes = s.odBytes := rfl
@[simp] theorem State.setWreg_stalled (a : Nat) (v : W72) : (s.setWreg a v).stalled = s.stalled := rfl
@[simp] theorem State.setWreg_vecs (a : Nat) (v : W72) : (s.setWreg a v).vecs = s.vecs := rfl
@[simp] theorem State.setWreg_queues (a : Nat) (v : W72) : (s.setWreg a v).queues = s.queues := rfl
@[simp] theorem State.setWreg_msix (a : Nat) (v : W72) : (s.setWreg a v).msix = s.msix := rfl
@[simp] theorem State.setWreg_sessions (a : Nat) (v : W72) : (s.setWreg a v).sessions = s.sessions := rfl
@[simp] theorem State.setWreg_funcMask (a : Nat) (v : W72) : (s.setWreg a v).funcMask = s.funcMask := rfl
@[simp] theorem State.setWreg_dmas (a : Nat) (v : W72) : (s.setWreg a v).dmas = s.dmas := rfl
@[simp] theorem State.setWreg_dmaLast (a : Nat) (v : W72) : (s.setWreg a v).dmaLast = s.dmaLast := rfl
@[simp] theorem State.setWreg_descs (a : Nat) (v : W72) : (s.setWreg a v).descs = s.descs := rfl
@[simp] theorem State.setWreg_lamps (a : Nat) (v : W72) : (s.setWreg a v).lamps = s.lamps := rfl
@[simp] theorem State.setWreg_groups (a : Nat) (v : W72) : (s.setWreg a v).groups = s.groups := rfl
@[simp] theorem State.setWreg_lampOuts (a : Nat) (v : W72) : (s.setWreg a v).lampOuts = s.lampOuts := rfl
@[simp] theorem State.setWreg_thAt (a : Nat) (v : W72) : (s.setWreg a v).thAt = s.thAt := rfl
@[simp] theorem State.setWreg_padc (a : Nat) (v : W72) : (s.setWreg a v).padc = s.padc := rfl
@[simp] theorem State.setWreg_hadc (a : Nat) (v : W72) : (s.setWreg a v).hadc = s.hadc := rfl
@[simp] theorem State.setWreg_loopOuts (a : Nat) (v : W72) : (s.setWreg a v).loopOuts = s.loopOuts := rfl
@[simp] theorem State.setWreg_quince (a : Nat) (v : W72) : (s.setWreg a v).quince = s.quince := rfl
@[simp] theorem State.setWreg_net (a : Nat) (v : W72) : (s.setWreg a v).net = s.net := rfl
@[simp] theorem State.setWreg_cans (a : Nat) (v : W72) : (s.setWreg a v).cans = s.cans := rfl
@[simp] theorem State.setWreg_ptps (a : Nat) (v : W72) : (s.setWreg a v).ptps = s.ptps := rfl
@[simp] theorem State.setWreg_nvm (a : Nat) (v : W72) : (s.setWreg a v).nvm = s.nvm := rfl
@[simp] theorem State.setWreg_boot (a : Nat) (v : W72) : (s.setWreg a v).boot = s.boot := rfl

@[simp] theorem State.setReq_pending (q : Req) (r : ReqSt) : (s.setReq q r).pending = s.pending := rfl
@[simp] theorem State.setReq_fresh (q : Req) (r : ReqSt) : (s.setReq q r).fresh = s.fresh := rfl
@[simp] theorem State.setReq_tx (q : Req) (r : ReqSt) : (s.setReq q r).tx = s.tx := rfl
@[simp] theorem State.setReq_regs (q : Req) (r : ReqSt) : (s.setReq q r).regs = s.regs := rfl
@[simp] theorem State.setReq_wide (q : Req) (r : ReqSt) : (s.setReq q r).wide = s.wide := rfl
@[simp] theorem State.setReq_time (q : Req) (r : ReqSt) : (s.setReq q r).time = s.time := rfl
@[simp] theorem State.setReq_heads (q : Req) (r : ReqSt) : (s.setReq q r).heads = s.heads := rfl
@[simp] theorem State.setReq_probe (q : Req) (r : ReqSt) : (s.setReq q r).probe = s.probe := rfl
@[simp] theorem State.setReq_lanes (q : Req) (r : ReqSt) : (s.setReq q r).lanes = s.lanes := rfl
@[simp] theorem State.setReq_scheds (q : Req) (r : ReqSt) : (s.setReq q r).scheds = s.scheds := rfl
@[simp] theorem State.setReq_tdcs (q : Req) (r : ReqSt) : (s.setReq q r).tdcs = s.tdcs := rfl
@[simp] theorem State.setReq_ces (q : Req) (r : ReqSt) : (s.setReq q r).ces = s.ces := rfl
@[simp] theorem State.setReq_raman (q : Req) (r : ReqSt) : (s.setReq q r).raman = s.raman := rfl
@[simp] theorem State.setReq_dram (q : Req) (r : ReqSt) : (s.setReq q r).dram = s.dram := rfl
@[simp] theorem State.setReq_dramOut (q : Req) (r : ReqSt) : (s.setReq q r).dramOut = s.dramOut := rfl
@[simp] theorem State.setReq_banks (q : Req) (r : ReqSt) : (s.setReq q r).banks = s.banks := rfl
@[simp] theorem State.setReq_mcs (q : Req) (r : ReqSt) : (s.setReq q r).mcs = s.mcs := rfl
@[simp] theorem State.setReq_cores (q : Req) (r : ReqSt) : (s.setReq q r).cores = s.cores := rfl
@[simp] theorem State.setReq_clusters (q : Req) (r : ReqSt) : (s.setReq q r).clusters = s.clusters := rfl
@[simp] theorem State.setReq_chains (q : Req) (r : ReqSt) : (s.setReq q r).chains = s.chains := rfl
@[simp] theorem State.setReq_branches (q : Req) (r : ReqSt) : (s.setReq q r).branches = s.branches := rfl
@[simp] theorem State.setReq_phis (q : Req) (r : ReqSt) : (s.setReq q r).phis = s.phis := rfl
@[simp] theorem State.setReq_bands (q : Req) (r : ReqSt) : (s.setReq q r).bands = s.bands := rfl
@[simp] theorem State.setReq_fuses (q : Req) (r : ReqSt) : (s.setReq q r).fuses = s.fuses := rfl
@[simp] theorem State.setReq_coils (q : Req) (r : ReqSt) : (s.setReq q r).coils = s.coils := rfl
@[simp] theorem State.setReq_frames (q : Req) (r : ReqSt) : (s.setReq q r).frames = s.frames := rfl
@[simp] theorem State.setReq_sram (q : Req) (r : ReqSt) : (s.setReq q r).sram = s.sram := rfl
@[simp] theorem State.setReq_cmem (q : Req) (r : ReqSt) : (s.setReq q r).cmem = s.cmem := rfl
@[simp] theorem State.setReq_imem (q : Req) (r : ReqSt) : (s.setReq q r).imem = s.imem := rfl
@[simp] theorem State.setReq_fabric (q : Req) (r : ReqSt) : (s.setReq q r).fabric = s.fabric := rfl
@[simp] theorem State.setReq_returning (q : Req) (r : ReqSt) : (s.setReq q r).returning = s.returning := rfl
@[simp] theorem State.setReq_zones (q : Req) (r : ReqSt) : (s.setReq q r).zones = s.zones := rfl
@[simp] theorem State.setReq_zoneSts (q : Req) (r : ReqSt) : (s.setReq q r).zoneSts = s.zoneSts := rfl
@[simp] theorem State.setReq_evq (q : Req) (r : ReqSt) : (s.setReq q r).evq = s.evq := rfl
@[simp] theorem State.setReq_evLost (q : Req) (r : ReqSt) : (s.setReq q r).evLost = s.evLost := rfl
@[simp] theorem State.setReq_evSeq (q : Req) (r : ReqSt) : (s.setReq q r).evSeq = s.evSeq := rfl
@[simp] theorem State.setReq_caps (q : Req) (r : ReqSt) : (s.setReq q r).caps = s.caps := rfl
@[simp] theorem State.setReq_selfWrites (q : Req) (r : ReqSt) : (s.setReq q r).selfWrites = s.selfWrites := rfl
@[simp] theorem State.setReq_tpdos (q : Req) (r : ReqSt) : (s.setReq q r).tpdos = s.tpdos := rfl
@[simp] theorem State.setReq_od (q : Req) (r : ReqSt) : (s.setReq q r).od = s.od := rfl
@[simp] theorem State.setReq_odBytes (q : Req) (r : ReqSt) : (s.setReq q r).odBytes = s.odBytes := rfl
@[simp] theorem State.setReq_stalled (q : Req) (r : ReqSt) : (s.setReq q r).stalled = s.stalled := rfl
@[simp] theorem State.setReq_vecs (q : Req) (r : ReqSt) : (s.setReq q r).vecs = s.vecs := rfl
@[simp] theorem State.setReq_queues (q : Req) (r : ReqSt) : (s.setReq q r).queues = s.queues := rfl
@[simp] theorem State.setReq_msix (q : Req) (r : ReqSt) : (s.setReq q r).msix = s.msix := rfl
@[simp] theorem State.setReq_sessions (q : Req) (r : ReqSt) : (s.setReq q r).sessions = s.sessions := rfl
@[simp] theorem State.setReq_funcMask (q : Req) (r : ReqSt) : (s.setReq q r).funcMask = s.funcMask := rfl
@[simp] theorem State.setReq_dmas (q : Req) (r : ReqSt) : (s.setReq q r).dmas = s.dmas := rfl
@[simp] theorem State.setReq_dmaLast (q : Req) (r : ReqSt) : (s.setReq q r).dmaLast = s.dmaLast := rfl
@[simp] theorem State.setReq_descs (q : Req) (r : ReqSt) : (s.setReq q r).descs = s.descs := rfl
@[simp] theorem State.setReq_lamps (q : Req) (r : ReqSt) : (s.setReq q r).lamps = s.lamps := rfl
@[simp] theorem State.setReq_groups (q : Req) (r : ReqSt) : (s.setReq q r).groups = s.groups := rfl
@[simp] theorem State.setReq_lampOuts (q : Req) (r : ReqSt) : (s.setReq q r).lampOuts = s.lampOuts := rfl
@[simp] theorem State.setReq_thAt (q : Req) (r : ReqSt) : (s.setReq q r).thAt = s.thAt := rfl
@[simp] theorem State.setReq_padc (q : Req) (r : ReqSt) : (s.setReq q r).padc = s.padc := rfl
@[simp] theorem State.setReq_hadc (q : Req) (r : ReqSt) : (s.setReq q r).hadc = s.hadc := rfl
@[simp] theorem State.setReq_loopOuts (q : Req) (r : ReqSt) : (s.setReq q r).loopOuts = s.loopOuts := rfl
@[simp] theorem State.setReq_quince (q : Req) (r : ReqSt) : (s.setReq q r).quince = s.quince := rfl
@[simp] theorem State.setReq_net (q : Req) (r : ReqSt) : (s.setReq q r).net = s.net := rfl
@[simp] theorem State.setReq_cans (q : Req) (r : ReqSt) : (s.setReq q r).cans = s.cans := rfl
@[simp] theorem State.setReq_ptps (q : Req) (r : ReqSt) : (s.setReq q r).ptps = s.ptps := rfl
@[simp] theorem State.setReq_nvm (q : Req) (r : ReqSt) : (s.setReq q r).nvm = s.nvm := rfl
@[simp] theorem State.setReq_boot (q : Req) (r : ReqSt) : (s.setReq q r).boot = s.boot := rfl

@[simp] theorem State.emit_pending (o : Out) : (s.emit o).pending = s.pending := rfl
@[simp] theorem State.emit_fresh (o : Out) : (s.emit o).fresh = s.fresh := rfl
@[simp] theorem State.emit_regs (o : Out) : (s.emit o).regs = s.regs := rfl
@[simp] theorem State.emit_wide (o : Out) : (s.emit o).wide = s.wide := rfl
@[simp] theorem State.emit_reqs (o : Out) : (s.emit o).reqs = s.reqs := rfl
@[simp] theorem State.emit_time (o : Out) : (s.emit o).time = s.time := rfl
@[simp] theorem State.emit_heads (o : Out) : (s.emit o).heads = s.heads := rfl
@[simp] theorem State.emit_probe (o : Out) : (s.emit o).probe = s.probe := rfl
@[simp] theorem State.emit_lanes (o : Out) : (s.emit o).lanes = s.lanes := rfl
@[simp] theorem State.emit_scheds (o : Out) : (s.emit o).scheds = s.scheds := rfl
@[simp] theorem State.emit_tdcs (o : Out) : (s.emit o).tdcs = s.tdcs := rfl
@[simp] theorem State.emit_ces (o : Out) : (s.emit o).ces = s.ces := rfl
@[simp] theorem State.emit_raman (o : Out) : (s.emit o).raman = s.raman := rfl
@[simp] theorem State.emit_dram (o : Out) : (s.emit o).dram = s.dram := rfl
@[simp] theorem State.emit_dramOut (o : Out) : (s.emit o).dramOut = s.dramOut := rfl
@[simp] theorem State.emit_banks (o : Out) : (s.emit o).banks = s.banks := rfl
@[simp] theorem State.emit_mcs (o : Out) : (s.emit o).mcs = s.mcs := rfl
@[simp] theorem State.emit_cores (o : Out) : (s.emit o).cores = s.cores := rfl
@[simp] theorem State.emit_clusters (o : Out) : (s.emit o).clusters = s.clusters := rfl
@[simp] theorem State.emit_chains (o : Out) : (s.emit o).chains = s.chains := rfl
@[simp] theorem State.emit_branches (o : Out) : (s.emit o).branches = s.branches := rfl
@[simp] theorem State.emit_phis (o : Out) : (s.emit o).phis = s.phis := rfl
@[simp] theorem State.emit_bands (o : Out) : (s.emit o).bands = s.bands := rfl
@[simp] theorem State.emit_fuses (o : Out) : (s.emit o).fuses = s.fuses := rfl
@[simp] theorem State.emit_coils (o : Out) : (s.emit o).coils = s.coils := rfl
@[simp] theorem State.emit_frames (o : Out) : (s.emit o).frames = s.frames := rfl
@[simp] theorem State.emit_sram (o : Out) : (s.emit o).sram = s.sram := rfl
@[simp] theorem State.emit_cmem (o : Out) : (s.emit o).cmem = s.cmem := rfl
@[simp] theorem State.emit_imem (o : Out) : (s.emit o).imem = s.imem := rfl
@[simp] theorem State.emit_fabric (o : Out) : (s.emit o).fabric = s.fabric := rfl
@[simp] theorem State.emit_returning (o : Out) : (s.emit o).returning = s.returning := rfl
@[simp] theorem State.emit_zones (o : Out) : (s.emit o).zones = s.zones := rfl
@[simp] theorem State.emit_zoneSts (o : Out) : (s.emit o).zoneSts = s.zoneSts := rfl
@[simp] theorem State.emit_evq (o : Out) : (s.emit o).evq = s.evq := rfl
@[simp] theorem State.emit_evLost (o : Out) : (s.emit o).evLost = s.evLost := rfl
@[simp] theorem State.emit_evSeq (o : Out) : (s.emit o).evSeq = s.evSeq := rfl
@[simp] theorem State.emit_caps (o : Out) : (s.emit o).caps = s.caps := rfl
@[simp] theorem State.emit_selfWrites (o : Out) : (s.emit o).selfWrites = s.selfWrites := rfl
@[simp] theorem State.emit_tpdos (o : Out) : (s.emit o).tpdos = s.tpdos := rfl
@[simp] theorem State.emit_od (o : Out) : (s.emit o).od = s.od := rfl
@[simp] theorem State.emit_odBytes (o : Out) : (s.emit o).odBytes = s.odBytes := rfl
@[simp] theorem State.emit_stalled (o : Out) : (s.emit o).stalled = s.stalled := rfl
@[simp] theorem State.emit_vecs (o : Out) : (s.emit o).vecs = s.vecs := rfl
@[simp] theorem State.emit_queues (o : Out) : (s.emit o).queues = s.queues := rfl
@[simp] theorem State.emit_msix (o : Out) : (s.emit o).msix = s.msix := rfl
@[simp] theorem State.emit_sessions (o : Out) : (s.emit o).sessions = s.sessions := rfl
@[simp] theorem State.emit_funcMask (o : Out) : (s.emit o).funcMask = s.funcMask := rfl
@[simp] theorem State.emit_dmas (o : Out) : (s.emit o).dmas = s.dmas := rfl
@[simp] theorem State.emit_dmaLast (o : Out) : (s.emit o).dmaLast = s.dmaLast := rfl
@[simp] theorem State.emit_descs (o : Out) : (s.emit o).descs = s.descs := rfl
@[simp] theorem State.emit_lamps (o : Out) : (s.emit o).lamps = s.lamps := rfl
@[simp] theorem State.emit_groups (o : Out) : (s.emit o).groups = s.groups := rfl
@[simp] theorem State.emit_lampOuts (o : Out) : (s.emit o).lampOuts = s.lampOuts := rfl
@[simp] theorem State.emit_thAt (o : Out) : (s.emit o).thAt = s.thAt := rfl
@[simp] theorem State.emit_padc (o : Out) : (s.emit o).padc = s.padc := rfl
@[simp] theorem State.emit_hadc (o : Out) : (s.emit o).hadc = s.hadc := rfl
@[simp] theorem State.emit_loopOuts (o : Out) : (s.emit o).loopOuts = s.loopOuts := rfl
@[simp] theorem State.emit_quince (o : Out) : (s.emit o).quince = s.quince := rfl
@[simp] theorem State.emit_net (o : Out) : (s.emit o).net = s.net := rfl
@[simp] theorem State.emit_cans (o : Out) : (s.emit o).cans = s.cans := rfl
@[simp] theorem State.emit_ptps (o : Out) : (s.emit o).ptps = s.ptps := rfl
@[simp] theorem State.emit_nvm (o : Out) : (s.emit o).nvm = s.nvm := rfl
@[simp] theorem State.emit_boot (o : Out) : (s.emit o).boot = s.boot := rfl

@[simp] theorem State.drawn_pending : (s.drawn).pending = s.pending := rfl
@[simp] theorem State.drawn_tx : (s.drawn).tx = s.tx := rfl
@[simp] theorem State.drawn_regs : (s.drawn).regs = s.regs := rfl
@[simp] theorem State.drawn_wide : (s.drawn).wide = s.wide := rfl
@[simp] theorem State.drawn_reqs : (s.drawn).reqs = s.reqs := rfl
@[simp] theorem State.drawn_time : (s.drawn).time = s.time := rfl
@[simp] theorem State.drawn_heads : (s.drawn).heads = s.heads := rfl
@[simp] theorem State.drawn_probe : (s.drawn).probe = s.probe := rfl
@[simp] theorem State.drawn_lanes : (s.drawn).lanes = s.lanes := rfl
@[simp] theorem State.drawn_scheds : (s.drawn).scheds = s.scheds := rfl
@[simp] theorem State.drawn_tdcs : (s.drawn).tdcs = s.tdcs := rfl
@[simp] theorem State.drawn_ces : (s.drawn).ces = s.ces := rfl
@[simp] theorem State.drawn_raman : (s.drawn).raman = s.raman := rfl
@[simp] theorem State.drawn_dram : (s.drawn).dram = s.dram := rfl
@[simp] theorem State.drawn_dramOut : (s.drawn).dramOut = s.dramOut := rfl
@[simp] theorem State.drawn_banks : (s.drawn).banks = s.banks := rfl
@[simp] theorem State.drawn_mcs : (s.drawn).mcs = s.mcs := rfl
@[simp] theorem State.drawn_cores : (s.drawn).cores = s.cores := rfl
@[simp] theorem State.drawn_clusters : (s.drawn).clusters = s.clusters := rfl
@[simp] theorem State.drawn_chains : (s.drawn).chains = s.chains := rfl
@[simp] theorem State.drawn_branches : (s.drawn).branches = s.branches := rfl
@[simp] theorem State.drawn_phis : (s.drawn).phis = s.phis := rfl
@[simp] theorem State.drawn_bands : (s.drawn).bands = s.bands := rfl
@[simp] theorem State.drawn_fuses : (s.drawn).fuses = s.fuses := rfl
@[simp] theorem State.drawn_coils : (s.drawn).coils = s.coils := rfl
@[simp] theorem State.drawn_frames : (s.drawn).frames = s.frames := rfl
@[simp] theorem State.drawn_sram : (s.drawn).sram = s.sram := rfl
@[simp] theorem State.drawn_cmem : (s.drawn).cmem = s.cmem := rfl
@[simp] theorem State.drawn_imem : (s.drawn).imem = s.imem := rfl
@[simp] theorem State.drawn_fabric : (s.drawn).fabric = s.fabric := rfl
@[simp] theorem State.drawn_returning : (s.drawn).returning = s.returning := rfl
@[simp] theorem State.drawn_zones : (s.drawn).zones = s.zones := rfl
@[simp] theorem State.drawn_zoneSts : (s.drawn).zoneSts = s.zoneSts := rfl
@[simp] theorem State.drawn_evq : (s.drawn).evq = s.evq := rfl
@[simp] theorem State.drawn_evLost : (s.drawn).evLost = s.evLost := rfl
@[simp] theorem State.drawn_evSeq : (s.drawn).evSeq = s.evSeq := rfl
@[simp] theorem State.drawn_caps : (s.drawn).caps = s.caps := rfl
@[simp] theorem State.drawn_selfWrites : (s.drawn).selfWrites = s.selfWrites := rfl
@[simp] theorem State.drawn_tpdos : (s.drawn).tpdos = s.tpdos := rfl
@[simp] theorem State.drawn_od : (s.drawn).od = s.od := rfl
@[simp] theorem State.drawn_odBytes : (s.drawn).odBytes = s.odBytes := rfl
@[simp] theorem State.drawn_stalled : (s.drawn).stalled = s.stalled := rfl
@[simp] theorem State.drawn_vecs : (s.drawn).vecs = s.vecs := rfl
@[simp] theorem State.drawn_queues : (s.drawn).queues = s.queues := rfl
@[simp] theorem State.drawn_msix : (s.drawn).msix = s.msix := rfl
@[simp] theorem State.drawn_sessions : (s.drawn).sessions = s.sessions := rfl
@[simp] theorem State.drawn_funcMask : (s.drawn).funcMask = s.funcMask := rfl
@[simp] theorem State.drawn_dmas : (s.drawn).dmas = s.dmas := rfl
@[simp] theorem State.drawn_dmaLast : (s.drawn).dmaLast = s.dmaLast := rfl
@[simp] theorem State.drawn_descs : (s.drawn).descs = s.descs := rfl
@[simp] theorem State.drawn_lamps : (s.drawn).lamps = s.lamps := rfl
@[simp] theorem State.drawn_groups : (s.drawn).groups = s.groups := rfl
@[simp] theorem State.drawn_lampOuts : (s.drawn).lampOuts = s.lampOuts := rfl
@[simp] theorem State.drawn_thAt : (s.drawn).thAt = s.thAt := rfl
@[simp] theorem State.drawn_padc : (s.drawn).padc = s.padc := rfl
@[simp] theorem State.drawn_hadc : (s.drawn).hadc = s.hadc := rfl
@[simp] theorem State.drawn_loopOuts : (s.drawn).loopOuts = s.loopOuts := rfl
@[simp] theorem State.drawn_quince : (s.drawn).quince = s.quince := rfl
@[simp] theorem State.drawn_net : (s.drawn).net = s.net := rfl
@[simp] theorem State.drawn_cans : (s.drawn).cans = s.cans := rfl
@[simp] theorem State.drawn_ptps : (s.drawn).ptps = s.ptps := rfl
@[simp] theorem State.drawn_nvm : (s.drawn).nvm = s.nvm := rfl
@[simp] theorem State.drawn_boot : (s.drawn).boot = s.boot := rfl

@[simp] theorem State.setBank_pending (k : Nat) (b : BankSt) : (s.setBank k b).pending = s.pending := rfl
@[simp] theorem State.setBank_fresh (k : Nat) (b : BankSt) : (s.setBank k b).fresh = s.fresh := rfl
@[simp] theorem State.setBank_tx (k : Nat) (b : BankSt) : (s.setBank k b).tx = s.tx := rfl
@[simp] theorem State.setBank_regs (k : Nat) (b : BankSt) : (s.setBank k b).regs = s.regs := rfl
@[simp] theorem State.setBank_wide (k : Nat) (b : BankSt) : (s.setBank k b).wide = s.wide := rfl
@[simp] theorem State.setBank_reqs (k : Nat) (b : BankSt) : (s.setBank k b).reqs = s.reqs := rfl
@[simp] theorem State.setBank_time (k : Nat) (b : BankSt) : (s.setBank k b).time = s.time := rfl
@[simp] theorem State.setBank_heads (k : Nat) (b : BankSt) : (s.setBank k b).heads = s.heads := rfl
@[simp] theorem State.setBank_probe (k : Nat) (b : BankSt) : (s.setBank k b).probe = s.probe := rfl
@[simp] theorem State.setBank_lanes (k : Nat) (b : BankSt) : (s.setBank k b).lanes = s.lanes := rfl
@[simp] theorem State.setBank_scheds (k : Nat) (b : BankSt) : (s.setBank k b).scheds = s.scheds := rfl
@[simp] theorem State.setBank_tdcs (k : Nat) (b : BankSt) : (s.setBank k b).tdcs = s.tdcs := rfl
@[simp] theorem State.setBank_ces (k : Nat) (b : BankSt) : (s.setBank k b).ces = s.ces := rfl
@[simp] theorem State.setBank_raman (k : Nat) (b : BankSt) : (s.setBank k b).raman = s.raman := rfl
@[simp] theorem State.setBank_dram (k : Nat) (b : BankSt) : (s.setBank k b).dram = s.dram := rfl
@[simp] theorem State.setBank_dramOut (k : Nat) (b : BankSt) : (s.setBank k b).dramOut = s.dramOut := rfl
@[simp] theorem State.setBank_mcs (k : Nat) (b : BankSt) : (s.setBank k b).mcs = s.mcs := rfl
@[simp] theorem State.setBank_cores (k : Nat) (b : BankSt) : (s.setBank k b).cores = s.cores := rfl
@[simp] theorem State.setBank_clusters (k : Nat) (b : BankSt) : (s.setBank k b).clusters = s.clusters := rfl
@[simp] theorem State.setBank_chains (k : Nat) (b : BankSt) : (s.setBank k b).chains = s.chains := rfl
@[simp] theorem State.setBank_branches (k : Nat) (b : BankSt) : (s.setBank k b).branches = s.branches := rfl
@[simp] theorem State.setBank_phis (k : Nat) (b : BankSt) : (s.setBank k b).phis = s.phis := rfl
@[simp] theorem State.setBank_bands (k : Nat) (b : BankSt) : (s.setBank k b).bands = s.bands := rfl
@[simp] theorem State.setBank_fuses (k : Nat) (b : BankSt) : (s.setBank k b).fuses = s.fuses := rfl
@[simp] theorem State.setBank_coils (k : Nat) (b : BankSt) : (s.setBank k b).coils = s.coils := rfl
@[simp] theorem State.setBank_frames (k : Nat) (b : BankSt) : (s.setBank k b).frames = s.frames := rfl
@[simp] theorem State.setBank_sram (k : Nat) (b : BankSt) : (s.setBank k b).sram = s.sram := rfl
@[simp] theorem State.setBank_cmem (k : Nat) (b : BankSt) : (s.setBank k b).cmem = s.cmem := rfl
@[simp] theorem State.setBank_imem (k : Nat) (b : BankSt) : (s.setBank k b).imem = s.imem := rfl
@[simp] theorem State.setBank_fabric (k : Nat) (b : BankSt) : (s.setBank k b).fabric = s.fabric := rfl
@[simp] theorem State.setBank_returning (k : Nat) (b : BankSt) : (s.setBank k b).returning = s.returning := rfl
@[simp] theorem State.setBank_zones (k : Nat) (b : BankSt) : (s.setBank k b).zones = s.zones := rfl
@[simp] theorem State.setBank_zoneSts (k : Nat) (b : BankSt) : (s.setBank k b).zoneSts = s.zoneSts := rfl
@[simp] theorem State.setBank_evq (k : Nat) (b : BankSt) : (s.setBank k b).evq = s.evq := rfl
@[simp] theorem State.setBank_evLost (k : Nat) (b : BankSt) : (s.setBank k b).evLost = s.evLost := rfl
@[simp] theorem State.setBank_evSeq (k : Nat) (b : BankSt) : (s.setBank k b).evSeq = s.evSeq := rfl
@[simp] theorem State.setBank_caps (k : Nat) (b : BankSt) : (s.setBank k b).caps = s.caps := rfl
@[simp] theorem State.setBank_selfWrites (k : Nat) (b : BankSt) : (s.setBank k b).selfWrites = s.selfWrites := rfl
@[simp] theorem State.setBank_tpdos (k : Nat) (b : BankSt) : (s.setBank k b).tpdos = s.tpdos := rfl
@[simp] theorem State.setBank_od (k : Nat) (b : BankSt) : (s.setBank k b).od = s.od := rfl
@[simp] theorem State.setBank_odBytes (k : Nat) (b : BankSt) : (s.setBank k b).odBytes = s.odBytes := rfl
@[simp] theorem State.setBank_stalled (k : Nat) (b : BankSt) : (s.setBank k b).stalled = s.stalled := rfl
@[simp] theorem State.setBank_vecs (k : Nat) (b : BankSt) : (s.setBank k b).vecs = s.vecs := rfl
@[simp] theorem State.setBank_queues (k : Nat) (b : BankSt) : (s.setBank k b).queues = s.queues := rfl
@[simp] theorem State.setBank_msix (k : Nat) (b : BankSt) : (s.setBank k b).msix = s.msix := rfl
@[simp] theorem State.setBank_sessions (k : Nat) (b : BankSt) : (s.setBank k b).sessions = s.sessions := rfl
@[simp] theorem State.setBank_funcMask (k : Nat) (b : BankSt) : (s.setBank k b).funcMask = s.funcMask := rfl
@[simp] theorem State.setBank_dmas (k : Nat) (b : BankSt) : (s.setBank k b).dmas = s.dmas := rfl
@[simp] theorem State.setBank_dmaLast (k : Nat) (b : BankSt) : (s.setBank k b).dmaLast = s.dmaLast := rfl
@[simp] theorem State.setBank_descs (k : Nat) (b : BankSt) : (s.setBank k b).descs = s.descs := rfl
@[simp] theorem State.setBank_lamps (k : Nat) (b : BankSt) : (s.setBank k b).lamps = s.lamps := rfl
@[simp] theorem State.setBank_groups (k : Nat) (b : BankSt) : (s.setBank k b).groups = s.groups := rfl
@[simp] theorem State.setBank_lampOuts (k : Nat) (b : BankSt) : (s.setBank k b).lampOuts = s.lampOuts := rfl
@[simp] theorem State.setBank_thAt (k : Nat) (b : BankSt) : (s.setBank k b).thAt = s.thAt := rfl
@[simp] theorem State.setBank_padc (k : Nat) (b : BankSt) : (s.setBank k b).padc = s.padc := rfl
@[simp] theorem State.setBank_hadc (k : Nat) (b : BankSt) : (s.setBank k b).hadc = s.hadc := rfl
@[simp] theorem State.setBank_loopOuts (k : Nat) (b : BankSt) : (s.setBank k b).loopOuts = s.loopOuts := rfl
@[simp] theorem State.setBank_quince (k : Nat) (b : BankSt) : (s.setBank k b).quince = s.quince := rfl
@[simp] theorem State.setBank_net (k : Nat) (b : BankSt) : (s.setBank k b).net = s.net := rfl
@[simp] theorem State.setBank_cans (k : Nat) (b : BankSt) : (s.setBank k b).cans = s.cans := rfl
@[simp] theorem State.setBank_ptps (k : Nat) (b : BankSt) : (s.setBank k b).ptps = s.ptps := rfl
@[simp] theorem State.setBank_nvm (k : Nat) (b : BankSt) : (s.setBank k b).nvm = s.nvm := rfl
@[simp] theorem State.setBank_boot (k : Nat) (b : BankSt) : (s.setBank k b).boot = s.boot := rfl

@[simp] theorem State.setDramCell_pending (m a : Nat) (w : BitVec 80) : (s.setDramCell m a w).pending = s.pending := rfl
@[simp] theorem State.setDramCell_fresh (m a : Nat) (w : BitVec 80) : (s.setDramCell m a w).fresh = s.fresh := rfl
@[simp] theorem State.setDramCell_tx (m a : Nat) (w : BitVec 80) : (s.setDramCell m a w).tx = s.tx := rfl
@[simp] theorem State.setDramCell_regs (m a : Nat) (w : BitVec 80) : (s.setDramCell m a w).regs = s.regs := rfl
@[simp] theorem State.setDramCell_wide (m a : Nat) (w : BitVec 80) : (s.setDramCell m a w).wide = s.wide := rfl
@[simp] theorem State.setDramCell_reqs (m a : Nat) (w : BitVec 80) : (s.setDramCell m a w).reqs = s.reqs := rfl
@[simp] theorem State.setDramCell_time (m a : Nat) (w : BitVec 80) : (s.setDramCell m a w).time = s.time := rfl
@[simp] theorem State.setDramCell_heads (m a : Nat) (w : BitVec 80) : (s.setDramCell m a w).heads = s.heads := rfl
@[simp] theorem State.setDramCell_probe (m a : Nat) (w : BitVec 80) : (s.setDramCell m a w).probe = s.probe := rfl
@[simp] theorem State.setDramCell_lanes (m a : Nat) (w : BitVec 80) : (s.setDramCell m a w).lanes = s.lanes := rfl
@[simp] theorem State.setDramCell_scheds (m a : Nat) (w : BitVec 80) : (s.setDramCell m a w).scheds = s.scheds := rfl
@[simp] theorem State.setDramCell_tdcs (m a : Nat) (w : BitVec 80) : (s.setDramCell m a w).tdcs = s.tdcs := rfl
@[simp] theorem State.setDramCell_ces (m a : Nat) (w : BitVec 80) : (s.setDramCell m a w).ces = s.ces := rfl
@[simp] theorem State.setDramCell_raman (m a : Nat) (w : BitVec 80) : (s.setDramCell m a w).raman = s.raman := rfl
@[simp] theorem State.setDramCell_dramOut (m a : Nat) (w : BitVec 80) : (s.setDramCell m a w).dramOut = s.dramOut := rfl
@[simp] theorem State.setDramCell_banks (m a : Nat) (w : BitVec 80) : (s.setDramCell m a w).banks = s.banks := rfl
@[simp] theorem State.setDramCell_mcs (m a : Nat) (w : BitVec 80) : (s.setDramCell m a w).mcs = s.mcs := rfl
@[simp] theorem State.setDramCell_cores (m a : Nat) (w : BitVec 80) : (s.setDramCell m a w).cores = s.cores := rfl
@[simp] theorem State.setDramCell_clusters (m a : Nat) (w : BitVec 80) : (s.setDramCell m a w).clusters = s.clusters := rfl
@[simp] theorem State.setDramCell_chains (m a : Nat) (w : BitVec 80) : (s.setDramCell m a w).chains = s.chains := rfl
@[simp] theorem State.setDramCell_branches (m a : Nat) (w : BitVec 80) : (s.setDramCell m a w).branches = s.branches := rfl
@[simp] theorem State.setDramCell_phis (m a : Nat) (w : BitVec 80) : (s.setDramCell m a w).phis = s.phis := rfl
@[simp] theorem State.setDramCell_bands (m a : Nat) (w : BitVec 80) : (s.setDramCell m a w).bands = s.bands := rfl
@[simp] theorem State.setDramCell_fuses (m a : Nat) (w : BitVec 80) : (s.setDramCell m a w).fuses = s.fuses := rfl
@[simp] theorem State.setDramCell_coils (m a : Nat) (w : BitVec 80) : (s.setDramCell m a w).coils = s.coils := rfl
@[simp] theorem State.setDramCell_frames (m a : Nat) (w : BitVec 80) : (s.setDramCell m a w).frames = s.frames := rfl
@[simp] theorem State.setDramCell_sram (m a : Nat) (w : BitVec 80) : (s.setDramCell m a w).sram = s.sram := rfl
@[simp] theorem State.setDramCell_cmem (m a : Nat) (w : BitVec 80) : (s.setDramCell m a w).cmem = s.cmem := rfl
@[simp] theorem State.setDramCell_imem (m a : Nat) (w : BitVec 80) : (s.setDramCell m a w).imem = s.imem := rfl
@[simp] theorem State.setDramCell_fabric (m a : Nat) (w : BitVec 80) : (s.setDramCell m a w).fabric = s.fabric := rfl
@[simp] theorem State.setDramCell_returning (m a : Nat) (w : BitVec 80) : (s.setDramCell m a w).returning = s.returning := rfl
@[simp] theorem State.setDramCell_zones (m a : Nat) (w : BitVec 80) : (s.setDramCell m a w).zones = s.zones := rfl
@[simp] theorem State.setDramCell_zoneSts (m a : Nat) (w : BitVec 80) : (s.setDramCell m a w).zoneSts = s.zoneSts := rfl
@[simp] theorem State.setDramCell_evq (m a : Nat) (w : BitVec 80) : (s.setDramCell m a w).evq = s.evq := rfl
@[simp] theorem State.setDramCell_evLost (m a : Nat) (w : BitVec 80) : (s.setDramCell m a w).evLost = s.evLost := rfl
@[simp] theorem State.setDramCell_evSeq (m a : Nat) (w : BitVec 80) : (s.setDramCell m a w).evSeq = s.evSeq := rfl
@[simp] theorem State.setDramCell_caps (m a : Nat) (w : BitVec 80) : (s.setDramCell m a w).caps = s.caps := rfl
@[simp] theorem State.setDramCell_selfWrites (m a : Nat) (w : BitVec 80) : (s.setDramCell m a w).selfWrites = s.selfWrites := rfl
@[simp] theorem State.setDramCell_tpdos (m a : Nat) (w : BitVec 80) : (s.setDramCell m a w).tpdos = s.tpdos := rfl
@[simp] theorem State.setDramCell_od (m a : Nat) (w : BitVec 80) : (s.setDramCell m a w).od = s.od := rfl
@[simp] theorem State.setDramCell_odBytes (m a : Nat) (w : BitVec 80) : (s.setDramCell m a w).odBytes = s.odBytes := rfl
@[simp] theorem State.setDramCell_stalled (m a : Nat) (w : BitVec 80) : (s.setDramCell m a w).stalled = s.stalled := rfl
@[simp] theorem State.setDramCell_vecs (m a : Nat) (w : BitVec 80) : (s.setDramCell m a w).vecs = s.vecs := rfl
@[simp] theorem State.setDramCell_queues (m a : Nat) (w : BitVec 80) : (s.setDramCell m a w).queues = s.queues := rfl
@[simp] theorem State.setDramCell_msix (m a : Nat) (w : BitVec 80) : (s.setDramCell m a w).msix = s.msix := rfl
@[simp] theorem State.setDramCell_sessions (m a : Nat) (w : BitVec 80) : (s.setDramCell m a w).sessions = s.sessions := rfl
@[simp] theorem State.setDramCell_funcMask (m a : Nat) (w : BitVec 80) : (s.setDramCell m a w).funcMask = s.funcMask := rfl
@[simp] theorem State.setDramCell_dmas (m a : Nat) (w : BitVec 80) : (s.setDramCell m a w).dmas = s.dmas := rfl
@[simp] theorem State.setDramCell_dmaLast (m a : Nat) (w : BitVec 80) : (s.setDramCell m a w).dmaLast = s.dmaLast := rfl
@[simp] theorem State.setDramCell_descs (m a : Nat) (w : BitVec 80) : (s.setDramCell m a w).descs = s.descs := rfl
@[simp] theorem State.setDramCell_lamps (m a : Nat) (w : BitVec 80) : (s.setDramCell m a w).lamps = s.lamps := rfl
@[simp] theorem State.setDramCell_groups (m a : Nat) (w : BitVec 80) : (s.setDramCell m a w).groups = s.groups := rfl
@[simp] theorem State.setDramCell_lampOuts (m a : Nat) (w : BitVec 80) : (s.setDramCell m a w).lampOuts = s.lampOuts := rfl
@[simp] theorem State.setDramCell_thAt (m a : Nat) (w : BitVec 80) : (s.setDramCell m a w).thAt = s.thAt := rfl
@[simp] theorem State.setDramCell_padc (m a : Nat) (w : BitVec 80) : (s.setDramCell m a w).padc = s.padc := rfl
@[simp] theorem State.setDramCell_hadc (m a : Nat) (w : BitVec 80) : (s.setDramCell m a w).hadc = s.hadc := rfl
@[simp] theorem State.setDramCell_loopOuts (m a : Nat) (w : BitVec 80) : (s.setDramCell m a w).loopOuts = s.loopOuts := rfl
@[simp] theorem State.setDramCell_quince (m a : Nat) (w : BitVec 80) : (s.setDramCell m a w).quince = s.quince := rfl
@[simp] theorem State.setDramCell_net (m a : Nat) (w : BitVec 80) : (s.setDramCell m a w).net = s.net := rfl
@[simp] theorem State.setDramCell_cans (m a : Nat) (w : BitVec 80) : (s.setDramCell m a w).cans = s.cans := rfl
@[simp] theorem State.setDramCell_ptps (m a : Nat) (w : BitVec 80) : (s.setDramCell m a w).ptps = s.ptps := rfl
@[simp] theorem State.setDramCell_nvm (m a : Nat) (w : BitVec 80) : (s.setDramCell m a w).nvm = s.nvm := rfl
@[simp] theorem State.setDramCell_boot (m a : Nat) (w : BitVec 80) : (s.setDramCell m a w).boot = s.boot := rfl

@[simp] theorem State.setMsixWord_pending (i : Nat) (v : W32) : (s.setMsixWord i v).pending = s.pending := rfl
@[simp] theorem State.setMsixWord_fresh (i : Nat) (v : W32) : (s.setMsixWord i v).fresh = s.fresh := rfl
@[simp] theorem State.setMsixWord_tx (i : Nat) (v : W32) : (s.setMsixWord i v).tx = s.tx := rfl
@[simp] theorem State.setMsixWord_regs (i : Nat) (v : W32) : (s.setMsixWord i v).regs = s.regs := rfl
@[simp] theorem State.setMsixWord_wide (i : Nat) (v : W32) : (s.setMsixWord i v).wide = s.wide := rfl
@[simp] theorem State.setMsixWord_reqs (i : Nat) (v : W32) : (s.setMsixWord i v).reqs = s.reqs := rfl
@[simp] theorem State.setMsixWord_time (i : Nat) (v : W32) : (s.setMsixWord i v).time = s.time := rfl
@[simp] theorem State.setMsixWord_heads (i : Nat) (v : W32) : (s.setMsixWord i v).heads = s.heads := rfl
@[simp] theorem State.setMsixWord_probe (i : Nat) (v : W32) : (s.setMsixWord i v).probe = s.probe := rfl
@[simp] theorem State.setMsixWord_lanes (i : Nat) (v : W32) : (s.setMsixWord i v).lanes = s.lanes := rfl
@[simp] theorem State.setMsixWord_scheds (i : Nat) (v : W32) : (s.setMsixWord i v).scheds = s.scheds := rfl
@[simp] theorem State.setMsixWord_tdcs (i : Nat) (v : W32) : (s.setMsixWord i v).tdcs = s.tdcs := rfl
@[simp] theorem State.setMsixWord_ces (i : Nat) (v : W32) : (s.setMsixWord i v).ces = s.ces := rfl
@[simp] theorem State.setMsixWord_raman (i : Nat) (v : W32) : (s.setMsixWord i v).raman = s.raman := rfl
@[simp] theorem State.setMsixWord_dram (i : Nat) (v : W32) : (s.setMsixWord i v).dram = s.dram := rfl
@[simp] theorem State.setMsixWord_dramOut (i : Nat) (v : W32) : (s.setMsixWord i v).dramOut = s.dramOut := rfl
@[simp] theorem State.setMsixWord_banks (i : Nat) (v : W32) : (s.setMsixWord i v).banks = s.banks := rfl
@[simp] theorem State.setMsixWord_mcs (i : Nat) (v : W32) : (s.setMsixWord i v).mcs = s.mcs := rfl
@[simp] theorem State.setMsixWord_cores (i : Nat) (v : W32) : (s.setMsixWord i v).cores = s.cores := rfl
@[simp] theorem State.setMsixWord_clusters (i : Nat) (v : W32) : (s.setMsixWord i v).clusters = s.clusters := rfl
@[simp] theorem State.setMsixWord_chains (i : Nat) (v : W32) : (s.setMsixWord i v).chains = s.chains := rfl
@[simp] theorem State.setMsixWord_branches (i : Nat) (v : W32) : (s.setMsixWord i v).branches = s.branches := rfl
@[simp] theorem State.setMsixWord_phis (i : Nat) (v : W32) : (s.setMsixWord i v).phis = s.phis := rfl
@[simp] theorem State.setMsixWord_bands (i : Nat) (v : W32) : (s.setMsixWord i v).bands = s.bands := rfl
@[simp] theorem State.setMsixWord_fuses (i : Nat) (v : W32) : (s.setMsixWord i v).fuses = s.fuses := rfl
@[simp] theorem State.setMsixWord_coils (i : Nat) (v : W32) : (s.setMsixWord i v).coils = s.coils := rfl
@[simp] theorem State.setMsixWord_frames (i : Nat) (v : W32) : (s.setMsixWord i v).frames = s.frames := rfl
@[simp] theorem State.setMsixWord_sram (i : Nat) (v : W32) : (s.setMsixWord i v).sram = s.sram := rfl
@[simp] theorem State.setMsixWord_cmem (i : Nat) (v : W32) : (s.setMsixWord i v).cmem = s.cmem := rfl
@[simp] theorem State.setMsixWord_imem (i : Nat) (v : W32) : (s.setMsixWord i v).imem = s.imem := rfl
@[simp] theorem State.setMsixWord_fabric (i : Nat) (v : W32) : (s.setMsixWord i v).fabric = s.fabric := rfl
@[simp] theorem State.setMsixWord_returning (i : Nat) (v : W32) : (s.setMsixWord i v).returning = s.returning := rfl
@[simp] theorem State.setMsixWord_zones (i : Nat) (v : W32) : (s.setMsixWord i v).zones = s.zones := rfl
@[simp] theorem State.setMsixWord_zoneSts (i : Nat) (v : W32) : (s.setMsixWord i v).zoneSts = s.zoneSts := rfl
@[simp] theorem State.setMsixWord_evq (i : Nat) (v : W32) : (s.setMsixWord i v).evq = s.evq := rfl
@[simp] theorem State.setMsixWord_evLost (i : Nat) (v : W32) : (s.setMsixWord i v).evLost = s.evLost := rfl
@[simp] theorem State.setMsixWord_evSeq (i : Nat) (v : W32) : (s.setMsixWord i v).evSeq = s.evSeq := rfl
@[simp] theorem State.setMsixWord_caps (i : Nat) (v : W32) : (s.setMsixWord i v).caps = s.caps := rfl
@[simp] theorem State.setMsixWord_selfWrites (i : Nat) (v : W32) : (s.setMsixWord i v).selfWrites = s.selfWrites := rfl
@[simp] theorem State.setMsixWord_tpdos (i : Nat) (v : W32) : (s.setMsixWord i v).tpdos = s.tpdos := rfl
@[simp] theorem State.setMsixWord_od (i : Nat) (v : W32) : (s.setMsixWord i v).od = s.od := rfl
@[simp] theorem State.setMsixWord_odBytes (i : Nat) (v : W32) : (s.setMsixWord i v).odBytes = s.odBytes := rfl
@[simp] theorem State.setMsixWord_stalled (i : Nat) (v : W32) : (s.setMsixWord i v).stalled = s.stalled := rfl
@[simp] theorem State.setMsixWord_vecs (i : Nat) (v : W32) : (s.setMsixWord i v).vecs = s.vecs := rfl
@[simp] theorem State.setMsixWord_queues (i : Nat) (v : W32) : (s.setMsixWord i v).queues = s.queues := rfl
@[simp] theorem State.setMsixWord_sessions (i : Nat) (v : W32) : (s.setMsixWord i v).sessions = s.sessions := rfl
@[simp] theorem State.setMsixWord_funcMask (i : Nat) (v : W32) : (s.setMsixWord i v).funcMask = s.funcMask := rfl
@[simp] theorem State.setMsixWord_dmas (i : Nat) (v : W32) : (s.setMsixWord i v).dmas = s.dmas := rfl
@[simp] theorem State.setMsixWord_dmaLast (i : Nat) (v : W32) : (s.setMsixWord i v).dmaLast = s.dmaLast := rfl
@[simp] theorem State.setMsixWord_descs (i : Nat) (v : W32) : (s.setMsixWord i v).descs = s.descs := rfl
@[simp] theorem State.setMsixWord_lamps (i : Nat) (v : W32) : (s.setMsixWord i v).lamps = s.lamps := rfl
@[simp] theorem State.setMsixWord_groups (i : Nat) (v : W32) : (s.setMsixWord i v).groups = s.groups := rfl
@[simp] theorem State.setMsixWord_lampOuts (i : Nat) (v : W32) : (s.setMsixWord i v).lampOuts = s.lampOuts := rfl
@[simp] theorem State.setMsixWord_thAt (i : Nat) (v : W32) : (s.setMsixWord i v).thAt = s.thAt := rfl
@[simp] theorem State.setMsixWord_padc (i : Nat) (v : W32) : (s.setMsixWord i v).padc = s.padc := rfl
@[simp] theorem State.setMsixWord_hadc (i : Nat) (v : W32) : (s.setMsixWord i v).hadc = s.hadc := rfl
@[simp] theorem State.setMsixWord_loopOuts (i : Nat) (v : W32) : (s.setMsixWord i v).loopOuts = s.loopOuts := rfl
@[simp] theorem State.setMsixWord_quince (i : Nat) (v : W32) : (s.setMsixWord i v).quince = s.quince := rfl
@[simp] theorem State.setMsixWord_net (i : Nat) (v : W32) : (s.setMsixWord i v).net = s.net := rfl
@[simp] theorem State.setMsixWord_cans (i : Nat) (v : W32) : (s.setMsixWord i v).cans = s.cans := rfl
@[simp] theorem State.setMsixWord_ptps (i : Nat) (v : W32) : (s.setMsixWord i v).ptps = s.ptps := rfl
@[simp] theorem State.setMsixWord_nvm (i : Nat) (v : W32) : (s.setMsixWord i v).nvm = s.nvm := rfl
@[simp] theorem State.setMsixWord_boot (i : Nat) (v : W32) : (s.setMsixWord i v).boot = s.boot := rfl

@[simp] theorem State.setHead_pending (k : Nat) (x : HeadSt) : (s.setHead k x).pending = s.pending := rfl
@[simp] theorem State.setHead_fresh (k : Nat) (x : HeadSt) : (s.setHead k x).fresh = s.fresh := rfl
@[simp] theorem State.setHead_tx (k : Nat) (x : HeadSt) : (s.setHead k x).tx = s.tx := rfl
@[simp] theorem State.setHead_regs (k : Nat) (x : HeadSt) : (s.setHead k x).regs = s.regs := rfl
@[simp] theorem State.setHead_wide (k : Nat) (x : HeadSt) : (s.setHead k x).wide = s.wide := rfl
@[simp] theorem State.setHead_reqs (k : Nat) (x : HeadSt) : (s.setHead k x).reqs = s.reqs := rfl
@[simp] theorem State.setHead_time (k : Nat) (x : HeadSt) : (s.setHead k x).time = s.time := rfl
@[simp] theorem State.setHead_probe (k : Nat) (x : HeadSt) : (s.setHead k x).probe = s.probe := rfl
@[simp] theorem State.setHead_lanes (k : Nat) (x : HeadSt) : (s.setHead k x).lanes = s.lanes := rfl
@[simp] theorem State.setHead_scheds (k : Nat) (x : HeadSt) : (s.setHead k x).scheds = s.scheds := rfl
@[simp] theorem State.setHead_tdcs (k : Nat) (x : HeadSt) : (s.setHead k x).tdcs = s.tdcs := rfl
@[simp] theorem State.setHead_ces (k : Nat) (x : HeadSt) : (s.setHead k x).ces = s.ces := rfl
@[simp] theorem State.setHead_raman (k : Nat) (x : HeadSt) : (s.setHead k x).raman = s.raman := rfl
@[simp] theorem State.setHead_dram (k : Nat) (x : HeadSt) : (s.setHead k x).dram = s.dram := rfl
@[simp] theorem State.setHead_dramOut (k : Nat) (x : HeadSt) : (s.setHead k x).dramOut = s.dramOut := rfl
@[simp] theorem State.setHead_banks (k : Nat) (x : HeadSt) : (s.setHead k x).banks = s.banks := rfl
@[simp] theorem State.setHead_mcs (k : Nat) (x : HeadSt) : (s.setHead k x).mcs = s.mcs := rfl
@[simp] theorem State.setHead_cores (k : Nat) (x : HeadSt) : (s.setHead k x).cores = s.cores := rfl
@[simp] theorem State.setHead_clusters (k : Nat) (x : HeadSt) : (s.setHead k x).clusters = s.clusters := rfl
@[simp] theorem State.setHead_chains (k : Nat) (x : HeadSt) : (s.setHead k x).chains = s.chains := rfl
@[simp] theorem State.setHead_branches (k : Nat) (x : HeadSt) : (s.setHead k x).branches = s.branches := rfl
@[simp] theorem State.setHead_phis (k : Nat) (x : HeadSt) : (s.setHead k x).phis = s.phis := rfl
@[simp] theorem State.setHead_bands (k : Nat) (x : HeadSt) : (s.setHead k x).bands = s.bands := rfl
@[simp] theorem State.setHead_fuses (k : Nat) (x : HeadSt) : (s.setHead k x).fuses = s.fuses := rfl
@[simp] theorem State.setHead_coils (k : Nat) (x : HeadSt) : (s.setHead k x).coils = s.coils := rfl
@[simp] theorem State.setHead_frames (k : Nat) (x : HeadSt) : (s.setHead k x).frames = s.frames := rfl
@[simp] theorem State.setHead_sram (k : Nat) (x : HeadSt) : (s.setHead k x).sram = s.sram := rfl
@[simp] theorem State.setHead_cmem (k : Nat) (x : HeadSt) : (s.setHead k x).cmem = s.cmem := rfl
@[simp] theorem State.setHead_imem (k : Nat) (x : HeadSt) : (s.setHead k x).imem = s.imem := rfl
@[simp] theorem State.setHead_fabric (k : Nat) (x : HeadSt) : (s.setHead k x).fabric = s.fabric := rfl
@[simp] theorem State.setHead_returning (k : Nat) (x : HeadSt) : (s.setHead k x).returning = s.returning := rfl
@[simp] theorem State.setHead_zones (k : Nat) (x : HeadSt) : (s.setHead k x).zones = s.zones := rfl
@[simp] theorem State.setHead_zoneSts (k : Nat) (x : HeadSt) : (s.setHead k x).zoneSts = s.zoneSts := rfl
@[simp] theorem State.setHead_evq (k : Nat) (x : HeadSt) : (s.setHead k x).evq = s.evq := rfl
@[simp] theorem State.setHead_evLost (k : Nat) (x : HeadSt) : (s.setHead k x).evLost = s.evLost := rfl
@[simp] theorem State.setHead_evSeq (k : Nat) (x : HeadSt) : (s.setHead k x).evSeq = s.evSeq := rfl
@[simp] theorem State.setHead_caps (k : Nat) (x : HeadSt) : (s.setHead k x).caps = s.caps := rfl
@[simp] theorem State.setHead_selfWrites (k : Nat) (x : HeadSt) : (s.setHead k x).selfWrites = s.selfWrites := rfl
@[simp] theorem State.setHead_tpdos (k : Nat) (x : HeadSt) : (s.setHead k x).tpdos = s.tpdos := rfl
@[simp] theorem State.setHead_od (k : Nat) (x : HeadSt) : (s.setHead k x).od = s.od := rfl
@[simp] theorem State.setHead_odBytes (k : Nat) (x : HeadSt) : (s.setHead k x).odBytes = s.odBytes := rfl
@[simp] theorem State.setHead_stalled (k : Nat) (x : HeadSt) : (s.setHead k x).stalled = s.stalled := rfl
@[simp] theorem State.setHead_vecs (k : Nat) (x : HeadSt) : (s.setHead k x).vecs = s.vecs := rfl
@[simp] theorem State.setHead_queues (k : Nat) (x : HeadSt) : (s.setHead k x).queues = s.queues := rfl
@[simp] theorem State.setHead_msix (k : Nat) (x : HeadSt) : (s.setHead k x).msix = s.msix := rfl
@[simp] theorem State.setHead_sessions (k : Nat) (x : HeadSt) : (s.setHead k x).sessions = s.sessions := rfl
@[simp] theorem State.setHead_funcMask (k : Nat) (x : HeadSt) : (s.setHead k x).funcMask = s.funcMask := rfl
@[simp] theorem State.setHead_dmas (k : Nat) (x : HeadSt) : (s.setHead k x).dmas = s.dmas := rfl
@[simp] theorem State.setHead_dmaLast (k : Nat) (x : HeadSt) : (s.setHead k x).dmaLast = s.dmaLast := rfl
@[simp] theorem State.setHead_descs (k : Nat) (x : HeadSt) : (s.setHead k x).descs = s.descs := rfl
@[simp] theorem State.setHead_lamps (k : Nat) (x : HeadSt) : (s.setHead k x).lamps = s.lamps := rfl
@[simp] theorem State.setHead_groups (k : Nat) (x : HeadSt) : (s.setHead k x).groups = s.groups := rfl
@[simp] theorem State.setHead_lampOuts (k : Nat) (x : HeadSt) : (s.setHead k x).lampOuts = s.lampOuts := rfl
@[simp] theorem State.setHead_thAt (k : Nat) (x : HeadSt) : (s.setHead k x).thAt = s.thAt := rfl
@[simp] theorem State.setHead_padc (k : Nat) (x : HeadSt) : (s.setHead k x).padc = s.padc := rfl
@[simp] theorem State.setHead_hadc (k : Nat) (x : HeadSt) : (s.setHead k x).hadc = s.hadc := rfl
@[simp] theorem State.setHead_loopOuts (k : Nat) (x : HeadSt) : (s.setHead k x).loopOuts = s.loopOuts := rfl
@[simp] theorem State.setHead_quince (k : Nat) (x : HeadSt) : (s.setHead k x).quince = s.quince := rfl
@[simp] theorem State.setHead_net (k : Nat) (x : HeadSt) : (s.setHead k x).net = s.net := rfl
@[simp] theorem State.setHead_cans (k : Nat) (x : HeadSt) : (s.setHead k x).cans = s.cans := rfl
@[simp] theorem State.setHead_ptps (k : Nat) (x : HeadSt) : (s.setHead k x).ptps = s.ptps := rfl
@[simp] theorem State.setHead_nvm (k : Nat) (x : HeadSt) : (s.setHead k x).nvm = s.nvm := rfl
@[simp] theorem State.setHead_boot (k : Nat) (x : HeadSt) : (s.setHead k x).boot = s.boot := rfl

@[simp] theorem State.setLane_pending (k : Nat) (x : LaneSt) : (s.setLane k x).pending = s.pending := rfl
@[simp] theorem State.setLane_fresh (k : Nat) (x : LaneSt) : (s.setLane k x).fresh = s.fresh := rfl
@[simp] theorem State.setLane_tx (k : Nat) (x : LaneSt) : (s.setLane k x).tx = s.tx := rfl
@[simp] theorem State.setLane_regs (k : Nat) (x : LaneSt) : (s.setLane k x).regs = s.regs := rfl
@[simp] theorem State.setLane_wide (k : Nat) (x : LaneSt) : (s.setLane k x).wide = s.wide := rfl
@[simp] theorem State.setLane_reqs (k : Nat) (x : LaneSt) : (s.setLane k x).reqs = s.reqs := rfl
@[simp] theorem State.setLane_time (k : Nat) (x : LaneSt) : (s.setLane k x).time = s.time := rfl
@[simp] theorem State.setLane_heads (k : Nat) (x : LaneSt) : (s.setLane k x).heads = s.heads := rfl
@[simp] theorem State.setLane_probe (k : Nat) (x : LaneSt) : (s.setLane k x).probe = s.probe := rfl
@[simp] theorem State.setLane_scheds (k : Nat) (x : LaneSt) : (s.setLane k x).scheds = s.scheds := rfl
@[simp] theorem State.setLane_tdcs (k : Nat) (x : LaneSt) : (s.setLane k x).tdcs = s.tdcs := rfl
@[simp] theorem State.setLane_ces (k : Nat) (x : LaneSt) : (s.setLane k x).ces = s.ces := rfl
@[simp] theorem State.setLane_raman (k : Nat) (x : LaneSt) : (s.setLane k x).raman = s.raman := rfl
@[simp] theorem State.setLane_dram (k : Nat) (x : LaneSt) : (s.setLane k x).dram = s.dram := rfl
@[simp] theorem State.setLane_dramOut (k : Nat) (x : LaneSt) : (s.setLane k x).dramOut = s.dramOut := rfl
@[simp] theorem State.setLane_banks (k : Nat) (x : LaneSt) : (s.setLane k x).banks = s.banks := rfl
@[simp] theorem State.setLane_mcs (k : Nat) (x : LaneSt) : (s.setLane k x).mcs = s.mcs := rfl
@[simp] theorem State.setLane_cores (k : Nat) (x : LaneSt) : (s.setLane k x).cores = s.cores := rfl
@[simp] theorem State.setLane_clusters (k : Nat) (x : LaneSt) : (s.setLane k x).clusters = s.clusters := rfl
@[simp] theorem State.setLane_chains (k : Nat) (x : LaneSt) : (s.setLane k x).chains = s.chains := rfl
@[simp] theorem State.setLane_branches (k : Nat) (x : LaneSt) : (s.setLane k x).branches = s.branches := rfl
@[simp] theorem State.setLane_phis (k : Nat) (x : LaneSt) : (s.setLane k x).phis = s.phis := rfl
@[simp] theorem State.setLane_bands (k : Nat) (x : LaneSt) : (s.setLane k x).bands = s.bands := rfl
@[simp] theorem State.setLane_fuses (k : Nat) (x : LaneSt) : (s.setLane k x).fuses = s.fuses := rfl
@[simp] theorem State.setLane_coils (k : Nat) (x : LaneSt) : (s.setLane k x).coils = s.coils := rfl
@[simp] theorem State.setLane_frames (k : Nat) (x : LaneSt) : (s.setLane k x).frames = s.frames := rfl
@[simp] theorem State.setLane_sram (k : Nat) (x : LaneSt) : (s.setLane k x).sram = s.sram := rfl
@[simp] theorem State.setLane_cmem (k : Nat) (x : LaneSt) : (s.setLane k x).cmem = s.cmem := rfl
@[simp] theorem State.setLane_imem (k : Nat) (x : LaneSt) : (s.setLane k x).imem = s.imem := rfl
@[simp] theorem State.setLane_fabric (k : Nat) (x : LaneSt) : (s.setLane k x).fabric = s.fabric := rfl
@[simp] theorem State.setLane_returning (k : Nat) (x : LaneSt) : (s.setLane k x).returning = s.returning := rfl
@[simp] theorem State.setLane_zones (k : Nat) (x : LaneSt) : (s.setLane k x).zones = s.zones := rfl
@[simp] theorem State.setLane_zoneSts (k : Nat) (x : LaneSt) : (s.setLane k x).zoneSts = s.zoneSts := rfl
@[simp] theorem State.setLane_evq (k : Nat) (x : LaneSt) : (s.setLane k x).evq = s.evq := rfl
@[simp] theorem State.setLane_evLost (k : Nat) (x : LaneSt) : (s.setLane k x).evLost = s.evLost := rfl
@[simp] theorem State.setLane_evSeq (k : Nat) (x : LaneSt) : (s.setLane k x).evSeq = s.evSeq := rfl
@[simp] theorem State.setLane_caps (k : Nat) (x : LaneSt) : (s.setLane k x).caps = s.caps := rfl
@[simp] theorem State.setLane_selfWrites (k : Nat) (x : LaneSt) : (s.setLane k x).selfWrites = s.selfWrites := rfl
@[simp] theorem State.setLane_tpdos (k : Nat) (x : LaneSt) : (s.setLane k x).tpdos = s.tpdos := rfl
@[simp] theorem State.setLane_od (k : Nat) (x : LaneSt) : (s.setLane k x).od = s.od := rfl
@[simp] theorem State.setLane_odBytes (k : Nat) (x : LaneSt) : (s.setLane k x).odBytes = s.odBytes := rfl
@[simp] theorem State.setLane_stalled (k : Nat) (x : LaneSt) : (s.setLane k x).stalled = s.stalled := rfl
@[simp] theorem State.setLane_vecs (k : Nat) (x : LaneSt) : (s.setLane k x).vecs = s.vecs := rfl
@[simp] theorem State.setLane_queues (k : Nat) (x : LaneSt) : (s.setLane k x).queues = s.queues := rfl
@[simp] theorem State.setLane_msix (k : Nat) (x : LaneSt) : (s.setLane k x).msix = s.msix := rfl
@[simp] theorem State.setLane_sessions (k : Nat) (x : LaneSt) : (s.setLane k x).sessions = s.sessions := rfl
@[simp] theorem State.setLane_funcMask (k : Nat) (x : LaneSt) : (s.setLane k x).funcMask = s.funcMask := rfl
@[simp] theorem State.setLane_dmas (k : Nat) (x : LaneSt) : (s.setLane k x).dmas = s.dmas := rfl
@[simp] theorem State.setLane_dmaLast (k : Nat) (x : LaneSt) : (s.setLane k x).dmaLast = s.dmaLast := rfl
@[simp] theorem State.setLane_descs (k : Nat) (x : LaneSt) : (s.setLane k x).descs = s.descs := rfl
@[simp] theorem State.setLane_lamps (k : Nat) (x : LaneSt) : (s.setLane k x).lamps = s.lamps := rfl
@[simp] theorem State.setLane_groups (k : Nat) (x : LaneSt) : (s.setLane k x).groups = s.groups := rfl
@[simp] theorem State.setLane_lampOuts (k : Nat) (x : LaneSt) : (s.setLane k x).lampOuts = s.lampOuts := rfl
@[simp] theorem State.setLane_thAt (k : Nat) (x : LaneSt) : (s.setLane k x).thAt = s.thAt := rfl
@[simp] theorem State.setLane_padc (k : Nat) (x : LaneSt) : (s.setLane k x).padc = s.padc := rfl
@[simp] theorem State.setLane_hadc (k : Nat) (x : LaneSt) : (s.setLane k x).hadc = s.hadc := rfl
@[simp] theorem State.setLane_loopOuts (k : Nat) (x : LaneSt) : (s.setLane k x).loopOuts = s.loopOuts := rfl
@[simp] theorem State.setLane_quince (k : Nat) (x : LaneSt) : (s.setLane k x).quince = s.quince := rfl
@[simp] theorem State.setLane_net (k : Nat) (x : LaneSt) : (s.setLane k x).net = s.net := rfl
@[simp] theorem State.setLane_cans (k : Nat) (x : LaneSt) : (s.setLane k x).cans = s.cans := rfl
@[simp] theorem State.setLane_ptps (k : Nat) (x : LaneSt) : (s.setLane k x).ptps = s.ptps := rfl
@[simp] theorem State.setLane_nvm (k : Nat) (x : LaneSt) : (s.setLane k x).nvm = s.nvm := rfl
@[simp] theorem State.setLane_boot (k : Nat) (x : LaneSt) : (s.setLane k x).boot = s.boot := rfl

@[simp] theorem State.setSched_pending (k : Nat) (x : SchedSt) : (s.setSched k x).pending = s.pending := rfl
@[simp] theorem State.setSched_fresh (k : Nat) (x : SchedSt) : (s.setSched k x).fresh = s.fresh := rfl
@[simp] theorem State.setSched_tx (k : Nat) (x : SchedSt) : (s.setSched k x).tx = s.tx := rfl
@[simp] theorem State.setSched_regs (k : Nat) (x : SchedSt) : (s.setSched k x).regs = s.regs := rfl
@[simp] theorem State.setSched_wide (k : Nat) (x : SchedSt) : (s.setSched k x).wide = s.wide := rfl
@[simp] theorem State.setSched_reqs (k : Nat) (x : SchedSt) : (s.setSched k x).reqs = s.reqs := rfl
@[simp] theorem State.setSched_time (k : Nat) (x : SchedSt) : (s.setSched k x).time = s.time := rfl
@[simp] theorem State.setSched_heads (k : Nat) (x : SchedSt) : (s.setSched k x).heads = s.heads := rfl
@[simp] theorem State.setSched_probe (k : Nat) (x : SchedSt) : (s.setSched k x).probe = s.probe := rfl
@[simp] theorem State.setSched_lanes (k : Nat) (x : SchedSt) : (s.setSched k x).lanes = s.lanes := rfl
@[simp] theorem State.setSched_tdcs (k : Nat) (x : SchedSt) : (s.setSched k x).tdcs = s.tdcs := rfl
@[simp] theorem State.setSched_ces (k : Nat) (x : SchedSt) : (s.setSched k x).ces = s.ces := rfl
@[simp] theorem State.setSched_raman (k : Nat) (x : SchedSt) : (s.setSched k x).raman = s.raman := rfl
@[simp] theorem State.setSched_dram (k : Nat) (x : SchedSt) : (s.setSched k x).dram = s.dram := rfl
@[simp] theorem State.setSched_dramOut (k : Nat) (x : SchedSt) : (s.setSched k x).dramOut = s.dramOut := rfl
@[simp] theorem State.setSched_banks (k : Nat) (x : SchedSt) : (s.setSched k x).banks = s.banks := rfl
@[simp] theorem State.setSched_mcs (k : Nat) (x : SchedSt) : (s.setSched k x).mcs = s.mcs := rfl
@[simp] theorem State.setSched_cores (k : Nat) (x : SchedSt) : (s.setSched k x).cores = s.cores := rfl
@[simp] theorem State.setSched_clusters (k : Nat) (x : SchedSt) : (s.setSched k x).clusters = s.clusters := rfl
@[simp] theorem State.setSched_chains (k : Nat) (x : SchedSt) : (s.setSched k x).chains = s.chains := rfl
@[simp] theorem State.setSched_branches (k : Nat) (x : SchedSt) : (s.setSched k x).branches = s.branches := rfl
@[simp] theorem State.setSched_phis (k : Nat) (x : SchedSt) : (s.setSched k x).phis = s.phis := rfl
@[simp] theorem State.setSched_bands (k : Nat) (x : SchedSt) : (s.setSched k x).bands = s.bands := rfl
@[simp] theorem State.setSched_fuses (k : Nat) (x : SchedSt) : (s.setSched k x).fuses = s.fuses := rfl
@[simp] theorem State.setSched_coils (k : Nat) (x : SchedSt) : (s.setSched k x).coils = s.coils := rfl
@[simp] theorem State.setSched_frames (k : Nat) (x : SchedSt) : (s.setSched k x).frames = s.frames := rfl
@[simp] theorem State.setSched_sram (k : Nat) (x : SchedSt) : (s.setSched k x).sram = s.sram := rfl
@[simp] theorem State.setSched_cmem (k : Nat) (x : SchedSt) : (s.setSched k x).cmem = s.cmem := rfl
@[simp] theorem State.setSched_imem (k : Nat) (x : SchedSt) : (s.setSched k x).imem = s.imem := rfl
@[simp] theorem State.setSched_fabric (k : Nat) (x : SchedSt) : (s.setSched k x).fabric = s.fabric := rfl
@[simp] theorem State.setSched_returning (k : Nat) (x : SchedSt) : (s.setSched k x).returning = s.returning := rfl
@[simp] theorem State.setSched_zones (k : Nat) (x : SchedSt) : (s.setSched k x).zones = s.zones := rfl
@[simp] theorem State.setSched_zoneSts (k : Nat) (x : SchedSt) : (s.setSched k x).zoneSts = s.zoneSts := rfl
@[simp] theorem State.setSched_evq (k : Nat) (x : SchedSt) : (s.setSched k x).evq = s.evq := rfl
@[simp] theorem State.setSched_evLost (k : Nat) (x : SchedSt) : (s.setSched k x).evLost = s.evLost := rfl
@[simp] theorem State.setSched_evSeq (k : Nat) (x : SchedSt) : (s.setSched k x).evSeq = s.evSeq := rfl
@[simp] theorem State.setSched_caps (k : Nat) (x : SchedSt) : (s.setSched k x).caps = s.caps := rfl
@[simp] theorem State.setSched_selfWrites (k : Nat) (x : SchedSt) : (s.setSched k x).selfWrites = s.selfWrites := rfl
@[simp] theorem State.setSched_tpdos (k : Nat) (x : SchedSt) : (s.setSched k x).tpdos = s.tpdos := rfl
@[simp] theorem State.setSched_od (k : Nat) (x : SchedSt) : (s.setSched k x).od = s.od := rfl
@[simp] theorem State.setSched_odBytes (k : Nat) (x : SchedSt) : (s.setSched k x).odBytes = s.odBytes := rfl
@[simp] theorem State.setSched_stalled (k : Nat) (x : SchedSt) : (s.setSched k x).stalled = s.stalled := rfl
@[simp] theorem State.setSched_vecs (k : Nat) (x : SchedSt) : (s.setSched k x).vecs = s.vecs := rfl
@[simp] theorem State.setSched_queues (k : Nat) (x : SchedSt) : (s.setSched k x).queues = s.queues := rfl
@[simp] theorem State.setSched_msix (k : Nat) (x : SchedSt) : (s.setSched k x).msix = s.msix := rfl
@[simp] theorem State.setSched_sessions (k : Nat) (x : SchedSt) : (s.setSched k x).sessions = s.sessions := rfl
@[simp] theorem State.setSched_funcMask (k : Nat) (x : SchedSt) : (s.setSched k x).funcMask = s.funcMask := rfl
@[simp] theorem State.setSched_dmas (k : Nat) (x : SchedSt) : (s.setSched k x).dmas = s.dmas := rfl
@[simp] theorem State.setSched_dmaLast (k : Nat) (x : SchedSt) : (s.setSched k x).dmaLast = s.dmaLast := rfl
@[simp] theorem State.setSched_descs (k : Nat) (x : SchedSt) : (s.setSched k x).descs = s.descs := rfl
@[simp] theorem State.setSched_lamps (k : Nat) (x : SchedSt) : (s.setSched k x).lamps = s.lamps := rfl
@[simp] theorem State.setSched_groups (k : Nat) (x : SchedSt) : (s.setSched k x).groups = s.groups := rfl
@[simp] theorem State.setSched_lampOuts (k : Nat) (x : SchedSt) : (s.setSched k x).lampOuts = s.lampOuts := rfl
@[simp] theorem State.setSched_thAt (k : Nat) (x : SchedSt) : (s.setSched k x).thAt = s.thAt := rfl
@[simp] theorem State.setSched_padc (k : Nat) (x : SchedSt) : (s.setSched k x).padc = s.padc := rfl
@[simp] theorem State.setSched_hadc (k : Nat) (x : SchedSt) : (s.setSched k x).hadc = s.hadc := rfl
@[simp] theorem State.setSched_loopOuts (k : Nat) (x : SchedSt) : (s.setSched k x).loopOuts = s.loopOuts := rfl
@[simp] theorem State.setSched_quince (k : Nat) (x : SchedSt) : (s.setSched k x).quince = s.quince := rfl
@[simp] theorem State.setSched_net (k : Nat) (x : SchedSt) : (s.setSched k x).net = s.net := rfl
@[simp] theorem State.setSched_cans (k : Nat) (x : SchedSt) : (s.setSched k x).cans = s.cans := rfl
@[simp] theorem State.setSched_ptps (k : Nat) (x : SchedSt) : (s.setSched k x).ptps = s.ptps := rfl
@[simp] theorem State.setSched_nvm (k : Nat) (x : SchedSt) : (s.setSched k x).nvm = s.nvm := rfl
@[simp] theorem State.setSched_boot (k : Nat) (x : SchedSt) : (s.setSched k x).boot = s.boot := rfl

@[simp] theorem State.setTdc_pending (k : Nat) (x : TdcSt) : (s.setTdc k x).pending = s.pending := rfl
@[simp] theorem State.setTdc_fresh (k : Nat) (x : TdcSt) : (s.setTdc k x).fresh = s.fresh := rfl
@[simp] theorem State.setTdc_tx (k : Nat) (x : TdcSt) : (s.setTdc k x).tx = s.tx := rfl
@[simp] theorem State.setTdc_regs (k : Nat) (x : TdcSt) : (s.setTdc k x).regs = s.regs := rfl
@[simp] theorem State.setTdc_wide (k : Nat) (x : TdcSt) : (s.setTdc k x).wide = s.wide := rfl
@[simp] theorem State.setTdc_reqs (k : Nat) (x : TdcSt) : (s.setTdc k x).reqs = s.reqs := rfl
@[simp] theorem State.setTdc_time (k : Nat) (x : TdcSt) : (s.setTdc k x).time = s.time := rfl
@[simp] theorem State.setTdc_heads (k : Nat) (x : TdcSt) : (s.setTdc k x).heads = s.heads := rfl
@[simp] theorem State.setTdc_probe (k : Nat) (x : TdcSt) : (s.setTdc k x).probe = s.probe := rfl
@[simp] theorem State.setTdc_lanes (k : Nat) (x : TdcSt) : (s.setTdc k x).lanes = s.lanes := rfl
@[simp] theorem State.setTdc_scheds (k : Nat) (x : TdcSt) : (s.setTdc k x).scheds = s.scheds := rfl
@[simp] theorem State.setTdc_ces (k : Nat) (x : TdcSt) : (s.setTdc k x).ces = s.ces := rfl
@[simp] theorem State.setTdc_raman (k : Nat) (x : TdcSt) : (s.setTdc k x).raman = s.raman := rfl
@[simp] theorem State.setTdc_dram (k : Nat) (x : TdcSt) : (s.setTdc k x).dram = s.dram := rfl
@[simp] theorem State.setTdc_dramOut (k : Nat) (x : TdcSt) : (s.setTdc k x).dramOut = s.dramOut := rfl
@[simp] theorem State.setTdc_banks (k : Nat) (x : TdcSt) : (s.setTdc k x).banks = s.banks := rfl
@[simp] theorem State.setTdc_mcs (k : Nat) (x : TdcSt) : (s.setTdc k x).mcs = s.mcs := rfl
@[simp] theorem State.setTdc_cores (k : Nat) (x : TdcSt) : (s.setTdc k x).cores = s.cores := rfl
@[simp] theorem State.setTdc_clusters (k : Nat) (x : TdcSt) : (s.setTdc k x).clusters = s.clusters := rfl
@[simp] theorem State.setTdc_chains (k : Nat) (x : TdcSt) : (s.setTdc k x).chains = s.chains := rfl
@[simp] theorem State.setTdc_branches (k : Nat) (x : TdcSt) : (s.setTdc k x).branches = s.branches := rfl
@[simp] theorem State.setTdc_phis (k : Nat) (x : TdcSt) : (s.setTdc k x).phis = s.phis := rfl
@[simp] theorem State.setTdc_bands (k : Nat) (x : TdcSt) : (s.setTdc k x).bands = s.bands := rfl
@[simp] theorem State.setTdc_fuses (k : Nat) (x : TdcSt) : (s.setTdc k x).fuses = s.fuses := rfl
@[simp] theorem State.setTdc_coils (k : Nat) (x : TdcSt) : (s.setTdc k x).coils = s.coils := rfl
@[simp] theorem State.setTdc_frames (k : Nat) (x : TdcSt) : (s.setTdc k x).frames = s.frames := rfl
@[simp] theorem State.setTdc_sram (k : Nat) (x : TdcSt) : (s.setTdc k x).sram = s.sram := rfl
@[simp] theorem State.setTdc_cmem (k : Nat) (x : TdcSt) : (s.setTdc k x).cmem = s.cmem := rfl
@[simp] theorem State.setTdc_imem (k : Nat) (x : TdcSt) : (s.setTdc k x).imem = s.imem := rfl
@[simp] theorem State.setTdc_fabric (k : Nat) (x : TdcSt) : (s.setTdc k x).fabric = s.fabric := rfl
@[simp] theorem State.setTdc_returning (k : Nat) (x : TdcSt) : (s.setTdc k x).returning = s.returning := rfl
@[simp] theorem State.setTdc_zones (k : Nat) (x : TdcSt) : (s.setTdc k x).zones = s.zones := rfl
@[simp] theorem State.setTdc_zoneSts (k : Nat) (x : TdcSt) : (s.setTdc k x).zoneSts = s.zoneSts := rfl
@[simp] theorem State.setTdc_evq (k : Nat) (x : TdcSt) : (s.setTdc k x).evq = s.evq := rfl
@[simp] theorem State.setTdc_evLost (k : Nat) (x : TdcSt) : (s.setTdc k x).evLost = s.evLost := rfl
@[simp] theorem State.setTdc_evSeq (k : Nat) (x : TdcSt) : (s.setTdc k x).evSeq = s.evSeq := rfl
@[simp] theorem State.setTdc_caps (k : Nat) (x : TdcSt) : (s.setTdc k x).caps = s.caps := rfl
@[simp] theorem State.setTdc_selfWrites (k : Nat) (x : TdcSt) : (s.setTdc k x).selfWrites = s.selfWrites := rfl
@[simp] theorem State.setTdc_tpdos (k : Nat) (x : TdcSt) : (s.setTdc k x).tpdos = s.tpdos := rfl
@[simp] theorem State.setTdc_od (k : Nat) (x : TdcSt) : (s.setTdc k x).od = s.od := rfl
@[simp] theorem State.setTdc_odBytes (k : Nat) (x : TdcSt) : (s.setTdc k x).odBytes = s.odBytes := rfl
@[simp] theorem State.setTdc_stalled (k : Nat) (x : TdcSt) : (s.setTdc k x).stalled = s.stalled := rfl
@[simp] theorem State.setTdc_vecs (k : Nat) (x : TdcSt) : (s.setTdc k x).vecs = s.vecs := rfl
@[simp] theorem State.setTdc_queues (k : Nat) (x : TdcSt) : (s.setTdc k x).queues = s.queues := rfl
@[simp] theorem State.setTdc_msix (k : Nat) (x : TdcSt) : (s.setTdc k x).msix = s.msix := rfl
@[simp] theorem State.setTdc_sessions (k : Nat) (x : TdcSt) : (s.setTdc k x).sessions = s.sessions := rfl
@[simp] theorem State.setTdc_funcMask (k : Nat) (x : TdcSt) : (s.setTdc k x).funcMask = s.funcMask := rfl
@[simp] theorem State.setTdc_dmas (k : Nat) (x : TdcSt) : (s.setTdc k x).dmas = s.dmas := rfl
@[simp] theorem State.setTdc_dmaLast (k : Nat) (x : TdcSt) : (s.setTdc k x).dmaLast = s.dmaLast := rfl
@[simp] theorem State.setTdc_descs (k : Nat) (x : TdcSt) : (s.setTdc k x).descs = s.descs := rfl
@[simp] theorem State.setTdc_lamps (k : Nat) (x : TdcSt) : (s.setTdc k x).lamps = s.lamps := rfl
@[simp] theorem State.setTdc_groups (k : Nat) (x : TdcSt) : (s.setTdc k x).groups = s.groups := rfl
@[simp] theorem State.setTdc_lampOuts (k : Nat) (x : TdcSt) : (s.setTdc k x).lampOuts = s.lampOuts := rfl
@[simp] theorem State.setTdc_thAt (k : Nat) (x : TdcSt) : (s.setTdc k x).thAt = s.thAt := rfl
@[simp] theorem State.setTdc_padc (k : Nat) (x : TdcSt) : (s.setTdc k x).padc = s.padc := rfl
@[simp] theorem State.setTdc_hadc (k : Nat) (x : TdcSt) : (s.setTdc k x).hadc = s.hadc := rfl
@[simp] theorem State.setTdc_loopOuts (k : Nat) (x : TdcSt) : (s.setTdc k x).loopOuts = s.loopOuts := rfl
@[simp] theorem State.setTdc_quince (k : Nat) (x : TdcSt) : (s.setTdc k x).quince = s.quince := rfl
@[simp] theorem State.setTdc_net (k : Nat) (x : TdcSt) : (s.setTdc k x).net = s.net := rfl
@[simp] theorem State.setTdc_cans (k : Nat) (x : TdcSt) : (s.setTdc k x).cans = s.cans := rfl
@[simp] theorem State.setTdc_ptps (k : Nat) (x : TdcSt) : (s.setTdc k x).ptps = s.ptps := rfl
@[simp] theorem State.setTdc_nvm (k : Nat) (x : TdcSt) : (s.setTdc k x).nvm = s.nvm := rfl
@[simp] theorem State.setTdc_boot (k : Nat) (x : TdcSt) : (s.setTdc k x).boot = s.boot := rfl

@[simp] theorem State.setCe_pending (k : Nat) (x : CeSt) : (s.setCe k x).pending = s.pending := rfl
@[simp] theorem State.setCe_fresh (k : Nat) (x : CeSt) : (s.setCe k x).fresh = s.fresh := rfl
@[simp] theorem State.setCe_tx (k : Nat) (x : CeSt) : (s.setCe k x).tx = s.tx := rfl
@[simp] theorem State.setCe_regs (k : Nat) (x : CeSt) : (s.setCe k x).regs = s.regs := rfl
@[simp] theorem State.setCe_wide (k : Nat) (x : CeSt) : (s.setCe k x).wide = s.wide := rfl
@[simp] theorem State.setCe_reqs (k : Nat) (x : CeSt) : (s.setCe k x).reqs = s.reqs := rfl
@[simp] theorem State.setCe_time (k : Nat) (x : CeSt) : (s.setCe k x).time = s.time := rfl
@[simp] theorem State.setCe_heads (k : Nat) (x : CeSt) : (s.setCe k x).heads = s.heads := rfl
@[simp] theorem State.setCe_probe (k : Nat) (x : CeSt) : (s.setCe k x).probe = s.probe := rfl
@[simp] theorem State.setCe_lanes (k : Nat) (x : CeSt) : (s.setCe k x).lanes = s.lanes := rfl
@[simp] theorem State.setCe_scheds (k : Nat) (x : CeSt) : (s.setCe k x).scheds = s.scheds := rfl
@[simp] theorem State.setCe_tdcs (k : Nat) (x : CeSt) : (s.setCe k x).tdcs = s.tdcs := rfl
@[simp] theorem State.setCe_raman (k : Nat) (x : CeSt) : (s.setCe k x).raman = s.raman := rfl
@[simp] theorem State.setCe_dram (k : Nat) (x : CeSt) : (s.setCe k x).dram = s.dram := rfl
@[simp] theorem State.setCe_dramOut (k : Nat) (x : CeSt) : (s.setCe k x).dramOut = s.dramOut := rfl
@[simp] theorem State.setCe_banks (k : Nat) (x : CeSt) : (s.setCe k x).banks = s.banks := rfl
@[simp] theorem State.setCe_mcs (k : Nat) (x : CeSt) : (s.setCe k x).mcs = s.mcs := rfl
@[simp] theorem State.setCe_cores (k : Nat) (x : CeSt) : (s.setCe k x).cores = s.cores := rfl
@[simp] theorem State.setCe_clusters (k : Nat) (x : CeSt) : (s.setCe k x).clusters = s.clusters := rfl
@[simp] theorem State.setCe_chains (k : Nat) (x : CeSt) : (s.setCe k x).chains = s.chains := rfl
@[simp] theorem State.setCe_branches (k : Nat) (x : CeSt) : (s.setCe k x).branches = s.branches := rfl
@[simp] theorem State.setCe_phis (k : Nat) (x : CeSt) : (s.setCe k x).phis = s.phis := rfl
@[simp] theorem State.setCe_bands (k : Nat) (x : CeSt) : (s.setCe k x).bands = s.bands := rfl
@[simp] theorem State.setCe_fuses (k : Nat) (x : CeSt) : (s.setCe k x).fuses = s.fuses := rfl
@[simp] theorem State.setCe_coils (k : Nat) (x : CeSt) : (s.setCe k x).coils = s.coils := rfl
@[simp] theorem State.setCe_frames (k : Nat) (x : CeSt) : (s.setCe k x).frames = s.frames := rfl
@[simp] theorem State.setCe_sram (k : Nat) (x : CeSt) : (s.setCe k x).sram = s.sram := rfl
@[simp] theorem State.setCe_cmem (k : Nat) (x : CeSt) : (s.setCe k x).cmem = s.cmem := rfl
@[simp] theorem State.setCe_imem (k : Nat) (x : CeSt) : (s.setCe k x).imem = s.imem := rfl
@[simp] theorem State.setCe_fabric (k : Nat) (x : CeSt) : (s.setCe k x).fabric = s.fabric := rfl
@[simp] theorem State.setCe_returning (k : Nat) (x : CeSt) : (s.setCe k x).returning = s.returning := rfl
@[simp] theorem State.setCe_zones (k : Nat) (x : CeSt) : (s.setCe k x).zones = s.zones := rfl
@[simp] theorem State.setCe_zoneSts (k : Nat) (x : CeSt) : (s.setCe k x).zoneSts = s.zoneSts := rfl
@[simp] theorem State.setCe_evq (k : Nat) (x : CeSt) : (s.setCe k x).evq = s.evq := rfl
@[simp] theorem State.setCe_evLost (k : Nat) (x : CeSt) : (s.setCe k x).evLost = s.evLost := rfl
@[simp] theorem State.setCe_evSeq (k : Nat) (x : CeSt) : (s.setCe k x).evSeq = s.evSeq := rfl
@[simp] theorem State.setCe_caps (k : Nat) (x : CeSt) : (s.setCe k x).caps = s.caps := rfl
@[simp] theorem State.setCe_selfWrites (k : Nat) (x : CeSt) : (s.setCe k x).selfWrites = s.selfWrites := rfl
@[simp] theorem State.setCe_tpdos (k : Nat) (x : CeSt) : (s.setCe k x).tpdos = s.tpdos := rfl
@[simp] theorem State.setCe_od (k : Nat) (x : CeSt) : (s.setCe k x).od = s.od := rfl
@[simp] theorem State.setCe_odBytes (k : Nat) (x : CeSt) : (s.setCe k x).odBytes = s.odBytes := rfl
@[simp] theorem State.setCe_stalled (k : Nat) (x : CeSt) : (s.setCe k x).stalled = s.stalled := rfl
@[simp] theorem State.setCe_vecs (k : Nat) (x : CeSt) : (s.setCe k x).vecs = s.vecs := rfl
@[simp] theorem State.setCe_queues (k : Nat) (x : CeSt) : (s.setCe k x).queues = s.queues := rfl
@[simp] theorem State.setCe_msix (k : Nat) (x : CeSt) : (s.setCe k x).msix = s.msix := rfl
@[simp] theorem State.setCe_sessions (k : Nat) (x : CeSt) : (s.setCe k x).sessions = s.sessions := rfl
@[simp] theorem State.setCe_funcMask (k : Nat) (x : CeSt) : (s.setCe k x).funcMask = s.funcMask := rfl
@[simp] theorem State.setCe_dmas (k : Nat) (x : CeSt) : (s.setCe k x).dmas = s.dmas := rfl
@[simp] theorem State.setCe_dmaLast (k : Nat) (x : CeSt) : (s.setCe k x).dmaLast = s.dmaLast := rfl
@[simp] theorem State.setCe_descs (k : Nat) (x : CeSt) : (s.setCe k x).descs = s.descs := rfl
@[simp] theorem State.setCe_lamps (k : Nat) (x : CeSt) : (s.setCe k x).lamps = s.lamps := rfl
@[simp] theorem State.setCe_groups (k : Nat) (x : CeSt) : (s.setCe k x).groups = s.groups := rfl
@[simp] theorem State.setCe_lampOuts (k : Nat) (x : CeSt) : (s.setCe k x).lampOuts = s.lampOuts := rfl
@[simp] theorem State.setCe_thAt (k : Nat) (x : CeSt) : (s.setCe k x).thAt = s.thAt := rfl
@[simp] theorem State.setCe_padc (k : Nat) (x : CeSt) : (s.setCe k x).padc = s.padc := rfl
@[simp] theorem State.setCe_hadc (k : Nat) (x : CeSt) : (s.setCe k x).hadc = s.hadc := rfl
@[simp] theorem State.setCe_loopOuts (k : Nat) (x : CeSt) : (s.setCe k x).loopOuts = s.loopOuts := rfl
@[simp] theorem State.setCe_quince (k : Nat) (x : CeSt) : (s.setCe k x).quince = s.quince := rfl
@[simp] theorem State.setCe_net (k : Nat) (x : CeSt) : (s.setCe k x).net = s.net := rfl
@[simp] theorem State.setCe_cans (k : Nat) (x : CeSt) : (s.setCe k x).cans = s.cans := rfl
@[simp] theorem State.setCe_ptps (k : Nat) (x : CeSt) : (s.setCe k x).ptps = s.ptps := rfl
@[simp] theorem State.setCe_nvm (k : Nat) (x : CeSt) : (s.setCe k x).nvm = s.nvm := rfl
@[simp] theorem State.setCe_boot (k : Nat) (x : CeSt) : (s.setCe k x).boot = s.boot := rfl

@[simp] theorem State.setMc_pending (k : Nat) (x : McSt) : (s.setMc k x).pending = s.pending := rfl
@[simp] theorem State.setMc_fresh (k : Nat) (x : McSt) : (s.setMc k x).fresh = s.fresh := rfl
@[simp] theorem State.setMc_tx (k : Nat) (x : McSt) : (s.setMc k x).tx = s.tx := rfl
@[simp] theorem State.setMc_regs (k : Nat) (x : McSt) : (s.setMc k x).regs = s.regs := rfl
@[simp] theorem State.setMc_wide (k : Nat) (x : McSt) : (s.setMc k x).wide = s.wide := rfl
@[simp] theorem State.setMc_reqs (k : Nat) (x : McSt) : (s.setMc k x).reqs = s.reqs := rfl
@[simp] theorem State.setMc_time (k : Nat) (x : McSt) : (s.setMc k x).time = s.time := rfl
@[simp] theorem State.setMc_heads (k : Nat) (x : McSt) : (s.setMc k x).heads = s.heads := rfl
@[simp] theorem State.setMc_probe (k : Nat) (x : McSt) : (s.setMc k x).probe = s.probe := rfl
@[simp] theorem State.setMc_lanes (k : Nat) (x : McSt) : (s.setMc k x).lanes = s.lanes := rfl
@[simp] theorem State.setMc_scheds (k : Nat) (x : McSt) : (s.setMc k x).scheds = s.scheds := rfl
@[simp] theorem State.setMc_tdcs (k : Nat) (x : McSt) : (s.setMc k x).tdcs = s.tdcs := rfl
@[simp] theorem State.setMc_ces (k : Nat) (x : McSt) : (s.setMc k x).ces = s.ces := rfl
@[simp] theorem State.setMc_raman (k : Nat) (x : McSt) : (s.setMc k x).raman = s.raman := rfl
@[simp] theorem State.setMc_dram (k : Nat) (x : McSt) : (s.setMc k x).dram = s.dram := rfl
@[simp] theorem State.setMc_dramOut (k : Nat) (x : McSt) : (s.setMc k x).dramOut = s.dramOut := rfl
@[simp] theorem State.setMc_banks (k : Nat) (x : McSt) : (s.setMc k x).banks = s.banks := rfl
@[simp] theorem State.setMc_cores (k : Nat) (x : McSt) : (s.setMc k x).cores = s.cores := rfl
@[simp] theorem State.setMc_clusters (k : Nat) (x : McSt) : (s.setMc k x).clusters = s.clusters := rfl
@[simp] theorem State.setMc_chains (k : Nat) (x : McSt) : (s.setMc k x).chains = s.chains := rfl
@[simp] theorem State.setMc_branches (k : Nat) (x : McSt) : (s.setMc k x).branches = s.branches := rfl
@[simp] theorem State.setMc_phis (k : Nat) (x : McSt) : (s.setMc k x).phis = s.phis := rfl
@[simp] theorem State.setMc_bands (k : Nat) (x : McSt) : (s.setMc k x).bands = s.bands := rfl
@[simp] theorem State.setMc_fuses (k : Nat) (x : McSt) : (s.setMc k x).fuses = s.fuses := rfl
@[simp] theorem State.setMc_coils (k : Nat) (x : McSt) : (s.setMc k x).coils = s.coils := rfl
@[simp] theorem State.setMc_frames (k : Nat) (x : McSt) : (s.setMc k x).frames = s.frames := rfl
@[simp] theorem State.setMc_sram (k : Nat) (x : McSt) : (s.setMc k x).sram = s.sram := rfl
@[simp] theorem State.setMc_cmem (k : Nat) (x : McSt) : (s.setMc k x).cmem = s.cmem := rfl
@[simp] theorem State.setMc_imem (k : Nat) (x : McSt) : (s.setMc k x).imem = s.imem := rfl
@[simp] theorem State.setMc_fabric (k : Nat) (x : McSt) : (s.setMc k x).fabric = s.fabric := rfl
@[simp] theorem State.setMc_returning (k : Nat) (x : McSt) : (s.setMc k x).returning = s.returning := rfl
@[simp] theorem State.setMc_zones (k : Nat) (x : McSt) : (s.setMc k x).zones = s.zones := rfl
@[simp] theorem State.setMc_zoneSts (k : Nat) (x : McSt) : (s.setMc k x).zoneSts = s.zoneSts := rfl
@[simp] theorem State.setMc_evq (k : Nat) (x : McSt) : (s.setMc k x).evq = s.evq := rfl
@[simp] theorem State.setMc_evLost (k : Nat) (x : McSt) : (s.setMc k x).evLost = s.evLost := rfl
@[simp] theorem State.setMc_evSeq (k : Nat) (x : McSt) : (s.setMc k x).evSeq = s.evSeq := rfl
@[simp] theorem State.setMc_caps (k : Nat) (x : McSt) : (s.setMc k x).caps = s.caps := rfl
@[simp] theorem State.setMc_selfWrites (k : Nat) (x : McSt) : (s.setMc k x).selfWrites = s.selfWrites := rfl
@[simp] theorem State.setMc_tpdos (k : Nat) (x : McSt) : (s.setMc k x).tpdos = s.tpdos := rfl
@[simp] theorem State.setMc_od (k : Nat) (x : McSt) : (s.setMc k x).od = s.od := rfl
@[simp] theorem State.setMc_odBytes (k : Nat) (x : McSt) : (s.setMc k x).odBytes = s.odBytes := rfl
@[simp] theorem State.setMc_stalled (k : Nat) (x : McSt) : (s.setMc k x).stalled = s.stalled := rfl
@[simp] theorem State.setMc_vecs (k : Nat) (x : McSt) : (s.setMc k x).vecs = s.vecs := rfl
@[simp] theorem State.setMc_queues (k : Nat) (x : McSt) : (s.setMc k x).queues = s.queues := rfl
@[simp] theorem State.setMc_msix (k : Nat) (x : McSt) : (s.setMc k x).msix = s.msix := rfl
@[simp] theorem State.setMc_sessions (k : Nat) (x : McSt) : (s.setMc k x).sessions = s.sessions := rfl
@[simp] theorem State.setMc_funcMask (k : Nat) (x : McSt) : (s.setMc k x).funcMask = s.funcMask := rfl
@[simp] theorem State.setMc_dmas (k : Nat) (x : McSt) : (s.setMc k x).dmas = s.dmas := rfl
@[simp] theorem State.setMc_dmaLast (k : Nat) (x : McSt) : (s.setMc k x).dmaLast = s.dmaLast := rfl
@[simp] theorem State.setMc_descs (k : Nat) (x : McSt) : (s.setMc k x).descs = s.descs := rfl
@[simp] theorem State.setMc_lamps (k : Nat) (x : McSt) : (s.setMc k x).lamps = s.lamps := rfl
@[simp] theorem State.setMc_groups (k : Nat) (x : McSt) : (s.setMc k x).groups = s.groups := rfl
@[simp] theorem State.setMc_lampOuts (k : Nat) (x : McSt) : (s.setMc k x).lampOuts = s.lampOuts := rfl
@[simp] theorem State.setMc_thAt (k : Nat) (x : McSt) : (s.setMc k x).thAt = s.thAt := rfl
@[simp] theorem State.setMc_padc (k : Nat) (x : McSt) : (s.setMc k x).padc = s.padc := rfl
@[simp] theorem State.setMc_hadc (k : Nat) (x : McSt) : (s.setMc k x).hadc = s.hadc := rfl
@[simp] theorem State.setMc_loopOuts (k : Nat) (x : McSt) : (s.setMc k x).loopOuts = s.loopOuts := rfl
@[simp] theorem State.setMc_quince (k : Nat) (x : McSt) : (s.setMc k x).quince = s.quince := rfl
@[simp] theorem State.setMc_net (k : Nat) (x : McSt) : (s.setMc k x).net = s.net := rfl
@[simp] theorem State.setMc_cans (k : Nat) (x : McSt) : (s.setMc k x).cans = s.cans := rfl
@[simp] theorem State.setMc_ptps (k : Nat) (x : McSt) : (s.setMc k x).ptps = s.ptps := rfl
@[simp] theorem State.setMc_nvm (k : Nat) (x : McSt) : (s.setMc k x).nvm = s.nvm := rfl
@[simp] theorem State.setMc_boot (k : Nat) (x : McSt) : (s.setMc k x).boot = s.boot := rfl

@[simp] theorem State.setVec_pending (k : Nat) (x : VecSt) : (s.setVec k x).pending = s.pending := rfl
@[simp] theorem State.setVec_fresh (k : Nat) (x : VecSt) : (s.setVec k x).fresh = s.fresh := rfl
@[simp] theorem State.setVec_tx (k : Nat) (x : VecSt) : (s.setVec k x).tx = s.tx := rfl
@[simp] theorem State.setVec_regs (k : Nat) (x : VecSt) : (s.setVec k x).regs = s.regs := rfl
@[simp] theorem State.setVec_wide (k : Nat) (x : VecSt) : (s.setVec k x).wide = s.wide := rfl
@[simp] theorem State.setVec_reqs (k : Nat) (x : VecSt) : (s.setVec k x).reqs = s.reqs := rfl
@[simp] theorem State.setVec_time (k : Nat) (x : VecSt) : (s.setVec k x).time = s.time := rfl
@[simp] theorem State.setVec_heads (k : Nat) (x : VecSt) : (s.setVec k x).heads = s.heads := rfl
@[simp] theorem State.setVec_probe (k : Nat) (x : VecSt) : (s.setVec k x).probe = s.probe := rfl
@[simp] theorem State.setVec_lanes (k : Nat) (x : VecSt) : (s.setVec k x).lanes = s.lanes := rfl
@[simp] theorem State.setVec_scheds (k : Nat) (x : VecSt) : (s.setVec k x).scheds = s.scheds := rfl
@[simp] theorem State.setVec_tdcs (k : Nat) (x : VecSt) : (s.setVec k x).tdcs = s.tdcs := rfl
@[simp] theorem State.setVec_ces (k : Nat) (x : VecSt) : (s.setVec k x).ces = s.ces := rfl
@[simp] theorem State.setVec_raman (k : Nat) (x : VecSt) : (s.setVec k x).raman = s.raman := rfl
@[simp] theorem State.setVec_dram (k : Nat) (x : VecSt) : (s.setVec k x).dram = s.dram := rfl
@[simp] theorem State.setVec_dramOut (k : Nat) (x : VecSt) : (s.setVec k x).dramOut = s.dramOut := rfl
@[simp] theorem State.setVec_banks (k : Nat) (x : VecSt) : (s.setVec k x).banks = s.banks := rfl
@[simp] theorem State.setVec_mcs (k : Nat) (x : VecSt) : (s.setVec k x).mcs = s.mcs := rfl
@[simp] theorem State.setVec_cores (k : Nat) (x : VecSt) : (s.setVec k x).cores = s.cores := rfl
@[simp] theorem State.setVec_clusters (k : Nat) (x : VecSt) : (s.setVec k x).clusters = s.clusters := rfl
@[simp] theorem State.setVec_chains (k : Nat) (x : VecSt) : (s.setVec k x).chains = s.chains := rfl
@[simp] theorem State.setVec_branches (k : Nat) (x : VecSt) : (s.setVec k x).branches = s.branches := rfl
@[simp] theorem State.setVec_phis (k : Nat) (x : VecSt) : (s.setVec k x).phis = s.phis := rfl
@[simp] theorem State.setVec_bands (k : Nat) (x : VecSt) : (s.setVec k x).bands = s.bands := rfl
@[simp] theorem State.setVec_fuses (k : Nat) (x : VecSt) : (s.setVec k x).fuses = s.fuses := rfl
@[simp] theorem State.setVec_coils (k : Nat) (x : VecSt) : (s.setVec k x).coils = s.coils := rfl
@[simp] theorem State.setVec_frames (k : Nat) (x : VecSt) : (s.setVec k x).frames = s.frames := rfl
@[simp] theorem State.setVec_sram (k : Nat) (x : VecSt) : (s.setVec k x).sram = s.sram := rfl
@[simp] theorem State.setVec_cmem (k : Nat) (x : VecSt) : (s.setVec k x).cmem = s.cmem := rfl
@[simp] theorem State.setVec_imem (k : Nat) (x : VecSt) : (s.setVec k x).imem = s.imem := rfl
@[simp] theorem State.setVec_fabric (k : Nat) (x : VecSt) : (s.setVec k x).fabric = s.fabric := rfl
@[simp] theorem State.setVec_returning (k : Nat) (x : VecSt) : (s.setVec k x).returning = s.returning := rfl
@[simp] theorem State.setVec_zones (k : Nat) (x : VecSt) : (s.setVec k x).zones = s.zones := rfl
@[simp] theorem State.setVec_zoneSts (k : Nat) (x : VecSt) : (s.setVec k x).zoneSts = s.zoneSts := rfl
@[simp] theorem State.setVec_evq (k : Nat) (x : VecSt) : (s.setVec k x).evq = s.evq := rfl
@[simp] theorem State.setVec_evLost (k : Nat) (x : VecSt) : (s.setVec k x).evLost = s.evLost := rfl
@[simp] theorem State.setVec_evSeq (k : Nat) (x : VecSt) : (s.setVec k x).evSeq = s.evSeq := rfl
@[simp] theorem State.setVec_caps (k : Nat) (x : VecSt) : (s.setVec k x).caps = s.caps := rfl
@[simp] theorem State.setVec_selfWrites (k : Nat) (x : VecSt) : (s.setVec k x).selfWrites = s.selfWrites := rfl
@[simp] theorem State.setVec_tpdos (k : Nat) (x : VecSt) : (s.setVec k x).tpdos = s.tpdos := rfl
@[simp] theorem State.setVec_od (k : Nat) (x : VecSt) : (s.setVec k x).od = s.od := rfl
@[simp] theorem State.setVec_odBytes (k : Nat) (x : VecSt) : (s.setVec k x).odBytes = s.odBytes := rfl
@[simp] theorem State.setVec_stalled (k : Nat) (x : VecSt) : (s.setVec k x).stalled = s.stalled := rfl
@[simp] theorem State.setVec_queues (k : Nat) (x : VecSt) : (s.setVec k x).queues = s.queues := rfl
@[simp] theorem State.setVec_msix (k : Nat) (x : VecSt) : (s.setVec k x).msix = s.msix := rfl
@[simp] theorem State.setVec_sessions (k : Nat) (x : VecSt) : (s.setVec k x).sessions = s.sessions := rfl
@[simp] theorem State.setVec_funcMask (k : Nat) (x : VecSt) : (s.setVec k x).funcMask = s.funcMask := rfl
@[simp] theorem State.setVec_dmas (k : Nat) (x : VecSt) : (s.setVec k x).dmas = s.dmas := rfl
@[simp] theorem State.setVec_dmaLast (k : Nat) (x : VecSt) : (s.setVec k x).dmaLast = s.dmaLast := rfl
@[simp] theorem State.setVec_descs (k : Nat) (x : VecSt) : (s.setVec k x).descs = s.descs := rfl
@[simp] theorem State.setVec_lamps (k : Nat) (x : VecSt) : (s.setVec k x).lamps = s.lamps := rfl
@[simp] theorem State.setVec_groups (k : Nat) (x : VecSt) : (s.setVec k x).groups = s.groups := rfl
@[simp] theorem State.setVec_lampOuts (k : Nat) (x : VecSt) : (s.setVec k x).lampOuts = s.lampOuts := rfl
@[simp] theorem State.setVec_thAt (k : Nat) (x : VecSt) : (s.setVec k x).thAt = s.thAt := rfl
@[simp] theorem State.setVec_padc (k : Nat) (x : VecSt) : (s.setVec k x).padc = s.padc := rfl
@[simp] theorem State.setVec_hadc (k : Nat) (x : VecSt) : (s.setVec k x).hadc = s.hadc := rfl
@[simp] theorem State.setVec_loopOuts (k : Nat) (x : VecSt) : (s.setVec k x).loopOuts = s.loopOuts := rfl
@[simp] theorem State.setVec_quince (k : Nat) (x : VecSt) : (s.setVec k x).quince = s.quince := rfl
@[simp] theorem State.setVec_net (k : Nat) (x : VecSt) : (s.setVec k x).net = s.net := rfl
@[simp] theorem State.setVec_cans (k : Nat) (x : VecSt) : (s.setVec k x).cans = s.cans := rfl
@[simp] theorem State.setVec_ptps (k : Nat) (x : VecSt) : (s.setVec k x).ptps = s.ptps := rfl
@[simp] theorem State.setVec_nvm (k : Nat) (x : VecSt) : (s.setVec k x).nvm = s.nvm := rfl
@[simp] theorem State.setVec_boot (k : Nat) (x : VecSt) : (s.setVec k x).boot = s.boot := rfl

@[simp] theorem State.setQueue_pending (k : Nat) (x : QueueSt) : (s.setQueue k x).pending = s.pending := rfl
@[simp] theorem State.setQueue_fresh (k : Nat) (x : QueueSt) : (s.setQueue k x).fresh = s.fresh := rfl
@[simp] theorem State.setQueue_tx (k : Nat) (x : QueueSt) : (s.setQueue k x).tx = s.tx := rfl
@[simp] theorem State.setQueue_regs (k : Nat) (x : QueueSt) : (s.setQueue k x).regs = s.regs := rfl
@[simp] theorem State.setQueue_wide (k : Nat) (x : QueueSt) : (s.setQueue k x).wide = s.wide := rfl
@[simp] theorem State.setQueue_reqs (k : Nat) (x : QueueSt) : (s.setQueue k x).reqs = s.reqs := rfl
@[simp] theorem State.setQueue_time (k : Nat) (x : QueueSt) : (s.setQueue k x).time = s.time := rfl
@[simp] theorem State.setQueue_heads (k : Nat) (x : QueueSt) : (s.setQueue k x).heads = s.heads := rfl
@[simp] theorem State.setQueue_probe (k : Nat) (x : QueueSt) : (s.setQueue k x).probe = s.probe := rfl
@[simp] theorem State.setQueue_lanes (k : Nat) (x : QueueSt) : (s.setQueue k x).lanes = s.lanes := rfl
@[simp] theorem State.setQueue_scheds (k : Nat) (x : QueueSt) : (s.setQueue k x).scheds = s.scheds := rfl
@[simp] theorem State.setQueue_tdcs (k : Nat) (x : QueueSt) : (s.setQueue k x).tdcs = s.tdcs := rfl
@[simp] theorem State.setQueue_ces (k : Nat) (x : QueueSt) : (s.setQueue k x).ces = s.ces := rfl
@[simp] theorem State.setQueue_raman (k : Nat) (x : QueueSt) : (s.setQueue k x).raman = s.raman := rfl
@[simp] theorem State.setQueue_dram (k : Nat) (x : QueueSt) : (s.setQueue k x).dram = s.dram := rfl
@[simp] theorem State.setQueue_dramOut (k : Nat) (x : QueueSt) : (s.setQueue k x).dramOut = s.dramOut := rfl
@[simp] theorem State.setQueue_banks (k : Nat) (x : QueueSt) : (s.setQueue k x).banks = s.banks := rfl
@[simp] theorem State.setQueue_mcs (k : Nat) (x : QueueSt) : (s.setQueue k x).mcs = s.mcs := rfl
@[simp] theorem State.setQueue_cores (k : Nat) (x : QueueSt) : (s.setQueue k x).cores = s.cores := rfl
@[simp] theorem State.setQueue_clusters (k : Nat) (x : QueueSt) : (s.setQueue k x).clusters = s.clusters := rfl
@[simp] theorem State.setQueue_chains (k : Nat) (x : QueueSt) : (s.setQueue k x).chains = s.chains := rfl
@[simp] theorem State.setQueue_branches (k : Nat) (x : QueueSt) : (s.setQueue k x).branches = s.branches := rfl
@[simp] theorem State.setQueue_phis (k : Nat) (x : QueueSt) : (s.setQueue k x).phis = s.phis := rfl
@[simp] theorem State.setQueue_bands (k : Nat) (x : QueueSt) : (s.setQueue k x).bands = s.bands := rfl
@[simp] theorem State.setQueue_fuses (k : Nat) (x : QueueSt) : (s.setQueue k x).fuses = s.fuses := rfl
@[simp] theorem State.setQueue_coils (k : Nat) (x : QueueSt) : (s.setQueue k x).coils = s.coils := rfl
@[simp] theorem State.setQueue_frames (k : Nat) (x : QueueSt) : (s.setQueue k x).frames = s.frames := rfl
@[simp] theorem State.setQueue_sram (k : Nat) (x : QueueSt) : (s.setQueue k x).sram = s.sram := rfl
@[simp] theorem State.setQueue_cmem (k : Nat) (x : QueueSt) : (s.setQueue k x).cmem = s.cmem := rfl
@[simp] theorem State.setQueue_imem (k : Nat) (x : QueueSt) : (s.setQueue k x).imem = s.imem := rfl
@[simp] theorem State.setQueue_fabric (k : Nat) (x : QueueSt) : (s.setQueue k x).fabric = s.fabric := rfl
@[simp] theorem State.setQueue_returning (k : Nat) (x : QueueSt) : (s.setQueue k x).returning = s.returning := rfl
@[simp] theorem State.setQueue_zones (k : Nat) (x : QueueSt) : (s.setQueue k x).zones = s.zones := rfl
@[simp] theorem State.setQueue_zoneSts (k : Nat) (x : QueueSt) : (s.setQueue k x).zoneSts = s.zoneSts := rfl
@[simp] theorem State.setQueue_evq (k : Nat) (x : QueueSt) : (s.setQueue k x).evq = s.evq := rfl
@[simp] theorem State.setQueue_evLost (k : Nat) (x : QueueSt) : (s.setQueue k x).evLost = s.evLost := rfl
@[simp] theorem State.setQueue_evSeq (k : Nat) (x : QueueSt) : (s.setQueue k x).evSeq = s.evSeq := rfl
@[simp] theorem State.setQueue_caps (k : Nat) (x : QueueSt) : (s.setQueue k x).caps = s.caps := rfl
@[simp] theorem State.setQueue_selfWrites (k : Nat) (x : QueueSt) : (s.setQueue k x).selfWrites = s.selfWrites := rfl
@[simp] theorem State.setQueue_tpdos (k : Nat) (x : QueueSt) : (s.setQueue k x).tpdos = s.tpdos := rfl
@[simp] theorem State.setQueue_od (k : Nat) (x : QueueSt) : (s.setQueue k x).od = s.od := rfl
@[simp] theorem State.setQueue_odBytes (k : Nat) (x : QueueSt) : (s.setQueue k x).odBytes = s.odBytes := rfl
@[simp] theorem State.setQueue_stalled (k : Nat) (x : QueueSt) : (s.setQueue k x).stalled = s.stalled := rfl
@[simp] theorem State.setQueue_vecs (k : Nat) (x : QueueSt) : (s.setQueue k x).vecs = s.vecs := rfl
@[simp] theorem State.setQueue_msix (k : Nat) (x : QueueSt) : (s.setQueue k x).msix = s.msix := rfl
@[simp] theorem State.setQueue_sessions (k : Nat) (x : QueueSt) : (s.setQueue k x).sessions = s.sessions := rfl
@[simp] theorem State.setQueue_funcMask (k : Nat) (x : QueueSt) : (s.setQueue k x).funcMask = s.funcMask := rfl
@[simp] theorem State.setQueue_dmas (k : Nat) (x : QueueSt) : (s.setQueue k x).dmas = s.dmas := rfl
@[simp] theorem State.setQueue_dmaLast (k : Nat) (x : QueueSt) : (s.setQueue k x).dmaLast = s.dmaLast := rfl
@[simp] theorem State.setQueue_descs (k : Nat) (x : QueueSt) : (s.setQueue k x).descs = s.descs := rfl
@[simp] theorem State.setQueue_lamps (k : Nat) (x : QueueSt) : (s.setQueue k x).lamps = s.lamps := rfl
@[simp] theorem State.setQueue_groups (k : Nat) (x : QueueSt) : (s.setQueue k x).groups = s.groups := rfl
@[simp] theorem State.setQueue_lampOuts (k : Nat) (x : QueueSt) : (s.setQueue k x).lampOuts = s.lampOuts := rfl
@[simp] theorem State.setQueue_thAt (k : Nat) (x : QueueSt) : (s.setQueue k x).thAt = s.thAt := rfl
@[simp] theorem State.setQueue_padc (k : Nat) (x : QueueSt) : (s.setQueue k x).padc = s.padc := rfl
@[simp] theorem State.setQueue_hadc (k : Nat) (x : QueueSt) : (s.setQueue k x).hadc = s.hadc := rfl
@[simp] theorem State.setQueue_loopOuts (k : Nat) (x : QueueSt) : (s.setQueue k x).loopOuts = s.loopOuts := rfl
@[simp] theorem State.setQueue_quince (k : Nat) (x : QueueSt) : (s.setQueue k x).quince = s.quince := rfl
@[simp] theorem State.setQueue_net (k : Nat) (x : QueueSt) : (s.setQueue k x).net = s.net := rfl
@[simp] theorem State.setQueue_cans (k : Nat) (x : QueueSt) : (s.setQueue k x).cans = s.cans := rfl
@[simp] theorem State.setQueue_ptps (k : Nat) (x : QueueSt) : (s.setQueue k x).ptps = s.ptps := rfl
@[simp] theorem State.setQueue_nvm (k : Nat) (x : QueueSt) : (s.setQueue k x).nvm = s.nvm := rfl
@[simp] theorem State.setQueue_boot (k : Nat) (x : QueueSt) : (s.setQueue k x).boot = s.boot := rfl

@[simp] theorem State.setSession_pending (k : Nat) (x : SessionSt) : (s.setSession k x).pending = s.pending := rfl
@[simp] theorem State.setSession_fresh (k : Nat) (x : SessionSt) : (s.setSession k x).fresh = s.fresh := rfl
@[simp] theorem State.setSession_tx (k : Nat) (x : SessionSt) : (s.setSession k x).tx = s.tx := rfl
@[simp] theorem State.setSession_regs (k : Nat) (x : SessionSt) : (s.setSession k x).regs = s.regs := rfl
@[simp] theorem State.setSession_wide (k : Nat) (x : SessionSt) : (s.setSession k x).wide = s.wide := rfl
@[simp] theorem State.setSession_reqs (k : Nat) (x : SessionSt) : (s.setSession k x).reqs = s.reqs := rfl
@[simp] theorem State.setSession_time (k : Nat) (x : SessionSt) : (s.setSession k x).time = s.time := rfl
@[simp] theorem State.setSession_heads (k : Nat) (x : SessionSt) : (s.setSession k x).heads = s.heads := rfl
@[simp] theorem State.setSession_probe (k : Nat) (x : SessionSt) : (s.setSession k x).probe = s.probe := rfl
@[simp] theorem State.setSession_lanes (k : Nat) (x : SessionSt) : (s.setSession k x).lanes = s.lanes := rfl
@[simp] theorem State.setSession_scheds (k : Nat) (x : SessionSt) : (s.setSession k x).scheds = s.scheds := rfl
@[simp] theorem State.setSession_tdcs (k : Nat) (x : SessionSt) : (s.setSession k x).tdcs = s.tdcs := rfl
@[simp] theorem State.setSession_ces (k : Nat) (x : SessionSt) : (s.setSession k x).ces = s.ces := rfl
@[simp] theorem State.setSession_raman (k : Nat) (x : SessionSt) : (s.setSession k x).raman = s.raman := rfl
@[simp] theorem State.setSession_dram (k : Nat) (x : SessionSt) : (s.setSession k x).dram = s.dram := rfl
@[simp] theorem State.setSession_dramOut (k : Nat) (x : SessionSt) : (s.setSession k x).dramOut = s.dramOut := rfl
@[simp] theorem State.setSession_banks (k : Nat) (x : SessionSt) : (s.setSession k x).banks = s.banks := rfl
@[simp] theorem State.setSession_mcs (k : Nat) (x : SessionSt) : (s.setSession k x).mcs = s.mcs := rfl
@[simp] theorem State.setSession_cores (k : Nat) (x : SessionSt) : (s.setSession k x).cores = s.cores := rfl
@[simp] theorem State.setSession_clusters (k : Nat) (x : SessionSt) : (s.setSession k x).clusters = s.clusters := rfl
@[simp] theorem State.setSession_chains (k : Nat) (x : SessionSt) : (s.setSession k x).chains = s.chains := rfl
@[simp] theorem State.setSession_branches (k : Nat) (x : SessionSt) : (s.setSession k x).branches = s.branches := rfl
@[simp] theorem State.setSession_phis (k : Nat) (x : SessionSt) : (s.setSession k x).phis = s.phis := rfl
@[simp] theorem State.setSession_bands (k : Nat) (x : SessionSt) : (s.setSession k x).bands = s.bands := rfl
@[simp] theorem State.setSession_fuses (k : Nat) (x : SessionSt) : (s.setSession k x).fuses = s.fuses := rfl
@[simp] theorem State.setSession_coils (k : Nat) (x : SessionSt) : (s.setSession k x).coils = s.coils := rfl
@[simp] theorem State.setSession_frames (k : Nat) (x : SessionSt) : (s.setSession k x).frames = s.frames := rfl
@[simp] theorem State.setSession_sram (k : Nat) (x : SessionSt) : (s.setSession k x).sram = s.sram := rfl
@[simp] theorem State.setSession_cmem (k : Nat) (x : SessionSt) : (s.setSession k x).cmem = s.cmem := rfl
@[simp] theorem State.setSession_imem (k : Nat) (x : SessionSt) : (s.setSession k x).imem = s.imem := rfl
@[simp] theorem State.setSession_fabric (k : Nat) (x : SessionSt) : (s.setSession k x).fabric = s.fabric := rfl
@[simp] theorem State.setSession_returning (k : Nat) (x : SessionSt) : (s.setSession k x).returning = s.returning := rfl
@[simp] theorem State.setSession_zones (k : Nat) (x : SessionSt) : (s.setSession k x).zones = s.zones := rfl
@[simp] theorem State.setSession_zoneSts (k : Nat) (x : SessionSt) : (s.setSession k x).zoneSts = s.zoneSts := rfl
@[simp] theorem State.setSession_evq (k : Nat) (x : SessionSt) : (s.setSession k x).evq = s.evq := rfl
@[simp] theorem State.setSession_evLost (k : Nat) (x : SessionSt) : (s.setSession k x).evLost = s.evLost := rfl
@[simp] theorem State.setSession_evSeq (k : Nat) (x : SessionSt) : (s.setSession k x).evSeq = s.evSeq := rfl
@[simp] theorem State.setSession_caps (k : Nat) (x : SessionSt) : (s.setSession k x).caps = s.caps := rfl
@[simp] theorem State.setSession_selfWrites (k : Nat) (x : SessionSt) : (s.setSession k x).selfWrites = s.selfWrites := rfl
@[simp] theorem State.setSession_tpdos (k : Nat) (x : SessionSt) : (s.setSession k x).tpdos = s.tpdos := rfl
@[simp] theorem State.setSession_od (k : Nat) (x : SessionSt) : (s.setSession k x).od = s.od := rfl
@[simp] theorem State.setSession_odBytes (k : Nat) (x : SessionSt) : (s.setSession k x).odBytes = s.odBytes := rfl
@[simp] theorem State.setSession_stalled (k : Nat) (x : SessionSt) : (s.setSession k x).stalled = s.stalled := rfl
@[simp] theorem State.setSession_vecs (k : Nat) (x : SessionSt) : (s.setSession k x).vecs = s.vecs := rfl
@[simp] theorem State.setSession_queues (k : Nat) (x : SessionSt) : (s.setSession k x).queues = s.queues := rfl
@[simp] theorem State.setSession_msix (k : Nat) (x : SessionSt) : (s.setSession k x).msix = s.msix := rfl
@[simp] theorem State.setSession_funcMask (k : Nat) (x : SessionSt) : (s.setSession k x).funcMask = s.funcMask := rfl
@[simp] theorem State.setSession_dmas (k : Nat) (x : SessionSt) : (s.setSession k x).dmas = s.dmas := rfl
@[simp] theorem State.setSession_dmaLast (k : Nat) (x : SessionSt) : (s.setSession k x).dmaLast = s.dmaLast := rfl
@[simp] theorem State.setSession_descs (k : Nat) (x : SessionSt) : (s.setSession k x).descs = s.descs := rfl
@[simp] theorem State.setSession_lamps (k : Nat) (x : SessionSt) : (s.setSession k x).lamps = s.lamps := rfl
@[simp] theorem State.setSession_groups (k : Nat) (x : SessionSt) : (s.setSession k x).groups = s.groups := rfl
@[simp] theorem State.setSession_lampOuts (k : Nat) (x : SessionSt) : (s.setSession k x).lampOuts = s.lampOuts := rfl
@[simp] theorem State.setSession_thAt (k : Nat) (x : SessionSt) : (s.setSession k x).thAt = s.thAt := rfl
@[simp] theorem State.setSession_padc (k : Nat) (x : SessionSt) : (s.setSession k x).padc = s.padc := rfl
@[simp] theorem State.setSession_hadc (k : Nat) (x : SessionSt) : (s.setSession k x).hadc = s.hadc := rfl
@[simp] theorem State.setSession_loopOuts (k : Nat) (x : SessionSt) : (s.setSession k x).loopOuts = s.loopOuts := rfl
@[simp] theorem State.setSession_quince (k : Nat) (x : SessionSt) : (s.setSession k x).quince = s.quince := rfl
@[simp] theorem State.setSession_net (k : Nat) (x : SessionSt) : (s.setSession k x).net = s.net := rfl
@[simp] theorem State.setSession_cans (k : Nat) (x : SessionSt) : (s.setSession k x).cans = s.cans := rfl
@[simp] theorem State.setSession_ptps (k : Nat) (x : SessionSt) : (s.setSession k x).ptps = s.ptps := rfl
@[simp] theorem State.setSession_nvm (k : Nat) (x : SessionSt) : (s.setSession k x).nvm = s.nvm := rfl
@[simp] theorem State.setSession_boot (k : Nat) (x : SessionSt) : (s.setSession k x).boot = s.boot := rfl

@[simp] theorem State.setCore_pending (k : Nat) (x : CoreSt) : (s.setCore k x).pending = s.pending := rfl
@[simp] theorem State.setCore_fresh (k : Nat) (x : CoreSt) : (s.setCore k x).fresh = s.fresh := rfl
@[simp] theorem State.setCore_tx (k : Nat) (x : CoreSt) : (s.setCore k x).tx = s.tx := rfl
@[simp] theorem State.setCore_regs (k : Nat) (x : CoreSt) : (s.setCore k x).regs = s.regs := rfl
@[simp] theorem State.setCore_wide (k : Nat) (x : CoreSt) : (s.setCore k x).wide = s.wide := rfl
@[simp] theorem State.setCore_reqs (k : Nat) (x : CoreSt) : (s.setCore k x).reqs = s.reqs := rfl
@[simp] theorem State.setCore_time (k : Nat) (x : CoreSt) : (s.setCore k x).time = s.time := rfl
@[simp] theorem State.setCore_heads (k : Nat) (x : CoreSt) : (s.setCore k x).heads = s.heads := rfl
@[simp] theorem State.setCore_probe (k : Nat) (x : CoreSt) : (s.setCore k x).probe = s.probe := rfl
@[simp] theorem State.setCore_lanes (k : Nat) (x : CoreSt) : (s.setCore k x).lanes = s.lanes := rfl
@[simp] theorem State.setCore_scheds (k : Nat) (x : CoreSt) : (s.setCore k x).scheds = s.scheds := rfl
@[simp] theorem State.setCore_tdcs (k : Nat) (x : CoreSt) : (s.setCore k x).tdcs = s.tdcs := rfl
@[simp] theorem State.setCore_ces (k : Nat) (x : CoreSt) : (s.setCore k x).ces = s.ces := rfl
@[simp] theorem State.setCore_raman (k : Nat) (x : CoreSt) : (s.setCore k x).raman = s.raman := rfl
@[simp] theorem State.setCore_dram (k : Nat) (x : CoreSt) : (s.setCore k x).dram = s.dram := rfl
@[simp] theorem State.setCore_dramOut (k : Nat) (x : CoreSt) : (s.setCore k x).dramOut = s.dramOut := rfl
@[simp] theorem State.setCore_banks (k : Nat) (x : CoreSt) : (s.setCore k x).banks = s.banks := rfl
@[simp] theorem State.setCore_mcs (k : Nat) (x : CoreSt) : (s.setCore k x).mcs = s.mcs := rfl
@[simp] theorem State.setCore_clusters (k : Nat) (x : CoreSt) : (s.setCore k x).clusters = s.clusters := rfl
@[simp] theorem State.setCore_chains (k : Nat) (x : CoreSt) : (s.setCore k x).chains = s.chains := rfl
@[simp] theorem State.setCore_branches (k : Nat) (x : CoreSt) : (s.setCore k x).branches = s.branches := rfl
@[simp] theorem State.setCore_phis (k : Nat) (x : CoreSt) : (s.setCore k x).phis = s.phis := rfl
@[simp] theorem State.setCore_bands (k : Nat) (x : CoreSt) : (s.setCore k x).bands = s.bands := rfl
@[simp] theorem State.setCore_fuses (k : Nat) (x : CoreSt) : (s.setCore k x).fuses = s.fuses := rfl
@[simp] theorem State.setCore_coils (k : Nat) (x : CoreSt) : (s.setCore k x).coils = s.coils := rfl
@[simp] theorem State.setCore_frames (k : Nat) (x : CoreSt) : (s.setCore k x).frames = s.frames := rfl
@[simp] theorem State.setCore_sram (k : Nat) (x : CoreSt) : (s.setCore k x).sram = s.sram := rfl
@[simp] theorem State.setCore_cmem (k : Nat) (x : CoreSt) : (s.setCore k x).cmem = s.cmem := rfl
@[simp] theorem State.setCore_imem (k : Nat) (x : CoreSt) : (s.setCore k x).imem = s.imem := rfl
@[simp] theorem State.setCore_fabric (k : Nat) (x : CoreSt) : (s.setCore k x).fabric = s.fabric := rfl
@[simp] theorem State.setCore_returning (k : Nat) (x : CoreSt) : (s.setCore k x).returning = s.returning := rfl
@[simp] theorem State.setCore_zones (k : Nat) (x : CoreSt) : (s.setCore k x).zones = s.zones := rfl
@[simp] theorem State.setCore_zoneSts (k : Nat) (x : CoreSt) : (s.setCore k x).zoneSts = s.zoneSts := rfl
@[simp] theorem State.setCore_evq (k : Nat) (x : CoreSt) : (s.setCore k x).evq = s.evq := rfl
@[simp] theorem State.setCore_evLost (k : Nat) (x : CoreSt) : (s.setCore k x).evLost = s.evLost := rfl
@[simp] theorem State.setCore_evSeq (k : Nat) (x : CoreSt) : (s.setCore k x).evSeq = s.evSeq := rfl
@[simp] theorem State.setCore_caps (k : Nat) (x : CoreSt) : (s.setCore k x).caps = s.caps := rfl
@[simp] theorem State.setCore_selfWrites (k : Nat) (x : CoreSt) : (s.setCore k x).selfWrites = s.selfWrites := rfl
@[simp] theorem State.setCore_tpdos (k : Nat) (x : CoreSt) : (s.setCore k x).tpdos = s.tpdos := rfl
@[simp] theorem State.setCore_od (k : Nat) (x : CoreSt) : (s.setCore k x).od = s.od := rfl
@[simp] theorem State.setCore_odBytes (k : Nat) (x : CoreSt) : (s.setCore k x).odBytes = s.odBytes := rfl
@[simp] theorem State.setCore_stalled (k : Nat) (x : CoreSt) : (s.setCore k x).stalled = s.stalled := rfl
@[simp] theorem State.setCore_vecs (k : Nat) (x : CoreSt) : (s.setCore k x).vecs = s.vecs := rfl
@[simp] theorem State.setCore_queues (k : Nat) (x : CoreSt) : (s.setCore k x).queues = s.queues := rfl
@[simp] theorem State.setCore_msix (k : Nat) (x : CoreSt) : (s.setCore k x).msix = s.msix := rfl
@[simp] theorem State.setCore_sessions (k : Nat) (x : CoreSt) : (s.setCore k x).sessions = s.sessions := rfl
@[simp] theorem State.setCore_funcMask (k : Nat) (x : CoreSt) : (s.setCore k x).funcMask = s.funcMask := rfl
@[simp] theorem State.setCore_dmas (k : Nat) (x : CoreSt) : (s.setCore k x).dmas = s.dmas := rfl
@[simp] theorem State.setCore_dmaLast (k : Nat) (x : CoreSt) : (s.setCore k x).dmaLast = s.dmaLast := rfl
@[simp] theorem State.setCore_descs (k : Nat) (x : CoreSt) : (s.setCore k x).descs = s.descs := rfl
@[simp] theorem State.setCore_lamps (k : Nat) (x : CoreSt) : (s.setCore k x).lamps = s.lamps := rfl
@[simp] theorem State.setCore_groups (k : Nat) (x : CoreSt) : (s.setCore k x).groups = s.groups := rfl
@[simp] theorem State.setCore_lampOuts (k : Nat) (x : CoreSt) : (s.setCore k x).lampOuts = s.lampOuts := rfl
@[simp] theorem State.setCore_thAt (k : Nat) (x : CoreSt) : (s.setCore k x).thAt = s.thAt := rfl
@[simp] theorem State.setCore_padc (k : Nat) (x : CoreSt) : (s.setCore k x).padc = s.padc := rfl
@[simp] theorem State.setCore_hadc (k : Nat) (x : CoreSt) : (s.setCore k x).hadc = s.hadc := rfl
@[simp] theorem State.setCore_loopOuts (k : Nat) (x : CoreSt) : (s.setCore k x).loopOuts = s.loopOuts := rfl
@[simp] theorem State.setCore_quince (k : Nat) (x : CoreSt) : (s.setCore k x).quince = s.quince := rfl
@[simp] theorem State.setCore_net (k : Nat) (x : CoreSt) : (s.setCore k x).net = s.net := rfl
@[simp] theorem State.setCore_cans (k : Nat) (x : CoreSt) : (s.setCore k x).cans = s.cans := rfl
@[simp] theorem State.setCore_ptps (k : Nat) (x : CoreSt) : (s.setCore k x).ptps = s.ptps := rfl
@[simp] theorem State.setCore_nvm (k : Nat) (x : CoreSt) : (s.setCore k x).nvm = s.nvm := rfl
@[simp] theorem State.setCore_boot (k : Nat) (x : CoreSt) : (s.setCore k x).boot = s.boot := rfl

@[simp] theorem State.setCluster_pending (k : Nat) (x : ClusterSt) : (s.setCluster k x).pending = s.pending := rfl
@[simp] theorem State.setCluster_fresh (k : Nat) (x : ClusterSt) : (s.setCluster k x).fresh = s.fresh := rfl
@[simp] theorem State.setCluster_tx (k : Nat) (x : ClusterSt) : (s.setCluster k x).tx = s.tx := rfl
@[simp] theorem State.setCluster_regs (k : Nat) (x : ClusterSt) : (s.setCluster k x).regs = s.regs := rfl
@[simp] theorem State.setCluster_wide (k : Nat) (x : ClusterSt) : (s.setCluster k x).wide = s.wide := rfl
@[simp] theorem State.setCluster_reqs (k : Nat) (x : ClusterSt) : (s.setCluster k x).reqs = s.reqs := rfl
@[simp] theorem State.setCluster_time (k : Nat) (x : ClusterSt) : (s.setCluster k x).time = s.time := rfl
@[simp] theorem State.setCluster_heads (k : Nat) (x : ClusterSt) : (s.setCluster k x).heads = s.heads := rfl
@[simp] theorem State.setCluster_probe (k : Nat) (x : ClusterSt) : (s.setCluster k x).probe = s.probe := rfl
@[simp] theorem State.setCluster_lanes (k : Nat) (x : ClusterSt) : (s.setCluster k x).lanes = s.lanes := rfl
@[simp] theorem State.setCluster_scheds (k : Nat) (x : ClusterSt) : (s.setCluster k x).scheds = s.scheds := rfl
@[simp] theorem State.setCluster_tdcs (k : Nat) (x : ClusterSt) : (s.setCluster k x).tdcs = s.tdcs := rfl
@[simp] theorem State.setCluster_ces (k : Nat) (x : ClusterSt) : (s.setCluster k x).ces = s.ces := rfl
@[simp] theorem State.setCluster_raman (k : Nat) (x : ClusterSt) : (s.setCluster k x).raman = s.raman := rfl
@[simp] theorem State.setCluster_dram (k : Nat) (x : ClusterSt) : (s.setCluster k x).dram = s.dram := rfl
@[simp] theorem State.setCluster_dramOut (k : Nat) (x : ClusterSt) : (s.setCluster k x).dramOut = s.dramOut := rfl
@[simp] theorem State.setCluster_banks (k : Nat) (x : ClusterSt) : (s.setCluster k x).banks = s.banks := rfl
@[simp] theorem State.setCluster_mcs (k : Nat) (x : ClusterSt) : (s.setCluster k x).mcs = s.mcs := rfl
@[simp] theorem State.setCluster_cores (k : Nat) (x : ClusterSt) : (s.setCluster k x).cores = s.cores := rfl
@[simp] theorem State.setCluster_chains (k : Nat) (x : ClusterSt) : (s.setCluster k x).chains = s.chains := rfl
@[simp] theorem State.setCluster_branches (k : Nat) (x : ClusterSt) : (s.setCluster k x).branches = s.branches := rfl
@[simp] theorem State.setCluster_phis (k : Nat) (x : ClusterSt) : (s.setCluster k x).phis = s.phis := rfl
@[simp] theorem State.setCluster_bands (k : Nat) (x : ClusterSt) : (s.setCluster k x).bands = s.bands := rfl
@[simp] theorem State.setCluster_fuses (k : Nat) (x : ClusterSt) : (s.setCluster k x).fuses = s.fuses := rfl
@[simp] theorem State.setCluster_coils (k : Nat) (x : ClusterSt) : (s.setCluster k x).coils = s.coils := rfl
@[simp] theorem State.setCluster_frames (k : Nat) (x : ClusterSt) : (s.setCluster k x).frames = s.frames := rfl
@[simp] theorem State.setCluster_sram (k : Nat) (x : ClusterSt) : (s.setCluster k x).sram = s.sram := rfl
@[simp] theorem State.setCluster_cmem (k : Nat) (x : ClusterSt) : (s.setCluster k x).cmem = s.cmem := rfl
@[simp] theorem State.setCluster_imem (k : Nat) (x : ClusterSt) : (s.setCluster k x).imem = s.imem := rfl
@[simp] theorem State.setCluster_fabric (k : Nat) (x : ClusterSt) : (s.setCluster k x).fabric = s.fabric := rfl
@[simp] theorem State.setCluster_returning (k : Nat) (x : ClusterSt) : (s.setCluster k x).returning = s.returning := rfl
@[simp] theorem State.setCluster_zones (k : Nat) (x : ClusterSt) : (s.setCluster k x).zones = s.zones := rfl
@[simp] theorem State.setCluster_zoneSts (k : Nat) (x : ClusterSt) : (s.setCluster k x).zoneSts = s.zoneSts := rfl
@[simp] theorem State.setCluster_evq (k : Nat) (x : ClusterSt) : (s.setCluster k x).evq = s.evq := rfl
@[simp] theorem State.setCluster_evLost (k : Nat) (x : ClusterSt) : (s.setCluster k x).evLost = s.evLost := rfl
@[simp] theorem State.setCluster_evSeq (k : Nat) (x : ClusterSt) : (s.setCluster k x).evSeq = s.evSeq := rfl
@[simp] theorem State.setCluster_caps (k : Nat) (x : ClusterSt) : (s.setCluster k x).caps = s.caps := rfl
@[simp] theorem State.setCluster_selfWrites (k : Nat) (x : ClusterSt) : (s.setCluster k x).selfWrites = s.selfWrites := rfl
@[simp] theorem State.setCluster_tpdos (k : Nat) (x : ClusterSt) : (s.setCluster k x).tpdos = s.tpdos := rfl
@[simp] theorem State.setCluster_od (k : Nat) (x : ClusterSt) : (s.setCluster k x).od = s.od := rfl
@[simp] theorem State.setCluster_odBytes (k : Nat) (x : ClusterSt) : (s.setCluster k x).odBytes = s.odBytes := rfl
@[simp] theorem State.setCluster_stalled (k : Nat) (x : ClusterSt) : (s.setCluster k x).stalled = s.stalled := rfl
@[simp] theorem State.setCluster_vecs (k : Nat) (x : ClusterSt) : (s.setCluster k x).vecs = s.vecs := rfl
@[simp] theorem State.setCluster_queues (k : Nat) (x : ClusterSt) : (s.setCluster k x).queues = s.queues := rfl
@[simp] theorem State.setCluster_msix (k : Nat) (x : ClusterSt) : (s.setCluster k x).msix = s.msix := rfl
@[simp] theorem State.setCluster_sessions (k : Nat) (x : ClusterSt) : (s.setCluster k x).sessions = s.sessions := rfl
@[simp] theorem State.setCluster_funcMask (k : Nat) (x : ClusterSt) : (s.setCluster k x).funcMask = s.funcMask := rfl
@[simp] theorem State.setCluster_dmas (k : Nat) (x : ClusterSt) : (s.setCluster k x).dmas = s.dmas := rfl
@[simp] theorem State.setCluster_dmaLast (k : Nat) (x : ClusterSt) : (s.setCluster k x).dmaLast = s.dmaLast := rfl
@[simp] theorem State.setCluster_descs (k : Nat) (x : ClusterSt) : (s.setCluster k x).descs = s.descs := rfl
@[simp] theorem State.setCluster_lamps (k : Nat) (x : ClusterSt) : (s.setCluster k x).lamps = s.lamps := rfl
@[simp] theorem State.setCluster_groups (k : Nat) (x : ClusterSt) : (s.setCluster k x).groups = s.groups := rfl
@[simp] theorem State.setCluster_lampOuts (k : Nat) (x : ClusterSt) : (s.setCluster k x).lampOuts = s.lampOuts := rfl
@[simp] theorem State.setCluster_thAt (k : Nat) (x : ClusterSt) : (s.setCluster k x).thAt = s.thAt := rfl
@[simp] theorem State.setCluster_padc (k : Nat) (x : ClusterSt) : (s.setCluster k x).padc = s.padc := rfl
@[simp] theorem State.setCluster_hadc (k : Nat) (x : ClusterSt) : (s.setCluster k x).hadc = s.hadc := rfl
@[simp] theorem State.setCluster_loopOuts (k : Nat) (x : ClusterSt) : (s.setCluster k x).loopOuts = s.loopOuts := rfl
@[simp] theorem State.setCluster_quince (k : Nat) (x : ClusterSt) : (s.setCluster k x).quince = s.quince := rfl
@[simp] theorem State.setCluster_net (k : Nat) (x : ClusterSt) : (s.setCluster k x).net = s.net := rfl
@[simp] theorem State.setCluster_cans (k : Nat) (x : ClusterSt) : (s.setCluster k x).cans = s.cans := rfl
@[simp] theorem State.setCluster_ptps (k : Nat) (x : ClusterSt) : (s.setCluster k x).ptps = s.ptps := rfl
@[simp] theorem State.setCluster_nvm (k : Nat) (x : ClusterSt) : (s.setCluster k x).nvm = s.nvm := rfl
@[simp] theorem State.setCluster_boot (k : Nat) (x : ClusterSt) : (s.setCluster k x).boot = s.boot := rfl

@[simp] theorem State.setChain_pending (k : Nat) (x : ChainSt) : (s.setChain k x).pending = s.pending := rfl
@[simp] theorem State.setChain_fresh (k : Nat) (x : ChainSt) : (s.setChain k x).fresh = s.fresh := rfl
@[simp] theorem State.setChain_tx (k : Nat) (x : ChainSt) : (s.setChain k x).tx = s.tx := rfl
@[simp] theorem State.setChain_regs (k : Nat) (x : ChainSt) : (s.setChain k x).regs = s.regs := rfl
@[simp] theorem State.setChain_wide (k : Nat) (x : ChainSt) : (s.setChain k x).wide = s.wide := rfl
@[simp] theorem State.setChain_reqs (k : Nat) (x : ChainSt) : (s.setChain k x).reqs = s.reqs := rfl
@[simp] theorem State.setChain_time (k : Nat) (x : ChainSt) : (s.setChain k x).time = s.time := rfl
@[simp] theorem State.setChain_heads (k : Nat) (x : ChainSt) : (s.setChain k x).heads = s.heads := rfl
@[simp] theorem State.setChain_probe (k : Nat) (x : ChainSt) : (s.setChain k x).probe = s.probe := rfl
@[simp] theorem State.setChain_lanes (k : Nat) (x : ChainSt) : (s.setChain k x).lanes = s.lanes := rfl
@[simp] theorem State.setChain_scheds (k : Nat) (x : ChainSt) : (s.setChain k x).scheds = s.scheds := rfl
@[simp] theorem State.setChain_tdcs (k : Nat) (x : ChainSt) : (s.setChain k x).tdcs = s.tdcs := rfl
@[simp] theorem State.setChain_ces (k : Nat) (x : ChainSt) : (s.setChain k x).ces = s.ces := rfl
@[simp] theorem State.setChain_raman (k : Nat) (x : ChainSt) : (s.setChain k x).raman = s.raman := rfl
@[simp] theorem State.setChain_dram (k : Nat) (x : ChainSt) : (s.setChain k x).dram = s.dram := rfl
@[simp] theorem State.setChain_dramOut (k : Nat) (x : ChainSt) : (s.setChain k x).dramOut = s.dramOut := rfl
@[simp] theorem State.setChain_banks (k : Nat) (x : ChainSt) : (s.setChain k x).banks = s.banks := rfl
@[simp] theorem State.setChain_mcs (k : Nat) (x : ChainSt) : (s.setChain k x).mcs = s.mcs := rfl
@[simp] theorem State.setChain_cores (k : Nat) (x : ChainSt) : (s.setChain k x).cores = s.cores := rfl
@[simp] theorem State.setChain_clusters (k : Nat) (x : ChainSt) : (s.setChain k x).clusters = s.clusters := rfl
@[simp] theorem State.setChain_branches (k : Nat) (x : ChainSt) : (s.setChain k x).branches = s.branches := rfl
@[simp] theorem State.setChain_phis (k : Nat) (x : ChainSt) : (s.setChain k x).phis = s.phis := rfl
@[simp] theorem State.setChain_bands (k : Nat) (x : ChainSt) : (s.setChain k x).bands = s.bands := rfl
@[simp] theorem State.setChain_fuses (k : Nat) (x : ChainSt) : (s.setChain k x).fuses = s.fuses := rfl
@[simp] theorem State.setChain_coils (k : Nat) (x : ChainSt) : (s.setChain k x).coils = s.coils := rfl
@[simp] theorem State.setChain_frames (k : Nat) (x : ChainSt) : (s.setChain k x).frames = s.frames := rfl
@[simp] theorem State.setChain_sram (k : Nat) (x : ChainSt) : (s.setChain k x).sram = s.sram := rfl
@[simp] theorem State.setChain_cmem (k : Nat) (x : ChainSt) : (s.setChain k x).cmem = s.cmem := rfl
@[simp] theorem State.setChain_imem (k : Nat) (x : ChainSt) : (s.setChain k x).imem = s.imem := rfl
@[simp] theorem State.setChain_fabric (k : Nat) (x : ChainSt) : (s.setChain k x).fabric = s.fabric := rfl
@[simp] theorem State.setChain_returning (k : Nat) (x : ChainSt) : (s.setChain k x).returning = s.returning := rfl
@[simp] theorem State.setChain_zones (k : Nat) (x : ChainSt) : (s.setChain k x).zones = s.zones := rfl
@[simp] theorem State.setChain_zoneSts (k : Nat) (x : ChainSt) : (s.setChain k x).zoneSts = s.zoneSts := rfl
@[simp] theorem State.setChain_evq (k : Nat) (x : ChainSt) : (s.setChain k x).evq = s.evq := rfl
@[simp] theorem State.setChain_evLost (k : Nat) (x : ChainSt) : (s.setChain k x).evLost = s.evLost := rfl
@[simp] theorem State.setChain_evSeq (k : Nat) (x : ChainSt) : (s.setChain k x).evSeq = s.evSeq := rfl
@[simp] theorem State.setChain_caps (k : Nat) (x : ChainSt) : (s.setChain k x).caps = s.caps := rfl
@[simp] theorem State.setChain_selfWrites (k : Nat) (x : ChainSt) : (s.setChain k x).selfWrites = s.selfWrites := rfl
@[simp] theorem State.setChain_tpdos (k : Nat) (x : ChainSt) : (s.setChain k x).tpdos = s.tpdos := rfl
@[simp] theorem State.setChain_od (k : Nat) (x : ChainSt) : (s.setChain k x).od = s.od := rfl
@[simp] theorem State.setChain_odBytes (k : Nat) (x : ChainSt) : (s.setChain k x).odBytes = s.odBytes := rfl
@[simp] theorem State.setChain_stalled (k : Nat) (x : ChainSt) : (s.setChain k x).stalled = s.stalled := rfl
@[simp] theorem State.setChain_vecs (k : Nat) (x : ChainSt) : (s.setChain k x).vecs = s.vecs := rfl
@[simp] theorem State.setChain_queues (k : Nat) (x : ChainSt) : (s.setChain k x).queues = s.queues := rfl
@[simp] theorem State.setChain_msix (k : Nat) (x : ChainSt) : (s.setChain k x).msix = s.msix := rfl
@[simp] theorem State.setChain_sessions (k : Nat) (x : ChainSt) : (s.setChain k x).sessions = s.sessions := rfl
@[simp] theorem State.setChain_funcMask (k : Nat) (x : ChainSt) : (s.setChain k x).funcMask = s.funcMask := rfl
@[simp] theorem State.setChain_dmas (k : Nat) (x : ChainSt) : (s.setChain k x).dmas = s.dmas := rfl
@[simp] theorem State.setChain_dmaLast (k : Nat) (x : ChainSt) : (s.setChain k x).dmaLast = s.dmaLast := rfl
@[simp] theorem State.setChain_descs (k : Nat) (x : ChainSt) : (s.setChain k x).descs = s.descs := rfl
@[simp] theorem State.setChain_lamps (k : Nat) (x : ChainSt) : (s.setChain k x).lamps = s.lamps := rfl
@[simp] theorem State.setChain_groups (k : Nat) (x : ChainSt) : (s.setChain k x).groups = s.groups := rfl
@[simp] theorem State.setChain_lampOuts (k : Nat) (x : ChainSt) : (s.setChain k x).lampOuts = s.lampOuts := rfl
@[simp] theorem State.setChain_thAt (k : Nat) (x : ChainSt) : (s.setChain k x).thAt = s.thAt := rfl
@[simp] theorem State.setChain_padc (k : Nat) (x : ChainSt) : (s.setChain k x).padc = s.padc := rfl
@[simp] theorem State.setChain_hadc (k : Nat) (x : ChainSt) : (s.setChain k x).hadc = s.hadc := rfl
@[simp] theorem State.setChain_loopOuts (k : Nat) (x : ChainSt) : (s.setChain k x).loopOuts = s.loopOuts := rfl
@[simp] theorem State.setChain_quince (k : Nat) (x : ChainSt) : (s.setChain k x).quince = s.quince := rfl
@[simp] theorem State.setChain_net (k : Nat) (x : ChainSt) : (s.setChain k x).net = s.net := rfl
@[simp] theorem State.setChain_cans (k : Nat) (x : ChainSt) : (s.setChain k x).cans = s.cans := rfl
@[simp] theorem State.setChain_ptps (k : Nat) (x : ChainSt) : (s.setChain k x).ptps = s.ptps := rfl
@[simp] theorem State.setChain_nvm (k : Nat) (x : ChainSt) : (s.setChain k x).nvm = s.nvm := rfl
@[simp] theorem State.setChain_boot (k : Nat) (x : ChainSt) : (s.setChain k x).boot = s.boot := rfl

@[simp] theorem State.setZone_pending (k : Nat) (x : ZoneSt) : (s.setZone k x).pending = s.pending := rfl
@[simp] theorem State.setZone_fresh (k : Nat) (x : ZoneSt) : (s.setZone k x).fresh = s.fresh := rfl
@[simp] theorem State.setZone_tx (k : Nat) (x : ZoneSt) : (s.setZone k x).tx = s.tx := rfl
@[simp] theorem State.setZone_regs (k : Nat) (x : ZoneSt) : (s.setZone k x).regs = s.regs := rfl
@[simp] theorem State.setZone_wide (k : Nat) (x : ZoneSt) : (s.setZone k x).wide = s.wide := rfl
@[simp] theorem State.setZone_reqs (k : Nat) (x : ZoneSt) : (s.setZone k x).reqs = s.reqs := rfl
@[simp] theorem State.setZone_time (k : Nat) (x : ZoneSt) : (s.setZone k x).time = s.time := rfl
@[simp] theorem State.setZone_heads (k : Nat) (x : ZoneSt) : (s.setZone k x).heads = s.heads := rfl
@[simp] theorem State.setZone_probe (k : Nat) (x : ZoneSt) : (s.setZone k x).probe = s.probe := rfl
@[simp] theorem State.setZone_lanes (k : Nat) (x : ZoneSt) : (s.setZone k x).lanes = s.lanes := rfl
@[simp] theorem State.setZone_scheds (k : Nat) (x : ZoneSt) : (s.setZone k x).scheds = s.scheds := rfl
@[simp] theorem State.setZone_tdcs (k : Nat) (x : ZoneSt) : (s.setZone k x).tdcs = s.tdcs := rfl
@[simp] theorem State.setZone_ces (k : Nat) (x : ZoneSt) : (s.setZone k x).ces = s.ces := rfl
@[simp] theorem State.setZone_raman (k : Nat) (x : ZoneSt) : (s.setZone k x).raman = s.raman := rfl
@[simp] theorem State.setZone_dram (k : Nat) (x : ZoneSt) : (s.setZone k x).dram = s.dram := rfl
@[simp] theorem State.setZone_dramOut (k : Nat) (x : ZoneSt) : (s.setZone k x).dramOut = s.dramOut := rfl
@[simp] theorem State.setZone_banks (k : Nat) (x : ZoneSt) : (s.setZone k x).banks = s.banks := rfl
@[simp] theorem State.setZone_mcs (k : Nat) (x : ZoneSt) : (s.setZone k x).mcs = s.mcs := rfl
@[simp] theorem State.setZone_cores (k : Nat) (x : ZoneSt) : (s.setZone k x).cores = s.cores := rfl
@[simp] theorem State.setZone_clusters (k : Nat) (x : ZoneSt) : (s.setZone k x).clusters = s.clusters := rfl
@[simp] theorem State.setZone_chains (k : Nat) (x : ZoneSt) : (s.setZone k x).chains = s.chains := rfl
@[simp] theorem State.setZone_branches (k : Nat) (x : ZoneSt) : (s.setZone k x).branches = s.branches := rfl
@[simp] theorem State.setZone_phis (k : Nat) (x : ZoneSt) : (s.setZone k x).phis = s.phis := rfl
@[simp] theorem State.setZone_bands (k : Nat) (x : ZoneSt) : (s.setZone k x).bands = s.bands := rfl
@[simp] theorem State.setZone_fuses (k : Nat) (x : ZoneSt) : (s.setZone k x).fuses = s.fuses := rfl
@[simp] theorem State.setZone_coils (k : Nat) (x : ZoneSt) : (s.setZone k x).coils = s.coils := rfl
@[simp] theorem State.setZone_frames (k : Nat) (x : ZoneSt) : (s.setZone k x).frames = s.frames := rfl
@[simp] theorem State.setZone_sram (k : Nat) (x : ZoneSt) : (s.setZone k x).sram = s.sram := rfl
@[simp] theorem State.setZone_cmem (k : Nat) (x : ZoneSt) : (s.setZone k x).cmem = s.cmem := rfl
@[simp] theorem State.setZone_imem (k : Nat) (x : ZoneSt) : (s.setZone k x).imem = s.imem := rfl
@[simp] theorem State.setZone_fabric (k : Nat) (x : ZoneSt) : (s.setZone k x).fabric = s.fabric := rfl
@[simp] theorem State.setZone_returning (k : Nat) (x : ZoneSt) : (s.setZone k x).returning = s.returning := rfl
@[simp] theorem State.setZone_zones (k : Nat) (x : ZoneSt) : (s.setZone k x).zones = s.zones := rfl
@[simp] theorem State.setZone_evq (k : Nat) (x : ZoneSt) : (s.setZone k x).evq = s.evq := rfl
@[simp] theorem State.setZone_evLost (k : Nat) (x : ZoneSt) : (s.setZone k x).evLost = s.evLost := rfl
@[simp] theorem State.setZone_evSeq (k : Nat) (x : ZoneSt) : (s.setZone k x).evSeq = s.evSeq := rfl
@[simp] theorem State.setZone_caps (k : Nat) (x : ZoneSt) : (s.setZone k x).caps = s.caps := rfl
@[simp] theorem State.setZone_selfWrites (k : Nat) (x : ZoneSt) : (s.setZone k x).selfWrites = s.selfWrites := rfl
@[simp] theorem State.setZone_tpdos (k : Nat) (x : ZoneSt) : (s.setZone k x).tpdos = s.tpdos := rfl
@[simp] theorem State.setZone_od (k : Nat) (x : ZoneSt) : (s.setZone k x).od = s.od := rfl
@[simp] theorem State.setZone_odBytes (k : Nat) (x : ZoneSt) : (s.setZone k x).odBytes = s.odBytes := rfl
@[simp] theorem State.setZone_stalled (k : Nat) (x : ZoneSt) : (s.setZone k x).stalled = s.stalled := rfl
@[simp] theorem State.setZone_vecs (k : Nat) (x : ZoneSt) : (s.setZone k x).vecs = s.vecs := rfl
@[simp] theorem State.setZone_queues (k : Nat) (x : ZoneSt) : (s.setZone k x).queues = s.queues := rfl
@[simp] theorem State.setZone_msix (k : Nat) (x : ZoneSt) : (s.setZone k x).msix = s.msix := rfl
@[simp] theorem State.setZone_sessions (k : Nat) (x : ZoneSt) : (s.setZone k x).sessions = s.sessions := rfl
@[simp] theorem State.setZone_funcMask (k : Nat) (x : ZoneSt) : (s.setZone k x).funcMask = s.funcMask := rfl
@[simp] theorem State.setZone_dmas (k : Nat) (x : ZoneSt) : (s.setZone k x).dmas = s.dmas := rfl
@[simp] theorem State.setZone_dmaLast (k : Nat) (x : ZoneSt) : (s.setZone k x).dmaLast = s.dmaLast := rfl
@[simp] theorem State.setZone_descs (k : Nat) (x : ZoneSt) : (s.setZone k x).descs = s.descs := rfl
@[simp] theorem State.setZone_lamps (k : Nat) (x : ZoneSt) : (s.setZone k x).lamps = s.lamps := rfl
@[simp] theorem State.setZone_groups (k : Nat) (x : ZoneSt) : (s.setZone k x).groups = s.groups := rfl
@[simp] theorem State.setZone_lampOuts (k : Nat) (x : ZoneSt) : (s.setZone k x).lampOuts = s.lampOuts := rfl
@[simp] theorem State.setZone_thAt (k : Nat) (x : ZoneSt) : (s.setZone k x).thAt = s.thAt := rfl
@[simp] theorem State.setZone_padc (k : Nat) (x : ZoneSt) : (s.setZone k x).padc = s.padc := rfl
@[simp] theorem State.setZone_hadc (k : Nat) (x : ZoneSt) : (s.setZone k x).hadc = s.hadc := rfl
@[simp] theorem State.setZone_loopOuts (k : Nat) (x : ZoneSt) : (s.setZone k x).loopOuts = s.loopOuts := rfl
@[simp] theorem State.setZone_quince (k : Nat) (x : ZoneSt) : (s.setZone k x).quince = s.quince := rfl
@[simp] theorem State.setZone_net (k : Nat) (x : ZoneSt) : (s.setZone k x).net = s.net := rfl
@[simp] theorem State.setZone_cans (k : Nat) (x : ZoneSt) : (s.setZone k x).cans = s.cans := rfl
@[simp] theorem State.setZone_ptps (k : Nat) (x : ZoneSt) : (s.setZone k x).ptps = s.ptps := rfl
@[simp] theorem State.setZone_nvm (k : Nat) (x : ZoneSt) : (s.setZone k x).nvm = s.nvm := rfl
@[simp] theorem State.setZone_boot (k : Nat) (x : ZoneSt) : (s.setZone k x).boot = s.boot := rfl

@[simp] theorem State.setCap_pending (k : Nat) (x : Option CapSt) : (s.setCap k x).pending = s.pending := rfl
@[simp] theorem State.setCap_fresh (k : Nat) (x : Option CapSt) : (s.setCap k x).fresh = s.fresh := rfl
@[simp] theorem State.setCap_tx (k : Nat) (x : Option CapSt) : (s.setCap k x).tx = s.tx := rfl
@[simp] theorem State.setCap_regs (k : Nat) (x : Option CapSt) : (s.setCap k x).regs = s.regs := rfl
@[simp] theorem State.setCap_wide (k : Nat) (x : Option CapSt) : (s.setCap k x).wide = s.wide := rfl
@[simp] theorem State.setCap_reqs (k : Nat) (x : Option CapSt) : (s.setCap k x).reqs = s.reqs := rfl
@[simp] theorem State.setCap_time (k : Nat) (x : Option CapSt) : (s.setCap k x).time = s.time := rfl
@[simp] theorem State.setCap_heads (k : Nat) (x : Option CapSt) : (s.setCap k x).heads = s.heads := rfl
@[simp] theorem State.setCap_probe (k : Nat) (x : Option CapSt) : (s.setCap k x).probe = s.probe := rfl
@[simp] theorem State.setCap_lanes (k : Nat) (x : Option CapSt) : (s.setCap k x).lanes = s.lanes := rfl
@[simp] theorem State.setCap_scheds (k : Nat) (x : Option CapSt) : (s.setCap k x).scheds = s.scheds := rfl
@[simp] theorem State.setCap_tdcs (k : Nat) (x : Option CapSt) : (s.setCap k x).tdcs = s.tdcs := rfl
@[simp] theorem State.setCap_ces (k : Nat) (x : Option CapSt) : (s.setCap k x).ces = s.ces := rfl
@[simp] theorem State.setCap_raman (k : Nat) (x : Option CapSt) : (s.setCap k x).raman = s.raman := rfl
@[simp] theorem State.setCap_dram (k : Nat) (x : Option CapSt) : (s.setCap k x).dram = s.dram := rfl
@[simp] theorem State.setCap_dramOut (k : Nat) (x : Option CapSt) : (s.setCap k x).dramOut = s.dramOut := rfl
@[simp] theorem State.setCap_banks (k : Nat) (x : Option CapSt) : (s.setCap k x).banks = s.banks := rfl
@[simp] theorem State.setCap_mcs (k : Nat) (x : Option CapSt) : (s.setCap k x).mcs = s.mcs := rfl
@[simp] theorem State.setCap_cores (k : Nat) (x : Option CapSt) : (s.setCap k x).cores = s.cores := rfl
@[simp] theorem State.setCap_clusters (k : Nat) (x : Option CapSt) : (s.setCap k x).clusters = s.clusters := rfl
@[simp] theorem State.setCap_chains (k : Nat) (x : Option CapSt) : (s.setCap k x).chains = s.chains := rfl
@[simp] theorem State.setCap_branches (k : Nat) (x : Option CapSt) : (s.setCap k x).branches = s.branches := rfl
@[simp] theorem State.setCap_phis (k : Nat) (x : Option CapSt) : (s.setCap k x).phis = s.phis := rfl
@[simp] theorem State.setCap_bands (k : Nat) (x : Option CapSt) : (s.setCap k x).bands = s.bands := rfl
@[simp] theorem State.setCap_fuses (k : Nat) (x : Option CapSt) : (s.setCap k x).fuses = s.fuses := rfl
@[simp] theorem State.setCap_coils (k : Nat) (x : Option CapSt) : (s.setCap k x).coils = s.coils := rfl
@[simp] theorem State.setCap_frames (k : Nat) (x : Option CapSt) : (s.setCap k x).frames = s.frames := rfl
@[simp] theorem State.setCap_sram (k : Nat) (x : Option CapSt) : (s.setCap k x).sram = s.sram := rfl
@[simp] theorem State.setCap_cmem (k : Nat) (x : Option CapSt) : (s.setCap k x).cmem = s.cmem := rfl
@[simp] theorem State.setCap_imem (k : Nat) (x : Option CapSt) : (s.setCap k x).imem = s.imem := rfl
@[simp] theorem State.setCap_fabric (k : Nat) (x : Option CapSt) : (s.setCap k x).fabric = s.fabric := rfl
@[simp] theorem State.setCap_returning (k : Nat) (x : Option CapSt) : (s.setCap k x).returning = s.returning := rfl
@[simp] theorem State.setCap_zones (k : Nat) (x : Option CapSt) : (s.setCap k x).zones = s.zones := rfl
@[simp] theorem State.setCap_zoneSts (k : Nat) (x : Option CapSt) : (s.setCap k x).zoneSts = s.zoneSts := rfl
@[simp] theorem State.setCap_evq (k : Nat) (x : Option CapSt) : (s.setCap k x).evq = s.evq := rfl
@[simp] theorem State.setCap_evLost (k : Nat) (x : Option CapSt) : (s.setCap k x).evLost = s.evLost := rfl
@[simp] theorem State.setCap_evSeq (k : Nat) (x : Option CapSt) : (s.setCap k x).evSeq = s.evSeq := rfl
@[simp] theorem State.setCap_selfWrites (k : Nat) (x : Option CapSt) : (s.setCap k x).selfWrites = s.selfWrites := rfl
@[simp] theorem State.setCap_tpdos (k : Nat) (x : Option CapSt) : (s.setCap k x).tpdos = s.tpdos := rfl
@[simp] theorem State.setCap_od (k : Nat) (x : Option CapSt) : (s.setCap k x).od = s.od := rfl
@[simp] theorem State.setCap_odBytes (k : Nat) (x : Option CapSt) : (s.setCap k x).odBytes = s.odBytes := rfl
@[simp] theorem State.setCap_stalled (k : Nat) (x : Option CapSt) : (s.setCap k x).stalled = s.stalled := rfl
@[simp] theorem State.setCap_vecs (k : Nat) (x : Option CapSt) : (s.setCap k x).vecs = s.vecs := rfl
@[simp] theorem State.setCap_queues (k : Nat) (x : Option CapSt) : (s.setCap k x).queues = s.queues := rfl
@[simp] theorem State.setCap_msix (k : Nat) (x : Option CapSt) : (s.setCap k x).msix = s.msix := rfl
@[simp] theorem State.setCap_sessions (k : Nat) (x : Option CapSt) : (s.setCap k x).sessions = s.sessions := rfl
@[simp] theorem State.setCap_funcMask (k : Nat) (x : Option CapSt) : (s.setCap k x).funcMask = s.funcMask := rfl
@[simp] theorem State.setCap_dmas (k : Nat) (x : Option CapSt) : (s.setCap k x).dmas = s.dmas := rfl
@[simp] theorem State.setCap_dmaLast (k : Nat) (x : Option CapSt) : (s.setCap k x).dmaLast = s.dmaLast := rfl
@[simp] theorem State.setCap_descs (k : Nat) (x : Option CapSt) : (s.setCap k x).descs = s.descs := rfl
@[simp] theorem State.setCap_lamps (k : Nat) (x : Option CapSt) : (s.setCap k x).lamps = s.lamps := rfl
@[simp] theorem State.setCap_groups (k : Nat) (x : Option CapSt) : (s.setCap k x).groups = s.groups := rfl
@[simp] theorem State.setCap_lampOuts (k : Nat) (x : Option CapSt) : (s.setCap k x).lampOuts = s.lampOuts := rfl
@[simp] theorem State.setCap_thAt (k : Nat) (x : Option CapSt) : (s.setCap k x).thAt = s.thAt := rfl
@[simp] theorem State.setCap_padc (k : Nat) (x : Option CapSt) : (s.setCap k x).padc = s.padc := rfl
@[simp] theorem State.setCap_hadc (k : Nat) (x : Option CapSt) : (s.setCap k x).hadc = s.hadc := rfl
@[simp] theorem State.setCap_loopOuts (k : Nat) (x : Option CapSt) : (s.setCap k x).loopOuts = s.loopOuts := rfl
@[simp] theorem State.setCap_quince (k : Nat) (x : Option CapSt) : (s.setCap k x).quince = s.quince := rfl
@[simp] theorem State.setCap_net (k : Nat) (x : Option CapSt) : (s.setCap k x).net = s.net := rfl
@[simp] theorem State.setCap_cans (k : Nat) (x : Option CapSt) : (s.setCap k x).cans = s.cans := rfl
@[simp] theorem State.setCap_ptps (k : Nat) (x : Option CapSt) : (s.setCap k x).ptps = s.ptps := rfl
@[simp] theorem State.setCap_nvm (k : Nat) (x : Option CapSt) : (s.setCap k x).nvm = s.nvm := rfl
@[simp] theorem State.setCap_boot (k : Nat) (x : Option CapSt) : (s.setCap k x).boot = s.boot := rfl

@[simp] theorem State.setTpdo_pending (k : Nat) (x : TpdoSt) : (s.setTpdo k x).pending = s.pending := rfl
@[simp] theorem State.setTpdo_fresh (k : Nat) (x : TpdoSt) : (s.setTpdo k x).fresh = s.fresh := rfl
@[simp] theorem State.setTpdo_tx (k : Nat) (x : TpdoSt) : (s.setTpdo k x).tx = s.tx := rfl
@[simp] theorem State.setTpdo_regs (k : Nat) (x : TpdoSt) : (s.setTpdo k x).regs = s.regs := rfl
@[simp] theorem State.setTpdo_wide (k : Nat) (x : TpdoSt) : (s.setTpdo k x).wide = s.wide := rfl
@[simp] theorem State.setTpdo_reqs (k : Nat) (x : TpdoSt) : (s.setTpdo k x).reqs = s.reqs := rfl
@[simp] theorem State.setTpdo_time (k : Nat) (x : TpdoSt) : (s.setTpdo k x).time = s.time := rfl
@[simp] theorem State.setTpdo_heads (k : Nat) (x : TpdoSt) : (s.setTpdo k x).heads = s.heads := rfl
@[simp] theorem State.setTpdo_probe (k : Nat) (x : TpdoSt) : (s.setTpdo k x).probe = s.probe := rfl
@[simp] theorem State.setTpdo_lanes (k : Nat) (x : TpdoSt) : (s.setTpdo k x).lanes = s.lanes := rfl
@[simp] theorem State.setTpdo_scheds (k : Nat) (x : TpdoSt) : (s.setTpdo k x).scheds = s.scheds := rfl
@[simp] theorem State.setTpdo_tdcs (k : Nat) (x : TpdoSt) : (s.setTpdo k x).tdcs = s.tdcs := rfl
@[simp] theorem State.setTpdo_ces (k : Nat) (x : TpdoSt) : (s.setTpdo k x).ces = s.ces := rfl
@[simp] theorem State.setTpdo_raman (k : Nat) (x : TpdoSt) : (s.setTpdo k x).raman = s.raman := rfl
@[simp] theorem State.setTpdo_dram (k : Nat) (x : TpdoSt) : (s.setTpdo k x).dram = s.dram := rfl
@[simp] theorem State.setTpdo_dramOut (k : Nat) (x : TpdoSt) : (s.setTpdo k x).dramOut = s.dramOut := rfl
@[simp] theorem State.setTpdo_banks (k : Nat) (x : TpdoSt) : (s.setTpdo k x).banks = s.banks := rfl
@[simp] theorem State.setTpdo_mcs (k : Nat) (x : TpdoSt) : (s.setTpdo k x).mcs = s.mcs := rfl
@[simp] theorem State.setTpdo_cores (k : Nat) (x : TpdoSt) : (s.setTpdo k x).cores = s.cores := rfl
@[simp] theorem State.setTpdo_clusters (k : Nat) (x : TpdoSt) : (s.setTpdo k x).clusters = s.clusters := rfl
@[simp] theorem State.setTpdo_chains (k : Nat) (x : TpdoSt) : (s.setTpdo k x).chains = s.chains := rfl
@[simp] theorem State.setTpdo_branches (k : Nat) (x : TpdoSt) : (s.setTpdo k x).branches = s.branches := rfl
@[simp] theorem State.setTpdo_phis (k : Nat) (x : TpdoSt) : (s.setTpdo k x).phis = s.phis := rfl
@[simp] theorem State.setTpdo_bands (k : Nat) (x : TpdoSt) : (s.setTpdo k x).bands = s.bands := rfl
@[simp] theorem State.setTpdo_fuses (k : Nat) (x : TpdoSt) : (s.setTpdo k x).fuses = s.fuses := rfl
@[simp] theorem State.setTpdo_coils (k : Nat) (x : TpdoSt) : (s.setTpdo k x).coils = s.coils := rfl
@[simp] theorem State.setTpdo_frames (k : Nat) (x : TpdoSt) : (s.setTpdo k x).frames = s.frames := rfl
@[simp] theorem State.setTpdo_sram (k : Nat) (x : TpdoSt) : (s.setTpdo k x).sram = s.sram := rfl
@[simp] theorem State.setTpdo_cmem (k : Nat) (x : TpdoSt) : (s.setTpdo k x).cmem = s.cmem := rfl
@[simp] theorem State.setTpdo_imem (k : Nat) (x : TpdoSt) : (s.setTpdo k x).imem = s.imem := rfl
@[simp] theorem State.setTpdo_fabric (k : Nat) (x : TpdoSt) : (s.setTpdo k x).fabric = s.fabric := rfl
@[simp] theorem State.setTpdo_returning (k : Nat) (x : TpdoSt) : (s.setTpdo k x).returning = s.returning := rfl
@[simp] theorem State.setTpdo_zones (k : Nat) (x : TpdoSt) : (s.setTpdo k x).zones = s.zones := rfl
@[simp] theorem State.setTpdo_zoneSts (k : Nat) (x : TpdoSt) : (s.setTpdo k x).zoneSts = s.zoneSts := rfl
@[simp] theorem State.setTpdo_evq (k : Nat) (x : TpdoSt) : (s.setTpdo k x).evq = s.evq := rfl
@[simp] theorem State.setTpdo_evLost (k : Nat) (x : TpdoSt) : (s.setTpdo k x).evLost = s.evLost := rfl
@[simp] theorem State.setTpdo_evSeq (k : Nat) (x : TpdoSt) : (s.setTpdo k x).evSeq = s.evSeq := rfl
@[simp] theorem State.setTpdo_caps (k : Nat) (x : TpdoSt) : (s.setTpdo k x).caps = s.caps := rfl
@[simp] theorem State.setTpdo_selfWrites (k : Nat) (x : TpdoSt) : (s.setTpdo k x).selfWrites = s.selfWrites := rfl
@[simp] theorem State.setTpdo_od (k : Nat) (x : TpdoSt) : (s.setTpdo k x).od = s.od := rfl
@[simp] theorem State.setTpdo_odBytes (k : Nat) (x : TpdoSt) : (s.setTpdo k x).odBytes = s.odBytes := rfl
@[simp] theorem State.setTpdo_stalled (k : Nat) (x : TpdoSt) : (s.setTpdo k x).stalled = s.stalled := rfl
@[simp] theorem State.setTpdo_vecs (k : Nat) (x : TpdoSt) : (s.setTpdo k x).vecs = s.vecs := rfl
@[simp] theorem State.setTpdo_queues (k : Nat) (x : TpdoSt) : (s.setTpdo k x).queues = s.queues := rfl
@[simp] theorem State.setTpdo_msix (k : Nat) (x : TpdoSt) : (s.setTpdo k x).msix = s.msix := rfl
@[simp] theorem State.setTpdo_sessions (k : Nat) (x : TpdoSt) : (s.setTpdo k x).sessions = s.sessions := rfl
@[simp] theorem State.setTpdo_funcMask (k : Nat) (x : TpdoSt) : (s.setTpdo k x).funcMask = s.funcMask := rfl
@[simp] theorem State.setTpdo_dmas (k : Nat) (x : TpdoSt) : (s.setTpdo k x).dmas = s.dmas := rfl
@[simp] theorem State.setTpdo_dmaLast (k : Nat) (x : TpdoSt) : (s.setTpdo k x).dmaLast = s.dmaLast := rfl
@[simp] theorem State.setTpdo_descs (k : Nat) (x : TpdoSt) : (s.setTpdo k x).descs = s.descs := rfl
@[simp] theorem State.setTpdo_lamps (k : Nat) (x : TpdoSt) : (s.setTpdo k x).lamps = s.lamps := rfl
@[simp] theorem State.setTpdo_groups (k : Nat) (x : TpdoSt) : (s.setTpdo k x).groups = s.groups := rfl
@[simp] theorem State.setTpdo_lampOuts (k : Nat) (x : TpdoSt) : (s.setTpdo k x).lampOuts = s.lampOuts := rfl
@[simp] theorem State.setTpdo_thAt (k : Nat) (x : TpdoSt) : (s.setTpdo k x).thAt = s.thAt := rfl
@[simp] theorem State.setTpdo_padc (k : Nat) (x : TpdoSt) : (s.setTpdo k x).padc = s.padc := rfl
@[simp] theorem State.setTpdo_hadc (k : Nat) (x : TpdoSt) : (s.setTpdo k x).hadc = s.hadc := rfl
@[simp] theorem State.setTpdo_loopOuts (k : Nat) (x : TpdoSt) : (s.setTpdo k x).loopOuts = s.loopOuts := rfl
@[simp] theorem State.setTpdo_quince (k : Nat) (x : TpdoSt) : (s.setTpdo k x).quince = s.quince := rfl
@[simp] theorem State.setTpdo_net (k : Nat) (x : TpdoSt) : (s.setTpdo k x).net = s.net := rfl
@[simp] theorem State.setTpdo_cans (k : Nat) (x : TpdoSt) : (s.setTpdo k x).cans = s.cans := rfl
@[simp] theorem State.setTpdo_ptps (k : Nat) (x : TpdoSt) : (s.setTpdo k x).ptps = s.ptps := rfl
@[simp] theorem State.setTpdo_nvm (k : Nat) (x : TpdoSt) : (s.setTpdo k x).nvm = s.nvm := rfl
@[simp] theorem State.setTpdo_boot (k : Nat) (x : TpdoSt) : (s.setTpdo k x).boot = s.boot := rfl

@[simp] theorem State.setDma_pending (k : Nat) (x : DmaSt) : (s.setDma k x).pending = s.pending := rfl
@[simp] theorem State.setDma_fresh (k : Nat) (x : DmaSt) : (s.setDma k x).fresh = s.fresh := rfl
@[simp] theorem State.setDma_tx (k : Nat) (x : DmaSt) : (s.setDma k x).tx = s.tx := rfl
@[simp] theorem State.setDma_regs (k : Nat) (x : DmaSt) : (s.setDma k x).regs = s.regs := rfl
@[simp] theorem State.setDma_wide (k : Nat) (x : DmaSt) : (s.setDma k x).wide = s.wide := rfl
@[simp] theorem State.setDma_reqs (k : Nat) (x : DmaSt) : (s.setDma k x).reqs = s.reqs := rfl
@[simp] theorem State.setDma_time (k : Nat) (x : DmaSt) : (s.setDma k x).time = s.time := rfl
@[simp] theorem State.setDma_heads (k : Nat) (x : DmaSt) : (s.setDma k x).heads = s.heads := rfl
@[simp] theorem State.setDma_probe (k : Nat) (x : DmaSt) : (s.setDma k x).probe = s.probe := rfl
@[simp] theorem State.setDma_lanes (k : Nat) (x : DmaSt) : (s.setDma k x).lanes = s.lanes := rfl
@[simp] theorem State.setDma_scheds (k : Nat) (x : DmaSt) : (s.setDma k x).scheds = s.scheds := rfl
@[simp] theorem State.setDma_tdcs (k : Nat) (x : DmaSt) : (s.setDma k x).tdcs = s.tdcs := rfl
@[simp] theorem State.setDma_ces (k : Nat) (x : DmaSt) : (s.setDma k x).ces = s.ces := rfl
@[simp] theorem State.setDma_raman (k : Nat) (x : DmaSt) : (s.setDma k x).raman = s.raman := rfl
@[simp] theorem State.setDma_dram (k : Nat) (x : DmaSt) : (s.setDma k x).dram = s.dram := rfl
@[simp] theorem State.setDma_dramOut (k : Nat) (x : DmaSt) : (s.setDma k x).dramOut = s.dramOut := rfl
@[simp] theorem State.setDma_banks (k : Nat) (x : DmaSt) : (s.setDma k x).banks = s.banks := rfl
@[simp] theorem State.setDma_mcs (k : Nat) (x : DmaSt) : (s.setDma k x).mcs = s.mcs := rfl
@[simp] theorem State.setDma_cores (k : Nat) (x : DmaSt) : (s.setDma k x).cores = s.cores := rfl
@[simp] theorem State.setDma_clusters (k : Nat) (x : DmaSt) : (s.setDma k x).clusters = s.clusters := rfl
@[simp] theorem State.setDma_chains (k : Nat) (x : DmaSt) : (s.setDma k x).chains = s.chains := rfl
@[simp] theorem State.setDma_branches (k : Nat) (x : DmaSt) : (s.setDma k x).branches = s.branches := rfl
@[simp] theorem State.setDma_phis (k : Nat) (x : DmaSt) : (s.setDma k x).phis = s.phis := rfl
@[simp] theorem State.setDma_bands (k : Nat) (x : DmaSt) : (s.setDma k x).bands = s.bands := rfl
@[simp] theorem State.setDma_fuses (k : Nat) (x : DmaSt) : (s.setDma k x).fuses = s.fuses := rfl
@[simp] theorem State.setDma_coils (k : Nat) (x : DmaSt) : (s.setDma k x).coils = s.coils := rfl
@[simp] theorem State.setDma_frames (k : Nat) (x : DmaSt) : (s.setDma k x).frames = s.frames := rfl
@[simp] theorem State.setDma_sram (k : Nat) (x : DmaSt) : (s.setDma k x).sram = s.sram := rfl
@[simp] theorem State.setDma_cmem (k : Nat) (x : DmaSt) : (s.setDma k x).cmem = s.cmem := rfl
@[simp] theorem State.setDma_imem (k : Nat) (x : DmaSt) : (s.setDma k x).imem = s.imem := rfl
@[simp] theorem State.setDma_fabric (k : Nat) (x : DmaSt) : (s.setDma k x).fabric = s.fabric := rfl
@[simp] theorem State.setDma_returning (k : Nat) (x : DmaSt) : (s.setDma k x).returning = s.returning := rfl
@[simp] theorem State.setDma_zones (k : Nat) (x : DmaSt) : (s.setDma k x).zones = s.zones := rfl
@[simp] theorem State.setDma_zoneSts (k : Nat) (x : DmaSt) : (s.setDma k x).zoneSts = s.zoneSts := rfl
@[simp] theorem State.setDma_evq (k : Nat) (x : DmaSt) : (s.setDma k x).evq = s.evq := rfl
@[simp] theorem State.setDma_evLost (k : Nat) (x : DmaSt) : (s.setDma k x).evLost = s.evLost := rfl
@[simp] theorem State.setDma_evSeq (k : Nat) (x : DmaSt) : (s.setDma k x).evSeq = s.evSeq := rfl
@[simp] theorem State.setDma_caps (k : Nat) (x : DmaSt) : (s.setDma k x).caps = s.caps := rfl
@[simp] theorem State.setDma_selfWrites (k : Nat) (x : DmaSt) : (s.setDma k x).selfWrites = s.selfWrites := rfl
@[simp] theorem State.setDma_tpdos (k : Nat) (x : DmaSt) : (s.setDma k x).tpdos = s.tpdos := rfl
@[simp] theorem State.setDma_od (k : Nat) (x : DmaSt) : (s.setDma k x).od = s.od := rfl
@[simp] theorem State.setDma_odBytes (k : Nat) (x : DmaSt) : (s.setDma k x).odBytes = s.odBytes := rfl
@[simp] theorem State.setDma_stalled (k : Nat) (x : DmaSt) : (s.setDma k x).stalled = s.stalled := rfl
@[simp] theorem State.setDma_vecs (k : Nat) (x : DmaSt) : (s.setDma k x).vecs = s.vecs := rfl
@[simp] theorem State.setDma_queues (k : Nat) (x : DmaSt) : (s.setDma k x).queues = s.queues := rfl
@[simp] theorem State.setDma_msix (k : Nat) (x : DmaSt) : (s.setDma k x).msix = s.msix := rfl
@[simp] theorem State.setDma_sessions (k : Nat) (x : DmaSt) : (s.setDma k x).sessions = s.sessions := rfl
@[simp] theorem State.setDma_funcMask (k : Nat) (x : DmaSt) : (s.setDma k x).funcMask = s.funcMask := rfl
@[simp] theorem State.setDma_dmaLast (k : Nat) (x : DmaSt) : (s.setDma k x).dmaLast = s.dmaLast := rfl
@[simp] theorem State.setDma_descs (k : Nat) (x : DmaSt) : (s.setDma k x).descs = s.descs := rfl
@[simp] theorem State.setDma_lamps (k : Nat) (x : DmaSt) : (s.setDma k x).lamps = s.lamps := rfl
@[simp] theorem State.setDma_groups (k : Nat) (x : DmaSt) : (s.setDma k x).groups = s.groups := rfl
@[simp] theorem State.setDma_lampOuts (k : Nat) (x : DmaSt) : (s.setDma k x).lampOuts = s.lampOuts := rfl
@[simp] theorem State.setDma_thAt (k : Nat) (x : DmaSt) : (s.setDma k x).thAt = s.thAt := rfl
@[simp] theorem State.setDma_padc (k : Nat) (x : DmaSt) : (s.setDma k x).padc = s.padc := rfl
@[simp] theorem State.setDma_hadc (k : Nat) (x : DmaSt) : (s.setDma k x).hadc = s.hadc := rfl
@[simp] theorem State.setDma_loopOuts (k : Nat) (x : DmaSt) : (s.setDma k x).loopOuts = s.loopOuts := rfl
@[simp] theorem State.setDma_quince (k : Nat) (x : DmaSt) : (s.setDma k x).quince = s.quince := rfl
@[simp] theorem State.setDma_net (k : Nat) (x : DmaSt) : (s.setDma k x).net = s.net := rfl
@[simp] theorem State.setDma_cans (k : Nat) (x : DmaSt) : (s.setDma k x).cans = s.cans := rfl
@[simp] theorem State.setDma_ptps (k : Nat) (x : DmaSt) : (s.setDma k x).ptps = s.ptps := rfl
@[simp] theorem State.setDma_nvm (k : Nat) (x : DmaSt) : (s.setDma k x).nvm = s.nvm := rfl
@[simp] theorem State.setDma_boot (k : Nat) (x : DmaSt) : (s.setDma k x).boot = s.boot := rfl

@[simp] theorem State.setLamp_pending (k : Nat) (x : LampSt) : (s.setLamp k x).pending = s.pending := rfl
@[simp] theorem State.setLamp_fresh (k : Nat) (x : LampSt) : (s.setLamp k x).fresh = s.fresh := rfl
@[simp] theorem State.setLamp_tx (k : Nat) (x : LampSt) : (s.setLamp k x).tx = s.tx := rfl
@[simp] theorem State.setLamp_regs (k : Nat) (x : LampSt) : (s.setLamp k x).regs = s.regs := rfl
@[simp] theorem State.setLamp_wide (k : Nat) (x : LampSt) : (s.setLamp k x).wide = s.wide := rfl
@[simp] theorem State.setLamp_reqs (k : Nat) (x : LampSt) : (s.setLamp k x).reqs = s.reqs := rfl
@[simp] theorem State.setLamp_time (k : Nat) (x : LampSt) : (s.setLamp k x).time = s.time := rfl
@[simp] theorem State.setLamp_heads (k : Nat) (x : LampSt) : (s.setLamp k x).heads = s.heads := rfl
@[simp] theorem State.setLamp_probe (k : Nat) (x : LampSt) : (s.setLamp k x).probe = s.probe := rfl
@[simp] theorem State.setLamp_lanes (k : Nat) (x : LampSt) : (s.setLamp k x).lanes = s.lanes := rfl
@[simp] theorem State.setLamp_scheds (k : Nat) (x : LampSt) : (s.setLamp k x).scheds = s.scheds := rfl
@[simp] theorem State.setLamp_tdcs (k : Nat) (x : LampSt) : (s.setLamp k x).tdcs = s.tdcs := rfl
@[simp] theorem State.setLamp_ces (k : Nat) (x : LampSt) : (s.setLamp k x).ces = s.ces := rfl
@[simp] theorem State.setLamp_raman (k : Nat) (x : LampSt) : (s.setLamp k x).raman = s.raman := rfl
@[simp] theorem State.setLamp_dram (k : Nat) (x : LampSt) : (s.setLamp k x).dram = s.dram := rfl
@[simp] theorem State.setLamp_dramOut (k : Nat) (x : LampSt) : (s.setLamp k x).dramOut = s.dramOut := rfl
@[simp] theorem State.setLamp_banks (k : Nat) (x : LampSt) : (s.setLamp k x).banks = s.banks := rfl
@[simp] theorem State.setLamp_mcs (k : Nat) (x : LampSt) : (s.setLamp k x).mcs = s.mcs := rfl
@[simp] theorem State.setLamp_cores (k : Nat) (x : LampSt) : (s.setLamp k x).cores = s.cores := rfl
@[simp] theorem State.setLamp_clusters (k : Nat) (x : LampSt) : (s.setLamp k x).clusters = s.clusters := rfl
@[simp] theorem State.setLamp_chains (k : Nat) (x : LampSt) : (s.setLamp k x).chains = s.chains := rfl
@[simp] theorem State.setLamp_branches (k : Nat) (x : LampSt) : (s.setLamp k x).branches = s.branches := rfl
@[simp] theorem State.setLamp_phis (k : Nat) (x : LampSt) : (s.setLamp k x).phis = s.phis := rfl
@[simp] theorem State.setLamp_bands (k : Nat) (x : LampSt) : (s.setLamp k x).bands = s.bands := rfl
@[simp] theorem State.setLamp_fuses (k : Nat) (x : LampSt) : (s.setLamp k x).fuses = s.fuses := rfl
@[simp] theorem State.setLamp_coils (k : Nat) (x : LampSt) : (s.setLamp k x).coils = s.coils := rfl
@[simp] theorem State.setLamp_frames (k : Nat) (x : LampSt) : (s.setLamp k x).frames = s.frames := rfl
@[simp] theorem State.setLamp_sram (k : Nat) (x : LampSt) : (s.setLamp k x).sram = s.sram := rfl
@[simp] theorem State.setLamp_cmem (k : Nat) (x : LampSt) : (s.setLamp k x).cmem = s.cmem := rfl
@[simp] theorem State.setLamp_imem (k : Nat) (x : LampSt) : (s.setLamp k x).imem = s.imem := rfl
@[simp] theorem State.setLamp_fabric (k : Nat) (x : LampSt) : (s.setLamp k x).fabric = s.fabric := rfl
@[simp] theorem State.setLamp_returning (k : Nat) (x : LampSt) : (s.setLamp k x).returning = s.returning := rfl
@[simp] theorem State.setLamp_zones (k : Nat) (x : LampSt) : (s.setLamp k x).zones = s.zones := rfl
@[simp] theorem State.setLamp_zoneSts (k : Nat) (x : LampSt) : (s.setLamp k x).zoneSts = s.zoneSts := rfl
@[simp] theorem State.setLamp_evq (k : Nat) (x : LampSt) : (s.setLamp k x).evq = s.evq := rfl
@[simp] theorem State.setLamp_evLost (k : Nat) (x : LampSt) : (s.setLamp k x).evLost = s.evLost := rfl
@[simp] theorem State.setLamp_evSeq (k : Nat) (x : LampSt) : (s.setLamp k x).evSeq = s.evSeq := rfl
@[simp] theorem State.setLamp_caps (k : Nat) (x : LampSt) : (s.setLamp k x).caps = s.caps := rfl
@[simp] theorem State.setLamp_selfWrites (k : Nat) (x : LampSt) : (s.setLamp k x).selfWrites = s.selfWrites := rfl
@[simp] theorem State.setLamp_tpdos (k : Nat) (x : LampSt) : (s.setLamp k x).tpdos = s.tpdos := rfl
@[simp] theorem State.setLamp_od (k : Nat) (x : LampSt) : (s.setLamp k x).od = s.od := rfl
@[simp] theorem State.setLamp_odBytes (k : Nat) (x : LampSt) : (s.setLamp k x).odBytes = s.odBytes := rfl
@[simp] theorem State.setLamp_stalled (k : Nat) (x : LampSt) : (s.setLamp k x).stalled = s.stalled := rfl
@[simp] theorem State.setLamp_vecs (k : Nat) (x : LampSt) : (s.setLamp k x).vecs = s.vecs := rfl
@[simp] theorem State.setLamp_queues (k : Nat) (x : LampSt) : (s.setLamp k x).queues = s.queues := rfl
@[simp] theorem State.setLamp_msix (k : Nat) (x : LampSt) : (s.setLamp k x).msix = s.msix := rfl
@[simp] theorem State.setLamp_sessions (k : Nat) (x : LampSt) : (s.setLamp k x).sessions = s.sessions := rfl
@[simp] theorem State.setLamp_funcMask (k : Nat) (x : LampSt) : (s.setLamp k x).funcMask = s.funcMask := rfl
@[simp] theorem State.setLamp_dmas (k : Nat) (x : LampSt) : (s.setLamp k x).dmas = s.dmas := rfl
@[simp] theorem State.setLamp_dmaLast (k : Nat) (x : LampSt) : (s.setLamp k x).dmaLast = s.dmaLast := rfl
@[simp] theorem State.setLamp_descs (k : Nat) (x : LampSt) : (s.setLamp k x).descs = s.descs := rfl
@[simp] theorem State.setLamp_groups (k : Nat) (x : LampSt) : (s.setLamp k x).groups = s.groups := rfl
@[simp] theorem State.setLamp_lampOuts (k : Nat) (x : LampSt) : (s.setLamp k x).lampOuts = s.lampOuts := rfl
@[simp] theorem State.setLamp_thAt (k : Nat) (x : LampSt) : (s.setLamp k x).thAt = s.thAt := rfl
@[simp] theorem State.setLamp_padc (k : Nat) (x : LampSt) : (s.setLamp k x).padc = s.padc := rfl
@[simp] theorem State.setLamp_hadc (k : Nat) (x : LampSt) : (s.setLamp k x).hadc = s.hadc := rfl
@[simp] theorem State.setLamp_loopOuts (k : Nat) (x : LampSt) : (s.setLamp k x).loopOuts = s.loopOuts := rfl
@[simp] theorem State.setLamp_quince (k : Nat) (x : LampSt) : (s.setLamp k x).quince = s.quince := rfl
@[simp] theorem State.setLamp_net (k : Nat) (x : LampSt) : (s.setLamp k x).net = s.net := rfl
@[simp] theorem State.setLamp_cans (k : Nat) (x : LampSt) : (s.setLamp k x).cans = s.cans := rfl
@[simp] theorem State.setLamp_ptps (k : Nat) (x : LampSt) : (s.setLamp k x).ptps = s.ptps := rfl
@[simp] theorem State.setLamp_nvm (k : Nat) (x : LampSt) : (s.setLamp k x).nvm = s.nvm := rfl
@[simp] theorem State.setLamp_boot (k : Nat) (x : LampSt) : (s.setLamp k x).boot = s.boot := rfl

@[simp] theorem State.setLoopOut_pending (k : Nat) (x : LoopOutSt) : (s.setLoopOut k x).pending = s.pending := rfl
@[simp] theorem State.setLoopOut_fresh (k : Nat) (x : LoopOutSt) : (s.setLoopOut k x).fresh = s.fresh := rfl
@[simp] theorem State.setLoopOut_tx (k : Nat) (x : LoopOutSt) : (s.setLoopOut k x).tx = s.tx := rfl
@[simp] theorem State.setLoopOut_regs (k : Nat) (x : LoopOutSt) : (s.setLoopOut k x).regs = s.regs := rfl
@[simp] theorem State.setLoopOut_wide (k : Nat) (x : LoopOutSt) : (s.setLoopOut k x).wide = s.wide := rfl
@[simp] theorem State.setLoopOut_reqs (k : Nat) (x : LoopOutSt) : (s.setLoopOut k x).reqs = s.reqs := rfl
@[simp] theorem State.setLoopOut_time (k : Nat) (x : LoopOutSt) : (s.setLoopOut k x).time = s.time := rfl
@[simp] theorem State.setLoopOut_heads (k : Nat) (x : LoopOutSt) : (s.setLoopOut k x).heads = s.heads := rfl
@[simp] theorem State.setLoopOut_probe (k : Nat) (x : LoopOutSt) : (s.setLoopOut k x).probe = s.probe := rfl
@[simp] theorem State.setLoopOut_lanes (k : Nat) (x : LoopOutSt) : (s.setLoopOut k x).lanes = s.lanes := rfl
@[simp] theorem State.setLoopOut_scheds (k : Nat) (x : LoopOutSt) : (s.setLoopOut k x).scheds = s.scheds := rfl
@[simp] theorem State.setLoopOut_tdcs (k : Nat) (x : LoopOutSt) : (s.setLoopOut k x).tdcs = s.tdcs := rfl
@[simp] theorem State.setLoopOut_ces (k : Nat) (x : LoopOutSt) : (s.setLoopOut k x).ces = s.ces := rfl
@[simp] theorem State.setLoopOut_raman (k : Nat) (x : LoopOutSt) : (s.setLoopOut k x).raman = s.raman := rfl
@[simp] theorem State.setLoopOut_dram (k : Nat) (x : LoopOutSt) : (s.setLoopOut k x).dram = s.dram := rfl
@[simp] theorem State.setLoopOut_dramOut (k : Nat) (x : LoopOutSt) : (s.setLoopOut k x).dramOut = s.dramOut := rfl
@[simp] theorem State.setLoopOut_banks (k : Nat) (x : LoopOutSt) : (s.setLoopOut k x).banks = s.banks := rfl
@[simp] theorem State.setLoopOut_mcs (k : Nat) (x : LoopOutSt) : (s.setLoopOut k x).mcs = s.mcs := rfl
@[simp] theorem State.setLoopOut_cores (k : Nat) (x : LoopOutSt) : (s.setLoopOut k x).cores = s.cores := rfl
@[simp] theorem State.setLoopOut_clusters (k : Nat) (x : LoopOutSt) : (s.setLoopOut k x).clusters = s.clusters := rfl
@[simp] theorem State.setLoopOut_chains (k : Nat) (x : LoopOutSt) : (s.setLoopOut k x).chains = s.chains := rfl
@[simp] theorem State.setLoopOut_branches (k : Nat) (x : LoopOutSt) : (s.setLoopOut k x).branches = s.branches := rfl
@[simp] theorem State.setLoopOut_phis (k : Nat) (x : LoopOutSt) : (s.setLoopOut k x).phis = s.phis := rfl
@[simp] theorem State.setLoopOut_bands (k : Nat) (x : LoopOutSt) : (s.setLoopOut k x).bands = s.bands := rfl
@[simp] theorem State.setLoopOut_fuses (k : Nat) (x : LoopOutSt) : (s.setLoopOut k x).fuses = s.fuses := rfl
@[simp] theorem State.setLoopOut_coils (k : Nat) (x : LoopOutSt) : (s.setLoopOut k x).coils = s.coils := rfl
@[simp] theorem State.setLoopOut_frames (k : Nat) (x : LoopOutSt) : (s.setLoopOut k x).frames = s.frames := rfl
@[simp] theorem State.setLoopOut_sram (k : Nat) (x : LoopOutSt) : (s.setLoopOut k x).sram = s.sram := rfl
@[simp] theorem State.setLoopOut_cmem (k : Nat) (x : LoopOutSt) : (s.setLoopOut k x).cmem = s.cmem := rfl
@[simp] theorem State.setLoopOut_imem (k : Nat) (x : LoopOutSt) : (s.setLoopOut k x).imem = s.imem := rfl
@[simp] theorem State.setLoopOut_fabric (k : Nat) (x : LoopOutSt) : (s.setLoopOut k x).fabric = s.fabric := rfl
@[simp] theorem State.setLoopOut_returning (k : Nat) (x : LoopOutSt) : (s.setLoopOut k x).returning = s.returning := rfl
@[simp] theorem State.setLoopOut_zones (k : Nat) (x : LoopOutSt) : (s.setLoopOut k x).zones = s.zones := rfl
@[simp] theorem State.setLoopOut_zoneSts (k : Nat) (x : LoopOutSt) : (s.setLoopOut k x).zoneSts = s.zoneSts := rfl
@[simp] theorem State.setLoopOut_evq (k : Nat) (x : LoopOutSt) : (s.setLoopOut k x).evq = s.evq := rfl
@[simp] theorem State.setLoopOut_evLost (k : Nat) (x : LoopOutSt) : (s.setLoopOut k x).evLost = s.evLost := rfl
@[simp] theorem State.setLoopOut_evSeq (k : Nat) (x : LoopOutSt) : (s.setLoopOut k x).evSeq = s.evSeq := rfl
@[simp] theorem State.setLoopOut_caps (k : Nat) (x : LoopOutSt) : (s.setLoopOut k x).caps = s.caps := rfl
@[simp] theorem State.setLoopOut_selfWrites (k : Nat) (x : LoopOutSt) : (s.setLoopOut k x).selfWrites = s.selfWrites := rfl
@[simp] theorem State.setLoopOut_tpdos (k : Nat) (x : LoopOutSt) : (s.setLoopOut k x).tpdos = s.tpdos := rfl
@[simp] theorem State.setLoopOut_od (k : Nat) (x : LoopOutSt) : (s.setLoopOut k x).od = s.od := rfl
@[simp] theorem State.setLoopOut_odBytes (k : Nat) (x : LoopOutSt) : (s.setLoopOut k x).odBytes = s.odBytes := rfl
@[simp] theorem State.setLoopOut_stalled (k : Nat) (x : LoopOutSt) : (s.setLoopOut k x).stalled = s.stalled := rfl
@[simp] theorem State.setLoopOut_vecs (k : Nat) (x : LoopOutSt) : (s.setLoopOut k x).vecs = s.vecs := rfl
@[simp] theorem State.setLoopOut_queues (k : Nat) (x : LoopOutSt) : (s.setLoopOut k x).queues = s.queues := rfl
@[simp] theorem State.setLoopOut_msix (k : Nat) (x : LoopOutSt) : (s.setLoopOut k x).msix = s.msix := rfl
@[simp] theorem State.setLoopOut_sessions (k : Nat) (x : LoopOutSt) : (s.setLoopOut k x).sessions = s.sessions := rfl
@[simp] theorem State.setLoopOut_funcMask (k : Nat) (x : LoopOutSt) : (s.setLoopOut k x).funcMask = s.funcMask := rfl
@[simp] theorem State.setLoopOut_dmas (k : Nat) (x : LoopOutSt) : (s.setLoopOut k x).dmas = s.dmas := rfl
@[simp] theorem State.setLoopOut_dmaLast (k : Nat) (x : LoopOutSt) : (s.setLoopOut k x).dmaLast = s.dmaLast := rfl
@[simp] theorem State.setLoopOut_descs (k : Nat) (x : LoopOutSt) : (s.setLoopOut k x).descs = s.descs := rfl
@[simp] theorem State.setLoopOut_lamps (k : Nat) (x : LoopOutSt) : (s.setLoopOut k x).lamps = s.lamps := rfl
@[simp] theorem State.setLoopOut_groups (k : Nat) (x : LoopOutSt) : (s.setLoopOut k x).groups = s.groups := rfl
@[simp] theorem State.setLoopOut_lampOuts (k : Nat) (x : LoopOutSt) : (s.setLoopOut k x).lampOuts = s.lampOuts := rfl
@[simp] theorem State.setLoopOut_thAt (k : Nat) (x : LoopOutSt) : (s.setLoopOut k x).thAt = s.thAt := rfl
@[simp] theorem State.setLoopOut_padc (k : Nat) (x : LoopOutSt) : (s.setLoopOut k x).padc = s.padc := rfl
@[simp] theorem State.setLoopOut_hadc (k : Nat) (x : LoopOutSt) : (s.setLoopOut k x).hadc = s.hadc := rfl
@[simp] theorem State.setLoopOut_quince (k : Nat) (x : LoopOutSt) : (s.setLoopOut k x).quince = s.quince := rfl
@[simp] theorem State.setLoopOut_net (k : Nat) (x : LoopOutSt) : (s.setLoopOut k x).net = s.net := rfl
@[simp] theorem State.setLoopOut_cans (k : Nat) (x : LoopOutSt) : (s.setLoopOut k x).cans = s.cans := rfl
@[simp] theorem State.setLoopOut_ptps (k : Nat) (x : LoopOutSt) : (s.setLoopOut k x).ptps = s.ptps := rfl
@[simp] theorem State.setLoopOut_nvm (k : Nat) (x : LoopOutSt) : (s.setLoopOut k x).nvm = s.nvm := rfl
@[simp] theorem State.setLoopOut_boot (k : Nat) (x : LoopOutSt) : (s.setLoopOut k x).boot = s.boot := rfl

@[simp] theorem State.setCan_pending (k : Nat) (x : CanSt) : (s.setCan k x).pending = s.pending := rfl
@[simp] theorem State.setCan_fresh (k : Nat) (x : CanSt) : (s.setCan k x).fresh = s.fresh := rfl
@[simp] theorem State.setCan_tx (k : Nat) (x : CanSt) : (s.setCan k x).tx = s.tx := rfl
@[simp] theorem State.setCan_regs (k : Nat) (x : CanSt) : (s.setCan k x).regs = s.regs := rfl
@[simp] theorem State.setCan_wide (k : Nat) (x : CanSt) : (s.setCan k x).wide = s.wide := rfl
@[simp] theorem State.setCan_reqs (k : Nat) (x : CanSt) : (s.setCan k x).reqs = s.reqs := rfl
@[simp] theorem State.setCan_time (k : Nat) (x : CanSt) : (s.setCan k x).time = s.time := rfl
@[simp] theorem State.setCan_heads (k : Nat) (x : CanSt) : (s.setCan k x).heads = s.heads := rfl
@[simp] theorem State.setCan_probe (k : Nat) (x : CanSt) : (s.setCan k x).probe = s.probe := rfl
@[simp] theorem State.setCan_lanes (k : Nat) (x : CanSt) : (s.setCan k x).lanes = s.lanes := rfl
@[simp] theorem State.setCan_scheds (k : Nat) (x : CanSt) : (s.setCan k x).scheds = s.scheds := rfl
@[simp] theorem State.setCan_tdcs (k : Nat) (x : CanSt) : (s.setCan k x).tdcs = s.tdcs := rfl
@[simp] theorem State.setCan_ces (k : Nat) (x : CanSt) : (s.setCan k x).ces = s.ces := rfl
@[simp] theorem State.setCan_raman (k : Nat) (x : CanSt) : (s.setCan k x).raman = s.raman := rfl
@[simp] theorem State.setCan_dram (k : Nat) (x : CanSt) : (s.setCan k x).dram = s.dram := rfl
@[simp] theorem State.setCan_dramOut (k : Nat) (x : CanSt) : (s.setCan k x).dramOut = s.dramOut := rfl
@[simp] theorem State.setCan_banks (k : Nat) (x : CanSt) : (s.setCan k x).banks = s.banks := rfl
@[simp] theorem State.setCan_mcs (k : Nat) (x : CanSt) : (s.setCan k x).mcs = s.mcs := rfl
@[simp] theorem State.setCan_cores (k : Nat) (x : CanSt) : (s.setCan k x).cores = s.cores := rfl
@[simp] theorem State.setCan_clusters (k : Nat) (x : CanSt) : (s.setCan k x).clusters = s.clusters := rfl
@[simp] theorem State.setCan_chains (k : Nat) (x : CanSt) : (s.setCan k x).chains = s.chains := rfl
@[simp] theorem State.setCan_branches (k : Nat) (x : CanSt) : (s.setCan k x).branches = s.branches := rfl
@[simp] theorem State.setCan_phis (k : Nat) (x : CanSt) : (s.setCan k x).phis = s.phis := rfl
@[simp] theorem State.setCan_bands (k : Nat) (x : CanSt) : (s.setCan k x).bands = s.bands := rfl
@[simp] theorem State.setCan_fuses (k : Nat) (x : CanSt) : (s.setCan k x).fuses = s.fuses := rfl
@[simp] theorem State.setCan_coils (k : Nat) (x : CanSt) : (s.setCan k x).coils = s.coils := rfl
@[simp] theorem State.setCan_frames (k : Nat) (x : CanSt) : (s.setCan k x).frames = s.frames := rfl
@[simp] theorem State.setCan_sram (k : Nat) (x : CanSt) : (s.setCan k x).sram = s.sram := rfl
@[simp] theorem State.setCan_cmem (k : Nat) (x : CanSt) : (s.setCan k x).cmem = s.cmem := rfl
@[simp] theorem State.setCan_imem (k : Nat) (x : CanSt) : (s.setCan k x).imem = s.imem := rfl
@[simp] theorem State.setCan_fabric (k : Nat) (x : CanSt) : (s.setCan k x).fabric = s.fabric := rfl
@[simp] theorem State.setCan_returning (k : Nat) (x : CanSt) : (s.setCan k x).returning = s.returning := rfl
@[simp] theorem State.setCan_zones (k : Nat) (x : CanSt) : (s.setCan k x).zones = s.zones := rfl
@[simp] theorem State.setCan_zoneSts (k : Nat) (x : CanSt) : (s.setCan k x).zoneSts = s.zoneSts := rfl
@[simp] theorem State.setCan_evq (k : Nat) (x : CanSt) : (s.setCan k x).evq = s.evq := rfl
@[simp] theorem State.setCan_evLost (k : Nat) (x : CanSt) : (s.setCan k x).evLost = s.evLost := rfl
@[simp] theorem State.setCan_evSeq (k : Nat) (x : CanSt) : (s.setCan k x).evSeq = s.evSeq := rfl
@[simp] theorem State.setCan_caps (k : Nat) (x : CanSt) : (s.setCan k x).caps = s.caps := rfl
@[simp] theorem State.setCan_selfWrites (k : Nat) (x : CanSt) : (s.setCan k x).selfWrites = s.selfWrites := rfl
@[simp] theorem State.setCan_tpdos (k : Nat) (x : CanSt) : (s.setCan k x).tpdos = s.tpdos := rfl
@[simp] theorem State.setCan_od (k : Nat) (x : CanSt) : (s.setCan k x).od = s.od := rfl
@[simp] theorem State.setCan_odBytes (k : Nat) (x : CanSt) : (s.setCan k x).odBytes = s.odBytes := rfl
@[simp] theorem State.setCan_stalled (k : Nat) (x : CanSt) : (s.setCan k x).stalled = s.stalled := rfl
@[simp] theorem State.setCan_vecs (k : Nat) (x : CanSt) : (s.setCan k x).vecs = s.vecs := rfl
@[simp] theorem State.setCan_queues (k : Nat) (x : CanSt) : (s.setCan k x).queues = s.queues := rfl
@[simp] theorem State.setCan_msix (k : Nat) (x : CanSt) : (s.setCan k x).msix = s.msix := rfl
@[simp] theorem State.setCan_sessions (k : Nat) (x : CanSt) : (s.setCan k x).sessions = s.sessions := rfl
@[simp] theorem State.setCan_funcMask (k : Nat) (x : CanSt) : (s.setCan k x).funcMask = s.funcMask := rfl
@[simp] theorem State.setCan_dmas (k : Nat) (x : CanSt) : (s.setCan k x).dmas = s.dmas := rfl
@[simp] theorem State.setCan_dmaLast (k : Nat) (x : CanSt) : (s.setCan k x).dmaLast = s.dmaLast := rfl
@[simp] theorem State.setCan_descs (k : Nat) (x : CanSt) : (s.setCan k x).descs = s.descs := rfl
@[simp] theorem State.setCan_lamps (k : Nat) (x : CanSt) : (s.setCan k x).lamps = s.lamps := rfl
@[simp] theorem State.setCan_groups (k : Nat) (x : CanSt) : (s.setCan k x).groups = s.groups := rfl
@[simp] theorem State.setCan_lampOuts (k : Nat) (x : CanSt) : (s.setCan k x).lampOuts = s.lampOuts := rfl
@[simp] theorem State.setCan_thAt (k : Nat) (x : CanSt) : (s.setCan k x).thAt = s.thAt := rfl
@[simp] theorem State.setCan_padc (k : Nat) (x : CanSt) : (s.setCan k x).padc = s.padc := rfl
@[simp] theorem State.setCan_hadc (k : Nat) (x : CanSt) : (s.setCan k x).hadc = s.hadc := rfl
@[simp] theorem State.setCan_loopOuts (k : Nat) (x : CanSt) : (s.setCan k x).loopOuts = s.loopOuts := rfl
@[simp] theorem State.setCan_quince (k : Nat) (x : CanSt) : (s.setCan k x).quince = s.quince := rfl
@[simp] theorem State.setCan_net (k : Nat) (x : CanSt) : (s.setCan k x).net = s.net := rfl
@[simp] theorem State.setCan_ptps (k : Nat) (x : CanSt) : (s.setCan k x).ptps = s.ptps := rfl
@[simp] theorem State.setCan_nvm (k : Nat) (x : CanSt) : (s.setCan k x).nvm = s.nvm := rfl
@[simp] theorem State.setCan_boot (k : Nat) (x : CanSt) : (s.setCan k x).boot = s.boot := rfl

@[simp] theorem State.setPtp_pending (k : Nat) (x : PtpSt) : (s.setPtp k x).pending = s.pending := rfl
@[simp] theorem State.setPtp_fresh (k : Nat) (x : PtpSt) : (s.setPtp k x).fresh = s.fresh := rfl
@[simp] theorem State.setPtp_tx (k : Nat) (x : PtpSt) : (s.setPtp k x).tx = s.tx := rfl
@[simp] theorem State.setPtp_regs (k : Nat) (x : PtpSt) : (s.setPtp k x).regs = s.regs := rfl
@[simp] theorem State.setPtp_wide (k : Nat) (x : PtpSt) : (s.setPtp k x).wide = s.wide := rfl
@[simp] theorem State.setPtp_reqs (k : Nat) (x : PtpSt) : (s.setPtp k x).reqs = s.reqs := rfl
@[simp] theorem State.setPtp_time (k : Nat) (x : PtpSt) : (s.setPtp k x).time = s.time := rfl
@[simp] theorem State.setPtp_heads (k : Nat) (x : PtpSt) : (s.setPtp k x).heads = s.heads := rfl
@[simp] theorem State.setPtp_probe (k : Nat) (x : PtpSt) : (s.setPtp k x).probe = s.probe := rfl
@[simp] theorem State.setPtp_lanes (k : Nat) (x : PtpSt) : (s.setPtp k x).lanes = s.lanes := rfl
@[simp] theorem State.setPtp_scheds (k : Nat) (x : PtpSt) : (s.setPtp k x).scheds = s.scheds := rfl
@[simp] theorem State.setPtp_tdcs (k : Nat) (x : PtpSt) : (s.setPtp k x).tdcs = s.tdcs := rfl
@[simp] theorem State.setPtp_ces (k : Nat) (x : PtpSt) : (s.setPtp k x).ces = s.ces := rfl
@[simp] theorem State.setPtp_raman (k : Nat) (x : PtpSt) : (s.setPtp k x).raman = s.raman := rfl
@[simp] theorem State.setPtp_dram (k : Nat) (x : PtpSt) : (s.setPtp k x).dram = s.dram := rfl
@[simp] theorem State.setPtp_dramOut (k : Nat) (x : PtpSt) : (s.setPtp k x).dramOut = s.dramOut := rfl
@[simp] theorem State.setPtp_banks (k : Nat) (x : PtpSt) : (s.setPtp k x).banks = s.banks := rfl
@[simp] theorem State.setPtp_mcs (k : Nat) (x : PtpSt) : (s.setPtp k x).mcs = s.mcs := rfl
@[simp] theorem State.setPtp_cores (k : Nat) (x : PtpSt) : (s.setPtp k x).cores = s.cores := rfl
@[simp] theorem State.setPtp_clusters (k : Nat) (x : PtpSt) : (s.setPtp k x).clusters = s.clusters := rfl
@[simp] theorem State.setPtp_chains (k : Nat) (x : PtpSt) : (s.setPtp k x).chains = s.chains := rfl
@[simp] theorem State.setPtp_branches (k : Nat) (x : PtpSt) : (s.setPtp k x).branches = s.branches := rfl
@[simp] theorem State.setPtp_phis (k : Nat) (x : PtpSt) : (s.setPtp k x).phis = s.phis := rfl
@[simp] theorem State.setPtp_bands (k : Nat) (x : PtpSt) : (s.setPtp k x).bands = s.bands := rfl
@[simp] theorem State.setPtp_fuses (k : Nat) (x : PtpSt) : (s.setPtp k x).fuses = s.fuses := rfl
@[simp] theorem State.setPtp_coils (k : Nat) (x : PtpSt) : (s.setPtp k x).coils = s.coils := rfl
@[simp] theorem State.setPtp_frames (k : Nat) (x : PtpSt) : (s.setPtp k x).frames = s.frames := rfl
@[simp] theorem State.setPtp_sram (k : Nat) (x : PtpSt) : (s.setPtp k x).sram = s.sram := rfl
@[simp] theorem State.setPtp_cmem (k : Nat) (x : PtpSt) : (s.setPtp k x).cmem = s.cmem := rfl
@[simp] theorem State.setPtp_imem (k : Nat) (x : PtpSt) : (s.setPtp k x).imem = s.imem := rfl
@[simp] theorem State.setPtp_fabric (k : Nat) (x : PtpSt) : (s.setPtp k x).fabric = s.fabric := rfl
@[simp] theorem State.setPtp_returning (k : Nat) (x : PtpSt) : (s.setPtp k x).returning = s.returning := rfl
@[simp] theorem State.setPtp_zones (k : Nat) (x : PtpSt) : (s.setPtp k x).zones = s.zones := rfl
@[simp] theorem State.setPtp_zoneSts (k : Nat) (x : PtpSt) : (s.setPtp k x).zoneSts = s.zoneSts := rfl
@[simp] theorem State.setPtp_evq (k : Nat) (x : PtpSt) : (s.setPtp k x).evq = s.evq := rfl
@[simp] theorem State.setPtp_evLost (k : Nat) (x : PtpSt) : (s.setPtp k x).evLost = s.evLost := rfl
@[simp] theorem State.setPtp_evSeq (k : Nat) (x : PtpSt) : (s.setPtp k x).evSeq = s.evSeq := rfl
@[simp] theorem State.setPtp_caps (k : Nat) (x : PtpSt) : (s.setPtp k x).caps = s.caps := rfl
@[simp] theorem State.setPtp_selfWrites (k : Nat) (x : PtpSt) : (s.setPtp k x).selfWrites = s.selfWrites := rfl
@[simp] theorem State.setPtp_tpdos (k : Nat) (x : PtpSt) : (s.setPtp k x).tpdos = s.tpdos := rfl
@[simp] theorem State.setPtp_od (k : Nat) (x : PtpSt) : (s.setPtp k x).od = s.od := rfl
@[simp] theorem State.setPtp_odBytes (k : Nat) (x : PtpSt) : (s.setPtp k x).odBytes = s.odBytes := rfl
@[simp] theorem State.setPtp_stalled (k : Nat) (x : PtpSt) : (s.setPtp k x).stalled = s.stalled := rfl
@[simp] theorem State.setPtp_vecs (k : Nat) (x : PtpSt) : (s.setPtp k x).vecs = s.vecs := rfl
@[simp] theorem State.setPtp_queues (k : Nat) (x : PtpSt) : (s.setPtp k x).queues = s.queues := rfl
@[simp] theorem State.setPtp_msix (k : Nat) (x : PtpSt) : (s.setPtp k x).msix = s.msix := rfl
@[simp] theorem State.setPtp_sessions (k : Nat) (x : PtpSt) : (s.setPtp k x).sessions = s.sessions := rfl
@[simp] theorem State.setPtp_funcMask (k : Nat) (x : PtpSt) : (s.setPtp k x).funcMask = s.funcMask := rfl
@[simp] theorem State.setPtp_dmas (k : Nat) (x : PtpSt) : (s.setPtp k x).dmas = s.dmas := rfl
@[simp] theorem State.setPtp_dmaLast (k : Nat) (x : PtpSt) : (s.setPtp k x).dmaLast = s.dmaLast := rfl
@[simp] theorem State.setPtp_descs (k : Nat) (x : PtpSt) : (s.setPtp k x).descs = s.descs := rfl
@[simp] theorem State.setPtp_lamps (k : Nat) (x : PtpSt) : (s.setPtp k x).lamps = s.lamps := rfl
@[simp] theorem State.setPtp_groups (k : Nat) (x : PtpSt) : (s.setPtp k x).groups = s.groups := rfl
@[simp] theorem State.setPtp_lampOuts (k : Nat) (x : PtpSt) : (s.setPtp k x).lampOuts = s.lampOuts := rfl
@[simp] theorem State.setPtp_thAt (k : Nat) (x : PtpSt) : (s.setPtp k x).thAt = s.thAt := rfl
@[simp] theorem State.setPtp_padc (k : Nat) (x : PtpSt) : (s.setPtp k x).padc = s.padc := rfl
@[simp] theorem State.setPtp_hadc (k : Nat) (x : PtpSt) : (s.setPtp k x).hadc = s.hadc := rfl
@[simp] theorem State.setPtp_loopOuts (k : Nat) (x : PtpSt) : (s.setPtp k x).loopOuts = s.loopOuts := rfl
@[simp] theorem State.setPtp_quince (k : Nat) (x : PtpSt) : (s.setPtp k x).quince = s.quince := rfl
@[simp] theorem State.setPtp_net (k : Nat) (x : PtpSt) : (s.setPtp k x).net = s.net := rfl
@[simp] theorem State.setPtp_cans (k : Nat) (x : PtpSt) : (s.setPtp k x).cans = s.cans := rfl
@[simp] theorem State.setPtp_nvm (k : Nat) (x : PtpSt) : (s.setPtp k x).nvm = s.nvm := rfl
@[simp] theorem State.setPtp_boot (k : Nat) (x : PtpSt) : (s.setPtp k x).boot = s.boot := rfl

/-! ## Registers after an update -/

@[simp] theorem State.reg_setReg_same (a : Nat) (v : W32) : (s.setReg a v).reg a = v := by simp [State.reg, State.setReg]

theorem State.reg_setReg_ne {a b : Nat} (v : W32) (h : b ≠ a) : (s.setReg a v).reg b = s.reg b := by
  simp [State.reg, State.setReg, Store.get_set_ne _ _ _ _ h]

@[simp] theorem State.wreg_setWreg_same (a : Nat) (v : W72) : (s.setWreg a v).wreg a = v := by simp [State.wreg, State.setWreg]

theorem State.wreg_setWreg_ne {a b : Nat} (v : W72) (h : b ≠ a) : (s.setWreg a v).wreg b = s.wreg b := by
  simp [State.wreg, State.setWreg, Store.get_set_ne _ _ _ _ h]

@[simp] theorem State.req_setReq_same (q : Req) (r : ReqSt) : (s.setReq q r).req q = r := by simp [State.req, State.setReq]

@[simp] theorem State.wreg_setReg (a : Nat) (v : W32) (ra : Nat) : (s.setReg a v).wreg ra = s.wreg ra := rfl
@[simp] theorem State.reg_setWreg (a : Nat) (v : W72) (ra : Nat) : (s.setWreg a v).reg ra = s.reg ra := rfl
@[simp] theorem State.reg_setReq (q : Req) (r : ReqSt) (ra : Nat) : (s.setReq q r).reg ra = s.reg ra := rfl
@[simp] theorem State.wreg_setReq (q : Req) (r : ReqSt) (ra : Nat) : (s.setReq q r).wreg ra = s.wreg ra := rfl
@[simp] theorem State.reg_emit (o : Out) (ra : Nat) : (s.emit o).reg ra = s.reg ra := rfl
@[simp] theorem State.wreg_emit (o : Out) (ra : Nat) : (s.emit o).wreg ra = s.wreg ra := rfl
@[simp] theorem State.reg_drawn (ra : Nat) : (s.drawn).reg ra = s.reg ra := rfl
@[simp] theorem State.wreg_drawn (ra : Nat) : (s.drawn).wreg ra = s.wreg ra := rfl
@[simp] theorem State.reg_setBank (k : Nat) (b : BankSt) (ra : Nat) : (s.setBank k b).reg ra = s.reg ra := rfl
@[simp] theorem State.wreg_setBank (k : Nat) (b : BankSt) (ra : Nat) : (s.setBank k b).wreg ra = s.wreg ra := rfl
@[simp] theorem State.reg_setDramCell (m a : Nat) (w : BitVec 80) (ra : Nat) : (s.setDramCell m a w).reg ra = s.reg ra := rfl
@[simp] theorem State.wreg_setDramCell (m a : Nat) (w : BitVec 80) (ra : Nat) : (s.setDramCell m a w).wreg ra = s.wreg ra := rfl
@[simp] theorem State.reg_setMsixWord (i : Nat) (v : W32) (ra : Nat) : (s.setMsixWord i v).reg ra = s.reg ra := rfl
@[simp] theorem State.wreg_setMsixWord (i : Nat) (v : W32) (ra : Nat) : (s.setMsixWord i v).wreg ra = s.wreg ra := rfl
@[simp] theorem State.reg_setHead (k : Nat) (x : HeadSt) (ra : Nat) : (s.setHead k x).reg ra = s.reg ra := rfl
@[simp] theorem State.wreg_setHead (k : Nat) (x : HeadSt) (ra : Nat) : (s.setHead k x).wreg ra = s.wreg ra := rfl
@[simp] theorem State.reg_setLane (k : Nat) (x : LaneSt) (ra : Nat) : (s.setLane k x).reg ra = s.reg ra := rfl
@[simp] theorem State.wreg_setLane (k : Nat) (x : LaneSt) (ra : Nat) : (s.setLane k x).wreg ra = s.wreg ra := rfl
@[simp] theorem State.reg_setSched (k : Nat) (x : SchedSt) (ra : Nat) : (s.setSched k x).reg ra = s.reg ra := rfl
@[simp] theorem State.wreg_setSched (k : Nat) (x : SchedSt) (ra : Nat) : (s.setSched k x).wreg ra = s.wreg ra := rfl
@[simp] theorem State.reg_setTdc (k : Nat) (x : TdcSt) (ra : Nat) : (s.setTdc k x).reg ra = s.reg ra := rfl
@[simp] theorem State.wreg_setTdc (k : Nat) (x : TdcSt) (ra : Nat) : (s.setTdc k x).wreg ra = s.wreg ra := rfl
@[simp] theorem State.reg_setCe (k : Nat) (x : CeSt) (ra : Nat) : (s.setCe k x).reg ra = s.reg ra := rfl
@[simp] theorem State.wreg_setCe (k : Nat) (x : CeSt) (ra : Nat) : (s.setCe k x).wreg ra = s.wreg ra := rfl
@[simp] theorem State.reg_setMc (k : Nat) (x : McSt) (ra : Nat) : (s.setMc k x).reg ra = s.reg ra := rfl
@[simp] theorem State.wreg_setMc (k : Nat) (x : McSt) (ra : Nat) : (s.setMc k x).wreg ra = s.wreg ra := rfl
@[simp] theorem State.reg_setVec (k : Nat) (x : VecSt) (ra : Nat) : (s.setVec k x).reg ra = s.reg ra := rfl
@[simp] theorem State.wreg_setVec (k : Nat) (x : VecSt) (ra : Nat) : (s.setVec k x).wreg ra = s.wreg ra := rfl
@[simp] theorem State.reg_setQueue (k : Nat) (x : QueueSt) (ra : Nat) : (s.setQueue k x).reg ra = s.reg ra := rfl
@[simp] theorem State.wreg_setQueue (k : Nat) (x : QueueSt) (ra : Nat) : (s.setQueue k x).wreg ra = s.wreg ra := rfl
@[simp] theorem State.reg_setSession (k : Nat) (x : SessionSt) (ra : Nat) : (s.setSession k x).reg ra = s.reg ra := rfl
@[simp] theorem State.wreg_setSession (k : Nat) (x : SessionSt) (ra : Nat) : (s.setSession k x).wreg ra = s.wreg ra := rfl
@[simp] theorem State.reg_setCore (k : Nat) (x : CoreSt) (ra : Nat) : (s.setCore k x).reg ra = s.reg ra := rfl
@[simp] theorem State.wreg_setCore (k : Nat) (x : CoreSt) (ra : Nat) : (s.setCore k x).wreg ra = s.wreg ra := rfl
@[simp] theorem State.reg_setCluster (k : Nat) (x : ClusterSt) (ra : Nat) : (s.setCluster k x).reg ra = s.reg ra := rfl
@[simp] theorem State.wreg_setCluster (k : Nat) (x : ClusterSt) (ra : Nat) : (s.setCluster k x).wreg ra = s.wreg ra := rfl
@[simp] theorem State.reg_setChain (k : Nat) (x : ChainSt) (ra : Nat) : (s.setChain k x).reg ra = s.reg ra := rfl
@[simp] theorem State.wreg_setChain (k : Nat) (x : ChainSt) (ra : Nat) : (s.setChain k x).wreg ra = s.wreg ra := rfl
@[simp] theorem State.reg_setZone (k : Nat) (x : ZoneSt) (ra : Nat) : (s.setZone k x).reg ra = s.reg ra := rfl
@[simp] theorem State.wreg_setZone (k : Nat) (x : ZoneSt) (ra : Nat) : (s.setZone k x).wreg ra = s.wreg ra := rfl
@[simp] theorem State.reg_setCap (k : Nat) (x : Option CapSt) (ra : Nat) : (s.setCap k x).reg ra = s.reg ra := rfl
@[simp] theorem State.wreg_setCap (k : Nat) (x : Option CapSt) (ra : Nat) : (s.setCap k x).wreg ra = s.wreg ra := rfl
@[simp] theorem State.reg_setTpdo (k : Nat) (x : TpdoSt) (ra : Nat) : (s.setTpdo k x).reg ra = s.reg ra := rfl
@[simp] theorem State.wreg_setTpdo (k : Nat) (x : TpdoSt) (ra : Nat) : (s.setTpdo k x).wreg ra = s.wreg ra := rfl
@[simp] theorem State.reg_setDma (k : Nat) (x : DmaSt) (ra : Nat) : (s.setDma k x).reg ra = s.reg ra := rfl
@[simp] theorem State.wreg_setDma (k : Nat) (x : DmaSt) (ra : Nat) : (s.setDma k x).wreg ra = s.wreg ra := rfl
@[simp] theorem State.reg_setLamp (k : Nat) (x : LampSt) (ra : Nat) : (s.setLamp k x).reg ra = s.reg ra := rfl
@[simp] theorem State.wreg_setLamp (k : Nat) (x : LampSt) (ra : Nat) : (s.setLamp k x).wreg ra = s.wreg ra := rfl
@[simp] theorem State.reg_setLoopOut (k : Nat) (x : LoopOutSt) (ra : Nat) : (s.setLoopOut k x).reg ra = s.reg ra := rfl
@[simp] theorem State.wreg_setLoopOut (k : Nat) (x : LoopOutSt) (ra : Nat) : (s.setLoopOut k x).wreg ra = s.wreg ra := rfl
@[simp] theorem State.reg_setCan (k : Nat) (x : CanSt) (ra : Nat) : (s.setCan k x).reg ra = s.reg ra := rfl
@[simp] theorem State.wreg_setCan (k : Nat) (x : CanSt) (ra : Nat) : (s.setCan k x).wreg ra = s.wreg ra := rfl
@[simp] theorem State.reg_setPtp (k : Nat) (x : PtpSt) (ra : Nat) : (s.setPtp k x).reg ra = s.reg ra := rfl
@[simp] theorem State.wreg_setPtp (k : Nat) (x : PtpSt) (ra : Nat) : (s.setPtp k x).wreg ra = s.wreg ra := rfl

/-! ## Records of the engines after an update -/

@[simp] theorem State.head_setHead_same (k : Nat) (x : HeadSt) : (s.setHead k x).head k = x := by simp [State.head, State.setHead]
theorem State.head_setHead_ne {k j : Nat} (x : HeadSt) (h : j ≠ k) : (s.setHead k x).head j = s.head j := by
  simp [State.head, State.setHead, Store.get_set_ne _ _ _ _ h]
@[simp] theorem State.head_setReg (a : Nat) (v : W32) (j : Nat) : (s.setReg a v).head j = s.head j := rfl
@[simp] theorem State.lane_setLane_same (k : Nat) (x : LaneSt) : (s.setLane k x).lane k = x := by simp [State.lane, State.setLane]
theorem State.lane_setLane_ne {k j : Nat} (x : LaneSt) (h : j ≠ k) : (s.setLane k x).lane j = s.lane j := by
  simp [State.lane, State.setLane, Store.get_set_ne _ _ _ _ h]
@[simp] theorem State.lane_setReg (a : Nat) (v : W32) (j : Nat) : (s.setReg a v).lane j = s.lane j := rfl
@[simp] theorem State.sched_setSched_same (k : Nat) (x : SchedSt) : (s.setSched k x).sched k = x := by simp [State.sched, State.setSched]
theorem State.sched_setSched_ne {k j : Nat} (x : SchedSt) (h : j ≠ k) : (s.setSched k x).sched j = s.sched j := by
  simp [State.sched, State.setSched, Store.get_set_ne _ _ _ _ h]
@[simp] theorem State.sched_setReg (a : Nat) (v : W32) (j : Nat) : (s.setReg a v).sched j = s.sched j := rfl
@[simp] theorem State.tdc_setTdc_same (k : Nat) (x : TdcSt) : (s.setTdc k x).tdc k = x := by simp [State.tdc, State.setTdc]
theorem State.tdc_setTdc_ne {k j : Nat} (x : TdcSt) (h : j ≠ k) : (s.setTdc k x).tdc j = s.tdc j := by
  simp [State.tdc, State.setTdc, Store.get_set_ne _ _ _ _ h]
@[simp] theorem State.tdc_setReg (a : Nat) (v : W32) (j : Nat) : (s.setReg a v).tdc j = s.tdc j := rfl
@[simp] theorem State.ce_setCe_same (k : Nat) (x : CeSt) : (s.setCe k x).ce k = x := by simp [State.ce, State.setCe]
theorem State.ce_setCe_ne {k j : Nat} (x : CeSt) (h : j ≠ k) : (s.setCe k x).ce j = s.ce j := by
  simp [State.ce, State.setCe, Store.get_set_ne _ _ _ _ h]
@[simp] theorem State.ce_setReg (a : Nat) (v : W32) (j : Nat) : (s.setReg a v).ce j = s.ce j := rfl
@[simp] theorem State.mc_setMc_same (k : Nat) (x : McSt) : (s.setMc k x).mc k = x := by simp [State.mc, State.setMc]
theorem State.mc_setMc_ne {k j : Nat} (x : McSt) (h : j ≠ k) : (s.setMc k x).mc j = s.mc j := by
  simp [State.mc, State.setMc, Store.get_set_ne _ _ _ _ h]
@[simp] theorem State.mc_setReg (a : Nat) (v : W32) (j : Nat) : (s.setReg a v).mc j = s.mc j := rfl
@[simp] theorem State.vec_setVec_same (k : Nat) (x : VecSt) : (s.setVec k x).vec k = x := by simp [State.vec, State.setVec]
theorem State.vec_setVec_ne {k j : Nat} (x : VecSt) (h : j ≠ k) : (s.setVec k x).vec j = s.vec j := by
  simp [State.vec, State.setVec, Store.get_set_ne _ _ _ _ h]
@[simp] theorem State.vec_setReg (a : Nat) (v : W32) (j : Nat) : (s.setReg a v).vec j = s.vec j := rfl
@[simp] theorem State.queue_setQueue_same (k : Nat) (x : QueueSt) : (s.setQueue k x).queue k = x := by simp [State.queue, State.setQueue]
theorem State.queue_setQueue_ne {k j : Nat} (x : QueueSt) (h : j ≠ k) : (s.setQueue k x).queue j = s.queue j := by
  simp [State.queue, State.setQueue, Store.get_set_ne _ _ _ _ h]
@[simp] theorem State.queue_setReg (a : Nat) (v : W32) (j : Nat) : (s.setReg a v).queue j = s.queue j := rfl
@[simp] theorem State.session_setSession_same (k : Nat) (x : SessionSt) : (s.setSession k x).session k = x := by simp [State.session, State.setSession]
theorem State.session_setSession_ne {k j : Nat} (x : SessionSt) (h : j ≠ k) : (s.setSession k x).session j = s.session j := by
  simp [State.session, State.setSession, Store.get_set_ne _ _ _ _ h]
@[simp] theorem State.session_setReg (a : Nat) (v : W32) (j : Nat) : (s.setReg a v).session j = s.session j := rfl
@[simp] theorem State.core_setCore_same (k : Nat) (x : CoreSt) : (s.setCore k x).core k = x := by simp [State.core, State.setCore]
theorem State.core_setCore_ne {k j : Nat} (x : CoreSt) (h : j ≠ k) : (s.setCore k x).core j = s.core j := by
  simp [State.core, State.setCore, Store.get_set_ne _ _ _ _ h]
@[simp] theorem State.core_setReg (a : Nat) (v : W32) (j : Nat) : (s.setReg a v).core j = s.core j := rfl
@[simp] theorem State.cluster_setCluster_same (k : Nat) (x : ClusterSt) : (s.setCluster k x).cluster k = x := by simp [State.cluster, State.setCluster]
theorem State.cluster_setCluster_ne {k j : Nat} (x : ClusterSt) (h : j ≠ k) : (s.setCluster k x).cluster j = s.cluster j := by
  simp [State.cluster, State.setCluster, Store.get_set_ne _ _ _ _ h]
@[simp] theorem State.cluster_setReg (a : Nat) (v : W32) (j : Nat) : (s.setReg a v).cluster j = s.cluster j := rfl
@[simp] theorem State.chain_setChain_same (k : Nat) (x : ChainSt) : (s.setChain k x).chain k = x := by simp [State.chain, State.setChain]
theorem State.chain_setChain_ne {k j : Nat} (x : ChainSt) (h : j ≠ k) : (s.setChain k x).chain j = s.chain j := by
  simp [State.chain, State.setChain, Store.get_set_ne _ _ _ _ h]
@[simp] theorem State.chain_setReg (a : Nat) (v : W32) (j : Nat) : (s.setReg a v).chain j = s.chain j := rfl
@[simp] theorem State.zone_setZone_same (k : Nat) (x : ZoneSt) : (s.setZone k x).zone k = x := by simp [State.zone, State.setZone]
theorem State.zone_setZone_ne {k j : Nat} (x : ZoneSt) (h : j ≠ k) : (s.setZone k x).zone j = s.zone j := by
  simp [State.zone, State.setZone, Store.get_set_ne _ _ _ _ h]
@[simp] theorem State.zone_setReg (a : Nat) (v : W32) (j : Nat) : (s.setReg a v).zone j = s.zone j := rfl
@[simp] theorem State.cap_setCap_same (k : Nat) (x : Option CapSt) : (s.setCap k x).cap k = x := by simp [State.cap, State.setCap]
theorem State.cap_setCap_ne {k j : Nat} (x : Option CapSt) (h : j ≠ k) : (s.setCap k x).cap j = s.cap j := by
  simp [State.cap, State.setCap, Store.get_set_ne _ _ _ _ h]
@[simp] theorem State.cap_setReg (a : Nat) (v : W32) (j : Nat) : (s.setReg a v).cap j = s.cap j := rfl
@[simp] theorem State.tpdo_setTpdo_same (k : Nat) (x : TpdoSt) : (s.setTpdo k x).tpdo k = x := by simp [State.tpdo, State.setTpdo]
theorem State.tpdo_setTpdo_ne {k j : Nat} (x : TpdoSt) (h : j ≠ k) : (s.setTpdo k x).tpdo j = s.tpdo j := by
  simp [State.tpdo, State.setTpdo, Store.get_set_ne _ _ _ _ h]
@[simp] theorem State.tpdo_setReg (a : Nat) (v : W32) (j : Nat) : (s.setReg a v).tpdo j = s.tpdo j := rfl
@[simp] theorem State.dma_setDma_same (k : Nat) (x : DmaSt) : (s.setDma k x).dma k = x := by simp [State.dma, State.setDma]
theorem State.dma_setDma_ne {k j : Nat} (x : DmaSt) (h : j ≠ k) : (s.setDma k x).dma j = s.dma j := by
  simp [State.dma, State.setDma, Store.get_set_ne _ _ _ _ h]
@[simp] theorem State.dma_setReg (a : Nat) (v : W32) (j : Nat) : (s.setReg a v).dma j = s.dma j := rfl
@[simp] theorem State.lamp_setLamp_same (k : Nat) (x : LampSt) : (s.setLamp k x).lamp k = x := by simp [State.lamp, State.setLamp]
theorem State.lamp_setLamp_ne {k j : Nat} (x : LampSt) (h : j ≠ k) : (s.setLamp k x).lamp j = s.lamp j := by
  simp [State.lamp, State.setLamp, Store.get_set_ne _ _ _ _ h]
@[simp] theorem State.lamp_setReg (a : Nat) (v : W32) (j : Nat) : (s.setReg a v).lamp j = s.lamp j := rfl
@[simp] theorem State.loopOut_setLoopOut_same (k : Nat) (x : LoopOutSt) : (s.setLoopOut k x).loopOut k = x := by simp [State.loopOut, State.setLoopOut]
theorem State.loopOut_setLoopOut_ne {k j : Nat} (x : LoopOutSt) (h : j ≠ k) : (s.setLoopOut k x).loopOut j = s.loopOut j := by
  simp [State.loopOut, State.setLoopOut, Store.get_set_ne _ _ _ _ h]
@[simp] theorem State.loopOut_setReg (a : Nat) (v : W32) (j : Nat) : (s.setReg a v).loopOut j = s.loopOut j := rfl
@[simp] theorem State.can_setCan_same (k : Nat) (x : CanSt) : (s.setCan k x).can k = x := by simp [State.can, State.setCan]
theorem State.can_setCan_ne {k j : Nat} (x : CanSt) (h : j ≠ k) : (s.setCan k x).can j = s.can j := by
  simp [State.can, State.setCan, Store.get_set_ne _ _ _ _ h]
@[simp] theorem State.can_setReg (a : Nat) (v : W32) (j : Nat) : (s.setReg a v).can j = s.can j := rfl
@[simp] theorem State.ptp_setPtp_same (k : Nat) (x : PtpSt) : (s.setPtp k x).ptp k = x := by simp [State.ptp, State.setPtp]
theorem State.ptp_setPtp_ne {k j : Nat} (x : PtpSt) (h : j ≠ k) : (s.setPtp k x).ptp j = s.ptp j := by
  simp [State.ptp, State.setPtp, Store.get_set_ne _ _ _ _ h]
@[simp] theorem State.ptp_setReg (a : Nat) (v : W32) (j : Nat) : (s.setReg a v).ptp j = s.ptp j := rfl

end Sys2Proof.Machine
end

