-- ==== Sys2Proof/Laws/Ops.lean ====
section
/-!
SUPPORT. What the shared operations can do, said once: the parts of the state a raise, an event, a fault and a recorded refusal
touch, the registers they leave alone, and that the operations over registers and memories keep the canonical form.
-/
namespace Sys2Proof.Machine

/-! ## Repeated operations -/

/-- What every step of a repetition keeps, the repetition keeps. -/
theorem forEach_keeps {σ : Type} (P : σ → Prop) (f : Nat → σ → σ) :
    (l : List Nat) → (s : σ) → (∀ i t, P t → P (f i t)) → P s → P (forEach l f s)
  | [], _, _, h => h
  | i :: l, s, k, h => forEach_keeps P f l (f i s) k (k i s h)

/-! ## Raises, events and faults -/

/-- t differs from s at most in what a raise may touch: registers, vectors, what is sent, the MSI-X words, the sessions and the count of free
values. -/
def State.RaiseOnly (s t : State) : Prop :=
  ∃ r v x m n f, t = { s with regs := r, vecs := v, tx := x, msix := m, sessions := n, fresh := f }

theorem State.RaiseOnly.refl (s : State) : s.RaiseOnly s := ⟨s.regs, s.vecs, s.tx, s.msix, s.sessions, s.fresh, rfl⟩

theorem State.RaiseOnly.trans {s t u : State} (h : s.RaiseOnly t) (k : t.RaiseOnly u) : s.RaiseOnly u := by
  obtain ⟨r, v, x, m, n, f, rfl⟩ := h
  obtain ⟨r', v', x', m', n', f', rfl⟩ := k
  exact ⟨r', v', x', m', n', f', rfl⟩

theorem State.setReg_raiseOnly (s : State) (a : Nat) (w : W32) : s.RaiseOnly (s.setReg a w) :=
  ⟨_, s.vecs, s.tx, s.msix, s.sessions, s.fresh, rfl⟩
theorem State.setVec_raiseOnly (s : State) (i : Nat) (w : VecSt) : s.RaiseOnly (s.setVec i w) :=
  ⟨s.regs, _, s.tx, s.msix, s.sessions, s.fresh, rfl⟩
theorem State.emit_raiseOnly (s : State) (o : Out) : s.RaiseOnly (s.emit o) := ⟨s.regs, s.vecs, _, s.msix, s.sessions, s.fresh, rfl⟩
theorem State.drawn_raiseOnly (s : State) : s.RaiseOnly s.drawn := ⟨s.regs, s.vecs, s.tx, s.msix, s.sessions, _, rfl⟩
theorem State.setMsixWord_raiseOnly (s : State) (i : Nat) (w : W32) : s.RaiseOnly (s.setMsixWord i w) :=
  ⟨s.regs, s.vecs, s.tx, _, s.sessions, s.fresh, rfl⟩
theorem State.setSession_raiseOnly (s : State) (i : Nat) (w : SessionSt) : s.RaiseOnly (s.setSession i w) :=
  ⟨s.regs, s.vecs, s.tx, s.msix, _, s.fresh, rfl⟩

theorem State.datagram_raiseOnly (s : State) (ip : IpAddr) (b : List Byte) : s.RaiseOnly (s.datagram ip b) := by
  unfold State.datagram
  split
  · exact forEach_keeps (fun t => s.RaiseOnly t) _ _ s
      (fun _ t h => (h.trans (t.emit_raiseOnly _)).trans (State.setReg_raiseOnly _ _ _)) (.refl s)
  · exact .refl s

theorem State.sessionSend_raiseOnly (s : State) (i ty fl rq : Nat) (p : List Byte) : s.RaiseOnly (s.sessionSend i ty fl rq p) :=
  (s.setSession_raiseOnly _ _).trans (State.datagram_raiseOnly _ _ _)

theorem State.notifySend_raiseOnly (s : State) (v : Nat) (w : W72) : s.RaiseOnly (s.notifySend v w) := by
  refine forEach_keeps (fun t => s.RaiseOnly t) _ _ s (fun i t h => ?_) (.refl s)
  split
  · exact h.trans (t.sessionSend_raiseOnly _ _ _ _ _)
  · exact h

theorem State.notifyFlush_raiseOnly (s : State) (v : Nat) : s.RaiseOnly (s.notifyFlush v) := by
  unfold State.notifyFlush
  split
  · exact .refl s
  · split
    · exact s.drawn_raiseOnly
    · exact s.drawn_raiseOnly.trans ((State.setVec_raiseOnly _ _ _).trans (State.notifySend_raiseOnly _ _ _))

theorem State.msixRaise_raiseOnly (s : State) (v : Nat) : s.RaiseOnly (s.msixRaise v) := by
  unfold State.msixRaise
  split
  · exact s.setMsixWord_raiseOnly _ _
  · split
    · exact s.emit_raiseOnly _
    · exact .refl s

theorem State.notify_raiseOnly (s : State) (v : Nat) : s.RaiseOnly (s.notify v) := by
  unfold State.notify
  split
  · exact (s.setVec_raiseOnly _ _).trans (State.notifyFlush_raiseOnly _ _)
  · exact .refl s

theorem State.raise_raiseOnly (s : State) (v : Nat) : s.RaiseOnly (s.raise v) :=
  ((s.setVec_raiseOnly _ _).trans (State.setReg_raiseOnly _ _ _)).trans ((State.msixRaise_raiseOnly _ _).trans (State.notify_raiseOnly _ _))

theorem State.event_raiseOnly (s : State) (v : Nat) : s.RaiseOnly (s.event v) := by
  have key (t : State) (h : s.RaiseOnly t) :
      s.RaiseOnly (if t.modReached v then (t.setVec v { t.vec v with cnt := 0 }).raise v else t) := by
    split
    · exact h.trans ((State.setVec_raiseOnly _ _ _).trans (State.raise_raiseOnly _ _))
    · exact h
  unfold State.event
  split
  · exact key _ (s.setVec_raiseOnly _ _)
  · split
    · exact .refl s
    · exact s.raise_raiseOnly v

theorem State.fault_raiseOnly (s : State) (a m : Nat) : s.RaiseOnly (s.fault a m) := by
  unfold State.fault
  dsimp only
  split
  · exact .refl s
  · split
    · exact (s.setReg_raiseOnly _ _).trans ((State.event_raiseOnly _ _).trans (State.event_raiseOnly _ _))
    · exact (s.setReg_raiseOnly _ _).trans (State.event_raiseOnly _ _)

theorem State.err_raiseOnly (s : State) (b : Nat) (c : Cause) (o : Nat) (q : Req) : s.RaiseOnly (s.err b c o q) := by
  unfold State.err
  dsimp only
  split
  · exact (s.setReg_raiseOnly _ _).trans (State.fault_raiseOnly _ _ _)
  · exact s.fault_raiseOnly _ _

theorem State.ack_raiseOnly (s : State) (a : Nat) (v : W32) : s.RaiseOnly (s.ack a v) := by
  unfold State.ack
  split
  · exact s.setReg_raiseOnly _ _
  · exact .refl s

/-- What a raise may touch leaves the memories and the engines alone. -/
theorem State.RaiseOnly.frame {s t : State} (h : s.RaiseOnly t) : t.pending = s.pending ∧ t.wide = s.wide ∧
    t.dram = s.dram ∧ t.probe = s.probe ∧ t.sram = s.sram ∧ t.cmem = s.cmem ∧ t.imem = s.imem ∧ t.zones = s.zones ∧ t.descs = s.descs ∧
    t.groups = s.groups ∧ t.lampOuts = s.lampOuts ∧ t.cores = s.cores ∧ t.heads = s.heads ∧ t.od = s.od ∧ t.odBytes = s.odBytes ∧
    t.time = s.time ∧ t.zoneSts = s.zoneSts ∧ t.dmas = s.dmas ∧ t.net = s.net ∧ t.nvm = s.nvm ∧ t.boot = s.boot ∧ t.fabric = s.fabric := by
  obtain ⟨r, v, x, m, n, f, rfl⟩ := h
  exact ⟨rfl, rfl, rfl, rfl, rfl, rfl, rfl, rfl, rfl, rfl, rfl, rfl, rfl, rfl, rfl, rfl, rfl, rfl, rfl, rfl, rfl, rfl⟩

/-! ## The registers a raise leaves alone -/

/-- a is no LATCH register of the attention block and no TX_FRAMES of a port, which counts the NOTIFY frames a raise may send. -/
def notLatch (a : Nat) : Prop := (∀ k, a ≠ Reg.attnLatch k) ∧ ∀ n, a ≠ Reg.netPortTxFrames n

theorem State.msixRaise_regs (s : State) (v : Nat) : (s.msixRaise v).regs = s.regs := by
  unfold State.msixRaise
  split
  · rfl
  · split <;> rfl

theorem State.datagram_reg {a : Nat} (s : State) (ip : IpAddr) (b : List Byte) (h : notLatch a) : (s.datagram ip b).reg a = s.reg a := by
  unfold State.datagram
  split
  · refine forEach_keeps (fun t => t.reg a = s.reg a) _ _ s (fun n t k => ?_) rfl
    exact (Store.get_set_ne (t.emit (.yarfel n (t.portVid n) ip b)).regs _ _ _ (h.2 n)).trans k
  · rfl

theorem State.sessionSend_reg {a : Nat} (s : State) (i ty fl rq : Nat) (p : List Byte) (h : notLatch a) :
    (s.sessionSend i ty fl rq p).reg a = s.reg a := State.datagram_reg _ _ _ h

theorem State.notifySend_reg {a : Nat} (s : State) (v : Nat) (w : W72) (h : notLatch a) : (s.notifySend v w).reg a = s.reg a := by
  refine forEach_keeps (fun t => t.reg a = s.reg a) _ _ s (fun i t k => ?_) rfl
  split
  · rw [State.sessionSend_reg _ _ _ _ _ _ h]; exact k
  · exact k

theorem State.notifyFlush_reg {a : Nat} (s : State) (v : Nat) (h : notLatch a) : (s.notifyFlush v).reg a = s.reg a := by
  unfold State.notifyFlush
  split
  · rfl
  · split
    · rfl
    · exact State.notifySend_reg _ _ _ h

theorem State.notify_reg {a : Nat} (s : State) (v : Nat) (h : notLatch a) : (s.notify v).reg a = s.reg a := by
  unfold State.notify
  split
  · exact State.notifyFlush_reg _ _ h
  · rfl

theorem State.raise_reg {a : Nat} (s : State) (v : Nat) (h : notLatch a) : (s.raise v).reg a = s.reg a := by
  have e : ∀ t : State, ((t.msixRaise v).notify v).reg a = t.reg a := fun t => by
    rw [State.notify_reg _ _ h]; simp only [State.reg, State.msixRaise_regs]
  unfold State.raise
  rw [e]
  exact Store.get_set_ne _ _ _ _ (h.1 _)

theorem State.event_reg {a : Nat} (s : State) (v : Nat) (h : notLatch a) : (s.event v).reg a = s.reg a := by
  have key (t : State) (k : t.reg a = s.reg a) :
      (if t.modReached v then (t.setVec v { t.vec v with cnt := 0 }).raise v else t).reg a = s.reg a := by
    split
    · rw [State.raise_reg _ _ h]; exact k
    · exact k
  unfold State.event
  split
  · exact key _ rfl
  · split
    · rfl
    · exact State.raise_reg _ _ h

theorem State.fault_reg {a b m : Nat} (s : State) (h : notLatch a) (k : a ≠ b) : (s.fault b m).reg a = s.reg a := by
  unfold State.fault
  dsimp only
  split
  · rfl
  · have e : ∀ w, (s.setReg b w).reg a = s.reg a := fun w => Store.get_set_ne _ _ _ _ k
    split
    · rw [State.event_reg _ _ h, State.event_reg _ _ h, e]
    · rw [State.event_reg _ _ h, e]

/-- The RS register itself: the bits asked for set, and SEQ one on when any of them was 0 (R40). -/
theorem State.fault_self {a m : Nat} (s : State) (h : notLatch a) : (s.fault a m).reg a =
    if BitVec.ofNat 32 (m % 2 ^ 24) &&& ~~~(s.reg a) = 0 then s.reg a
    else withField (s.reg a ||| (BitVec.ofNat 32 (m % 2 ^ 24) &&& ~~~(s.reg a))) 31 24 (field (s.reg a) 31 24 + 1) := by
  unfold State.fault
  dsimp only
  split
  · rfl
  · have e : ∀ w, (s.setReg a w).reg a = w := fun w => Store.get_set_same _ _ _ _
    split
    · rw [State.event_reg _ _ h, State.event_reg _ _ h, e]
    · rw [State.event_reg _ _ h, e]

/-! ## Canonical form of the memories -/

theorem State.setReg_memoryWf (s : State) (a : Nat) (v : W32) (h : s.memoryWf = true) :
    (s.setReg a v).memoryWf = true := by
  have k : s.regs.wf resetOf = true := by simp_all [State.memoryWf]
  have := Store.wf_set (d := resetOf) (m := s.regs) a v k
  simp_all [State.memoryWf, State.setReg]

theorem State.setWreg_memoryWf (s : State) (a : Nat) (v : W72) (h : s.memoryWf = true) :
    (s.setWreg a v).memoryWf = true := by
  have k : s.wide.wf (fun _ => (0 : W72)) = true := by simp_all [State.memoryWf]
  have := Store.wf_set (d := (fun _ => (0 : W72))) (m := s.wide) a v k
  simp_all [State.memoryWf, State.setWreg]

theorem State.setMsixWord_memoryWf (s : State) (i : Nat) (v : W32) (h : s.memoryWf = true) :
    (s.setMsixWord i v).memoryWf = true := by
  have k : s.msix.wf msixDefault = true := by simp_all [State.memoryWf]
  have := Store.wf_set (d := msixDefault) (m := s.msix) i v k
  simp_all [State.memoryWf, State.setMsixWord]

theorem State.setDramCell_memoryWf (s : State) (m a : Nat) (w : BitVec 80) (h : s.memoryWf = true) :
    (s.setDramCell m a w).memoryWf = true := by
  have k : s.dram.wf (fun _ => (0 : BitVec 80)) = true := by simp_all [State.memoryWf]
  have := Store.wf_set (d := (fun _ => (0 : BitVec 80))) (m := s.dram) (dramKey m a) w k
  simp_all [State.memoryWf, State.setDramCell]

theorem State.emit_memoryWf (s : State) (o : Out) : (s.emit o).memoryWf = s.memoryWf := rfl
theorem State.setVec_memoryWf (s : State) (i : Nat) (x : VecSt) : (s.setVec i x).memoryWf = s.memoryWf := rfl
theorem State.setSession_memoryWf (s : State) (i : Nat) (x : SessionSt) : (s.setSession i x).memoryWf = s.memoryWf := rfl
theorem State.setBank_memoryWf (s : State) (k : Nat) (x : BankSt) : (s.setBank k x).memoryWf = s.memoryWf := rfl
theorem State.setMc_memoryWf (s : State) (k : Nat) (x : McSt) : (s.setMc k x).memoryWf = s.memoryWf := rfl

theorem State.drawn_memoryWf (s : State) : s.drawn.memoryWf = s.memoryWf := rfl

theorem State.datagram_memoryWf (s : State) (ip : IpAddr) (b : List Byte) (h : s.memoryWf = true) : (s.datagram ip b).memoryWf = true := by
  unfold State.datagram
  split
  · exact forEach_keeps (fun t => t.memoryWf = true) _ _ s
      (fun _ t k => State.setReg_memoryWf _ _ _ ((t.emit_memoryWf _).trans k)) h
  · exact h

theorem State.sessionSend_memoryWf (s : State) (i ty fl rq : Nat) (p : List Byte) (h : s.memoryWf = true) :
    (s.sessionSend i ty fl rq p).memoryWf = true :=
  State.datagram_memoryWf _ _ _ ((s.setSession_memoryWf _ _).trans h)

theorem State.notifySend_memoryWf (s : State) (v : Nat) (w : W72) (h : s.memoryWf = true) : (s.notifySend v w).memoryWf = true := by
  refine forEach_keeps (fun t => t.memoryWf = true) _ _ s (fun i t k => ?_) h
  split
  · exact t.sessionSend_memoryWf _ _ _ _ _ k
  · exact k

theorem State.notifyFlush_memoryWf (s : State) (v : Nat) (h : s.memoryWf = true) : (s.notifyFlush v).memoryWf = true := by
  unfold State.notifyFlush
  split
  · exact h
  · split
    · exact s.drawn_memoryWf.trans h
    · exact State.notifySend_memoryWf _ _ _ ((State.setVec_memoryWf _ _ _).trans (s.drawn_memoryWf.trans h))

theorem State.notify_memoryWf (s : State) (v : Nat) (h : s.memoryWf = true) : (s.notify v).memoryWf = true := by
  unfold State.notify
  split
  · exact State.notifyFlush_memoryWf _ _ ((s.setVec_memoryWf _ _).trans h)
  · exact h

theorem State.msixRaise_memoryWf (s : State) (v : Nat) (h : s.memoryWf = true) : (s.msixRaise v).memoryWf = true := by
  unfold State.msixRaise
  split
  · exact s.setMsixWord_memoryWf _ _ h
  · split
    · exact (s.emit_memoryWf _).trans h
    · exact h

theorem State.raise_memoryWf (s : State) (v : Nat) (h : s.memoryWf = true) : (s.raise v).memoryWf = true :=
  State.notify_memoryWf _ _ (State.msixRaise_memoryWf _ _ (State.setReg_memoryWf _ _ _ (by exact h)))

theorem State.event_memoryWf (s : State) (v : Nat) (h : s.memoryWf = true) : (s.event v).memoryWf = true := by
  have key (t : State) (k : t.memoryWf = true) :
      (if t.modReached v then (t.setVec v { t.vec v with cnt := 0 }).raise v else t).memoryWf = true := by
    split
    · exact State.raise_memoryWf _ _ k
    · exact k
  unfold State.event
  split
  · exact key _ h
  · split
    · exact h
    · exact s.raise_memoryWf v h

theorem State.fault_memoryWf (s : State) (a m : Nat) (h : s.memoryWf = true) : (s.fault a m).memoryWf = true := by
  unfold State.fault
  dsimp only
  split
  · exact h
  · split
    · exact State.event_memoryWf _ _ (State.event_memoryWf _ _ (s.setReg_memoryWf _ _ h))
    · exact State.event_memoryWf _ _ (s.setReg_memoryWf _ _ h)

theorem State.err_memoryWf (s : State) (b : Nat) (c : Cause) (o : Nat) (q : Req) (h : s.memoryWf = true) :
    (s.err b c o q).memoryWf = true := by
  unfold State.err
  dsimp only
  split
  · exact State.fault_memoryWf _ _ _ (s.setReg_memoryWf _ _ h)
  · exact s.fault_memoryWf _ _ h

theorem State.count_memoryWf (s : State) (a n : Nat) (h : s.memoryWf = true) : (s.count a n).memoryWf = true := s.setReg_memoryWf _ _ h

theorem State.retryPush_memoryWf (s : State) (m : Nat) (c : RetryCmd) : (s.retryPush m c).memoryWf = s.memoryWf := by
  unfold State.retryPush
  dsimp only
  split <;> rfl

theorem State.actDraw_memoryWf (s : State) (m row : Nat) (h : s.memoryWf = true) : (s.actDraw m row).2.memoryWf = true := by
  unfold State.actDraw
  split
  · dsimp only
    split <;> exact s.setReg_memoryWf _ _ h
  · exact h

theorem State.activate_memoryWf (s : State) (m bank row : Nat) (h : s.memoryWf = true) : (s.activate m bank row).2.memoryWf = true :=
  State.actDraw_memoryWf _ _ _ ((s.retryPush_memoryWf _ _).trans h)

theorem State.neighbourRefresh_memoryWf (m bank : Nat) : (n : Nat) → (l : List Nat) → (s : State) → s.memoryWf = true →
    (State.neighbourRefresh m bank n l s).memoryWf = true
  | 0, _, _, h => h
  | _ + 1, [], _, h => h
  | n + 1, r :: _, s, h => State.neighbourRefresh_memoryWf m bank n _ _
      (State.count_memoryWf _ _ _ ((State.retryPush_memoryWf _ _ _).trans (s.activate_memoryWf m bank r h)))

theorem State.rowOpen_memoryWf (s : State) (m bank row : Nat) (h : s.memoryWf = true) : (s.rowOpen m bank row).2.memoryWf = true := by
  unfold State.rowOpen
  dsimp only
  rw [State.setBank_memoryWf]
  split
  · split
    · exact h
    · exact State.activate_memoryWf _ _ _ _ ((s.retryPush_memoryWf _ _).trans h)
  · exact s.activate_memoryWf _ _ _ h

theorem State.rowClose_memoryWf (s : State) (m bank row : Nat) (last : Bool) (ns : List Nat) (h : s.memoryWf = true) :
    (s.rowClose m bank row last ns).memoryWf = true := by
  refine State.neighbourRefresh_memoryWf m bank _ _ _ ?_
  split
  · exact (s.setBank_memoryWf _ _).trans h
  · split
    · exact (State.setBank_memoryWf _ _ _).trans ((s.retryPush_memoryWf _ _).trans h)
    · exact (s.setBank_memoryWf _ _).trans h

theorem State.setWregCountFault_memoryWf (s : State) (w c f n : Nat) (v : W72) (h : s.memoryWf = true) :
    (((s.setWreg w v).count c 1).fault f n).memoryWf = true :=
  State.fault_memoryWf _ _ _ (State.count_memoryWf _ _ _ (s.setWreg_memoryWf _ _ h))

theorem State.mcCommand_memoryWf (s : State) (m bank col : Nat) (r : McReq) (shut : Bool) (h : s.memoryWf = true) :
    (s.mcCommand m bank col r shut).memoryWf = true := by
  have a (t : State) (k : t.memoryWf = true) (x : W72 × Bool) : ({ t with dramOut := x } : State).memoryWf = true := k
  unfold State.mcCommand
  split
  · exact State.setDramCell_memoryWf _ _ _ _ ((s.retryPush_memoryWf _ _).trans h)
  · have b := a _ ((s.retryPush_memoryWf m (.rd bank col r.a shut)).trans h)
    dsimp only
    split
    · exact b _
    · have c := State.fault_memoryWf _ (Reg.mcFault m) 1 (State.count_memoryWf _ (Reg.mcCeCnt m) 1
        (b ((eccRead ((s.retryPush m (.rd bank col r.a shut)).dramCell m r.a)).1,
          (eccRead ((s.retryPush m (.rd bank col r.a shut)).dramCell m r.a)).2 = .poison ||
            (eccRead ((s.retryPush m (.rd bank col r.a shut)).dramCell m r.a)).2 = .bad)))
      split
      · exact (State.setMc_memoryWf _ _ _).trans c
      · exact c
    · exact State.setWregCountFault_memoryWf _ _ _ _ _ _ (b _)
    · exact State.setWregCountFault_memoryWf _ _ _ _ _ _ (b _)

/-- Serving a request keeps the canonical form (R275, R283, R285, R288). -/
theorem State.mcServeOne_memoryWf (s : State) (m : Nat) (r : McReq) (h : s.memoryWf = true) : (s.mcServeOne m r).memoryWf = true :=
  State.rowClose_memoryWf _ _ _ _ _ _ (State.mcCommand_memoryWf _ _ _ _ _ _ (s.rowOpen_memoryWf _ _ _ h))

theorem State.mcServe_memoryWf (m : Nat) : (n : Nat) → (s : State) → s.memoryWf = true → (State.mcServe m n s).memoryWf = true
  | 0, _, h => h
  | n + 1, s, h => by
    unfold State.mcServe
    split
    · exact h
    · dsimp only
      split
      · exact h
      · exact State.mcServe_memoryWf m n _ (State.mcServeOne_memoryWf _ _ _ ((s.setMc_memoryWf _ _).trans h))

theorem State.mcRequest_memoryWf (s : State) (m : Nat) (r : McReq) (h : s.memoryWf = true) : (s.mcRequest m r).memoryWf = true := by
  unfold State.mcRequest
  split
  · exact (s.setMc_memoryWf _ _).trans h
  · exact State.mcServe_memoryWf _ _ _ (s.mcServeOne_memoryWf _ _ h)

/-- A DRAM write keeps the canonical form, wherever it goes (R278, R279, R283). -/
theorem State.dramWrite_memoryWf (s : State) (a : Nat) (v : W72) (p : Bool) (h : s.memoryWf = true) :
    (s.dramWrite a v p).memoryWf = true := by
  unfold State.dramWrite
  split
  · exact s.fault_memoryWf _ _ h
  · dsimp only
    split
    · exact h
    · refine State.mcRequest_memoryWf _ _ _ ?_
      split
      · exact h
      · exact (s.setMc_memoryWf _ _).trans h

theorem State.dramWriteMany_memoryWf : (l : List W72) → (a : Nat) → (s : State) → s.memoryWf = true →
    (State.dramWriteMany l a s).memoryWf = true
  | [], _, _, h => h
  | v :: r, a, s, h => State.dramWriteMany_memoryWf r (a + 1) _ (s.dramWrite_memoryWf a v false h)

end Sys2Proof.Machine
end

