-- ==== Sys2Proof/Tests/Slice0.lean ====
section
/-!
SUPPORT. Tests: an ill-formed command for every check of Instr.wf, worked examples of the spec, and for every statement a state and
operands that meet its hypotheses.
-/
namespace Sys2Proof.Tests
open Sys2Proof Sys2Proof.Machine

/-! ## Well-formedness: what each check refuses -/

/-- Two coherent lanes of one code each. -/
def codes (x : Int) : ChCodes := [[x], [0]]

theorem test_wf_aligned : Instr.wf (.registerWrite .pcie 0x2 0xF 0 none) = false ∧ Instr.wf (.setAliasWrite .pcie 0x4001 0) = false ∧
    Instr.wf (.clrAliasWrite .spi 0x8003 0) = false ∧ Instr.wf (.tglAliasWrite .cp 0xC002 0) = false := by decide
theorem test_wf_access : Instr.wf (.unmappedAccess .pcie 0x7 ⟨0xF, none⟩) = false ∧ Instr.wf (.clearingRead .pcie ⟨0x41, 0xF⟩) = false ∧
    Instr.wf (.ackWrite .pcie 0x46 0) = false ∧ Instr.wf (.loRead .pcie ⟨0x30002, 0xF⟩) = false := by decide
theorem test_wf_wide : Instr.wf (.stageWrite .pcie 0x30005 0) = false ∧ Instr.wf (.hiCommit .pcie 0x3000A 0) = false := by decide
theorem test_wf_bitAlias : Instr.wf (.bitAliasWrite .pcie 0xEFFFFC 1) = false ∧ Instr.wf (.bitAliasWrite .pcie 0xF00280 1) = false ∧
    Instr.wf (.bitAliasWrite .pcie 0xF00002 1) = false ∧ Instr.wf (.bitAliasWrite .pcie 0xF0010C 1) = true := by decide
theorem test_wf_shotBoundary : Instr.wf (.shotBoundary 0 { codes := List.replicate 9 [] }) = false ∧
    Instr.wf (.shotBoundary 0 { codes := [codes 2048] }) = false ∧ Instr.wf (.shotBoundary 0 { codes := [codes 2047] }) = true := by decide
theorem test_wf_headTempReading : Instr.wf (.headTempReading 0 32768) = false := by decide
theorem test_wf_calSlotEnd : Instr.wf (.calSlotEnd 0 (codes (-2049))) = false ∧
    Instr.wf (.calSlotEnd 0 [[], [], [], [], [8192]]) = false := by decide
theorem test_wf_schedLastPeriodEnd : Instr.wf (.schedLastPeriodEnd 0 [codes 2048]) = false := by decide
theorem test_wf_traceWindowEnd : Instr.wf (.traceWindowEnd 0 (List.replicate 7 [])) = false := by decide
theorem test_wf_zoneInputWrite : Instr.wf (.zoneInputWrite 0 (2 ^ 63)) = false := by decide
theorem test_wf_dram : Instr.wf (.dramRead (2 ^ 36) 0) = false ∧ Instr.wf (.dramWrite (2 ^ 36) 0 false) = false ∧
    Instr.wf (.rowTimeout 0 32) = false := by decide
set_option maxRecDepth 8000 in
theorem test_wf_dmaBurst : Instr.wf (.dmaBurst 0 false (List.replicate 577 0) false) = false := by decide
theorem test_wf_busReply : Instr.wf (.busReply 0 0 (List.replicate 65 0)) = false := by decide
theorem test_wf_converters : Instr.wf (.padcOutput { xr := 2 ^ 23 }) = false ∧ Instr.wf (.hadcConversionDone 16384) = false := by decide
theorem test_wf_can : Instr.wf (.sdoRequest 0 [0]) = false ∧ Instr.wf (.rpdoReceive 0 0 (List.replicate 65 0)) = false ∧
    Instr.wf (.canRxFrame 0 ⟨5, false, false, false, false, List.replicate 9 0⟩) = false ∧
    Instr.wf (.canRxFrame 0 ⟨2048, false, false, false, false, []⟩) = false := by decide
theorem test_wf_bootFailure : Instr.wf (.bootFailure 0) = false ∧ Instr.wf (.bootFailure 5) = false ∧ Instr.wf (.bootFailure 4) = true := by
  decide

/-! ## Worked examples of the spec -/

/-- The state an outcome gives. -/
def after (o : Host.Outcome State Fault Refusal) : State :=
  match o with
  | .next t => t
  | _ => .reset

/-- The worked example of R14. -/
theorem test_number_functions : asr (-11) 2 = -3 ∧ rne (-11) 2 = -3 ∧ sat (-11) 4 = -8 ∧ wrap (-11) 4 = 5 ∧ bits (-11) 3 0 = 5 := by decide

/-- The worked example of R73: 64.5 degrees between 60 and 70. -/
theorem test_derate : (derate 1032 960 1120 0 false).1 = 36044 := by decide

/-- The worked example of R41: a locked write sets LOCKED and advances SEQ. -/
theorem test_locked_write :
    let s := (State.reset.setReg (Reg.headProbeLimit 1) 0x80001E00)
    let t := after (exec (.registerWrite .pcie (BitVec.ofNat _ (Reg.headProbeLimit 1)) 0xF 0x1F40 none) s)
    t.reg (Reg.headProbeLimit 1) = 0x80001E00 ∧ t.reg 0x113FF0 = 0x01000008 := by decide

/-- The words of the worked example of the Soric instruction set. -/
theorem test_soric_lis : decodeSoric 0xE2E0000000010040 = some (.lis 0x17 0x10040) := by decide
theorem test_soric_loop : decodeSoric 0x8400020021000000 = some (.loop false 0 64 0x021) := by decide
theorem test_soric_cmac : decodeSoric 0x108081F020880000 =
    some (.par (.reg 0x21 ⟨0, 1, 0, 0, true, 7, true, 0⟩) ⟨1, 0, 0, true, 1⟩ ⟨0, 0, 0, false, 0⟩) := by decide

/-- The worked example of R208: a wrap, then a pointer forced to its base by a shorter buffer. -/
theorem test_circular : stepCirc 0x13C 8 0x100 64 = (0x104, false) ∧ stepCirc 0x130 8 0x100 16 = (0x100, true) := by decide

/-- The worked example of R275: bits 0, 1 and 4 set, bit 1 flipped, and the word written poisoned. -/
theorem test_check_bits : eccCheck 0x13 = 0x1F ∧ eccSyndrome (eccStore 0x13 false ^^^ 2) = 0x0B ∧
    eccRead (eccStore 0x13 false ^^^ 2) = (0x13, .corrected) ∧ (eccStore 0x13 true).extractLsb' 72 8 = 0x60 ∧
    eccRead (eccStore 0x13 true) = (0x13, .poison) := by decide

/-- The worked example of the history word at Hollin Rise: channel, local address, bank group 2, bank 0, row and column of two words. -/
theorem test_dram_map :
    let s := (State.reset.setReg (Reg.mcGeom 0) 0x111).setReg (Reg.mcGeom 1) 0x11
    s.dramMap 0x147EE6F9 = (0, 0x0A3F73F9) ∧ s.dramRow 0 0x0A3F73F9 = (0, 4 * 2 + 0, 10493, 249) ∧
      s.dramMap 0x147EE700 = (1, 0x0A3F7300) ∧ s.dramRow 1 0x0A3F7300 = (0, 64 + 4 * 1 + 0, 10493, 192) ∧ s.dramWords = 2 ^ 32 := by decide

/-- The code of a request of 12,000 (R371). -/
theorem test_loop_code : loopCode 12000 = 31457 := by decide

/-- The phases of the worked example of R356. -/
theorem test_phases : divr 8811020 2 = 4405510 := by decide

/-- Reset values of the spec's register maps. -/
theorem test_reset_values : State.reset.reg (Reg.canCfg 1) = 0x120 ∧ State.reset.reg (Reg.canNode 0) = 1 ∧
    State.reset.rbit Reg.sysBootStat 5 = true := by decide

/-- The table gives no row bits, so no word spells a command. -/
theorem test_decode_table : decodeTableWord 64 0 = none ∧ (State.reset.withFetchWord 64 0).pending = [] := by decide

/-! ## What meets the hypotheses of each statement -/

theorem witness_StepRunsFrontCommand :
    ({ State.reset with pending := [.nmtStart 0 1] } : State).pending = [.nmtStart 0 1] ∧ State.reset.pending = [] := by decide

theorem witness_UnmappedAccessRecorded :
    State.reset.shut = false ∧ State.reset.target (wordAddr 0x140004) = .unmapped 0 4 ∧
      State.reset.target (wordAddr 0x100074) = .unmapped 0x100000 0x74 := by decide

theorem witness_ChirpStartFrequencyWrites :
    State.reset.shut = false ∧ (0x130040 : Addr).toNat = Reg.headChirpF0 3 ∧ State.reset.rbit (Reg.headStatus 3) 5 = false ∧
      (State.reset.setRbit (Reg.headStatus 3) 5 true).shut = false ∧
      (State.reset.setRbit (Reg.headStatus 3) 5 true).rbit (Reg.headStatus 3) 5 = true ∧ (7 : BitVec 4) ≠ 0xF := by decide

theorem witness_ReadClearAndAcknowledge :
    State.reset.shut = false ∧
      State.reset.target (wordAddr 0x4011C) = .reg .tdc 0 0x11C { off := 0x11C, n := 40, stride := 0x40, rc := 3 } .normal ∧
      State.reset.target (wordAddr 0x4411C) = .reg .tdc 0 0x11C { off := 0x11C, n := 40, stride := 0x40, rc := 3 } .set ∧
      State.reset.target (wordAddr 0x1000E4) = .reg .head 0 0xE4 { off := 0xE4, kind := .ack } .normal ∧
      field (0 : W32) 7 0 = State.reset.fld (Blk.head.at 0 + 0xE4 - 4) 31 24 ∧
      field (1 : W32) 7 0 ≠ State.reset.fld (Blk.head.at 0 + 0xE4 - 4) 31 24 := by decide

theorem witness_FaultBitsAdvanceSequenceOnce :
    Reg.headFault 0 ≠ Reg.canFault ∧ BitVec.ofNat 32 (1 % 2 ^ 24) &&& ~~~State.reset.reg (Reg.headFault 0) ≠ 0 ∧
      BitVec.ofNat 32 (1 % 2 ^ 24) &&& ~~~(State.reset.setReg (Reg.headFault 0) 0xFF000001).reg (Reg.headFault 0) = 0 ∧
      State.reset.fld (0 + 0x3FF0) 23 0 = 0 ∧ (State.reset.setReg 0x3FF0 0x01000080).fld (0 + 0x3FF0) 23 0 ≠ 0 := by decide

theorem witness_WideValueSnapshotAndStaging :
    let s := (State.reset.setReq .spi { lo := some (Reg.clHostMsg 31 3, 1), mid := some (Reg.clHostMsg 31 3, 2) })
    State.reset.shut = false ∧ s.shut = false ∧
      State.reset.target (wordAddr 0x30020) = .wide .time 0 0x20 0 false .normal ∧
      State.reset.target (wordAddr 0x30024) = .wide .time 0 0x20 1 false .normal ∧
      State.reset.target (wordAddr 0x7F0044) = .wide .cl 31 0x44 0 true .normal ∧
      State.reset.target (wordAddr 0x7F0048) = .wide .cl 31 0x44 1 true .normal ∧
      State.reset.target (wordAddr 0x7F4044) = .wide .cl 31 0x44 0 true .set ∧
      State.reset.target (wordAddr 0x7F004C) = .wide .cl 31 0x44 2 true .normal ∧
      s.target (wordAddr 0x7F004C) = .wide .cl 31 (0x20 + 12 * 3) 2 true .normal ∧
      (s.req .spi).lo = some (Reg.clHostMsg 31 3, 1) ∧ (s.req .spi).mid = some (Reg.clHostMsg 31 3, 2) ∧
      ((State.reset.req .spi).lo.map Prod.fst ≠ some (Blk.cl.at 31 + 0x44) ∨ (State.reset.req .spi).mid.map Prod.fst ≠ some (Blk.cl.at 31 + 0x44)) ∧
      View.set ≠ .normal := by decide

theorem witness_PrivilegedWindowWrites :
    State.reset.shut = false ∧ (0xF00188 : Addr).toNat = 0xF00000 + 4 * (32 * 3 + (2 : Fin 3)) ∧
      (0xF0018C : Addr).toNat = 0xF00000 + 4 * (32 * 3 + 3) ∧ (0xF001FC : Addr).toNat = 0xF00000 + 4 * (32 * 3 + 31) ∧
      (0x20004 : Addr).toNat = Reg.nvmWriteCtrl := by decide

theorem witness_HeadokAndArmBits :
    let s := State.reset.setHead 3 { headok := true, qualifying := true }
    (s.head 3).headok = true ∧ (s.head 3).qualifying = true ∧
      (State.reset.setRbit Reg.sysOptInterlock (8 + 3) true).rbit Reg.sysOptInterlock (8 + 3) = true ∧
      State.reset.rbit Reg.sysOptInterlock (8 + 0) = false ∧ State.reset.shut = false := by decide

theorem witness_HeadTemperatureAndSupervisor :
    let s := State.reset.setHead 0 { lmonOpen := 0x80, missLimit := 8, missRun := [0, 0, 0, 0, 0, 0, 0, 7] }
    let r := State.reset.setRbit (Reg.headHeadTemp 2) 16 true
    State.reset.fldS (Reg.headThermLim 2) 31 16 ≤ 1120 ∧ (State.reset.head 2).suspended = false ∧
      (960 : Int) < State.reset.fldS (Reg.headThermLim 2) 31 16 ∧ (960 : Int) ≤ State.reset.fldS (Reg.headThermLim 2) 15 0 ∧
      r.rbit (Reg.headHeadTemp 2) 16 = true ∧ r.rbit (Reg.headHeadTemp 2) 17 = false ∧
      (s.head ((7 : Chan) / 8)).lmonOpen.getLsbD ((7 : Chan) % 8) = true ∧
      (s.head ((7 : Chan) / 8)).lmonSeen.getLsbD ((7 : Chan) % 8) = false ∧
      s.shut = false ∧ State.reset.shut = false ∧ (s.head ((7 : Chan) / 8)).missRun.length = 8 ∧
      (s.head ((7 : Chan) / 8)).missLimit = (s.head ((7 : Chan) / 8)).missRun.getD ((7 : Chan) % 8) 0 + 1 := by decide

theorem witness_HeadokFallStopsTheLaser :
    let s := (State.reset.setRbit Reg.sysOptInterlock (8 + 1) true).setRbit Reg.sysOptInterlock 1 true
    s.rbit Reg.sysOptInterlock (8 + 1) = true ∧ s.rbit Reg.sysOptInterlock 1 = true ∧ (0 : Nat) ≠ 1 := by decide

theorem witness_ProbeSetCommit :
    State.reset.commitOk 2 = true ∧ State.reset.shut = false ∧ State.reset.period 2 ∈ State.reset.periods 2 ∧
      State.reset.laneStep 2 = none ∧
      (let s := State.reset.setReg (Reg.headSlot 2 0) 0x7FFFFFFF
       s.commitOk 2 = false ∧ s.shut = false) := by decide

theorem witness_ChirpSynthesis :
    let r := ((State.reset.setRbit (Reg.headStatus 1) 0 true).setReg (Reg.headChirpCfg 1) 0x100001).setSched 1 { started := true }
    let b := State.reset.setHead 1 { pend := some { bank := 0 } }
    r.shut = false ∧ r.rbit (Reg.headStatus 1) 5 = false ∧ r.headRunning 1 = true ∧ (r.head 1).act.bank ≠ r.fld (Reg.headChirpCfg 1) 20 20 ∧
      (∀ p, (State.reset.head 1).pend = some p → p.bank ≠ State.reset.fld (Reg.headChirpCfg 1) 20 20) ∧ b.shut = false ∧
      (b.head 1).pend.map ProbeSet.bank = some (b.fld (Reg.headChirpCfg 1) 20 20) ∧
      (let x := (State.reset.setRbit (Reg.headStatus 1) 0 true).setSched 1 { started := true }
       x.headRunning 1 = true ∧ (x.head 1).act.bank = x.fld (Reg.headChirpCfg 1) 20 20) ∧
      (State.reset.setRbit (Reg.headStatus 1) 5 true).rbit (Reg.headStatus 1) 5 = true ∧
      (-2 ^ 17 : Int) ≤ -2 ^ 17 ∧ (-2 ^ 17 : Int) < 2 ^ 17 ∧ (-2 ^ 17 : Int) ≤ 2 ^ 17 - 1 ∧ (2 ^ 17 - 1 : Int) < 2 ^ 17 := by decide

theorem witness_ShotSchedule :
    let s := State.reset.setRbit (Reg.shotCfg 3) 0 true
    let e := State.reset.setSched 3 { ending := true }
    shotCheck State.reset (0x100 * 3) (withBit (State.reset.reg (Reg.shotCfg 3)) 0 true) = none ∧
      (let r := State.reset.setReg (Reg.shotCfg 3) 0x30
       r.shut = false ∧ shotCheck r (0x100 * 3) (withBit (r.reg (Reg.shotCfg 3)) 0 true) = some .enc) ∧ State.reset.shut = false ∧
      s.rbit (Reg.shotCfg 3) 0 = true ∧ (s.sched 3).ending = false ∧ s.rbit (Reg.shotStatus 3) 3 = false ∧ (0 : Nat) ≠ 3 ∧
      State.reset.rbit (Reg.shotCfg 3) 0 = false ∧ (e.sched 3).ending = true := by decide

theorem witness_SubProbesFollowersAndPps :
    let s := (State.reset.setSched 1 { launched := true, started := true, mode := 1, src := 0 }).setHead 1 { act := { train := 3 } }
    let f := s.setRbit (Reg.shotStatus 1) 1 true
    let p := State.reset.setSched 3 { mode := 2, started := true }
    let w := State.reset.setRbit (Reg.shotStatus 3) 3 true
    (s.sched 1).launched = true ∧ (s.sched 1).started = true ∧ (s.sched 1).tripped = false ∧ s.noProbe = false ∧ State.reset.shut = false ∧ p.shut = false ∧ (7 : Fin 8).val < 2 ^ (s.head 1).act.train ∧
      (7 : Fin 8).val ≠ 0 ∧ (State.reset.sched 1).launched = false ∧ f.rbit (Reg.shotStatus 1) 1 = true ∧ (f.sched 1).mode = 1 ∧
      f.rbit (Reg.shotCfg (f.sched 1).src) 0 = false ∧ (State.reset.sched 0).mode ≠ 2 ∧ (State.reset.sched 3).mode ≠ 2 ∧
      (p.sched 3).mode = 2 ∧ (p.sched 3).started = true ∧ p.rbit (Reg.shotStatus 3) 3 = false ∧
      ((p.sched 3).alignWin : Int) < (nth [0, 0, 0, -100000] (3 : Head).val (0 : Int)).natAbs ∧
      (∀ (u : Fin 8) (stop : Bool), State.reset.tdcSrc (32 + u) stop ≠ 8) ∧ w.rbit (Reg.shotStatus 3) 3 = true := by decide

theorem witness_TimeSourcesAndSteps :
    let a := (State.reset.setRbit Reg.timeSrcCtrl 0 true).setRbit Reg.timeSrcPolicy 0 true
    let b := State.reset.setRbit Reg.timeSrcStatus 1 true
    let c : State := { State.reset.setRbit Reg.timeSrcStatus 2 true with time := { switchTo := some false } }
    let d := State.reset.setReq .cp { lo := some (Reg.timeStep, 1), mid := some (Reg.timeStep, 0) }
    let e := d.setRbit Reg.timeSrcPolicy 2 true
    let f := d.setRbit Reg.timeSrcPolicy 2 false
    a.shut = false ∧ b.shut = false ∧ (State.reset.setRbit Reg.timeSrcStatus 3 true).shut = false ∧
      (State.reset.setRbit Reg.timeSrcStatus 0 true).shut = false ∧ State.reset.shut = false ∧ a.rbit Reg.timeSrcCtrl 0 = true ∧ a.rbit Reg.timeSrcPolicy 0 = true ∧ a.rbit Reg.timeSrcStatus 0 = false ∧
      (true && false) = false ∧ b.rbit Reg.timeSrcStatus 1 = true ∧ 2000 < (((20000041 : Nat) : Int) - 20000000) * 50 ∧
      ((((20000040 : Nat) : Int) - 20000000) * 50).natAbs ≤ 2000 ∧ b.lowestOn = none ∧ State.reset.time.switchTo = none ∧
      (State.reset.setRbit Reg.timeSrcStatus 0 true).rbit Reg.timeSrcStatus 0 = true ∧
      (State.reset.setRbit Reg.timeSrcStatus 0 true).rbit Reg.timeSrcStatus 2 = false ∧
      ((State.reset.setRbit (Reg.shotCfg 0) 0 true).lowestOn ≠ none) ∧ c.rbit Reg.timeSrcStatus 2 = true ∧ c.time.switchTo = some false ∧
      (State.reset.setRbit Reg.timeSrcStatus 3 true).rbit Reg.timeSrcStatus 3 = true ∧
      e.shut = false ∧ (e.req .cp).lo = some (Reg.timeStep, 1) ∧ (e.req .cp).mid = some (Reg.timeStep, 0) ∧
      e.rbit Reg.timeSrcPolicy 2 = true ∧ e.lowestOn = none ∧ (∀ h : Fin 4, (e.sched h).mode ≠ 2) ∧
      f.shut = false ∧ (f.req .cp).lo = some (Reg.timeStep, 1) ∧ f.rbit Reg.timeSrcPolicy 2 = false := by decide

theorem witness_TimeIntervalUnits :
    let s := State.reset.setTdc 39 { armed := true, start := some 5, stop := some 9 }
    let a := State.reset.setTdc 0 { armed := true }
    let g := State.reset.setReg (tdcCfgAt 39) 2
    let c := (State.reset.setRbit Reg.tdcCtrl 0 true).setRbit Reg.tdcStatus 1 true
    (State.reset.tdc 39).armed = false ∧ (a.tdc 0).armed = true ∧ (a.tdc 0).start = none ∧ (a.tdc 0).stop = none ∧ (0 : Unit40).val < 32 ∧
      (s.tdc 39).armed = true ∧ (s.tdc 39).start = some 5 ∧ (s.tdc 39).stop = some 9 ∧ (0 : Nat) ≠ 39 ∧ 32 ≤ (39 : Unit40).val ∧
      ((State.reset.setTdc 39 { armed := true }).tdc 39).stop = none ∧ State.reset.fld (tdcCfgAt 39) 11 8 < 8 ∧
      (State.reset.tdc 39).hold = false ∧ State.reset.armMode 39 = 0 ∧ g.armMode 39 = 1 ∧ (g.tdc 39).armed = false ∧
      (g.tdc 39).hold = false ∧ ((State.reset.setTdc 3 { hold := true }).tdc 3).hold = true ∧
      State.reset.shut = false ∧ c.shut = false ∧ c.rbit Reg.tdcCtrl 0 = true ∧
      (false && c.rbit Reg.tdcStatus 0 || true && c.rbit Reg.tdcStatus 1) = true ∧
      (∀ u : Fin 8, (State.reset.tdc (32 + u)).armed = false ∧ State.reset.armMode (32 + u) ≠ 2) ∧
      (let p := (State.reset.setReg (tdcCfgAt 39) 0x170).setTdc 39 { armed := true }
       p.rbit (0x40104 + 0x40 * (32 + 7)) 0 = false ∧ (∀ u : Fin 8, p.armMode (32 + u) ≠ 2) ∧ p.fld (tdcCfgAt 39) 7 4 = 7 ∧
         p.fld (tdcCfgAt 39) 11 8 ≠ 7 ∧ (p.tdc 39).armed = true ∧ (p.tdc 39).start = none) := by decide
/-- A shot record for the witnesses. -/
def recSample : RecSt :=
  { index := 1, stamp := 0, skipped := false, settle := false, timeStep := false, unsync := false, train := 0
    period := 100000, probe := {}, mark := 64, gaugeCount := 1, ffc := 0, alignOfs := 0, outShift := 28
    trace := 1300, spectrum := [], specSize := 3, er := 0 }

theorem witness_TimeIntervalUnits_handOver :
    let s := (State.reset.setTdc 31 { armed := true, start := some 5, stop := some 9, shot := 1 }).setCe 31 { recs := [recSample] }
    (s.tdc 31).armed = true ∧ (s.tdc 31).start = some 5 ∧ (s.tdc 31).stop = some 9 ∧ (31 : Unit40).val < 32 ∧
      (s.ce 31).recs.find? (fun x => !x.skipped && x.q.isNone && decide (x.index = (s.tdc 31).shot)) = some recSample := by decide

theorem witness_LaneCalibrationSlots :
    let s := (State.reset.setLane 31 { cur := { slot := some ⟨0, 16, 1, 0x3F, 0⟩ } }).setRbit (Reg.laneStatus 31) 24 true
    State.reset.shut = false ∧ (State.reset.setLane 31 { slotDue := true }).shut = false ∧
      (State.reset.lane 31).armed = false ∧ (State.reset.lane 31).slotDue = false ∧ State.reset.rbit (Reg.laneStatus 31) 24 = false ∧
      ((State.reset.setLane 31 { slotDue := true }).lane 31).slotDue = true ∧
      (s.lane 31).cur.slot = some ⟨0, 16, 1, 0x3F, 0⟩ ∧ s.rbit (Reg.laneStatus 31) 24 = true ∧
      s.laneStep ((31 : Chan) / 8) = none ∧ (0x3F : BitVec 6).getLsbD (5 : Fin 6) = true := by decide

theorem witness_CalibrationRequests :
    let s := State.reset.setRbit Reg.hkStatus 0 true
    let b := State.reset.setReg (Reg.pfeSlotDest 15) 0x82000000
    State.reset.shut = false ∧ s.shut = false ∧ b.shut = false ∧ b.rbit Reg.pfeCtrl 0 = false ∧ b.padc.inPass = false ∧
      s.rbit Reg.hkStatus 0 = true ∧ s.hadc.inj = none ∧ s.hadc.conv = none ∧ s.hadc.quince = none ∧
      s.fld Reg.calTempCfg 31 16 ≤ 100 ∧ 99 < s.fld Reg.calTempCfg 31 16 ∧ b.quince.swapDue = false ∧ b.slotOn 15 = true ∧
      b.slotKind 15 = 2 := by decide

theorem witness_CompressionRecordsAndTotals :
    let w := State.reset.setCe 31 { recs := [recSample] }
    let g := State.reset.setCe 31 { recs := [{ recSample with q := some 0 }] }
    let k := State.reset.setCe 31 { recs := [{ recSample with skipped := true, words := some [] }] }
    let f := State.reset.setCe 31 { flush := some (⟨0, 0, 0, 0, 0, 1, 0⟩, true) }
    (State.reset.ce 31).recs.find? RecSt.waitsQ = none ∧ (State.reset.ce 31).recs = [] ∧ (State.reset.ce 31).ramans = [] ∧
      (State.reset.lane 31).tail = none ∧ (g.lane 31).tail = none ∧ State.reset.shut = false ∧
      (w.ce 31).recs.find? RecSt.waitsQ = some recSample ∧ (g.ce 31).recs = [{ recSample with q := some 0 }] ∧
      (g.ce 31).ramans = [] ∧ recSample.skipped = false ∧ ({ recSample with q := some 0 } : RecSt).q = some 0 ∧
      recSample.gauges = none ∧ recSample.span = none ∧ (0 : Nat) ≠ 31 ∧ 0 < trainLen recSample.train ∧
      0 < (recSample.gaugeCount + trainLen recSample.train - 1) / trainLen recSample.train ∧
      (k.ce 31).recs = [{ recSample with skipped := true, words := some [] }] ∧
      ({ recSample with skipped := true, words := some [] } : RecSt).ready = true ∧ recSample.ready = false ∧
      (State.reset.reg (Reg.ceOutWp 31) - 0).toNat ≤ State.reset.fld (Reg.ceOutLen 31) 16 0 ∧
      State.reset.fld (Reg.ceOutLen 31) 16 0 < (State.reset.reg (Reg.ceOutWp 31) - 0x80000000).toNat ∧
      (f.ce 31).flush = some (⟨0, 0, 0, 0, 0, 1, 0⟩, true) ∧
      (f.ce 31).coveredBy ⟨0, 0, 0, 0, 0, 1, 0⟩ 0 = [] := by decide

theorem witness_CalibrationSteps :
    let i := State.reset.setReg Reg.calCtrl 0x3F
    let iq : State := { i with quince := { i.quince with iqDue := 0x80 } }
    let st : LaneStep := { ch := 7, attempts := 1, slot := 1, started := true }
    let m := State.reset.setLaneStep 0 (some st)
    let qt := (List.range 6).foldl (fun t p => t.setReg (Reg.laneQstat 7 p) 0x10010) m
    let one : IqSums := ⟨0, 0, 65536, 65536, 0, 65536⟩
    let tap : LaneStep := { ch := 7, iq := true, attempts := 1, tapX := one, tapY := one, tapShots := 65535 }
    let a := State.reset.setLaneStep 0 (some tap)
    let p : State := { i.setReg Reg.calPadcCfg 0x8000 with quince := { i.quince with padcDue := true } }
    let c : State := { i with quince := { i.quince with matchDue := true } }
    let d : State := { i.setRbit Reg.nvmWriteCtrl 2 true with quince := { i.quince with storeDue := true } }
    iq.laneStep 0 = none ∧ iq.laneNext 0 = some 7 ∧ (iq.calKind 1 && iq.quince.laneDue.getLsbD 7 && iq.laneMay 7) = false ∧
      qt.laneStep 0 = some st ∧ (qt.lane 7).cur.slot = none ∧ qt.allQuiet 7 = true ∧ m.laneStep 0 = some st ∧ m.allQuiet 7 = false ∧
      st.checked < st.slot ∧ st.checked < 3 ∧ qt.shut = false ∧ m.shut = false ∧
      a.laneStep 0 = some tap ∧ a.fld Reg.calIqCfg 31 16 ≤ tap.tapShots ∧ tap.iqA = none ∧ iqMatrix one = some (0, 16384) ∧
      iqMatrix { one with n := 1 } = none ∧ p.padcStands = true ∧ p.padcIdle = true ∧
      (if p.quince.padcLeft = 0 then p.fld Reg.calPadcCfg 15 8 else p.quince.padcLeft).testBit 7 = true ∧
      padcCorr (List.replicate 16 5) (List.replicate 16 6291461) = (5, 4194304) ∧ mean (List.replicate 16 6291461) ≠ mean (List.replicate 16 5) ∧ divr (5 + 5) 2 = 5 ∧ divr (4194304 + 4194304) 2 = 4194304 ∧
      (c.quince.matchDue && c.calKind 4 && !c.padcStands && c.padcIdle) = true ∧ c.matchTrims [9, 9, 9, 9] = [0, 0, 0, 0] ∧
      (d.calKind 5 && d.quince.storeDue && !d.quince.storing && d.calClear) = true ∧ d.rbit Reg.nvmWriteCtrl 2 = true ∧
      d.rbit Reg.nvmProt 3 = false ∧ State.reset.quince.storeDue = false := by decide

theorem witness_CalibrationSteps_place :
    let i := State.reset.setReg Reg.calCtrl 0x3F
    let on := ((i.setReg (Reg.shotCfg 0) 1).setReg (Reg.ceCtrl 7) 1)
    let la : State := { on with quince := { on.quince with laneDue := 0x80 } }
    let qs (s : State) := (List.range 6).foldl (fun t p => t.setReg (Reg.laneQstat 7 p) 0x10010) s
    let fit := qs ((la.setReg (Reg.shotNgapLen 0) 10000).setReg (Reg.laneQuietCfg 7) 16)
    fit.laneStep 0 = none ∧ fit.laneNext 0 = some 7 ∧ (fit.calKind 1 && fit.quince.laneDue.getLsbD 7 && fit.laneMay 7) = true ∧
      fit.fld (Reg.shotNgapStart 0) 23 0 = 0 ∧ fit.fld (Reg.shotNgapLen 0) 23 0 = 10000 ∧ fit.fld Reg.calLaneLen 10 0 ≤ 1024 ∧
      fit.fld (Reg.laneQuietStart 7) 23 0 = 0 ∧ fit.fld (Reg.laneQuietCfg 7) 10 0 = 16 ∧ fit.allQuiet 7 = true ∧ fit.slotBusy 7 = false ∧
      la.laneNext 0 = some 7 ∧ la.fld (Reg.shotNgapLen 0) 23 0 = 0 ∧ la.fld (Reg.shotNgapStart 0) 23 0 = 0 := by decide

theorem witness_CalibrationSteps_judge :
    let qs (s : State) := (List.range 6).foldl (fun t p => t.setReg (Reg.laneQstat 7 p) 0x10010) s
    let sl (n : Nat) := (State.reset.setLaneStep 0 (some { ch := 7, attempts := 1, slot := n, checked := n, started := true })).setRbit
      (Reg.laneStatus 7) 24 true
    let ends (n : Nat) := (((sl n).setLane 7 { (sl n).lane 7 with cur := { slot := some ⟨0, 16, 1, 0x3F, 0⟩ } }).setReg
      (Reg.shotNgapLen 0) 10000).setReg (Reg.laneQuietCfg 7) 16
    let jm : List (List (Int × Int)) := [List.replicate 6 (1, 0), List.replicate 6 (1, 0), List.replicate 6 (16384, 2), List.replicate 6 (16384, 2)]
    let ju : LaneStep := { ch := 7, attempts := 9, slot := 4, checked := 3, started := true, meas := jm }
    let jq := qs (State.reset.setLaneStep 0 (some ju))
    (ends 0).laneStep 0 = some { ch := 7, attempts := 1, slot := 0, checked := 0, started := true } ∧
      ((ends 0).lane 7).cur.slot = some ⟨0, 16, 1, 0x3F, 0⟩ ∧ (ends 0).rbit (Reg.laneStatus 7) 24 = true ∧ ((ends 0).calPlace 7).isSome ∧
      jq.laneStep 0 = some ju ∧ jq.shut = false ∧ ju.checked < ju.slot ∧ ju.checked = 3 ∧ (jq.lane 7).cur.slot = none ∧ jq.allQuiet 7 = true ∧
      (jq.fld Reg.calTolB 19 16 < ju.attempts) ∧ divr (1 + 1) 2 = 1 ∧ divr (16384 + 16384) 2 = 16384 ∧ divr (2 + 2) 2 = 2 := by decide

theorem witness_HousekeepingConverter :
    let r := (State.reset.setReg Reg.hkCtrl 0x13).setRbit Reg.hkStatus 0 true
    let c := r.setReg Reg.hkRegCfg 0x02000001
    let m : State := { c with hadc := { c.hadc with reg := some 4, inj := some 2 } }
    let h := r.setReg Reg.hkInjCfg 0x32000001
    let d : State := { State.reset with hadc := { conv := some (.reg 31) } }
    let u : State := { State.reset with hadc := { conv := some (.quince 3), quince := some 3 } }
    State.reset.shut = false ∧ r.shut = false ∧ m.shut = false ∧ u.hadc.conv = some (.quince 3) ∧ State.reset.fld Reg.hkCtrl 5 4 ≠ 1 ∧ r.fld Reg.hkCtrl 5 4 = 1 ∧ r.fld Reg.hkRegCfg 25 24 = 0 ∧ r.rbit Reg.hkCtrl 0 = true ∧
      r.rbit Reg.hkStatus 0 = true ∧ r.hadc.reg = none ∧ c.fld Reg.hkRegCfg 25 24 = 2 ∧ c.rbit Reg.hkCtrl 0 = true ∧
      c.rbit Reg.hkStatus 0 = true ∧ m.hadc.reg = some 4 ∧ r.fld Reg.hkInjCfg 25 24 = 0 ∧ r.rbit Reg.hkCtrl 1 = true ∧
      r.hadc.inj = none ∧ m.fld Reg.hkInjCfg 25 24 = 0 ∧ m.hadc.inj = some 2 ∧ h.fld Reg.hkInjCfg 25 24 = 2 ∧
      h.fld Reg.hkInjCfg 29 28 = (3 : Head).val ∧ h.hadc.inj = none ∧ d.hadc.conv = some (.reg 31) ∧ State.reset.hadc.conv = none := by
  decide

theorem witness_LoopOutputs :
    let r := State.reset.reg Reg.loopRange
    let c := State.reset.setReg (Reg.loopCfg 7) 0x00010000
    let m := (State.reset.setReg (Reg.loopReadback 7) 0xFFFF)
    let o := (State.reset.setReg (Reg.loopTarget 7) 3600).setRbit (Reg.loopCfg 7) 0 true
    100 * field r 22 16 < 4000 ∧ 4000 < 100 * field r 30 23 ∧ 100 * field r 7 0 ≤ 4000 ∧ 4000 ≤ 100 * field r 15 8 ∧
      field r 22 16 < field r 7 0 ∧ field r 7 0 < field r 15 8 ∧ field r 15 8 < field r 30 23 ∧
      c.fld (Reg.loopCfg 7) 31 16 ≠ 0 ∧ (c.loopQ 7).2 = true ∧ m.loopOff 7 = true ∧ (m.loopOut 7).isOpen = false ∧
      (m.setReg (Reg.loopTarget 7) 0xFFFF).loopOff 7 = false ∧
      State.reset.shut = false ∧ c.shut = false ∧ m.shut = false ∧ o.shut = false ∧ o.rbit (Reg.loopCfg 7) 0 = true ∧
      3600 ≤ o.fld (Reg.loopTarget 7) 15 0 ∧ (o.setReg (Reg.loopTarget 7) 3599).fld (Reg.loopTarget 7) 15 0 < 3600 := by decide

theorem witness_PrecisionSequence :
    let r := (State.reset.setRbit Reg.pfeCtrl 0 true).setFld Reg.pfeSeqCfg 31 16 0
    let n : State := { State.reset with padc := { inPass := true, slot := 15 } }
    let p : State := { State.reset.setReg (Reg.pfeSlotExc 15) 0x10000080 with padc := { inPass := true, slot := 15 } }
    let w : State := { State.reset with padc := { inPass := true, slot := 15, waitComp := true } }
    let b := (State.reset.setRbit Reg.pfeBoReq 15 true).setTests 0x8000
    let d : State := { State.reset.setReg (Reg.pfeSlotDest 15) 0x83000000 with padc := { due := [⟨15, 9, false, 77⟩] } }
    n.padc.inPass = true ∧ n.padc.waitComp = false ∧ (n.setReg (Reg.pfeSlotDest 15) 0).slotNavg n.padc.slot ≤ 1 ∧
      n.padc.slot < 16 ∧ r.rbit Reg.pfeCtrl 0 = true ∧ r.padc.inPass = false ∧ r.fld Reg.pfeSeqCfg 31 16 = 0 ∧ p.padc.inPass = true ∧
      p.padc.waitComp = false ∧ p.padc.slot < 16 ∧ p.slotDriven p.padc.slot = true ∧ w.padc.inPass = true ∧
      w.padc.waitComp = true ∧ b.padc.tests.getLsbD 15 = true ∧ b.padc.tests ≠ 0 ∧ State.reset.padc.tests.getLsbD 15 = false ∧ r.padc.tests = 0 ∧
      d.padc.due = [⟨15, 9, false, 77⟩] ∧ d.slotKind 15 = 3 ∧ d.fld (Reg.pfeSlotDest 15) 5 0 = 0 := by decide

theorem witness_ScalarSumsAndComparisons :
    let x := State.reset.setCore 255 { mode := .running }
    (x.core 255).sized = true ∧ x.canIssue 255 (.par (.reg 0x01 ⟨15, 1, 0, 0, false, 0, false, 0⟩) ⟨1, 1, 0, true, 9⟩ ⟨3, 0, 1, true, 8⟩) = true ∧
    x.canIssue 255 (.par (.reg 0x02 ⟨15, 1, 2, 0, false, 0, false, 0⟩) ⟨1, 1, 0, true, 9⟩ ⟨3, 0, 1, true, 8⟩) = true ∧
    x.canIssue 255 (.par (.reg 0x02 ⟨15, 1, 0, 0, true, 7, true, 0⟩) ⟨1, 1, 0, true, 9⟩ ⟨3, 0, 1, true, 8⟩) = true ∧
    x.canIssue 255 (.par (.reg 0x03 ⟨15, 1, 2, 0, false, 0, false, 0⟩) ⟨1, 1, 0, true, 9⟩ ⟨3, 0, 1, true, 8⟩) = true ∧
    x.canIssue 255 (.par (.reg 0x04 ⟨15, 1, 2, 0, false, 0, false, 0⟩) ⟨1, 1, 0, true, 9⟩ ⟨3, 0, 1, true, 8⟩) = true ∧
    x.canIssue 255 (.par (.reg 0x05 ⟨15, 1, 2, 0, false, 0, false, 0⟩) ⟨1, 1, 0, true, 9⟩ ⟨3, 0, 1, true, 8⟩) = true ∧
    x.canIssue 255 (.par (.reg 0x06 ⟨0, 1, 2, 0, false, 0, false, 0⟩) ⟨1, 1, 0, true, 9⟩ ⟨3, 0, 1, true, 8⟩) = true ∧
    x.canIssue 255 (.par (.reg 0x07 ⟨15, 1, 0, 0, false, 0, false, 0⟩) ⟨1, 1, 0, true, 9⟩ ⟨3, 0, 1, true, 8⟩) = true ∧
    x.canIssue 255 (.par (.reg 0x08 ⟨15, 1, 0, 0, false, 0, false, 0⟩) ⟨1, 1, 0, true, 9⟩ ⟨3, 0, 1, true, 8⟩) = true ∧
    x.canIssue 255 (.par (.reg 0x09 ⟨15, 1, 0, 0, true, 7, true, 0⟩) ⟨1, 1, 0, true, 9⟩ ⟨3, 0, 1, true, 8⟩) = true ∧
    x.canIssue 255 (.par (.reg 0x0A ⟨15, 1, 2, 0, false, 0, false, 0⟩) ⟨1, 1, 0, true, 9⟩ ⟨3, 0, 1, true, 8⟩) = true := by decide

theorem witness_ScalarLogicProductsAndQuotients :
    let x := State.reset.setCore 255 { mode := .running }
    (x.core 255).sized = true ∧ x.canIssue 255 (.par (.reg 0x00 ⟨0, 0, 0, 0, false, 0, false, 0⟩) ⟨1, 1, 0, true, 9⟩ ⟨3, 0, 1, true, 8⟩) = true ∧
    x.canIssue 255 (.par (.reg 0x0B ⟨15, 1, 2, 0, false, 0, false, 0⟩) ⟨1, 1, 0, true, 9⟩ ⟨3, 0, 1, true, 8⟩) = true ∧
    x.canIssue 255 (.par (.reg 0x0C ⟨15, 1, 0, 0, true, 7, true, 0⟩) ⟨1, 1, 0, true, 9⟩ ⟨3, 0, 1, true, 8⟩) = true ∧
    x.canIssue 255 (.par (.reg 0x0D ⟨15, 1, 2, 0, false, 0, false, 0⟩) ⟨1, 1, 0, true, 9⟩ ⟨3, 0, 1, true, 8⟩) = true ∧
    x.canIssue 255 (.par (.reg 0x0E ⟨15, 1, 2, 0, false, 0, false, 0⟩) ⟨1, 1, 0, true, 9⟩ ⟨3, 0, 1, true, 8⟩) = true ∧
    x.canIssue 255 (.par (.reg 0x0F ⟨15, 1, 2, 0, false, 0, false, 0⟩) ⟨1, 1, 0, true, 9⟩ ⟨3, 0, 1, true, 8⟩) = true ∧
    x.canIssue 255 (.par (.reg 0x10 ⟨15, 1, 2, 0, false, 0, false, 0⟩) ⟨1, 1, 0, true, 9⟩ ⟨3, 0, 1, true, 8⟩) = true ∧
    x.canIssue 255 (.par (.reg 0x11 ⟨15, 1, 0, 0, false, 0, false, 0⟩) ⟨1, 1, 0, true, 9⟩ ⟨3, 0, 1, true, 8⟩) = true := by decide

theorem witness_ComplexSumsAndProducts :
    let x := State.reset.setCore 255 { mode := .running }
    (x.core 255).sized = true ∧ x.canIssue 255 (.par (.reg 0x14 ⟨15, 1, 2, 0, false, 0, false, 0⟩) ⟨1, 1, 0, true, 9⟩ ⟨3, 0, 1, true, 8⟩) = true ∧
    x.canIssue 255 (.par (.reg 0x15 ⟨15, 1, 0, 0, true, 7, true, 0⟩) ⟨1, 1, 0, true, 9⟩ ⟨3, 0, 1, true, 8⟩) = true ∧
    x.canIssue 255 (.par (.reg 0x16 ⟨15, 1, 0, 0, false, 0, false, 0⟩) ⟨1, 1, 0, true, 9⟩ ⟨3, 0, 1, true, 8⟩) = true ∧
    x.canIssue 255 (.par (.reg 0x17 ⟨15, 1, 0, 0, false, 0, false, 0⟩) ⟨1, 1, 0, true, 9⟩ ⟨3, 0, 1, true, 8⟩) = true ∧
    x.canIssue 255 (.par (.reg 0x18 ⟨15, 1, 0, 0, false, 0, false, 0⟩) ⟨1, 1, 0, true, 9⟩ ⟨3, 0, 1, true, 8⟩) = true ∧
    x.canIssue 255 (.par (.reg 0x20 ⟨15, 1, 2, 0, false, 0, false, 9⟩) ⟨1, 1, 0, true, 9⟩ ⟨3, 0, 1, true, 8⟩) = true ∧
    (9 : BitVec 4).getLsbD 3 = true := by decide

theorem witness_AccumulatorInstructions :
    let x := State.reset.setCore 255 { mode := .running }
    (x.core 255).sized = true ∧ x.canIssue 255 (.par (.reg 0x21 ⟨0, 1, 2, 3, false, 0, false, 4⟩) ⟨1, 1, 0, true, 9⟩ ⟨3, 0, 1, true, 8⟩) = true ∧
    x.canIssue 255 (.par (.reg 0x21 ⟨0, 1, 0, 3, true, 7, true, 0⟩) ⟨1, 1, 0, true, 9⟩ ⟨3, 0, 1, true, 8⟩) = true ∧
    x.canIssue 255 (.par (.reg 0x26 ⟨0, 0, 0, 3, false, 0, false, 0⟩) ⟨1, 1, 0, true, 9⟩ ⟨3, 0, 1, true, 8⟩) = true ∧
    x.canIssue 255 (.par (.reg 0x27 ⟨0, 3, 0, 2, false, 0, false, 0⟩) ⟨1, 1, 0, true, 9⟩ ⟨3, 0, 1, true, 8⟩) = true ∧
    x.canIssue 255 (.par (.con 0x22 ⟨15, 0, 0, 3, 79, true⟩) noMove noMove) = true ∧
    x.canIssue 255 (.par (.con 0x23 ⟨15, 0, 0, 3, 0, false⟩) noMove noMove) = true ∧
    x.canIssue 255 (.par (.con 0x24 ⟨15, 0, 0, 3, 79, false⟩) noMove noMove) = true ∧
    x.canIssue 255 (.par (.con 0x25 ⟨0, 15, 0, 3, 43, false⟩) noMove noMove) = true ∧
    x.canIssue 255 (.par (.con 0x25 ⟨0, 15, 0, 3, 7, true⟩) noMove noMove) = true ∧
    (4 : BitVec 4).getLsbD 2 = true ∧
    (0 : BitVec 4).getLsbD 2 = false := by decide

theorem witness_ButterflyAndPhaseInstructions :
    let x := State.reset.setCore 255 { mode := .running }
    (x.core 255).sized = true ∧ x.canIssue 255 (.par (.reg 0x30 ⟨15, 1, 2, 0, false, 0, false, 3⟩) ⟨1, 1, 0, true, 9⟩ ⟨3, 0, 1, true, 8⟩) = true ∧
    x.canIssue 255 (.par (.reg 0x30 ⟨15, 1, 2, 0, true, 7, true, 0⟩) ⟨1, 1, 0, true, 9⟩ ⟨3, 0, 1, true, 8⟩) = true ∧
    x.canIssue 255 (.par (.reg 0x31 ⟨0, 0, 0, 0, false, 0, false, 0⟩) noMove noMove) = true ∧
    x.canIssue 255 (.par (.reg 0x38 ⟨15, 1, 0, 0, false, 0, false, 0⟩) ⟨1, 1, 0, true, 9⟩ ⟨3, 0, 1, true, 8⟩) = true ∧
    x.canIssue 255 (.par (.reg 0x39 ⟨15, 1, 0, 0, false, 0, false, 0⟩) ⟨1, 1, 0, true, 9⟩ ⟨3, 0, 1, true, 8⟩) = true ∧
    x.canIssue 255 (.par (.reg 0x3A ⟨15, 1, 0, 0, false, 0, false, 0⟩) ⟨1, 1, 0, true, 9⟩ ⟨3, 0, 1, true, 8⟩) = true ∧
    x.canIssue 255 (.par (.reg 0x3B ⟨15, 1, 2, 0, false, 0, false, 1⟩) ⟨1, 1, 0, true, 9⟩ ⟨3, 0, 1, true, 8⟩) = true ∧
    x.canIssue 255 (.par (.reg 0x3C ⟨15, 1, 0, 0, true, 7, true, 0⟩) ⟨1, 1, 0, true, 9⟩ ⟨3, 0, 1, true, 8⟩) = true := by decide

theorem witness_ShiftsFieldsAndSpecialRegisters :
    let x := State.reset.setCore 255 { mode := .running }
    (x.core 255).sized = true ∧ x.canIssue 255 (.par (.con 0x40 ⟨15, 1, 2, 0, 127, true⟩) noMove noMove) = true ∧
    x.canIssue 255 (.par (.con 0x41 ⟨15, 1, 2, 0, 127, true⟩) noMove noMove) = true ∧
    x.canIssue 255 (.par (.con 0x42 ⟨15, 1, 2, 0, 127, true⟩) noMove noMove) = true ∧
    x.canIssue 255 (.par (.con 0x43 ⟨15, 1, 2, 0, 127, true⟩) noMove noMove) = true ∧
    x.canIssue 255 (.par (.con 0x44 ⟨15, 1, 2, 0, 127, true⟩) noMove noMove) = true ∧
    x.canIssue 255 (.par (.con 0x48 ⟨15, 1, 2, 0, 127, true⟩) noMove noMove) = true ∧
    x.canIssue 255 (.par (.con 0x49 ⟨15, 1, 2, 0, 127, true⟩) noMove noMove) = true ∧
    x.canIssue 255 (.par (.con 0x4A ⟨15, 1, 2, 0, 127, true⟩) noMove noMove) = true ∧
    x.canIssue 255 (.par (.con 0x45 ⟨15, 1, 0, 0, 72, false⟩) noMove noMove) = true ∧
    x.canIssue 255 (.par (.con 0x46 ⟨15, 1, 0, 0, 0, false⟩) noMove noMove) = true ∧
    x.canIssue 255 (.par (.con 0x47 ⟨15, 1, 0, 0, 1, false⟩) noMove noMove) = true ∧
    x.canIssue 255 (.par (.con 0x12 ⟨15, 0, 0, 0, 0x27, false⟩) noMove noMove) = true ∧
    x.canIssue 255 (.par (.con 0x13 ⟨0, 1, 0, 0, 0x23, false⟩) noMove noMove) = true ∧
    (x.core 255).loops = [] ∧
    x.canIssue 255 (.par (.fld 0x4B ⟨15, 1, 8, 63⟩) noMove noMove) = true ∧
    x.canIssue 255 (.par (.fld 0x4C ⟨15, 1, 71, 0⟩) noMove noMove) = true ∧
    x.canIssue 255 (.par (.reg 0x4D ⟨15, 1, 0, 0, false, 0, false, 0⟩) noMove noMove) = true := by decide

theorem witness_SoricDecodeOfEncode :
    (Soric.par (.reg 0x20 ⟨15, 1, 0, 0, true, 7, true, 9⟩) ⟨1, 2, 5, true, 14⟩ ⟨4, 0, 6, true, 0⟩).ok 0 = true ∧
      (Soric.loop true 15 0 2047).ok 2046 = true ∧ (Soric.lis 0x10 0x3FFFF).ok 0 = true := by decide

theorem witness_LogarithmOfLnq : 1 ≤ 2 ^ 71 - 1 ∧ 2 ^ 71 - 1 < 2 ^ 71 ∧ lnq 1 = 0 ∧ lnq 2 = 11629080 := by decide

theorem witness_CoreCommandsIssueTheirInstruction :
    let s := State.reset.setCore 255 { mode := .running }
    coreWord (.halt 255) = some (255, .halt) ∧ s.canIssue 255 .halt = true ∧ coreWord (.send 255 3) = some (255, .send 3) ∧
      (s.core 255).mode = .running ∧ (s.core 255).vendor = false ∧ s.stalled = false ∧ s.issueFault 255 (.send 3) = some 1 ∧
      (State.reset.core 255).mode ≠ .running ∧ (Soric.send 3).ok (s.core 255).pc = false ∧
      (Soric.loop false 0 0 100).ok (s.core 255).pc = true ∧ (s.core 255).loops = [] ∧ 79 < (80 : BitVec 7).toNat ∧
      71 < (71 : BitVec 7).toNat + (1 : BitVec 7).toNat ∧ (0 : BitVec 11).toNat < 0 + 1 ∧ (3 : BitVec 4).toNat % 4 ≠ 0 ∧
      2 ≤ ((State.reset.setCore 255 { loops := [⟨1, 9, false⟩, ⟨2, 9, false⟩] }).core 255).loops.length ∧
      ¬ ((Slot.reg 0x02 ⟨5, 1, 2, 0, false, 0, false, 0⟩).dests ++ (if moveLoads ⟨1, 0, 0, false, 5⟩ then [5] else []) ++
        (if moveLoads noMove then [0] else [])).Nodup ∧
      (Soric.par (.reg 0x02 ⟨5, 1, 2, 0, false, 0, false, 0⟩) noMove noMove).ok (s.core 255).pc = true := by decide

theorem witness_ParallelInstructionFrame :
    let s := State.reset.setCore 255 { mode := .running, p := [5, 9, 0, 0, 0, 0, 0, 0] }
    let f : FormR := ⟨15, 1, 2, 0, false, 0, false, 0⟩
    coreWord (.add 255 f ⟨1, 0, 0, true, 9⟩ ⟨2, 0, 1, false, 8⟩) =
        some (255, .par (.reg 0x02 f) ⟨1, 0, 0, true, 9⟩ ⟨2, 0, 1, false, 8⟩) ∧
      s.canIssue 255 (.par (.reg 0x02 f) ⟨1, 0, 0, true, 9⟩ ⟨2, 0, 1, false, 8⟩) = true ∧ (0 : Nat) ≠ 255 ∧
      (8 : BitVec 4).toNat ∉ (Slot.reg 0x02 f).dests ∧ (8 : BitVec 4) ≠ 9 ∧ (s.core 255).loops = [] ∧ (s.core 255).pc < 2047 ∧
      (Slot.reg 0x02 f).op ≠ 0x13 ∧ (Slot.reg 0x02 f).msrP ≠ some 7 := by decide

theorem witness_MoveInstructions :
    let s := State.reset.setCore 255 { mode := .running, p := [0, 0, 0, 0, 0, 2, 0xFFF, 0xFFFF] }
    (s.core 255).sized = true ∧ s.canIssue 255 (oneMove true ⟨1, 0, 6, true, 15⟩) = true ∧
      s.canIssue 255 (oneMove false ⟨1, 1, 7, false, 0⟩) = true ∧ (s.core 255).p.getD (5 : BitVec 3).toNat 0 = 2 ∧
      s.canIssue 255 (oneMove false ⟨1, 2, 5, true, 0⟩) = true ∧ s.canIssue 255 (oneMove true ⟨2, 0, 6, true, 15⟩) = true ∧
      s.canIssue 255 (oneMove true ⟨2, 1, 7, true, 15⟩) = true ∧ s.canIssue 255 (oneMove true ⟨3, 0, 6, true, 15⟩) = true ∧
      s.canIssue 255 (oneMove true ⟨3, 1, 7, true, 15⟩) = true ∧ s.canIssue 255 (oneMove true ⟨2, 2, 5, true, 15⟩) = true ∧
      (s.setReg (Reg.clAssign 31) 0x1F).served (255 / 8) = none ∧ (s.cluster (255 / 8)).sems.length = 8 ∧
      (State.reset.setReg (Reg.clAssign 31) 0x11F).served (255 / 8) = some 31 ∧
      s.canIssue 255 (oneMove true ⟨4, 0, 7, true, 0⟩) = true ∧ field ((s.core 255).l.getD 7 0) 17 16 = 0 := by decide

theorem witness_BranchesAndLoops :
    let s := State.reset.setCore 255 { mode := .running, pc := 2046 }
    let l := State.reset.setCore 255 { mode := .running, pc := 5, loops := [⟨3, 100, false⟩] }
    l.canIssue 255 (.br 0 2047 1) = true ∧ (l.core 255).cond 0 = true ∧ s.canIssue 255 (.br 1 2047 0) = true ∧
      (s.core 255).cond 1 = false ∧ (s.core 255).loops = [] ∧ (s.core 255).pc < 2047 ∧ s.canIssue 255 (.call 15 2047) = true ∧
      (s.core 255).sized = true ∧ l.canIssue 255 (.jmp 0 15 1) = true ∧ l.canIssue 255 (.loop false 0 0 100) = true ∧
      (l.core 255).sized = true ∧ s.canIssue 255 (.loop true 15 0 2047) = true ∧ s.canIssue 255 .halt = true := by decide

theorem witness_MessagesDoorbellsAndConstants :
    let s := State.reset.setCore 255 { mode := .running }
    let m := State.reset.setCore 255 { mode := .running, inbox := [⟨1, 2, 3, 4⟩], bounce := [⟨5, 6, 7, 8⟩] }
    s.canIssue 255 (.send 12) = true ∧ m.canIssue 255 (.recv 12 true) = true ∧ (m.core 255).sized = true ∧
      (m.core 255).inbox = [⟨1, 2, 3, 4⟩] ∧ s.canIssue 255 (.recv 12 true) = true ∧ (s.core 255).inbox = [] ∧
      s.canIssue 255 (.recv 0 false) = true ∧ m.canIssue 255 (.rbnc 12 false) = true ∧ (m.core 255).bounce = [⟨5, 6, 7, 8⟩] ∧
      s.canIssue 255 (.rbnc 12 true) = true ∧ s.canIssue 255 (.rbnc 0 false) = true ∧ (s.core 255).bounce = [] ∧
      s.canIssue 255 .dbell = true ∧ s.canIssue 255 (.lig 15 1) = true ∧ s.canIssue 255 (.lih 15 1) = true ∧
      s.canIssue 255 (.lis 0x10 0x3FFFF) = true ∧ (s.core 255).sized = true ∧ (s.core 255).loops = [] ∧ (0 : BitVec 4) ≠ 15 := by decide

theorem witness_CoreInstructionsKeepStateWellFormed :
    let s : State := { State.reset.setCore 255 { mode := .running } with pending := [.lig 255 15 1] }
    s.pending = [.lig 255 15 1] ∧ coreWord (.lig 255 15 1) = some (255, .lig 15 1) ∧ s.memoryWf = true ∧
      (s.core 255).sized = true ∧ (s.core 0).sized = true := by decide

theorem witness_CoreInstructionsKeepStateWellFormed_step :
    ∃ t, step ({ State.reset.setCore 255 { mode := .running } with pending := [.lig 255 15 1] } : State) = .next t := ⟨_, rfl⟩

theorem witness_UserCoreCommands :
    let m : Msg := ⟨0xFFF8000000000000, 1, 2, 3⟩
    let s := (State.reset.setRbit (Reg.clStatus 31) 16 true).setCore 255 { mode := .halted, role := 8, inbox := [m] }
    let r := State.reset.setCore 255 { mode := .running, role := 8 }
    let v := State.reset.setCore 0 { mode := .running, vendor := true, role := 1 }
    State.reset.shut = false ∧ s.shut = false ∧ r.shut = false ∧ v.shut = false ∧
    8 ≤ (8 : BitVec 4).toNat ∧ (s.core (255 : Core)).vendor = false ∧ (s.core (255 : Core)).mode = .halted ∧
      s.needed (coreCl 255) (corePl 255) = none ∧ s.dspPowered (coreCl 255) = true ∧ msgKind m = 0 ∧
      (r.core (255 : Core)).vendor = false ∧ (r.core (255 : Core)).mode = .running ∧ (v.core (0 : Core)).vendor = true ∧
      (∀ p : Fin 8, s.needed (coreCl 255) p = none) ∧ (7 : BitVec 4).toNat < 8 ∧ (State.reset.core (0 : Core)).mode = .free := by decide

theorem witness_ServiceOfAChannel :
    let v := State.reset.setCore 248 { mode := .fault, vendor := true, role := 1 }
    State.reset.shut = false ∧ v.shut = false ∧
    State.reset.assignCheck (31 : Clus) 0 = none ∧ State.reset.assignCheck (31 : Clus) 0x100 = some .range ∧
      (v.assignCheck (31 : Clus) 0 = some .busy) ∧ (v.core (248 : Core)).vendor = true ∧ v.served ((248 : Core) / 8) = some 31 ∧
      (State.reset.core (0 : Core)).vendor = false ∧ v.shut = false ∧
      (let g := ((State.reset.setRbit Reg.sysPwrStat 1 true).setRbit Reg.sysPwrStat 9 true).setRbit Reg.sysPwrCtrl 1 false
       g.rbit Reg.sysPwrStat (true).toNat = true ∧ g.rbit Reg.sysPwrStat (8 + (true).toNat) = true ∧
         g.rbit Reg.sysPwrCtrl (true).toNat = false) ∧
      (State.reset.setRbit Reg.sysPwrStat 1 false).rbit Reg.sysPwrStat (true).toNat = false := by decide

theorem witness_MessagesAndHostQueues :
    let m : Msg := ⟨0xFF8001000000000000, 1, 2, 3⟩
    let n : Msg := ⟨0x20000, 0, 0, 0⟩
    let b : Msg := ⟨0x3FC0000C0000, 0, 0, 0⟩
    let p := State.reset.setRbit (Reg.clStatus 31) 16 true
    let s : State := { p.setCore 255 { mode := .halted, role := 8, epoch := 1 } with fabric := [m] }
    let d : State := { State.reset with fabric := [m] }
    let h : State := { State.reset with fabric := [n] }
    let r : State := { State.reset with returning := [b] }
    let f := r.setCore 255 { bounce := List.replicate 8 b }
    let w := State.reset.setWreg (Reg.clHostMsg 31 0) 0xF80000000000000000
    let c := State.reset.setCluster 31 { hostOut := [m] }
    let e := State.reset.setCluster 31 { hostOut := [m, n], hostBnc := [m, n] }
    let g := State.reset.setCluster 31 { hostBnc := [m] }
    State.reset.shut = false ∧ p.shut = false ∧ s.shut = false ∧ d.shut = false ∧ h.shut = false ∧ r.shut = false ∧ f.shut = false ∧ w.shut = false ∧ c.shut = false ∧ e.shut = false ∧ g.shut = false ∧
    s.fabric = [m] ∧ msgHost m = false ∧ s.msgFails m = none ∧ msgDcl m = 31 ∧ msgDcore m = 7 ∧ d.msgFails m = some 1 ∧ msgKind m = 0 ∧
      (let k : Msg := ⟨0xFF8001400000000000, 1, 2, 3⟩
       let z : State := { State.reset with fabric := [k] }
       msgKind k = 1 ∧ msgHost k = false ∧ z.fabric = [k] ∧ z.msgFails k = some 1 ∧ (z.cluster (msgScl k)).hostBnc.length < 8 ∧
         8 ≤ ((z.setCluster (msgScl k) { hostBnc := List.replicate 8 k }).cluster (msgScl k)).hostBnc.length) ∧
      msgKind n = 0 ∧ 16 ≤ ((h.setCluster (msgScl n) { hostOut := List.replicate 16 n }).cluster (msgScl n)).hostOut.length ∧
      ((h.setCluster (msgScl n) { hostOut := [n] }).cluster (msgScl n)).hostOut ≠ [] ∧
      msgHost n = true ∧ h.fabric = [n] ∧ (h.cluster (msgScl n)).hostOut = [] ∧ r.returning = [b] ∧ msgScl b = 31 ∧ msgScore b = 7 ∧
      (r.core (8 * msgScl b + msgScore b)).bounce.length < 8 ∧ 8 ≤ (f.core (8 * msgScl b + msgScore b)).bounce.length ∧
      field (w.wreg (Reg.clHostMsg 31 0)) 71 67 = (31 : Clus).val ∧ field (State.reset.wreg (Reg.clHostMsg 31 0)) 71 67 ≠ (31 : Clus).val ∧
      (c.cluster (31 : Clus)).hostOut = [m] ∧ (c.cluster (31 : Clus)).hostBnc = [] ∧ (e.cluster (31 : Clus)).hostOut = [m, n] ∧
      (e.cluster (31 : Clus)).hostBnc = [m, n] ∧ (g.cluster (31 : Clus)).hostBnc = [m] ∧ (g.cluster (31 : Clus)).hostOut = [] := by
  decide

theorem witness_VibrationChain :
    let sh : ChainShot := ⟨5, 0, {}, false, false, none, false⟩
    let r : RecOut := ⟨0, 9, false, 5, 0, 0, []⟩
    let x : IncSt := ⟨sh, 0, 0, 0, true, true, [], []⟩
    let a := (State.reset.setChain 31 { shots := [sh] }).setCe 31 { out := [r] }
    let f := (State.reset.setChain 31 { shots := [sh] }).setCe 31 { out := [{ r with full := true }] }
    let b := (State.reset.setChain 31 { incs := [x], clearDue := true }).setOdv (odHist 31) 1 1
    let w : RecSt := ⟨5, 0, false, false, false, false, 0, 0, {}, 0, 0, 0, 0, 0, 0, [], 0, 0, none, none, false, 0, 0, 0, 0, 0, 0, none, none⟩
    let p := (State.reset.setChain 31 { shots := [sh] }).setCe 31 { recs := [w] }
    a.chainShots 31 = [sh] ∧ f.chainShots 31 = [sh] ∧ b.histEn 31 = true ∧
      p.chainShots 31 = [sh] ∧ (p.ce (31 : Chan)).out.find? (fun r => decide (r.index = sh.index)) = none ∧ (a.ce (31 : Chan)).out.find? (fun r => decide (r.index = sh.index)) = some r ∧
      (f.ce (31 : Chan)).out.find? (fun r => decide (r.index = sh.index)) = some { r with full := true } ∧
      State.reset.chainShots 0 = [] ∧ vibEdge {} 0 = true ∧ (true || decide (0 < ({} : VibCfg).fade)) = true ∧
      ({} : VibCfg).fade ≤ 1024 ∧ (b.chain (31 : Chan)).incs = [x] ∧ (b.chain (31 : Chan)).clearDue = true ∧
      (State.reset.chain (0 : Chan)).incs = [] ∧ (State.reset.chain (0 : Chan)).clearDue = false ∧
      mag (sat (rne (1 * 1 + 0 * 0) 35) 36) (sat (rne (0 * 1 - 1 * 0) 35) 36) < 256 := by decide

theorem witness_BandChain :
    let a := State.reset.setChain 31 { firstSlot := some 0, histW := 3, band := { active := true, log2k := 6 } }
    let b := ((a.setOdv (odHist 31) 1 1).setOdv (odHist 31) 5 65535).setOdv (odHist 31) 3 196605
    let c := b.setOdv (odVib 31) 9 1
    let d := State.reset.setChain 31 { band := { due := true } }
    (b.chain (31 : Chan)).band.due = false ∧ (b.chain (31 : Chan)).band.stops = [] ∧ b.bandReady 31 = true ∧ b.bandEn 31 = 0 ∧
      (b.chain (31 : Chan)).band.next % 2 ^ b.odv (odVib 31) 10 = 0 ∧
      (c.chain (31 : Chan)).band.due = false ∧ (c.chain (31 : Chan)).band.stops = [] ∧ c.bandReady 31 = true ∧ c.bandEn 31 ≠ 0 ∧
      State.reset.bandReady 0 = false ∧ (State.reset.chain (0 : Chan)).band.stops = [] ∧ (3 : Nat) ≠ 0 ∧
      (d.chain (31 : Chan)).band.due = true ∧ (State.reset.chain (0 : Chan)).band.due = false ∧ ({} : BandCfg).on = false := by decide

theorem witness_TemperatureChain :
    let l := ((State.reset.setReg (Reg.clAssign 9) 0x11F).setReg (Reg.clStatus 9) 0x10000).setCore (coreOf 9 5) { vendor := true, role := 4 }
    let d := (l.setReg (Reg.mcGeom 0) 0x11).setOdv (odDts 31) 1 1
    let o := d.dramWrite (d.totBase 31 + 3) 1 false
    let e := d.setChain 31 { dts := { expect := some 0 } }
    let f := e.dramWrite (d.totBase 31 + 1) (BitVec.ofNat 72 (256 * d.odv (odDts 31) 2 - 1)) false
    let c : FuseCfg := ⟨8, 16, 3⟩
    let sh : ChainShot := ⟨17, 0, { count := 9 }, false, false, some c, false⟩
    let i : FuseIn := ⟨sh, 0, [(-32768, 3), (4, 0)]⟩
    let p := State.reset.setChain 31 { fuseIn := [i] }
    let q := (State.reset.setChain 31 { fuse := { due := some sh } }).setOdv (odFuse 31) 6 0
    State.reset.tempLoaded 30 = false ∧ State.reset.oddOfPair 30 = false ∧ State.reset.dtsEn 30 = false ∧ d.oddOfPair 31 = false ∧ d.dtsEn 31 = true ∧ d.tempLoaded 31 = true ∧ e.tempLoaded 31 = true ∧ d.double 31 = false ∧
      ((o.totalsHead 31).1.getD 3 0).getLsbD 0 = true ∧ ((e.totalsHead 31).1.getD 3 0).getLsbD 0 = false ∧
      (e.chain (31 : Chan)).dts.formed = none ∧ (e.chain (31 : Chan)).dts.expect = some (field ((e.totalsHead 31).1.getD 0 0) 47 0) ∧
      field ((e.totalsHead 31).1.getD 1 0) 47 0 + 1 - field ((e.totalsHead 31).1.getD 0 0) 47 0 < 256 * e.odv (odDts 31) 2 ∧
      (f.dtsEn 31 = true ∧ f.tempLoaded 31 = true ∧ f.double 31 = false ∧ ((f.totalsHead 31).1.getD 3 0).getLsbD 0 = false ∧
        (f.chain (31 : Chan)).dts.expect = some (field ((f.totalsHead 31).1.getD 0 0) 47 0) ∧
        256 * f.odv (odDts 31) 2 ≤ field ((f.totalsHead 31).1.getD 1 0) 47 0 + 1 - field ((f.totalsHead 31).1.getD 0 0) 47 0) ∧
      (p.chain (31 : Chan)).fuse.due = none ∧ (p.chain (31 : Chan)).fuseIn = [i] ∧ i.shot.fuse = some c ∧ i.shot.fuseRestart = false ∧ 1 < vibG i.shot.cfg ∧ (State.reset.chain (0 : Chan)).fuseIn = [] ∧
      (f.chain (31 : Chan)).dts.formed = none ∧ (d.setOdv (odDts 30) 1 1).oddOfPair 31 = false ∧
      ((State.reset.setOdv (odDts 30) 1 1).setOdv (odDts 30) 9 1).oddOfPair 31 = true ∧
      (q.chain (31 : Chan)).fuse.due = some sh ∧ sh.fuse = some c ∧ 1 < (vibG sh.cfg + max c.favg 1 - 1) / max c.favg 1 ∧
      q.odv (odFuse 31) 6 = 0 ∧ (State.reset.chain (0 : Chan)).fuse.due = none := by
  decide

theorem witness_TemperatureChain_pair :
    let l := ((State.reset.setReg (Reg.clAssign 9) 0x11E).setReg (Reg.clStatus 9) 0x10000).setCore (coreOf 9 5) { vendor := true, role := 4 }
    let d := ((l.setReg (Reg.mcGeom 0) 0x11).setOdv (odDts 30) 1 1).setOdv (odDts 30) 9 1
    let v := BitVec.ofNat 72 (256 * d.odv (odDts 30) 2 - 1)
    let s := (d.dramWrite (d.totBase 30 + 1) v false).dramWrite (d.totBase 31 + 1) v false
    d.oddOfPair 31 = true ∧ d.tempLoaded 30 = true ∧ (d.chain 30).dts.waiting = none ∧ s.oddOfPair 30 = false ∧ s.dtsEn 30 = true ∧
      s.tempLoaded 30 = true ∧ s.double 30 = true ∧ ((s.totalsHead 30).1.getD 3 0).getLsbD 0 = false ∧
      (((s.totalsHead 30).2.totalsHead 31).1.getD 3 0).getLsbD 0 = false ∧
      field ((s.totalsHead 30).1.getD 1 0) 47 0 ≤ field (((s.totalsHead 30).2.totalsHead 31).1.getD 1 0) 47 0 ∧ (s.chain 30).dts.formed = none ∧
      256 * s.odv (odDts 30) 2 ≤ field ((s.totalsHead 30).1.getD 1 0) 47 0 + 1 - field ((s.totalsHead 30).1.getD 0 0) 47 0 := by decide

theorem witness_DramReadAfterWrite :
    let s := (((State.reset.setReg (Reg.mcGeom 0) 0x112).setReg (Reg.mcGeom 1) 0x12).setRbit (Reg.mcCtrl 1) 0 true)
    let h := s.setRbit (Reg.mcStatus 1) 1 true
    let f := s.setRbit (Reg.mcStatus 1) 6 true
    State.reset.shut = false ∧ s.shut = false ∧ h.shut = false ∧ f.shut = false ∧
    2 ^ 33 - 1 < s.dramWords ∧ s.mcFailed (s.dramMap (2 ^ 33 - 1)).1 = false ∧ (s.mc (s.dramMap (2 ^ 33 - 1)).1).queue = [] ∧
      s.mcHeld (s.dramMap 256).1 (s.dramMap 256).2 = false ∧ (s.mc (s.dramMap 256).1).queue = [] ∧ (0 : Nat) ≠ 2 ^ 33 - 1 ∧ 0 < s.dramWords ∧
      s.mcFailed (s.dramMap 256).1 = false ∧ h.mcFailed (h.dramMap 256).1 = false ∧ (h.mc (h.dramMap 256).1).queue = [] ∧
      h.mcHeld (h.dramMap 256).1 (h.dramMap 256).2 = true ∧ 256 < h.dramWords ∧
      s.fld (Reg.mcGeom 0) 1 0 ≤ 2 ∧ s.fld (Reg.mcGeom 1) 1 0 ≤ 2 ∧ s.dramWords ≤ 2 ^ 33 ∧ (79 : Nat) < 80 ∧ (0 : Nat) ≠ 79 ∧
      256 < f.dramWords ∧ f.mcFailed (f.dramMap 256).1 = true := by decide

theorem witness_DramRowsRefreshAndRetry :
    let b := State.reset.setBank (64 + 31) { row := .left 3 }
    let r := State.reset.setMc 1 { retry := [.rd 3 7 5 false] }
    let a := State.reset.setMc 1 { alert := true }
    let w := State.reset.setMc 1 { waiting := true, replays := 2 }
    let f := State.reset.setMc 1 { waiting := true, replays := 3 }
    let g := State.reset.setReg (Reg.mcGeom 1) 2
    let z := g.setMc 1 { sr := 2 }
    State.reset.shut = false ∧ b.shut = false ∧ r.shut = false ∧ a.shut = false ∧ w.shut = false ∧ f.shut = false ∧ g.shut = false ∧ z.shut = false ∧
    (true).toNat < g.fld (Reg.mcGeom (1 : Mc)) 1 0 ∧ (g.mc (1 : Mc)).sr.getLsbD (true).toNat = false ∧ (g.mc (1 : Mc)).alert = false ∧
      (g.mc (1 : Mc)).waiting = false ∧ (g.mc (1 : Mc)).postponed.getD (true).toNat 0 < 8 ∧ (g.mc (1 : Mc)).postponed.length = 2 ∧
      State.reset.fld (Reg.mcGeom (0 : Mc)) 1 0 ≤ (false).toNat ∧ (z.mc (1 : Mc)).sr.getLsbD (true).toNat = true ∧
      (w.mc (1 : Mc)).queue = [] ∧
    (b.bank (64 * (1 : Mc) + 31)).row = .left 3 ∧ (r.mc (1 : Mc)).retry = [.rd 3 7 5 false] ∧ (r.mc (1 : Mc)).alert = false ∧
      (r.mc (1 : Mc)).waiting = false ∧ (a.mc (1 : Mc)).alert = true ∧ (w.mc (1 : Mc)).waiting = true ∧ (w.mc (1 : Mc)).replays < 3 ∧
      (f.mc (1 : Mc)).waiting = true ∧ 3 ≤ (f.mc (1 : Mc)).replays := by decide

theorem witness_DramRowsRefreshAndRetry_still :
    let w := State.reset.setMc 1 { waiting := true, replays := 2 }
    let o := State.reset.setMc 1 { waiting := true, replays := 2, postponed := [0, 9] }
    let g := State.reset.setReg (Reg.mcGeom 1) 2
    let e := g.setMc 1 { postponed := [0, 8] }
    let al := g.setMc 1 { alert := true }
    (State.reset.setBank (64 + 31) { row := .left 3 }).mcStill 1 = false ∧ al.mcStill 1 = true ∧
      (true).toNat < al.fld (Reg.mcGeom (1 : Mc)) 1 0 ∧ (al.mc (1 : Mc)).sr.getLsbD (true).toNat = false ∧
      8 ≤ (e.mc (1 : Mc)).postponed.getD (true).toNat 0 ∧ (true).toNat < e.fld (Reg.mcGeom (1 : Mc)) 1 0 ∧
      (e.mc (1 : Mc)).sr.getLsbD (true).toNat = false ∧ e.mcStill 1 = false ∧ (w.mc (1 : Mc)).wants = false ∧
      (w.mc (1 : Mc)).postponed = [0, 0] ∧ (o.mc (1 : Mc)).waiting = true ∧ (o.mc (1 : Mc)).replays < 3 ∧ (o.mc (1 : Mc)).queue = [] ∧
      (o.mc (1 : Mc)).wants = false ∧ (o.mc (1 : Mc)).postponed.length = 2 ∧ 8 < (o.mc (1 : Mc)).postponed.getD (true).toNat 0 := by decide

theorem witness_TrainingAndFrequencyChange :
    let t := (State.reset.setRbit (Reg.mcStatus 1) 1 true).setReg (Reg.mcGeom 1) 2
    let n := { t with boot := { t.boot with running := false } }
    let o := { t with boot := { t.boot with running := true } }
    let p := n.setRbit (Reg.mcStatus 1) 4 true
    let f := State.reset.setRbit (Reg.mcFreqCtrl 1) 4 true
    let fw := f.setRbit (Reg.mcStatus 1) 1 true
    let c := (State.reset.setMc 1 { changing := true }).setReg (Reg.mcGeom 1) 2
    let i := c.setMc 1 { changing := true, inSre := true, target := 1 }
    let l := c.setMc 1 { changing := true, inSre := true, locked := true, target := 1 }
    let g := (State.reset.setReg (Reg.mcGeom 1) 2).setRbit (Reg.mcSrCfg 1) 0 true
    let x := g.setMc 1 { sr := 2, queue := [{ rd := true, a := 2 ^ 30, dev := 0 }] }
    let d := (State.reset.setRbit (Reg.mcTrainCtrl 1) 8 true).setReg (Reg.mcGeom 1) 2
    let r : TrainResult := ⟨some (true, 1, 3), []⟩
    State.reset.shut = false ∧ t.shut = false ∧ n.shut = false ∧ o.shut = false ∧ p.shut = false ∧ f.shut = false ∧ fw.shut = false ∧ c.shut = false ∧ i.shut = false ∧ l.shut = false ∧ g.shut = false ∧ x.shut = false ∧ d.shut = false ∧
    State.reset.trainBusy 0 = false ∧ t.rbit (Reg.mcStatus (1 : Mc)) 1 = true ∧ (c.mc (1 : Mc)).changing = true ∧ c.mcStill 1 = false ∧ g.mcStill 1 = false ∧
      n.rbit (Reg.mcStatus (1 : Mc)) 1 = true ∧ (n.mc (1 : Mc)).changing = false ∧ n.trainFits 1 r = true ∧ n.boot.running = false ∧
      n.trainFits 1 ⟨none, []⟩ = true ∧ p.rbit (Reg.mcStatus (1 : Mc)) 4 = true ∧ p.trainFits 1 r = true ∧ r.fail ≠ none ∧
      o.trainFits 1 r = true ∧ o.booting = true ∧ o.boot.running = true ∧ o.rbit (Reg.mcStatus (1 : Mc)) 1 = true ∧
      d.rbit (Reg.mcTrainCtrl (1 : Mc)) 8 = true ∧ d.fld (Reg.mcGeom (1 : Mc)) 1 0 ≠ 0 ∧ d.trainBusy 1 = false ∧ d.mcFailed 1 = false ∧
      d.trainFits 1 r = true ∧ f.freqBusy 1 = false ∧ f.rbit (Reg.mcStatus (1 : Mc)) 1 = false ∧
      f.fld (Reg.mcFreqCtrl (1 : Mc)) 4 4 ≠ f.fld (Reg.mcStatus (1 : Mc)) 5 5 ∧ fw.freqBusy 1 = false ∧
      fw.rbit (Reg.mcStatus (1 : Mc)) 1 = true ∧ State.reset.freqBusy 0 = false ∧
      State.reset.fld (Reg.mcFreqCtrl (0 : Mc)) 4 4 = State.reset.fld (Reg.mcStatus (0 : Mc)) 5 5 ∧ p.freqBusy 1 = true ∧
      (c.mc (1 : Mc)).inSre = false ∧ (i.mc (1 : Mc)).inSre = true ∧ (i.mc (1 : Mc)).locked = false ∧ (l.mc (1 : Mc)).locked = true ∧
      (⟨none, []⟩ : TrainResult).fail = none ∧ (l.mc (1 : Mc)).target ≤ 1 ∧ l.trainFits 1 r = true ∧ g.rbit (Reg.mcSrCfg (1 : Mc)) 0 = true ∧
      (true).toNat < g.fld (Reg.mcGeom (1 : Mc)) 1 0 ∧ (g.mc (1 : Mc)).sr.getLsbD (true).toNat = false ∧ g.trainBusy 1 = false ∧
      (x.mc (1 : Mc)).changing = false ∧ (x.mc (1 : Mc)).queue.any (fun r => decide ((x.dramRow 1 r.a).1 = (true).toNat)) = true ∧
      (State.reset.mc (0 : Mc)).queue = [] := by decide

theorem witness_TrainingAndFrequencyChange_still :
    let f := (State.reset.setRbit (Reg.mcFreqCtrl 1) 4 true)
    let fa := f.setMc 1 { alert := true }
    let d := (State.reset.setRbit (Reg.mcTrainCtrl 1) 8 true).setReg (Reg.mcGeom 1) 2
    let n := { d with boot := { d.boot with running := true } }
    let g := (State.reset.setReg (Reg.mcGeom 1) 2).setRbit (Reg.mcSrCfg 1) 0 true
    let l := State.reset.setMc 1 { changing := true, inSre := true, locked := true, target := 1 }
    let r : TrainResult := ⟨some (true, 1, 3), []⟩
    f.mcStill 1 = false ∧ fa.mcStill 1 = true ∧ fa.shut = false ∧ fa.freqBusy 1 = false ∧ fa.rbit (Reg.mcStatus (1 : Mc)) 1 = false ∧
      fa.fld (Reg.mcFreqCtrl (1 : Mc)) 4 4 ≠ fa.fld (Reg.mcStatus (1 : Mc)) 5 5 ∧ d.mcStill 1 = false ∧ d.boot.running = false ∧
      n.periodicMay 1 r = true ∧ n.booting = true ∧ n.boot.running = true ∧ r.fail ≠ none ∧ l.boot.running = false ∧
      (g.mc (1 : Mc)).queue.any (fun r => decide ((g.dramRow 1 r.a).1 = (true).toNat)) = false := by decide

theorem witness_ZoneTableAndStateMachine :
    let l := (0x1200000 + 0x80 * 4095 : Nat)
    let f := (State.reset.setReq .cp { lo := some (l, 0x1010), mid := some (l, 0) }).setReg (Reg.ceOutBase 0) 0x4000
    let e := (f.setZoneWord 4095 0 0x800000000000001010).setRbit Reg.zoneCtrl 0 true
    let p := (e.setZoneWord 4095 2 10).setZoneWord 4095 4 0x010000000000000000
    let n := p.setZone 4095 { due := [{ m := some (-1) }] }
    let a := p.setZone 4095 { due := [{ m := some 10 }] }
    let b := (p.setZoneWord 4095 0 0x800000000000002010).setZone 4095 { due := [{ m := some 10 }] }
    let v := (p.setZoneWord 4095 3 0x000100000000000000).setZone 4095 { due := [{}] }
    let w := ((v.setZoneWord 7 0 0x800000000000001010).setZone 7 { due := [{}] })
    let i := p.setZoneWord 4095 0 0xC00000000000001010
    f.shut = false ∧ (f.staged72 .cp l (withBit 0 7 true)).isSome = true ∧ zoneEn (f.zoneWord 4095 0) = false ∧
      (f.staged72 .cp l (withBit 0 7 true)).map (f.zoneCheck 4095) = some none ∧
      (f.staged72 .cp l (withBit 0xFF 7 true)).map (f.zoneCheck 4095) = some (some .enc) ∧
      (f.staged72 .cp l (withBit 0 7 false)).isSome = true ∧
      (n.zone (4095 : Zone)).due = [{ m := some (-1) }] ∧ zoneEn (n.zoneWord (4095 : Zone) 0) = true ∧ n.rbit Reg.zoneCtrl 0 = true ∧
      zoneBelow (n.zoneWord (4095 : Zone) 0) = false ∧ (n.zone (4095 : Zone)).st = 0 ∧ (-1 : Int) < n.zoneWarn (4095 : Zone) ∧
      n.zoneWarn (4095 : Zone) ≤ n.zoneAlarm (4095 : Zone) ∧ (a.zone (4095 : Zone)).due = [{ m := some 10 }] ∧
      a.zoneAlarm (4095 : Zone) ≤ 10 ∧ zoneOn (a.zoneWord (4095 : Zone) 0) ≤ (a.zone (4095 : Zone)).cu + 1 ∧
      a.zoneAct (4095 : Zone) = 1 ∧ a.evLost = 0 ∧ a.evq.length < 1024 ∧ zoneEn (a.zoneWord (4095 : Zone) 0) = true ∧
      (b.zone (4095 : Zone)).cu + 1 < zoneOn (b.zoneWord (4095 : Zone) 0) ∧ zoneEn (b.zoneWord (4095 : Zone) 0) = true ∧
      n.zoneBefore 4095 { m := some (-1) } = false ∧ a.zoneBefore 4095 { m := some 10 } = false ∧
      b.zoneBefore 4095 { m := some 10 } = false ∧ v.zoneBefore 4095 {} = false ∧
      (w.zoneBefore 4095 {} = true ∧ (w.zone (4095 : Zone)).due = [{}]) ∧ (State.reset.zone (0 : Zone)).due = [] ∧
      v.zoneVoid (4095 : Zone) = (v.zone (4095 : Zone)).vc + 1 ∧ (v.zone (4095 : Zone)).st < 3 ∧
      (v.zone (4095 : Zone)).due = [{}] ∧ zoneEn (i.zoneWord (4095 : Zone) 0) = true ∧ zoneSrc (i.zoneWord (4095 : Zone) 0) = 4 ∧
      (-2 ^ 47 : Int) ≤ -2 ^ 47 ∧ (-2 ^ 47 : Int) < 2 ^ 47 ∧ i.rbit Reg.zoneCtrl 0 = true ∧ i.zones.wf (fun _ => 0) = true ∧
      zoneEn (State.reset.zoneWord (0 : Zone) 0) = false := by decide

theorem witness_ZoneTableAndStateMachine_disable :
    let l := (0x1200000 + 0x80 * 4095 : Nat)
    let f := State.reset.setReq .cp { lo := some (l, 0x1010), mid := some (l, 0) }
    let e := ((f.setZoneWord 4095 0 0x800000000000001010).setRbit Reg.zoneCtrl 0 true).setZone 4095 { due := [{ m := some 10 }, {}] }
    e.shut = false ∧ (e.staged72 .cp l (withBit 0 7 false)).isSome = true ∧ zoneEn (e.zoneWord 4095 0) = true ∧
      e.rbit Reg.zoneCtrl 0 = true ∧ (e.zone (4095 : Zone)).due.length = 2 := by decide

theorem witness_ZoneWritesCapturesAndQueue :
    let z := (State.reset.setZoneWord 4095 6 0x123456789000000001).setZoneWord 4095 0 0x800000000000000000
    let z := z.setZoneWord 4095 4 0x100000000000000000
    let w : RemoteSt := { wide := false, value := 2, reqId := 9 }
    let r := (z.setZone 4095 { remote := some w }).setFld Reg.zoneRemCfg 11 8 1
    let own := r.setZoneWord 4095 6 (BitVec.ofNat 72 (r.odv 0x2000 1 * 2 ^ 56 + 5 * 2 ^ 40))
    let f := (z.setZone 4095 { remote := some { w with tries := 15 } }).setFld Reg.zoneRemCfg 11 8 15
    let c : CapSt := { zone := 1, ch := 31, base := 0, s := 7, first := 7, last := 8, next := 7, w := 0 }
    let s := (State.reset.setChain 31 { firstSlot := some 0, lastSlot := 7 }).setCap 63 (some c)
    let d := State.reset.setCap 63 (some { c with next := 9, lost := 1 })
    let e := State.reset.setCap 63 (some { c with copying := false })
    State.reset.shut = false ∧ z.shut = false ∧ z.shut = false ∧ r.shut = false ∧ own.shut = false ∧ f.shut = false ∧ s.shut = false ∧ d.shut = false ∧ e.shut = false ∧
    (own.zone (4095 : Zone)).remote = some w ∧ field (own.zoneWord (4095 : Zone) 6) 71 56 = own.odv 0x2000 1 ∧
      w.tries < own.fld Reg.zoneRemCfg 11 8 ∧ c.ended = false ∧ (s.chain c.ch).firstSlot.isSome = true ∧
      (r.zone (4095 : Zone)).remote = some w ∧ w.tries < r.fld Reg.zoneRemCfg 11 8 ∧
      field (r.zoneWord (4095 : Zone) 6) 71 56 ≠ r.odv 0x2000 1 ∧ (f.zone (4095 : Zone)).remote = some { w with tries := 15 } ∧
      f.fld Reg.zoneRemCfg 11 8 ≤ 15 ∧ (0x06020000 : W32) ≠ 0 ∧ zoneEn (z.zoneWord (4095 : Zone) 0) = true ∧
      z.zoneActs (4095 : Zone) 4 = true ∧ field (z.zoneWord (4095 : Zone) 6) 15 0 ≠ 0 ∧
      field (z.zoneWord (4095 : Zone) 6) 71 56 ≠ z.odv 0x2000 1 ∧ s.cap (63 : Fin 64) = some c ∧ c.copying = true ∧ c.next ≤ c.last ∧
      c.next ≤ s.ringLast c.ch ∧ d.cap (63 : Fin 64) = some { c with next := 9, lost := 1 } ∧
      e.cap (field (63 : W32) 5 0) = some { c with copying := false } ∧ s.cap (field (63 : W32) 5 0) = some c := by decide

theorem witness_DmaChannels :
    let g := ((State.reset.setReg (Reg.dmaRgnCfg 15) 0x80011F00).setReg (Reg.dmaRgnSizeLo 15) 65536).setReg (Reg.dmaLink 63) 0x1FFF
    let w : List W72 := [0x040000000001000007, 0xF00000000000000000, 0xF00000000000008000, 0]
    let d (s : State) : State := { s with descs := Store.setMany 0 [(16380, w.getD 0 0), (16381, w.getD 1 0), (16382, w.getD 2 0)] s.descs }
    let b := State.reset.setReg (Reg.dmaLink 63) 0x1FFF
    let r := (((d g).setReg (Reg.dmaCfgAct 63) 0).setReg (Reg.clStatus 31) 0x10000).setDma 63 { desc := some w }
    let h := ((r.setReg (Reg.dmaRgnCfg 15) 0x80020000).setReg (Reg.dmaRgnSizeLo 15) 65536).setReg Reg.attnStatus 2
    let p := (((State.reset.setReg (Reg.dmaCfgAct 63) 0x05000000)).setDma 63 { desc := some [w.getD 0 0 ||| 0x20000000000000000] })
    let e := (State.reset.setDma 0 { desc := some w, moved := 1 })
    State.reset.shut = false ∧ g.shut = false ∧ b.shut = false ∧ p.shut = false ∧ e.shut = false ∧
    r.dmaGrant = some 63 ∧ r.dspPowered (r.rgnCl (descOf w).src) = true ∧ r.dspPowered (r.rgnCl (descOf w).dst) = true ∧
      h.dmaGrant = some 63 ∧ (h.dma (63 : Fin 64)).desc = some w ∧ (descOf w).op ≠ 3 ∧ h.rgnSpace (descOf w).src = 2 ∧ h.bme = true ∧
      p.dmaState (63 : Fin 64) = 2 ∧ p.dmaOwner (63 : Fin 64) = 0 ∧ State.reset.dmaGrant ≠ some (0 : Fin 64).val ∧
      dmaCheck State.reset (0x1800 + 0x20 * (15 : Fin 16)) (0 &&& 0x80071F00) = none ∧
      dmaCheck State.reset (0x1800 + 0x20 * (15 : Fin 16)) (0x80000000 &&& 0x80071F00) = some .range ∧
      (d g).dmaOwner (63 : Fin 64) = 0 ∧ ((d g).dma (63 : Fin 64)).desc = none ∧ ((d g).dma (63 : Fin 64)).stop = false ∧
      (d g).rbit (Reg.dmaLink (63 : Fin 64)) 12 = true ∧
      (d g).descCheck (63 : Fin 64) (descOf ((d g).descWords ((d g).fld (Reg.dmaLink (63 : Fin 64)) 11 0))) = none ∧
      b.descCheck (63 : Fin 64) (descOf (b.descWords (b.fld (Reg.dmaLink (63 : Fin 64)) 11 0))) = some 5 ∧
      (r.dma (63 : Fin 64)).desc.isSome = true ∧ State.reset.rbit (Reg.dmaLink (0 : Fin 64)) 12 = false ∧
      State.reset.dmaOwner (0 : Fin 64) = 0 ∧ State.reset.dmaState (0 : Fin 64) = 0 ∧ r.dmaState (63 : Fin 64) = 1 ∧
      (r.dma (63 : Fin 64)).desc = some w ∧ (descOf w).op = 0 ∧ (descOf w).paced = false ∧ r.rgnSpace (descOf w).src = 1 ∧
      r.rgnSpace (descOf w).dst = 1 ∧ (r.dma (63 : Fin 64)).moved < (descOf w).len ∧ (e.dma (0 : Fin 64)).desc = some w ∧
      (descOf w).dstSpan ≤ (e.dma (0 : Fin 64)).moved ∧ (e.dma (0 : Fin 64)).poisoned = false ∧ (descOf w).last = true := by decide

theorem witness_HostWindowAndExportQueues :
    State.reset.shut = false ∧
    ((State.reset.setQueue 127 { items := [7, 8] }).queue (127 : Fin 128)).items = [7, 8] ∧
      (State.reset.queue (0 : Fin 128)).items = [] := by decide

theorem witness_AttentionEvents :
    let u (v : Nat) : State := (((State.reset.setReg Reg.attnStatus 3).setMsixWord (4 * v + 3) 0).setMsixPending v true).setRbit Reg.attnCtrl 1 false
    let m := (State.reset.setReg (Reg.attnMod 191) 0x02).setRbit Reg.attnCtrl 1 false
    let w := (State.reset.setReg (Reg.attnMod 191) 0x10000).setVec 191 { cnt := 1 }
    State.reset.shut = false ∧ m.shut = false ∧ w.shut = false ∧
    240 ≤ (240 : Vec).val ∧ (255 : Vec).val < 256 ∧ 192 ≤ (511 : Vec).val ∧ (u 511).rbit Reg.attnCtrl 1 = false ∧
      (u 511).msixOn = true ∧ (u 511).bme = true ∧ (u 511).msixMasked (511 : Vec) = false ∧ m.msixMasked (192 : Vec) = true ∧
      (191 : Vec).val < 192 ∧ (m.vec (191 : Vec)).cnt + 1 < m.fld (Reg.attnMod (191 : Vec)) 7 0 ∧
      m.fld (Reg.attnMod (191 : Vec)) 31 16 = 0 ∧
      max (State.reset.fld (Reg.attnMod (0 : Vec)) 7 0) 1 ≤ (State.reset.vec (0 : Vec)).cnt + 1 ∧ (w.vec (191 : Vec)).cnt ≠ 0 ∧
      w.fld (Reg.attnMod (191 : Vec)) 31 16 ≠ 0 ∧ (State.reset.vec (0 : Vec)).cnt = 0 ∧ (u 511).funcMask = false ∧
      (u 511).msixPending (511 : Vec) = true ∧ State.reset.msixPending (0 : Vec) = false ∧
      bitOf ((u 511).msixWord (4 * (511 : Vec) + 3)) 0 = false := by decide

theorem witness_LampFramesOfAChain :
    let s := State.reset.setRbit (Reg.lampCfg 3) 0 true
    let b := s.setFld (Reg.lampCfg 3) 5 4 1
    let f := s.setLamp 3 { inFrame := true }
    let n := s.setLamp 3 { inFrame := true, shifted := true }
    let e := s.setLamp 3 { inFrame := true, shifted := true, slots := some [1] }
    let a := s.setLamp 3 { pend := some ([5], false) }
    let d := s.setLamp 3 { pend := some ([5], true) }
    s.lampOn (3 : Port4) = true ∧ s.lampMode (3 : Port4) = 0 ∧ (s.lamp (3 : Port4)).inFrame = false ∧ b.lampOn (3 : Port4) = true ∧
      b.lampMode (3 : Port4) = 1 ∧ (b.lamp (3 : Port4)).inFrame = false ∧ b.lampBlank (3 : Port4) = false ∧
      State.reset.lampOn (0 : Port4) = false ∧ f.lampMode (3 : Port4) = 0 ∧ (f.lamp (3 : Port4)).inFrame = true ∧
      (f.lamp (3 : Port4)).shifted = false ∧ (1 : W32) ≠ (f.lamp (3 : Port4)).marker ∧ (n.lamp (3 : Port4)).shifted = true ∧
      (n.lamp (3 : Port4)).slots = none ∧ (n.lamp (3 : Port4)).inFrame = true ∧ n.lampMode (3 : Port4) = 0 ∧
      (e.lamp (3 : Port4)).slots = some [1] ∧ (e.lamp (3 : Port4)).inFrame = true ∧ (e.lamp (3 : Port4)).shifted = true ∧
      e.lampMode (3 : Port4) = 0 ∧ (a.lamp (3 : Port4)).pend = some ([5], false) ∧ (d.lamp (3 : Port4)).pend = some ([5], true) ∧
      (s.lamp (3 : Port4)).pend = none ∧ a.lampOn (3 : Port4) = true ∧ d.lampMode (3 : Port4) = 0 := by decide

set_option maxRecDepth 20000 in
theorem witness_LampBusMatrixAndBlanking :
    let s := State.reset.setLamp 3 { inFrame := true, polls := [30, 31] }
    let z : List Byte := List.replicate 33 0
    let m := (((State.reset.setRbit (Reg.lampCfg 3) 0 true).setFld (Reg.lampCfg 3) 5 4 2).setReg (Reg.lampMxCfg 3) 0x71000040).setReg
      (Reg.lampChain 3) 4
    let a := m.setLamp 3 { inFrame := true, plane := some 7 }
    let b := m.setLamp 3 { inFrame := true, plane := some 1, row := 2 }
    let c := m.setLamp 3 { inFrame := true, plane := some 1, row := 3 }
    let t := State.reset.setReg (Reg.lampThTemp 15) 0x10000
    State.reset.shut = false ∧ s.shut = false ∧ m.shut = false ∧ a.shut = false ∧ b.shut = false ∧ c.shut = false ∧ t.shut = false ∧
    (m.lamp (3 : Port4)).inFrame = false ∧ (State.reset.lamp (0 : Port4)).inFrame = false ∧
      (s.lamp (3 : Port4)).inFrame = true ∧ (s.lamp (3 : Port4)).polls = [30, 31] ∧ z.length = 33 ∧ crc8 (z.take 32) = z.getD 32 0 ∧
      ([] : List Byte).length ≠ 33 ∧ (0 : BitVec 16).getLsbD 13 = false ∧ (0 : BitVec 16).getLsbD 15 = false ∧
      a.lampOn (3 : Port4) = true ∧ a.lampMode (3 : Port4) = 2 ∧ a.lampBlank (3 : Port4) = false ∧
      (a.lamp (3 : Port4)).inFrame = true ∧ (a.lamp (3 : Port4)).plane = some 7 ∧ a.fld (Reg.lampMxCfg (3 : Port4)) 27 24 < 7 ∧
      (b.lamp (3 : Port4)).plane = some 1 ∧ 1 ≤ b.fld (Reg.lampMxCfg (3 : Port4)) 27 24 ∧
      (b.lamp (3 : Port4)).row + 1 < b.lampLen (3 : Port4) ∧ c.lampLen (3 : Port4) ≤ (c.lamp (3 : Port4)).row + 1 ∧
      t.rbit (Reg.lampThTemp (15 : Fin 16)) 16 = true ∧ t.rbit (Reg.lampThTemp (15 : Fin 16)) 17 = false ∧
      State.reset.rbit (Reg.lampThTemp (0 : Fin 16)) 16 = false ∧ (s.setRbit Reg.lampEmerg 3 true).rbit Reg.lampEmerg (3 : Port4) = true ∧
      ((s.setRbit Reg.lampEmerg 3 true).lamp (3 : Port4)).inFrame = true ∧ State.reset.rbit Reg.lampEmerg (0 : Port4) = false := by decide

theorem witness_PowerDomainsAndClock :
    let t (d : Dom) := State.reset.setRbit Reg.sysPwrStat (8 + Dom.bit d) true
    let g := (t .mem).setRbit Reg.sysPwrCtrl (Dom.bit .mem) false
    let l := (t .laneA).setRbit Reg.sysPwrCtrl (Dom.bit .laneA) false
    let a := (t .dspB).setRbit Reg.sysPwrCtrl (Dom.bit .dspB) true
    let v := State.reset.setCore 0 { mode := .running, vendor := true, role := 1 }
    let n := State.reset.setRbit Reg.sysBootStat 1 true
    n.shut = false ∧ n.minimal = true ∧ n.pwrCheck (0xFF &&& 0x10) = none ∧ State.reset.minimal = false ∧ State.reset.boot.held = false ∧
    State.reset.shut = false ∧ State.reset.pwrCheck (State.reset.reg Reg.sysPwrCtrl) = none ∧
      a.pwrCheck 0 = some .busy ∧ g.domTrans (Dom.bit .mem) = true ∧ g.domAsked (Dom.bit .mem) = false ∧ g.domMayGate .mem = true ∧ l.domMayGate .laneA = true ∧
      l.domTrans (Dom.bit .laneA) = true ∧ l.domAsked (Dom.bit .laneA) = false ∧
      ((l.setSched 1 { l.sched 1 with started := true }).setLane 8 { l.lane 8 with cur := { (l.lane 8).cur with on := 1 } }).domMayGate .laneA = false ∧
      State.reset.domTrans (Dom.bit .laneA) = false ∧ a.domTrans (Dom.bit .dspB) = true ∧ a.domAsked (Dom.bit .dspB) = true ∧
      12 < field (13 : W32) 3 0 ∧ field (7 : W32) 3 0 < 8 ∧ v.anyVendor = true ∧ field (12 : W32) 3 0 ≤ 12 ∧
      State.reset.anyVendor = false ∧ field (12 : W32) 3 0 ≠ State.reset.fld Reg.sysClkCtrl 3 0 := by decide

theorem witness_EveryResetAndItsCause :
    let r : State := { State.reset with boot := { State.reset.boot with running := true, held := true } }
    let w : State := { State.reset with boot := { State.reset.boot with running := true } }
    let c : State := { State.reset with boot := { State.reset.boot with cause := some 0 } }
    let d : State := { State.reset with boot := { State.reset.boot with cause := some 9, held := true } }
    w.shut = false ∧ w.boot.running = true ∧ w.rbit Reg.sysBootStat 0 = false ∧ w.fails < 2 ∧
    State.reset.shut = false ∧ State.reset.boot.held = false ∧ State.reset.boot.running = false ∧ 0 ≠ Reg.sysResetWhy ∧
      r.boot.running = true ∧ r.boot.held = true ∧ r.rbit Reg.sysBootStat 0 = false ∧ r.fails < 2 ∧ State.reset.boot.cause = none ∧
      c.boot.cause = some 0 ∧ c.scrapped = false ∧ c.boot.held = false ∧ d.scrapped = false ∧ d.boot.held = true ∧ d.boot.cause = some 9 ∧
      d.shut = true ∧ d.pending = [] ∧ w.boot.cause = none := by decide

theorem witness_BootAttemptsAndMinimalMode :
    let s := State.reset
    let i : State := { s with nvm := { s.nvm with img := ({ written := true, valid := true }, {}) } }
    let tr := s.setRbit (Reg.mcStatus 1) 1 true
    let f := s.setFld Reg.sysBootWhy 25 24 2
    let m : State := { s with boot := { s.boot with manual := true } }
    let r : State := { s with boot := { s.boot with running := true } }
    let d : State := { s with boot := { running := true } }
    s.booting = true ∧ s.boot.running = false ∧ s.nvm.pending = none ∧ s.boot.manual = false ∧ s.fails < 2 ∧
      i.imageChoice ((i.nvmScan [(3, 1)]).imageValid false true) ((i.nvmScan [(3, 1)]).imageValid true false) = some false ∧
      (3 : BitVec 72) ∈ (s.nvm.flip [(0x40000, 3)]).worn (nvmImage (true).toNat) ∧ 2 ≤ flipped 3 ∧ r.memReady = true ∧ d.memReady = true ∧ tr.memReady = false ∧ i.booting = true ∧ i.nvm.restore = false ∧
      i.nvm.cfg.1.written = false ∧ i.nvm.cfg.2.written = false ∧ m.boot.manual = true ∧ m.booting = true ∧ 1 ≤ (4 : Byte).toNat ∧
      (4 : Byte).toNat ≤ 4 ∧ 2 ≤ f.fails ∧ f.booting = true ∧ r.boot.running = true ∧ r.boot.fill = true ∧ r.booting = true ∧
      d.booting = true ∧ d.boot.fill = false ∧ d.cfgIn = none ∧ (s.setRbit Reg.sysBootStat 0 true).booting = false := by decide

theorem witness_EnvmImagesStoresAndLifeCycle :
    let v := (State.reset.setReg Reg.nvmWriteCtrl 7).setSession 15 { active := true, role := 3 }
    let c : State := { v with nvm := { v.nvm with ops := [.config], waiters := [(.local, 0, true)] } }
    let l : State := { v with nvm := { v.nvm with ops := [.lifeRecord], lifeAsked := some 1 } }
    let k := v.setRbit Reg.lifeStateCtrl 31 true
    let g := v.setFld Reg.lifeStateCtrl 5 4 1
    let p : State := { v with nvm := { v.nvm with pending := some 3 } }
    v.pathRole (.can 1) = some 0 ∧ v.pathRole (.session 15) = some 3 ∧ v.pathRole .local = some 2 ∧
      State.reset.pathRole .control = some 3 ∧ State.reset.rbit Reg.nvmWriteCtrl 0 = false ∧ v.nvmMay 0 (true).toNat = true ∧
      1572860 + ([0, 0, 0, 0] : List Byte).length ≤ 1572864 ∧ v.minimal = false ∧ v.nvmMay 1 2 = true ∧ v.nvm.waiters = [] ∧
      c.nvm.ops = [.config] ∧ c.nvm.waiters = [(.local, 0, true)] ∧ l.nvm.ops = [.lifeRecord] ∧ NvmOp.secrets ∉ l.nvm.ops ∧
      k.shut = false ∧ k.rbit Reg.lifeStateCtrl 31 = true ∧ v.rbit Reg.lifeStateCtrl 31 = false ∧
      v.lifeTargetOk (v.fld Reg.lifeStateCtrl 5 4) = false ∧ g.lifeTargetOk (g.fld Reg.lifeStateCtrl 5 4) = true ∧
      p.booting = true ∧ p.boot.running = false ∧ p.nvm.pending = some 3 := by decide

theorem witness_EnvmImagesStoresAndLifeCycle_done :
    let o : NvmSt := { ops := [.image true, .secrets, .image true] }
    NvmOp.image true ∈ o.ops ∧ NvmOp.secrets ∈ o.ops ∧ ({ written := true } : CfgSlotNv).written = true ∧
      ({ written := true } : CalSlotNv).written = true := by decide

theorem witness_DictionaryAccess :
    let s := State.reset.setSession 3 { active := true, role := 2 }
    State.reset.shut = false ∧ s.shut = false ∧
    State.reset.pathRole (.session 0) = none ∧ s.pathRole (.session 3) = some 2 ∧ isKey 0x1F80 = true ∧ odRows 0x1002 = [] ∧
      odRows 0x1018 ≠ [] ∧ odRow 0x1018 0 = none ∧ (odRow 0x2010 1).map (·.acc) = some .rws ∧
      (odRow 0x1001 0).map (·.acc) = some .ro ∧ (odRow 0x1F51 1).map (·.acc) = some .wo ∧ isStore 0x2010 1 = false ∧
      1 < odWriteRole 0x2010 1 ∧ odWriteRole 0x2010 1 ≤ 2 ∧ s.minimal = false ∧ odCode .u8 ≠ 4 ∧
      s.odRefuse 2 0x2010 1 5 0 [127] = none := by decide

theorem witness_LocalWindow :
    let s := (((State.reset.setReg (Reg.netLocalBuf 0) 0x0101).setReg (Reg.netLocalBuf 4) 0x80000).setReg (Reg.netLocalBuf 6)
      0x10082010).setReg Reg.netLocalLen 32
    s.net.localBusy = false ∧ 24 ≤ s.localRequest.length ∧ leAt s.localRequest 0 1 = 1 ∧ leAt s.localRequest 1 1 = 1 ∧
      leAt s.localRequest 2 1 % 2 = 0 ∧ (frameHdr s.localRequest).len = 8 ∧
      24 + (frameHdr s.localRequest).len ≤ s.localRequest.length ∧
      ({ State.reset with net := { State.reset.net with localBusy := true } } : State).net.localBusy = true := by decide

set_option maxRecDepth 4000 in
theorem witness_SessionsAndSubscriptions :
    let on := State.reset.setReg Reg.netCtrl 1
    let full := (List.range 16).foldl (fun t i => t.setSession i { active := true }) on
    let ch := on.setSession 15 { challenged := true, role := 3, sid := 7 }
    let a := on.setSession 0 { active := true, role := 1, sid := 9, subs := List.range 64, leases := [(63, 2)] }
    let b := { on with net := { on.net with sources := [(5, 100, [100, 90])] } }
    State.reset.yarfelOn = false ∧ on.yarfelOn = true ∧ (∀ i, i < 16 → ((full.session i).active || (full.session i).challenged) = true) ∧
      ((on.session 0).active || (on.session 0).challenged) = false ∧ (ch.session (15 : Fin 16)).challenged = true ∧
      (a.session (0 : Fin 16)).active = true ∧ [239, 256, 511].all subscribable = true ∧ (on.session 0).subs.length + 3 ≤ 64 ∧
      (∀ v ∈ [256], v ∉ (a.session (0 : Fin 16)).subs) ∧ 64 < (a.session (0 : Fin 16)).subs.length + 1 ∧
      (63, 2) ∈ (a.session (0 : Fin 16)).leases ∧ b.net.sources.head? = some (5, 100, [100, 90]) ∧
      (35 : W32).toNat + 64 < 100 ∧ (90 : W32).toNat ∈ [100, 90] ∧ (∀ x ∈ on.net.sources, x.1 ≠ 5) ∧
      2 ≤ odWriteRole 0x2010 1 := by decide

theorem witness_SessionFrames :
    let on := State.reset.setReg Reg.netCtrl 1
    let a := on.setSession 0 { active := true, role := 1, sid := 9 }
    let l : List Byte := ([1, 1, 0, 1, 0, 0, 0, 0, 9] ++ List.replicate 31 0)
    let o : List Byte := ([1, 1, 0, 1, 0, 0, 0xFF] ++ List.replicate 33 0)
    frameForm l = true ∧ (frameHdr l).flags / 2 % 2 = 0 ∧ (frameHdr l).dst = a.devAddr ∧ (frameHdr l).type ≠ 0 ∧
      (a.session (0 : Fin 16)).sid.toNat = (frameHdr l).session ∧ (frameHdr o).dst ≠ on.devAddr ∧ a.net.estate = [] ∧
      (∀ j : Fin 16, j ≠ 0 → (a.session j).active = false) := by decide

theorem witness_SessionFrames_accepted :
    let on := State.reset.setReg Reg.netCtrl 1
    let a := on.setSession 0 { active := true, role := 1, sid := 9 }
    let h : FrameHdr := { type := 2, flags := 0, role := 1, src := 5, dst := 0, session := 9, seq := 1, reqId := 7, len := 10 }
    let body := h.bytes ++ [0x30, 0x44, 1, BitVec.ofNat 8 (odCode .u16), 0, 0, 0, 0, 0xA8, 0x61]
    let l := body ++ frameTag [] body
    a.yarfelOn = true ∧ a.minimal = false ∧ frameForm l = true ∧ (frameHdr l).flags / 2 % 2 = 0 ∧ (frameHdr l).dst = a.devAddr ∧
      (frameHdr l).type = 2 ∧ (a.session (0 : Fin 16)).sid.toNat = (frameHdr l).session ∧
      l.drop (24 + (frameHdr l).len) = frameTag (a.session (0 : Fin 16)).key (l.take (24 + (frameHdr l).len)) ∧
      seqAccept (a.session (0 : Fin 16)).rxMax (a.session (0 : Fin 16)).rxSeen (frameHdr l).seq = some (1, [1]) ∧
      (a.session (0 : Fin 16)).replies = [] ∧ 1 ≤ (a.session (0 : Fin 16)).role ∧
      leAt ((l.take (24 + (frameHdr l).len)).drop 24) 0 2 = 0x4430 + (0 : Fin 8).val ∧
      ofLeBytes (((l.take (24 + (frameHdr l).len)).drop 24).drop 8) ≤ 25000 := by decide +kernel

theorem witness_PtpPortsAndLinks :
    let up := (((State.reset.setReg Reg.netCtrl 2).setReg (Reg.netPortCfg 1) 1).setReg (Reg.netPortStatus 1) 5)
    let lis := up.setPtp 1 { up.ptp 1 with state := pListening }
    let mas := up.setPtp 1 { up.ptp 1 with state := pMaster }
    let m : PtpMsg := { kind := 8, domain := 0, source := [7], seqId := 3, correction := 0, stamp := 0, body := [] }
    let sl := up.setPtp 1 { up.ptp 1 with state := pSlave, parent := some [7], syncRx := some (3, 0), inLock := 15 }
    let far := up.setPtp 1 { up.ptp 1 with state := pSlave, parent := some [7], syncRx := some (3, 20001 * 2 ^ 32), outLock := 2 }
    let st := (up.setPtp 1 { up.ptp 1 with state := pSlave, parent := some [7], syncRx := some (3, 2 ^ 60) }).setRbit Reg.timeSrcPolicy 2 true
    let off := up.setRbit Reg.timeSrcPolicy 2 false
    State.reset.ptpOn 0 = false ∧ up.ptpOn 1 = true ∧ (lis.ptp 1).state = pListening ∧ (mas.ptp 1).state = pMaster ∧
      (sl.ptp 1).state = pSlave ∧ (sl.ptp 1).set 4 = 1 ∧ m.domain.toNat = (sl.ptp 1).set 1 ∧ (sl.ptp 1).parent = some m.source ∧
      (sl.ptp 1).syncRx = some (m.seqId.toNat, 0) ∧ 15 ≤ (sl.ptp 1).inLock ∧ 10 * (far.ptp 1).set 10 * 2 ^ 32 < 20001 * 2 ^ 32 ∧
      2 ≤ (far.ptp 1).outLock ∧ (st.ptp 1).set 9 * 2 ^ 32 < 2 ^ 60 ∧ st.rbit Reg.timeSrcPolicy 2 = true ∧
      off.rbit Reg.timeSrcPolicy 2 = false ∧ up.fld (Reg.netPortStatus 1) 2 0 ≠ 0 ∧ State.reset.fld (Reg.netPortStatus 0) 2 0 = 0 ∧
      up.rbit (Reg.netPortCfg 1) 0 = true ∧ up.rbit (Reg.netPortCfg 1) 3 = false ∧ up.shut = false ∧ up.portUp 1 = true := by decide

theorem witness_PtpPortsAndLinks_addresses :
    let up := ((State.reset.setReg (Reg.netPortCfg 1) 1).setReg (Reg.netPortStatus 1) 5).setOdv 0x2002 1 0x0A000001
    up.portUp 1 = true ∧ up.ptpOn 1 = false ∧ up.portIp4 1 = 0x0A000001 ∧ up.ownIp 1 (.v4 0x0A000001) = true ∧ up.linkLocal 1 ≠ 0 ∧
      (0x0A000002 : BitVec 32) ≠ up.portIp4 1 ∧ State.reset.portUp 0 = false := by decide

theorem witness_CanNetworkManagement :
    let on := (State.reset.setReg (Reg.canCfg 1) 0x129).setReg (Reg.canStatus 1) 0x7F00
    let hb := (on.setOdv 0x1016 4 0x7F0001).setOdv 0x1017 0 10
    let hd := hb.setCan 1 { heard := [0x7F] }
    let bo := on.setReg (Reg.canStatus 1) 0x502
    on.canOn 1 = true ∧ (1 : Byte).toNat = on.canNodeId 1 ∧ (127 : Byte).toNat ≠ on.canNodeId 1 ∧ State.reset.canOn 0 = false ∧
      bo.canOn 1 = false ∧ hb.odv 0x1017 0 ≠ 0 ∧ hb.nmt 1 ≠ 0 ∧ hb.consumes 0x7F = true ∧ 0x7F ∈ (hd.can 1).heard ∧
      0x7F ∉ (hd.can 1).lost ∧ hd.consumes 0x7F = true ∧ hd.canOn 1 = true ∧ bo.rbit (Reg.canCfg 1) 0 = true ∧
      bo.rbit (Reg.canCfg 1) 3 = true ∧ bo.fld (Reg.canStatus 1) 1 0 = 2 := by decide

set_option maxRecDepth 8000 in
theorem witness_CanObjectsAndReceiveQueue :
    let on := (State.reset.setReg (Reg.canCfg 1) 0x129).setReg (Reg.canStatus 1) 0x500
    let td := ((on.setOdv 0x180F 5 10).setOdv 0x180F 1 0x101).setTpdo 15 { asked := true }
    let rp := (((on.setOdv 0x1407 1 0x301).setOdv 0x1607 0 1).setOdv 0x1607 1 0x44300110).setFld (Reg.canCfg 1) 18 16 1
    let f : CanFrame := { id := 5, ext := true, fd := false, brs := false, rtr := false, data := [] }
    let fl := on.setReg (Reg.canFid0 0 + 0x80) 0xC0000005
    let full := fl.setReg (Reg.canRxqLevel 1) 64
    on.sdoServed 1 = true ∧ (0x40 : Byte).toNat / 32 = 2 ∧ (on.odRead (0x17 + 256 * 0x10) 0 0).isRight = true ∧
      5 ≤ (0xA0 : Byte).toNat / 32 ∧ td.odv (0x1800 + 8 * 1 + 7) 5 ≠ 0 ∧ td.tpdoCob 1 7 < 2 ^ 31 ∧ td.canOperational 1 = true ∧
      (td.tpdo (8 * 1 + 7)).asked = true ∧ td.canOn 1 = true ∧ td.inhibitOver 1 7 = true ∧ (on.tpdo 8).asked = false ∧
      rp.rpdoOn 1 3 = true ∧ ([1] : List Byte).length < ((rp.mapping (0x1600 + 4 * 1 + 3)).map fun e => e.2.2).sum ∧
      State.reset.canOperational 0 = false ∧ State.reset.rpdoOn 0 0 = false ∧ rp.mapping (0x1600 + 4 * 1 + 3) = [(0x4430 + (0 : Fin 8).val, 1, 2)] ∧
      1 ≤ rp.fld (Reg.canCfg 1) 18 16 ∧ rp.minimal = false ∧ ofLeBytes [0xA8, 0x61] ≤ 25000 ∧ on.canService 1 f = none ∧ fl.filterMatch 1 f = true ∧ on.filterMatch 1 f = false ∧
      64 ≤ full.fld (Reg.canRxqLevel 1) 6 0 ∧ fl.fld (Reg.canRxqLevel 1) 6 0 < 64 := by decide

theorem witness_CheckBitColumns : (55 : Nat) < 56 ∧ (56 : Nat) ≤ 71 ∧ (71 : Nat) < 72 ∧ (7 : Nat) < 8 ∧
    71 ∈ (List.range 72) := by decide

theorem witness_BitReversedPointers :
    let x : CoreSt := { p := [0x0104], b := [0x0100], m := [4], l := [0x2000C] }
    let y : CoreSt := { p := [0x0108], b := [0x0100], m := [4], l := [0x2000C] }
    field (nth x.l 0 0) 17 16 = 2 ∧ 2 ≤ field (nth x.l 0 0) 15 0 ∧ (field (nth x.l 0 0) 15 0).log2 = 3 ∧
      (nth x.p 0 0 - nth x.b 0 0).toNat < 2 ^ 3 ∧ 2 ^ 3 ≤ (nth y.p 0 0 - nth y.b 0 0).toNat ∧
      nth x.m 0 0 = BitVec.ofNat 16 (2 ^ (3 - 1)) ∧ nth x.p 0 0 = nth x.b 0 0 + BitVec.ofNat 16 (revBits 3 1) ∧
      0 < x.p.length ∧ ({} : Effect).sr = none := by decide

theorem witness_EveryStepKeepsStateWellFormed :
    let s : State := { State.reset with pending := [.evqPop .cp, .por] }
    s.memoryWf = true ∧ (s.core 0).sized = true ∧ (s.core 255).sized = true := by decide

theorem witness_EveryStepKeepsStateWellFormed_step :
    ∃ t, step ({ State.reset with pending := [.evqPop .cp, .por] } : State) = .next t := ⟨_, rfl⟩

theorem witness_EveryStepKeepsHeldLasersDark :
    let s := (((State.reset.setRbit Reg.sysOptInterlock (8 + 1) true).setRbit Reg.sysOptInterlock 1 true).setRbit (Reg.headCtrl 1) 1 true)
    let p := s.setHead 1 { s.head 1 with playing := true, gates := 0xFF }
    (∀ h : Head, p.laserSafe h = true) ∧ p.lasen 1 = true ∧ (p.head 1).playing = true := by decide

theorem witness_EveryStepKeepsHeldLasersDark_step :
    ∃ t, step ({ State.reset with pending := [.headokFall 1 0] } : State) = .next t := ⟨_, rfl⟩

theorem witness_ResetState : (0 : Nat) ≠ Reg.sysBootStat ∧ resetOf (Reg.canNode 1) = 1 := by decide

end Sys2Proof.Tests
end

section
/-!
PROOFS. Every step keeps the memories canonical and the register files whole, and takes its command from the queue (O58).

The invariant is `Whole ρ s`, with ρ the commands that wait: nothing but `step` itself takes from the queue, so ρ stays
fixed through a whole step. Each function of the model that delivers a state has one lemma, `Whole.f`, which says that it
keeps `Whole ρ`; the proof follows the function's body from lemma to lemma. They stand in the order of the model's files.
The base is `Whole.rest` (a change outside memories, cores and queue needs no argument), the laws of the memories of
Laws/Ops, and for the cores that each update keeps the lengths of the register files.
-/
namespace Sys2Proof.Machine

/-- The memories of s are in canonical form, the register files of its cores have their sizes, and the commands ρ
wait. -/
structure Whole (ρ : List Instr) (s : State) : Prop where
  mem : s.memoryWf = true
  cores : ∀ k, (s.core k).sized = true
  queue : s.pending = ρ

/-- The outcome o is a next state that is whole with ρ waiting. -/
inductive Leaves (ρ : List Instr) : Host.Outcome State Fault Refusal → Prop
  | next {t : State} (h : Whole ρ t) : Leaves ρ (.next t)

section
variable {ρ : List Instr} {s t : State}

/-! ## What keeps a state whole -/

/-- What lies outside the memories, the cores and the queue may take any values. -/
theorem Whole.rest
    {fresh evLost : Nat} {tx : List Out} {reqs : Store ReqSt} {time : TimeSt} {heads : Store HeadSt}
    {lanes : Store LaneSt} {scheds : Store SchedSt} {tdcs : Store TdcSt} {ces : Store CeSt} {raman : Store Int}
    {dramOut : W72 × Bool} {banks : Store BankSt} {mcs : Store McSt} {clusters : Store ClusterSt}
    {chains : Store ChainSt} {branches : Store (Option Int)} {phis : Store (Int × Int)} {bands : Store BandG}
    {fuses : Store FuseO} {coils : Store (List (W72 × Int))} {frames : Store (List W72)}
    {fabric returning : List Msg} {zoneSts : Store ZoneSt} {evq : List (List W72)} {evSeq : W32}
    {caps : Store (Option CapSt)} {selfWrites : List SelfWrite} {tpdos : Store TpdoSt} {od thAt : Store Nat}
    {odBytes : Store (List Byte)} {stalled funcMask : Bool} {vecs : Store VecSt} {queues : Store QueueSt}
    {sessions : Store SessionSt} {dmas : Store DmaSt} {dmaLast : List Nat} {lamps : Store LampSt} {padc : PadcSt}
    {hadc : HadcSt} {loopOuts : Store LoopOutSt} {quince : QuinceSt} {net : NetSt} {cans : Store CanSt}
    {ptps : Store PtpSt} {nvm : NvmSt} {boot : BootSt}
    (hs : Whole ρ s) : Whole ρ { s with
      fresh := fresh, tx := tx, reqs := reqs, time := time, heads := heads, lanes := lanes, scheds := scheds,
      tdcs := tdcs, ces := ces, raman := raman, dramOut := dramOut, banks := banks, mcs := mcs,
      clusters := clusters, chains := chains, branches := branches, phis := phis, bands := bands, fuses := fuses,
      coils := coils, frames := frames, fabric := fabric, returning := returning, zoneSts := zoneSts, evq := evq,
      evLost := evLost, evSeq := evSeq, caps := caps, selfWrites := selfWrites, tpdos := tpdos, od := od,
      odBytes := odBytes, stalled := stalled, vecs := vecs, queues := queues, sessions := sessions,
      funcMask := funcMask, dmas := dmas, dmaLast := dmaLast, lamps := lamps, thAt := thAt, padc := padc,
      hadc := hadc, loopOuts := loopOuts, quince := quince, net := net, cans := cans, ptps := ptps, nvm := nvm,
      boot := boot } :=
  ⟨hs.mem, hs.cores, hs.queue⟩

/-- What only raises vectors touches neither the cores nor the queue. -/
theorem Whole.raiseOnly (hs : Whole ρ s) (k : s.RaiseOnly t) (m : t.memoryWf = true) : Whole ρ t := by
  obtain ⟨p, _, _, _, _, _, _, _, _, _, _, c, _⟩ := k.frame
  exact ⟨m, fun k => by rw [State.core, c]; exact hs.cores k, p.trans hs.queue⟩

/-- Both branches of a condition are whole. The condition and its decision come from the goal. -/
theorem Whole.ite {c : Prop} {d : Decidable c} (hs : Whole ρ s) (k : Whole ρ t) : Whole ρ (if c then s else t) := by
  split
  · exact hs
  · exact k

theorem Whole.iteSnd {α : Type} {c : Prop} {d : Decidable c} {x y : α × State} (hx : Whole ρ x.2) (hy : Whole ρ y.2) :
    Whole ρ (if c then x else y).2 := by
  split
  · exact hx
  · exact hy

/-- What is done only under a condition, to a state that is left as it is otherwise. -/
theorem Whole.guard {c : Prop} {d : Decidable c} (hs : Whole ρ s) (k : Whole ρ s → Whole ρ t) :
    Whole ρ (if c then t else s) :=
  (k hs).ite hs

theorem Leaves.ite {c : Prop} {d : Decidable c} {x y : Host.Outcome State Fault Refusal} (hx : Leaves ρ x)
    (hy : Leaves ρ y) : Leaves ρ (if c then x else y) := by
  split
  · exact hx
  · exact hy

theorem Whole.forEach {l : List Nat} {f : Nat → State → State} (hs : Whole ρ s)
    (k : ∀ i t, Whole ρ t → Whole ρ (f i t)) :
    Whole ρ (forEach l f s) :=
  forEach_keeps (Whole ρ) f l s k hs

theorem Whole.foldl {α : Type} {l : List α} {f : State → α → State} (hs : Whole ρ s)
    (k : ∀ t i, Whole ρ t → Whole ρ (f t i)) :
    Whole ρ (l.foldl f s) :=
  List.foldlRecOn l f hs fun t h i _ => k t i h

theorem Whole.when {c : Bool} {f : State → State} (hs : Whole ρ s) (k : ∀ t, Whole ρ t → Whole ρ (f t)) :
    Whole ρ (s.when c f) :=
  (k s hs).ite hs

/-! ## One register or one word -/

theorem Whole.setReg {a : Nat} {v : W32} (hs : Whole ρ s) : Whole ρ (s.setReg a v) :=
  ⟨s.setReg_memoryWf _ _ hs.mem, hs.cores, hs.queue⟩

theorem Whole.setWreg {a : Nat} {v : W72} (hs : Whole ρ s) : Whole ρ (s.setWreg a v) :=
  ⟨s.setWreg_memoryWf _ _ hs.mem, hs.cores, hs.queue⟩

theorem Whole.setMsixWord {i : Nat} {v : W32} (hs : Whole ρ s) : Whole ρ (s.setMsixWord i v) :=
  ⟨s.setMsixWord_memoryWf _ _ hs.mem, hs.cores, hs.queue⟩

theorem Whole.setDramCell {m a : Nat} {w : BitVec 80} (hs : Whole ρ s) : Whole ρ (s.setDramCell m a w) :=
  ⟨s.setDramCell_memoryWf _ _ _ hs.mem, hs.cores, hs.queue⟩

theorem Whole.datagram {ip : IpAddr} {b : List Byte} (hs : Whole ρ s) : Whole ρ (s.datagram ip b) :=
  hs.raiseOnly (s.datagram_raiseOnly _ _) (s.datagram_memoryWf _ _ hs.mem)

theorem Whole.sessionSend {i ty fl rq : Nat} {p : List Byte} (hs : Whole ρ s) :
    Whole ρ (s.sessionSend i ty fl rq p) :=
  hs.raiseOnly (s.sessionSend_raiseOnly _ _ _ _ _) (s.sessionSend_memoryWf _ _ _ _ _ hs.mem)

theorem Whole.notifyFlush {v : Nat} (hs : Whole ρ s) : Whole ρ (s.notifyFlush v) :=
  hs.raiseOnly (s.notifyFlush_raiseOnly _) (s.notifyFlush_memoryWf _ hs.mem)

theorem Whole.raise {v : Nat} (hs : Whole ρ s) : Whole ρ (s.raise v) :=
  hs.raiseOnly (s.raise_raiseOnly _) (s.raise_memoryWf _ hs.mem)

theorem Whole.event {v : Nat} (hs : Whole ρ s) : Whole ρ (s.event v) :=
  hs.raiseOnly (s.event_raiseOnly _) (s.event_memoryWf _ hs.mem)

theorem Whole.fault {a m : Nat} (hs : Whole ρ s) : Whole ρ (s.fault a m) :=
  hs.raiseOnly (s.fault_raiseOnly _ _) (s.fault_memoryWf _ _ hs.mem)

theorem Whole.err {b : Nat} {c : Cause} {o : Nat} {q : Req} (hs : Whole ρ s) : Whole ρ (s.err b c o q) :=
  hs.raiseOnly (s.err_raiseOnly _ _ _ _) (s.err_memoryWf _ _ _ _ hs.mem)

/-! ## The words of the memories -/

/-- A write keeps the canonical form of a store with one default. -/
theorem Store.wf_set_const {α : Type} [DecidableEq α] {d : α} {m : Store α} (k : Nat) (x : α)
    (h : m.wf (fun _ => d) = true) : (m.set d k x).wf (fun _ => d) = true :=
  Store.wf_set (d := fun _ => d) k x h

/-- A change of memories that keeps each in canonical form. -/
theorem Whole.memories (hs : Whole ρ s) (m : s.memoryWf = true → t.memoryWf = true)
    (e : (t.cores, t.pending) = (s.cores, s.pending)) : Whole ρ t := by
  obtain ⟨c, p⟩ : t.cores = s.cores ∧ t.pending = s.pending := by simpa using e
  exact ⟨m hs.mem, fun k => by rw [State.core, c]; exact hs.cores k, p.trans hs.queue⟩

theorem Whole.setProbe {k : Nat} {v : W72} (hs : Whole ρ s) : Whole ρ { s with probe := s.probe.set 0 k v } :=
  hs.memories (fun m => by simp_all [State.memoryWf, Store.wf_set_const]) rfl

theorem Whole.setSram {k : Nat} {v : W72} (hs : Whole ρ s) : Whole ρ { s with sram := s.sram.set 0 k v } :=
  hs.memories (fun m => by simp_all [State.memoryWf, Store.wf_set_const]) rfl

theorem Whole.setCmem {k : Nat} {v : W72} (hs : Whole ρ s) : Whole ρ { s with cmem := s.cmem.set 0 k v } :=
  hs.memories (fun m => by simp_all [State.memoryWf, Store.wf_set_const]) rfl

theorem Whole.setImem {k : Nat} {v : BitVec 64} (hs : Whole ρ s) : Whole ρ { s with imem := s.imem.set 0 k v } :=
  hs.memories (fun m => by simp_all [State.memoryWf, Store.wf_set_const]) rfl

theorem Whole.setZones {k : Nat} {v : W72} (hs : Whole ρ s) : Whole ρ { s with zones := s.zones.set 0 k v } :=
  hs.memories (fun m => by simp_all [State.memoryWf, Store.wf_set_const]) rfl

theorem Whole.setDescs {k : Nat} {v : W72} (hs : Whole ρ s) : Whole ρ { s with descs := s.descs.set 0 k v } :=
  hs.memories (fun m => by simp_all [State.memoryWf, Store.wf_set_const]) rfl

theorem Whole.setGroups {k : Nat} {v : W72} (hs : Whole ρ s) : Whole ρ { s with groups := s.groups.set 0 k v } :=
  hs.memories (fun m => by simp_all [State.memoryWf, Store.wf_set_const]) rfl

theorem Whole.setLampOuts {k : Nat} {v : BitVec 18} (hs : Whole ρ s) :
    Whole ρ { s with lampOuts := s.lampOuts.set 0 k v } :=
  hs.memories (fun m => by simp_all [State.memoryWf, Store.wf_set_const]) rfl

theorem Whole.setManySram {l : List (Nat × W72)} (hs : Whole ρ s) :
    Whole ρ { s with sram := Store.setMany 0 l s.sram } :=
  hs.memories (fun m => by simp_all [State.memoryWf, Store.wf_setMany]) rfl

theorem Whole.dspZeroed {lo : Nat} (hs : Whole ρ s) : Whole ρ (s.dspZeroed lo) :=
  hs.memories (fun m => by simp_all [State.memoryWf, State.dspZeroed, Store.wf_dropRange]) rfl

theorem Whole.emptyDram (hs : Whole ρ s) : Whole ρ { s with dram := .empty } :=
  hs.memories (fun m => by simp_all [State.memoryWf, Store.wf_empty]) rfl

theorem Whole.emptyMsix (hs : Whole ρ s) : Whole ρ { s with msix := .empty } :=
  hs.memories (fun m => by simp_all [State.memoryWf, Store.wf_empty]) rfl

/-- A core whose register files have the lengths of those of a whole core is whole, whatever else it holds. -/
theorem CoreSt.sized_of_lengths {x : CoreSt} (h : x.sized = true) {mode : CoreMode} {vendor : Bool} {role : BitVec 4}
    {epoch : BitVec 12} {g : List W72} {acc : List (Int × Int)} {p m b lc : List (BitVec 16)} {l : List (BitVec 18)}
    {bexp : BitVec 10} {sstat : BitVec 16} {pc govPc faultPc why cycle : Nat} {loops : List LoopSt}
    {inbox bounce : List Msg} {ready : Store Nat} (hg : g.length = x.g.length := by rfl)
    (hacc : acc.length = x.acc.length := by rfl) (hp : p.length = x.p.length := by rfl)
    (hm : m.length = x.m.length := by rfl) (hl : l.length = x.l.length := by rfl)
    (hb : b.length = x.b.length := by rfl)
    (hlc : lc.length = x.lc.length := by rfl) :
    CoreSt.sized ⟨mode, vendor, role, epoch, g, acc, p, m, l, b, lc, bexp, sstat, pc, govPc, faultPc, why, loops,
      inbox, bounce, cycle, ready⟩ = true := by
  simpa [CoreSt.sized, hg, hacc, hp, hm, hl, hb, hlc] using h

/-- A core takes a record whose register files are whole where those of the core were. -/
theorem Whole.setCore {c : Nat} {x : CoreSt} (hs : Whole ρ s) (hx : (s.core c).sized = true → x.sized = true) :
    Whole ρ (s.setCore c x) := by
  refine ⟨hs.mem, fun k => ?_, hs.queue⟩
  by_cases e : k = c
  · rw [e, State.core_setCore_same]; exact hx (hs.cores c)
  · rw [State.core_setCore_ne _ _ e]; exact hs.cores k

/-! ## Registers, events and faults -/

theorem Whole.emit {o : Out} (hs : Whole ρ s) : Whole ρ (s.emit o) := hs.rest
theorem Whole.setFld {a hi lo x : Nat} (hs : Whole ρ s) : Whole ρ (s.setFld a hi lo x) := hs.setReg
theorem Whole.setRbit {a i : Nat} {b : Bool} (hs : Whole ρ s) : Whole ρ (s.setRbit a i b) := hs.setReg
theorem Whole.count {a n : Nat} (hs : Whole ρ s) : Whole ρ (s.count a n) := hs.setReg
theorem Whole.setReq {q : Req} {r : ReqSt} (hs : Whole ρ s) : Whole ρ (s.setReq q r) := hs.rest
theorem Whole.answer {q : Req} {v : W32} (hs : Whole ρ s) : Whole ρ (s.answer q v) := hs.setReq
theorem Whole.setHead {h : Nat} {x : HeadSt} (hs : Whole ρ s) : Whole ρ (s.setHead h x) := hs.rest
theorem Whole.setLane {ch : Nat} {x : LaneSt} (hs : Whole ρ s) : Whole ρ (s.setLane ch x) := hs.rest
theorem Whole.setSched {h : Nat} {x : SchedSt} (hs : Whole ρ s) : Whole ρ (s.setSched h x) := hs.rest
theorem Whole.setTdc {u : Nat} {x : TdcSt} (hs : Whole ρ s) : Whole ρ (s.setTdc u x) := hs.rest
theorem Whole.setCe {ch : Nat} {x : CeSt} (hs : Whole ρ s) : Whole ρ (s.setCe ch x) := hs.rest
theorem Whole.setMc {m : Nat} {x : McSt} (hs : Whole ρ s) : Whole ρ (s.setMc m x) := hs.rest
theorem Whole.setVec {v : Nat} {x : VecSt} (hs : Whole ρ s) : Whole ρ (s.setVec v x) := hs.rest
theorem Whole.setQueue {v : Nat} {x : QueueSt} (hs : Whole ρ s) : Whole ρ (s.setQueue v x) := hs.rest
theorem Whole.setSession {i : Nat} {x : SessionSt} (hs : Whole ρ s) : Whole ρ (s.setSession i x) := hs.rest
theorem Whole.setCluster {cl : Nat} {x : ClusterSt} (hs : Whole ρ s) : Whole ρ (s.setCluster cl x) := hs.rest
theorem Whole.setChain {ch : Nat} {x : ChainSt} (hs : Whole ρ s) : Whole ρ (s.setChain ch x) := hs.rest
theorem Whole.setZone {z : Nat} {x : ZoneSt} (hs : Whole ρ s) : Whole ρ (s.setZone z x) := hs.rest
theorem Whole.setCap {k : Nat} {x : Option CapSt} (hs : Whole ρ s) : Whole ρ (s.setCap k x) := hs.rest
theorem Whole.setTpdo {i : Nat} {x : TpdoSt} (hs : Whole ρ s) : Whole ρ (s.setTpdo i x) := hs.rest
theorem Whole.setDma {n : Nat} {x : DmaSt} (hs : Whole ρ s) : Whole ρ (s.setDma n x) := hs.rest
theorem Whole.setLamp {p : Nat} {x : LampSt} (hs : Whole ρ s) : Whole ρ (s.setLamp p x) := hs.rest
theorem Whole.setLoopOut {n : Nat} {x : LoopOutSt} (hs : Whole ρ s) : Whole ρ (s.setLoopOut n x) := hs.rest
theorem Whole.setCan {c : Nat} {x : CanSt} (hs : Whole ρ s) : Whole ρ (s.setCan c x) := hs.rest
theorem Whole.setPtp {n : Nat} {x : PtpSt} (hs : Whole ρ s) : Whole ρ (s.setPtp n x) := hs.rest
theorem Whole.drawn (hs : Whole ρ s) : Whole ρ s.drawn := hs.rest

/-! ## The object dictionary -/

theorem Whole.setOdv {idx sub v : Nat} (hs : Whole ρ s) : Whole ρ (s.setOdv idx sub v) := hs.rest
theorem Whole.setOdvS {idx sub w : Nat} {v : Int} (hs : Whole ρ s) : Whole ρ (s.setOdvS idx sub w v) := hs.setOdv
theorem Whole.setOdStr {idx sub : Nat} {b : List Byte} (hs : Whole ρ s) : Whole ρ (s.setOdStr idx sub b) := hs.rest

/-! ## Messages to hosts and sessions -/

theorem Whole.sessionReply {i type flags reqId : Nat} {payload : List Byte} (hs : Whole ρ s) :
    Whole ρ (s.sessionReply i type flags reqId payload) :=
  hs.setSession.sessionSend

theorem Whole.drawNonce (hs : Whole ρ s) : Whole ρ s.drawNonce.2 := hs.drawn.drawn

/-! ## Attention -/

theorem Whole.setMsixPending {v : Nat} {b : Bool} (hs : Whole ρ s) : Whole ρ (s.setMsixPending v b) := hs.setMsixWord
theorem Whole.msixSend {v : Nat} (hs : Whole ρ s) : Whole ρ (s.msixSend v) := hs.emit

theorem Whole.msixRelease {v : Nat} (hs : Whole ρ s) : Whole ρ (s.msixRelease v) :=
  hs.guard (·.setMsixPending.msixSend)

theorem Whole.notifyWaiting (hs : Whole ρ s) : Whole ρ s.notifyWaiting := hs.forEach fun _ _ ht => ht.notifyFlush
theorem Whole.ack {a : Nat} {v : W32} (hs : Whole ρ s) : Whole ρ (s.ack a v) := hs.guard (·.setReg)

theorem Whole.lateWrite {base off : Nat} {r : RegRow} {check : W32 → Option Cause} {q : Req} {v : W32}
    {done : State → State} (hs : Whole ρ s) (hdone : ∀ u, Whole ρ u → Whole ρ (done u)) :
    Whole ρ (s.lateWrite base off r check q v done) := by
  unfold State.lateWrite
  dsimp only
  split
  · exact hs.err
  · exact hdone _ hs.setReg

theorem Whole.exportPop {v : Nat} (hs : Whole ρ s) : Whole ρ (s.exportPop v) := .ite hs hs.setQueue

/-! ## Memory controllers -/

theorem Whole.setBank {k : Nat} {b : BankSt} (hs : Whole ρ s) : Whole ρ (s.setBank k b) := hs.rest

theorem Whole.retryPush {m : Nat} {c : RetryCmd} (hs : Whole ρ s) : Whole ρ (s.retryPush m c) :=
  .ite hs.setMc hs.setMc

theorem Whole.actDraw {m row : Nat} (hs : Whole ρ s) : Whole ρ (s.actDraw m row).2 :=
  .iteSnd (.iteSnd hs.setReg hs.setReg) hs

theorem Whole.activate {m bank row : Nat} (hs : Whole ρ s) : Whole ρ (s.activate m bank row).2 := hs.retryPush.actDraw

theorem Whole.neighbourRefresh {m bank n : Nat} {l : List Nat} (hs : Whole ρ s) :
    Whole ρ (State.neighbourRefresh m bank n l s) := by
  induction n generalizing l s with
  | zero => exact hs
  | succ n ih =>
    cases l with
    | nil => exact hs
    | cons r l => exact ih hs.activate.retryPush.count

theorem Whole.rowOpen {m bank row : Nat} (hs : Whole ρ s) : Whole ρ (s.rowOpen m bank row).2 := by
  unfold State.rowOpen
  refine .setBank ?_
  split
  · exact .iteSnd hs hs.retryPush.activate
  · exact hs.activate

theorem Whole.rowClose {m bank row : Nat} {last : Bool} {ns : List Nat} (hs : Whole ρ s) :
    Whole ρ (s.rowClose m bank row last ns) :=
  (Whole.ite hs.setBank (.ite hs.retryPush.setBank hs.setBank)).neighbourRefresh

theorem Whole.mcCommand {m bank col : Nat} {r : McReq} {shut : Bool} (hs : Whole ρ s) :
    Whole ρ (s.mcCommand m bank col r shut) := by
  unfold State.mcCommand
  dsimp only
  refine .ite hs.retryPush.setDramCell ?_
  split
  · exact hs.retryPush.rest
  · exact hs.retryPush.rest.count.fault.guard (·.setMc)
  · exact hs.retryPush.rest.setWreg.count.fault
  · exact hs.retryPush.rest.setWreg.count.fault

theorem Whole.mcServeOne {m : Nat} {r : McReq} (hs : Whole ρ s) : Whole ρ (s.mcServeOne m r) :=
  hs.rowOpen.mcCommand.rowClose

theorem Whole.mcServe {m n : Nat} (hs : Whole ρ s) : Whole ρ (State.mcServe m n s) := by
  induction n generalizing s with
  | zero => exact hs
  | succ n ih =>
    refine .ite hs ?_
    dsimp only
    split
    · exact hs
    · exact ih hs.setMc.mcServeOne

theorem Whole.mcDrain {m : Nat} (hs : Whole ρ s) : Whole ρ (s.mcDrain m) := hs.mcServe

theorem Whole.mcRequest {m : Nat} {r : McReq} (hs : Whole ρ s) : Whole ρ (s.mcRequest m r) :=
  .ite hs.setMc hs.mcServeOne.mcDrain

theorem Whole.dramRead {a : Nat} (hs : Whole ρ s) : Whole ρ (s.dramRead a).2 := by
  unfold State.dramRead
  dsimp only
  split
  · exact hs.fault
  · split
    · exact hs
    · split
      · exact hs
      · exact hs.mcRequest

theorem Whole.dramWrite {a : Nat} {v : W72} {poison : Bool} (hs : Whole ρ s) : Whole ρ (s.dramWrite a v poison) :=
  .ite hs.fault (.ite hs ((Whole.ite hs hs.setMc).mcRequest))

theorem Whole.dramWriteMany {l : List W72} {a : Nat} (hs : Whole ρ s) : Whole ρ (State.dramWriteMany l a s) := by
  induction l generalizing a s with
  | nil => exact hs
  | cons v l ih => exact ih hs.dramWrite

theorem Whole.dramReadMany {n a : Nat} (hs : Whole ρ s) : Whole ρ (State.dramReadMany n a s).2 := by
  induction n generalizing a s with
  | zero => exact hs
  | succ n ih => exact ih hs.dramRead

theorem Whole.execDramRead {a : Nat} {flip : BitVec 80} (hs : Whole ρ s) : Leaves ρ (execDramRead a flip s) := by
  unfold Machine.execDramRead
  split
  · exact .next hs
  · exact
      have h1 := hs.guard (·.setDramCell)
      .next (.ite h1.dramRead h1.dramRead.rest)

theorem Whole.execRowTimeout {m : Mc} {bank : Nat} (hs : Whole ρ s) : Leaves ρ (execRowTimeout m bank s) := by
  unfold Machine.execRowTimeout
  dsimp only
  split
  · exact .next (.ite hs hs.retryPush.setBank)
  · exact .next hs

theorem Whole.closeRank {m rank : Nat} (hs : Whole ρ s) : Whole ρ (s.closeRank m rank) :=
  hs.forEach fun _ _ ht => ht.guard (·.setBank)

theorem Whole.precharge {m rank : Nat} (hs : Whole ρ s) : Whole ρ (s.precharge m rank) := hs.retryPush.closeRank

theorem Whole.refreshes {m rank n : Nat} (hs : Whole ρ s) : Whole ρ (s.refreshes m rank n) :=
  (hs.guard (·.precharge)).forEach fun _ _ ht => ht.retryPush

theorem Whole.owe {m rank n : Nat} (hs : Whole ρ s) : Whole ρ (s.owe m rank n) := hs.setMc

theorem Whole.refreshOverdue {m rank : Nat} (hs : Whole ρ s) : Whole ρ (s.refreshOverdue m rank) :=
  hs.guard (·.refreshes.owe)

theorem Whole.replayShut {bank : Nat} {shut : Bool} (hs : Whole ρ s) : Whole ρ (s.replayShut bank shut) := by
  unfold State.replayShut
  split
  · exact hs.setBank
  · exact hs

theorem Whole.replayOne {m : Nat} {x : RetryCmd} (hs : Whole ρ s) : Whole ρ (s.replayOne m x) := by
  unfold State.replayOne
  split
  · exact hs.setBank
  · exact hs.setBank
  · exact hs.closeRank
  · exact hs.rest.replayShut
  · exact hs.setDramCell.replayShut
  · exact hs

theorem Whole.mcFail {m : Nat} (hs : Whole ρ s) : Whole ρ (s.mcFail m) :=
  (hs.guard (·.rest)).setMc.setRbit.setRbit.fault

theorem Whole.tsetHandOver {m : Nat} (hs : Whole ρ s) : Whole ρ (s.tsetHandOver m) := hs.setMc

theorem Whole.trainStore {m : Nat} {mask : W32} {rs : List (Nat × W32)} (hs : Whole ρ s) :
    Whole ρ (s.trainStore m mask rs) :=
  hs.foldl fun _ _ ht => ht.guard (·.setReg)

theorem Whole.rowRestored {m rank : Nat} (hs : Whole ρ s) : Whole ρ (s.rowRestored m rank) :=
  hs.forEach fun _ _ ht => ht.setDramCell

theorem Whole.trainEnd {m : Nat} {r : TrainResult} (hs : Whole ρ s) : Whole ρ (s.trainEnd m r) := by
  unfold State.trainEnd
  split
  · exact ((hs.setReg.setRbit.forEach fun _ _ ht => ht.rowRestored).forEach fun _ _ ht => ht.setBank).trainStore.setMc
  · exact ((hs.setReg.setRbit.forEach fun _ _ ht => ht.rowRestored).forEach fun _ _ ht => ht.setBank).fault

theorem Whole.trainStart {m : Nat} (hs : Whole ρ s) : Whole ρ (s.trainStart m) := hs.setMc.setRbit

theorem Whole.freqStart {m n : Nat} (hs : Whole ρ s) : Whole ρ (s.freqStart m n) :=
  .ite hs.setMc.setRbit ((hs.setMc.setRbit.mcDrain.forEach fun _ _ ht => ht.precharge).setMc)

theorem Whole.trainGo {m : Nat} {q : Req} (hs : Whole ρ s) : Whole ρ (s.trainGo m q) :=
  .ite hs.err hs.trainStart.setMc

theorem Whole.trainOver {m : Nat} {r : TrainResult} (hs : Whole ρ s) : Whole ρ (s.trainOver m r) := by
  unfold State.trainOver
  split
  · exact
      have h1 := Whole.ite hs.trainEnd.setRbit.setMc hs.trainEnd
      .ite h1.freqStart h1.mcDrain
  · exact (Whole.ite hs.trainEnd.setRbit.setFld hs.trainEnd).mcDrain

theorem Whole.periodicEnd {m : Nat} {r : TrainResult} (hs : Whole ρ s) : Whole ρ (s.periodicEnd m r) := by
  unfold State.periodicEnd
  split
  · exact hs.setReg.trainStore
  · exact hs.setReg.fault

theorem Whole.freqGo {m n : Nat} {q : Req} (hs : Whole ρ s) : Whole ρ (s.freqGo m n q) :=
  .ite hs.err (.ite hs.err (.ite hs.setMc.setRbit hs.freqStart))

theorem Whole.tsetLate {m : Nat} {x : Option TsetWrite} (hs : Whole ρ s) : Whole ρ (s.tsetLate m x) := by
  unfold State.tsetLate
  dsimp only
  split
  · exact hs
  · split
    · exact hs
    · exact hs.lateWrite fun _ ht => ht.fault

theorem Whole.rankSre {m rank : Nat} (hs : Whole ρ s) : Whole ρ (s.rankSre m rank) := hs.setMc.count

theorem Whole.enterSr {m rank : Nat} (hs : Whole ρ s) : Whole ρ (s.enterSr m rank) :=
  hs.precharge.tsetHandOver.rankSre

theorem Whole.execCaReplay {m : Mc} (hs : Whole ρ s) : Leaves ρ (execCaReplay m s) := by
  unfold Machine.execCaReplay
  split
  · exact .next hs
  · split
    · exact .next hs.setMc.mcFail
    · exact .next ((hs.closeRank.closeRank.foldl fun _ _ ht =>
        ht.replayOne).setMc.count.refreshOverdue.refreshOverdue.mcDrain.guard (·.freqStart))

theorem Whole.freqOver {m code : Nat} (hs : Whole ρ s) : Whole ρ (s.freqOver m code) := hs.setRbit.setFld.setMc

theorem Whole.freqReturn {m : Nat} {late : Option TsetWrite} {rgOk : Bool} {r : TrainResult} (hs : Whole ρ s) :
    Whole ρ (s.freqReturn m late rgOk r) :=
  have h1 := ((hs.trainEnd.forEach fun _ _ ht => ht.precharge).tsetHandOver.forEach fun _ _ ht =>
    ht.rankSre).setFld.freqOver.tsetLate
  .ite h1.setMc.trainStore.mcDrain h1.setMc.mcFail

/-! ## Heads -/

theorem Whole.darken {h : Nat} (hs : Whole ρ s) : Whole ρ (s.darken h) := hs.guard (·.setHead.emit)

theorem Whole.headokFallen {h : Nat} (hs : Whole ρ s) : Whole ρ (s.headokFallen h) :=
  hs.setHead.setRbit.darken.guard (·.setRbit.fault)

theorem Whole.armWrite {h : Nat} {v : Bool} (hs : Whole ρ s) : Whole ρ (s.armWrite h v) :=
  hs.setRbit.darken.guard (·.setRbit)

theorem Whole.setProbeSample {h bank n : Nat} {i q : Int} (hs : Whole ρ s) :
    Whole ρ (s.setProbeSample h bank n i q) :=
  hs.setProbe

theorem Whole.probeWordWrite {h bank w : Nat} {v : W72} {q : Req} (hs : Whole ρ s) :
    Whole ρ (s.probeWordWrite h bank w v q) :=
  .ite hs.err hs.setProbe

theorem Whole.fillProbe {h bank : Nat} {l : List (Int × Int)} {n : Nat} (hs : Whole ρ s) :
    Whole ρ (State.fillProbe h bank l n s) := by
  induction l generalizing n s with
  | nil => exact hs
  | cons x l ih => exact ih hs.setProbeSample

theorem Whole.chirpGo {h : Nat} {q : Req} (hs : Whole ρ s) : Whole ρ (s.chirpGo h q) := .ite hs.err hs.setRbit

theorem Whole.probeCommit {h : Nat} {q : Req} (hs : Whole ρ s) : Whole ρ (s.probeCommit h q) :=
  .ite hs.setHead.setRbit hs.err

theorem Whole.play {h k : Nat} (hs : Whole ρ s) : Whole ρ (s.play h k) :=
  (Whole.ite hs.setHead hs.setHead.count.fault).emit.emit

theorem Whole.lmonArm {h : Nat} (hs : Whole ρ s) : Whole ρ (s.lmonArm h) := hs.setHead
theorem Whole.lmonSeen {h j : Nat} (hs : Whole ρ s) : Whole ρ (s.lmonSeen h j) := hs.guard (·.setHead)
theorem Whole.setDuty {h d : Nat} (hs : Whole ρ s) : Whole ρ (s.setDuty h d) := hs.setFld.setRbit.setRbit

theorem Whole.headTemp {h : Nat} {t : Int} (hs : Whole ρ s) : Whole ρ (s.headTemp h t) :=
  hs.setReg.setHead.setDuty.guard (·.fault)

theorem Whole.headStale {h : Nat} (hs : Whole ρ s) : Whole ρ (s.headStale h) := hs.guard (·.setRbit.setDuty.fault)

theorem Whole.thermCfgWritten {h : Nat} (hs : Whole ρ s) : Whole ρ (s.thermCfgWritten h) :=
  .ite hs.headStale (hs.guard (·.setRbit))

/-! ## Lanes -/

theorem Whole.laneStage {ch : Nat} (hs : Whole ρ s) : Whole ρ (s.laneStage ch) := .ite hs hs.setLane
theorem Whole.laneRestored {ch : Nat} (hs : Whole ρ s) : Whole ρ (s.laneRestored ch) := hs.setLane

theorem Whole.closeLane {ch : Nat} {per : PeriodSt} {outs : List Int} {c : Array Int} {p : Nat} (hs : Whole ρ s) :
    Whole ρ (s.closeLane ch per outs c p).2.2 :=
  have h1 := hs.count.count
  ((Whole.ite h1.setReg.setReg h1.setReg).guard (·.setRbit)).setRbit

theorem Whole.closeLanes {ch : Nat} {raw : ChCodes} (hs : Whole ρ s) : Whole ρ (s.closeLanes ch raw) := by
  unfold State.closeLanes
  dsimp only
  generalize List.range 6 = l
  refine .setLane ?_
  refine List.foldlRecOn (motive := fun acc : List W72 × Nat × State => Whole ρ acc.2.2) _ _ hs ?_
  exact fun acc h p _ => h.closeLane

theorem Whole.laneFaults {ch more : Nat} (hs : Whole ρ s) : Whole ρ (s.laneFaults ch more) := hs.setLane.fault

theorem Whole.openLanes {ch : Nat} {index : BitVec 48} {launched : Bool} {ticks : Nat} {windows : List (Nat × Nat)}
    {ran' : Bool} {since : Nat} (hs : Whole ρ s) : Whole ρ (s.openLanes ch index launched ticks windows ran' since) :=
  hs.setLane.setFld.laneFaults

theorem Whole.laneTail {ch : Nat} {on : Bool} (hs : Whole ρ s) : Whole ρ (s.laneTail ch on) := hs.setLane
theorem Whole.calGo {ch : Nat} {q : Req} (hs : Whole ρ s) : Whole ρ (s.calGo ch q) := .ite hs.err hs.setLane

theorem Whole.slotSums {ch p : Nat} {k : LaneCorr} {xs : List Int} (hs : Whole ρ s) :
    Whole ρ (s.slotSums ch p k xs) :=
  hs.setReg.setWreg.setReg.setReg

theorem Whole.calSlotEnd {ch : Nat} {raw : ChCodes} (hs : Whole ρ s) : Whole ρ (s.calSlotEnd ch raw) := by
  unfold State.calSlotEnd
  split
  · exact hs
  · exact (hs.foldl fun _ _ ht => ht.guard (·.slotSums)).setRbit.setRbit

/-! ## Time-to-digital converters -/

theorem Whole.tdcArm {u : Nat} (hs : Whole ρ s) : Whole ρ (s.tdcArm u) := hs.setTdc

theorem Whole.tdcEdgeAt {now u : Nat} {stop : Bool} {e ofs : Nat} (hs : Whole ρ s) :
    Whole ρ (s.tdcEdgeAt now u stop e ofs) := by
  unfold State.tdcEdgeAt
  refine .ite hs ?_
  split
  · exact .ite hs.setTdc hs.setTdc
  · exact .ite hs hs.setTdc.count

theorem Whole.tdcEdge {u : Nat} {stop : Bool} {e ofs : Nat} (hs : Whole ρ s) : Whole ρ (s.tdcEdge u stop e ofs) :=
  hs.tdcEdgeAt

theorem Whole.sourceEdge {code steps : Nat} (hs : Whole ρ s) : Whole ρ (s.sourceEdge code steps) :=
  hs.forEach fun _ _ ht => .ite ((ht.guard (·.tdcEdgeAt)).tdcEdgeAt) (ht.guard (·.tdcEdgeAt))

theorem Whole.tdcFinish {u : Nat} (hs : Whole ρ s) : Whole ρ (s.tdcFinish u) :=
  ((Whole.ite hs.setTdc.setWreg.setWreg.setRbit hs.setTdc.setWreg.setWreg.setRbit).guard (·.count)).event

theorem Whole.tdcRelease {u : Nat} (hs : Whole ρ s) : Whole ρ (s.tdcRelease u) := .ite hs.setTdc.tdcArm hs.setTdc

theorem Whole.tdcGo {u : Nat} {q : Req} (hs : Whole ρ s) : Whole ρ (s.tdcGo u q) :=
  .ite hs.err ((hs.guard (·.tdcRelease)).guard (·.tdcArm))

theorem Whole.tdcDisarm {u : Nat} (hs : Whole ρ s) : Whole ρ (s.tdcDisarm u) :=
  .ite hs (.ite (.ite hs.setTdc hs.setTdc) hs.setTdc)

theorem Whole.tdcArmWrite {u : Nat} {v : W32} {q : Req} (hs : Whole ρ s) : Whole ρ (s.tdcArmWrite u v q) :=
  .ite hs (.ite hs.err (.ite hs.tdcGo (hs.guard (·.tdcDisarm))))

theorem Whole.tdcMarkUnlocked (hs : Whole ρ s) : Whole ρ s.tdcMarkUnlocked :=
  hs.forEach fun _ _ ht => ht.guard (·.setTdc)

theorem Whole.execTdcUnlock {slow fast : Bool} (hs : Whole ρ s) : Leaves ρ (execTdcUnlock slow fast s) := by
  unfold Machine.execTdcUnlock
  split
  · exact .next hs
  · split
    · exact .next hs
    · exact .next (((hs.when fun _ ht => ht.setRbit).when fun _ ht => ht.setRbit).tdcMarkUnlocked.fault)

theorem Whole.gateRise {pin : Nat} (hs : Whole ρ s) : Whole ρ (s.gateRise pin) :=
  hs.forEach fun _ _ ht => ht.guard (·.tdcArm)

theorem Whole.gateFall {pin : Nat} (hs : Whole ρ s) : Whole ρ (s.gateFall pin) :=
  hs.forEach fun _ _ ht => ht.guard (·.tdcFinish)

theorem Whole.execTinEdge {pin : Fin 8} {rise : Bool} {e ofs : Nat} (hs : Whole ρ s) :
    Leaves ρ (execTinEdge pin rise e ofs s) :=
  have h1 := Whole.ite hs (hs.forEach fun _ _ ht => (ht.guard (·.tdcEdge)).guard (·.tdcEdge))
  .next (.ite h1.gateRise h1.gateFall)

theorem Whole.tdcShot {h : Nat} (hs : Whole ρ s) : Whole ρ (s.tdcShot h) :=
  hs.forEach fun _ _ ht => ht.guard (·.tdcArm)

theorem Whole.tdcEffect {off : Nat} {v : W32} {q : Req} (hs : Whole ρ s) : Whole ρ (tdcEffect s off v q) :=
  .ite (.ite hs hs.setFld.tdcMarkUnlocked) (.ite hs (.ite hs.tdcRelease (hs.guard (·.tdcArmWrite))))

/-! ## Compression engines -/

theorem Whole.replicaForm {h ch : Nat} {ps : ProbeSet} {size : Nat} (hs : Whole ρ s) :
    Whole ρ (s.replicaForm h ch ps size) :=
  hs.setCe.setReg.setRbit

theorem Whole.showBatch {ch : Nat} (hs : Whole ρ s) : Whole ρ (s.showBatch ch) := by
  unfold State.showBatch
  split <;> exact hs.setReg

theorem Whole.ramanAdd {ch bank nb first : Nat} {as st : Array Int} (hs : Whole ρ s) :
    Whole ρ (s.ramanAdd ch bank nb first as st) :=
  hs.rest

theorem Whole.ramanShot {ch : Nat} {r : RamanShot} {outs : List (Array Int)} {vs : List (Array Bool)}
    (hs : Whole ρ s) : Whole ρ (s.ramanShot ch r outs vs) := by
  unfold State.ramanShot
  dsimp only
  split
  · exact hs
  · exact .ite hs.count (.ite hs.ramanAdd.setCe.showBatch hs.ramanAdd.setCe)

theorem Whole.traceGauges {ch : Nat} {i : BitVec 48} {outs : List (Array Int)} {vs : List (Array Bool)}
    (hs : Whole ρ s) : Whole ρ (s.traceGauges ch i outs vs) := by
  unfold State.traceGauges
  dsimp only
  split
  · exact hs
  · exact hs.setCe.count.fault

theorem Whole.tdcLateFor {ch : Nat} {i : BitVec 48} (hs : Whole ρ s) : Whole ρ (s.tdcLateFor ch i) := by
  unfold State.tdcLateFor
  dsimp only
  split
  · exact hs
  · exact hs.setCe.count.setReg.fault

theorem Whole.tdcLate {ch : Nat} (hs : Whole ρ s) : Whole ρ (s.tdcLate ch) := by
  unfold State.tdcLate
  split
  · exact hs
  · exact hs.guard (·.tdcLateFor)

theorem Whole.ceTakeTdc {ch : Nat} {i : BitVec 48} {f : TdcFound} (hs : Whole ρ s) :
    Whole ρ (s.ceTakeTdc ch i f) := by
  unfold State.ceTakeTdc
  dsimp only
  split
  · exact hs
  · split
    · exact (Whole.ite hs.setCe.setReg hs.setCe.setReg.count.fault).traceGauges
    · exact .ite hs.setCe.setReg hs.setCe.setReg.count.fault

theorem Whole.tdcEnd {u : Nat} (hs : Whole ρ s) : Whole ρ (s.tdcEnd u) := .ite hs.tdcFinish.ceTakeTdc hs.tdcFinish

theorem Whole.traceRaman {ch : Nat} {i : BitVec 48} {outs : List (Array Int)} {vs : List (Array Bool)}
    (hs : Whole ρ s) : Whole ρ (s.traceRaman ch i outs vs) := by
  unfold State.traceRaman
  split
  · exact hs
  · exact hs.guard (·.setCe.ramanShot)

theorem Whole.traceRecord {ch : Nat} {i : BitVec 48} {outs : List (Array Int)} {vs : List (Array Bool)}
    (hs : Whole ρ s) : Whole ρ (s.traceRecord ch i outs vs) := by
  unfold State.traceRecord
  dsimp only
  split
  · exact hs
  · exact .ite hs.traceGauges (.ite hs.tdcLateFor.traceGauges hs.setCe)

theorem Whole.tailCounts {ch : Nat} {raw : ChCodes} (hs : Whole ρ s) : Whole ρ (s.tailCounts ch raw) := by
  unfold State.tailCounts
  split
  · exact hs
  · exact (hs.setLane.foldl fun _ _ ht => ht.count.count).guard (·.fault)

theorem Whole.iqTap {ch : Nat} {i : BitVec 48} {x : SpanOut} (hs : Whole ρ s) : Whole ρ (s.iqTap ch i x) := by
  unfold State.iqTap
  split
  · exact hs.guard (·.rest)
  · exact hs

theorem Whole.execTraceWindowEnd {ch : Chan} {raw : ChCodes} (hs : Whole ρ s) :
    Leaves ρ (execTraceWindowEnd ch raw s) := by
  unfold Machine.execTraceWindowEnd
  dsimp only
  split
  · exact .next (hs.guard (·.tailCounts))
  · split
    · exact .next (hs.guard (·.tailCounts))
    · exact .next ((hs.guard (·.tailCounts)).iqTap.traceRaman.traceRecord)

theorem Whole.flushStart {ch : Nat} (hs : Whole ρ s) : Whole ρ (s.flushStart ch) :=
  (hs.dramRead.setCe.guard (·.fault)).dramWrite

theorem Whole.flushSeqEnd {ch : Nat} (hs : Whole ρ s) : Whole ρ (s.flushSeqEnd ch) := hs.dramRead.dramWrite

theorem Whole.batchClose {ch : Nat} {last : BitVec 48} (hs : Whole ρ s) : Whole ρ (s.batchClose ch last) := by
  unfold State.batchClose
  split
  · exact hs
  · exact .ite hs.setCe.count.fault hs.setCe.setRbit.flushStart

theorem Whole.batchOpen {ch : Nat} {i : BitVec 48} {p : Nat} {ps : ProbeSet} (hs : Whole ρ s) :
    Whole ρ (s.batchOpen ch i p ps) :=
  hs.rest.setCe

theorem Whole.flushBins {ch bank st a : Nat} {old : List (W72 × Bool)} {fresh : Bool} {n b : Nat} (hs : Whole ρ s) :
    Whole ρ (State.flushBins ch bank st a old fresh n b s) := by
  induction n generalizing b s with
  | zero => exact hs
  | succ n ih => exact ih hs.dramWrite

/-- A read of stored words, skipped where they are to be replaced. -/
theorem Whole.dramReadUnless {c : Prop} {_ : Decidable c} {n a : Nat} (hs : Whole ρ s) :
    Whole ρ (if c then ([], s) else State.dramReadMany n a s).2 :=
  .iteSnd hs hs.dramReadMany

/-- Three reads of the stored totals, skipped where they are replaced, come before the writes of head and bins. -/
theorem Whole.execFlushDone {ch : Chan} (hs : Whole ρ s) : Leaves ρ (execFlushDone ch s) := by
  unfold Machine.execFlushDone
  split
  · exact .next hs
  · split
    · exact .next hs
    · dsimp only
      refine .next (.setRbit (.setCe (.flushSeqEnd (.flushBins (.flushBins (.guard ?_ (·.dramWriteMany)))))))
      refine .dramWrite (.dramWrite (.dramWrite (.dramWrite (.guard (.dramRead ?_) (·.fault)))))
      exact hs.dramReadUnless.dramReadUnless.dramReadUnless

theorem Whole.totClear {ch : Nat} (hs : Whole ρ s) : Whole ρ (s.totClear ch) := hs.setCe

theorem Whole.engineBoundary {h ch : Nat} {e : EngineShot} (hs : Whole ρ s) : Whole ρ (s.engineBoundary h ch e) :=
  have h1 := ((hs.guard (·.batchClose)).setCe.setRbit.setRbit.guard (·.replicaForm)).guard (·.batchOpen)
  (Whole.ite h1.showBatch.setCe h1.showBatch).guard (·.setCe)

theorem Whole.recordWords {ch : Nat} (hs : Whole ρ s) : Whole ρ (s.recordWords ch) := hs.setCe
theorem Whole.recordTripped {ch : Nat} {i : BitVec 48} (hs : Whole ρ s) : Whole ρ (s.recordTripped ch i) := hs.setCe
theorem Whole.recordSettles {ch : Nat} {i : BitVec 48} (hs : Whole ρ s) : Whole ρ (s.recordSettles ch i) := hs.setCe
theorem Whole.recordStepped {ch : Nat} {i : BitVec 48} (hs : Whole ρ s) : Whole ρ (s.recordStepped ch i) := hs.setCe
theorem Whole.engineLost {ch : Nat} (hs : Whole ρ s) : Whole ρ (s.engineLost ch) := hs.setCe.setFld.setReg.setReg
theorem Whole.engineEnabled {ch : Nat} (hs : Whole ρ s) : Whole ρ (s.engineEnabled ch) := hs.setReg.setReg.setCe

theorem Whole.outRpWrite {ch : Nat} {v : W32} {q : Req} (hs : Whole ρ s) : Whole ρ (s.outRpWrite ch v q) := by
  unfold State.outRpWrite
  split
  · exact hs.err
  · exact hs.setReg

/-! ## Time -/

theorem Whole.advance {n : Nat} (hs : Whole ρ s) : Whole ρ (s.advance n) := hs.rest

theorem Whole.stepShot {h : Nat} (hs : Whole ρ s) : Whole ρ (s.stepShot h) :=
  hs.forEach fun _ _ ht => ht.recordStepped

theorem Whole.stepNext {h : Nat} (hs : Whole ρ s) : Whole ρ (s.stepNext h) := hs.setSched
theorem Whole.setSynced {b : Bool} (hs : Whole ρ s) : Whole ρ (s.setSynced b) := hs.setRbit
theorem Whole.masterSynced (hs : Whole ρ s) : Whole ρ s.masterSynced := .ite hs (hs.guard (·.setSynced))

theorem Whole.switchSource {at' : Option Nat} {faults : Nat} (hs : Whole ρ s) :
    Whole ρ (s.switchSource at' faults) := by
  unfold State.switchSource
  split
  · exact hs
  · exact hs.rest.setRbit.setRbit.fault.masterSynced.forEach fun _ _ ht => .ite ht.stepNext (ht.guard (·.stepShot))

theorem Whole.askSwitch {ocxo : Bool} {faults : Nat} (hs : Whole ρ s) : Whole ρ (s.askSwitch ocxo faults) :=
  .ite hs.rest.switchSource hs.rest.fault

theorem Whole.setOcxo {rdy refin : Bool} (hs : Whole ρ s) : Whole ρ (s.setOcxo rdy refin) := hs.setRbit.setRbit

theorem Whole.execOcxoCheckDone {count : Nat} (hs : Whole ρ s) : Leaves ρ (execOcxoCheckDone count s) := by
  unfold Machine.execOcxoCheckDone
  split
  · exact .next hs
  · exact
      have h1 := hs.setReg.setRbit
      .next (.ite h1.askSwitch h1.fault)

theorem Whole.execOcxoLoss {rdy refin : Bool} (hs : Whole ρ s) : Leaves ρ (execOcxoLoss rdy refin s) := by
  unfold Machine.execOcxoLoss
  dsimp only
  split
  · exact .next hs.setOcxo
  · split
    · exact .next ((Whole.ite hs.setOcxo.setRbit.setRbit hs.setOcxo.setRbit.setRbit.setRbit).askSwitch)
    · split
      · exact .next hs.setOcxo.setRbit.rest
      · exact .next hs.setOcxo.setRbit

theorem Whole.srcCtrlWritten (hs : Whole ρ s) : Whole ρ s.srcCtrlWritten :=
  .ite hs ((Whole.ite hs.setRbit.rest hs.setRbit).guard (·.askSwitch))

theorem Whole.srcPolicyWritten (hs : Whole ρ s) : Whole ρ s.srcPolicyWritten := .ite hs hs.setRbit
theorem Whole.alignWait {h : Nat} (hs : Whole ρ s) : Whole ρ (s.alignWait h) := hs.setSched.setRbit.setRbit

theorem Whole.alignLost {lost : Nat → Bool} (hs : Whole ρ s) : Whole ρ (s.alignLost lost) :=
  (hs.forEach fun _ _ ht => ht.alignWait).fault

theorem Whole.ppsSecond {h : Nat} {e : Int} (hs : Whole ρ s) : Whole ρ (s.ppsSecond h e) :=
  .ite hs hs.setRbit.setSched

theorem Whole.secondPassed {e0 e1 e2 e3 : Int} (hs : Whole ρ s) : Whole ρ (s.secondPassed e0 e1 e2 e3) :=
  hs.ppsSecond.ppsSecond.ppsSecond.ppsSecond.alignLost.sourceEdge

theorem Whole.cycle (hs : Whole ρ s) : Whole ρ s.cycle := .ite hs.advance hs.advance.secondPassed

theorem Whole.timeStep {v : W72} (hs : Whole ρ s) : Whole ρ (s.timeStep v) :=
  ((Whole.ite hs.rest.setWreg.setRbit hs.rest.setWreg).forEach fun _ _ ht => ht.guard (·.stepNext)).alignLost

/-! ## Clusters and the fabric -/

theorem Whole.mailbox {cl : Nat} {was : Bool} (hs : Whole ρ s) : Whole ρ (s.mailbox cl was) := hs.guard (·.event)

theorem Whole.bounceBack {m : Msg} {reason : Nat} (hs : Whole ρ s) : Whole ρ (s.bounceBack m reason) := by
  unfold State.bounceBack
  split
  · exact hs.rest
  · exact .ite hs.fault hs.setCluster.mailbox
  · exact .ite hs.fault hs.setCluster.mailbox
  · exact hs.count.fault
  · exact hs

theorem Whole.deliver {m : Msg} (hs : Whole ρ s) : Whole ρ (s.deliver m) := by
  refine .ite (.ite hs.bounceBack hs.setCluster.mailbox) ?_
  split
  · exact hs.bounceBack
  · exact hs.setCore (CoreSt.sized_of_lengths ·)

theorem Whole.execMessageArrive {i : Nat} (hs : Whole ρ s) : Leaves ρ (execMessageArrive i s) := by
  unfold Machine.execMessageArrive
  split
  · exact .next hs
  · split
    · exact .next hs
    · exact .next hs.rest.deliver

theorem Whole.bounceArrive {m : Msg} (hs : Whole ρ s) : Whole ρ (s.bounceArrive m) :=
  .ite (hs.count.setCore (CoreSt.sized_of_lengths ·)).fault (hs.count.setCore (CoreSt.sized_of_lengths ·))

theorem Whole.execMessageBounce {i : Nat} (hs : Whole ρ s) : Leaves ρ (execMessageBounce i s) := by
  unfold Machine.execMessageBounce
  split
  · exact .next hs
  · split
    · exact .next hs
    · exact .next hs.rest.bounceArrive

theorem Whole.renewCore {c : Nat} {mode : CoreMode} {vendor : Bool} {role : BitVec 4} {pc reason : Nat}
    (hs : Whole ρ s) : Whole ρ (s.renewCore c mode vendor role pc reason) :=
  (hs.setCore fun _ => rfl).foldl fun _ _ h => h.bounceBack

theorem Whole.releaseCore {c : Nat} (hs : Whole ρ s) : Whole ρ (s.releaseCore c) :=
  (hs.setCore (CoreSt.sized_of_lengths ·)).foldl fun _ _ h => h.bounceBack

theorem Whole.vendorLoad {cl : Nat} (hs : Whole ρ s) : Whole ρ (s.vendorLoad cl) := by
  unfold State.vendorLoad
  refine .ite hs (.forEach hs fun _ _ ht => ?_)
  split
  · exact .ite ht ht.renewCore
  · exact ht.guard (·.renewCore)

theorem Whole.execVendorReload {c : Core} (hs : Whole ρ s) : Leaves ρ (execVendorReload c s) := by
  unfold Machine.execVendorReload
  dsimp only
  split
  · exact .next hs
  · split
    · exact .next ((hs.fault.forEach fun _ _ ht => ht.guard (·.renewCore)).fault)
    · exact .next ((hs.fault.forEach fun _ _ ht => ht.guard (·.renewCore)).fault.setChain)

theorem Whole.haltCore {c : Nat} (hs : Whole ρ s) : Whole ρ (s.haltCore c) :=
  (hs.setCore (CoreSt.sized_of_lengths ·)).count

theorem Whole.coreCtrlWrite {cl c : Nat} {v : W32} {q : Req} (hs : Whole ρ s) : Whole ρ (s.coreCtrlWrite cl c v q) :=
  .ite hs.err <| .ite (.ite hs.err (.ite hs.err hs.setFld.renewCore)) <| .ite (.ite hs.err hs.setFld.haltCore) <| .ite
    (.ite hs.err (hs.setFld.setCore (CoreSt.sized_of_lengths ·))) <| .ite
    (.ite hs.err hs.setFld.releaseCore.vendorLoad) hs.setFld

theorem Whole.hostSend {cl : Nat} {q : Req} (hs : Whole ρ s) : Whole ρ (s.hostSend cl q) := .ite hs.err hs.rest
theorem Whole.popped {cl : Nat} (hs : Whole ρ s) : Whole ρ (s.popped cl) := hs.guard (·.event)
theorem Whole.hostOutPop {cl : Nat} (hs : Whole ρ s) : Whole ρ (s.hostOutPop cl) := .ite hs hs.setCluster.popped
theorem Whole.hostBncPop {cl : Nat} (hs : Whole ρ s) : Whole ρ (s.hostBncPop cl) := .ite hs hs.setCluster.popped
theorem Whole.chainLost {ch : Nat} (hs : Whole ρ s) : Whole ρ (s.chainLost ch) := hs.setChain

theorem Whole.dspGated {b : Bool} (hs : Whole ρ s) : Whole ρ (s.dspGated b) := by
  unfold State.dspGated
  refine .dspZeroed (.forEach (hs.forEach fun _ _ ht => ht.setRbit.forEach fun _ _ hu => hu.renewCore) fun _ _ ht =>
    ?_)
  split
  · exact ht.guard (·.chainLost)
  · exact ht

theorem Whole.dspOn {b : Bool} (hs : Whole ρ s) : Whole ρ (s.dspOn b) :=
  hs.dspZeroed.forEach fun _ _ ht => ht.setRbit.vendorLoad

theorem Whole.ringWrite {cl base len : Nat} {l : List W72} {n : Nat} (hs : Whole ρ s) :
    Whole ρ (State.ringWrite cl base len l n s) := by
  induction l generalizing n s with
  | nil => exact hs
  | cons w l ih => exact ih hs.setSram

theorem Whole.notice {cl : Nat} {wp : W32} {len : Nat} {index : BitVec 48} (hs : Whole ρ s) :
    Whole ρ (s.notice cl wp len index) :=
  hs.deliver

theorem Whole.logFlags {ch : Nat} {index : BitVec 48} {flags : Nat} (hs : Whole ρ s) :
    Whole ρ (s.logFlags ch index flags) :=
  hs.setChain

theorem Whole.recordWrite {ch : Nat} {r : RecSt} (hs : Whole ρ s) : Whole ρ (s.recordWrite ch r) := by
  unfold State.recordWrite
  refine .ite ?_ ((Whole.ite hs.ringWrite.count.setReg hs.ringWrite.count).logFlags.setCe.count.fault)
  split
  · exact (Whole.ite hs.ringWrite.count.setReg hs.ringWrite.count).logFlags.setCe
  · exact .ite ((Whole.ite hs.ringWrite.count.setReg hs.ringWrite.count).logFlags.setCe.notice)
      ((Whole.ite hs.ringWrite.count.setReg hs.ringWrite.count).logFlags.setCe)

theorem Whole.execRecordComplete {ch : Chan} (hs : Whole ρ s) : Leaves ρ (execRecordComplete ch s) := by
  unfold Machine.execRecordComplete
  split
  · exact .next hs
  · split
    · exact .next hs.setCe.recordWrite
    · exact .next hs

/-! ## The estate -/

theorem Whole.authFail (hs : Whole ρ s) : Whole ρ s.authFail := hs.count.fault
theorem Whole.replayFail (hs : Whole ρ s) : Whole ρ s.replayFail := hs.count.fault

theorem Whole.learnPeer {addr : Nat} {ip : IpAddr} (hs : Whole ρ s) : Whole ρ (s.learnPeer addr ip) :=
  hs.rest.setOdv.setOdStr.setOdv.drawn

theorem Whole.setEstate {e : EstateSt} (hs : Whole ρ s) : Whole ρ (s.setEstate e) := hs.rest
theorem Whole.estateDrop {dev : Nat} (hs : Whole ρ s) : Whole ρ (s.estateDrop dev) := hs.rest

theorem Whole.estateSend {e : EstateSt} {type reqId : Nat} {payload : List Byte} (hs : Whole ρ s) :
    Whole ρ (s.estateSend e type reqId payload) :=
  hs.setEstate.datagram

theorem Whole.estateOpen {dev : Nat} (hs : Whole ρ s) : Whole ρ (s.estateOpen dev) := hs.drawNonce.setEstate.datagram

theorem Whole.estateWrite {dev reqId : Nat} {payload : List Byte} (hs : Whole ρ s) :
    Whole ρ (s.estateWrite dev reqId payload) := by
  unfold State.estateWrite
  split
  · exact .ite hs.estateSend hs.estateOpen
  · exact hs.estateOpen

/-! ## Event history and captures -/

theorem Whole.histStart {ch : Nat} (hs : Whole ρ s) : Whole ρ (s.histStart ch) := hs.setChain

theorem Whole.sramWords {cl a : Nat} {ws : List W72} (hs : Whole ρ s) : Whole ρ (s.sramWords cl a ws) :=
  hs.setManySram

/-- What a queue of frames does with one more: it takes it, or counts it as lost where it is full (R318, R319). -/
theorem Whole.queueFrame {c d : Prop} {_ : Decidable c} {_ : Decidable d} {v a n b m : Nat} {x y : QueueSt}
    (hs : Whole ρ s) :
    Whole ρ ((if c then if d then s.setQueue v x else ((s.setQueue v y).count a n).fault b m else s).event v) :=
  (hs.guard fun h => .ite h.setQueue h.setQueue.count.fault).event

theorem Whole.frameOut {ch kind : Nat} {ws : List W72} (hs : Whole ρ s) : Whole ρ (s.frameOut ch kind ws) := by
  unfold State.frameOut
  dsimp only
  split
  · exact hs.rest.drawn.sramWords.queueFrame
  · split
    · exact hs.rest.drawn.dramWriteMany.queueFrame
    · exact hs.rest.drawn.queueFrame

/-! ## Zones -/

theorem Whole.zoneRoles {ch : Nat} (hs : Whole ρ s) : Whole ρ (s.zoneRoles ch) := by
  unfold State.zoneRoles
  split
  · exact hs.vendorLoad
  · exact hs

theorem Whole.setZoneWord {z w : Nat} {v : W72} (hs : Whole ρ s) : Whole ρ (s.setZoneWord z w v) := hs.setZones
theorem Whole.zoneRest {z : Nat} (hs : Whole ρ s) : Whole ρ (s.zoneRest z) := hs.setZone
theorem Whole.zoneAsks {z : Nat} (hs : Whole ρ s) : Whole ρ (s.zoneAsks z) := hs.setZone

theorem Whole.evPush {ch : Nat} {rec : W32 → List W72} (hs : Whole ρ s) : Whole ρ (s.evPush ch rec) :=
  .ite hs.rest.count.fault.event (have h1 := hs.guard (·.rest);
    ((Whole.ite h1.rest.setRbit h1.rest).guard (·.setRbit)).event)

theorem Whole.evPop (hs : Whole ρ s) : Whole ρ s.evPop := hs.rest

theorem Whole.tpdoAsk {c i : Nat} (hs : Whole ρ s) (e : s.tpdoAsk c i = some t) : Whole ρ t := by
  unfold State.tpdoAsk at e
  split at e
  · cases e
  · cases e; exact hs.setTpdo

/-- A state that may have taken the place of s. -/
theorem Whole.getD {o : Option State} (hs : Whole ρ s) (k : ∀ t, o = some t → Whole ρ t) : Whole ρ (o.getD s) := by
  cases o with
  | none => exact hs
  | some t => exact k t rfl

theorem Whole.remoteFrame {z : Nat} {r : RemoteSt} (hs : Whole ρ s) : Whole ρ (s.remoteFrame z r) := hs.estateWrite

theorem Whole.remotePut {z : Nat} {r : RemoteSt} (hs : Whole ρ s) : Whole ρ (s.remotePut z r) :=
  .ite hs.setZone.rest hs.setZone.emit.remoteFrame

theorem Whole.remoteSend {z : Nat} (hs : Whole ρ s) : Whole ρ (s.remoteSend z) := hs.rest.remotePut

theorem Whole.estateChallenge {ip : IpAddr} {h : FrameHdr} {body tag nd : List Byte} (hs : Whole ρ s) :
    Whole ρ (s.estateChallenge ip h body tag nd) := by
  unfold State.estateChallenge
  split
  · exact hs.authFail
  · refine .ite hs.authFail (.forEach hs.learnPeer.estateSend fun _ _ ht => ?_)
    split
    · exact ht.guard (·.remoteFrame)
    · exact ht

theorem Whole.remoteFail {z : Nat} (hs : Whole ρ s) : Whole ρ (s.remoteFail z) := hs.setZone.evPush.count.fault

theorem Whole.execRemoteWriteTimeout {z : Zone} (hs : Whole ρ s) : Leaves ρ (execRemoteWriteTimeout z s) := by
  unfold Machine.execRemoteWriteTimeout
  split
  · exact .next hs
  · exact .next (.ite hs.remotePut hs.estateDrop.remoteFail)

theorem Whole.remoteAck {z : Nat} {abort : W32} (hs : Whole ρ s) : Whole ρ (s.remoteAck z abort) :=
  .ite hs (.ite hs.setZone hs.remoteFail)

theorem Whole.capShow (hs : Whole ρ s) : Whole ρ s.capShow := hs.setReg.setReg

theorem Whole.capStart {z : Nat} {c : ChangeSt} (hs : Whole ρ s) : Whole ρ (s.capStart z c) := by
  unfold State.capStart
  dsimp only
  split
  · exact hs.evPush.fault
  · exact hs.setCap.capShow.dramWriteMany

theorem Whole.dramCopy {l : List (W72 × Bool)} {a : Nat} (hs : Whole ρ s) : Whole ρ (State.dramCopy l a s) := by
  induction l generalizing a s with
  | nil => exact hs
  | cons w l ih => exact ih hs.dramWrite

theorem Whole.slotRead {ch i w : Nat} (hs : Whole ρ s) : Whole ρ (s.slotRead ch i w).2 := by
  unfold State.slotRead
  dsimp only
  split <;> exact hs.dramRead.dramReadMany.dramReadMany.dramRead

theorem Whole.execCaptureShotCopy {k : Fin 64} (hs : Whole ρ s) : Leaves ρ (execCaptureShotCopy k s) := by
  unfold Machine.execCaptureShotCopy
  split
  · exact .next hs
  · split
    · exact .next hs
    · exact .next hs.slotRead.setCap.dramCopy

theorem Whole.execCaptureDone {k : Fin 64} (hs : Whole ρ s) : Leaves ρ (execCaptureDone k s) := by
  unfold Machine.execCaptureDone
  split
  · exact .next hs
  · split
    · exact .next hs
    · exact .next (.ite hs.setCap.dramWriteMany.dramWrite.dramWrite.evPush.fault
        hs.setCap.dramWriteMany.dramWrite.dramWrite.evPush)

theorem Whole.capEnd {ch : Nat} (hs : Whole ρ s) : Whole ρ (s.capEnd ch) := by
  unfold State.capEnd
  refine .forEach hs fun _ _ ht => ?_
  split
  · exact ht.guard (·.setCap)
  · exact ht

theorem Whole.capFree {v : W32} {q : Req} (hs : Whole ρ s) : Whole ρ (s.capFree v q) := by
  unfold State.capFree
  dsimp only
  split
  · exact hs
  · exact .ite hs.err hs.setCap.capShow

theorem Whole.zoneChanged {z old : Nat} {e : EvalSt} (hs : Whole ρ s) : Whole ρ (s.zoneChanged z old e) := by
  unfold State.zoneChanged
  extract_lets x w4 ch t cap tpdo fail u acts c u1 u2 u3 u4
  have ht : Whole ρ t := hs.setZone
  have hu : Whole ρ u := ht.getD fun v e => by
    unfold tpdo at e
    split at e
    · exact ht.tpdoAsk e
    · cases e
  exact (((hu.setZone.guard (·.evPush)).guard (·.fault)).guard (·.remoteSend)).guard (·.capStart)

theorem Whole.zoneEval {z : Nat} {e : EvalSt} (hs : Whole ρ s) : Whole ρ (s.zoneEval z e) :=
  .ite hs.count.setZone hs.count.setZone.zoneChanged

theorem Whole.execZoneEvaluate {z : Zone} (hs : Whole ρ s) : Leaves ρ (execZoneEvaluate z s) := by
  unfold Machine.execZoneEvaluate
  dsimp only
  split
  · exact .next hs
  · split
    · exact .next hs
    · split
      · exact .next hs.setZone.zoneEval
      · exact .next hs.setZone

theorem Whole.zoneFinish {z : Nat} (hs : Whole ρ s) : Whole ρ (s.zoneFinish z) :=
  hs.guard (·.foldl fun _ _ ht => ht.zoneEval)

theorem Whole.zoneWrite {z w : Nat} {v : W72} (hs : Whole ρ s) (e : s.zoneWrite z w v = .inr t) : Whole ρ t := by
  unfold State.zoneWrite at e
  dsimp only at e
  split at e
  · split at e <;> cases e
    exact hs.setZoneWord
  · split at e
    · cases e
      exact .ite hs.zoneFinish.setZoneWord.zoneRest.zoneRoles hs.zoneFinish.setZoneWord.zoneRest
    · split at e
      · cases e
      · split at e <;> cases e
        exact hs.setZoneWord.zoneRest.zoneAsks.zoneRoles

theorem Whole.zoneCommit {z w : Nat} {v : W72} {q : Req} (hs : Whole ρ s) : Whole ρ (s.zoneCommit z w v q) := by
  unfold State.zoneCommit
  split
  · exact hs.err
  · next e => exact hs.zoneWrite e

theorem Whole.zoneInput {z : Nat} {v : Int} (hs : Whole ρ s) (e : s.zoneInput z v = some t) : Whole ρ t := by
  unfold State.zoneInput at e
  dsimp only at e
  split at e
  · cases e
  · split at e <;> cases e
    · exact hs
    · exact hs.zoneEval

theorem Whole.zoneFrame {src ch : Nat} {view : W72 → FrameView} (hs : Whole ρ s) :
    Whole ρ (s.zoneFrame src ch view) :=
  .ite hs (hs.forEach fun _ _ ht => ht.setZone)

theorem Whole.zonesRest {ch : Nat} (hs : Whole ρ s) : Whole ρ (s.zonesRest ch) :=
  hs.forEach fun _ _ ht => ht.zoneFinish.zoneRest

theorem Whole.assignWrite {cl : Nat} {v : W32} {q : Req} (hs : Whole ρ s) : Whole ρ (s.assignWrite cl v q) := by
  unfold State.assignWrite
  split
  · exact hs.err
  · refine .ite hs.setReg (.vendorLoad ?_)
    split
    · refine .zonesRest ?_
      split
      · exact hs.setReg.zonesRest
      · exact hs.setReg
    · split
      · exact hs.setReg.zonesRest
      · exact hs.setReg

/-! ## Lamps -/

theorem Whole.thReading {k : Nat} {t : Int} (hs : Whole ρ s) : Whole ρ (s.thReading k t) := hs.setReg.rest
theorem Whole.thStale {k : Nat} (hs : Whole ρ s) : Whole ρ (s.thStale k) := hs.guard (·.setRbit.fault)

theorem Whole.thStaleWritten (hs : Whole ρ s) : Whole ρ s.thStaleWritten :=
  hs.forEach fun _ _ ht => .ite ht.thStale (ht.guard (·.setRbit))

theorem Whole.lampSnapshot {p : Nat} {diag : Bool} (hs : Whole ρ s) : Whole ρ (s.lampSnapshot p diag).2 :=
  .ite hs.dramReadMany hs.dramReadMany.count

theorem Whole.outUpdate {p o : Nat} {slot : BitVec 16} {elig : Bool} (hs : Whole ρ s) :
    Whole ρ (s.outUpdate p o slot elig) :=
  ((Whole.ite hs.setLampOuts.count.fault hs.setLampOuts).guard (·.count.fault)).guard (·.fault)

theorem Whole.outUpdates {p : Nat} {elig : Array Bool} {l : List (BitVec 16)} {o : Nat} (hs : Whole ρ s) :
    Whole ρ (State.outUpdates p elig l o s) := by
  induction l generalizing o s with
  | nil => exact hs
  | cons x l ih => exact ih hs.outUpdate

theorem Whole.busFrame {p : Nat} {codes : List Nat} {diag : Bool} (hs : Whole ρ s) :
    Whole ρ (s.busFrame p codes diag) :=
  (hs.forEach fun _ _ ht => ht.emit).emit.setLamp.setRbit.emit

theorem Whole.execLampFrameStart {p : Port4} (hs : Whole ρ s) : Leaves ρ (execLampFrameStart p s) := by
  unfold Machine.execLampFrameStart
  dsimp only
  split
  · exact .next hs
  · exact
      have h1 := hs.lampSnapshot.setLamp
      .next (.ite h1.emit h1.busFrame)

theorem Whole.frameDone {p : Nat} {diag : Bool} (hs : Whole ρ s) : Whole ρ (s.frameDone p diag) :=
  (Whole.ite hs.count.setRbit.setRbit hs.count.setRbit).guard (·.event)

theorem Whole.execLampFrameEnd {p : Port4} (hs : Whole ρ s) : Leaves ρ (execLampFrameEnd p s) := by
  unfold Machine.execLampFrameEnd
  dsimp only
  split
  · exact .next hs
  · split
    · split
      · exact .next hs
      · exact .next hs.setLamp.frameDone
    · split
      · exact .next hs
      · split
        · exact .next hs.setLamp.frameDone
        · exact .next ((Whole.ite hs.outUpdates.setLamp hs.outUpdates.setLamp.setRbit).emit.frameDone)

theorem Whole.execPsync {p : Port4} (hs : Whole ρ s) : Leaves ρ (execPsync p s) := by
  unfold Machine.execPsync
  dsimp only
  split
  · exact .next hs
  · split
    · exact .next hs.setLamp
    · split <;> exact .next hs.emit.setLamp

theorem Whole.nextPoll {p : Nat} (hs : Whole ρ s) : Whole ρ (s.nextPoll p) := by
  unfold State.nextPoll
  dsimp only
  split
  · exact hs.setLamp
  · exact hs.setLamp.emit

theorem Whole.busFail {p : Nat} (hs : Whole ρ s) : Whole ρ (s.busFail p) := hs.count.fault.nextPoll

theorem Whole.matrixSnapshot {p : Nat} (hs : Whole ρ s) : Whole ρ (s.matrixSnapshot p) :=
  (Whole.ite hs.dramReadMany hs.dramReadMany.count).setLamp

theorem Whole.execMatrixPlane {p : Port4} (hs : Whole ρ s) : Leaves ρ (execMatrixPlane p s) := by
  unfold Machine.execMatrixPlane
  split
  · exact .next hs
  · extract_lets hi lo t x b w lit u v y
    have ht : Whole ρ t := .ite hs hs.matrixSnapshot
    have hv : Whole ρ v := ht.setLamp.setRbit.emit
    clear_value v
    split
    · exact .next hv.setLamp
    · split
      · exact .next hv.setLamp
      · exact .next hv.setLamp.frameDone

theorem Whole.emergSet {p : Nat} (hs : Whole ρ s) : Whole ρ (s.emergSet p) :=
  have h1 := hs.setRbit.setRbit
  .ite h1 (.ite h1.setLamp.emit h1.setLamp)

theorem Whole.emergClear {p : Nat} (hs : Whole ρ s) : Whole ρ (s.emergClear p) :=
  .ite hs (.ite hs.setRbit.setLamp hs.setRbit)

theorem Whole.lampEffect {off : Nat} {old v : W32} (hs : Whole ρ s) : Whole ρ (lampEffect s off old v) :=
  .ite hs.thStaleWritten (hs.guard fun hs => .ite hs.setRbit.setLamp hs.setRbit)

/-! ## DMA -/

theorem Whole.dmaTake {req : Nat} (hs : Whole ρ s) : Whole ρ (s.dmaTake req) :=
  .ite hs.setLamp (.ite hs.rest (.ite hs.rest (hs.guard (·.setFld))))

theorem Whole.dmaFaultOf {n bit : Nat} (hs : Whole ρ s) : Whole ρ (s.dmaFaultOf n bit) := hs.setReg.fault
theorem Whole.dmaRunBit {n : Nat} {b : Bool} (hs : Whole ρ s) : Whole ρ (s.dmaRunBit n b) := hs.setRbit

theorem Whole.dmaStopped {n why : Nat} (hs : Whole ρ s) : Whole ρ (s.dmaStopped n why) :=
  hs.setDma.dmaRunBit.setFld.event

theorem Whole.descFetch {n d : Nat} (hs : Whole ρ s) : Whole ρ (s.descFetch n d) := by
  unfold State.descFetch
  dsimp only
  split
  · exact hs.setReg.dmaFaultOf.dmaStopped
  · exact hs.setReg.setReg.setDma

theorem Whole.dmaLate {n : Nat} {x : Option ShadowWrite} (hs : Whole ρ s) : Whole ρ (s.dmaLate n x) := by
  unfold State.dmaLate
  dsimp only
  split
  · exact hs
  · split
    · exact hs
    · exact hs.lateWrite fun _ ht => ht.dmaFaultOf

theorem Whole.dmaHandOver {n : Nat} (hs : Whole ρ s) : Whole ρ (s.dmaHandOver n) := hs.setReg.setRbit.setDma

theorem Whole.dmaBoundary {n : Nat} {d : Option Desc} {late : Option ShadowWrite} (hs : Whole ρ s) :
    Whole ρ (s.dmaBoundary n d late) := by
  unfold State.dmaBoundary
  dsimp only
  refine .ite hs.dmaStopped ?_
  split
  · exact hs.dmaHandOver.dmaLate.descFetch
  · exact .ite hs.dmaHandOver.dmaLate.dmaStopped hs.dmaHandOver.dmaLate.descFetch
  · exact hs.dmaHandOver.dmaLate

theorem Whole.dmaStart {n : Nat} {late : Option ShadowWrite} (hs : Whole ρ s) : Whole ρ (s.dmaStart n late) :=
  hs.setFld.dmaRunBit.dmaBoundary

theorem Whole.execDmaGo {q : Req} {e : DmaEdge} (hs : Whole ρ s) : Leaves ρ (execDmaGo q e s) := by
  unfold Machine.execDmaGo
  refine .next (.ite hs ?_)
  split
  · exact hs.err
  · exact hs.dmaStart

theorem Whole.dmaHalt {n : Nat} (hs : Whole ρ s) : Whole ρ (s.dmaHalt n) := .ite hs (.ite hs.dmaStopped hs.setDma)

theorem Whole.execDmaStop {q : Req} {n : Fin 64} (hs : Whole ρ s) : Leaves ρ (execDmaStop q n s) := by
  unfold Machine.execDmaStop
  refine .next (.ite hs ?_)
  split
  · exact hs.err
  · exact hs.dmaHalt

theorem Whole.dmaCtrlWrite {n : Nat} {go : W32} (hs : Whole ρ s) : Whole ρ (s.dmaCtrlWrite n go) :=
  (hs.guard (·.dmaHalt)).guard (·.dmaStart)

theorem Whole.sramRead {cl a : Nat} (hs : Whole ρ s) : Whole ρ (s.sramRead cl a).2 := .iteSnd hs hs.drawn
theorem Whole.sramWrite {cl a : Nat} {v : W72} (hs : Whole ρ s) : Whole ρ (s.sramWrite cl a v) := hs.guard (·.setSram)
theorem Whole.bulkDrop {n : Nat} (hs : Whole ρ s) : Whole ρ (s.bulkDrop n) := hs.count.fault

theorem Whole.bulkSend {i stream n o : Nat} {ws : List W72} (hs : Whole ρ s) :
    Whole ρ (State.bulkSend i stream n o ws s) := by
  induction n generalizing o ws s with
  | zero => exact hs
  | succ n ih => exact .ite hs (ih hs.sessionSend)

theorem Whole.burstWrite {rgn o : Nat} {ws : List (W72 × Bool)} (hs : Whole ρ s) :
    Whole ρ (s.burstWrite rgn o ws) := by
  unfold State.burstWrite
  dsimp only
  split
  · exact hs.foldl fun _ _ ht => ht.dramWrite
  · exact hs.foldl fun _ _ ht => ht.sramWrite
  · exact hs.emit
  · split
    · exact hs.bulkDrop
    · exact .ite hs.drawn.bulkDrop hs.drawn.bulkSend

theorem Whole.freeWords {n : Nat} (hs : Whole ρ s) : Whole ρ (State.freeWords n s).2 := by
  induction n generalizing s with
  | zero => exact hs
  | succ n ih => exact ih hs.drawn

theorem Whole.burstEvent {b : BurstSt} (hb : Whole ρ b.st) : Whole ρ b.event.2.st := hb.guard (·.evPop)

theorem Whole.burstSource {b : BurstSt} {n op rgn o : Nat} (hb : Whole ρ b.st) : Whole ρ (b.source n op rgn o).2.st := by
  unfold BurstSt.source
  dsimp only
  split
  · exact hb.dramRead
  · exact hb.sramRead
  · exact hb.emit
  · split
    · exact hb.burstEvent
    · split
      · exact hb
      · exact hb.burstEvent.setDma

theorem Whole.burstSources {b : BurstSt} {n op rgn : Nat} {l : List Nat} (hb : Whole ρ b.st) :
    Whole ρ (burstSources n op rgn l b).2.st := by
  induction l generalizing b with
  | nil => exact hb
  | cons o l ih => exact ih hb.burstSource

theorem Whole.burstWords {b : BurstSt} {ch n i : Nat} {d : Desc} (hb : Whole ρ b.st) :
    Whole ρ (burstWords ch d n i b).st := by
  induction n generalizing i b with
  | zero => exact hb
  | succ n ih => exact ih (hb.burstSources.guard (·.count.dmaFaultOf.setDma))

theorem Whole.dmaBurst {n : Nat} {d : Desc} {still : Bool} {host : List Byte} {fail : Bool} (hs : Whole ρ s) :
    Whole ρ (s.dmaBurst n d still host fail) := by
  unfold State.dmaBurst
  extract_lets x len pace t reads writes u b v w
  have ht : Whole ρ t := by
    unfold t
    cases pace with
    | none => exact hs
    | some req => exact hs.dmaTake
  have hu : Whole ρ u := ht.guard (·.count)
  refine .ite (Whole.ite hu.freeWords.burstWrite hu).dmaFaultOf.dmaStopped ?_
  exact (Whole.burstWords hu).burstWrite.setDma.setReg

theorem Whole.execDmaBurst {n : Fin 64} {request : Bool} {host : List Byte} {fail : Bool} (hs : Whole ρ s) :
    Leaves ρ (execDmaBurst n request host fail s) := by
  unfold Machine.execDmaBurst
  refine .next ?_
  split
  · exact hs
  · exact hs.guard (·.rest.dmaBurst)

theorem Whole.execDescComplete {e : DmaEdge} (hs : Whole ρ s) : Leaves ρ (execDescComplete e s) := by
  unfold Machine.execDescComplete
  refine .next ?_
  split
  · exact hs
  · exact .ite hs (have h1 := hs.count.setReg.guard (·.event); .ite h1.dmaStopped h1.dmaBoundary)

theorem Whole.rgnWrite {k : Nat} {v : W32} {q : Req} (hs : Whole ρ s) : Whole ρ (s.rgnWrite k v q) := by
  unfold State.rgnWrite
  dsimp only
  split
  · exact hs.err
  · exact hs.setReg

theorem Whole.descCommit {d w : Nat} {v : W72} {q : Req} (hs : Whole ρ s) : Whole ρ (s.descCommit d w v q) :=
  .ite hs.err hs.setDescs

theorem Whole.bar2Bytes {k b n : Nat} (hs : Whole ρ s) : Whole ρ (State.bar2Bytes k b n s).2.2 := by
  induction k generalizing b n s with
  | zero => exact hs
  | succ k ih =>
    unfold State.bar2Bytes
    split
    · exact hs
    · exact ih hs.dramRead

theorem Whole.execBar2Read {byte len : Nat} (hs : Whole ρ s) : Leaves ρ (execBar2Read byte len s) := by
  unfold Machine.execBar2Read
  dsimp only
  split
  · exact .next hs
  · split
    · exact .next hs.emit
    · exact .next hs.bar2Bytes.emit

theorem Whole.bar2Put {k b : Nat} {bs : List Byte} (hs : Whole ρ s) : Whole ρ (State.bar2Put k b bs s) := by
  induction k generalizing b bs s with
  | zero => exact hs
  | succ k ih => exact .ite hs (ih (.ite hs.dramWrite hs.dramRead.dramWrite))

theorem Whole.msixWrite {i : Nat} {v : W32} (hs : Whole ρ s) : Whole ρ (s.msixWrite i v) :=
  hs.guard (·.setMsixWord.msixRelease)

theorem Whole.modWritten {v : Nat} (hs : Whole ρ s) : Whole ρ (s.modWritten v) := hs.guard (·.setVec.raise)

/-! ## Current loops -/

theorem Whole.loopForm {n : Nat} (hs : Whole ρ s) : Whole ρ (s.loopForm n) := hs.setReg.setReg.setRbit.setRbit.setRbit

theorem Whole.loopEffect {off : Nat} (hs : Whole ρ s) : Whole ρ (loopEffect s off) :=
  .ite (hs.forEach fun _ _ ht => ht.loopForm) (hs.guard fun hs => .ite hs.setLoopOut.loopForm (hs.guard (·.loopForm)))

/-! ## The local window -/

theorem Whole.localPut {n : Nat} {l : List Byte} {k : Nat} (hs : Whole ρ s) : Whole ρ (State.localPut n l k s) := by
  induction n generalizing l k s with
  | zero => exact hs
  | succ n ih => exact ih (.ite hs hs.setReg)

theorem Whole.localReply {flags : Nat} {payload : List Byte} (hs : Whole ρ s) :
    Whole ρ (s.localReply flags payload) :=
  hs.localPut.setReg.rest.setRbit.event

/-! ## The nonvolatile store -/

theorem Whole.nvmStart {op : NvmOp} {k : Nat} (hs : Whole ρ s) : Whole ρ (s.nvmStart op k) := hs.rest
theorem Whole.nvmRead {k : Nat} (hs : Whole ρ s) : Whole ρ (s.nvmRead k) := hs.fault

/-! ## Chains -/

theorem Whole.ringShape {ch : Nat} {c : VibCfg} (hs : Whole ρ s) : Whole ρ (s.ringShape ch c) :=
  .ite hs.setChain hs.setChain.capEnd

theorem Whole.shotLog {ch : Nat} {index : BitVec 48} {stamp : W72} {flags : Nat} (hs : Whole ρ s) :
    Whole ρ (s.shotLog ch index stamp flags) :=
  hs.guard (·.setChain)

theorem Whole.chainBoundary {ch : Nat} {index : BitVec 48} {stamp : W72} {flags : Nat} {recorded : Bool}
    (hs : Whole ρ s) : Whole ρ (s.chainBoundary ch index stamp flags recorded) :=
  hs.setChain.shotLog

theorem Whole.phaseTake {ch : Nat} {sh : ChainShot} {r : RecOut} (hs : Whole ρ s) : Whole ρ (s.phaseTake ch sh r) :=
  hs.rest.setChain

theorem Whole.consume {ch : Nat} {r : RecOut} (hs : Whole ρ s) : Whole ρ (s.consume ch r) := hs.guard (·.setReg)

theorem Whole.execPhaseRecord {ch : Chan} (hs : Whole ρ s) : Leaves ρ (execPhaseRecord ch s) := by
  unfold Machine.execPhaseRecord
  split
  · exact .next hs
  · split
    · exact .next hs
    · exact .next hs.phaseTake.consume.setCe.setChain

theorem Whole.historyWrite {ch : Nat} {index : BitVec 48} {head data : List W72} (hs : Whole ρ s) :
    Whole ρ (s.historyWrite ch index head data) :=
  .ite hs hs.dramWrite.dramWriteMany.dramWrite.dramWriteMany.dramWrite.setChain

theorem Whole.bandShot {ch : Nat} {sh : ChainShot} {last : Option Nat} (hs : Whole ρ s) :
    Whole ρ (s.bandShot ch sh last) :=
  .ite (hs.guard (·.setChain)) (hs.guard (·.setChain))

theorem Whole.unwrapTake {ch : Nat} {x : IncSt} (hs : Whole ρ s) : Whole ρ (s.unwrapTake ch x) :=
  have h1 := hs.rest.ringShape.historyWrite.bandShot.setOdv.setOdv
  (Whole.ite h1.zoneFrame h1.zoneFrame.setChain).frameOut

theorem Whole.execUnwrapShot {ch : Chan} (hs : Whole ρ s) : Leaves ρ (execUnwrapShot ch s) := by
  unfold Machine.execUnwrapShot
  split
  · exact .next hs
  · exact .next hs.setChain.unwrapTake

theorem Whole.mapBands {ch n : Nat} {f : Nat → BandG → BandG} (hs : Whole ρ s) : Whole ρ (s.mapBands ch n f) :=
  hs.rest

theorem Whole.bandStart {ch j : Nat} {stamp : W72} {train : Nat} (hs : Whole ρ s) :
    Whole ρ (s.bandStart ch j stamp train) :=
  hs.mapBands.setChain

theorem Whole.bandSample {ch : Nat} (hs : Whole ρ s) : Whole ρ (s.bandSample ch) :=
  (Whole.ite hs.slotRead.bandStart
    (.ite hs.slotRead.setChain (.ite hs.slotRead.setChain hs.slotRead))).mapBands.setChain

theorem Whole.bandTake {ch : Nat} (hs : Whole ρ s) : Whole ρ (s.bandTake ch) := .ite hs.setChain hs.bandSample
theorem Whole.bandRestart {ch : Nat} (hs : Whole ρ s) : Whole ρ (s.bandRestart ch) := (hs.guard (·.rest)).setChain

/-! ## Temperature -/

theorem Whole.coilReading {h : Nat} {t : Int} {w : W72} (hs : Whole ρ s) : Whole ρ (s.coilReading h t w) :=
  hs.rest.setOdvS.setOdv.setOdv

theorem Whole.readTotals {ch clean lr : Nat} (hs : Whole ρ s) : Whole ρ (s.readTotals ch clean lr).2 :=
  hs.dramReadMany.dramReadMany

theorem Whole.dtsWindow {ch first last : Nat} {temps : List (Option Int)} (hs : Whole ρ s) :
    Whole ρ (s.dtsWindow ch first last temps) :=
  hs.guard (·.setChain)

theorem Whole.coilU {theta : Nat} {tc : Option Int} (hs : Whole ρ s) : Whole ρ (s.coilU theta tc).2 := by
  unfold State.coilU
  split
  · exact hs
  · exact .iteSnd hs.drawn hs

theorem Whole.dtsForm {ch : Nat} {pair : Bool} {w odd : List W72} (hs : Whole ρ s) :
    Whole ρ (s.dtsForm ch pair w odd) := by
  unfold State.dtsForm
  dsimp only
  refine .frameOut (.zoneFrame (.setChain (.guard (.dtsWindow (.setOdv (.setOdv ?_))) (·.dtsWindow))))
  split
  · exact .setOdvS (.coilU (.iteSnd hs.readTotals.readTotals hs.readTotals))
  · exact .coilU (.iteSnd hs.readTotals.readTotals hs.readTotals)

theorem Whole.dtsClear {ch : Nat} {pair : Bool} (hs : Whole ρ s) : Whole ρ (s.dtsClear ch pair) :=
  .ite hs.totClear.totClear hs.totClear

theorem Whole.totalsHead {ch : Nat} (hs : Whole ρ s) : Whole ρ (s.totalsHead ch).2 := by
  unfold State.totalsHead
  exact hs.dramReadMany

theorem Whole.dtsGrow {ow ch : Nat} {pair : Bool} {w odd : List W72} {first last : Nat} {f : State → State}
    (hs : Whole ρ s) (hf : ∀ u, Whole ρ u → Whole ρ (f u)) : Whole ρ (s.dtsGrow ow ch pair w odd first last f) :=
  .ite (hf _ hs) (.ite ((hf _ hs).setChain) ((hf _ hs).dtsForm.dtsClear))

theorem Whole.dtsAct {ow ch : Nat} (hs : Whole ρ s) : Whole ρ (s.dtsAct ow ch) := by
  unfold State.dtsAct
  dsimp only
  have hu : Whole ρ (if s.double ow = true then (s.totalsHead ow).2.totalsHead (ow + 1) else
    ([], (s.totalsHead ow).2)).2 :=
    .iteSnd hs.totalsHead.totalsHead hs.totalsHead
  generalize (if s.double ow = true then (s.totalsHead ow).2.totalsHead (ow + 1) else ([], (s.totalsHead ow).2)) = u
    at hu ⊢
  refine .ite hu ?_
  split
  · exact .ite (.ite hu hu.setOdv.setChain.dtsClear) (hu.dtsGrow fun _ h => h.setChain)
  · exact .ite (hu.dtsGrow fun _ h => h) (hu.dtsGrow fun _ h => h.setChain)

theorem Whole.mapFuses {ch n : Nat} {f : Nat → FuseO → FuseO} (hs : Whole ρ s) : Whole ρ (s.mapFuses ch n f) :=
  hs.rest

theorem Whole.fuseRestart {ch : Nat} (hs : Whole ρ s) : Whole ρ (s.fuseRestart ch) := hs.rest.setChain.setOdv

theorem Whole.fuseTake {ch : Nat} {i : FuseIn} {c : FuseCfg} (hs : Whole ρ s) : Whole ρ (s.fuseTake ch i c) :=
  ((hs.guard (·.fuseRestart)).guard (·.mapFuses.setChain)).mapFuses.setChain

theorem Whole.execFuseShot {ch : Chan} (hs : Whole ρ s) : Leaves ρ (execFuseShot ch s) := by
  unfold Machine.execFuseShot
  dsimp only
  split
  · exact .next hs
  · split
    · exact .next hs
    · split
      · exact .next hs.setChain
      · exact .next hs.setChain.fuseTake

theorem Whole.tempFit {t : Int} (hs : Whole ρ s) : Whole ρ (s.tempFit t).2 := .iteSnd hs.drawn hs

theorem Whole.tempFits {l : List Int} (hs : Whole ρ s) : Whole ρ (State.tempFits l s).2 := by
  induction l generalizing s with
  | nil => exact hs
  | cons x l ih => exact ih hs.tempFit

theorem Whole.fuseForm {ch : Nat} {sh : ChainShot} {c : FuseCfg} (hs : Whole ρ s) : Whole ρ (s.fuseForm ch sh c) :=
  hs.tempFits.setChain.setOdv.zoneFrame.frameOut

theorem Whole.execFuseFrameEnd {ch : Chan} (hs : Whole ρ s) : Leaves ρ (execFuseFrameEnd ch s) := by
  unfold Machine.execFuseFrameEnd
  split
  · exact .next hs
  · split
    · exact .next hs
    · exact .next hs.fuseForm

/-! ## The precision ADC -/

theorem Whole.ringWord {base len wp : Nat} {w : W72} (hs : Whole ρ s) : Whole ρ (s.ringWord base len wp w) :=
  hs.dramWrite.count

theorem Whole.padcRequest (hs : Whole ρ s) : Whole ρ s.padcRequest := hs.rest

theorem Whole.padcWord {k : Nat} {result isOpen settling sat bo : Bool} {phase : Nat} {v : Int} (hs : Whole ρ s) :
    Whole ρ (s.padcWord k result isOpen settling sat bo phase v) :=
  hs.ringWord.padcRequest

theorem Whole.setTests {k : W32} (hs : Whole ρ s) : Whole ρ (s.setTests k) := hs.setRbit.rest
theorem Whole.idleBegin (hs : Whole ρ s) : Whole ρ s.idleBegin := hs.setTests
theorem Whole.boAsked (hs : Whole ρ s) : Whole ρ s.boAsked := hs.setTests

theorem Whole.padcShow {running : Bool} (hs : Whole ρ s) : Whole ρ (s.padcShow running) :=
  (Whole.ite hs hs.idleBegin).setRbit.setRbit.setFld

theorem Whole.padcResult {k : Nat} {r : Int} {isOpen settling sat : Bool} {m0 m1 : Int} (hs : Whole ρ s) :
    Whole ρ (s.padcResult k r isOpen settling sat m0 m1) :=
  hs.setReg.setReg.padcWord.rest

theorem Whole.padcBegin {k : Nat} (hs : Whole ρ s) : Whole ρ (s.padcBegin k) := hs.rest

theorem Whole.padcEnter {n k : Nat} (hs : Whole ρ s) : Whole ρ (State.padcEnter n k s) := by
  induction n generalizing k s with
  | zero => exact hs.count.rest
  | succ n ih => exact .ite (ih hs) (.ite (ih hs.padcBegin.padcResult) (.ite hs.padcBegin.rest hs.padcBegin))

theorem Whole.padcNext (hs : Whole ρ s) : Whole ρ s.padcNext := hs.padcEnter.padcShow

theorem Whole.padcMean {n : Nat} {hist : List Int} (hs : Whole ρ s) : Whole ρ (s.padcMean n hist).2 :=
  .iteSnd hs hs.drawn

theorem Whole.padcEndPhase {k : Nat} (hs : Whole ρ s) : Whole ρ (s.padcEndPhase k) :=
  .ite hs.padcResult.padcNext (.ite hs.rest hs.padcResult.padcNext)

theorem Whole.padcAfter {k : Nat} {v : Int} {settling isSat : Bool} (hs : Whole ρ s) :
    Whole ρ (s.padcAfter k v settling isSat) :=
  .ite hs.padcResult.rest (hs.guard (·.padcEndPhase))

theorem Whole.padcSat {isSat : Bool} (hs : Whole ρ s) : Whole ρ (s.padcSat isSat) := hs.guard (·.count.fault)
theorem Whole.padcForm {xr : Int} (hs : Whole ρ s) : Whole ρ (s.padcForm xr).1 := hs.padcMean.padcSat.padcWord.rest
theorem Whole.padcOutput {xr : Int} (hs : Whole ρ s) : Whole ρ (s.padcOutput xr) := hs.padcForm.padcAfter
theorem Whole.padcStop (hs : Whole ρ s) : Whole ρ s.padcStop := hs.rest.padcShow

theorem Whole.padcOpen {output : Bool} (hs : Whole ρ s) : Whole ρ (s.padcOpen output) :=
  (hs.guard (·.padcWord)).setRbit.fault.padcResult.padcNext

theorem Whole.burnout {k : Nat} {xr : Int} (hs : Whole ρ s) : Whole ρ (s.burnout k xr) :=
  hs.guard fun hs => hs.padcSat.padcWord.setRbit.setRbit.setTests.guard (·.fault)

theorem Whole.convert {k : Nat} {r : Int} (hs : Whole ρ s) : Whole ρ (s.convert k r).2 := by
  unfold State.convert
  split
  · split
    · exact hs
    · exact hs
    · exact hs.drawn
  · exact hs
  · exact hs
  · exact hs

theorem Whole.tempIn {t : Fl} {n w : Nat} (hs : Whole ρ s) : Whole ρ (s.tempIn t n w).2 := by
  unfold State.tempIn
  split
  · exact .iteSnd hs hs.drawn
  · exact hs.drawn

theorem Whole.tempDeliver {dest : Nat} {t : Fl} {w : W72} (hs : Whole ρ s) : Whole ρ (s.tempDeliver dest t w) :=
  .ite hs (.ite hs.tempIn.headTemp (.ite hs.tempIn.coilReading (.ite hs.tempIn.thReading hs.tempIn.setOdvS.setOdv)))

theorem Whole.execPadcResultConvert {k : Fin 16} (hs : Whole ρ s) : Leaves ρ (execPadcResultConvert k s) := by
  unfold Machine.execPadcResultConvert
  refine .next ?_
  split
  · exact hs
  · exact .ite hs.rest hs.rest.convert.setOdv.setOdv.tempDeliver

theorem Whole.pfeEffect {off : Nat} {old v : W32} (hs : Whole ρ s) : Whole ρ (pfeEffect s off old v) :=
  .ite (.ite hs.setReg (hs.guard (·.padcStop)))
    (.ite hs.boAsked (hs.guard fun hs => .ite hs.padcNext (hs.guard (·.rest))))

/-! ## The housekeeping ADC -/

theorem Whole.hadcShow (hs : Whole ρ s) : Whole ρ s.hadcShow := hs.setFld.setRbit
theorem Whole.hadcNext (hs : Whole ρ s) : Whole ρ s.hadcNext := hs.rest.hadcShow
theorem Whole.hadcKick (hs : Whole ρ s) : Whole ρ s.hadcKick := .ite hs.hadcNext hs.hadcShow
theorem Whole.refJudge (hs : Whole ρ s) : Whole ρ s.refJudge := (Whole.ite hs.setRbit.fault hs.setRbit).hadcKick
theorem Whole.regTrigger (hs : Whole ρ s) : Whole ρ s.regTrigger := .ite hs (.ite hs.count hs.rest.hadcKick)

theorem Whole.regTriggerFrom {trig : Nat} (hs : Whole ρ s) : Whole ρ (s.regTriggerFrom trig) :=
  hs.guard (·.regTrigger)

theorem Whole.regShot {h : Nat} (hs : Whole ρ s) : Whole ρ (s.regShot h) := hs.guard (·.regTriggerFrom)
theorem Whole.injTrigger (hs : Whole ρ s) : Whole ρ s.injTrigger := .ite hs (.ite hs.count.fault hs.rest.hadcKick)
theorem Whole.hadcRequest (hs : Whole ρ s) : Whole ρ s.hadcRequest := hs.rest

theorem Whole.regDone {i code : Nat} (hs : Whole ρ s) : Whole ρ (s.regDone i code) :=
  have h1 := hs.setFld.ringWord.hadcRequest
  .ite h1.rest (.ite h1.rest h1.count.rest)

theorem Whole.injShow (hs : Whole ρ s) : Whole ρ s.injShow := hs.setReg.setReg

theorem Whole.injDone {i code : Nat} (hs : Whole ρ s) : Whole ρ (s.injDone i code) :=
  .ite hs.rest.rest (.ite hs.rest.rest hs.rest.rest.injShow.setRbit.event)

theorem Whole.hkEffect {off : Nat} {old v : W32} (hs : Whole ρ s) : Whole ρ (hkEffect s off old v) :=
  .ite hs (have h1 := hs.guard (·.rest.refJudge); ((Whole.ite h1.rest (h1.guard (·.rest))).guard (·.rest)).hadcKick)

/-! ## Calibration -/

theorem Whole.setLaneStep {h : Nat} {x : Option LaneStep} (hs : Whole ρ s) : Whole ρ (s.setLaneStep h x) := hs.rest
theorem Whole.calShow (hs : Whole ρ s) : Whole ρ s.calShow := hs.setRbit.setRbit.setFld

theorem Whole.stepEnd {kind outcome ch attempts : Nat} (hs : Whole ρ s) :
    Whole ρ (s.stepEnd kind outcome ch attempts) :=
  (((Whole.ite hs.setReg.count hs.setReg.count).guard (·.rest)).guard (·.event)).calShow

theorem Whole.calTriggers (hs : Whole ρ s) : Whole ρ s.calTriggers := hs.rest
theorem Whole.tempRead {k : Nat} (hs : Whole ρ s) : Whole ρ (s.tempRead k) := hs.setReg.drawn

theorem Whole.quinceDone {k : Nat} (hs : Whole ρ s) : Whole ρ (s.quinceDone k) :=
  .ite hs.tempRead.rest hs.tempRead.rest.calTriggers

theorem Whole.execHadcConversionDone {rw : Nat} (hs : Whole ρ s) : Leaves ρ (execHadcConversionDone rw s) := by
  unfold Machine.execHadcConversionDone
  refine .next ?_
  split
  · exact hs
  · exact hs.regDone.hadcNext
  · exact hs.injDone.hadcNext
  · exact hs.quinceDone.hadcNext

theorem Whole.calGoAll (hs : Whole ρ s) : Whole ρ s.calGoAll := hs.rest
theorem Whole.calGoPadc (hs : Whole ρ s) : Whole ρ s.calGoPadc := hs.rest
theorem Whole.calGoMatch (hs : Whole ρ s) : Whole ρ s.calGoMatch := hs.rest
theorem Whole.calGoStore (hs : Whole ρ s) : Whole ρ s.calGoStore := hs.rest
theorem Whole.laneReq {ch : Nat} (hs : Whole ρ s) : Whole ρ (s.laneReq ch) := hs.setRbit.rest

theorem Whole.laneStepEnd {ch : Nat} {iq : Bool} {outcome attempts : Nat} (hs : Whole ρ s) :
    Whole ρ (s.laneStepEnd ch iq outcome attempts) :=
  (Whole.ite hs.setLaneStep.rest hs.setLaneStep.rest.setRbit.setFld).stepEnd

theorem Whole.calArm {ch start i : Nat} (hs : Whole ρ s) : Whole ρ (s.calArm ch start i) := hs.setReg.setReg.calGo
theorem Whole.laneWait {x : LaneStep} (hs : Whole ρ s) : Whole ρ (s.laneWait x) := hs.setLaneStep

theorem Whole.laneAttempt {x : LaneStep} (hs : Whole ρ s) : Whole ρ (s.laneAttempt x) := by
  unfold State.laneAttempt
  refine .ite hs.laneWait ?_
  split
  · exact hs.fault.laneStepEnd
  · exact .ite hs.fault.laneStepEnd (.ite (.ite hs.calGo.laneWait hs.calGo.laneStepEnd) hs.calArm.setLaneStep)

theorem Whole.laneRetry {x : LaneStep} {outcome : Nat} (hs : Whole ρ s) : Whole ρ (s.laneRetry x outcome) :=
  .ite ((hs.guard (·.fault)).laneStepEnd) (.ite hs.laneWait hs.laneAttempt)

theorem Whole.laneStart {ch : Nat} (hs : Whole ρ s) : Whole ρ (s.laneStart ch) :=
  .ite hs (.ite hs.laneAttempt.calShow hs.setLaneStep.calShow)

theorem Whole.slotTaken {x : LaneStep} {len : Nat} (hs : Whole ρ s) : Whole ρ (s.slotTaken x len) := by
  unfold State.slotTaken
  refine .ite ?_ hs.drawn.setLaneStep
  split
  · exact hs.drawn.setLaneStep.calArm
  · exact hs.drawn.setLaneStep.fault.laneStepEnd.calShow

theorem Whole.execCalSlotEnd {ch : Chan} {raw : ChCodes} (hs : Whole ρ s) : Leaves ρ (execCalSlotEnd ch raw s) := by
  refine .next ?_
  split
  · exact hs
  · refine .ite ?_ hs
    have ht := hs.calSlotEnd (ch := ch) (raw := raw)
    dsimp only
    split
    · exact ht.guard (·.slotTaken)
    · exact ht

theorem Whole.laneInstall {ch : Nat} {v : List (Int × Int × Int)} (hs : Whole ρ s) : Whole ρ (s.laneInstall ch v) :=
  (hs.setRbit.foldl fun _ _ ht => ht.setFld.setFld.setFld).setRbit.laneStage

theorem Whole.laneJudge {x : LaneStep} (hs : Whole ρ s) : Whole ρ (s.laneJudge x) :=
  .ite hs.laneRetry (.ite hs.fault.laneStepEnd hs.laneInstall.setFld.setRbit.rest.laneStepEnd.laneStart)

theorem Whole.slotResult {ch : Nat} (hs : Whole ρ s) : Whole ρ (s.slotResult ch) := by
  unfold State.slotResult
  split
  · exact hs
  · exact .ite hs (.ite hs.fault.laneStepEnd (.ite hs.setLaneStep hs.laneJudge.calShow))

theorem Whole.laneReqBeside {t : State} {ch : Nat} (ht : Whole ρ t) : Whole ρ (s.laneReqBeside t ch) :=
  .ite ht.rest ht.laneReq

theorem Whole.laneRestart {h : Nat} (hs : Whole ρ s) : Whole ρ (s.laneRestart h) := by
  unfold State.laneRestart
  split
  · exact .ite hs hs.setLane.laneWait
  · exact hs

theorem Whole.probeCommitted {h : Nat} {q : Req} (hs : Whole ρ s) : Whole ρ (s.probeCommitted h q) :=
  .ite hs.probeCommit.laneRestart hs.probeCommit

theorem Whole.quinceBoundary {h : Nat} (hs : Whole ρ s) : Whole ρ (s.quinceBoundary h) := by
  unfold State.quinceBoundary
  split
  · exact .ite hs (.ite hs.laneAttempt.calShow (.ite hs.laneRetry.calShow (hs.guard (·.laneRetry.calShow))))
  · exact hs

theorem Whole.quinceGated {d : Nat} (hs : Whole ρ s) : Whole ρ (s.quinceGated d) := by
  unfold State.quinceGated
  refine .forEach hs fun _ _ ht => ?_
  split
  · exact ht.laneStepEnd.rest
  · exact ht

theorem Whole.iqInstall {ch : Nat} {v : List Int} (hs : Whole ρ s) : Whole ρ (s.iqInstall ch v) :=
  hs.setRbit.setReg.setReg.setReg.setReg.setRbit.laneStage

theorem Whole.execIqAccumDone {ch : Chan} {sx sy : IqSums} (hs : Whole ρ s) :
    Leaves ρ (execIqAccumDone ch sx sy s) := by
  refine .next ?_
  split
  · exact hs
  · refine .ite hs ?_
    dsimp only
    split
    · split
      · exact hs.setLaneStep
      · exact .ite hs.iqInstall.laneStepEnd (.ite hs.setLaneStep hs.fault.laneStepEnd)
    · exact hs.laneStepEnd

theorem Whole.padcStepEnd {outcome attempts : Nat} (hs : Whole ρ s) : Whole ρ (s.padcStepEnd outcome attempts) :=
  hs.rest.stepEnd

theorem Whole.padcInstalled {g attempts : Nat} (hs : Whole ρ s) : Whole ρ (s.padcInstalled g attempts) :=
  .ite hs.rest.padcStepEnd hs.rest.calShow

theorem Whole.execPadcCalStep {g : Fin 8} {zeroA refA zeroB refB : List Int} (hs : Whole ρ s) :
    Leaves ρ (execPadcCalStep g zeroA refA zeroB refB s) :=
  .next (.ite hs (have h1 := hs.drawn.rest; .ite (.ite h1.setReg.setReg.padcInstalled h1.fault.padcStepEnd)
    (.ite h1.rest.calShow h1.fault.padcStepEnd)))

theorem Whole.swapSlot {k : Nat} (hs : Whole ρ s) : Whole ρ (s.swapSlot k) :=
  hs.guard fun hs => .ite hs.fault.stepEnd ((hs.guard (·.fault)).stepEnd)

theorem Whole.swapCheck (hs : Whole ρ s) : Whole ρ s.swapCheck := hs.rest.forEach fun _ _ ht => ht.swapSlot

theorem Whole.boRequest (hs : Whole ρ s) : Whole ρ s.boRequest :=
  (hs.forEach fun _ _ ht => ht.guard (·.setRbit)).boAsked

theorem Whole.matchStepEnd {outcome attempts : Nat} (hs : Whole ρ s) : Whole ρ (s.matchStepEnd outcome attempts) :=
  hs.rest.stepEnd

theorem Whole.execMatchStep {va vb : List Int} (hs : Whole ρ s) : Leaves ρ (execMatchStep va vb s) :=
  .next (.ite hs (have h1 := Whole.ite hs.drawn.boRequest hs.drawn; .ite
    (.ite ((h1.foldl fun _ _ ht => ht.setReg).rest.matchStepEnd.swapCheck) h1.fault.matchStepEnd)
    (.ite h1.rest h1.fault.matchStepEnd)))

theorem Whole.storeFail {bit : Nat} (hs : Whole ρ s) : Whole ρ (s.storeFail bit) := hs.fault.rest.fault.stepEnd

theorem Whole.storeDone {ok : Bool} (hs : Whole ρ s) : Whole ρ (s.storeDone ok) :=
  .ite (.ite hs hs.fault) (.ite hs.storeFail hs.rest.setRbit.setFld.setReg.stepEnd)

theorem Whole.loadBody {body : List (Nat × Nat)} {pick : Nat → Bool} (hs : Whole ρ s) :
    Whole ρ (s.loadBody body pick) :=
  hs.foldl fun _ _ ht => ht.guard (·.setReg)

theorem Whole.calBoot (hs : Whole ρ s) : Whole ρ s.calBoot := by
  unfold State.calBoot
  dsimp only
  split
  · exact (hs.loadBody.setReg.rest.forEach fun _ _ ht => ht.laneRestored).setRbit.setFld.fault
  · exact hs.setRbit.fault.calTriggers

theorem Whole.quincePowered {d : Nat} (hs : Whole ρ s) : Whole ρ (s.quincePowered d) := by
  unfold State.quincePowered
  refine .forEach ?_ fun _ _ ht => (ht.foldl fun _ _ hu => hu.setReg).setFld.setFld.laneRestored.rest
  split
  · exact hs.nvmRead
  · exact hs

theorem Whole.calAbort (hs : Whole ρ s) : Whole ρ s.calAbort := by
  unfold State.calAbort
  extract_lets t u v
  have ht : Whole ρ t := hs.forEach fun h y hy => by
    split
    · exact .ite hy hy.laneStepEnd
    · exact hy
  have hu : Whole ρ u := ht.guard (·.padcStepEnd)
  have hv : Whole ρ v := hu.guard (·.matchStepEnd)
  exact hv.guard (·.rest.stepEnd)

theorem Whole.calEffect {off : Nat} {w : W32} (hs : Whole ρ s) : Whole ρ (calEffect s off w) := by
  unfold Machine.calEffect
  split
  · exact hs.calAbort
  · exact (((hs.guard (·.calGoAll)).guard (·.calGoPadc)).guard (·.calGoMatch)).guard (·.calGoStore)
  · exact hs.rest
  · exact hs

/-! ## Images, life records and stored settings -/

theorem Whole.answerCode {p : Path} {how : Nat} {abort : W32} (hs : Whole ρ s) :
    Whole ρ (s.answerCode p how abort) := by
  unfold State.answerCode
  split
  · exact hs.emit
  · exact hs.guard (·.sessionReply)
  · exact hs.localReply
  · exact hs

theorem Whole.storeBegin (hs : Whole ρ s) : Whole ρ s.storeBegin := hs.rest.nvmStart.rest

theorem Whole.storeFails {p : Path} {how : Nat} {rest : List (Path × Nat × Bool)} (hs : Whole ρ s) :
    Whole ρ (s.storeFails p how rest) :=
  hs.rest.fault.event.answerCode

theorem Whole.storeRun {l : List (Path × Nat × Bool)} (hs : Whole ρ s) : Whole ρ (State.storeRun l s) := by
  induction l generalizing s with
  | nil => exact hs
  | cons x l ih => exact .ite hs.storeBegin (ih hs.storeFails)

theorem Whole.storeAsk {p : Path} {how : Nat} {ok : Bool} (hs : Whole ρ s) : Whole ρ (s.storeAsk p how ok) :=
  .ite hs.fault.answerCode (.ite hs.rest.storeRun hs.rest)

theorem Whole.storeCommit (hs : Whole ρ s) : Whole ρ s.storeCommit := by
  unfold State.storeCommit
  split
  · exact hs
  · exact hs.rest.answerCode.storeRun

theorem Whole.storeBroken (hs : Whole ρ s) : Whole ρ s.storeBroken := by
  unfold State.storeBroken
  split
  · exact hs.fault
  · exact hs.rest.fault.answerCode.storeRun

theorem Whole.execStore {p : Path} {ok : Bool} (hs : Whole ρ s) : Leaves ρ (execStore p ok s) := by
  unfold Machine.execStore
  split
  · exact .next hs
  · split
    · exact .next hs.answerCode
    · exact .next hs.storeAsk

theorem Whole.restoreAsk {sig : W32} (hs : Whole ρ s) (e : s.restoreAsk sig = .inr t) : Whole ρ t := by
  unfold State.restoreAsk at e
  split at e <;> cases e
  exact hs.rest

theorem Whole.execRestoreDefaults {p : Path} {sig : W32} (hs : Whole ρ s) :
    Leaves ρ (execRestoreDefaults p sig s) := by
  unfold Machine.execRestoreDefaults
  split
  · exact .next hs
  · split
    · exact .next hs.answerCode
    · split
      · exact .next hs.answerCode
      · next e => exact .next (hs.restoreAsk e).answerCode

theorem Whole.clearFails (hs : Whole ρ s) : Whole ρ s.clearFails := hs.setFld

theorem Whole.imageWrite {b : Bool} {ofs : Nat} {more : Bool} {data : List Byte} {sigOk : Bool} (hs : Whole ρ s) :
    Whole ρ (s.imageWrite b ofs more data sigOk).2 :=
  .iteSnd hs.fault (.iteSnd hs (have h1 := Whole.ite hs.nvmStart hs.rest; .iteSnd h1.rest
    (.iteSnd h1.rest.drawn.clearFails h1.rest.rest)))

theorem Whole.imageDone {b ok : Bool} (hs : Whole ρ s) : Whole ρ (s.imageDone b ok) := .ite hs.rest hs.rest.fault

theorem Whole.execImageWrite {p : Path} {b : Bool} {ofs : Nat} {more : Bool} {data : List Byte} {sigOk : Bool}
    (hs : Whole ρ s) : Leaves ρ (execImageWrite p b ofs more data sigOk s) := by
  unfold Machine.execImageWrite
  split
  · exact .next hs
  · split
    · exact .next hs.answerCode
    · exact .next hs.imageWrite.answerCode

/-! ## Shots -/

theorem Whole.headTakes {h : Nat} {c : HeadChange} (hs : Whole ρ s) : Whole ρ (s.headTakes h c) :=
  hs.setHead.setRbit.setRbit.setFld.setFld

theorem Whole.settleCount {h : Nat} (hs : Whole ρ s) : Whole ρ (s.settleCount h) := hs.setHead

theorem Whole.launchDecide {h : Nat} (hs : Whole ρ s) : Whole ρ (s.launchDecide h).2 :=
  .iteSnd (.iteSnd hs.setHead hs.setHead.count) hs

theorem Whole.closeHead {h : Nat} {raw : List ChCodes} (hs : Whole ρ s) : Whole ρ (s.closeHead h raw) :=
  hs.settleCount.forEach fun _ _ ht => ht.closeLanes.recordWords

theorem Whole.schedTakes {h : Nat} {half : Bool} (hs : Whole ρ s) : Whole ρ (s.schedTakes h half) := hs.setSched

theorem Whole.followShow {f : Nat} {fresh : Bool} (hs : Whole ρ s) : Whole ρ (s.followShow f fresh) :=
  hs.guard (·.setRbit)

theorem Whole.resume {h f : Nat} (hs : Whole ρ s) : Whole ρ (s.resume h f) :=
  (hs.setSched.forEach fun _ _ ht => ht.setLane).setRbit

theorem Whole.shotShow {h : Nat} {fresh : Bool} (hs : Whole ρ s) : Whole ρ (s.shotShow h fresh) :=
  (Whole.ite hs.setRbit hs.setRbit.setRbit).followShow.forEach fun _ _ ht => ht.resume

theorem Whole.boundaryChannel {h j : Nat} {c : HeadChange} {first launched stepped : Bool} {ticks since : Nat}
    (hs : Whole ρ s) : Whole ρ (s.boundaryChannel h j c first launched stepped ticks since) :=
  (hs.guard (·.setLane)).openLanes.engineBoundary.chainBoundary

theorem Whole.shotBoundary {h : Nat} {raw : List ChCodes} {late : Nat} {half : Bool} (hs : Whole ρ s) :
    Whole ρ (s.shotBoundary h raw late half) :=
  have h1 := Whole.ite hs hs.closeHead
  (((Whole.ite h1.schedTakes.switchSource h1.schedTakes).headTakes.launchDecide.setReg.setReg.setSched.forEach
    fun _ _ ht => ht.boundaryChannel).shotShow.tdcShot.sourceEdge.regShot.guard (·.alignWait)).quinceBoundary

theorem Whole.execSchedLastPeriodEnd {h : Head} {raw : List ChCodes} (hs : Whole ρ s) :
    Leaves ρ (execSchedLastPeriodEnd h raw s) :=
  .next (hs.guard fun hs => (hs.closeHead.forEach fun _ _ ht => ht.laneFaults.laneTail).setSched.setFld)

theorem Whole.markerEdge {h j : Nat} (hs : Whole ρ s) : Whole ρ (s.markerEdge h j) := hs.tdcEdge

theorem Whole.execSubProbeLaunch {h : Head} {k : Fin 8} (hs : Whole ρ s) : Leaves ρ (execSubProbeLaunch h k s) :=
  .next (hs.guard fun hs => .ite (hs.play.lmonArm.forEach fun _ _ ht => ht.guard (·.tdcArm.markerEdge)) hs.play)

theorem Whole.shotCapture {h : Nat} (hs : Whole ρ s) : Whole ρ (s.shotCapture h) := hs.setWreg.setWreg

theorem Whole.settleBack {h : Nat} (hs : Whole ρ s) : Whole ρ (s.settleBack h) :=
  .ite (hs.setHead.forEach fun _ _ ht => ht.recordSettles) hs.setHead

theorem Whole.shotTripped {h : Nat} {i : BitVec 48} (hs : Whole ρ s) : Whole ρ (s.shotTripped h i) :=
  hs.count.forEach fun _ _ ht => ht.recordTripped

theorem Whole.execHeadokFall {h : Head} {t : Nat} (hs : Whole ρ s) : Leaves ρ (execHeadokFall h t s) :=
  .next (((Whole.ite hs.headokFallen.shotTripped.settleBack hs.headokFallen).guard
    (·.shotTripped.when fun _ ht => ht.settleBack)).setSched)

theorem Whole.shotEffect {off : Nat} {old v : W32} (hs : Whole ρ s) : Whole ρ (shotEffect s off old v) :=
  .ite hs (.ite (hs.guard fun hs => (hs.guard (·.setSched)).guard (·.switchSource))
    (hs.guard (·.forEach fun _ _ ht => ht.guard (·.laneRestart))))

theorem Whole.execSchedEnable {q : Req} {h : Head} (hs : Whole ρ s) : Leaves ρ (execSchedEnable q h s) := by
  unfold Machine.execSchedEnable
  refine .next (.ite hs ?_)
  split
  · exact hs.err
  · exact hs.setReg

/-! ## The dictionary -/

theorem Whole.rolesFollow {ch : Nat} (hs : Whole ρ s) : Whole ρ (s.rolesFollow ch) := by
  unfold State.rolesFollow
  split
  · exact hs.vendorLoad
  · exact hs

theorem Whole.channelWrite {ch k idx sub v : Nat} (hs : Whole ρ s) : Whole ρ (s.channelWrite ch k idx sub v) := by
  unfold State.channelWrite
  split
  · exact (hs.setOdv.when fun _ ht => ht.setChain).rolesFollow
  · exact hs.setOdv.rolesFollow
  · exact (hs.setOdv.when fun _ ht => ht.setChain).rolesFollow.rolesFollow
  · exact hs.setOdv.rolesFollow
  · exact (hs.setOdv.when fun _ ht => ht.setChain).rolesFollow
  · exact hs.setOdv.setChain
  · exact hs.setOdv.setChain
  · exact hs.setOdv.setChain
  · exact hs.setOdv

theorem Whole.zoneEntryWrite {z sub v : Nat} (hs : Whole ρ s) : Whole ρ (s.zoneEntryWrite z sub v).2 := by
  unfold State.zoneEntryWrite
  split
  · split
    · exact hs
    · split
      · exact hs
      · next e => exact hs.zoneInput e
  · dsimp only
    split
    · exact hs.err
    · next e => exact hs.zoneWrite e

theorem Whole.sessionClose {i : Nat} (hs : Whole ρ s) : Whole ρ (s.sessionClose i) :=
  .ite hs (.ite hs.setSession.setReg.event hs.setSession.setReg)

theorem Whole.keyWrite {idx : Nat} {data : List Byte} (hs : Whole ρ s) : Whole ρ (s.keyWrite idx data) :=
  (Whole.ite hs.setOdStr.nvmStart.rest hs.setOdStr.nvmStart).forEach fun _ _ ht => ht.guard (·.sessionClose)

theorem Whole.lifeAsk {target : Nat} (hs : Whole ρ s) (e : s.lifeAsk target = .inr t) : Whole ρ t := by
  unfold State.lifeAsk at e
  split at e
  · cases e
  · split at e <;> cases e
    exact .ite hs.rest hs.rest.nvmStart

theorem Whole.lifeEntryWrite {target : Nat} (hs : Whole ρ s) : Whole ρ (s.lifeEntryWrite target).2 := by
  unfold State.lifeEntryWrite
  split
  · exact hs.err
  · exact hs.err.fault
  · next e => exact hs.lifeAsk e

theorem Whole.loopEntryWrite {n v : Nat} (hs : Whole ρ s) : Whole ρ (s.loopEntryWrite n v).2 :=
  .iteSnd hs.err hs.setReg.loopEffect

theorem Whole.peerWrite {k sub : Nat} {data : List Byte} (hs : Whole ρ s) : Whole ρ (s.peerWrite k sub data) :=
  (Whole.ite hs.setOdStr hs.setOdv).rest

theorem Whole.odApply {idx sub ofs : Nat} {more : Bool} {data : List Byte} (hs : Whole ρ s) :
    Whole ρ (s.odApply idx sub ofs more data).2 := by
  unfold State.odApply
  refine .iteSnd hs.zoneEntryWrite (.iteSnd hs.loopEntryWrite (.iteSnd hs.keyWrite (.iteSnd ?channel ?_)))
  case channel => dsimp only; exact hs.channelWrite
  refine .iteSnd hs.drawn.imageWrite (.iteSnd hs.lifeEntryWrite (.iteSnd ?restore (.iteSnd ?hist ?_)))
  case restore =>
    split
    · exact hs
    · next e => exact hs.restoreAsk e
  case hist => exact hs.setOdv.guard (·.histStart)
  refine .iteSnd hs.peerWrite (.iteSnd hs.setOdv ?_)
  split
  · exact .iteSnd hs.setOdStr hs.setOdv
  · exact hs

theorem Whole.odWrite {role idx sub ty ofs : Nat} {more : Bool} {data : List Byte} (hs : Whole ρ s) :
    Whole ρ (s.odWrite role idx sub ty ofs more data).2 := by
  unfold State.odWrite
  split
  · exact hs
  · exact hs.odApply

theorem Whole.odRequest {p : Path} {how idx sub ty ofs : Nat} {more : Bool} {data : List Byte} (hs : Whole ρ s) :
    Whole ρ (s.odRequest p how idx sub ty ofs more data) := by
  unfold State.odRequest
  split
  · exact hs
  · refine .ite ?_ hs.odWrite.answerCode
    split
    · exact hs.answerCode
    · exact .ite hs.drawn.storeAsk hs.answerCode

theorem Whole.execDictRead {p : Path} {idx : BitVec 16} {sub : Byte} {ofs : Nat} (hs : Whole ρ s) :
    Leaves ρ (execDictRead p idx sub ofs s) := by
  unfold Machine.execDictRead
  split
  · exact .next hs
  · split <;> exact .next hs.emit

theorem Whole.selfWrite (hs : Whole ρ s) : Whole ρ s.selfWrite := by
  unfold State.selfWrite
  split
  · exact hs
  · exact hs.rest.odWrite.remoteAck

/-! ## YARFEL -/

theorem Whole.sessShow (hs : Whole ρ s) : Whole ρ s.sessShow := hs.setReg

theorem Whole.sessionOpen {ip : IpAddr} {client role : Nat} {nc : List Byte} (hs : Whole ρ s) :
    Whole ρ (s.sessionOpen ip client role nc) := by
  unfold State.sessionOpen
  refine .ite hs ?_
  split
  · exact hs.fault
  · exact hs.drawn.drawNonce.setSession.sessionSend

theorem Whole.sessionConfirm {i : Nat} {ip : IpAddr} {verified : Bool} (hs : Whole ρ s) :
    Whole ρ (s.sessionConfirm i ip verified) :=
  .ite hs (.ite hs.authFail (have h1 := hs.rest.setSession.sessShow; .ite h1.learnPeer.event h1.learnPeer))

theorem Whole.subscribeAdd {i lease : Nat} {vs : List Nat} (hs : Whole ρ s) : Whole ρ (s.subscribeAdd i lease vs).2 :=
  .iteSnd hs (.iteSnd hs hs.setSession)

theorem Whole.subscribeRemove {i : Nat} {vs : List Nat} (hs : Whole ρ s) : Whole ρ (s.subscribeRemove i vs) :=
  hs.setSession

theorem Whole.subscribeClear {i : Nat} (hs : Whole ρ s) : Whole ρ (s.subscribeClear i) := hs.setSession

theorem Whole.writeRequest {p : Path} {how flags : Nat} {pl : List Byte} (hs : Whole ρ s) :
    Whole ρ (s.writeRequest p how flags pl) :=
  .ite hs.answerCode hs.odRequest

theorem Whole.subscribeRequest {i : Nat} {pl : List Byte} (hs : Whole ρ s) : Whole ρ (s.subscribeRequest i pl).2 := by
  unfold State.subscribeRequest
  split
  · exact hs
  · split
    · exact hs.subscribeAdd
    · exact hs.subscribeRemove
    · exact hs.subscribeClear
    · exact hs

theorem Whole.storeRequest {p : Path} {how : Nat} (hs : Whole ρ s) : Whole ρ (s.storeRequest p how) := by
  unfold State.storeRequest
  split
  · exact hs.answerCode
  · exact hs.drawn.storeAsk

theorem Whole.sessionRequest {i : Fin 16} {h : FrameHdr} {pl : List Byte} (hs : Whole ρ s) :
    Whole ρ (s.sessionRequest i h pl) := by
  unfold State.sessionRequest
  refine .ite hs ?_
  split
  · exact hs.sessionSend
  · split
    · exact hs.sessionReply
    · exact hs.writeRequest
    · exact hs.subscribeRequest.answerCode
    · exact hs.storeRequest
    · exact hs

theorem Whole.broadcastSeq {src seq : Nat} (hs : Whole ρ s) (e : s.broadcastSeq src seq = some t) : Whole ρ t := by
  unfold State.broadcastSeq at e
  dsimp only at e
  split at e <;> cases e
  exact hs.rest

theorem Whole.broadcastApply {idx sub ty : Nat} {data : List Byte} (hs : Whole ρ s) :
    Whole ρ (s.broadcastApply idx sub ty data) :=
  hs.odWrite

theorem Whole.broadcastWrite {src seq idx sub ty : Nat} {data : List Byte} (hs : Whole ρ s) :
    Whole ρ (s.broadcastWrite src seq idx sub ty data) := by
  unfold State.broadcastWrite
  split
  · exact hs.replayFail
  · next e => exact (hs.broadcastSeq e).broadcastApply

theorem Whole.estateFrame {ip : IpAddr} {e : EstateSt} {h : FrameHdr} {pl : List Byte} (hs : Whole ρ s) :
    Whole ρ (s.estateFrame ip e h pl) := by
  unfold State.estateFrame
  split
  · exact hs.replayFail
  · refine .ite hs.setEstate.learnPeer ?_
    split
    · exact hs.setEstate.learnPeer.remoteAck
    · exact hs.setEstate.learnPeer

theorem Whole.heldSessionFrame {ip : IpAddr} {h : FrameHdr} {body tag pl : List Byte} (hs : Whole ρ s) :
    Whole ρ (s.heldSessionFrame ip h body tag pl) := by
  unfold State.heldSessionFrame
  split
  · exact hs.authFail
  · refine .ite hs.authFail ?_
    split
    · exact hs.replayFail
    · exact .ite hs.setSession.sessionConfirm hs.setSession.learnPeer

theorem Whole.sessionFrame {ip : IpAddr} {h : FrameHdr} {body tag pl : List Byte} (hs : Whole ρ s) :
    Whole ρ (s.sessionFrame ip h body tag pl) := by
  unfold State.sessionFrame
  refine .ite (.ite hs.authFail (hs.guard (·.sessionOpen))) ?_
  split
  · exact hs.estateFrame
  · exact .ite hs.estateChallenge hs.heldSessionFrame

theorem Whole.broadcastFrame {ip : IpAddr} {h : FrameHdr} {body tag pl : List Byte} (hs : Whole ρ s) :
    Whole ρ (s.broadcastFrame ip h body tag pl) := by
  refine .ite hs.authFail ?_
  split
  · exact hs.learnPeer.replayFail
  · next e =>
    have ht := hs.learnPeer.broadcastSeq e
    exact .ite ht ht.broadcastApply

theorem Whole.openFrame {ip : IpAddr} {h : FrameHdr} {body tag pl : List Byte} (hs : Whole ρ s) :
    Whole ρ (s.openFrame ip h body tag pl) := by
  unfold State.openFrame
  split
  · exact hs.estateFrame
  · split
    · exact hs.authFail
    · refine .ite hs.authFail ?_
      split
      · exact hs.replayFail
      · exact
          have h1 := hs.setSession.learnPeer
          .ite h1 h1.sessionRequest

theorem Whole.yarfelFrame {ip : IpAddr} {l : List Byte} (hs : Whole ρ s) : Whole ρ (s.yarfelFrame ip l) :=
  .ite hs (.ite hs.broadcastFrame (.ite hs (.ite hs.sessionFrame hs.openFrame)))

theorem Whole.localRun (hs : Whole ρ s) : Whole ρ s.localRun := by
  unfold State.localRun
  refine .ite hs.rest.localReply ?_
  split
  · exact hs.rest.localReply
  · exact hs.rest.writeRequest
  · exact hs.rest.answerCode
  · exact hs.rest.answerCode
  · exact hs.rest.storeRequest
  · exact hs.rest.localReply

theorem Whole.localGo {q : Req} (hs : Whole ρ s) : Whole ρ (s.localGo q) := .ite hs.err hs.localRun

theorem Whole.ethSend {n : Nat} {mac : BitVec 48} {k : EthKind} (hs : Whole ρ s) : Whole ρ (s.ethSend n mac k) :=
  hs.emit.count

theorem Whole.execEthernetFrameRx {n : Port2} {f : EthFrame} (hs : Whole ρ s) :
    Leaves ρ (execEthernetFrameRx n f s) := by
  unfold Machine.execEthernetFrameRx
  split
  · exact .next hs
  · split
    · exact .next hs.count
    · split
      · exact .next hs.count
      · split
        · exact .next (.ite hs (.ite hs.count hs.count.count))
        · refine .next ?_
          split
          · exact hs.count.ethSend
          · exact hs.count

/-! ## PTP -/

theorem Whole.ptpEnter {n st : Nat} {parent : Option (List Byte)} (hs : Whole ρ s) :
    Whole ρ (s.ptpEnter n st parent) :=
  .ite hs (((Whole.ite hs.setPtp.setSynced hs.setPtp).guard (·.fault)).masterSynced)

theorem Whole.ptpFollow {n : Nat} (hs : Whole ρ s) : Whole ρ (s.ptpFollow n) :=
  .ite (hs.guard (·.setPtp.ptpEnter)) (.ite (.ite hs hs.ptpEnter) (hs.guard (·.ptpEnter)))

theorem Whole.ptpQualify {n : Nat} {best : List Byte} (hs : Whole ρ s) : Whole ρ (s.ptpQualify n best) :=
  .ite hs hs.ptpEnter.setPtp

theorem Whole.ptpQualified {n : Nat} (hs : Whole ρ s) : Whole ρ (s.ptpQualified n) :=
  .ite hs (.ite hs.ptpEnter hs.setPtp)

theorem Whole.ptpDecide {n : Nat} (hs : Whole ρ s) : Whole ρ (s.ptpDecide n) := by
  unfold State.ptpDecide
  dsimp only
  refine .ite hs ?_
  split
  · exact .ite hs hs.ptpEnter
  · refine .ite hs.ptpEnter (.ite hs.ptpEnter ?_)
    split
    · exact .ite hs.ptpEnter hs.ptpQualify
    · exact .ite hs hs.ptpQualify

theorem Whole.ptpSend {n kind : Nat} {body : List Byte} (hs : Whole ρ s) : Whole ρ (s.ptpSend n kind body) :=
  hs.emit.count

theorem Whole.ptpNumbered {n k kind : Nat} {body : List Byte} (hs : Whole ρ s) :
    Whole ρ (s.ptpNumbered n k kind body) :=
  hs.setPtp.ptpSend

theorem Whole.execPtpAnnounceInterval {n : Port2} (hs : Whole ρ s) : Leaves ρ (execPtpAnnounceInterval n s) := by
  unfold Machine.execPtpAnnounceInterval
  dsimp only
  split
  · exact .next hs
  · split
    · exact .next hs.setPtp.ptpQualified.ptpDecide.masterSynced.ptpNumbered
    · exact .next hs.setPtp.ptpQualified.ptpDecide.masterSynced

theorem Whole.execDelayReqInterval {n : Port2} (hs : Whole ρ s) : Leaves ρ (execDelayReqInterval n s) := by
  unfold Machine.execDelayReqInterval
  dsimp only
  split
  · exact .next hs
  · split
    · split
      · exact .next hs.setPtp.ptpNumbered
      · exact .next hs
    · split
      · exact .next hs.setPtp.ptpNumbered
      · exact .next hs

theorem Whole.servoRate {n : Nat} {off : Int} (hs : Whole ρ s) : Whole ρ (s.servoRate n off) := hs.setPtp.setReg

theorem Whole.servo {n : Nat} {off : Int} (hs : Whole ρ s) : Whole ρ (s.servo n off) :=
  .ite hs.timeStep.setSynced.setPtp
    (.ite hs.servoRate.setPtp.setSynced (.ite hs.servoRate.setPtp.setSynced hs.servoRate.setPtp))

theorem Whole.ptpSynced {n : Nat} {ms : Int} (hs : Whole ρ s) : Whole ρ (s.ptpSynced n ms) :=
  .ite hs.setPtp.servo hs.setPtp

theorem Whole.ptpDelayed {n : Nat} {d : Int} (hs : Whole ρ s) : Whole ρ (s.ptpDelayed n d) :=
  .ite hs.setPtp.ptpEnter hs.setPtp

theorem Whole.ptpTake {n : Nat} {m : PtpMsg} (hs : Whole ρ s) : Whole ρ (s.ptpTake n m) := by
  unfold State.ptpTake
  dsimp only
  split
  · exact hs.setPtp
  · exact hs.guard (·.setPtp)
  · split
    · exact hs.guard (·.setPtp.ptpSynced)
    · exact hs
  · split
    · exact hs.guard (·.ptpDelayed)
    · exact hs
  · exact hs.guard (·.ptpSend)
  · exact hs.guard (·.ptpSend.ptpSend)
  · exact hs.guard (·.setPtp)
  · split
    · exact hs.ptpDelayed
    · exact hs
  · exact hs

theorem Whole.netEffect {off : Nat} {old v : W32} {q : Req} (hs : Whole ρ s) : Whole ρ (netEffect s off old v q) := by
  unfold Machine.netEffect
  split
  · exact hs.ptpFollow.ptpFollow
  · exact hs.guard (·.localGo)
  · exact hs.guard (·.setReg.ptpFollow)

/-! ## CAN -/

theorem Whole.setNmt {c x : Nat} (hs : Whole ρ s) : Whole ρ (s.setNmt c x) := hs.setFld

theorem Whole.canSend {c id : Nat} {fd : Bool} {bytes : List Byte} (hs : Whole ρ s) :
    Whole ρ (s.canSend c id fd bytes) :=
  hs.guard (·.emit.count)

theorem Whole.canBoot {c : Nat} (hs : Whole ρ s) : Whole ρ (s.canBoot c) :=
  (hs.setCan.forEach fun _ _ ht => ht.setTpdo).setNmt.canSend.setNmt

theorem Whole.nmtCommand {c cmd node : Nat} (hs : Whole ρ s) : Whole ρ (s.nmtCommand c cmd node) := by
  unfold State.nmtCommand
  refine .ite hs (.ite hs.count ?_)
  split
  · exact hs.count.setNmt
  · exact hs.count.setNmt
  · exact hs.count.setNmt
  · exact hs.count.canBoot
  · exact hs.count.canBoot
  · exact hs.count

theorem Whole.heartbeat {c node : Nat} (hs : Whole ρ s) : Whole ρ (s.heartbeat c node) := hs.setCan
theorem Whole.sdoSend {c : Nat} {b : List Byte} (hs : Whole ρ s) : Whole ρ (s.sdoSend c b) := hs.canSend

theorem Whole.sdoAbort {c idx sub : Nat} {code : W32} (hs : Whole ρ s) : Whole ρ (s.sdoAbort c idx sub code) :=
  hs.setCan.sdoSend

theorem Whole.sdoWrite {c idx sub : Nat} {data b : List Byte} (hs : Whole ρ s) :
    Whole ρ (s.sdoWrite c idx sub data b) :=
  .ite hs.odWrite.setCan.sdoSend hs.odWrite.sdoAbort

theorem Whole.sdoUpload {c idx sub : Nat} (hs : Whole ρ s) : Whole ρ (s.sdoUpload c idx sub) := by
  unfold State.sdoUpload
  split
  · exact hs.sdoAbort
  · exact .ite hs.setCan.sdoSend hs.setCan.sdoSend

theorem Whole.sdoUploadSegment {c : Nat} {x : SdoSt} (hs : Whole ρ s) : Whole ρ (s.sdoUploadSegment c x) :=
  hs.setCan.sdoSend

theorem Whole.sdoDownloadSegment {c cmd : Nat} {x : SdoSt} {l : List Byte} (hs : Whole ρ s) :
    Whole ρ (s.sdoDownloadSegment c cmd x l) :=
  .ite hs.sdoWrite hs.setCan.sdoSend

theorem Whole.sdoRequest {c : Nat} {l : List Byte} (hs : Whole ρ s) : Whole ρ (s.sdoRequest c l) := by
  unfold State.sdoRequest
  dsimp only
  split
  · exact .ite hs.sdoWrite hs.setCan.sdoSend
  · exact hs.sdoUpload
  · exact .ite hs.sdoAbort hs.sdoDownloadSegment
  · exact .ite hs.sdoAbort hs.sdoUploadSegment
  · exact hs.setCan
  · exact hs.sdoAbort

theorem Whole.rpdoWrite {l : List (Nat × Nat × Nat)} {c : Nat} {bs : List Byte} (hs : Whole ρ s) :
    Whole ρ (State.rpdoWrite l c bs s) := by
  induction l generalizing bs s with
  | nil => exact hs
  | cons x l ih => exact ih hs.odWrite

theorem Whole.rpdo {c r : Nat} {data : List Byte} (hs : Whole ρ s) : Whole ρ (s.rpdo c r data) :=
  .ite hs.fault hs.rpdoWrite

theorem Whole.canQueue {c : Nat} {f : CanFrame} (hs : Whole ρ s) : Whole ρ (s.canQueue c f) :=
  .ite hs.count.fault ((Whole.ite hs hs.dramWriteMany).setCan.setReg)

theorem Whole.canService {c : Nat} {f : CanFrame} (hs : Whole ρ s) (e : s.canService c f = some t) : Whole ρ t := by
  unfold State.canService at e
  dsimp only at e
  split at e
  · cases e
  · split at e
    · cases e; exact hs.nmtCommand
    · split at e
      · cases e; exact .ite hs.count.sdoRequest hs.count
      · split at e
        · cases e; exact hs.count.heartbeat
        · split at e <;> cases e
          exact hs.count.rpdo

theorem Whole.canReceive {c : Nat} {f : CanFrame} (hs : Whole ρ s) : Whole ρ (s.canReceive c f) := by
  refine .ite hs ?_
  split
  · next e => exact hs.canService e
  · exact hs.count.guard (·.canQueue)

theorem Whole.canEffect {off : Nat} {old v : W32} (hs : Whole ρ s) : Whole ρ (canEffect s off old v) :=
  hs.guard fun hs => .ite hs.setReg.setReg.canBoot (hs.guard (·.setReg.setReg))

/-! ## Power, reset and boot -/

theorem Whole.pwrWrite {v : W32} {q : Req} (hs : Whole ρ s) : Whole ρ (s.pwrWrite v q) := by
  unfold State.pwrWrite
  dsimp only
  split
  · exact hs.err
  · exact hs.setReg.forEach fun _ _ ht => ht.guard (·.setRbit)

theorem Whole.ranksRest (hs : Whole ρ s) : Whole ρ s.ranksRest :=
  hs.forEach fun _ _ ht => ht.forEach fun _ _ hu => .ite hu hu.enterSr

theorem Whole.trainPresent (hs : Whole ρ s) : Whole ρ s.trainPresent := hs.forEach fun _ _ ht => .ite ht ht.trainStart

theorem Whole.restLate {late : List McEdge} (hs : Whole ρ s) : Whole ρ (s.restLate late) :=
  hs.ranksRest.foldl fun _ _ ht => ht.guard (·.tsetLate)

theorem Whole.domGate {d : Dom} {late : List McEdge} (hs : Whole ρ s) : Whole ρ (s.domGate d late) := by
  unfold State.domGate
  split
  · exact hs.guard (·.dspGated)
  · exact hs.guard (·.dspGated)
  · exact hs.quinceGated.forEach fun _ _ ht => ht.engineLost
  · exact hs.quinceGated.forEach fun _ _ ht => ht.engineLost
  · exact (hs.restLate.forEach fun _ _ ht => ht.setMc).emptyDram

theorem Whole.domPower {d : Dom} (hs : Whole ρ s) : Whole ρ (s.domPower d) := by
  unfold State.domPower
  split
  · exact hs.dspOn
  · exact hs.dspOn
  · exact hs.quincePowered
  · exact hs.quincePowered
  · exact hs.trainPresent

theorem Whole.clkWrite {v : W32} {q : Req} (hs : Whole ρ s) : Whole ρ (s.clkWrite v q) :=
  .ite hs.err (.ite hs.err (.ite hs.setReg.rest hs.setReg))

theorem Whole.shiftWhy {code : Nat} (hs : Whole ρ s) : Whole ρ (s.shiftWhy code) := hs.setFld
theorem Whole.seeded (hs : Whole ρ s) : Whole ρ s.seeded := hs.setReg.drawn.setReg.drawn
theorem Whole.darkAll (hs : Whole ρ s) : Whole ρ s.darkAll := hs.forEach fun _ _ ht => ht.guard (·.emit)

/-- The registers a reset leaves are kept in canonical form. -/
theorem State.regsKept_wf (s : State) : s.regsKept.wf resetOf = true := by
  refine Store.wf_set (d := resetOf) _ _ ?_
  exact List.foldlRecOn (motive := fun m : Store W32 => m.wf resetOf = true) _ _ (Store.wf_empty _)
    fun m h a _ => Store.wf_set (d := resetOf) a (s.reg a) h

/-- A state whose registers and DRAM are in canonical form, with nothing else listed. -/
theorem Whole.ofReset {r : Store W32} {d : Store (BitVec 80)} (hr : r.wf resetOf = true)
    (hd : d.wf (fun _ => 0) = true) : Whole ρ { pending := ρ, regs := r, dram := d } :=
  ⟨by simp_all [State.memoryWf, Store.wf_empty], fun _ => rfl, rfl⟩

theorem Whole.resetAs {cause : Nat} {cold : Bool} (hs : Whole ρ s) : Whole ρ (s.resetAs cause cold) := by
  obtain ⟨hm, -, rfl⟩ := hs.darkAll
  have hd : s.darkAll.dram.wf (fun _ => 0) = true := by simp_all [State.memoryWf]
  exact (Whole.ofReset s.darkAll.regsKept_wf hd).rest.setReg.setRbit.seeded

theorem Whole.powerOn (hs : Whole ρ s) : Whole ρ s.powerOn := hs.emptyDram.rest.resetAs.setReg.setReg
theorem Whole.cycleOver (hs : Whole ρ s) : Whole ρ s.cycleOver := hs.rest
theorem Whole.resetBy {c : Nat} (hs : Whole ρ s) : Whole ρ (s.resetBy c) := .ite hs.rest hs.rest.resetAs.rest

theorem Whole.resetCtrl {warm cold retry minimal : Bool} (hs : Whole ρ s) :
    Whole ρ (s.resetCtrl warm cold retry minimal) :=
  .ite hs (.ite hs.resetBy (hs.guard fun hs => ((hs.guard (·.clearFails)).guard (·.rest)).resetBy))

theorem Whole.loadStored {x : CfgSlotNv} (hs : Whole ρ s) : Whole ρ (s.loadStored x) :=
  (hs.foldl fun _ _ ht => .ite ht.setZoneWord ht.setOdv).foldl fun _ _ ht => ht.setOdStr

theorem Whole.dspRest {b : Bool} (hs : Whole ρ s) : Whole ρ (s.dspRest b) := hs.guard (·.dspGated)

theorem Whole.minimalEnter (hs : Whole ρ s) : Whole ρ s.minimalEnter := by
  unfold State.minimalEnter
  extract_lets boot dsp off heads mems quince lanes ports stopped t
  have hoff : Whole ρ off := hs.setRbit.setRbit.dspRest.dspRest.setFld.setFld.setFld
  have hmems : Whole ρ mems := (hoff.forEach fun _ _ h => h.setRbit.setRbit).forEach fun _ _ h => h.setRbit
  have hlanes : Whole ρ lanes := hmems.quinceGated.quinceGated.forEach fun _ _ h => h.engineLost
  have ht : Whole ρ t := Whole.rest (hlanes.setRbit.forEach fun _ _ h => h.setRbit)
  clear_value t
  split
  · exact ht.loadStored
  · exact ht

theorem Whole.bootFail {why : Nat} (hs : Whole ρ s) : Whole ρ (s.bootFail why) :=
  have h1 := hs.shiftWhy.setFld
  .ite h1.minimalEnter h1.resetAs

theorem Whole.trainFailed {r : TrainResult} {t : State} (ht : Whole ρ t) : Whole ρ (s.trainFailed r t) :=
  ht.guard (·.bootFail)

theorem Whole.execWatchdog (hs : Whole ρ s) : Leaves ρ (execWatchdog s) := by
  unfold Machine.execWatchdog
  split
  · exact .next hs
  · exact .next (hs.count.resetBy.guard (·.bootFail))

theorem Whole.lifeFinish (hs : Whole ρ s) : Whole ρ s.lifeFinish := by
  unfold State.lifeFinish
  split
  · exact hs
  · exact (hs.emptyDram.rest.setFld.count.guard (·.fault)).event

theorem Whole.restoreFinish (hs : Whole ρ s) : Whole ρ s.restoreFinish := hs.guard (·.rest)
theorem Whole.firmwareNames (hs : Whole ρ s) : Whole ρ s.firmwareNames := hs.setOdStr.drawn.setOdv.drawn
theorem Whole.cfgSkip (hs : Whole ρ s) : Whole ρ s.cfgSkip := hs.setFld

theorem Whole.memEntry {a : Nat} {v : W32} (hs : Whole ρ s) : Whole ρ (s.memEntry a v) :=
  .ite hs (.ite hs.cfgSkip hs.setReg)

theorem Whole.memStart {l : List (Nat × W32)} (hs : Whole ρ s) : Whole ρ (s.memStart l) :=
  (hs.foldl fun _ _ ht => ht.guard (·.memEntry)).trainPresent.forEach fun _ _ ht => ht.guard (·.setMc.setRbit)

theorem Whole.imageStart {b : Bool} (hs : Whole ρ s) : Whole ρ (s.imageStart b) := by
  unfold State.imageStart
  dsimp only
  split
  · exact .ite hs.rest.setRbit.bootFail hs.rest.setRbit.rest.firmwareNames.setRbit.calBoot.memStart
  · exact hs.rest.setRbit.rest.firmwareNames.setRbit.calBoot.memStart

theorem Whole.nvmScan {flips : List (Nat × BitVec 72)} (hs : Whole ρ s) : Whole ρ (s.nvmScan flips) := hs.rest.fault

theorem Whole.execBootAttempt {sigs : BootSigs} {flips : List (Nat × BitVec 72)} (hs : Whole ρ s) :
    Leaves ρ (execBootAttempt sigs flips s) := by
  unfold Machine.execBootAttempt
  dsimp only
  split
  · exact .next hs
  · split
    · exact .next hs.cycleOver.nvmScan.lifeFinish.restoreFinish
    · split
      · exact .next hs.cycleOver.nvmScan.lifeFinish.restoreFinish.shiftWhy.minimalEnter
      · split
        · exact .next hs.cycleOver.nvmScan.lifeFinish.restoreFinish.minimalEnter
        · split
          · exact .next hs.cycleOver.nvmScan.lifeFinish.restoreFinish.bootFail
          · exact .next hs.cycleOver.nvmScan.lifeFinish.restoreFinish.imageStart

theorem Whole.replay {l : List (Nat × List Byte)} (hs : Whole ρ s) : Whole ρ (State.replay l s) := by
  induction l generalizing s with
  | nil => exact hs
  | cons x l ih => exact ih (.ite hs.odWrite hs.odWrite.cfgSkip)

theorem Whole.execBootDone (hs : Whole ρ s) : Leaves ρ (execBootDone s) := by
  unfold Machine.execBootDone
  split
  · refine .next (.event (.clearFails (.shiftWhy (.setRbit ?_))))
    split
    · exact hs.replay.foldl fun _ _ ht => ht.guard (·.memEntry)
    · exact hs
  · exact .next hs

theorem Whole.execNvmOperationDone {e : NvmEnd} (hs : Whole ρ s) : Leaves ρ (execNvmOperationDone e s) := by
  unfold Machine.execNvmOperationDone
  dsimp only
  split
  · exact .next hs
  · split
    · exact .next hs
    · split
      · exact .next (.ite hs.rest.event.storeCommit hs.rest.event.storeBroken)
      · exact .next hs.rest.event.storeDone
      · exact .next hs.rest.event.imageDone
      · exact .next (.ite hs.rest.event hs.rest.event.fault)
      · exact .next (.ite hs.rest.event.rest.resetAs hs.rest.event.rest.fault)

theorem Whole.lifeGo {q : Req} (hs : Whole ρ s) : Whole ρ (s.lifeGo q) := by
  unfold State.lifeGo
  split
  · exact hs.err
  · exact hs.err.fault
  · next e => exact (hs.lifeAsk e).event

theorem Whole.sysWrite {off : Nat} {v : W32} {q : Req} (hs : Whole ρ s) (e : s.sysWrite off v q = some t) :
    Whole ρ t := by
  unfold State.sysWrite at e
  split at e <;> cases e
  · exact hs.pwrWrite
  · exact hs.clkWrite

/-! ## The register bus -/

theorem Whole.errAt {t : State} {base off : Nat} (ht : Whole ρ t) : Whole ρ (s.errAt t base off) :=
  ht.guard (·.setFld)

theorem Whole.wideSnap {q : Req} {v : W72} {w : Nat} (hs : Whole ρ s) : Whole ρ (s.wideSnap q v w) :=
  hs.guard (·.setReq)

theorem Whole.laneEffect {ch off : Nat} {go : W32} {q : Req} (hs : Whole ρ s) : Whole ρ (s.laneEffect ch off go q) :=
  .ite (hs.guard (·.calGo)) (hs.guard (·.laneStage))

theorem Whole.headEffect {h off : Nat} {go : W32} {q : Req} (hs : Whole ρ s) : Whole ρ (s.headEffect h off go q) := by
  unfold State.headEffect
  split
  · exact hs.darken
  · exact hs.guard (·.probeCommitted)
  · exact hs.guard (·.chirpGo)
  · exact hs.thermCfgWritten
  · exact hs

theorem Whole.ceEffect {ch off : Nat} {old v go : W32} (hs : Whole ρ s) : Whole ρ (s.ceEffect ch off old v go) := by
  unfold State.ceEffect
  split
  · exact (hs.guard (·.totClear)).guard (·.engineEnabled)
  · exact .ite hs hs.laneRestart
  · exact hs.guard (·.totClear)
  · exact hs

theorem Whole.clEffect {cl off : Nat} {go : W32} {q : Req} (hs : Whole ρ s) : Whole ρ (s.clEffect cl off go q) := by
  unfold State.clEffect
  refine .ite hs ?_
  split
  · exact hs.hostSend
  · exact hs.hostOutPop
  · exact hs.hostBncPop
  · exact hs

theorem Whole.attnEffect {off : Nat} {go : W32} (hs : Whole ρ s) : Whole ρ (s.attnEffect off go) :=
  .ite hs.modWritten (hs.guard (·.exportPop))

theorem Whole.mcEffect {m off : Nat} {v go : W32} {q : Req} (hs : Whole ρ s) : Whole ρ (s.mcEffect m off v go q) :=
  .ite hs.mcDrain (.ite hs (.ite hs.freqGo (hs.guard (·.trainGo))))

theorem Whole.hkWritten {off : Nat} {old v go : W32} (hs : Whole ρ s) : Whole ρ (s.hkWritten off old v go) := by
  unfold State.hkWritten
  split
  · exact hs.guard (·.regTriggerFrom)
  · exact hs.guard (·.injTrigger)
  · exact hs.hkEffect

theorem Whole.blockEffect {b : Blk} {i off : Nat} {old v go w : W32} {q : Req} (hs : Whole ρ s) :
    Whole ρ (s.blockEffect b i off old v go w q) := by
  unfold State.blockEffect
  split
  · exact hs.headEffect
  · exact hs.laneEffect
  · exact hs.ceEffect
  · exact .ite hs.shotCapture hs.shotEffect
  · exact .ite hs.srcCtrlWritten (hs.guard (·.srcPolicyWritten))
  · exact hs.tdcEffect
  · exact hs.calEffect
  · exact hs.hkWritten
  · exact hs.pfeEffect
  · exact hs.loopEffect
  · exact hs.lampEffect
  · exact .ite (hs.guard (·.evPop)) (hs.guard (·.capFree))
  · exact hs.guard (·.dmaCtrlWrite)
  · exact hs.attnEffect
  · exact hs.netEffect
  · exact hs.canEffect
  · exact hs.clEffect
  · exact hs.mcEffect
  · exact hs
  · exact hs
  · exact hs

theorem Whole.ownWrite {b : Blk} {i off : Nat} {v go : W32} {q : Req} (hs : Whole ρ s)
    (e : s.ownWrite b i off v go q = some t) : Whole ρ t := by
  unfold State.ownWrite at e
  split at e
  · exact hs.sysWrite e
  · split at e
    · cases e; exact hs.assignWrite
    · split at e <;> cases e
      exact hs.coreCtrlWrite
  · cases e

theorem Whole.regWrite {q : Req} {b : Blk} {i off : Nat} {r : RegRow} {w : View} {d : W32} (hs : Whole ρ s) :
    Whole ρ (s.regWrite q b i off r w d) := by
  refine .ite hs ?_
  split
  · exact hs.err
  · split
    · next e => exact hs.ownWrite e
    · exact hs.setReg.blockEffect

theorem Whole.stage {q : Req} {a w : Nat} {d : W32} (hs : Whole ρ s) : Whole ρ (s.stage q a w d) := hs.setReq
theorem Whole.unstage {q : Req} (hs : Whole ρ s) : Whole ρ (s.unstage q) := hs.setReq

theorem Whole.wideWrite {q : Req} {a w : Nat} {d : W32} {base off : Nat} {f : W72 → State → State} (hs : Whole ρ s)
    (hf : ∀ x u, Whole ρ u → Whole ρ (f x u)) : Whole ρ (s.wideWrite q a w d base off f) := by
  unfold State.wideWrite
  refine .ite hs.stage ?_
  split
  · exact hf _ _ hs.unstage
  · exact hs.unstage.err

theorem Whole.wideCommit {q : Req} {b : Blk} {i lo : Nat} {v : W72} (hs : Whole ρ s) :
    Whole ρ (s.wideCommit q b i lo v) := by
  unfold State.wideCommit
  split
  · exact .ite hs.timeStep hs.err
  · exact hs.setWreg

theorem Whole.imemWrite {c e : Nat} {v : W72} (hs : Whole ρ s) : Whole ρ (s.imemWrite c e v) :=
  hs.setImem.guard fun h => h.setCore (CoreSt.sized_of_lengths ·)

theorem Whole.clusterCommit {cl e : Nat} {v : W72} (hs : Whole ρ s) (h : s.clusterCommit cl e v = .inr t) :
    Whole ρ t := by
  unfold State.clusterCommit at h
  dsimp only at h
  split at h
  · cases h
  · split at h
    · split at h <;> cases h
      exact hs.setSram
    · split at h
      · cases h
      · split at h <;> cases h
        exact hs.imemWrite
    · split at h <;> cases h
      exact hs.setCmem

theorem Whole.winCommit {q : Req} {x : WinEntry} {off : Nat} {v : W72} (hs : Whole ρ s) :
    Whole ρ (s.winCommit q x off v) := by
  unfold State.winCommit
  split
  · exact hs.probeWordWrite
  · exact hs.zoneCommit
  · exact hs.descCommit
  · exact hs.setGroups
  · split
    · exact hs.err
    · next e => exact hs.clusterCommit e
  · exact hs
  · exact hs

theorem Whole.stateCtrlBit {b : Nat} {v : Bool} {q : Req} (hs : Whole ρ s) : Whole ρ (s.stateCtrlBit b v q) :=
  .ite (hs.guard (·.lifeGo)) (.ite (hs.guard (·.setRbit.event)) (.ite hs (.ite hs.err hs.setRbit.event)))

theorem Whole.privWrite {p b : Nat} {v : Bool} {q : Req} (hs : Whole ρ s) : Whole ρ (s.privWrite p b v q) := by
  unfold State.privWrite
  split
  · exact hs.stateCtrlBit
  · exact hs.armWrite
  · exact .ite hs.emergSet hs.emergClear
  · exact hs.setRbit
  · exact hs.guard (·.resetCtrl)

theorem Whole.privWindowWrite {o : Nat} {d : W32} {q : Req} (hs : Whole ρ s) : Whole ρ (s.privWindowWrite o d q) :=
  .ite hs.privWrite hs.err

theorem Whole.readClear {b : Blk} {i off : Nat} {r : RegRow} {w : View} {v : W32} (hs : Whole ρ s) :
    Whole ρ (s.readClear b i off r w v) :=
  .ite hs hs.setReg

theorem Whole.busRead {q : Req} {a : Nat} (hs : Whole ρ s) : Whole ρ (s.busRead q a).2 := by
  unfold State.busRead
  split
  · exact hs
  · split
    · exact hs.err
    · exact hs.readClear.when fun _ ht => ht.drawn
    · exact hs.guard (·.wideSnap)
    · exact .iteSnd hs hs.wideSnap
    · exact hs
    · exact hs

theorem Whole.readBy {q : Req} {a : Addr} {be : BitVec 4} (hs : Whole ρ s) : Whole ρ (s.readBy q a be) :=
  hs.busRead.answer

theorem Whole.regTargetWrite {q : Req} {b : Blk} {i off : Nat} {r : RegRow} {w : View} {d : W32} (hs : Whole ρ s) :
    Whole ρ (s.regTargetWrite q b i off r w d) := by
  unfold State.regTargetWrite
  split
  · exact hs.err
  · exact hs.guard (·.ack)
  · exact hs.regWrite
  · exact hs
  · exact hs
  · exact hs

theorem Whole.busWrite {q : Req} {a : Nat} {d : W32} (hs : Whole ρ s) : Whole ρ (s.busWrite q a d) := by
  unfold State.busWrite
  refine .ite hs ?_
  split
  · exact hs.err
  · exact .ite hs.regTargetWrite hs.regTargetWrite.errAt
  · exact .ite hs (.ite (hs.guard (·.unstage)) (hs.wideWrite fun _ _ ht => ht.wideCommit))
  · exact .ite hs (.ite (hs.guard (·.unstage)) (hs.wideWrite fun _ _ ht => ht.winCommit))
  · exact hs.msixWrite
  · exact hs.privWindowWrite

theorem Whole.partialWrite {q : Req} {a : Nat} (hs : Whole ρ s) : Whole ρ (s.partialWrite q a) := by
  unfold State.partialWrite
  refine .ite hs ?_
  split
  · exact hs.err
  · exact hs.err
  · exact (hs.guard (·.unstage)).err
  · exact .ite hs ((hs.guard (·.unstage)).err)
  · exact hs.err
  · exact hs.err

theorem Whole.writeBe {q : Req} {a : Nat} {be : BitVec 4} {d : W32} (hs : Whole ρ s) : Whole ρ (s.writeBe q a be d) :=
  .ite hs.busWrite hs.partialWrite

theorem Whole.execRegisterWrite {q : Req} {a : Addr} {be : BitVec 4} {v : W32} {hi : Option (BitVec 4 × W32)}
    (hs : Whole ρ s) : Leaves ρ (execRegisterWrite q a be v hi s) := by
  unfold Machine.execRegisterWrite
  refine .next ?_
  split
  · exact hs.writeBe
  · exact hs.writeBe.writeBe

theorem Whole.execUnmappedAccess {q : Req} {a : Addr} {w : BusAccess} (hs : Whole ρ s) :
    Leaves ρ (execUnmappedAccess q a w s) := by
  unfold Machine.execUnmappedAccess
  refine .next ?_
  split
  · exact hs.readBy
  · exact hs.writeBe

/-! ## SORIC issue -/

theorem Whole.coreFault {c why pc : Nat} (hs : Whole ρ s) : Whole ρ (s.coreFault c why pc) :=
  (hs.setCore (CoreSt.sized_of_lengths ·)).fault

theorem Whole.portRead {c a : Nat} (hs : Whole ρ s) : Whole ρ (s.portRead c a).2 := by
  unfold State.portRead
  split
  · exact hs
  · exact hs
  · exact hs
  · exact hs
  · exact .iteSnd hs.setCluster hs

theorem Whole.portWrite {c a : Nat} {v : W72} (hs : Whole ρ s) : Whole ρ (s.portWrite c a v) := by
  unfold State.portWrite
  refine .ite ?_ (hs.guard (·.setCluster))
  split
  · exact hs
  · exact .ite hs.fault hs.setReg

theorem Whole.slotLoad {c own : Nat} {space : BitVec 2} {a : Nat} (hs : Whole ρ s) :
    Whole ρ (s.slotLoad c own space a).2 := by
  unfold State.slotLoad
  split
  · exact hs
  · exact hs
  · exact hs.portRead

theorem Whole.slotStore {c own : Nat} {space : BitVec 2} {a : Nat} {v : W72} (hs : Whole ρ s) :
    Whole ρ (s.slotStore c own space a v) := by
  unfold State.slotStore
  split
  · exact hs.setCmem
  · exact hs.setSram
  · exact hs.portWrite

theorem Whole.coreTime {c i n stalls : Nat} {gives : List (Nat × Nat)} (hs : Whole ρ s) :
    Whole ρ (s.coreTime c i n stalls gives) :=
  (hs.setCore (CoreSt.sized_of_lengths ·)).count.count

/-- The test at the end of a loop body keeps the number of loop counters. -/
theorem loopEnd_lc_length (pc : Nat) (lc : List (BitVec 16)) (l : List LoopSt) (next : Nat) :
    (loopEnd pc lc l next).2.1.length = lc.length := by
  cases l with
  | nil => rfl
  | cons x l =>
    unfold loopEnd
    cases l with
    | nil => dsimp only; split_ifs <;> simp [setNth]
    | cons o l => dsimp only; split_ifs <;> simp [setNth]

theorem Whole.sequence {c pc : Nat} (hs : Whole ρ s) : Whole ρ (s.sequence c pc) :=
  (hs.setCore (CoreSt.sized_of_lengths · (hlc := loopEnd_lc_length _ _ _ _))).guard (·.coreFault)

theorem Whole.branch {c n target : Nat} (hs : Whole ρ s) : Whole ρ (s.branch c n target) :=
  hs.setCore (CoreSt.sized_of_lengths ·)

theorem Whole.grantTo {c b : Nat} (hs : Whole ρ s) : Whole ρ (s.grantTo c b) := hs.setCluster

theorem Whole.slotGrant {c : Nat} {m : MoveF} {before : Option (Nat × Nat)} (hs : Whole ρ s) :
    Whole ρ (s.slotGrant c m before).2 :=
  .iteSnd hs.drawn.grantTo.count (.iteSnd hs.drawn hs)

theorem Whole.slotGrants {c : Nat} {x y : MoveF} (hs : Whole ρ s) : Whole ρ (s.slotGrants c x y).2.2 := by
  unfold State.slotGrants
  dsimp only
  exact hs.slotGrant.slotGrant

theorem Whole.slotLoads {c : Nat} {x y : MoveF} {nx ny : Nat} (hs : Whole ρ s) :
    Whole ρ (s.slotLoads c x y nx ny).2.2 := by
  have key {own n : Nat} {m : MoveF} {t : State} (ht : Whole ρ t) {a : Nat} : Whole ρ
    (if !moveLoads m then ([], [], t) else
      let (w, u) := t.slotLoad c own m.space a
      ([(m.greg.toNat, w)], [(m.greg.toNat, if m.space = 0 then 1 else 6 + n)], u)
      : List (Nat × W72) × List (Nat × Nat) × State).2.2 := by
    split
    · exact ht
    · exact ht.slotLoad
  exact key (key hs)

/-- MSR and LIS keep the register files whole. -/
theorem CoreSt.setSpecial_sized {x : CoreSt} (k : Nat) (v : W72) (h : x.sized = true) :
    (x.setSpecial k v).sized = true := by
  unfold CoreSt.setSpecial
  dsimp only
  split_ifs <;> exact CoreSt.sized_of_lengths h (hp := by simp [setNth]) (hm := by simp [setNth])
    (hl := by simp [setNth]) (hb := by simp [setNth]) (hlc := by simp [setNth])

/-- Elements of a list replaced in turn leave its length. -/
theorem foldl_setNth_length {α β : Type} (l : List β) (i : β → Nat) (v : β → α) (x : List α) :
    (l.foldl (fun x w => setNth x (i w) (v w)) x).length = x.length := by
  induction l generalizing x with
  | nil => rfl
  | cons w l ih => rw [List.foldl_cons, ih]; exact List.length_set

theorem writeBack_sized {x : CoreSt} (pc : Nat) (e : Effect) (loads : List (Nat × W72)) (det : Option Nat)
    (mods : List Nat) (h : x.sized = true) : (writeBack x pc e loads det mods).sized = true := by
  unfold writeBack
  extract_lets moved g acc govPc y z
  have hy : y.sized = true :=
    CoreSt.sized_of_lengths h (hg := foldl_setNth_length _ _ _ _) (hacc := by unfold acc; split <;> simp [setNth])
  have hz : z.sized = true := by
    unfold z
    split
    · exact CoreSt.setSpecial_sized _ _ hy
    · exact hy
  exact CoreSt.sized_of_lengths hz (hp := foldl_setNth_length _ _ _ _)

theorem Whole.parallel {c : Nat} {sl : Slot} {mx my : MoveF} (hs : Whole ρ s) : Whole ρ (s.parallel c sl mx my) := by
  unfold State.parallel
  dsimp only
  exact (((hs.slotGrants.slotLoads.guard (·.slotStore)).guard (·.slotStore)).setCore
    (writeBack_sized _ _ _ _ _)).coreTime.sequence

theorem Whole.plain {c : Nat} {uses : List Nat} {gives : List (Nat × Nat)} {f : CoreSt → CoreSt} (hs : Whole ρ s)
    (hf : ∀ x : CoreSt, x.sized = true → (f x).sized = true) : Whole ρ (s.plain c uses gives f) :=
  (hs.setCore (hf _)).coreTime.sequence

theorem Whole.branchTo {c : Nat} {uses : List Nat} {gives : List (Nat × Nat)} {n target : Nat} (hs : Whole ρ s) :
    Whole ρ (s.branchTo c uses gives n target) :=
  hs.coreTime.branch

theorem CoreSt.takeMsg_sized {x : CoreSt} (r : Nat) (m : Msg) (h : x.sized = true) : (x.takeMsg r m).sized = true :=
  CoreSt.sized_of_lengths h (hg := foldl_setNth_length _ _ _ _)

theorem Whole.receive {c : Nat} {r : BitVec 4} {wait bnc : Bool} (hs : Whole ρ s) :
    Whole ρ (s.receive c r wait bnc) := by
  unfold State.receive
  dsimp only
  split
  · exact .ite hs.coreTime (hs.plain fun _ h => h)
  next m rest _ =>
    refine hs.plain fun x h => ?_
    have hx := x.takeMsg_sized r.toNat m h
    split <;> exact CoreSt.sized_of_lengths hx

theorem Whole.sendMsg {c : Nat} {r : BitVec 4} (hs : Whole ρ s) : Whole ρ (s.sendMsg c r) :=
  hs.rest.plain fun _ h => h

theorem Whole.loopStart {c : Nat} {rc : Bool} {a : BitVec 4} {count : BitVec 16} {last : BitVec 11} (hs : Whole ρ s) :
    Whole ρ (s.loopStart c rc a count last) := by
  unfold State.loopStart
  dsimp only
  exact hs.plain fun _ h => CoreSt.sized_of_lengths h (hlc := List.length_set)

theorem Whole.act {c : Nat} {i : Soric} (hs : Whole ρ s) : Whole ρ (s.act c i) := by
  unfold State.act
  cases i with
  | par sl mx my => exact hs.parallel
  | br cc t n => exact .ite hs.branchTo (hs.plain fun _ h => h)
  | call d t => exact (hs.setCore (CoreSt.sized_of_lengths · (hg := List.length_set))).branchTo
  | jmp cc a n => exact .ite hs.branchTo (hs.plain fun _ h => h)
  | loop rc a n e => exact hs.loopStart
  | halt => exact (hs.plain fun _ h => h).guard (·.haltCore)
  | send r => exact hs.sendMsg
  | recv r w => exact hs.receive
  | rbnc r w => exact hs.receive
  | dbell => exact hs.event.plain fun _ h => h
  | lig r v => exact hs.plain fun _ h => CoreSt.sized_of_lengths h (hg := List.length_set)
  | lih r v => exact hs.plain fun _ h => CoreSt.sized_of_lengths h (hg := List.length_set)
  | lis k v => exact hs.plain fun _ h => CoreSt.setSpecial_sized _ _ h

theorem Whole.issue {c : Nat} {i : Soric} (hs : Whole ρ s) : Whole ρ (s.issue c i) := by
  unfold State.issue
  refine .ite hs ?_
  split
  · exact hs.coreFault
  · exact hs.act

theorem Whole.stepCore {c : Nat} (hs : Whole ρ s) : Whole ρ (s.stepCore c) := by
  unfold State.stepCore
  refine .ite hs ?_
  split
  · exact hs.issue
  · exact hs.coreFault

/-! ## Dispatch -/

/-- Every command leaves a state whose memories, cores and queue are whole. -/
theorem Whole.exec (hs : Whole ρ s) : (i : Instr) → Leaves ρ (exec i s)
  | .registerWrite .. => hs.execRegisterWrite
  | .setAliasWrite .. | .clrAliasWrite .. | .tglAliasWrite .. => .next (hs.guard (·.busWrite))
  | .unmappedAccess .. => hs.execUnmappedAccess
  | .clearingRead .. | .loRead .. => .next hs.readBy
  | .ackWrite .. | .stageWrite .. | .hiCommit .. | .bitAliasWrite .. | .timeStepCommit .. | .zoneEnable ..
  | .zoneDisable .. => .next hs.busWrite
  | .headokFall .. => hs.execHeadokFall
  | .headokRise .. => .next hs.setHead
  | .headokQualified .. => .ite (.next hs.setHead.setRbit) (.next hs)
  | .armWrite .. => .next (.ite hs hs.armWrite)
  | .probeCommit .. => .next (.ite hs hs.probeCommitted)
  | .chirpGo .. => .next (.ite hs hs.chirpGo)
  | .chirpDone .. => .ite (.next hs.fillProbe.setRbit) (.next hs)
  | .shotBoundary .. => .next (hs.guard (·.shotBoundary))
  | .subProbeLaunch .. => hs.execSubProbeLaunch
  | .lmonEdge .. => .ite (.next hs) (.next hs.lmonSeen.tdcEdge)
  | .lmonMiss .. => .ite (.next hs) (.ite (.next hs) (.next (.ite hs.setHead.setFld.fault hs.setHead.setFld)))
  | .headTempReading .. => .ite (.next hs) (.next hs.headTemp)
  | .headTempStale .. => .next hs.headStale
  | .calGo .. => .next (.ite hs hs.calGo)
  | .calSlotStart .. => .ite (.next hs.setLane.setRbit) (.next hs)
  | .calSlotEnd .. => hs.execCalSlotEnd
  | .schedEnable .. => hs.execSchedEnable
  | .schedLastPeriodEnd .. => hs.execSchedLastPeriodEnd
  | .followLost .. => .next (hs.guard (·.setRbit.fault))
  | .localSecond .. => .next (.ite hs hs.advance.secondPassed)
  | .alignWaitEnd .. => .next (hs.guard (·.setRbit.setRbit))
  | .shotCapture .. => .next (.ite hs hs.shotCapture)
  | .ocxoCheckStart .. => .next (hs.setOcxo.when fun _ ht => ht.setRbit)
  | .ocxoCheckDone .. => hs.execOcxoCheckDone
  | .ocxoLoss .. => hs.execOcxoLoss
  | .sourceSwitchTimeout => .next (hs.guard (·.switchSource))
  | .refPllUnlock => .ite (.next hs) (.next (hs.guard (·.setRbit.fault)))
  | .tdcEdge .. => .next (.ite (.ite hs hs.tdcEdge) (hs.guard (·.tdcEdge)))
  | .tdcComplete .. | .tdcWindowEnd .. => .ite (.next hs.tdcEnd) (.next hs)
  | .tdcArmGo .. | .tdcDisarm .. => .next (.ite hs hs.tdcArmWrite)
  | .tdcRearm .. => .ite (.next hs.tdcArm) (.next hs)
  | .tinEdge .. => hs.execTinEdge
  | .tdcLoopsLocked => .ite (.next hs) (.ite (.next hs.setFld) (.next hs))
  | .tdcUnlock .. => hs.execTdcUnlock
  | .tdcLate .. => .next hs.tdcLate
  | .replicaDone .. => .next hs.setRbit
  | .traceWindowEnd .. => hs.execTraceWindowEnd
  | .recordComplete .. => hs.execRecordComplete
  | .outRpWrite .. => .next (.ite hs hs.outRpWrite)
  | .flushDone .. => hs.execFlushDone
  | .totClear .. => .next (.ite hs hs.totClear)
  | .phaseRecord .. => hs.execPhaseRecord
  | .unwrapShot .. => hs.execUnwrapShot
  | .headerRingClear .. => .ite (.next hs) (.next hs.dramWriteMany.setChain)
  | .bandSample .. => .ite (.next hs) (.next (.ite hs.bandRestart.bandTake hs.bandRestart))
  | .bandFrameEnd .. => .ite (.next hs) (.next hs.setChain.mapBands.zoneFrame.frameOut)
  | .dtsFlushRead .. => .ite (.next hs.dtsAct) (.next hs)
  | .fuseShot .. => hs.execFuseShot
  | .fuseFrameEnd .. => hs.execFuseFrameEnd
  | .coreCommit .. | .coreHalt .. | .coreRun .. | .coreRelease .. => .next (.ite hs hs.coreCtrlWrite)
  | .vendorReload .. => hs.execVendorReload
  | .assignWrite .. => .next (.ite hs hs.assignWrite)
  | .messageArrive .. => hs.execMessageArrive
  | .messageBounce .. => hs.execMessageBounce
  | .hostSend .. => .next (.ite hs hs.hostSend)
  | .hostOutPop .. => .next (.ite hs hs.hostOutPop)
  | .hostBncPop .. => .next (.ite hs hs.hostBncPop)
  | .dspDomainGated .. => .next (hs.guard (·.dspGated.setRbit.setRbit))
  | .nop .. | .mov .. | .add .. | .adds .. | .sub .. | .subs .. | .cmp .. | .neg .. | .abs .. | .min .. | .max ..
  | .and .. | .or .. | .xor .. | .andn .. | .mull .. | .divr .. | .lnq .. | .mrs .. | .msr .. | .cadd .. | .csub ..
  | .cneg .. | .conj .. | .cswp .. | .cmul .. | .cmac .. | .extc .. | .extr .. | .exti .. | .lda .. | .aclr ..
  | .amov .. | .bfly .. | .stgend .. | .ang .. | .mag .. | .cis .. | .rot .. | .unw .. | .asr .. | .lsr .. | .rne ..
  | .shl .. | .shlw .. | .sat .. | .satu .. | .wrap .. | .casr .. | .crne .. | .cshl .. | .bits .. | .ins ..
  | .cls .. | .moveLd .. | .moveSt .. | .moveStd .. | .moveModify .. | .br .. | .call .. | .jmp .. | .loop ..
  | .halt .. | .send .. | .recv .. | .rbnc .. | .dbell .. | .lig .. | .lih .. | .lis .. => .next hs.issue
  | .zoneEvaluate .. => hs.execZoneEvaluate
  | .zoneInputWrite .. => .next (hs.getD fun _ e => hs.zoneInput e)
  | .zoneInputTick => .ite (.next hs) (.next (hs.forEach fun _ _ ht => .ite ht.setZone ht.setZone.zoneChanged))
  | .remoteWriteTimeout .. => hs.execRemoteWriteTimeout
  | .remoteWriteAck .. => .next hs.remoteAck
  | .remoteRefresh .. => .ite (.next hs.remoteSend) (.next hs)
  | .captureShotCopy .. => hs.execCaptureShotCopy
  | .captureDone .. => hs.execCaptureDone
  | .capFree .. => .next (.ite hs hs.capFree)
  | .evqPop .. => .next (.ite hs hs.evPop)
  | .dramRead .. => hs.execDramRead
  | .dramWrite .. => .ite (.next hs) (.next hs.dramWrite)
  | .rowTimeout .. => hs.execRowTimeout
  | .refreshDue .. => .next (.ite hs (.ite hs.owe (.ite hs.refreshes hs.refreshes.owe)))
  | .retryRetire .. => .ite (.next hs) (.next hs.setMc)
  | .alertNFall .. => .ite (.next hs) (.next hs.setMc.setRbit)
  | .caReplay .. => hs.execCaReplay
  | .trainGo .. => .next (.ite hs hs.trainGo)
  | .trainingDone .. => .ite (.next hs) (.next (.ite hs.trainOver.bootFail hs.trainOver))
  | .periodicTrain .. => .next (hs.guard (·.periodicEnd.trainFailed))
  | .freqGo .. => .next (.ite hs hs.freqGo)
  | .freqChangeSre .. =>
    .ite (.next hs) (.next ((hs.tsetHandOver.setRbit.forEach fun _ _ ht => ht.rankSre).setMc.tsetLate))
  | .memPllRelock .. => .ite (.next hs) (.next hs.setMc.setFld.trainStart)
  | .freqChangeDone .. => .ite (.next hs) (.next hs.trainEnd.freqOver.mcDrain)
  | .freqChangeReturn .. => .next (.ite hs hs.freqReturn.trainFailed)
  | .idleSelfRefresh .. => .ite (.next (.ite hs.precharge hs.enterSr.tsetLate)) (.next hs)
  | .selfRefreshExit .. => .ite (.next hs.setMc.mcDrain) (.next hs)
  | .rgnEnable .. => .next (.ite hs hs.rgnWrite)
  | .dmaGo .. => hs.execDmaGo
  | .dmaStop .. => hs.execDmaStop
  | .dmaBurst .. => hs.execDmaBurst
  | .descComplete .. => hs.execDescComplete
  | .bar2Read .. => hs.execBar2Read
  | .bar2Write .. => .ite (.next hs) (.next hs.bar2Put)
  | .exportPop .. => .next (.ite hs hs.exportPop)
  | .attnEvent .. => .ite (.next hs) (.next hs.event)
  | .moderationTimeout .. => .next (hs.guard (·.setVec.raise))
  | .msixUnmask .. => .ite (.next hs) (.next hs.msixWrite)
  | .lampFrameStart .. => hs.execLampFrameStart
  | .lampShiftDone .. => .ite (.next hs) (.ite (.next hs.setLamp.setRbit) (.next hs.setLamp.setRbit.count.fault))
  | .lampFrameEnd .. => hs.execLampFrameEnd
  | .psync .. => hs.execPsync
  | .busReply .. => .ite (.next hs) (.ite (.next hs.busFail) (.next hs.outUpdates.nextPoll))
  | .busReplyTimeout .. => .ite (.next hs.busFail) (.next hs)
  | .matrixPlane .. => hs.execMatrixPlane
  | .emergBlankSet .. => .next (.ite hs hs.emergSet)
  | .emergBlankClear .. => .next (.ite hs hs.emergClear)
  | .thStaleExpire .. => .next hs.thStale
  | .padcPassStart .. => .next (hs.guard fun hs => (hs.guard (·.fault)).rest.padcEnter.padcShow)
  | .padcOutput .. => .next (.ite hs (.ite hs.padcForm.padcStop (.ite hs.padcOpen hs.padcOutput)))
  | .padcResultConvert .. => hs.execPadcResultConvert
  | .padcOpenDetect => .next (hs.guard (·.padcOpen))
  | .padcOpenRetryTimeout => .next (hs.guard (·.padcResult.padcNext))
  | .burnoutTest .. => .next (hs.foldl fun _ _ ht => ht.guard (·.burnout))
  | .hadcRegGo .. => .next (.ite hs hs.regTriggerFrom)
  | .hadcRegTimer => .next hs.regTriggerFrom
  | .hadcInjGo .. => .next (.ite hs (hs.guard (·.injTrigger)))
  | .hadcInjTrigger .. => .next (hs.guard (·.injTrigger))
  | .hadcConversionDone .. => hs.execHadcConversionDone
  | .refSettled | .vrefxRangeChange .. => .ite (.next hs) (.next hs.rest.refJudge)
  | .loopTargetUpdate .. => .ite (.next hs) (.next hs.loopForm)
  | .loopReadback .. => .ite (.next hs) (.next hs.setReg)
  | .loopHostTimeout .. | .loopMismatch .. | .loopOpen .. =>
    .ite (.next hs) (.next (hs.guard (·.setLoopOut.fault.loopForm)))
  | .quinceTempRead .. => .ite (.next hs) (.next (.ite hs hs.rest.hadcKick.calTriggers))
  | .laneStepStart .. => .next hs.laneStart
  | .laneStepSlotResult .. => .next (.ite hs (.ite hs.slotResult.laneReqBeside hs.slotResult))
  | .iqAccumDone .. => hs.execIqAccumDone
  | .padcCalStep .. => hs.execPadcCalStep
  | .matchStep .. => hs.execMatchStep
  | .calStore .. => .next (.ite hs (.ite hs.storeFail (.ite hs.rest.event.storeFail hs.rest.rest.calShow)))
  | .calGoAll .. => .next (.ite hs hs.calGoAll)
  | .calGoPadc .. => .next (.ite hs hs.calGoPadc)
  | .calGoMatch .. => .next (.ite hs hs.calGoMatch)
  | .calGoStore .. => .next (.ite hs hs.calGoStore)
  | .laneReq .. => .next (.ite hs hs.laneReq)
  | .dictRead .. => hs.execDictRead
  | .dictWrite .. => .next hs.odRequest
  | .store .. => hs.execStore
  | .restoreDefaults .. => hs.execRestoreDefaults
  | .subscribeAdd .. => .ite (.next hs.subscribeAdd.emit) (.next hs)
  | .subscribeRemove .. => .ite (.next hs.subscribeRemove.emit) (.next hs)
  | .subscribeClear .. => .ite (.next hs.subscribeClear.emit) (.next hs)
  | .subscriptionLeaseExpire .. => .ite (.next hs.subscribeRemove) (.next hs)
  | .yarfelFrameRx .. => .ite (.next hs.yarfelFrame) (.next hs)
  | .sessionOpen .. => .ite (.next hs.sessionOpen) (.next hs)
  | .sessionConfirm .. => .next hs.sessionConfirm
  | .sessionConfirmTimeout .. => .ite (.next hs.setSession) (.next hs)
  | .sessionIdleTimeout .. => .ite (.next hs.sessionClose) (.next hs)
  | .broadcastWrite .. => .ite (.next hs.broadcastWrite) (.next hs)
  | .localGo .. => .next (.ite hs hs.localGo)
  | .ptpMessageRx .. => .ite (.next hs) (.ite (.next hs.count.ptpTake) (.next hs.count))
  | .ptpAnnounceInterval .. => hs.execPtpAnnounceInterval
  | .ptpAnnounceTimeout .. => .ite (.next hs) (.ite (.next hs.setPtp.ptpEnter) (.next hs.setPtp.ptpDecide))
  | .ptpSyncInterval .. => .ite (.next hs) (.next hs.ptpNumbered.ptpSend)
  | .nmtStart .. | .nmtStop .. | .nmtPreOperational .. | .nmtResetCommunication .. => .next hs.nmtCommand
  | .sdoRequest .. => .ite (.next hs) (.ite (.next hs.count.sdoRequest) (.next hs.count))
  | .heartbeatProduce .. => .ite (.next hs.canSend) (.next hs)
  | .heartbeatLoss .. => .ite (.next hs) (.ite (.next hs.setCan.event) (.next hs.setCan.fault))
  | .tpdoTransmit .. => .ite (.next hs.setTpdo.canSend) (.next hs)
  | .tpdoEventTimer .. => .ite (.next hs) (.next (hs.getD fun _ e => hs.tpdoAsk e))
  | .rpdoReceive .. => .ite (.next hs.count.rpdo) (.next hs.canReceive)
  | .canRxFrame .. | .heartbeatReceive .. => .next hs.canReceive
  | .canBusOff .. => .ite (.next hs.setFld.fault) (.next hs)
  | .canBusOffRecovery .. => .ite (.next hs.setFld.setReg) (.next hs)
  | .ethernetFrameRx .. => hs.execEthernetFrameRx
  | .linkLoss .. => .ite (.next hs) (.next hs.setReg.fault.ptpFollow)
  | .por => .next hs.powerOn.rest
  | .resetN | .brownout | .glitch => .next hs.resetBy
  | .softCold .. | .softWarm .. | .retry .. | .minimal .. => .next hs.resetCtrl
  | .watchdog => hs.execWatchdog
  | .dieHot => .next (.ite hs hs.resetBy)
  | .supplyWarn | .dieHotWarning => .ite (.next hs) (.next hs.fault)
  | .perstN => .next hs.emptyMsix.rest.setReg
  | .bootAttempt .. => hs.execBootAttempt
  | .bootFailure .. => .ite (.next hs.bootFail) (.next hs)
  | .dramFillDone => .ite (.next hs.emptyDram.rest) (.next hs)
  | .bootDone => hs.execBootDone
  | .pwrCtrlWrite .. => .ite (.next hs) (.next hs.pwrWrite)
  | .domainPowered .. => .ite (.next hs.setRbit.setRbit.domPower) (.next hs)
  | .domainReadyToGate .. => .ite (.next hs.domGate.setRbit.setRbit) (.next hs)
  | .domainFail .. => .ite (.next hs.setRbit.fault) (.next hs)
  | .cclkSelChange .. => .ite (.next hs) (.next hs.clkWrite)
  | .imageWrite .. => hs.execImageWrite
  | .nvmOperationDone .. => hs.execNvmOperationDone
  | .lifeGo .. => .ite (.next hs) (.next hs.lifeGo)
  | .alertNRise .. => .ite (.next hs) (.ite (.next hs.setMc.setRbit.count.fault) (.next hs.setMc.setRbit.count.fault))
  | .configurationSpaceWrite .. =>
    .ite (.next hs) (.next (hs.setRbit.setRbit.rest.forEach fun _ _ ht => ht.msixRelease))
  | .loopMismatchClear .. => .ite (.next hs) (.next (.ite hs hs.setLoopOut.loopForm))
  | .loopOpenClear .. => .ite (.next hs) (.next hs.setLoopOut.loopForm)
  | .delayReqInterval .. => hs.execDelayReqInterval
  | .canErrstateChange .. => .ite (.next hs) (.next hs.setReg.setFld)
  | .linkUp .. => .ite (.next hs) (.next hs.setReg.ptpFollow)
  | .dieHotRelease | .corePllRelock => .next hs.rest
  | .refPllRelock => .ite (.next hs) (.next hs.setRbit)
  | .boReqInterval => .ite (.next hs) (.next (.ite hs.boRequest.swapCheck hs.boRequest))
  | .excitationComplianceHeld => .next (hs.guard (·.setRbit.padcBegin))

/-! ## The tick -/

theorem Whole.tick (hs : Whole ρ s) : Whole ρ s.tick :=
  .ite hs.cycleOver ((hs.cycleOver.cycle.forEach fun _ _ ht => ht.stepCore).notifyWaiting.selfWrite)

end

/-! ## The step -/

/-- A step from a whole state leaves a whole state in which the commands behind the front wait. -/
theorem step_leaves {s : State} (m : s.memoryWf = true) (c : ∀ k, (s.core k).sized = true) :
    Leaves (s.pending.drop 1) (step s) := by
  unfold step
  split
  · next e => exact .next (Whole.tick ⟨m, c, by simp [e]⟩)
  · next i rest e =>
    rw [e]
    exact Whole.exec (s := { s with pending := rest }) ⟨m, c, rfl⟩ i

/-- Settles O58, by the preservation lemma of the tick for an empty queue and of the commands for any other. -/
theorem everyStepKeepsStateWellFormed : Obligations.EveryStepKeepsStateWellFormed := by
  intro s t m c e
  have h := step_leaves m c
  rw [e] at h
  obtain ⟨mem, cores, queue⟩ := h
  exact ⟨mem, cores, queue⟩

end Sys2Proof.Machine
end

section
/-!
PROOFS. The state after reset (O60): the reset column of the register maps, and each other part of the state evaluated.
-/
namespace Sys2Proof.Machine

/-- One register is written at reset, BOOT_STAT; every other one reads as its map says. -/
theorem State.reset_reg {a : Nat} (h : a ≠ Reg.sysBootStat) : State.reset.reg a = resetOf a := 
  if_neg (Ne.symm h)

/-- BOOT_STAT shows the power-on reset in COLD. -/
theorem State.reset_cold : State.reset.fld Reg.sysBootStat 5 5 = 1 := by decide

theorem State.reset_can (c : Port2) :
    State.reset.reg (Reg.canNode c) = 1 ∧ State.reset.reg (Reg.canCfg c) = 0x120 := by
  revert c; decide

theorem State.reset_memoryWf : State.reset.memoryWf = true := by decide

theorem State.reset_core (c : Nat) :
    (State.reset.core c).mode = .free ∧ (State.reset.core c).role = 0 ∧ (State.reset.core c).vendor = false :=
  ⟨rfl, rfl, rfl⟩

theorem State.reset_head (h : Head) :
    State.reset.lasen h = false ∧ State.reset.gatesLow h = true ∧ State.reset.laserSafe h = true := by
  revert h; decide

theorem State.reset_fault : ∀ a ∈ [Reg.sysFault, Reg.netFault, Reg.canFault, Reg.mcFault 0, Reg.mcFault 1, Reg.lifeFault,
    Reg.nvmFault], State.reset.reg a = 0 := by decide

/-- The RS registers are many more than `decide` unfolds by itself, so the kernel evaluates them. -/
theorem State.reset_anyFault : State.reset.anyFault = false := by decide +kernel

/-- Settles O60: the reset column of every register, then each part of the state evaluated at reset. -/
theorem resetState : Obligations.ResetState :=
  ⟨fun _ => State.reset_reg, State.reset_cold, State.reset_can, State.reset_memoryWf, State.reset_core,
    State.reset_head, State.reset_fault, State.reset_anyFault, rfl, rfl, rfl⟩

end Sys2Proof.Machine
end

section
/-!
PROOFS. Words and registers written a bit or a field at a time: what is read after such a write.
-/
namespace Sys2Proof.Machine

/-- A bit of a word after bit i was written. -/
theorem bitOf_withBit {w i : Nat} (v : BitVec w) (b : Bool) (j : Nat) (hi : i < w) :
    bitOf (withBit v i b) j = if j = i then b else bitOf v j := by
  have hm : (BitVec.ofNat w (2 ^ i)).getLsbD j = decide (j = i) := by
    rw [BitVec.getLsbD_ofNat, Nat.testBit_two_pow]
    by_cases h : j = i
    · simp [h, hi]
    · simp [h, Ne.symm h]
  cases b with
  | true =>
    simp only [bitOf, withBit, if_true, BitVec.getLsbD_or, hm]
    split <;> simp [*]
  | false =>
    simp only [bitOf, withBit, Bool.false_eq_true, if_false, BitVec.getLsbD_and, BitVec.getLsbD_not, hm]
    split
    · simp [*]
    · simpa [*] using BitVec.lt_of_getLsbD

/-- A field reads what was written to it, modulo its size. -/
theorem field_withField {w hi lo : Nat} (v : BitVec w) (x : Nat) (h : hi < w) :
    field (withField v hi lo x) hi lo = x % 2 ^ (hi + 1 - lo) := by
  refine Nat.eq_of_testBit_eq fun i => ?_
  rw [field, Nat.testBit_mod_two_pow, Nat.testBit_mod_two_pow, Nat.testBit_div_two_pow, BitVec.testBit_toNat]
  by_cases hn : i < hi + 1 - lo
  · have hw : i + lo < w := by omega
    have hmask : ((2 ^ (hi + 1 - lo) - 1) * 2 ^ lo).testBit (i + lo) = true := by
      simp [Nat.testBit_mul_two_pow, hn]
    have hx : (x * 2 ^ lo).testBit (i + lo) = x.testBit i := by simp [Nat.testBit_mul_two_pow]
    simp only [withField, BitVec.getLsbD_or, BitVec.getLsbD_and, BitVec.getLsbD_not, BitVec.getLsbD_ofNat, hmask, hx]
    simp [hw]
  · simp [hn]

theorem State.rbit_setRbit_same (s : State) (a i : Nat) (b : Bool) (hi : i < 32) : (s.setRbit a i b).rbit a i = b := by
  simp [State.rbit, State.setRbit, bitOf_withBit, hi]

theorem State.rbit_setRbit_ne (s : State) (a : Nat) {i j : Nat} (b : Bool) (hi : i < 32) (h : j ≠ i) :
    (s.setRbit a i b).rbit a j = s.rbit a j := by
  simp [State.rbit, State.setRbit, bitOf_withBit, hi, h]

theorem State.fld_setFld_same (s : State) (a : Nat) {hi : Nat} (lo x : Nat) (h : hi < 32) :
    (s.setFld a hi lo x).fld a hi lo = x % 2 ^ (hi + 1 - lo) := by
  simp [State.fld, State.setFld, field_withField, h]

/-- What a bit reads after a repetition that sets, for each d of a list that c picks, bit g d of the register. -/
theorem State.rbit_forEach_setRbit (a : Nat) (c : Nat → Bool) (g : Nat → Nat) (j : Nat) :
    (l : List Nat) → (s : State) → (∀ d ∈ l, g d < 32) →
    (forEach l (fun d t => if c d then t.setRbit a (g d) true else t) s).rbit a j =
      (s.rbit a j || l.any fun d => c d && decide (j = g d))
  | [], s, _ => by simp [forEach]
  | d :: l, s, h => by
    have hd : (if c d then s.setRbit a (g d) true else s).rbit a j = (s.rbit a j || c d && decide (j = g d)) := by
      split
      · by_cases e : j = g d
        · subst e; simp [*, State.rbit_setRbit_same]
        · simp [*, State.rbit_setRbit_ne]
      · simp [*]
    rw [List.any_cons, ← Bool.or_assoc, ← hd]
    exact State.rbit_forEach_setRbit a c g j l _ fun d hd => h d (List.mem_cons_of_mem _ hd)

end Sys2Proof.Machine
end

section
/-!
PROOFS. What a shot boundary does to the schedulers (O10): on a device that is not shut what O10 says of it, and a shut
device on which O10 fails.

`Dated p s₀ s` says that s and s₀ show one local time, and for every scheduler one index, one stamp and one answer to
whether it has started; where p holds, DRAM holds the same too. A boundary dates its head once, in `schedTakes`; each
other function it calls has one lemma `Dated.f`, whose proof follows the body of the function.
-/
namespace Sys2Proof.Machine

/-- What a scheduler shows of its last boundary: index, stamp, and whether it has started. -/
def SchedSt.last (x : SchedSt) : BitVec 48 × W72 × Bool := (x.index, x.stamp, x.started)

/-- s shows the local time and the schedulers' last boundaries of s₀, and its DRAM where p holds. -/
structure Dated (p : Prop) (s₀ s : State) : Prop where
  now : s.time.now = s₀.time.now
  last : ∀ k, (s.sched k).last = (s₀.sched k).last
  dram : p → s.dram = s₀.dram

section
variable {p : Prop} {s₀ s t : State}

theorem Dated.refl : Dated p s s := ⟨rfl, fun _ => rfl, fun _ => rfl⟩

/-- What leaves local time, the schedulers and DRAM as they are. -/
theorem Dated.same (hs : Dated p s₀ s)
    (e : (t.time.now, t.scheds, t.dram) = (s.time.now, s.scheds, s.dram)) : Dated p s₀ t := by
  simp only [Prod.mk.injEq] at e
  obtain ⟨n, c, d⟩ := e
  exact ⟨n.trans hs.now, fun k => by rw [State.sched, c]; exact hs.last k, fun h => d.trans (hs.dram h)⟩

/-- Where DRAM is not asked for, it may take any value. -/
theorem Dated.anyDram (hs : Dated False s₀ s) (e : (t.time.now, t.scheds) = (s.time.now, s.scheds)) :
    Dated False s₀ t := by
  simp only [Prod.mk.injEq] at e
  obtain ⟨n, c⟩ := e
  exact ⟨n.trans hs.now, fun k => by rw [State.sched, c]; exact hs.last k, False.elim⟩

theorem Dated.ite {c : Prop} {d : Decidable c} (hs : Dated p s₀ s) (ht : Dated p s₀ t) :
    Dated p s₀ (if c then s else t) := by
  split
  · exact hs
  · exact ht

theorem Dated.iteSnd {α : Type} {c : Prop} {d : Decidable c} {x y : α × State} (hx : Dated p s₀ x.2)
    (hy : Dated p s₀ y.2) : Dated p s₀ (if c then x else y).2 := by
  split
  · exact hx
  · exact hy

theorem Dated.guard {c : Prop} {d : Decidable c} (hs : Dated p s₀ s) (k : Dated p s₀ s → Dated p s₀ t) :
    Dated p s₀ (if c then t else s) :=
  (k hs).ite hs

theorem Dated.forEach {l : List Nat} {f : Nat → State → State} (hs : Dated p s₀ s)
    (k : ∀ i t, Dated p s₀ t → Dated p s₀ (f i t)) : Dated p s₀ (forEach l f s) :=
  forEach_keeps (Dated p s₀) f l s k hs

/-! ## One register or one record -/

theorem Dated.raiseOnly (hs : Dated p s₀ s) (k : s.RaiseOnly t) : Dated p s₀ t := by
  obtain ⟨r, v, x, m, n, f, rfl⟩ := k
  exact hs.same rfl

theorem Dated.event {v : Nat} (hs : Dated p s₀ s) : Dated p s₀ (s.event v) := hs.raiseOnly (s.event_raiseOnly _)
theorem Dated.fault {a m : Nat} (hs : Dated p s₀ s) : Dated p s₀ (s.fault a m) := hs.raiseOnly (s.fault_raiseOnly _ _)
theorem Dated.err {b : Nat} {c : Cause} {o : Nat} {q : Req} (hs : Dated p s₀ s) : Dated p s₀ (s.err b c o q) :=
  hs.raiseOnly (s.err_raiseOnly _ _ _ _)

theorem Dated.setReg {a : Nat} {v : W32} (hs : Dated p s₀ s) : Dated p s₀ (s.setReg a v) := hs.same rfl
theorem Dated.setWreg {a : Nat} {v : W72} (hs : Dated p s₀ s) : Dated p s₀ (s.setWreg a v) := hs.same rfl
theorem Dated.setFld {a hi lo x : Nat} (hs : Dated p s₀ s) : Dated p s₀ (s.setFld a hi lo x) := hs.setReg
theorem Dated.setRbit {a i : Nat} {b : Bool} (hs : Dated p s₀ s) : Dated p s₀ (s.setRbit a i b) := hs.setReg
theorem Dated.count {a n : Nat} (hs : Dated p s₀ s) : Dated p s₀ (s.count a n) := hs.setReg
theorem Dated.setHead {h : Nat} {x : HeadSt} (hs : Dated p s₀ s) : Dated p s₀ (s.setHead h x) := hs.same rfl
theorem Dated.setLane {ch : Nat} {x : LaneSt} (hs : Dated p s₀ s) : Dated p s₀ (s.setLane ch x) := hs.same rfl
theorem Dated.setTdc {u : Nat} {x : TdcSt} (hs : Dated p s₀ s) : Dated p s₀ (s.setTdc u x) := hs.same rfl
theorem Dated.setCe {ch : Nat} {x : CeSt} (hs : Dated p s₀ s) : Dated p s₀ (s.setCe ch x) := hs.same rfl
theorem Dated.setMc {m : Nat} {x : McSt} (hs : Dated p s₀ s) : Dated p s₀ (s.setMc m x) := hs.same rfl
theorem Dated.setBank {k : Nat} {x : BankSt} (hs : Dated p s₀ s) : Dated p s₀ (s.setBank k x) := hs.same rfl
theorem Dated.setCore {c : Nat} {x : CoreSt} (hs : Dated p s₀ s) : Dated p s₀ (s.setCore c x) := hs.same rfl
theorem Dated.setCluster {c : Nat} {x : ClusterSt} (hs : Dated p s₀ s) : Dated p s₀ (s.setCluster c x) := hs.same rfl
theorem Dated.setChain {ch : Nat} {x : ChainSt} (hs : Dated p s₀ s) : Dated p s₀ (s.setChain ch x) := hs.same rfl

theorem Dated.setDramOut {w : W72 × Bool} (hs : Dated p s₀ s) : Dated p s₀ { s with dramOut := w } := hs.same rfl
theorem Dated.setHadc {x : HadcSt} (hs : Dated p s₀ s) : Dated p s₀ { s with hadc := x } := hs.same rfl
theorem Dated.setQuince {x : QuinceSt} (hs : Dated p s₀ s) : Dated p s₀ { s with quince := x } := hs.same rfl
theorem Dated.setSwitch {x : Option Bool} (hs : Dated p s₀ s) :
    Dated p s₀ { s with time := { s.time with switchTo := x } } := hs.same rfl

theorem Dated.setDramCell {m a : Nat} {w : BitVec 80} (hs : Dated False s₀ s) : Dated False s₀ (s.setDramCell m a w) :=
  hs.anyDram rfl

/-- A scheduler takes a record that shows the same last boundary. -/
theorem Dated.setSched {h : Nat} {x : SchedSt} (hs : Dated p s₀ s) (hx : x.last = (s.sched h).last := by rfl) :
    Dated p s₀ (s.setSched h x) := by
  refine ⟨hs.now, fun k => ?_, hs.dram⟩
  by_cases e : k = h
  · rw [e, State.sched_setSched_same, hx]; exact hs.last h
  · rw [State.sched_setSched_ne _ _ e]; exact hs.last k

/-! ## Memory controllers -/

theorem Dated.retryPush {m : Nat} {c : RetryCmd} (hs : Dated p s₀ s) : Dated p s₀ (s.retryPush m c) :=
  .ite hs.setMc hs.setMc

theorem Dated.activate {m bank row : Nat} (hs : Dated p s₀ s) : Dated p s₀ (s.activate m bank row).2 :=
  have h1 := hs.retryPush
  .iteSnd (.iteSnd h1.setReg h1.setReg) h1

theorem Dated.neighbourRefresh {m bank n : Nat} {l : List Nat} (hs : Dated p s₀ s) :
    Dated p s₀ (State.neighbourRefresh m bank n l s) := by
  induction n generalizing l s with
  | zero => exact hs
  | succ n ih =>
    cases l with
    | nil => exact hs
    | cons r l => exact ih hs.activate.retryPush.count

theorem Dated.rowOpen {m bank row : Nat} (hs : Dated p s₀ s) : Dated p s₀ (s.rowOpen m bank row).2 := by
  unfold State.rowOpen
  refine .setBank ?_
  split
  · exact .iteSnd hs hs.retryPush.activate
  · exact hs.activate

theorem Dated.rowClose {m bank row : Nat} {last : Bool} {ns : List Nat} (hs : Dated p s₀ s) :
    Dated p s₀ (s.rowClose m bank row last ns) :=
  (Dated.ite hs.setBank (.ite hs.retryPush.setBank hs.setBank)).neighbourRefresh

theorem Dated.mcCommand {m bank col : Nat} {r : McReq} {shut : Bool} (hs : Dated False s₀ s) :
    Dated False s₀ (s.mcCommand m bank col r shut) := by
  unfold State.mcCommand
  dsimp only
  refine .ite hs.retryPush.setDramCell ?_
  have read := hs.retryPush (m := m) (c := .rd bank col r.a shut)
  split
  · exact read.setDramOut
  · exact read.setDramOut.count.fault.guard (·.setMc)
  · exact read.setDramOut.setWreg.count.fault
  · exact read.setDramOut.setWreg.count.fault

theorem Dated.mcServeOne {m : Nat} {r : McReq} (hs : Dated False s₀ s) : Dated False s₀ (s.mcServeOne m r) :=
  hs.rowOpen.mcCommand.rowClose

theorem Dated.mcServe {m n : Nat} (hs : Dated False s₀ s) : Dated False s₀ (State.mcServe m n s) := by
  induction n generalizing s with
  | zero => exact hs
  | succ n ih =>
    refine .ite hs ?_
    dsimp only
    split
    · exact hs
    · exact ih hs.setMc.mcServeOne

theorem Dated.mcRequest {m : Nat} {r : McReq} (hs : Dated False s₀ s) : Dated False s₀ (s.mcRequest m r) :=
  .ite hs.setMc hs.mcServeOne.mcServe

theorem Dated.dramRead {a : Nat} (hs : Dated False s₀ s) : Dated False s₀ (s.dramRead a).2 := by
  unfold State.dramRead
  dsimp only
  split
  · exact hs.fault
  · split
    · exact hs
    · split
      · exact hs
      · exact hs.mcRequest

theorem Dated.dramWrite {a : Nat} {v : W72} {poison : Bool} (hs : Dated False s₀ s) :
    Dated False s₀ (s.dramWrite a v poison) :=
  .ite hs.fault (.ite hs (Dated.ite hs hs.setMc).mcRequest)

/-! ## Lanes and time-interval units -/

theorem Dated.closeLane {ch : Nat} {per : PeriodSt} {outs : List Int} {c : Array Int} {l : Nat} (hs : Dated p s₀ s) :
    Dated p s₀ (s.closeLane ch per outs c l).2.2 :=
  have h1 := hs.count.count
  ((Dated.ite h1.setReg.setReg h1.setReg).guard (·.setRbit)).setRbit

theorem Dated.closeLanes {ch : Nat} {raw : ChCodes} (hs : Dated p s₀ s) : Dated p s₀ (s.closeLanes ch raw) := by
  unfold State.closeLanes
  dsimp only
  generalize List.range 6 = l
  refine .setLane (List.foldlRecOn (motive := fun acc : List W72 × Nat × State => Dated p s₀ acc.2.2) _ _ hs ?_)
  exact fun _ h _ _ => h.closeLane

theorem Dated.laneFaults {ch more : Nat} (hs : Dated p s₀ s) : Dated p s₀ (s.laneFaults ch more) := hs.setLane.fault

theorem Dated.openLanes {ch : Nat} {index : BitVec 48} {launched : Bool} {ticks : Nat} {windows : List (Nat × Nat)}
    {ran' : Bool} {since : Nat} (hs : Dated p s₀ s) :
    Dated p s₀ (s.openLanes ch index launched ticks windows ran' since) :=
  hs.setLane.setFld.laneFaults

theorem Dated.calGo {ch : Nat} {q : Req} (hs : Dated p s₀ s) : Dated p s₀ (s.calGo ch q) := .ite hs.err hs.setLane

theorem Dated.tdcEdgeAt {now u : Nat} {stop : Bool} {e ofs : Nat} (hs : Dated p s₀ s) :
    Dated p s₀ (s.tdcEdgeAt now u stop e ofs) := by
  unfold State.tdcEdgeAt
  refine .ite hs ?_
  split
  · exact .ite hs.setTdc hs.setTdc
  · exact .ite hs hs.setTdc.count

theorem Dated.sourceEdge {code steps : Nat} (hs : Dated p s₀ s) : Dated p s₀ (s.sourceEdge code steps) :=
  hs.forEach fun _ _ ht => .ite (ht.guard (·.tdcEdgeAt)).tdcEdgeAt (ht.guard (·.tdcEdgeAt))

theorem Dated.tdcShot {h : Nat} (hs : Dated p s₀ s) : Dated p s₀ (s.tdcShot h) :=
  hs.forEach fun _ _ ht => ht.guard (·.setTdc)

/-! ## Engines and chains -/

theorem Dated.flushStart {ch : Nat} (hs : Dated False s₀ s) : Dated False s₀ (s.flushStart ch) :=
  (hs.dramRead.setCe.guard (·.fault)).dramWrite

theorem Dated.batchClose {ch : Nat} {i : BitVec 48} (hs : Dated False s₀ s) : Dated False s₀ (s.batchClose ch i) := by
  unfold State.batchClose
  split
  · exact hs
  · exact .ite hs.setCe.count.fault hs.setCe.setRbit.flushStart

theorem Dated.batchOpen {ch : Nat} {i : BitVec 48} {n : Nat} {ps : ProbeSet} (hs : Dated p s₀ s) :
    Dated p s₀ (s.batchOpen ch i n ps) :=
  hs.same rfl

theorem Dated.replicaForm {h ch : Nat} {ps : ProbeSet} {size : Nat} (hs : Dated p s₀ s) :
    Dated p s₀ (s.replicaForm h ch ps size) :=
  hs.setCe.setReg.setRbit

theorem Dated.showBatch {ch : Nat} (hs : Dated p s₀ s) : Dated p s₀ (s.showBatch ch) := by
  unfold State.showBatch
  split <;> exact hs.setReg

theorem Dated.engineBoundary {h ch : Nat} {e : EngineShot} (hs : Dated False s₀ s) :
    Dated False s₀ (s.engineBoundary h ch e) :=
  have h1 := ((hs.guard (·.batchClose)).setCe.setRbit.setRbit.guard (·.replicaForm)).guard (·.batchOpen)
  (Dated.ite h1.showBatch.setCe h1.showBatch).guard (·.setCe)

theorem Dated.chainBoundary {ch : Nat} {index : BitVec 48} {stamp : W72} {flags : Nat} {recorded : Bool}
    (hs : Dated p s₀ s) : Dated p s₀ (s.chainBoundary ch index stamp flags recorded) :=
  hs.setChain.guard (·.setChain)

/-! ## Housekeeping and Quince -/

theorem Dated.hadcKick (hs : Dated p s₀ s) : Dated p s₀ s.hadcKick :=
  .ite hs.setHadc.setFld.setRbit hs.setFld.setRbit

theorem Dated.regTrigger (hs : Dated p s₀ s) : Dated p s₀ s.regTrigger := .ite hs (.ite hs.count hs.setHadc.hadcKick)

theorem Dated.regShot {h : Nat} (hs : Dated p s₀ s) : Dated p s₀ (s.regShot h) := hs.guard (·.guard (·.regTrigger))

theorem Dated.setLaneStep {h : Nat} {x : Option LaneStep} (hs : Dated p s₀ s) : Dated p s₀ (s.setLaneStep h x) :=
  hs.same rfl

theorem Dated.calShow (hs : Dated p s₀ s) : Dated p s₀ s.calShow := hs.setRbit.setRbit.setFld

theorem Dated.stepEnd {kind outcome ch attempts : Nat} (hs : Dated p s₀ s) :
    Dated p s₀ (s.stepEnd kind outcome ch attempts) :=
  (((Dated.ite hs.setReg.count hs.setReg.count).guard (·.setQuince)).guard (·.event)).calShow

theorem Dated.laneStepEnd {ch : Nat} {iq : Bool} {outcome attempts : Nat} (hs : Dated p s₀ s) :
    Dated p s₀ (s.laneStepEnd ch iq outcome attempts) :=
  (Dated.ite hs.setLaneStep.setQuince hs.setLaneStep.setQuince.setRbit.setFld).stepEnd

theorem Dated.calArm {ch start i : Nat} (hs : Dated p s₀ s) : Dated p s₀ (s.calArm ch start i) := hs.setReg.setReg.calGo

theorem Dated.laneWait {x : LaneStep} (hs : Dated p s₀ s) : Dated p s₀ (s.laneWait x) := hs.setLaneStep

theorem Dated.laneAttempt {x : LaneStep} (hs : Dated p s₀ s) : Dated p s₀ (s.laneAttempt x) := by
  unfold State.laneAttempt
  refine .ite hs.laneWait ?_
  split
  · exact hs.fault.laneStepEnd
  · exact .ite hs.fault.laneStepEnd (.ite (.ite hs.calGo.laneWait hs.calGo.laneStepEnd) hs.calArm.setLaneStep)

theorem Dated.laneRetry {x : LaneStep} {outcome : Nat} (hs : Dated p s₀ s) : Dated p s₀ (s.laneRetry x outcome) :=
  .ite (hs.guard (·.fault)).laneStepEnd (.ite hs.laneWait hs.laneAttempt)

theorem Dated.quinceBoundary {h : Nat} (hs : Dated p s₀ s) : Dated p s₀ (s.quinceBoundary h) := by
  unfold State.quinceBoundary
  split
  · exact .ite hs (.ite hs.laneAttempt.calShow (.ite hs.laneRetry.calShow (hs.guard (·.laneRetry.calShow))))
  · exact hs

/-! ## The time base and the schedulers -/

theorem Dated.masterSynced (hs : Dated p s₀ s) : Dated p s₀ s.masterSynced := .ite hs (hs.guard (·.setRbit))

theorem Dated.stepNext {h : Nat} (hs : Dated p s₀ s) : Dated p s₀ (s.stepNext h) := hs.setSched

theorem Dated.stepShot {h : Nat} (hs : Dated p s₀ s) : Dated p s₀ (s.stepShot h) := hs.forEach fun _ _ ht => ht.setCe

theorem Dated.switchSource {h : Option Nat} {faults : Nat} (hs : Dated p s₀ s) :
    Dated p s₀ (s.switchSource h faults) := by
  unfold State.switchSource
  split
  · exact hs
  · exact hs.setSwitch.setRbit.setRbit.fault.masterSynced.forEach fun _ _ ht =>
      .ite ht.stepNext (ht.guard (·.stepShot))

theorem Dated.alignWait {h : Nat} (hs : Dated p s₀ s) : Dated p s₀ (s.alignWait h) := hs.setSched.setRbit.setRbit

theorem Dated.closeHead {h : Nat} {raw : List ChCodes} (hs : Dated p s₀ s) : Dated p s₀ (s.closeHead h raw) :=
  hs.setHead.forEach fun _ _ ht => ht.closeLanes.setCe

theorem Dated.headTakes {h : Nat} {c : HeadChange} (hs : Dated p s₀ s) : Dated p s₀ (s.headTakes h c) :=
  hs.setHead.setRbit.setRbit.setFld.setFld

theorem Dated.launchDecide {h : Nat} (hs : Dated p s₀ s) : Dated p s₀ (s.launchDecide h).2 :=
  .iteSnd (.iteSnd hs.setHead hs.setHead.count) hs

theorem Dated.resume {h f : Nat} (hs : Dated p s₀ s) : Dated p s₀ (s.resume h f) :=
  (hs.setSched.forEach fun _ _ ht => ht.setLane).setRbit

theorem Dated.shotShow {h : Nat} {fresh : Bool} (hs : Dated p s₀ s) : Dated p s₀ (s.shotShow h fresh) :=
  ((Dated.ite hs.setRbit hs.setRbit.setRbit).guard (·.setRbit)).forEach fun _ _ ht => ht.resume

theorem Dated.boundaryChannel {h j : Nat} {c : HeadChange} {first launched stepped : Bool} {ticks since : Nat}
    (hs : Dated False s₀ s) : Dated False s₀ (s.boundaryChannel h j c first launched stepped ticks since) :=
  (hs.guard (·.setLane)).openLanes.engineBoundary.chainBoundary

/-- What a boundary of a head does before its schedule is taken: it closes the lanes' periods where there were any. -/
def State.beforeTakes (s : State) (h : Nat) (raw : List ChCodes) : State :=
  if !(s.sched h).started then s else s.closeHead h raw

theorem Dated.beforeTakes {h : Nat} {raw : List ChCodes} (hs : Dated p s₀ s) : Dated p s₀ (s.beforeTakes h raw) :=
  .ite hs hs.closeHead

/-- Nothing after `schedTakes` dates a boundary anew. -/
theorem State.shotBoundary_dated (h : Nat) (raw : List ChCodes) (late : Nat) (half : Bool) :
    Dated False ((s.beforeTakes h raw).schedTakes h half) (s.shotBoundary h raw late half) :=
  have taken := Dated.guard (s := (s.beforeTakes h raw).schedTakes h half) .refl (·.switchSource)
  (((taken.headTakes.launchDecide.setReg.setReg.setSched).forEach
    fun _ _ ht => ht.boundaryChannel).shotShow.tdcShot.sourceEdge.regShot.guard (·.alignWait)).quinceBoundary

/-- The schedule of the coming period has the next index and the stamp of the present local time. -/
theorem State.schedTakes_last (h : Nat) (half : Bool) :
    ((s.schedTakes h half).sched h).last = ((s.sched h).index + 1, s.stamp, true) := by
  rw [State.schedTakes, State.sched_setSched_same]; rfl

theorem State.schedTakes_ne {h k : Nat} (half : Bool) (e : k ≠ h) : (s.schedTakes h half).sched k = s.sched k :=
  State.sched_setSched_ne _ _ e

end

/-- A boundary gives its head the next index and the stamp of local time, and starts it. -/
theorem State.shotBoundary_last (s : State) (h : Nat) (raw : List ChCodes) (late : Nat) (half : Bool) :
    ((s.shotBoundary h raw late half).sched h).last = ((s.sched h).index + 1, s.stamp, true) := by
  have before : Dated False s (s.beforeTakes h raw) := Dated.refl.beforeTakes
  have index : ((s.beforeTakes h raw).sched h).index = (s.sched h).index := congrArg Prod.fst (before.last h)
  have stamp : (s.beforeTakes h raw).stamp = s.stamp := congrArg ts72 before.now
  rw [(s.shotBoundary_dated h raw late half).last, State.schedTakes_last, index, stamp]

/-- The other heads keep what they show of their last boundaries. -/
theorem State.shotBoundary_last_ne (s : State) {h k : Nat} (raw : List ChCodes) (late : Nat) (half : Bool) (e : k ≠ h) :
    ((s.shotBoundary h raw late half).sched k).last = (s.sched k).last := by
  rw [(s.shotBoundary_dated h raw late half).last, State.schedTakes_ne _ e]
  exact (Dated.refl (p := False)).beforeTakes.last k

theorem State.shotBoundary_now (s : State) (h : Nat) (raw : List ChCodes) (late : Nat) (half : Bool) :
    (s.shotBoundary h raw late half).time.now = s.time.now :=
  (s.shotBoundary_dated h raw late half).now.trans (Dated.refl (p := False)).beforeTakes.now

/-! ## The command, and the device that is shut -/

/-- A boundary occurs where the scheduler runs, does not end its last period and is not in ALIGN_WAIT (R93, R100). -/
theorem exec_shotBoundary (s : State) (h : Head) (raw : PeriodIn) : exec (.shotBoundary h raw) s =
    .next (if s.schedOn h && !(s.sched h).ending && !s.rbit (Reg.shotStatus h) 3
      then s.shotBoundary h raw.codes raw.late raw.half else s) := rfl

/-- What O10 says of a boundary, for a scheduler that runs: EN is 1 and the device is not shut. -/
theorem exec_shotBoundary_of_schedOn (s : State) (h : Head) (raw : PeriodIn) (on : s.schedOn h = true)
    (going : (s.sched h).ending = false) (aligned : s.rbit (Reg.shotStatus h) 3 = false) :
    ∃ t, exec (.shotBoundary h raw) s = .next t ∧ (t.sched h).index = (s.sched h).index + 1 ∧
      (t.sched h).stamp = s.stamp ∧ (t.sched h).started = true ∧ t.time.now = s.time.now ∧
      ∀ k, k ≠ h.val → (t.sched k).index = (s.sched k).index := by
  refine ⟨s.shotBoundary h raw.codes raw.late raw.half, ?_, ?_⟩
  · rw [exec_shotBoundary, on, going, aligned]; rfl
  · have last := s.shotBoundary_last h raw.codes raw.late raw.half
    simp only [SchedSt.last, Prod.mk.injEq] at last
    obtain ⟨index, stamp, started⟩ := last
    exact ⟨index, stamp, started, s.shotBoundary_now h _ _ _, fun k e =>
      congrArg Prod.fst (s.shotBoundary_last_ne raw.codes raw.late raw.half e)⟩

/-- Head 0's scheduler is enabled while reset is held over a hot die. -/
def State.enabledButHeld : State :=
  { State.reset.setRbit (Reg.shotCfg 0) 0 true with boot := { State.reset.boot with held := true } }

/-- Refutes O10: a boundary needs more than EN. While reset is held over a hot die no scheduler runs (`State.schedOn`),
so with EN at 1 a boundary leaves the state, and the index, as they are; the clause on a boundary does not ask for
`s.shut = false`. With that premise it holds: `exec_shotBoundary_of_schedOn`. -/
theorem not_shotSchedule : ¬ Obligations.ShotSchedule := by
  rintro ⟨-, -, boundary, -⟩
  obtain ⟨t, et, index, -⟩ := boundary State.enabledButHeld 0 { codes := [] } (by decide) (by decide) (by decide)
  have off : State.enabledButHeld.schedOn (0 : Head) = false := by decide
  rw [exec_shotBoundary, off] at et
  cases et
  exact absurd index (by decide)

end Sys2Proof.Machine
end

section
/-!
PROOFS. Power domains and the core clock (O47): what a change of a domain's state leaves of PWR_CTRL, PWR_STAT and DRAM, and
the commands of R427, R428, R431 and R447.
-/
namespace Sys2Proof.Machine

/-! ## The registers of SYS while a domain changes -/

/-- No raise touches a register of SYS: the attention block and the ports lie above it. -/
theorem notLatch_of_lt {a : Nat} (h : a < 0x10000) : notLatch a :=
  ⟨fun k => by unfold Reg.attnLatch; omega, fun n => by unfold Reg.netPortTxFrames; omega⟩

theorem State.reg_setQuince (s : State) (a : Nat) (x : QuinceSt) : State.reg { s with quince := x } a = s.reg a := rfl

theorem State.reg_laneRestored (s : State) (a ch : Nat) : (s.laneRestored ch).reg a = s.reg a := rfl

section
variable {a : Nat} (s : State) (ha : a < 0x10000)
include ha

theorem State.mailbox_reg (cl : Nat) (was : Bool) : (s.mailbox cl was).reg a = s.reg a := by
  unfold State.mailbox
  split
  · exact s.event_reg _ (notLatch_of_lt ha)
  · rfl

theorem State.bounceBack_reg (m : Msg) (reason : Nat) : (s.bounceBack m reason).reg a = s.reg a := by
  have latch := notLatch_of_lt ha
  have fault (cl : Nat) : a ≠ Reg.clFault cl := by unfold Reg.clFault; omega
  have lost (cl : Nat) : a ≠ Reg.clNoteLost cl := by unfold Reg.clNoteLost; omega
  unfold State.bounceBack
  dsimp only
  split
  · rfl
  · split
    · exact s.fault_reg latch (fault _)
    · exact State.mailbox_reg _ ha _ _
  · split
    · exact s.fault_reg latch (fault _)
    · exact State.mailbox_reg _ ha _ _
  · exact (State.fault_reg _ latch (fault _)).trans (s.reg_setReg_ne _ (lost _))
  · rfl

theorem State.renewCore_reg (c : Nat) (mode : CoreMode) (vendor : Bool) (role : BitVec 4) (pc reason : Nat) :
    (s.renewCore c mode vendor role pc reason).reg a = s.reg a :=
  List.foldlRecOn (motive := fun t : State => t.reg a = s.reg a) _ _ rfl
    fun t h m _ => (t.bounceBack_reg ha m reason).trans h

theorem State.vendorLoad_reg (cl : Nat) : (s.vendorLoad cl).reg a = s.reg a := by
  unfold State.vendorLoad
  split
  · rfl
  · refine forEach_keeps (fun t => t.reg a = s.reg a) _ _ s (fun c t h => ?_) rfl
    dsimp only
    split
    · split
      · exact h
      · exact (t.renewCore_reg ha _ _ _ _ _ _).trans h
    · split
      · exact (t.renewCore_reg ha _ _ _ _ _ _).trans h
      · exact h

theorem State.dspOn_reg (b : Bool) : (s.dspOn b).reg a = s.reg a := by
  refine forEach_keeps (fun t : State => t.reg a = s.reg a) _ _ _ (fun cl t h => ?_) rfl
  refine (State.vendorLoad_reg _ ha cl).trans ((t.reg_setReg_ne _ ?_).trans h)
  unfold Reg.clStatus; omega

theorem ne_of_mem_laneCalRegs {ch b : Nat} (hb : b ∈ laneCalRegs ch) : a ≠ b := by
  have hm : 0x200000 ≤ b := by
    simp only [laneCalRegs, Reg.laneMxA, Reg.laneMxB, Reg.laneMyA, Reg.laneMyB, Reg.laneOffset, Reg.laneSkew,
      Reg.laneGcorr, List.mem_append, List.mem_flatMap, List.mem_cons, List.not_mem_nil, or_false] at hb
    omega
  omega

theorem State.setFld_calLaneStat_reg (ch hi lo x : Nat) : (s.setFld (Reg.calLaneStat ch) hi lo x).reg a = s.reg a :=
  s.reg_setReg_ne _ (by unfold Reg.calLaneStat; omega)

theorem State.quincePowered_reg (d : Nat) : (s.quincePowered d).reg a = s.reg a := by
  unfold State.quincePowered
  refine forEach_keeps (fun t : State => t.reg a = s.reg a) _ _ _ (fun ch t h => ?_) ?_
  · rw [State.reg_setQuince, State.reg_laneRestored, State.setFld_calLaneStat_reg _ ha,
      State.setFld_calLaneStat_reg _ ha]
    exact List.foldlRecOn (motive := fun u : State => u.reg a = s.reg a) _ _ h
      fun u hu b hb => (u.reg_setReg_ne _ (ne_of_mem_laneCalRegs ha hb)).trans hu
  · split
    · exact s.fault_reg (notLatch_of_lt ha) (by unfold Reg.nvmFault; omega)
    · rfl

theorem State.trainPresent_reg : s.trainPresent.reg a = s.reg a := by
  refine forEach_keeps (fun t => t.reg a = s.reg a) _ _ s (fun m t h => ?_) rfl
  split
  · exact h
  · exact (State.reg_setReg_ne _ _ (by unfold Reg.mcStatus; omega)).trans h

/-- Powering a domain changes no register of SYS. -/
theorem State.domPower_reg (d : Dom) : (s.domPower d).reg a = s.reg a := by
  cases d with
  | dspA => exact s.dspOn_reg ha false
  | dspB => exact s.dspOn_reg ha true
  | laneA => exact s.quincePowered_reg ha 0
  | laneB => exact s.quincePowered_reg ha 1
  | mem => exact s.trainPresent_reg ha

end

/-! ## PWR_CTRL -/

/-- Of the numbers below n, the one that equals j decides. -/
theorem any_range_eq {n j : Nat} (c : Nat → Bool) (h : j < n) :
    ((List.range n).any fun d => c d && decide (j = d)) = c j := by
  rw [Bool.eq_iff_iff, List.any_eq_true]
  simp [h]

/-- A permitted write of PWR_CTRL stores the five bits. -/
theorem State.pwrWrite_ctrl {s : State} {v : W32} (q : Req)
    (ok : s.pwrCheck (if s.minimal then v &&& 0x10 else v) = none) :
    (s.pwrWrite v q).reg Reg.sysPwrCtrl = (if s.minimal then v &&& 0x10 else v) &&& 0x1F := by
  unfold State.pwrWrite
  simp only [ok]
  generalize (if s.minimal then v &&& 0x10 else v) = w
  refine forEach_keeps (fun t : State => t.reg Reg.sysPwrCtrl = w &&& 0x1F) _ _ _ (fun d t h => ?_) (s.reg_setReg_same _ _)
  split
  · exact (t.reg_setReg_ne _ (by decide)).trans h
  · exact h

/-- What a bit of PWR_STAT reads after a permitted write of PWR_CTRL: each domain whose bit changed is in transition. -/
theorem State.pwrWrite_stat {s : State} {v : W32} (q : Req) (j : Nat)
    (ok : s.pwrCheck (if s.minimal then v &&& 0x10 else v) = none) :
    (s.pwrWrite v q).rbit Reg.sysPwrStat j = (s.rbit Reg.sysPwrStat j || (List.range 5).any fun d =>
      (s.domAsked d != bitOf (if s.minimal then v &&& 0x10 else v) d) && decide (j = 8 + d)) := by
  unfold State.pwrWrite
  simp only [ok]
  refine (State.rbit_forEach_setRbit Reg.sysPwrStat
    (fun d => bitOf (s.reg Reg.sysPwrCtrl) d != bitOf (if s.minimal then v &&& 0x10 else v) d) (8 + ·) j
    (List.range 5) _ fun d hd => by have := List.mem_range.mp hd; omega).trans ?_
  rw [State.rbit, State.reg_setReg_ne _ _ (by decide)]
  rfl

theorem exec_pwrCtrlWrite {s : State} (q : Req) (v : W32) (notShut : s.shut = false) :
    exec (.pwrCtrlWrite q v) s = .next (s.pwrWrite v q) :=
  if_neg (by simp [notShut])

/-! ## A domain's switch opens or closes -/

section
variable {p : Prop} {s₀ s : State}

theorem Dated.bounceBack {m : Msg} {reason : Nat} (hs : Dated p s₀ s) : Dated p s₀ (s.bounceBack m reason) := by
  unfold State.bounceBack
  split
  · exact hs.same rfl
  · exact .ite hs.fault (hs.setCluster.guard (·.event))
  · exact .ite hs.fault (hs.setCluster.guard (·.event))
  · exact hs.count.fault
  · exact hs

theorem Dated.renewCore {c : Nat} {mode : CoreMode} {vendor : Bool} {role : BitVec 4} {pc reason : Nat}
    (hs : Dated p s₀ s) : Dated p s₀ (s.renewCore c mode vendor role pc reason) :=
  List.foldlRecOn (motive := Dated p s₀) _ _ hs.setCore fun _ h _ _ => h.bounceBack

theorem Dated.dspZeroed {lo : Nat} (hs : Dated p s₀ s) : Dated p s₀ (s.dspZeroed lo) := hs.same rfl

theorem Dated.dspGated {b : Bool} (hs : Dated p s₀ s) : Dated p s₀ (s.dspGated b) := by
  unfold State.dspGated
  refine .dspZeroed (.forEach (hs.forEach fun _ _ ht => ht.setRbit.forEach fun _ _ hu => hu.renewCore)
    fun _ _ ht => ?_)
  split
  · exact ht.guard (·.setChain)
  · exact ht

theorem Dated.quinceGated {d : Nat} (hs : Dated p s₀ s) : Dated p s₀ (s.quinceGated d) := by
  refine hs.forEach fun _ _ ht => ?_
  split
  · exact ht.laneStepEnd.setQuince
  · exact ht

theorem Dated.engineLost {ch : Nat} (hs : Dated p s₀ s) : Dated p s₀ (s.engineLost ch) := hs.setCe.setFld.setReg.setReg

end

/-- Gating the memory domain empties DRAM; gating any other leaves it, as `Dated True` says of each part of the gating. -/
theorem State.domGate_dram (s : State) (d : Dom) (late : List McEdge) :
    (s.domGate d late).dram = if d = .mem then .empty else s.dram := by
  have lane (k : Nat) (f : Nat → Nat) :
      (forEach (List.range 16) (fun ch t => t.engineLost (f ch)) (s.quinceGated k)).dram = s.dram :=
    ((Dated.refl (p := True)).quinceGated.forEach fun _ _ ht => ht.engineLost).dram trivial
  have dsp (b : Bool) (a : Nat) : (if s.rbit a 16 then s.dspGated b else s).dram = s.dram :=
    ((Dated.refl (p := True)).guard (·.dspGated)).dram trivial
  cases d with
  | dspA => exact dsp false _
  | dspB => exact dsp true _
  | laneA => exact lane 0 id
  | laneB => exact lane 1 (16 + ·)
  | mem => rfl

theorem Dom.bit_lt (d : Dom) : Dom.bit d < 5 := by cases d <;> decide

/-- A domain whose ON is written and whose TRANS is cleared reads so: the two bits lie apart. -/
theorem State.domSettled (s : State) (d : Dom) (b : Bool) :
    let t := (s.setRbit Reg.sysPwrStat (Dom.bit d) b).setRbit Reg.sysPwrStat (8 + Dom.bit d) false
    t.domOn (Dom.bit d) = b ∧ t.domTrans (Dom.bit d) = false := by
  have := Dom.bit_lt d
  refine ⟨?_, State.rbit_setRbit_same _ _ _ _ (by omega)⟩
  exact (State.rbit_setRbit_ne _ _ _ (by omega) (by omega)).trans (s.rbit_setRbit_same _ _ _ (by omega))

theorem exec_domainReadyToGate (s : State) (e : GateEdge) : exec (.domainReadyToGate e) s =
    if s.domTrans (Dom.bit e.dom) && !s.domAsked (Dom.bit e.dom) && s.domMayGate e.dom then
      .next (((s.domGate e.dom e.late).setRbit Reg.sysPwrStat (Dom.bit e.dom) false).setRbit Reg.sysPwrStat
        (8 + Dom.bit e.dom) false)
    else .next s := rfl

theorem exec_domainPowered {s : State} {d : Dom} (trans : s.domTrans (Dom.bit d) = true)
    (asked : s.domAsked (Dom.bit d) = true) :
    exec (.domainPowered d) s = .next
      (((s.setRbit Reg.sysPwrStat (Dom.bit d) true).setRbit Reg.sysPwrStat (8 + Dom.bit d) false).domPower d) :=
  if_pos (by simp [trans, asked])

theorem exec_domainFail {s : State} {d : Dom} (trans : s.domTrans (Dom.bit d) = true)
    (asked : s.domAsked (Dom.bit d) = true) :
    exec (.domainFail d) s = .next ((s.setRbit Reg.sysPwrStat (8 + Dom.bit d) false).fault Reg.sysFault 4) :=
  if_pos (by simp [trans, asked])

/-! ## The core clock and the warnings -/

theorem exec_cclkSelChange {s : State} (q : Req) (v : W32) (notShut : s.shut = false) :
    exec (.cclkSelChange q v) s = .next (s.clkWrite v q) :=
  if_neg (by simp [notShut])

theorem exec_dieHotWarning {s : State} (held : s.boot.held = false) :
    exec .dieHotWarning s = .next (s.fault Reg.sysFault 1) :=
  if_neg (by simp [held])

theorem exec_supplyWarn {s : State} (held : s.boot.held = false) :
    exec .supplyWarn s = .next (s.fault Reg.sysFault 2) :=
  if_neg (by simp [held])

/-- Settles O47: each command by its own equation, with what gating leaves of DRAM and powering of PWR_STAT. -/
theorem powerDomainsAndClock : Obligations.PowerDomainsAndClock := by
  refine ⟨?write, ?refused, ?minimal, ?gated, ?ungated, ?powered, fun s d => exec_domainFail, ?enc, ?busy, ?moved,
    fun s => rfl, ?perst, fun s => exec_dieHotWarning, fun s => exec_supplyWarn⟩
  case write =>
    intro s q v notShut full ok
    have hv : (if s.minimal then v &&& 0x10 else v) = v := by simp [full]
    refine ⟨_, exec_pwrCtrlWrite q v notShut, ?_, fun d => ⟨?_, ?_⟩⟩
    · rw [State.pwrWrite_ctrl q (hv.symm ▸ ok), hv]
    · have hd : d.val < 5 := d.isLt
      refine (State.pwrWrite_stat q d (hv.symm ▸ ok)).trans ?_
      simp [State.domOn, show ∀ k, (d : Nat) ≠ 8 + k by omega]
    · refine (State.pwrWrite_stat q (8 + d) (hv.symm ▸ ok)).trans ?_
      simp only [hv, Nat.add_left_cancel_iff, any_range_eq _ d.isLt]
      rfl
  case refused =>
    intro s q v c notShut full bad
    rw [exec_pwrCtrlWrite q v notShut, State.pwrWrite]
    simp [full, bad]
  case minimal =>
    intro s q v notShut min ok
    have hv : (if s.minimal then v &&& 0x10 else v) = v &&& 0x10 := by simp [min]
    refine ⟨_, exec_pwrCtrlWrite q v notShut, ?_⟩
    rw [State.pwrWrite_ctrl q (hv.symm ▸ ok), hv, BitVec.and_assoc]
    rfl
  case gated =>
    intro s d late trans asked may
    have dram := s.domGate_dram d late
    obtain ⟨on, trans'⟩ := (s.domGate d late).domSettled d false
    refine ⟨_, ?_, on, trans', fun e => ?_, fun e => ?_⟩
    · rw [exec_domainReadyToGate, trans, asked, may]; rfl
    · exact dram.trans (if_pos e)
    · exact dram.trans (if_neg e)
  case ungated =>
    rintro s d late (still | mayNot)
    · rw [exec_domainReadyToGate, still]; rfl
    · rw [exec_domainReadyToGate, mayNot, Bool.and_false]; rfl
  case powered =>
    intro s d trans asked
    obtain ⟨on, trans'⟩ := s.domSettled d true
    have stat (t : State) : (t.domPower d).reg Reg.sysPwrStat = t.reg Reg.sysPwrStat := t.domPower_reg (by decide) d
    refine ⟨_, exec_domainPowered trans asked, ?_, ?_⟩
    · rw [State.domOn, State.rbit, stat]; exact on
    · rw [State.domTrans, State.rbit, stat]; exact trans'
  case enc =>
    intro s q v notShut high
    rw [exec_cclkSelChange q v notShut, State.clkWrite, if_pos high]
  case busy =>
    intro s q v notShut low vendor
    rw [exec_cclkSelChange q v notShut, State.clkWrite, if_neg (by omega), if_pos ⟨low, vendor⟩]
  case moved =>
    intro s q v notShut known plain change
    rw [exec_cclkSelChange q v notShut, State.clkWrite, if_neg (by omega), if_neg (by simp [plain])]
    simp [change]
  case perst =>
    intro s
    exact ⟨_, rfl, fun _ => rfl, rfl, State.reg_setReg_same _ _ _, fun a h => State.reg_setReg_ne _ _ h, rfl, rfl, rfl⟩

end Sys2Proof.Machine
end

section
/-!
PROOFS. The register bus: which block, view or window an address reaches, and, for each kind of target, what a read and
a write do on a device that is not shut.
-/
namespace Sys2Proof.Machine

/-! ## What an address reaches -/

theorem Blk.base_dvd (b : Blk) : 0x10000 ∣ b.base := by cases b <;> decide

/-- Blocks fill whole pages of 64 KB (R30), so the page of an address says where it lies. -/
theorem blockAt_add {a off : Nat} (ha : 0x10000 ∣ a) (ho : off < 0x10000) : blockAt (a + off) = blockAt a := by
  have within (b : Blk) : (decide (b.base ≤ a + off) && decide (a + off < b.base + 0x10000 * b.count)) =
      (decide (b.base ≤ a) && decide (a < b.base + 0x10000 * b.count)) := by
    have := b.base_dvd
    congr 1 <;> exact decide_eq_decide.mpr (by omega)
  have number (b : Blk) : (a + off - b.base) / 0x10000 = (a - b.base) / 0x10000 := by
    have := b.base_dvd
    omega
  simp only [blockAt, within, number]

/-- Each page of a block is the page of no other block (R30). -/
theorem blockAt_at (b : Blk) {i off : Nat} (hi : i < b.count) (ho : off < 0x10000) :
    blockAt (b.at i + off) = some (b, i) := by
  have first : ∀ i < b.count, blockAt (b.at i) = some (b, i) := by cases b <;> decide
  exact (blockAt_add (b.base_dvd.add ⟨i, rfl⟩) ho).trans (first i hi)

/-- Past the heads and past the memory controllers lies no block (R30). -/
theorem blockAt_eq_none {a : Nat} (h : 0x140000 ≤ a ∧ a < 0x200000 ∨ 0x820000 ≤ a) : blockAt a = none := by
  have outside (b : Blk) : ¬ (b.base ≤ a ∧ a < b.base + 0x10000 * b.count) := by
    cases b <;> simp only [Blk.base, Blk.count] <;> omega
  simpa [blockAt, List.find?_eq_none] using fun b _ => not_and.mp (outside b)

theorem Blk.at_lt (b : Blk) {i off : Nat} (hi : i < b.count) (ho : off < 0x10000) : b.at i + off < 0x1000000 := by
  have last : b.base + 0x10000 * b.count ≤ 0x1000000 := by cases b <;> decide
  unfold Blk.at
  omega

theorem regTarget_at (b : Blk) {i off e w : Nat} {r : RegRow} (hi : i < b.count) (ho : off < 0x10000)
    (row : b.row (off % 0x4000) = some (r, e, w)) (narrow : r.kind ≠ .wideRO ∧ r.kind ≠ .wideRW) :
    regTarget (b.at i + off) = .reg b i (off % 0x4000) r (viewOf off) := by
  obtain ⟨k, hk⟩ : 0x10000 ∣ b.at i := b.base_dvd.add ⟨i, rfl⟩
  have offset : (b.at i + off) % 0x10000 = off := by omega
  unfold regTarget
  simp only [blockAt_at b hi ho, offset, row]
  cases h : r.kind <;> simp_all

/-- Which quarter of a block's page a view is (R32). -/
def View.index : View → Nat
  | .normal => 0
  | .set => 1
  | .clr => 2
  | .tgl => 3

theorem View.index_lt (w : View) : w.index < 4 := by cases w <;> decide

theorem viewOf_index (w : View) {off : Nat} (ho : off < 0x4000) : viewOf (off + 0x4000 * w.index) = w := by
  have quarter : (off + 0x4000 * w.index) / 0x4000 = w.index := by omega
  rw [viewOf, quarter]
  cases w <;> rfl

/-- A register of fields, through each of the four views (R32). -/
theorem State.target_at (s : State) (b : Blk) {i off e n : Nat} {r : RegRow} (w : View) (hi : i < b.count)
    (ho : off < 0x4000) (row : b.row off = some (r, e, n)) (narrow : r.kind ≠ .wideRO ∧ r.kind ≠ .wideRW) :
    s.target (b.at i + (off + 0x4000 * w.index)) = .reg b i off r w := by
  have page : off + 0x4000 * w.index < 0x10000 := by have := w.index_lt; omega
  have normal : (off + 0x4000 * w.index) % 0x4000 = off := by omega
  have reach := regTarget_at b hi page (normal.symm ▸ row) narrow
  rw [State.target, if_pos (b.at_lt hi page), reach, normal, viewOf_index w ho]

theorem State.target_of_blockAt_eq_none (s : State) {a : Nat} (ha : a < 0x1000000) (h : blockAt a = none) :
    s.target a = if 0xF00000 ≤ a ∧ a < 0xF00280 then .priv (a - 0xF00000) else .unmapped 0 (a % 0x10000) := by
  rw [State.target, if_pos ha, regTarget, h]

/-- The words of the privileged window (R44). -/
theorem State.target_window (s : State) {o : Nat} (h : o < 0x280) : s.target (0xF00000 + o) = .priv o := by
  rw [s.target_of_blockAt_eq_none (by omega) (blockAt_eq_none (by omega)), if_pos (by omega), Nat.add_sub_cancel_left]

theorem wordAddr_of_dvd {a : Addr} (h : 4 ∣ a.toNat) : wordAddr a = a.toNat := Nat.div_mul_cancel h

/-! ## A read or a write, by what its address reaches -/

theorem State.shut_eq_false {s : State} : s.shut = false ↔ s.boot.held = false ∧ s.scrapped = false :=
  Bool.or_eq_false_iff

theorem State.shut_setReg (s : State) {a : Nat} (v : W32) (h : a ≠ Reg.lifeState) : (s.setReg a v).shut = s.shut :=
  congrArg (fun life => s.boot.held || decide (field life 1 0 = 3)) (s.reg_setReg_ne v h.symm)

section
variable {s : State} {q : Req} {a i off w : Nat} {b : Blk} {r : RegRow} {view : View}

section
variable (notShut : s.shut = false)
include notShut

theorem State.busRead_of_unmapped {base : Nat} (reach : s.target a = .unmapped base off) :
    s.busRead q a = (0, s.err base .unmapped off q) := by
  simp [State.busRead, State.shut_eq_false.mp notShut, reach]

theorem State.busRead_of_reg (reach : s.target a = .reg b i off r view) (notAck : r.kind ≠ .ack) (notDma : b ≠ .dma) :
    s.busRead q a = (s.readReg b i off, s.readClear b i off r view (s.readReg b i off)) := by
  simp [State.busRead, State.shut_eq_false.mp notShut, reach, notAck, notDma, State.when]

theorem State.busRead_of_wide {rw : Bool} (reach : s.target a = .wide b i off w rw .normal) :
    s.busRead q a = (s.wideWord q (s.readWide b i off) w, s.wideSnap q (s.readWide b i off) w) := by
  simp [State.busRead, State.shut_eq_false.mp notShut, reach]

theorem State.busWrite_of_unmapped {base : Nat} (d : W32) (reach : s.target a = .unmapped base off) :
    s.busWrite q a d = s.err base .unmapped off q := by
  simp [State.busWrite, notShut, reach]

theorem State.busWrite_of_reg (d : W32) (reach : s.target a = .reg b i off r .normal) :
    s.busWrite q a d = s.regTargetWrite q b i off r .normal d := by
  simp [State.busWrite, notShut, reach]

/-- A write in any view that leaves ERR of the block as it is, is the write of the register and nothing more (R41). -/
theorem State.busWrite_of_reg_view (d : W32) (reach : s.target a = .reg b i off r view)
    (errKept : (s.regTargetWrite q b i off r view d).reg (b.at i + errOff) = s.reg (b.at i + errOff)) :
    s.busWrite q a d = s.regTargetWrite q b i off r view d := by
  have notRefused : s.errAt (s.regTargetWrite q b i off r view d) (b.at i) (a % 0x10000) =
      s.regTargetWrite q b i off r view d :=
    if_neg fun ⟨empty, set⟩ => set (by rw [State.fld, errKept]; exact empty)
  simp [State.busWrite, notShut, reach, notRefused]

theorem State.busWrite_of_wide (d : W32) (reach : s.target a = .wide b i off w true .normal) :
    s.busWrite q a d =
      s.wideWrite q (b.at i + off) w d (b.at i) (off + 4 * w) fun v t => t.wideCommit q b i off v := by
  simp [State.busWrite, notShut, reach]

theorem State.busWrite_of_wide_view {rw : Bool} (d : W32) (reach : s.target a = .wide b i off w rw view)
    (other : view ≠ .normal) : s.busWrite q a d = s := by
  simp [State.busWrite, notShut, reach, other]

theorem State.busWrite_of_window {o : Nat} (d : W32) (reach : s.target a = .priv o) :
    s.busWrite q a d = s.privWindowWrite o d q := by
  simp [State.busWrite, notShut, reach]

theorem State.partialWrite_of_reg (reach : s.target a = .reg b i off r view) :
    s.partialWrite q a = s.err (b.at i) .width (a % 0x10000) q := by
  simp [State.partialWrite, notShut, reach]

end

/-- The bytes a read with all enables set returns are the whole word (R33). -/
theorem and_byteMask_all (v : W32) : v &&& byteMask 0xF = v :=
  (congrArg (v &&& ·) (by decide : byteMask 0xF = BitVec.allOnes 32)).trans BitVec.and_allOnes

section
variable {n : Addr} (be : BitVec 4) (notShut : s.shut = false)
include notShut

theorem State.readBy_of_unmapped {base : Nat} (reach : s.target (wordAddr n) = .unmapped base off) :
    s.readBy q n be = (s.err base .unmapped off q).answer q 0 := by
  rw [State.readBy, State.busRead_of_unmapped notShut reach]
  exact congrArg (State.answer _ _) BitVec.zero_and

theorem State.readBy_of_reg (reach : s.target (wordAddr n) = .reg b i off r view) (notAck : r.kind ≠ .ack)
    (notDma : b ≠ .dma) :
    s.readBy q n be =
      (s.readClear b i off r view (s.readReg b i off)).answer q (s.readReg b i off &&& byteMask be) := by
  rw [State.readBy, State.busRead_of_reg notShut reach notAck notDma]

theorem State.readBy_of_wide {rw : Bool} (reach : s.target (wordAddr n) = .wide b i off w rw .normal) :
    s.readBy q n 0xF = (s.wideSnap q (s.readWide b i off) w).answer q (s.wideWord q (s.readWide b i off) w) := by
  rw [State.readBy, State.busRead_of_wide notShut reach]
  exact congrArg (State.answer _ _) (and_byteMask_all _)

end

theorem State.regTargetWrite_plain (d : W32) (plain : r.kind = .plain) :
    s.regTargetWrite q b i off r view d = s.regWrite q b i off r view d := by
  simp [State.regTargetWrite, plain]

theorem State.regTargetWrite_ack (d : W32) (ack : r.kind = .ack) :
    s.regTargetWrite q b i off r .normal d = s.ack (b.at i + off - 4) d := by
  simp [State.regTargetWrite, ack]

theorem State.regTargetWrite_priv (d : W32) (priv : r.kind = .priv) :
    s.regTargetWrite q b i off r view d = s.err (b.at i) .priv off q := by
  simp [State.regTargetWrite, priv]

end

end Sys2Proof.Machine
end

section
/-!
PROOFS. The rules of the register bus (O3 to O7): unmapped addresses (R31), whole registers in the four views (R33 to
R37), RC bits, acknowledgement and fault bits (R39 to R41),
72-bit values (R46 to R48) and the privileged window (R44, R45).
-/
namespace Sys2Proof.Machine

/-! ## Unmapped addresses (R31) -/

/-- Settles O3: three ranges hold no block, and an access that reaches nothing is recorded. -/
theorem unmappedAccessRecorded : Obligations.UnmappedAccessRecorded := by
  refine ⟨?write, ?read, ?ranges⟩
  case write =>
    intro s q a d base off notShut reach
    exact congrArg Host.Outcome.next (State.busWrite_of_unmapped notShut d reach)
  case read =>
    intro s q a be base off notShut reach
    exact congrArg Host.Outcome.next (State.readBy_of_unmapped be notShut reach)
  case ranges =>
    intro s n h
    rw [s.target_of_blockAt_eq_none (by omega) (blockAt_eq_none (by omega)), if_neg (by omega)]

/-! ## A field of a whole register (R33 to R37) -/

/-- The row of a register whose 32 bits are one RW field without a range. -/
def wholeRow (off : Nat) : RegRow := { off, rw := 0xFFFFFFFF }

/-- What a write leaves where every bit is RW (R36). -/
def View.whole (w : View) (old v : W32) : W32 := w.apply (BitVec.allOnes 32) old v

@[simp] theorem View.whole_normal (old v : W32) : View.whole .normal old v = v := by
  rw [View.whole, View.apply, BitVec.and_allOnes, BitVec.not_allOnes, BitVec.and_zero, BitVec.zero_or]

@[simp] theorem View.whole_set (old v : W32) : View.whole .set old v = old ||| v :=
  congrArg (old ||| ·) BitVec.and_allOnes

@[simp] theorem View.whole_clr (old v : W32) : View.whole .clr old v = old &&& ~~~v :=
  congrArg (old &&& ~~~·) BitVec.and_allOnes

@[simp] theorem View.whole_tgl (old v : W32) : View.whole .tgl old v = old ^^^ v :=
  congrArg (old ^^^ ·) BitVec.and_allOnes

@[simp] theorem View.acts_zero (w : View) (v : W32) : w.acts 0#32 0#32 v = 0#32 := by cases w <;> simp [View.acts]
@[simp] theorem View.locks_zero (w : View) (v : W32) : w.locks 0#32 v = 0#32 := by cases w <;> simp [View.locks]

section
variable (s : State) (q : Req) {b : Blk} (i : Nat) {off : Nat} (w : View) (d : W32)

theorem State.writeCheck_wholeRow (old v go : W32) :
    s.writeCheck b i off (wholeRow off) old v go = s.blockCheck b i off v go := by
  simp [State.writeCheck, wholeRow, fieldsRefuse]

/-- A write that leaves v in a whole register is refused by its block alone (R36). -/
theorem State.regWrite_wholeRow {v : W32} (left : w.whole (s.reg (b.at i + off)) d = v) (notMc : b ≠ .mc)
    (free : s.heldBits b off = 0) :
    s.regWrite q b i off (wholeRow off) w d =
      (s.blockCheck b i off v 0).elim
        ((s.ownWrite b i off v 0 q).getD
          ((s.setReg (b.at i + off) v).blockEffect b i off (s.reg (b.at i + off)) v 0 (v &&& d) q))
        fun c => s.err (b.at i) c off q := by
  have mask : ((wholeRow off).rwMask b i off ||| BitVec.ofNat 32 (wholeRow off).rwl) &&& ~~~s.heldBits b off =
      BitVec.allOnes 32 := by
    simp [RegRow.rwMask, notMc, free, wholeRow]
  unfold State.regWrite
  simp only [mask, State.writeCheck_wholeRow]
  rw [← View.whole, left]
  simp only [wholeRow, View.acts_zero, View.locks_zero, BitVec.or_zero]
  rw [if_neg (by simp)]
  cases s.blockCheck b i off v 0 with
  | some c => rfl
  | none => cases s.ownWrite b i off v 0 q <;> rfl

end

/-! ## The chirp registers of a head (R57) -/

section
variable {s : State} {q : Req} {h : Head} {off : Nat} (chirp : off = 0x40 ∨ off = 0x44)
include chirp

theorem State.target_chirp (s : State) (h : Head) (w : View) :
    s.target (Blk.head.at h + (off + 0x4000 * w.index)) = .reg .head h off (wholeRow off) w := by
  have row : Blk.head.row off = some (wholeRow off, 0, 0) := by rcases chirp with rfl | rfl <;> rfl
  exact s.target_at .head w h.isLt (by omega) row ⟨nofun, nofun⟩

theorem State.target_chirp_normal (s : State) (h : Head) :
    s.target (Blk.head.at h + off) = .reg .head h off (wholeRow off) .normal := s.target_chirp chirp h .normal

/-- The only refusal of a chirp register is BUSY, while a fill runs. -/
theorem State.blockCheck_chirp (v go : W32) :
    s.blockCheck .head h off v go = if s.rbit (Reg.headStatus h) 5 then some .busy else none := by
  rcases chirp with rfl | rfl <;> rfl

theorem State.blockEffect_chirp (old v go w : W32) : s.blockEffect .head h off old v go w q = s := by
  rcases chirp with rfl | rfl <;> rfl

/-- A write of a chirp register in any view. -/
theorem State.regWrite_chirp (w : View) (d : W32) :
    s.regWrite q .head h off (wholeRow off) w d =
      if s.rbit (Reg.headStatus h) 5 then s.err (Blk.head.at h) .busy off q
      else s.setReg (Blk.head.at h + off) (w.whole (s.reg (Blk.head.at h + off)) d) := by
  have free : s.heldBits .head off = 0 := if_neg (by omega)
  have own (v : W32) : s.ownWrite .head h off v 0 q = none := rfl
  rw [s.regWrite_wholeRow q h w d rfl (by decide) free, State.blockCheck_chirp chirp, own,
    State.blockEffect_chirp chirp]
  split <;> rfl

/-- A write of a chirp register through view w while no fill runs. -/
theorem State.busWrite_chirp_idle (w : View) (d : W32) (notShut : s.shut = false)
    (idle : s.rbit (Reg.headStatus h) 5 = false) :
    s.busWrite q (Blk.head.at h + (off + 0x4000 * w.index)) d =
      s.setReg (Blk.head.at h + off) (w.whole (s.reg (Blk.head.at h + off)) d) := by
  have written : s.regTargetWrite q .head h off (wholeRow off) w d =
      s.setReg (Blk.head.at h + off) (w.whole (s.reg (Blk.head.at h + off)) d) := by
    rw [State.regTargetWrite_plain d rfl, State.regWrite_chirp chirp, idle]
    rfl
  refine (State.busWrite_of_reg_view notShut d (s.target_chirp chirp h w) ?_).trans written
  rw [written, s.reg_setReg_ne _ (by rw [errOff]; omega)]

theorem State.busWrite_chirp_normal (d : W32) (notShut : s.shut = false) (idle : s.rbit (Reg.headStatus h) 5 = false) :
    s.busWrite q (Blk.head.at h + off) d = s.setReg (Blk.head.at h + off) d :=
  (State.busWrite_chirp_idle chirp .normal d notShut idle).trans (congrArg _ (View.whole_normal _ d))

theorem State.busWrite_chirp_busy (d : W32) (notShut : s.shut = false) (busy : s.rbit (Reg.headStatus h) 5 = true) :
    s.busWrite q (Blk.head.at h + off) d = s.err (Blk.head.at h) .busy off q := by
  rw [State.busWrite_of_reg notShut d (s.target_chirp_normal chirp h), State.regTargetWrite_plain d rfl,
    State.regWrite_chirp chirp, if_pos busy]

theorem State.partialWrite_chirp (notShut : s.shut = false) :
    s.partialWrite q (Blk.head.at h + off) = s.err (Blk.head.at h) .width off q := by
  have offset : (Blk.head.at h + off) % 0x10000 = off := by simp only [Blk.at, Blk.base]; omega
  rw [State.partialWrite_of_reg notShut (s.target_chirp_normal chirp h), offset]

/-- Neither whether the device is shut nor whether a fill runs depends on a chirp register. -/
theorem State.setReg_chirp (s : State) (h : Head) (v : W32) :
    (s.setReg (Blk.head.at h + off) v).shut = s.shut ∧
      (s.setReg (Blk.head.at h + off) v).rbit (Reg.headStatus h) 5 = s.rbit (Reg.headStatus h) 5 := by
  refine ⟨s.shut_setReg v ?_, congrArg (bitOf · 5) (s.reg_setReg_ne v ?_)⟩
  · simp only [Blk.at, Blk.base, Reg.lifeState]; omega
  · simp only [Blk.at, Blk.base, Reg.headStatus]; omega

end

theorem headChirpF0_eq (h : Nat) : Reg.headChirpF0 h = Blk.head.at h + 0x40 := by
  simp only [Reg.headChirpF0, Blk.at, Blk.base]; omega

theorem headChirpRate_eq (h : Nat) : Reg.headChirpRate h = Blk.head.at h + 0x44 := by
  simp only [Reg.headChirpRate, Blk.at, Blk.base]; omega

theorem wordAddr_chirpF0 {a : Addr} {h : Head} (ha : a.toNat = Reg.headChirpF0 h) :
    wordAddr a = Blk.head.at h + 0x40 := by
  rw [wordAddr_of_dvd (by rw [ha, Reg.headChirpF0]; omega), ha, headChirpF0_eq]

/-- CHIRP_RATE lies one word above CHIRP_F0. -/
theorem wordAddr_chirpF0_add_four {a : Addr} {h : Head} (ha : a.toNat = Reg.headChirpF0 h) :
    wordAddr (a + 4) = Blk.head.at h + 0x44 := by
  have next : (a + 4).toNat = Reg.headChirpRate h := by
    rw [BitVec.toNat_add, ha, show (4 : Addr).toNat = 4 from rfl, Reg.headChirpF0, Reg.headChirpRate]
    omega
  rw [wordAddr_of_dvd (by rw [next, Reg.headChirpRate]; omega), next, headChirpRate_eq]

/-- Below 0x0100_0000 the three commands write at the address of their view (R37). -/
theorem exec_viewWrite (s : State) (q : Req) {a : Addr} (v : W32) (below : wordAddr a < 0x1000000) :
    exec (.setAliasWrite q a v) s = .next (s.busWrite q (aliasAddr a 1) v) ∧
    exec (.clrAliasWrite q a v) s = .next (s.busWrite q (aliasAddr a 2) v) ∧
    exec (.tglAliasWrite q a v) s = .next (s.busWrite q (aliasAddr a 3) v) :=
  ⟨congrArg _ (if_pos below), congrArg _ (if_pos below), congrArg _ (if_pos below)⟩

theorem aliasAddr_at {a : Addr} {b : Blk} {i off : Nat} (word : wordAddr a = b.at i + off) (ho : off < 0x4000)
    (w : View) : aliasAddr a w.index = b.at i + (off + 0x4000 * w.index) := by
  obtain ⟨k, hk⟩ : 0x10000 ∣ b.at i := b.base_dvd.add ⟨i, rfl⟩
  rw [aliasAddr, word]
  omega

/-- Settles O4: CHIRP_F0 is a whole register whose one refusal is BUSY; each view is one case of `View.whole`. -/
theorem chirpStartFrequencyWrites : Obligations.ChirpStartFrequencyWrites := by
  refine ⟨?idle, ?busy, ?width⟩
  case idle =>
    intro s q h v a notShut ha idle
    have word := wordAddr_chirpF0 ha
    have low : s.busWrite q (wordAddr a) v = s.setReg (Blk.head.at h + 0x40) v := by
      rw [word]
      exact State.busWrite_chirp_normal (.inl rfl) v notShut idle
    have viewWrite (w : View) : s.busWrite q (aliasAddr a w.index) v = _ :=
      aliasAddr_at word (by decide) w ▸ State.busWrite_chirp_idle (.inl rfl) w v notShut idle
    obtain ⟨bySet, byClr, byTgl⟩ := exec_viewWrite s q v (word ▸ Blk.head.at_lt h.isLt (by decide))
    rw [headChirpF0_eq, headChirpRate_eq, bySet, byClr, byTgl, ← View.whole_set, ← View.whole_clr, ← View.whole_tgl]
    refine ⟨congrArg _ low, congrArg _ (viewWrite .set), congrArg _ (viewWrite .clr), congrArg _ (viewWrite .tgl),
      fun u => congrArg Host.Outcome.next ((congrArg (State.busWrite · q _ u) low).trans ?_)⟩
    obtain ⟨sameShut, sameBusy⟩ := s.setReg_chirp (.inl rfl) h v
    rw [wordAddr_chirpF0_add_four ha]
    exact State.busWrite_chirp_normal (.inr rfl) u (sameShut.trans notShut) (sameBusy.trans idle)
  case busy =>
    intro s q h v a notShut ha busy
    have refused := State.busWrite_chirp_busy (q := q) (.inl rfl) v notShut busy
    exact congrArg Host.Outcome.next (wordAddr_chirpF0 ha ▸ refused)
  case width =>
    intro s q h v a be notShut ha part
    have refused := State.partialWrite_chirp (q := q) (h := h) (.inl rfl) notShut
    exact congrArg Host.Outcome.next ((if_neg part).trans (wordAddr_chirpF0 ha ▸ refused))

/-! ## RC bits and acknowledgement (R39, R40) -/

/-- A normal-view read clears the RC bits it returned as 1 (R39). -/
theorem State.readClear_normal (s : State) (b : Blk) (i off : Nat) {r : RegRow} (v : W32) (clears : r.rc ≠ 0) :
    s.readClear b i off r .normal v =
      s.setReg (b.at i + off) (s.reg (b.at i + off) &&& ~~~(v &&& BitVec.ofNat 32 r.rc)) := if_neg (by simp [clears])

theorem State.readClear_of_ne_normal (s : State) (b : Blk) (i off : Nat) (r : RegRow) {w : View} (v : W32)
    (other : w ≠ .normal) : s.readClear b i off r w v = s := if_pos (.inr other)

theorem State.busWrite_of_ack {s : State} {q : Req} {a i off : Nat} {b : Blk} {r : RegRow} (d : W32)
    (notShut : s.shut = false) (reach : s.target a = .reg b i off r .normal) (ack : r.kind = .ack) :
    s.busWrite q a d = s.ack (b.at i + off - 4) d :=
  (State.busWrite_of_reg notShut d reach).trans (State.regTargetWrite_ack d ack)

/-! ## Fault bits (R40, R41) -/

/-- Replacing bits 31 to 24 keeps the 24 bits below. -/
theorem withField_31_24 (v : W32) (x : Nat) :
    withField v 31 24 x = BitVec.ofNat 32 (x % 256 * 2 ^ 24) ||| (v &&& 0xFFFFFF) := by
  have keep : ~~~(BitVec.ofNat 32 ((2 ^ (31 + 1 - 24) - 1) * 2 ^ 24)) = (0xFFFFFF : W32) := by decide
  have put : BitVec.ofNat 32 (x * 2 ^ 24) &&& BitVec.ofNat 32 ((2 ^ (31 + 1 - 24) - 1) * 2 ^ 24) =
      BitVec.ofNat 32 (x % 2 ^ 8 * 2 ^ 24) := by
    refine BitVec.eq_of_getLsbD_eq fun i _ => ?_
    simp only [BitVec.getLsbD_and, BitVec.getLsbD_ofNat, Nat.testBit_mul_two_pow, Nat.testBit_mod_two_pow,
      Nat.testBit_two_pow_sub_one]
    cases decide (24 ≤ i) <;> simp_all [Bool.and_comm]
  rw [withField, keep, put, BitVec.or_comm]
  rfl

/-- Setting the bits of m that are not set yet sets the bits of m. -/
theorem or_and_not_self (v m : W32) : v ||| (m &&& ~~~v) = v ||| m := by
  ext i hi
  cases h : v[i] <;> simp [h]

/-- Fault bits of which one is new: SEQ one on, and one event of vector 224 (R40, R323). -/
theorem State.fault_of_new (s : State) {a m : Nat} (notCan : a ≠ Reg.canFault)
    (new : BitVec.ofNat 32 (m % 2 ^ 24) &&& ~~~s.reg a ≠ 0) :
    s.fault a m = (s.setReg a (BitVec.ofNat 32 ((s.fld a 31 24 + 1) % 256 * 2 ^ 24) |||
      ((s.reg a ||| BitVec.ofNat 32 (m % 2 ^ 24)) &&& 0xFFFFFF))).event 224 := by
  rw [State.fault, if_neg new, or_and_not_self, withField_31_24]
  exact if_neg notCan

/-- Settles O5: the side effect of a read by its view, the ACK register by its comparison, and `fault` and `err` by what
is set already. -/
theorem readClearAcknowledgeAndFaultBits : Obligations.ReadClearAcknowledgeAndFaultBits := by
  refine ⟨⟨?normal, ?otherView, and_byteMask_all, ?matching, ?differing⟩, ?new, ?allSet, ?first, ?later⟩
  case normal =>
    intro s q a be b i off r notShut reach notAck clears notDma
    rw [← s.readClear_normal b i off _ clears]
    exact congrArg Host.Outcome.next (State.readBy_of_reg be notShut reach notAck notDma)
  case otherView =>
    intro s q a be b i off r w notShut reach other notAck notDma
    have read := State.readBy_of_reg (q := q) be notShut reach notAck notDma
    rw [s.readClear_of_ne_normal b i off r _ other] at read
    exact congrArg Host.Outcome.next read
  case matching =>
    intro s q a v b i off r notShut reach ack same
    exact congrArg Host.Outcome.next ((State.busWrite_of_ack v notShut reach ack).trans (if_pos same))
  case differing =>
    intro s q a v b i off r notShut reach ack differs
    exact congrArg Host.Outcome.next ((State.busWrite_of_ack v notShut reach ack).trans (if_neg differs))
  case new =>
    intro s a m notCan new
    exact s.fault_of_new notCan new
  case allSet =>
    intro s a m old
    exact if_pos old
  case first =>
    intro s base off c q empty
    exact congrArg (State.fault · _ _) (if_pos empty)
  case later =>
    intro s base off c q held
    exact congrArg (State.fault · _ _) (if_neg held)

/-! ## 72-bit values (R46 to R48) -/

theorem State.staged72_of_both {s : State} {q : Req} {a : Nat} {l m : W32} (d : W32) (lo : (s.req q).lo = some (a, l))
    (mid : (s.req q).mid = some (a, m)) : s.staged72 q a d = some (d.extractLsb' 0 8 ++ m ++ l) := by
  simp [State.staged72, lo, mid]

theorem State.staged72_eq_none {s : State} {q : Req} {a : Nat} (d : W32)
    (missing : (s.req q).lo.map Prod.fst ≠ some a ∨ (s.req q).mid.map Prod.fst ≠ some a) : s.staged72 q a d = none := by
  unfold State.staged72
  split
  · next x l y m lo mid =>
    simp only [lo, mid, Option.map_some, ne_eq, Option.some.injEq] at missing
    exact if_neg fun ⟨hx, hy⟩ => missing.elim (· hx) (· hy)
  · rfl

section
variable {s : State} {q : Req} {a base off : Nat} (d : W32) {f : W72 → State → State}

theorem State.wideWrite_hi_of_staged {v : W72} (staged : s.staged72 q a d = some v) :
    s.wideWrite q a 2 d base off f = f v (s.unstage q) := by
  simp [State.wideWrite, staged]

theorem State.wideWrite_hi_of_missing (missing : s.staged72 q a d = none) :
    s.wideWrite q a 2 d base off f = (s.unstage q).err base .stage off q := by
  simp [State.wideWrite, missing]

end

/-- Settles O6: a read takes its snapshot at LO alone, and a write of HI turns on whether LO and MID of the same
value are staged. -/
theorem wideValueSnapshotAndStaging : Obligations.WideValueSnapshotAndStaging := by
  refine ⟨?lo, ?mid, ?stageLo, ?stageMid, ?commit, ?refused, ?otherView⟩
  case lo | mid =>
    intro s q a b i lo rw notShut reach
    exact congrArg Host.Outcome.next (State.readBy_of_wide notShut reach)
  case stageLo | stageMid =>
    intro s q a v b i lo notShut reach
    exact congrArg Host.Outcome.next (State.busWrite_of_wide notShut v reach)
  case commit =>
    intro s q a v l m cl k notShut reach lo mid
    have word : Reg.clHostMsg cl k = Blk.cl.at cl + (0x20 + 12 * k) := by
      simp only [Reg.clHostMsg, Blk.at, Blk.base]; omega
    rw [word] at lo mid ⊢
    exact congrArg Host.Outcome.next ((State.busWrite_of_wide notShut v reach).trans
      (State.wideWrite_hi_of_staged v (State.staged72_of_both v lo mid)))
  case refused =>
    intro s q a v b i lo notShut reach missing
    exact congrArg Host.Outcome.next ((State.busWrite_of_wide notShut v reach).trans
      (State.wideWrite_hi_of_missing v (State.staged72_eq_none v missing)))
  case otherView =>
    intro s q a v b i lo w rw view notShut reach other
    have ignored := State.busWrite_of_wide_view (q := q) notShut v reach other
    exact ⟨congrArg Host.Outcome.next ignored, congrArg Host.Outcome.next ignored⟩

/-! ## The privileged window (R44, R45) -/

theorem exec_bitAliasWrite {s : State} (q : Req) (v : W32) {a : Addr} {o : Nat} (notShut : s.shut = false)
    (ha : a.toNat = 0xF00000 + o) (aligned : 4 ∣ o) (within : o < 0x280) :
    exec (.bitAliasWrite q a v) s = .next (s.privWindowWrite o v q) := by
  have word : wordAddr a = 0xF00000 + o := (wordAddr_of_dvd (by omega)).trans ha
  exact congrArg _ (State.busWrite_of_window notShut v (word ▸ s.target_window within))

/-- NVM.WRITE_CTRL is register 3 of the window; bits 0 to 2 of it are writable there (R45). -/
theorem State.privWindowWrite_nvm (s : State) {n : Nat} (v : W32) (q : Req) (hn : n < 32) :
    s.privWindowWrite (4 * (32 * 3 + n)) v q =
      if n < 3 then s.setRbit Reg.nvmWriteCtrl n (v.getLsbD 0) else s.err 0 .priv (4 * (32 * 3 + n)) q := by
  have register : 4 * (32 * 3 + n) / 128 = 3 := by omega
  have bit : 4 * (32 * 3 + n) / 4 % 32 = n := by omega
  have writable : ∀ n < 32, bitOf (privMask 3) n = decide (n < 3) := by decide
  rw [State.privWindowWrite, register, bit, writable n hn]
  simp only [decide_eq_true_eq]
  rfl

theorem State.target_nvmWriteCtrl (s : State) :
    s.target Reg.nvmWriteCtrl = .reg .nvm 0 4 { off := 4, kind := .priv, reset := 6, rw := 7 } .normal :=
  s.target_at .nvm (i := 0) (off := 4) .normal (by decide) (by decide) rfl ⟨nofun, nofun⟩

/-- Settles O7: the window's word names the register and the bit, and the register's own address refuses. -/
theorem privilegedWindowWrites : Obligations.PrivilegedWindowWrites := by
  refine ⟨?low, ?high, ?normal⟩
  case low =>
    intro s q b v a notShut ha
    have hb := b.isLt
    rw [exec_bitAliasWrite q v notShut ha (Nat.dvd_mul_right 4 _) (by omega), s.privWindowWrite_nvm v q (by omega),
      if_pos hb]
  case high =>
    intro s q b v a notShut ha low high
    rw [exec_bitAliasWrite q v notShut ha (Nat.dvd_mul_right 4 _) (by omega), s.privWindowWrite_nvm v q high,
      if_neg (by omega)]
  case normal =>
    intro s q v a notShut ha
    have word : wordAddr a = Reg.nvmWriteCtrl := (wordAddr_of_dvd (by rw [ha]; decide)).trans ha
    have reach := (congrArg s.target word).trans s.target_nvmWriteCtrl
    exact congrArg Host.Outcome.next ((State.busWrite_of_reg notShut v reach).trans (State.regTargetWrite_priv v rfl))

end Sys2Proof.Machine
end

section
/-!
PROOFS. Held lasers stay dark (O59), refuted: the statement speaks of every state, and one whose converter slot is out of range
lets a step write over a head's control register.

`PadcSt.slot` is a natural number, and nothing in the statement keeps it among the slots the converter has. An OPEN result that
a retry timeout delivers (R357) is the value 0 in RESULTk (R359), and slot 130,944 puts RESULTk on HEAD[0].CTRL, whose bit 1 is
LASER_REQ: the request goes while the head plays, and a result darkens no head (R70). The converse half of the statement,
what LASEN high needs, holds of every state (`State.lasen_iff`).
-/
namespace Sys2Proof.Machine

/-- The slot whose result word is HEAD[0].CTRL. -/
def slotOfHeadCtrl : Nat := 130944

/-- Head 0 is lit and plays a sub-probe; the precision converter waits for the last retry of an OPEN at `slotOfHeadCtrl`. -/
def State.litBeforeOpenResult : State :=
  let armed := (State.reset.setRbit Reg.sysOptInterlock 0 true).setRbit Reg.sysOptInterlock 8 true
  { (armed.setRbit (Reg.headCtrl 0) 1 true).setHead 0 { playing := true } with
    padc := { inPass := true, waitComp := true, slot := slotOfHeadCtrl }, pending := [.padcOpenRetryTimeout] }

theorem pfeResult_slotOfHeadCtrl : Reg.pfeResult slotOfHeadCtrl = Reg.headCtrl 0 := rfl

theorem State.litBeforeOpenResult_laserSafe : ∀ h : Head, State.litBeforeOpenResult.laserSafe h = true := by decide

theorem step_litBeforeOpenResult : ∃ t, step State.litBeforeOpenResult = .next t ∧ t.laserSafe 0 = false :=
  ⟨_, rfl, by decide⟩

/-- LASEN of a head (R68): ARM, the qualified HEADOK, LASER_REQ, and no TRIP. -/
theorem State.lasen_iff (s : State) (h : Nat) : s.lasen h = true ↔
    s.rbit Reg.sysOptInterlock h = true ∧ s.rbit Reg.sysOptInterlock (8 + h) = true ∧ s.rbit (Reg.headCtrl h) 1 = true ∧
      s.rbit Reg.sysOptInterlock (16 + h) = false := by
  simp only [State.lasen, State.headokBit, Bool.and_eq_true, Bool.not_eq_true', and_assoc]

/-- Refutes O59: head 0 plays, lit, when the result of a slot out of range overwrites its LASER_REQ; it goes on playing. -/
theorem not_everyStepKeepsHeldLasersDark : ¬ Obligations.EveryStepKeepsHeldLasersDark := by
  rintro ⟨kept, -⟩
  obtain ⟨t, stepped, unsafeNow⟩ := step_litBeforeOpenResult
  have safe := kept _ t State.litBeforeOpenResult_laserSafe stepped 0
  exact absurd safe (by simpa using unsafeNow)

end Sys2Proof.Machine
end

section
/-!
PROOFS. The registers of the heads and of the schedulers while a fault is raised: the vectors of a fault are below 256, the
ports below 2, so the LATCH words and frame counters a raise may touch stay inside their blocks, below the heads.
-/
namespace Sys2Proof.Machine

/-! ## Registers a raise of a vector below 256 leaves alone -/

/-- a is neither one of the 8 LATCH words nor TX_FRAMES of one of the 2 ports: no raise of a vector below 256 touches it. -/
def RaiseSpares (a : Nat) : Prop := (∀ k < 8, a ≠ Reg.attnLatch k) ∧ ∀ n < 2, a ≠ Reg.netPortTxFrames n

theorem raiseSpares_of_lt {a : Nat} (h : a < 0xD0000) : RaiseSpares a := ⟨fun k _ => by lia, fun n _ => by lia⟩

theorem raiseSpares_of_headBase_le {a : Nat} (h : 0x100000 ≤ a) : RaiseSpares a := ⟨fun k _ => by lia, fun n _ => by lia⟩

theorem State.lt_of_mem_routes {s : State} {ip : IpAddr} {n : Nat} (h : n ∈ s.routes ip) : n < 2 := by
  have ports : ∀ n ∈ [0, 1], n < 2 := by decide
  unfold State.routes at h
  dsimp only at h
  split at h
  · exact ports n (List.mem_of_mem_filter h)
  · split at h
    · next m found =>
      rw [List.mem_singleton.mp h]
      exact ports m (List.mem_of_mem_filter (List.mem_of_find?_eq_some found))
    · exact ports n (List.mem_of_mem_filter (List.mem_of_mem_take h))

section
variable {a : Nat} (s : State) (spared : RaiseSpares a)
include spared

theorem State.datagram_reg_of_spared (ip : IpAddr) (b : List Byte) : (s.datagram ip b).reg a = s.reg a := by
  unfold State.datagram
  split
  · exact List.foldlRecOn (motive := fun t : State => t.reg a = s.reg a) _ _ rfl fun t kept n hn =>
      (State.reg_setReg_ne _ _ (spared.2 n (State.lt_of_mem_routes hn))).trans kept
  · rfl

theorem State.notifySend_reg_of_spared (v : Nat) (w : W72) : (s.notifySend v w).reg a = s.reg a := by
  refine forEach_keeps (fun t => t.reg a = s.reg a) _ _ s (fun i t kept => ?_) rfl
  split
  · exact (State.datagram_reg_of_spared _ spared _ _).trans kept
  · exact kept

theorem State.notify_reg_of_spared (v : Nat) : (s.notify v).reg a = s.reg a := by
  have flush (t : State) : (t.notifyFlush v).reg a = t.reg a := by
    unfold State.notifyFlush
    split
    · rfl
    · split
      · rfl
      · exact State.notifySend_reg_of_spared _ spared _ _
  unfold State.notify
  split
  · exact flush _
  · rfl

variable {v : Nat} (hv : v < 256)
include hv

theorem State.raise_reg_of_spared : (s.raise v).reg a = s.reg a := by
  have latch : a ≠ Reg.attnLatch (v / 32) := spared.1 _ (by omega)
  refine (State.notify_reg_of_spared _ spared v).trans ?_
  simp only [State.reg, State.msixRaise_regs]
  exact State.reg_setReg_ne _ _ latch

theorem State.event_reg_of_spared : (s.event v).reg a = s.reg a := by
  have moderated (t : State) :
      (if t.modReached v then (t.setVec v { t.vec v with cnt := 0 }).raise v else t).reg a = t.reg a := by
    split
    · exact State.raise_reg_of_spared _ spared hv
    · rfl
  unfold State.event
  split
  · exact moderated _
  · split
    · rfl
    · exact s.raise_reg_of_spared spared hv

end

/-! ## An RS register under a fault (R40) -/

/-- A field written above a bit leaves the bit. -/
theorem bitOf_withField_below {w i lo : Nat} (v : BitVec w) (hi x : Nat) (below : i < lo) :
    bitOf (withField v hi lo x) i = bitOf v i := by
  have clear (n : Nat) : (BitVec.ofNat w (n * 2 ^ lo)).getLsbD i = false := by
    rw [BitVec.getLsbD_ofNat, Nat.testBit_mul_two_pow]
    simp only [show ¬lo ≤ i by omega, decide_false, Bool.false_and, Bool.and_false]
  have inside : v.getLsbD i = (decide (i < w) && v.getLsbD i) := by
    by_cases h : i < w
    · simp only [h, decide_true, Bool.true_and]
    · rw [BitVec.getLsbD_of_ge v i (by omega), Bool.and_false]
  simp only [bitOf, withField, BitVec.getLsbD_or, BitVec.getLsbD_and, BitVec.getLsbD_not, clear, Bool.not_false,
    Bool.and_true, Bool.and_false, Bool.or_false]
  rw [Bool.and_comm, ← inside]

section
variable {a : Nat} (s : State) (spared : RaiseSpares a)
include spared

/-- A fault changes no spared register but its own, which keeps what it is written. -/
theorem State.fault_reg_eq (b m : Nat) : (s.fault b m).reg a =
    let new := BitVec.ofNat 32 (m % 2 ^ 24) &&& ~~~(s.reg b)
    if new = 0 then s.reg a else (s.setReg b (withField (s.reg b ||| new) 31 24 (field (s.reg b) 31 24 + 1))).reg a := by
  have event224 (t : State) := t.event_reg_of_spared spared (v := 224) (by decide)
  have event235 (t : State) := t.event_reg_of_spared spared (v := 235) (by decide)
  unfold State.fault
  dsimp only
  split
  · rfl
  · split
    · rw [event235, event224]
    · rw [event224]

theorem State.fault_reg_of_ne {b : Nat} (ne : a ≠ b) (m : Nat) : (s.fault b m).reg a = s.reg a := by
  rw [s.fault_reg_eq spared]
  dsimp only
  split
  · rfl
  · exact s.reg_setReg_ne _ ne

/-- The fault bits a fault asks for are set after it. -/
theorem State.fault_rbit_self {m i : Nat} (hi : i < 24) (asked : m.testBit i = true) : (s.fault a m).rbit a i = true := by
  have want : (BitVec.ofNat 32 (m % 2 ^ 24)).getLsbD i = true := by
    rw [BitVec.getLsbD_ofNat, Nat.testBit_mod_two_pow, asked]
    simp only [hi, show i < 32 by omega, decide_true, Bool.and_self]
  show bitOf ((s.fault a m).reg a) i = true
  rw [s.fault_reg_eq spared]
  dsimp only
  split
  · next none =>
    have held : s.reg a ||| BitVec.ofNat 32 (m % 2 ^ 24) = s.reg a := by rw [← or_and_not_self, none]; exact BitVec.or_zero
    rw [bitOf, ← held, BitVec.getLsbD_or, want, Bool.or_true]
  · rw [s.reg_setReg_same, bitOf_withField_below _ _ _ hi, bitOf, or_and_not_self, BitVec.getLsbD_or, want, Bool.or_true]

end

end Sys2Proof.Machine
end

section
/-!
PROOFS. The interlock of a head, its temperature and its launch supervisor (O8): the rules of `darken`, what a write of ARM, a
fall of HEADOK, a reading and a missed window make of a head, and the commands of R67 to R73 and R467.
-/
namespace Sys2Proof.Machine

/-! ## What a fault and a dark head leave alone -/

theorem State.head_fault (s : State) (a m k : Nat) : (s.fault a m).head k = s.head k := by
  obtain ⟨r, v, x, y, n, f, same⟩ := s.fault_raiseOnly a m
  rw [same]
  rfl

theorem State.darken_regs (s : State) (h : Nat) : (s.darken h).regs = s.regs := by
  unfold State.darken
  dsimp only
  split <;> rfl

theorem State.reg_darken (s : State) (h a : Nat) : (s.darken h).reg a = s.reg a := by
  simp only [State.reg, s.darken_regs h]

theorem State.rbit_darken (s : State) (h a i : Nat) : (s.darken h).rbit a i = s.rbit a i :=
  congrArg (bitOf · i) (s.reg_darken h a)

theorem State.lasen_of_regs {s t : State} (same : t.regs = s.regs) (h : Nat) : t.lasen h = s.lasen h := by
  simp only [State.lasen, State.headokBit, State.rbit, State.reg, same]

theorem State.lasen_eq_false_of_headok {s : State} {h : Nat} (off : s.rbit Reg.sysOptInterlock (8 + h) = false) :
    s.lasen h = false := by
  simp only [State.lasen, State.headokBit, off, Bool.and_false, Bool.false_and]

theorem State.lasen_eq_false_of_arm {s : State} {h : Nat} (off : s.rbit Reg.sysOptInterlock h = false) :
    s.lasen h = false := by
  simp only [State.lasen, off, Bool.false_and]

theorem State.darken_of_lasen {s : State} {h : Nat} (lit : s.lasen h = true) : s.darken h = s :=
  if_neg (by simp only [lit, Bool.not_true, Bool.false_and, Bool.false_eq_true, not_false_eq_true])

theorem State.head_darken_of_not_lasen {s : State} {h : Nat} (off : s.lasen h = false) :
    (s.darken h).head h = { s.head h with gates := 0, playing := false } := by
  unfold State.darken
  dsimp only
  split
  · exact State.head_setHead_same _ _ _
  · next dark =>
    simp only [off, Bool.not_false, Bool.true_and, Bool.or_eq_true, decide_eq_true_eq, not_or, Bool.not_eq_true,
      not_not] at dark
    obtain ⟨still, closed⟩ := dark
    rw [← still, ← closed]

theorem State.head_darken_ne (s : State) {h k : Nat} (ne : k ≠ h) : (s.darken h).head k = s.head k := by
  unfold State.darken
  dsimp only
  split
  · exact State.head_setHead_ne _ _ ne
  · rfl

/-! ## A write of ARM (R71) -/

theorem State.armWrite_heads (s : State) (h : Nat) (v : Bool) :
    (s.armWrite h v).heads = ((s.setRbit Reg.sysOptInterlock h v).darken h).heads := by
  unfold State.armWrite
  dsimp only
  split <;> rfl

theorem State.armWrite_rbit (s : State) (h : Head) (v : Bool) (k : Nat) :
    (s.armWrite h v).rbit Reg.sysOptInterlock k =
      if k = h then v
      else if k = 16 + h then s.rbit Reg.sysOptInterlock (16 + h) && (v || !s.rbit Reg.sysOptInterlock (8 + h))
      else s.rbit Reg.sysOptInterlock k := by
  have hh := h.isLt
  have armed : ((s.setRbit Reg.sysOptInterlock h v).darken h).rbit Reg.sysOptInterlock k =
      if k = h then v else s.rbit Reg.sysOptInterlock k := by
    rw [State.rbit_darken]
    split
    · next same => rw [same, s.rbit_setRbit_same _ _ _ (by omega)]
    · next other => exact s.rbit_setRbit_ne _ _ (by omega) other
  unfold State.armWrite
  dsimp only
  by_cases clears : (!v && s.headokBit h) = true
  · rw [if_pos clears]
    obtain ⟨off, ok⟩ : v = false ∧ s.rbit Reg.sysOptInterlock (8 + h) = true := by
      simpa only [Bool.and_eq_true, Bool.not_eq_true', State.headokBit] using clears
    by_cases trip : k = 16 + h
    · rw [trip, State.rbit_setRbit_same _ _ _ _ (by omega), if_neg (by omega), if_pos rfl, off, ok]
      exact (Bool.and_false _).symm
    · rw [State.rbit_setRbit_ne _ _ _ (by omega) trip, armed, if_neg trip]
  · rw [if_neg clears, armed]
    have kept : (v || !s.rbit Reg.sysOptInterlock (8 + h)) = true := by
      simpa only [State.headokBit, Bool.not_eq_true, Bool.and_eq_false_iff, Bool.not_eq_false', Bool.or_eq_true,
      Bool.not_eq_true'] using clears
    rw [kept, Bool.and_true]
    split
    · rfl
    · split
      · next trip => rw [trip]
      · rfl

theorem State.armWrite_reg_of_ne (s : State) (h : Nat) (v : Bool) {a : Nat} (ne : a ≠ Reg.sysOptInterlock) :
    (s.armWrite h v).reg a = s.reg a := by
  have armed : ((s.setRbit Reg.sysOptInterlock h v).darken h).reg a = s.reg a :=
    (State.reg_darken _ h a).trans (s.reg_setReg_ne _ ne)
  unfold State.armWrite
  dsimp only
  split
  · exact (State.reg_setReg_ne _ _ ne).trans armed
  · exact armed

/-- Clearing TRIP lights no head: the write that clears it also takes ARM away. -/
theorem State.armWrite_lasen (s : State) (h : Head) (v : Bool) :
    (s.armWrite h v).lasen h = (s.setRbit Reg.sysOptInterlock h v).lasen h := by
  have hh := h.isLt
  cases v with
  | true => exact State.lasen_of_regs (State.darken_regs _ h) h
  | false =>
    rw [State.lasen_eq_false_of_arm ((s.armWrite_rbit h false h).trans (if_pos rfl)),
      State.lasen_eq_false_of_arm (s.rbit_setRbit_same _ _ false (by omega))]

theorem State.armWrite_head_ne (s : State) (h : Nat) (v : Bool) {k : Nat} (ne : k ≠ h) :
    (s.armWrite h v).head k = s.head k := by
  rw [State.head, s.armWrite_heads h v]
  exact State.head_darken_ne _ ne

theorem State.armWrite_of_not_lasen {s : State} {h : Head} {v : Bool} (off : (s.armWrite h v).lasen h = false) :
    (s.armWrite h v).head h = { s.head h with gates := 0, playing := false } := by
  rw [State.head, s.armWrite_heads h v]
  exact State.head_darken_of_not_lasen ((s.armWrite_lasen h v).symm.trans off)

theorem State.armWrite_of_lasen {s : State} {h : Head} {v : Bool} (lit : (s.armWrite h v).lasen h = true) :
    (s.armWrite h v).heads = s.heads := by
  rw [s.armWrite_heads h v, State.darken_of_lasen ((s.armWrite_lasen h v).symm.trans lit)]
  rfl

/-! ## A fall of HEADOK (R69, R70, R467) -/

/-- The state of `headokFallen` before it trips: the input and its bit are low, and the head is dark. -/
def State.headokLow (s : State) (h : Nat) : State :=
  ((s.setHead h { s.head h with headok := false, qualifying := false }).setRbit Reg.sysOptInterlock (8 + h) false).darken h

theorem State.headokFallen_eq (s : State) (h : Nat) : s.headokFallen h =
    if s.rbit Reg.sysOptInterlock (8 + h) && s.rbit Reg.sysOptInterlock h then
      ((s.headokLow h).setRbit Reg.sysOptInterlock (16 + h) true).fault (Reg.headFault h) 1
    else s.headokLow h := rfl

theorem State.headokLow_rbit (s : State) (h : Head) : (s.headokLow h).rbit Reg.sysOptInterlock (8 + h) = false :=
  (State.rbit_darken _ _ _ _).trans (State.rbit_setRbit_same _ _ _ _ (by omega))

theorem State.rbit_fault_interlock (s : State) (h m i : Nat) :
    (s.fault (Reg.headFault h) m).rbit Reg.sysOptInterlock i = s.rbit Reg.sysOptInterlock i :=
  congrArg (bitOf · i) (s.fault_reg_of_ne (raiseSpares_of_lt (by decide)) (by lia) m)

theorem State.headokFallen_rbit (s : State) (h : Head) :
    (s.headokFallen h).rbit Reg.sysOptInterlock (8 + h) = false := by
  rw [State.headokFallen_eq]
  split
  · rw [State.rbit_fault_interlock, State.rbit_setRbit_ne _ _ _ (by omega) (by omega)]
    exact s.headokLow_rbit h
  · exact s.headokLow_rbit h

theorem State.headokFallen_trip {s : State} {h : Head} (ok : s.rbit Reg.sysOptInterlock (8 + h) = true)
    (armed : s.rbit Reg.sysOptInterlock h = true) : (s.headokFallen h).rbit Reg.sysOptInterlock (16 + h) = true := by
  rw [State.headokFallen_eq, if_pos (Bool.and_eq_true_iff.mpr ⟨ok, armed⟩), State.rbit_fault_interlock]
  exact State.rbit_setRbit_same _ _ _ _ (by omega)

theorem State.headokFallen_head (s : State) (h k : Nat) : (s.headokFallen h).head k = (s.headokLow h).head k := by
  rw [State.headokFallen_eq]
  split
  · exact State.head_fault _ _ _ _
  · rfl

theorem State.headokFallen_head_same (s : State) (h : Head) : (s.headokFallen h).head h =
    { s.head h with headok := false, qualifying := false, gates := 0, playing := false } := by
  rw [State.headokFallen_head, State.headokLow, State.head_darken_of_not_lasen
    (State.lasen_eq_false_of_headok (State.rbit_setRbit_same _ _ _ _ (by omega))), State.setRbit, State.head_setReg,
    State.head_setHead_same]

theorem State.headokFallen_head_ne (s : State) {h k : Nat} (ne : k ≠ h) : (s.headokFallen h).head k = s.head k := by
  rw [State.headokFallen_head]
  exact (State.head_darken_ne _ ne).trans (State.head_setHead_ne _ _ ne)

/-- From s to t the interlock, the gates, the generator and the input of head h are as they were, and so is every other head. -/
structure State.LaunchKept (h : Nat) (s t : State) : Prop where
  interlock : t.reg Reg.sysOptInterlock = s.reg Reg.sysOptInterlock
  gates : (t.head h).gates = (s.head h).gates
  playing : (t.head h).playing = (s.head h).playing
  headok : (t.head h).headok = (s.head h).headok
  others : ∀ k, k ≠ h → t.head k = s.head k

theorem State.LaunchKept.trans {h : Nat} {s t u : State} (first : s.LaunchKept h t) (second : t.LaunchKept h u) :
    s.LaunchKept h u where
  interlock := second.interlock.trans first.interlock
  gates := second.gates.trans first.gates
  playing := second.playing.trans first.playing
  headok := second.headok.trans first.headok
  others k ne := (second.others k ne).trans (first.others k ne)

theorem State.LaunchKept.refl (h : Nat) (s : State) : s.LaunchKept h s := ⟨rfl, rfl, rfl, rfl, fun _ _ => rfl⟩

theorem State.launchKept_of_eq {h : Nat} {s t : State} (regs : t.reg Reg.sysOptInterlock = s.reg Reg.sysOptInterlock)
    (heads : t.heads = s.heads) : s.LaunchKept h t := by
  have same (k : Nat) : t.head k = s.head k := congrArg (fun heads : Store HeadSt => heads.get {} k) heads
  exact ⟨regs, congrArg _ (same h), congrArg _ (same h), congrArg _ (same h), fun k _ => same k⟩

theorem State.LaunchKept.setSched {h : Nat} {s t : State} (kept : s.LaunchKept h t) (k : Nat) (x : SchedSt) :
    s.LaunchKept h (t.setSched k x) := kept.trans (State.launchKept_of_eq rfl rfl)

theorem State.LaunchKept.setCe {h : Nat} {s t : State} (kept : s.LaunchKept h t) (k : Nat) (x : CeSt) :
    s.LaunchKept h (t.setCe k x) := kept.trans (State.launchKept_of_eq rfl rfl)

theorem State.shotTripped_launchKept (s : State) (h : Nat) (i : BitVec 48) : s.LaunchKept h (s.shotTripped h i) := by
  have counted : s.LaunchKept h (s.count (Reg.headSkipCnt h) 1) := State.launchKept_of_eq (s.reg_setReg_ne _ (by lia)) rfl
  exact forEach_keeps (s.LaunchKept h) _ _ _ (fun _ _ kept => kept.setCe _ _) counted

theorem State.settleBack_launchKept (s : State) (h : Nat) : s.LaunchKept h (s.settleBack h) := by
  have counts (n : BitVec 8) (l : List Nat) : s.LaunchKept h (s.setHead h { s.head h with settled := n, settle := l }) := by
    refine ⟨rfl, ?_, ?_, ?_, fun k ne => State.head_setHead_ne _ _ ne⟩ <;> rw [State.head_setHead_same]
  unfold State.settleBack
  dsimp only
  split
  · exact forEach_keeps (s.LaunchKept h) _ _ _ (fun _ _ kept => kept.setCe _ _) (counts _ _)
  · exact counts _ _

/-- HEADOK_FALL darkens and trips the head; the treatment of its shots in flight leaves the launch alone. -/
theorem exec_headokFall (s : State) (h : Head) (n : Nat) :
    ∃ t, exec (.headokFall h n) s = .next t ∧ (s.headokFallen h).LaunchKept h t := by
  refine ⟨_, rfl, .setSched ?_ _ _⟩
  have previous (c : Bool) (i : BitVec 48) : (s.headokFallen h).LaunchKept h
      (if c then ((s.headokFallen h).shotTripped h i).settleBack h else s.headokFallen h) := by
    split
    · exact (State.shotTripped_launchKept _ _ _).trans (State.settleBack_launchKept _ _)
    · exact .refl _ _
  have settled (t : State) (c : Bool) : t.LaunchKept h (t.when c (·.settleBack h)) := by
    unfold State.when
    split
    · exact t.settleBack_launchKept h
    · exact .refl _ _
  split
  · exact ((previous _ _).trans (State.shotTripped_launchKept _ _ _)).trans (settled _ _)
  · exact previous _ _

/-! ## The temperature of a head (R73) -/

theorem State.setDuty_fld (s : State) (h d : Nat) : (s.setDuty h d).fld (Reg.headDuty h) 16 0 = d % 2 ^ 17 := by
  have kept (t : State) (i : Nat) (b : Bool) :
      (t.setRbit (Reg.headStatus h) i b).fld (Reg.headDuty h) 16 0 = t.fld (Reg.headDuty h) 16 0 :=
    congrArg (field · 16 0) (t.reg_setReg_ne _ (by lia))
  rw [State.setDuty, kept, kept]
  exact s.fld_setFld_same _ _ _ (by decide)

/-- What a reading that derates to D and a suspension makes of the head. -/
theorem State.headTemp_of_derate {s : State} {h : Nat} {x : Int} {d : Nat} {sus : Bool}
    (rule : derate x (s.fldS (Reg.headThermLim h) 15 0) (s.fldS (Reg.headThermLim h) 31 16)
      (s.fld (Reg.headThermCfg h) 7 0) (s.head h).suspended = (d, sus)) :
    ((s.headTemp h x).head h).suspended = sus ∧ (s.headTemp h x).fld (Reg.headDuty h) 16 0 = d % 2 ^ 17 ∧
      (sus = true → (s.head h).suspended = false → (s.headTemp h x).rbit (Reg.headFault h) 1 = true) := by
  unfold State.headTemp
  dsimp only
  rw [rule]
  split
  · refine ⟨?suspended, ?duty, fun _ _ => State.fault_rbit_self _ (raiseSpares_of_headBase_le (by lia)) (by decide) (by decide)⟩
    case suspended =>
      rw [State.head_fault]
      exact congrArg HeadSt.suspended (State.head_setHead_same _ h _)
    case duty =>
      have kept := State.fault_reg_of_ne (a := Reg.headDuty h) (b := Reg.headFault h)
      rw [State.fld, kept _ (raiseSpares_of_headBase_le (by lia)) (by lia)]
      exact State.setDuty_fld _ h d
  · next quiet =>
    refine ⟨congrArg HeadSt.suspended (State.head_setHead_same _ h _), State.setDuty_fld _ h d, fun on was => ?_⟩
    exact absurd (by rw [on, was]; rfl) quiet

theorem derate_of_limit_le {x warn limit : Int} (hyst : Nat) (was : Bool) (hot : limit ≤ x) :
    derate x warn limit hyst was = (0, true) := if_pos hot

theorem derate_of_le_warn {x warn limit : Int} (hyst : Nat) (cool : x < limit) (low : x ≤ warn) :
    derate x warn limit hyst false = (65536, false) := by
  rw [derate, if_neg (by omega), if_neg (fun held => Bool.false_ne_true held.1), if_pos low]

theorem exec_headTempReading {s : State} (h : Head) (x : Int) (notShut : s.shut = false) :
    exec (.headTempReading h x) s = .next (s.headTemp h x) :=
  if_neg (by rw [notShut]; decide)

theorem exec_headTempStale {s : State} {h : Head} (valid : s.rbit (Reg.headHeadTemp h) 16 = true)
    (fresh : s.rbit (Reg.headHeadTemp h) 17 = false) : exec (.headTempStale h) s =
      .next (((s.setRbit (Reg.headHeadTemp h) 17 true).setDuty h 0).fault (Reg.headFault h) 4) :=
  congrArg Host.Outcome.next (if_pos (by rw [valid, fresh]; rfl))

/-! ## The launch supervisor (R67) -/

theorem exec_lmonEdge {s : State} {ch : Chan} (e ofs : Nat) (notShut : s.shut = false)
    (isOpen : (s.head (ch / 8)).lmonOpen.getLsbD (ch % 8) = true) :
    exec (.lmonEdge ch e ofs) s = .next ((s.setHead (ch / 8) { s.head (ch / 8) with
      lmonSeen := withBit (s.head (ch / 8)).lmonSeen (ch % 8) true,
      missRun := (s.head (ch / 8)).missRun.set (ch % 8) 0 }).tdcEdge ch false e ofs) := by
  have seen := congrArg (fun t : State => t.tdcEdge ch false e ofs) (if_pos isOpen : s.lmonSeen (ch / 8) (ch % 8) = _)
  exact (if_neg (by rw [notShut]; decide)).trans (congrArg Host.Outcome.next seen)

/-- A window that closed without an edge is one miss more than MISS_LIMIT allows. -/
def HeadSt.missHits (x : HeadSt) (j : Nat) : Bool :=
  decide (x.missLimit ≠ 0) && decide (x.missLimit ≤ nth x.missRun j 0 + 1)

/-- What LMON_MISS makes of the state before its fault (R67): the window and the gate of channel j close, and the miss counts. -/
def State.missCounted (s : State) (h j : Nat) : State :=
  let x := s.head h
  (s.setHead h { x with
      lmonOpen := withBit x.lmonOpen j false, gates := withBit x.gates j false,
      missRun := setNth x.missRun j (if x.missHits j then 0 else nth x.missRun j 0 + 1) }).setFld
    (Reg.headMiss h j) 15 0 (min (s.fld (Reg.headMiss h j) 15 0 + 1) 65535)

theorem exec_lmonMiss {s : State} {ch : Chan} (notShut : s.shut = false)
    (isOpen : (s.head (ch / 8)).lmonOpen.getLsbD (ch % 8) = true)
    (unseen : (s.head (ch / 8)).lmonSeen.getLsbD (ch % 8) = false) :
    exec (.lmonMiss ch) s = .next (if (s.head (ch / 8)).missHits (ch % 8) then
      (s.missCounted (ch / 8) (ch % 8)).fault (Reg.headFault (ch / 8)) (2 ^ (8 + ch.val % 8))
      else s.missCounted (ch / 8) (ch % 8)) := by
  refine (if_neg (by rw [notShut]; decide)).trans (if_neg ?_)
  rw [isOpen, unseen]
  decide

theorem State.missCounted_fld (s : State) (h j : Nat) : (s.missCounted h j).fld (Reg.headMiss h j) 15 0 =
    min (s.fld (Reg.headMiss h j) 15 0 + 1) 65535 := by
  rw [State.missCounted, State.fld_setFld_same _ _ _ _ (by decide)]
  exact Nat.mod_eq_of_lt (by omega)

theorem State.missCounted_missRun {s : State} {h j : Nat} (inRange : j < (s.head h).missRun.length) :
    ((s.missCounted h j).head h).missRun.getD j 0 =
      if (s.head h).missHits j then 0 else (s.head h).missRun.getD j 0 + 1 := by
  rw [State.missCounted, State.setFld, State.head_setReg, State.head_setHead_same]
  simp only [setNth, nth, List.getD_eq_getElem?_getD, List.getElem?_set_self inRange, Option.getD_some]

theorem HeadSt.missHits_iff (x : HeadSt) (j : Nat) :
    x.missHits j = true ↔ 0 < x.missLimit ∧ x.missLimit ≤ x.missRun.getD j 0 + 1 := by
  rw [HeadSt.missHits, Bool.and_eq_true, decide_eq_true_iff, decide_eq_true_iff, Nat.pos_iff_ne_zero]
  rfl

/-- What a window that closes without an edge makes of the count, the fault and the run of its channel. -/
theorem exec_lmonMiss_spec {s : State} {ch : Chan} (notShut : s.shut = false)
    (isOpen : (s.head (ch / 8)).lmonOpen.getLsbD (ch % 8) = true)
    (unseen : (s.head (ch / 8)).lmonSeen.getLsbD (ch % 8) = false) :
    ∃ t, exec (.lmonMiss ch) s = .next t ∧
      t.fld (Reg.headMiss (ch / 8) (ch % 8)) 15 0 = min (s.fld (Reg.headMiss (ch / 8) (ch % 8)) 15 0 + 1) 65535 ∧
      ((s.head (ch / 8)).missHits (ch % 8) = true → t.rbit (Reg.headFault (ch / 8)) (8 + ch % 8) = true) ∧
      t.head (ch / 8) = (s.missCounted (ch / 8) (ch % 8)).head (ch / 8) := by
  refine ⟨_, exec_lmonMiss notShut isOpen unseen, ?_⟩
  split
  · refine ⟨?count, fun _ => ?bit, State.head_fault _ _ _ _⟩
    case count =>
      have kept := State.fault_reg_of_ne (s.missCounted (ch / 8) (ch % 8)) (a := Reg.headMiss (ch / 8) (ch % 8))
        (raiseSpares_of_headBase_le (by lia)) (b := Reg.headFault (ch / 8)) (by lia)
      rw [State.fld, kept]
      exact s.missCounted_fld _ _
    case bit =>
      exact State.fault_rbit_self _ (raiseSpares_of_headBase_le (by lia)) (by omega) Nat.testBit_two_pow_self
  · next within => exact ⟨s.missCounted_fld _ _, fun hit => absurd hit within, rfl⟩

/-! ## The obligation -/

theorem exec_headokQualified {s : State} {h : Head} (high : (s.head h).headok = true)
    (counting : (s.head h).qualifying = true) : exec (.headokQualified h) s =
      .next ((s.setHead h { s.head h with qualifying := false }).setRbit Reg.sysOptInterlock (8 + h) true) :=
  if_pos (by rw [high, counting]; rfl)

theorem exec_armWrite {s : State} (q : Req) (h : Head) (v : Bool) (notShut : s.shut = false) :
    exec (.armWrite q h v) s = .next (s.armWrite h v) :=
  congrArg Host.Outcome.next (if_neg (by rw [notShut]; decide))

/-- Settles O8: a fall darkens by `darken` and what follows it keeps the launch; the rest is one rule of the model per clause. -/
theorem headokArmTemperatureAndSupervisor : Obligations.HeadokArmTemperatureAndSupervisor := by
  refine ⟨⟨⟨fun _ _ => rfl, fun _ _ => exec_headokQualified, ?arm⟩, ⟨?hot, ?cool, fun _ _ => exec_headTempStale,
    fun _ _ e ofs => exec_lmonEdge e ofs, ?miss⟩⟩, ?fall⟩
  case arm =>
    intro s q h v notShut
    have bit := s.armWrite_rbit h v
    refine ⟨_, exec_armWrite q h v notShut, (bit h).trans (if_pos rfl),
      (bit (16 + h)).trans ((if_neg (by omega)).trans (if_pos rfl)),
      fun k arm trip => (bit k).trans ((if_neg arm).trans (if_neg trip)), fun a => s.armWrite_reg_of_ne h v,
      fun k => s.armWrite_head_ne h v, fun off => ?_, State.armWrite_of_lasen⟩
    rw [State.armWrite_of_not_lasen off]
    exact ⟨rfl, rfl⟩
  case hot =>
    intro s h x notShut hot
    obtain ⟨suspended, duty, fault⟩ := State.headTemp_of_derate (derate_of_limit_le _ _ hot)
    exact ⟨_, exec_headTempReading h x notShut, suspended, duty, fault rfl⟩
  case cool =>
    intro s h x notShut below clear low
    have full := derate_of_le_warn (s.fld (Reg.headThermCfg h) 7 0) below low
    rw [← clear] at full
    obtain ⟨suspended, duty, -⟩ := State.headTemp_of_derate full
    exact ⟨_, exec_headTempReading h x notShut, suspended.trans clear, duty⟩
  case miss =>
    intro s ch notShut isOpen unseen
    obtain ⟨t, ran, count, fault, head⟩ := exec_lmonMiss_spec notShut isOpen unseen
    refine ⟨t, ran, count, fun limit => fault ((HeadSt.missHits_iff _ _).mpr (by omega)), fun whole => ?_⟩
    rw [head, State.missCounted_missRun (by omega)]
    simp only [HeadSt.missHits_iff]
  case fall =>
    intro s h n
    obtain ⟨t, ran, kept⟩ := exec_headokFall s h n
    have bit (i : Nat) : t.rbit Reg.sysOptInterlock i = (s.headokFallen h).rbit Reg.sysOptInterlock i :=
      congrArg (bitOf · i) kept.interlock
    have low := (bit _).trans (s.headokFallen_rbit h)
    have dark := s.headokFallen_head_same h
    exact ⟨t, ran, low, State.lasen_eq_false_of_headok low, kept.gates.trans (congrArg _ dark),
      kept.playing.trans (congrArg _ dark), kept.headok.trans (congrArg _ dark),
      fun ok armed => (bit _).trans (State.headokFallen_trip ok armed),
      fun k ne => (kept.others k ne).trans (s.headokFallen_head_ne ne)⟩

end Sys2Proof.Machine
end

section
/-!
PROOFS. The commit of a probe set and the chirp synthesiser (O9): the commands of R56, R57 and R62, the length of a chirp, and a
sample read back from the half of the 72-bit word it is written to (R54).
-/
namespace Sys2Proof.Machine

/-! ## A sample of the probe memory (R54) -/

/-- A field inside a field is a field of the word. -/
theorem field_of_field {w hi lo : Nat} (v : BitVec w) {top bot : Nat} (low : lo ≤ bot) (high : top ≤ hi) :
    field v top bot = field v hi lo / 2 ^ (bot - lo) % 2 ^ (top + 1 - bot) := by
  refine Nat.eq_of_testBit_eq fun i => ?_
  simp only [field, Nat.testBit_mod_two_pow, Nat.testBit_div_two_pow]
  by_cases h : i < top + 1 - bot
  · simp only [show i + (bot - lo) < hi + 1 - lo by omega, show i + (bot - lo) + lo = i + bot by omega, decide_true,
      Bool.true_and]
  · simp only [h, decide_false, Bool.false_and]

/-- The 18-bit number that holds a value reads as that value (R14). -/
theorem wrap_toNat_emod {x : Int} (low : -2 ^ 17 ≤ x) (high : x < 2 ^ 17) : wrap ((x % 2 ^ 18).toNat : Nat) 18 = x := by
  unfold wrap
  dsimp only
  split <;> omega

/-- A sample packed as I above Q, 18 bits each. -/
def packSample (i q : Int) : Nat := (i % 2 ^ 18).toNat * 2 ^ 18 + (q % 2 ^ 18).toNat

theorem packSample_upper (i q : Int) : packSample i q % 2 ^ 36 / 2 ^ 18 % 2 ^ 18 = (i % 2 ^ 18).toNat := by
  unfold packSample
  omega

theorem packSample_lower (i q : Int) : packSample i q % 2 ^ 36 / 2 ^ 0 % 2 ^ 18 = (q % 2 ^ 18).toNat := by
  unfold packSample
  omega

section
variable {s : State} {i q : Int} (iLow : -2 ^ 17 ≤ i) (iHigh : i < 2 ^ 17) (qLow : -2 ^ 17 ≤ q) (qHigh : q < 2 ^ 17)
include iLow iHigh qLow qHigh

/-- The upper and the lower 18 bits of a half of a word are I and Q of the sample packed into it. -/
theorem fieldS_withField_packSample (v : W72) {top iBot qTop bot : Nat} (inWord : top < 72) (half : top = bot + 35)
    (upper : iBot = bot + 18) (lower : qTop = bot + 17) : (fieldS (withField v top bot (packSample i q)) top iBot,
      fieldS (withField v top bot (packSample i q)) qTop bot) = (i, q) := by
  have whole := field_withField (lo := bot) v (packSample i q) inWord
  rw [fieldS, fieldS, field_of_field (hi := top) (lo := bot) (bot := iBot) _ (by omega) (by omega),
    field_of_field (hi := top) (lo := bot) (top := qTop) _ (by omega) (by omega), whole,
    show top + 1 - bot = 36 by omega, show iBot - bot = 18 by omega, show top + 1 - iBot = 18 by omega,
    show bot - bot = 0 by omega, show qTop + 1 - bot = 18 by omega, packSample_upper, packSample_lower,
    wrap_toNat_emod iLow iHigh, wrap_toNat_emod qLow qHigh]

theorem State.probeSample_setProbeSample (h bank n : Nat) :
    (s.setProbeSample h bank n i q).probeSample h bank n = (i, q) := by
  unfold State.probeSample State.setProbeSample
  dsimp only
  rw [Store.get_set_same]
  by_cases even : n % 2 = 0
  · rw [if_pos even, if_pos even]
    exact fieldS_withField_packSample iLow iHigh qLow qHigh _ (by decide) rfl rfl rfl
  · rw [if_neg even, if_neg even]
    exact fieldS_withField_packSample iLow iHigh qLow qHigh _ (by decide) rfl rfl rfl

end

/-! ## The chirp synthesiser (R56, R57) -/

theorem length_chirpFrom (amp code len : Nat) (rate : Int) (k n ph : Nat) (fr : Int) :
    (chirpFrom amp code len rate k n ph fr).length = k := by
  induction k generalizing n ph fr with
  | zero => rfl
  | succ k ih => exact congrArg (· + 1) (ih _ _ _)

/-- CHIRP_GO is refused: a chirp runs, or its bank is the running head's active one or the pending set's. -/
def State.ChirpHeld (s : State) (h : Nat) : Prop :=
  s.rbit (Reg.headStatus h) 5 = true ∨
    s.headRunning h = true ∧ (s.head h).act.bank = s.fld (Reg.headChirpCfg h) 20 20 ∨
    (s.head h).pend.map ProbeSet.bank = some (s.fld (Reg.headChirpCfg h) 20 20)

/-- The test of CHIRP_GO is `ChirpHeld`. -/
theorem State.chirpHeld_iff (s : State) (h : Nat) : s.ChirpHeld h ↔
    (s.rbit (Reg.headStatus h) 5 || (s.headRunning h && decide ((s.head h).act.bank = s.fld (Reg.headChirpCfg h) 20 20)) ||
      match (s.head h).pend with
      | some p => decide (p.bank = s.fld (Reg.headChirpCfg h) 20 20)
      | none => false) = true := by
  rw [State.ChirpHeld, Bool.or_eq_true, Bool.or_eq_true, Bool.and_eq_true, decide_eq_true_iff, or_assoc]
  cases (s.head h).pend with
  | none => simp only [Bool.false_eq_true, Option.map_none, reduceCtorEq]
  | some p => simp only [decide_eq_true_eq, Option.map_some, Option.some.injEq]

theorem State.chirpGo_of_held {s : State} {h : Nat} (q : Req) (held : s.ChirpHeld h) :
    s.chirpGo h q = s.err (headBase h) .busy 0x50 q := if_pos ((s.chirpHeld_iff h).mp held)

theorem State.chirpGo_of_free {s : State} {h : Nat} (q : Req) (free : ¬ s.ChirpHeld h) :
    s.chirpGo h q = s.setRbit (Reg.headStatus h) 5 true := if_neg fun held => free ((s.chirpHeld_iff h).mpr held)

/-! ## The obligation -/

theorem exec_probeCommit {s : State} (q : Req) (h : Head) (notShut : s.shut = false) :
    exec (.probeCommit q h) s = .next (s.probeCommitted h q) :=
  congrArg Host.Outcome.next (if_neg (by rw [notShut]; decide))

theorem exec_chirpGo {s : State} (q : Req) (h : Head) (notShut : s.shut = false) :
    exec (.chirpGo q h) s = .next (s.chirpGo h q) :=
  congrArg Host.Outcome.next (if_neg (by rw [notShut]; decide))

theorem State.laneRestart_of_none {s : State} {h : Nat} (none : s.laneStep h = none) : s.laneRestart h = s := by
  rw [State.laneRestart, none]

theorem State.probeCommitted_of_ok {s : State} {h : Nat} (q : Req) (ok : s.commitOk h = true) (noStep : s.laneStep h = none) :
    s.probeCommitted h q =
      (s.setHead h { s.head h with pend := some (s.staged h) }).setRbit (Reg.headStatus h) 6 true := by
  rw [State.probeCommitted, if_pos ok, State.probeCommit, if_pos ok]
  exact State.laneRestart_of_none noStep

theorem State.probeCommitted_of_not_ok {s : State} {h : Nat} (q : Req) (bad : s.commitOk h = false) :
    s.probeCommitted h q = s.err (headBase h) .range 0x14 q := by
  have no : ¬ s.commitOk h = true := by rw [bad]; decide
  rw [State.probeCommitted, if_neg no, State.probeCommit, if_neg no]

theorem State.setOk_of_commitOk {s : State} {h : Nat} (ok : s.commitOk h = true) :
    s.setOk h (s.period h) (s.staged h) (s.gateEn h) (s.counts h) = true ∧
      ∀ p ∈ s.periods h, gapOk p (s.staged h) (s.gateEn h) (s.counts h) = true := by
  obtain ⟨set, every⟩ := Bool.and_eq_true_iff.mp ok
  exact ⟨set, fun p mem => (Bool.and_eq_true_iff.mp (List.all_eq_true.mp every p mem)).1⟩

/-- Settles O9: one rule per command of the synthesiser, and the halves of a probe word for the sample read back. -/
theorem probeSetCommitAndChirpSynthesis : Obligations.ProbeSetCommitAndChirpSynthesis := by
  refine ⟨⟨fun _ _ => State.setOk_of_commitOk, ?commit, ?refuse⟩, ?go, ?held, fun _ _ => length_chirpFrom _ _ _ _ _ _ _ _,
    fun _ _ busy => if_pos busy, fun _ h bank n _ _ iLow iHigh qLow qHigh =>
      State.probeSample_setProbeSample iLow iHigh qLow qHigh h bank n⟩
  case commit =>
    intro s q h notShut ok noStep
    rw [exec_probeCommit q h notShut, State.probeCommitted_of_ok q ok noStep]
  case refuse =>
    intro s q h notShut bad
    rw [exec_probeCommit q h notShut, State.probeCommitted_of_not_ok q bad]
  case go =>
    intro s q h notShut idle notActive notPending
    have free : ¬ s.ChirpHeld h := by
      rintro (busy | ⟨running, same⟩ | pending)
      · exact absurd (idle.symm.trans busy) (by decide)
      · exact notActive running same
      · obtain ⟨p, set, same⟩ := Option.map_eq_some_iff.mp pending
        exact notPending p set same
    rw [exec_chirpGo q h notShut, State.chirpGo_of_free q free]
  case held =>
    intro s q h notShut held
    rw [exec_chirpGo q h notShut, State.chirpGo_of_held q held]

end Sys2Proof.Machine
end

section
/-!
PROOFS. Sub-probes, followers and local seconds (O11): what a local second leaves of time and of the status registers, how it
puts a head that lost its alignment into ALIGN_WAIT, and the commands of R58, R99 and R100.
-/
namespace Sys2Proof.Machine

/-! ## Repetitions over a list -/

theorem forEach_of_fixed {σ : Type} {f : Nat → σ → σ} {l : List Nat} {s : σ} (fixed : ∀ i ∈ l, f i s = s) :
    forEach l f s = s :=
  List.foldlRecOn (motive := fun t => t = s) l _ rfl fun t same i hi => by rw [same]; exact fixed i hi

/-- What one step brings about and every step keeps holds after a repetition with that step in it. -/
theorem forEach_reaches {σ : Type} (P : σ → Prop) {f : Nat → σ → σ} {i : Nat} (kept : ∀ j t, P t → P (f j t))
    (reached : ∀ t, P (f i t)) : (l : List Nat) → (s : σ) → i ∈ l → P (forEach l f s)
  | j :: l, s, mem => by
    obtain rfl | later := List.mem_cons.mp mem
    · exact forEach_keeps P f l _ kept (reached s)
    · exact forEach_reaches P kept reached l (f j s) later

theorem testBit_bitsToNat (l : List Bool) (i : Nat) : (bitsToNat l).testBit i = l.getD i false := by
  induction l generalizing i with
  | nil => simp [bitsToNat]
  | cons b l ih =>
    cases i with
    | zero => cases b <;> simp [bitsToNat, b2n]
    | succ i =>
      rw [List.getD_cons_succ, ← ih i, Nat.testBit_succ, bitsToNat]
      congr 1
      cases b <;> simp only [b2n, if_true, Bool.false_eq_true, if_false] <;> omega

/-! ## An edge of an internal source (R117) -/

theorem State.tdcEdgeAt_time (s : State) (now u : Nat) (stop : Bool) (e ofs : Nat) :
    (s.tdcEdgeAt now u stop e ofs).time = s.time := by
  unfold State.tdcEdgeAt
  dsimp only
  split
  · rfl
  · split
    · split <;> rfl
    · split <;> rfl

theorem State.tdcEdgeAt_reg (s : State) (now u : Nat) (stop : Bool) (e ofs : Nat) {a : Nat} (ne : a ≠ Reg.tdcExtraCnt u) :
    (s.tdcEdgeAt now u stop e ofs).reg a = s.reg a := by
  unfold State.tdcEdgeAt
  dsimp only
  split
  · rfl
  · split
    · split <;> rfl
    · split
      · rfl
      · exact State.reg_setReg_ne _ _ ne

theorem lt_of_mem_generalUnits {u : Nat} (mem : u ∈ (List.range 8).map (· + 32)) : 32 ≤ u ∧ u < 40 := by
  obtain ⟨n, hn, rfl⟩ := List.mem_map.mp mem
  have := List.mem_range.mp hn
  omega

/-- What an edge at a general unit keeps, an edge of an internal source keeps. -/
theorem State.sourceEdge_keeps {P : State → Prop} (s : State) (code steps : Nat)
    (kept : ∀ t now u stop e ofs, 32 ≤ u → u < 40 → P t → P (t.tdcEdgeAt now u stop e ofs)) (h : P s) :
    P (s.sourceEdge code steps) := by
  refine List.foldlRecOn (motive := P) _ _ h fun t ht u mem => ?_
  obtain ⟨low, high⟩ := lt_of_mem_generalUnits mem
  have input (v : State) (hv : P v) (stop : Bool) (now e ofs : Nat) :
      P (if v.tdcSrc u stop = code then v.tdcEdgeAt now u stop e ofs else v) := by
    split
    · exact kept v now u stop e ofs low high hv
    · exact hv
  exact input _ (input t ht false _ _ _) true _ _ _

theorem State.sourceEdge_of_unnamed {s : State} {code : Nat} (steps : Nat)
    (unnamed : ∀ (u : Fin 8) (stop : Bool), s.tdcSrc (32 + u) stop ≠ code) : s.sourceEdge code steps = s := by
  refine forEach_of_fixed fun u mem => ?_
  obtain ⟨low, high⟩ := lt_of_mem_generalUnits mem
  have none (stop : Bool) : s.tdcSrc u stop ≠ code := by
    have at32 := unnamed ⟨u - 32, by omega⟩ stop
    rwa [show 32 + (u - 32) = u by omega] at at32
  simp only [if_neg (none false), if_neg (none true)]

/-! ## Heads in PPS mode at a local second (R100) -/

theorem State.sched_setTime (s : State) (x : TimeSt) (h : Nat) : State.sched { s with time := x } h = s.sched h := rfl

theorem State.reg_setTime (s : State) (x : TimeSt) (a : Nat) : State.reg { s with time := x } a = s.reg a := rfl

theorem State.sched_advance (s : State) (n h : Nat) : (s.advance n).sched h = s.sched h := s.sched_setTime _ h

theorem State.reg_advance (s : State) (n a : Nat) : (s.advance n).reg a = s.reg a := s.reg_setTime _ a

theorem State.ppsSecond_of_off {s : State} {h : Nat} (e : Int) (off : s.ppsOn h = false) : s.ppsSecond h e = s :=
  if_pos (by rw [off]; rfl)

theorem State.ppsSecond_time (s : State) (h : Nat) (e : Int) : (s.ppsSecond h e).time = s.time := by
  unfold State.ppsSecond
  split <;> rfl

theorem State.fault_time (s : State) (a m : Nat) : (s.fault a m).time = s.time := by
  obtain ⟨r, v, x, y, n, f, same⟩ := s.fault_raiseOnly a m
  rw [same]

theorem State.fault_zero (s : State) (a : Nat) : s.fault a 0 = s := if_pos BitVec.zero_and

theorem State.alignLost_of_none {s : State} {lost : Nat → Bool} (none : ∀ h < 4, lost h = false) : s.alignLost lost = s := by
  have heads : (List.range 4).filter lost = [] :=
    List.filter_eq_nil_iff.mpr fun h mem => by rw [none h (List.mem_range.mp mem)]; decide
  have bits : (List.range 4).map lost = (List.range 4).map fun _ => false :=
    List.map_congr_left fun h mem => none h (List.mem_range.mp mem)
  rw [State.alignLost, heads, bits]
  exact s.fault_zero _

theorem State.alignLost_time (s : State) (lost : Nat → Bool) : (s.alignLost lost).time = s.time :=
  (State.fault_time _ _ _).trans (forEach_keeps (fun t : State => t.time = s.time) _ _ s (fun _ _ same => same) rfl)

/-- The head waits for its alignment: ALIGN_WAIT is 1 and ALIGNED 0. -/
def State.AlignWaits (h : Nat) (s : State) : Prop :=
  s.rbit (Reg.shotStatus h) 3 = true ∧ s.rbit (Reg.shotStatus h) 2 = false

theorem State.AlignWaits.of_reg {h : Nat} {s t : State} (waits : s.AlignWaits h)
    (same : t.reg (Reg.shotStatus h) = s.reg (Reg.shotStatus h)) : t.AlignWaits h :=
  ⟨(congrArg (bitOf · 3) same).trans waits.1, (congrArg (bitOf · 2) same).trans waits.2⟩

theorem State.alignWait_alignWaits (s : State) (h : Nat) : (s.alignWait h).AlignWaits h :=
  ⟨(State.rbit_setRbit_ne _ _ _ (by decide) (by decide)).trans (State.rbit_setRbit_same _ _ _ _ (by decide)),
    State.rbit_setRbit_same _ _ _ _ (by decide)⟩

theorem State.alignWait_keeps {h : Nat} {s : State} (k : Nat) (waits : s.AlignWaits h) : (s.alignWait k).AlignWaits h := by
  by_cases same : k = h
  · rw [same]; exact s.alignWait_alignWaits h
  · have other : Reg.shotStatus h ≠ Reg.shotStatus k := by lia
    exact waits.of_reg ((State.reg_setReg_ne _ _ other).trans (State.reg_setReg_ne _ _ other))

/-- A head that loses its alignment waits for it, and its ALIGN_LOST is set. -/
theorem State.alignLost_of_lost (s : State) {lost : Nat → Bool} {h : Head} (isLost : lost h = true) :
    (s.alignLost lost).AlignWaits h ∧ (s.alignLost lost).rbit Reg.shotFault h = true := by
  have hh := h.isLt
  have mem : h.val ∈ (List.range 4).filter lost := List.mem_filter.mpr ⟨List.mem_range.mpr hh, isLost⟩
  have waits := forEach_reaches (State.AlignWaits h) (f := fun k t => t.alignWait k) (fun k _ => State.alignWait_keeps k)
    (fun t => t.alignWait_alignWaits h) _ s mem
  have asked : (bitsToNat ((List.range 4).map lost)).testBit h = true := by
    rw [testBit_bitsToNat, List.getD_eq_getElem?_getD, List.getElem?_map, List.getElem?_range hh]
    exact isLost
  exact ⟨waits.of_reg (State.fault_reg_of_ne _ (raiseSpares_of_lt (by lia)) (by lia) _),
    State.fault_rbit_self _ (raiseSpares_of_lt (by decide)) (by omega) asked⟩

/-! ## The commands -/

theorem exec_localSecond {s : State} (e0 e1 e2 e3 : Int) (notShut : s.shut = false) :
    exec (.localSecond e0 e1 e2 e3) s = .next ((s.advance s.toSecond).secondPassed e0 e1 e2 e3) :=
  congrArg Host.Outcome.next (if_neg (by rw [notShut]; decide))

theorem State.secondPassed_of_off {s : State} (e0 e1 e2 e3 : Int) (off : ∀ h < 4, (s.sched h).mode ≠ 2)
    (unnamed : ∀ (u : Fin 8) (stop : Bool), s.tdcSrc (32 + u) stop ≠ 8) : s.secondPassed e0 e1 e2 e3 = s := by
  have ppsOff (h : Nat) (hh : h < 4) : s.ppsOn h = false := by
    rw [State.ppsOn, decide_eq_false (off h hh), Bool.false_and]
  unfold State.secondPassed
  dsimp only
  rw [State.ppsSecond_of_off e0 (ppsOff 0 (by decide)), State.ppsSecond_of_off e1 (ppsOff 1 (by decide)),
    State.ppsSecond_of_off e2 (ppsOff 2 (by decide)), State.ppsSecond_of_off e3 (ppsOff 3 (by decide)),
    State.alignLost_of_none fun h hh => by rw [State.ppsLost, ppsOff h hh]; rfl]
  exact State.sourceEdge_of_unnamed 0 unnamed

theorem State.secondPassed_time (s : State) (e0 e1 e2 e3 : Int) : (s.secondPassed e0 e1 e2 e3).time = s.time := by
  refine State.sourceEdge_keeps (P := fun t => t.time = s.time) _ _ _
    (fun t now u stop e ofs _ _ same => (t.tdcEdgeAt_time now u stop e ofs).trans same) ?_
  rw [State.alignLost_time]
  simp only [State.ppsSecond_time]

theorem State.secondPassed_of_lost {s : State} {e0 e1 e2 e3 : Int} {h : Head}
    (isLost : s.ppsLost h (nth [e0, e1, e2, e3] h 0) = true) :
    (s.secondPassed e0 e1 e2 e3).AlignWaits h ∧ (s.secondPassed e0 e1 e2 e3).rbit Reg.shotFault h = true := by
  refine State.sourceEdge_keeps (P := fun t => t.AlignWaits h ∧ t.rbit Reg.shotFault h = true) _ _ _
    (fun t now u stop e ofs low high lost => ?_) (State.alignLost_of_lost _ isLost)
  obtain ⟨waits, fault⟩ := lost
  exact ⟨waits.of_reg (t.tdcEdgeAt_reg now u stop e ofs (by lia)),
    (congrArg (bitOf · h) (t.tdcEdgeAt_reg now u stop e ofs (by lia))).trans fault⟩

theorem exec_subProbeLaunch {s : State} {h : Head} {k : Fin 8} (launched : (s.sched h).launched = true)
    (started : (s.sched h).started = true) (notTripped : (s.sched h).tripped = false) (probes : s.noProbe = false)
    (inTrain : k.val < trainLen (s.head h).act.train) : exec (.subProbeLaunch h k) s = .next (if k.val = 0 then
      forEach (List.range 8) (fun j t =>
        if (t.head h).gateEn.getLsbD j then (t.tdcArm (8 * h + j)).markerEdge h j else t) ((s.play h k).lmonArm h)
      else s.play h k) :=
  congrArg Host.Outcome.next (if_pos (by rw [launched, started, notTripped, probes, decide_eq_true inTrain]; rfl))

theorem exec_followLost {s : State} {h : Head} (following : s.rbit (Reg.shotStatus h) 1 = true)
    (follows : (s.sched h).mode = 1) (stopped : s.rbit (Reg.shotCfg (s.sched h).src) 0 = false) :
    exec (.followLost h) s = .next ((s.setRbit (Reg.shotStatus h) 1 false).fault Reg.shotFault (2 ^ (4 + h.val))) :=
  congrArg Host.Outcome.next (if_pos (by rw [following, follows, State.schedOn, stopped]; rfl))

/-- Settles O11: one rule per command; at a local second the heads that lost their alignment wait whatever the others do. -/
theorem subProbesFollowersAndPps : Obligations.SubProbesFollowersAndPps := by
  refine ⟨?above, ?zero, ?unlaunched, fun _ _ => exec_followLost, ?quiet, ?second, fun _ _ waits => congrArg _ (if_pos waits)⟩
  case above =>
    intro s h k launched started notTripped probes inTrain above
    rw [exec_subProbeLaunch launched started notTripped probes inTrain, if_neg above]
  case zero =>
    intro s h launched started notTripped probes
    rw [exec_subProbeLaunch launched started notTripped probes (Nat.two_pow_pos _)]
    rfl
  case unlaunched =>
    intro s h k unlaunched
    exact congrArg Host.Outcome.next (if_neg (by rw [unlaunched]; exact Bool.false_ne_true))
  case quiet =>
    intro s e0 e1 e2 e3 notShut m0 m1 m2 m3 unnamed
    have off : ∀ h < 4, (s.sched h).mode ≠ 2 := fun
      | 0, _ => m0
      | 1, _ => m1
      | 2, _ => m2
      | 3, _ => m3
    rw [exec_localSecond e0 e1 e2 e3 notShut, State.secondPassed_of_off]
    · intro h hh
      rw [State.sched_advance]
      exact off h hh
    · intro u stop
      simp only [State.tdcSrc, State.fld, State.reg_advance]
      exact unnamed u stop
  case second =>
    intro s e0 e1 e2 e3 notShut
    refine ⟨_, exec_localSecond e0 e1 e2 e3 notShut, State.secondPassed_time _ _ _ _ _, fun h pps started aligned beyond => ?_⟩
    have isLost : (s.advance s.toSecond).ppsLost h (nth [e0, e1, e2, e3] h 0) = true := by
      have waiting : (s.advance s.toSecond).rbit (Reg.shotStatus h) 3 = false :=
        (congrArg (bitOf · 3) (s.reg_advance _ _)).trans aligned
      rw [State.ppsLost, State.ppsOn, State.sched_advance, pps, started, waiting, decide_eq_true beyond]
      rfl
    obtain ⟨⟨waits, notAligned⟩, fault⟩ := State.secondPassed_of_lost isLost
    exact ⟨waits, notAligned, fault⟩

end Sys2Proof.Machine
end

section
/-!
PROOFS. Calibration slots and calibration requests (O14): what the end of a slot leaves in CAL_SUM and what it leaves alone,
how an idle converter begins Quince's temperature read, and which burn-out tests a request interval asks for.
-/
namespace Sys2Proof.Machine

/-! ## The end of a calibration slot (R89) -/

theorem State.slotSums_reg_calSum_same (s : State) (ch p : Nat) (k : LaneCorr) (xs : List Int) :
    (s.slotSums ch p k xs).reg (Reg.laneCalSum ch p) = toW 32 (sumInt (xs.map (laneU p k))) := by
  simp only [State.slotSums]
  rw [State.reg_setReg_ne _ _ (by lia), State.reg_setReg_ne _ _ (by lia), State.reg_setWreg, State.reg_setReg_same]

theorem State.slotSums_reg_calSum_ne (s : State) (ch : Nat) {p j : Nat} (k : LaneCorr) (xs : List Int) (other : p ≠ j) :
    (s.slotSums ch j k xs).reg (Reg.laneCalSum ch p) = s.reg (Reg.laneCalSum ch p) := by
  simp only [State.slotSums]
  rw [State.reg_setReg_ne _ _ (by lia), State.reg_setReg_ne _ _ (by lia), State.reg_setWreg, State.reg_setReg_ne _ _ (by lia)]

/-- A lane's part in the end of slot c: its sums, where the mask names it. -/
def State.slotLane (ch : Nat) (c : CalSlot) (corr : List LaneCorr) (raw : ChCodes) (p : Nat) (s : State) : State :=
  if c.mask.getLsbD p then s.slotSums ch p (nth corr p {}) ((nth raw p []).take c.len) else s

theorem State.slotLane_lanes (ch : Nat) (c : CalSlot) (corr : List LaneCorr) (raw : ChCodes) (p : Nat) (s : State) :
    (s.slotLane ch c corr raw p).lanes = s.lanes := by
  unfold State.slotLane
  split <;> rfl

theorem State.slotLane_quince (ch : Nat) (c : CalSlot) (corr : List LaneCorr) (raw : ChCodes) (p : Nat) (s : State) :
    (s.slotLane ch c corr raw p).quince = s.quince := by
  unfold State.slotLane
  split <;> rfl

/-- CAL_SUM of lane p holds the sum that the end of slot c writes there. -/
def State.HoldsSum (ch : Nat) (c : CalSlot) (corr : List LaneCorr) (raw : ChCodes) (p : Nat) (s : State) : Prop :=
  s.reg (Reg.laneCalSum ch p) = toW 32 (sumInt (((nth raw p []).take c.len).map (laneU p (nth corr p {}))))

theorem State.slotLane_holdsSum {ch p : Nat} {c : CalSlot} (corr : List LaneCorr) (raw : ChCodes) (s : State)
    (named : c.mask.getLsbD p = true) : (s.slotLane ch c corr raw p).HoldsSum ch c corr raw p := by
  rw [State.slotLane, if_pos named]
  exact s.slotSums_reg_calSum_same ch p _ _

theorem State.HoldsSum.slotLane {ch p : Nat} {c : CalSlot} {corr : List LaneCorr} {raw : ChCodes} {s : State}
    (holds : s.HoldsSum ch c corr raw p) (j : Nat) : (s.slotLane ch c corr raw j).HoldsSum ch c corr raw p := by
  by_cases named : c.mask.getLsbD j = true
  · by_cases same : p = j
    · subst same; exact s.slotLane_holdsSum corr raw named
    · rw [State.slotLane, if_pos named]
      exact (s.slotSums_reg_calSum_ne ch _ _ same).trans holds
  · rwa [State.slotLane, if_neg named]

theorem State.calSlotEnd_of_slot {s : State} {ch : Nat} {c : CalSlot} (raw : ChCodes) (slot : (s.lane ch).cur.slot = some c) :
    s.calSlotEnd ch raw = ((forEach (List.range 6) (State.slotLane ch c (s.lane ch).cur.corr raw) s).setRbit
      (Reg.laneStatus ch) 24 false).setRbit (Reg.laneStatus ch) 25 true := by
  simp only [State.calSlotEnd, slot]
  rfl

section
variable {s : State} {ch : Nat} {c : CalSlot} (raw : ChCodes) (slot : (s.lane ch).cur.slot = some c)
include slot

theorem State.calSlotEnd_lanes : (s.calSlotEnd ch raw).lanes = s.lanes := by
  rw [State.calSlotEnd_of_slot raw slot]
  exact forEach_keeps (fun t : State => t.lanes = s.lanes) _ _ s (fun p t same => (t.slotLane_lanes ch c _ raw p).trans same) rfl

theorem State.calSlotEnd_quince : (s.calSlotEnd ch raw).quince = s.quince := by
  rw [State.calSlotEnd_of_slot raw slot]
  exact forEach_keeps (fun t : State => t.quince = s.quince) _ _ s (fun p t same => (t.slotLane_quince ch c _ raw p).trans same) rfl

theorem State.calSlotEnd_laneStep (h : Nat) : (s.calSlotEnd ch raw).laneStep h = s.laneStep h :=
  congrArg (fun q : QuinceSt => nth q.lanes h none) (State.calSlotEnd_quince raw slot)

theorem State.calSlotEnd_calBusy : (s.calSlotEnd ch raw).rbit (Reg.laneStatus ch) 24 = false := by
  rw [State.calSlotEnd_of_slot raw slot, State.rbit_setRbit_ne _ _ _ (by decide) (by decide)]
  exact State.rbit_setRbit_same _ _ _ _ (by decide)

theorem State.calSlotEnd_calDone : (s.calSlotEnd ch raw).rbit (Reg.laneStatus ch) 25 = true := by
  rw [State.calSlotEnd_of_slot raw slot]
  exact State.rbit_setRbit_same _ _ _ _ (by decide)

theorem State.calSlotEnd_holdsSum {p : Nat} (lane : p < 6) (named : c.mask.getLsbD p = true) :
    (s.calSlotEnd ch raw).HoldsSum ch c (s.lane ch).cur.corr raw p := by
  rw [State.calSlotEnd_of_slot raw slot, State.HoldsSum, State.setRbit, State.setRbit, State.reg_setReg_ne _ _ (by lia),
    State.reg_setReg_ne _ _ (by lia)]
  exact forEach_reaches (State.HoldsSum ch c (s.lane ch).cur.corr raw p) (fun j _ holds => holds.slotLane j)
    (fun t => t.slotLane_holdsSum _ raw named) _ s (List.mem_range.mpr lane)

end

theorem exec_calSlotEnd {s : State} {ch : Chan} {c : CalSlot} (raw : ChCodes) (slot : (s.lane ch).cur.slot = some c)
    (busy : s.rbit (Reg.laneStatus ch) 24 = true) (noStep : s.laneStep (ch.val / 8) = none) :
    exec (.calSlotEnd ch raw) s = .next (s.calSlotEnd ch raw) := by
  have still : (s.calSlotEnd ch raw).laneStep (ch.val / 8) = none := (State.calSlotEnd_laneStep raw slot _).trans noStep
  change execCalSlotEnd ch raw s = _
  simp only [execCalSlotEnd, slot, busy, still, if_true]

/-! ## Slots and requests -/

theorem next_of_not_shut {s : State} (t : State) (notShut : s.shut = false) :
    (.next (if s.shut then s else t) : Host.Outcome State Fault Refusal) = .next t :=
  congrArg Host.Outcome.next (if_neg (by rw [notShut]; decide))

theorem State.calGo_of_free {s : State} {ch : Nat} (q : Req) (notArmed : (s.lane ch).armed = false)
    (notDue : (s.lane ch).slotDue = false) (idle : s.rbit (Reg.laneStatus ch) 24 = false) :
    s.calGo ch q = s.setLane ch { s.lane ch with armed := true } :=
  if_neg (by rw [notArmed, notDue, idle]; decide)

theorem exec_calSlotStart_of_due {s : State} {ch : Chan} (due : (s.lane ch).slotDue = true) : exec (.calSlotStart ch) s =
    .next ((s.setLane ch { s.lane ch with slotDue := false }).setRbit (Reg.laneStatus ch) 24 true) :=
  if_pos due

theorem exec_calSlotStart_of_not_due {s : State} {ch : Chan} (notDue : (s.lane ch).slotDue = false) :
    exec (.calSlotStart ch) s = .next s :=
  if_neg (by rw [notDue]; decide)

theorem State.laneReq_rbit (s : State) {ch : Nat} (hch : ch < 32) : (s.laneReq ch).rbit Reg.calLaneReq ch = true :=
  s.rbit_setRbit_same Reg.calLaneReq ch true hch

/-! ## Quince's temperature read (R367, R375) -/

theorem State.hadcShow_hadc (s : State) : s.hadcShow.hadc = s.hadc := rfl

theorem State.hadcShow_reg_of_ne (s : State) {a : Nat} (notHk : a ≠ Reg.hkStatus) (notCal : a ≠ Reg.calStatus) :
    s.hadcShow.reg a = s.reg a :=
  (State.reg_setReg_ne _ _ notCal).trans (State.reg_setReg_ne _ _ notHk)

theorem State.hadcKick_reg_of_ne (s : State) {a : Nat} (notHk : a ≠ Reg.hkStatus) (notCal : a ≠ Reg.calStatus) :
    s.hadcKick.reg a = s.reg a := by
  unfold State.hadcKick
  split
  · exact State.hadcShow_reg_of_ne _ notHk notCal
  · exact s.hadcShow_reg_of_ne notHk notCal

theorem State.hadcKick_hadc_of_idle {s : State} (idle : s.hadc.conv = none) (settled : s.refOk = true)
    (noInj : s.hadc.inj = none) {k : Nat} (waits : s.hadc.quince = some k) :
    s.hadcKick.hadc = { s.hadc with conv := some (.quince k) } := by
  rw [State.hadcKick, if_pos idle, State.hadcNext, State.hadcShow_hadc]
  simp [settled, noInj, waits]

theorem State.calTriggers_hadc (s : State) : s.calTriggers.hadc = s.hadc := rfl

/-- A read of the four sensors is asked for, from the one at which a read in progress stands. -/
def State.askTemps (s : State) : State := { s with hadc := { s.hadc with quince := some (s.hadc.quince.getD 0) } }

theorem exec_quinceTempRead_of_period {s : State} {ms : Nat} (notShut : s.shut = false)
    (period : s.fld Reg.calTempCfg 31 16 ≤ ms) : exec (.quinceTempRead ms) s = .next s.askTemps.hadcKick.calTriggers :=
  (if_neg (by rw [notShut]; decide)).trans (congrArg Host.Outcome.next (if_neg (Nat.not_lt.mpr period)))

theorem exec_quinceTempRead_of_early {s : State} {ms : Nat} (early : ms < s.fld Reg.calTempCfg 31 16) :
    exec (.quinceTempRead ms) s = .next s := by
  change execQuinceTempRead ms s = _
  rw [execQuinceTempRead, if_pos early, ite_self]

/-! ## The burn-out request interval (R358, R387) -/

/-- A slot that Quince tests: enabled, and of an RTD or an NTC. -/
def State.boKind (s : State) (k : Nat) : Bool := s.slotOn k && (decide (s.slotKind k = 1) || decide (s.slotKind k = 2))

theorem State.boKind_eq_true {s : State} {k : Nat} (on : s.slotOn k = true) (kind : s.slotKind k = 1 ∨ s.slotKind k = 2) :
    s.boKind k = true := by
  rw [State.boKind, on, Bool.true_and, Bool.or_eq_true, decide_eq_true_eq, decide_eq_true_eq]
  exact kind

/-- The request of one slot: its bit of BO_REQ, where Quince tests it. -/
def State.boRequestSlot (k : Nat) (s : State) : State := if s.boKind k then s.setRbit Reg.pfeBoReq k true else s

theorem State.boRequest_eq (s : State) :
    s.boRequest = (forEach (List.range 16) State.boRequestSlot s).boAsked := rfl

theorem State.boRequestSlot_reg_of_ne (s : State) (k : Nat) {a : Nat} (other : a ≠ Reg.pfeBoReq) :
    (s.boRequestSlot k).reg a = s.reg a := by
  unfold State.boRequestSlot
  split
  · exact State.reg_setReg_ne _ _ other
  · rfl

theorem State.boRequestSlot_padc (s : State) (k : Nat) : (s.boRequestSlot k).padc = s.padc := by
  unfold State.boRequestSlot
  split <;> rfl

theorem State.boKind_congr {s t : State} {k : Nat} (same : t.reg (Reg.pfeSlotDest k) = s.reg (Reg.pfeSlotDest k)) :
    t.boKind k = s.boKind k :=
  congrArg (fun w => bitOf w 31 && (decide (field w 27 24 = 1) || decide (field w 27 24 = 2))) same

theorem State.boRequestSlot_boKind (s : State) (j k : Nat) : (s.boRequestSlot j).boKind k = s.boKind k :=
  State.boKind_congr (s.boRequestSlot_reg_of_ne j (by lia))

theorem bitOf_withBit_of_set {w j : Nat} {v : BitVec w} (i : Nat) (set : bitOf v j = true) : bitOf (withBit v i true) j = true := by
  rw [bitOf, withBit, if_pos rfl, BitVec.getLsbD_or, Bool.or_eq_true]
  exact .inl set

theorem State.boRequestSlot_rbit_of_set (s : State) {k : Nat} (j : Nat) (set : s.rbit Reg.pfeBoReq k = true) :
    (s.boRequestSlot j).rbit Reg.pfeBoReq k = true := by
  unfold State.boRequestSlot
  split
  · rw [State.rbit, State.setRbit, State.reg_setReg_same]
    exact bitOf_withBit_of_set j set
  · exact set

/-- A slot that Quince tests has its request. -/
def State.BoRequested (k : Nat) (s : State) : Prop := s.boKind k = true → s.rbit Reg.pfeBoReq k = true

theorem State.boRequestSlot_boRequested (s : State) {k : Nat} (hk : k < 32) : (s.boRequestSlot k).BoRequested k := by
  intro tested
  rw [State.boRequestSlot_boKind] at tested
  rw [State.boRequestSlot, if_pos tested]
  exact s.rbit_setRbit_same _ _ _ hk

theorem State.BoRequested.boRequestSlot {s : State} {k : Nat} (requested : s.BoRequested k) (j : Nat) :
    (s.boRequestSlot j).BoRequested k := fun tested =>
  s.boRequestSlot_rbit_of_set j (requested ((s.boRequestSlot_boKind j k).symm.trans tested))

theorem State.boAsked_reg_boReq (s : State) : s.boAsked.reg Reg.pfeBoReq = s.reg Reg.pfeBoReq :=
  State.reg_setReg_ne _ _ (by decide)

theorem State.boAsked_tests_of_idle {s : State} (stopped : s.padcRun = false) (noPass : s.padc.inPass = false) :
    s.boAsked.padc.tests = s.reg Reg.pfeBoReq :=
  if_neg (by rw [stopped, noPass]; decide)

theorem State.boRequest_rbit (s : State) {k : Nat} (slot : k < 16) (tested : s.boKind k = true) :
    s.boRequest.rbit Reg.pfeBoReq k = true := by
  have asked := forEach_reaches (State.BoRequested k)
    (fun j _ requested => requested.boRequestSlot j) (fun t => t.boRequestSlot_boRequested (by omega)) _ s
    (List.mem_range.mpr slot)
  have same := forEach_keeps (fun t : State => t.boKind k = true) State.boRequestSlot (List.range 16) s
    (fun j t tested => (t.boRequestSlot_boKind j k).trans tested) tested
  rw [State.boRequest_eq, State.rbit, State.boAsked_reg_boReq]
  exact asked same

theorem State.boRequest_tests_of_idle {s : State} (stopped : s.padcRun = false) (noPass : s.padc.inPass = false) :
    s.boRequest.padc.tests = s.boRequest.reg Reg.pfeBoReq := by
  have still := forEach_keeps (fun t : State => t.padcRun = false ∧ t.padc.inPass = false) State.boRequestSlot
    (List.range 16) s (fun j t ⟨run, pass⟩ => ⟨(congrArg (bitOf · 0) (t.boRequestSlot_reg_of_ne j (by decide))).trans run,
      (congrArg PadcSt.inPass (t.boRequestSlot_padc j)).trans pass⟩) ⟨stopped, noPass⟩
  obtain ⟨run, pass⟩ := still
  rw [State.boRequest_eq, State.boAsked_reg_boReq, State.boAsked_tests_of_idle run pass]

theorem exec_boReqInterval {s : State} (notShut : s.shut = false) (noSwap : s.quince.swapDue = false) :
    exec .boReqInterval s = .next s.boRequest :=
  (if_neg (by rw [notShut]; decide)).trans (congrArg Host.Outcome.next (if_neg (by rw [noSwap]; simp)))

/-! ## The obligation -/

/-- Settles O14: one rule per command; the end of a slot and the request interval are repetitions in which every lane and every
slot does its own part and keeps that of the others. -/
theorem laneSlotsAndCalibrationRequests : Obligations.LaneSlotsAndCalibrationRequests := by
  refine ⟨⟨?free, ?taken, fun _ _ => exec_calSlotStart_of_due, fun _ _ => exec_calSlotStart_of_not_due, ?slotEnd⟩,
    fun s _ => next_of_not_shut s.calGoAll, fun s _ => next_of_not_shut s.calGoPadc, fun s _ => next_of_not_shut s.calGoMatch,
    fun s _ => next_of_not_shut s.calGoStore, ?laneReq, ?tempRead, fun _ _ => exec_quinceTempRead_of_early, ?interval⟩
  case free =>
    intro s q ch notShut notArmed notDue idle
    exact (next_of_not_shut _ notShut).trans (congrArg _ (State.calGo_of_free q notArmed notDue idle))
  case taken =>
    intro s q ch notShut taken
    exact (next_of_not_shut _ notShut).trans (congrArg Host.Outcome.next (if_pos taken))
  case slotEnd =>
    intro s ch raw c slot busy noStep
    exact ⟨_, exec_calSlotEnd raw slot busy noStep, State.calSlotEnd_calBusy raw slot, State.calSlotEnd_calDone raw slot,
      State.calSlotEnd_lanes raw slot, fun p named => State.calSlotEnd_holdsSum raw slot p.isLt named⟩
  case laneReq =>
    intro s q ch notShut
    exact ⟨_, next_of_not_shut _ notShut, s.laneReq_rbit ch.isLt, rfl⟩
  case tempRead =>
    intro s ms notShut period settled noInj idle noRead
    have first : s.askTemps.hadc.quince = some 0 := by rw [State.askTemps, noRead]; rfl
    have begun := State.hadcKick_hadc_of_idle (s := s.askTemps) idle settled noInj first
    refine ⟨_, exec_quinceTempRead_of_period notShut period, ?_, ?_, fun k => s.askTemps.hadcKick_reg_of_ne (by lia) (by lia)⟩
    · rw [State.calTriggers_hadc, begun]
    · rw [State.calTriggers_hadc, begun, first]
  case interval =>
    intro s notShut noSwap
    exact ⟨_, exec_boReqInterval notShut noSwap, fun k on kind => s.boRequest_rbit k.isLt (State.boKind_eq_true on kind),
      State.boRequest_tests_of_idle⟩

end Sys2Proof.Machine
end

section
/-!
PROOFS. Time-interval units (O13): first edges, what completion writes and hands to the engine of a channel unit, arming and
holding, and an edge at a pin.
-/
namespace Sys2Proof.Machine

/-! ## Edges at one unit (R114) -/

section
variable {s : State} {u : Nat} (now e ofs : Nat)

theorem State.tdcEdgeAt_of_unarmed (stop : Bool) (unarmed : (s.tdc u).armed = false) : s.tdcEdgeAt now u stop e ofs = s :=
  if_pos (by rw [unarmed]; rfl)

theorem State.tdcEdgeAt_first_start (armed : (s.tdc u).armed = true) (first : (s.tdc u).start = none) :
    s.tdcEdgeAt now u false e ofs =
      s.setTdc u { s.tdc u with start := some (e % stampMod), startAt := tstart now ofs } := by
  simp [State.tdcEdgeAt, armed, first]

theorem State.tdcEdgeAt_first_stop (armed : (s.tdc u).armed = true) (first : (s.tdc u).stop = none) :
    s.tdcEdgeAt now u true e ofs = s.setTdc u { s.tdc u with stop := some (e % stampMod) } := by
  simp [State.tdcEdgeAt, armed, first]

/-- An edge from outside: at the start of a channel unit, and at an input of a general unit that no internal source feeds (R114). -/
theorem exec_tdcEdge (s : State) (u : Unit40) (stop : Bool) (e ofs : Nat) : exec (.tdcEdge u stop e ofs) s =
    .next (if u.val < 32 then (if stop then s else s.tdcEdgeAt s.time.now u stop e ofs)
      else if s.tdcSrc u stop < 8 then s.tdcEdgeAt s.time.now u stop e ofs else s) := rfl

theorem State.tdcEdgeAt_tdc_ne {k : Nat} (stop : Bool) (ne : k ≠ u) : (s.tdcEdgeAt now u stop e ofs).tdc k = s.tdc k := by
  unfold State.tdcEdgeAt
  dsimp only
  split
  · rfl
  · split
    · split <;> exact State.tdc_setTdc_ne _ _ ne
    · split
      · rfl
      · exact State.tdc_setTdc_ne _ _ ne

end

/-! ## The result word (R112) -/

section
variable (tag : Nat) (f : TdcFound) (startSeen stopSeen : Bool)

theorem decide_b2n (b : Bool) : decide (b2n b = 1) = b := by cases b <;> rfl

/-- Each flag takes one bit of the word. -/
theorem tdcWord_bits : b2n f.unlocked < 2 ∧ b2n f.timeout < 2 ∧ b2n f.order < 2 ∧ b2n f.near < 2 ∧ b2n startSeen < 2 ∧
    b2n stopSeen < 2 := by
  have bit (b : Bool) : b2n b < 2 := by cases b <;> decide
  exact ⟨bit _, bit _, bit _, bit _, bit _, bit _⟩

/-- The word as a number: its fields fill 72 bits. -/
theorem tdcWord_toNat : (tdcWord tag f startSeen stopSeen).toNat =
    tag % 2 ^ 16 * 2 ^ 56 + b2n f.unlocked * 2 ^ 55 + b2n f.timeout * 2 ^ 54 + b2n f.order * 2 ^ 53 +
      b2n f.near * 2 ^ 52 + b2n startSeen * 2 ^ 51 + b2n stopSeen * 2 ^ 50 + f.extra % 4 * 2 ^ 48 +
      (f.iv % 2 ^ 48).toNat := by
  have bits := tdcWord_bits f startSeen stopSeen
  rw [tdcWord, BitVec.toNat_ofNat, Nat.mod_eq_of_lt (by omega)]

theorem tdcWord_interval : (tdcWord tag f startSeen stopSeen).extractLsb' 0 48 = BitVec.ofInt 48 f.iv := by
  apply BitVec.eq_of_toNat_eq
  rw [BitVec.extractLsb'_toNat, tdcWord_toNat, BitVec.toNat_ofInt, Nat.shiftRight_zero]
  push_cast
  omega

theorem tdcWord_extra : (tdcWord tag f startSeen stopSeen).extractLsb' 48 2 = BitVec.ofNat 2 f.extra := by
  apply BitVec.eq_of_toNat_eq
  rw [BitVec.extractLsb'_toNat, tdcWord_toNat, BitVec.toNat_ofNat, Nat.shiftRight_eq_div_pow]
  omega

theorem tdcWord_tag : (tdcWord tag f startSeen stopSeen).extractLsb' 56 16 = BitVec.ofNat 16 tag := by
  have bits := tdcWord_bits f startSeen stopSeen
  apply BitVec.eq_of_toNat_eq
  rw [BitVec.extractLsb'_toNat, tdcWord_toNat, BitVec.toNat_ofNat, Nat.shiftRight_eq_div_pow]
  omega

/-- Bit i of the word is the flag b where the word's number has b in that place. -/
theorem tdcWord_getLsbD {i : Nat} {b : Bool}
    (flag : (tdcWord tag f startSeen stopSeen).toNat / 2 ^ i % 2 = b2n b) :
    (tdcWord tag f startSeen stopSeen).getLsbD i = b := by
  rw [← BitVec.testBit_toNat, Nat.testBit_eq_decide_div_mod_eq, flag, decide_b2n]

/-- The flags of the result word, from bit 50 up. -/
theorem tdcWord_flags : (tdcWord tag f startSeen stopSeen).getLsbD 50 = stopSeen ∧
    (tdcWord tag f startSeen stopSeen).getLsbD 51 = startSeen ∧ (tdcWord tag f startSeen stopSeen).getLsbD 52 = f.near ∧
    (tdcWord tag f startSeen stopSeen).getLsbD 53 = f.order ∧ (tdcWord tag f startSeen stopSeen).getLsbD 54 = f.timeout ∧
    (tdcWord tag f startSeen stopSeen).getLsbD 55 = f.unlocked := by
  have bits := tdcWord_bits f startSeen stopSeen
  have word := tdcWord_toNat tag f startSeen stopSeen
  refine ⟨?_, ?_, ?_, ?_, ?_, ?_⟩ <;> exact tdcWord_getLsbD _ _ _ _ (by rw [word]; omega)

end

/-! ## What a fault or an event leaves alone -/

section
variable {s t : State} (h : s.RaiseOnly t)
include h

theorem State.RaiseOnly.tdcs : t.tdcs = s.tdcs := by obtain ⟨r, v, x, y, n, f, rfl⟩ := h; rfl
theorem State.RaiseOnly.ces : t.ces = s.ces := by obtain ⟨r, v, x, y, n, f, rfl⟩ := h; rfl
theorem State.RaiseOnly.wide : t.wide = s.wide := by obtain ⟨r, v, x, y, n, f, rfl⟩ := h; rfl

end

/-! ## The completion of a unit (R111, R112, R114) -/

/-- A unit after its completion. -/
def TdcSt.finished (x : TdcSt) : TdcSt :=
  { x with armed := false, hold := x.hold || x.holdAfter, holdAfter := false, count := x.count + 1 }

/-- The result word of unit u (R112). -/
def State.tdcResult (s : State) (u : Nat) : W72 :=
  tdcWord (if u < 32 then (s.tdc u).shot.toNat else (s.tdc u).count.toNat) (s.tdcFound u) (s.tdc u).start.isSome
    (s.tdc u).stop.isSome

/-- Unit u with its results written, before RSTAT, the count of time-outs and the event. -/
def State.tdcResults (s : State) (u : Nat) : State :=
  ((s.setTdc u (s.tdc u).finished).setWreg (Reg.tdcResult u) (s.tdcResult u)).setWreg (Reg.tdcTstart u) (s.tdc u).startAt

/-- RSTAT shows a result: DONE, and OVERRUN where DONE was 1 already. -/
def State.tdcDone (s : State) (u : Nat) : State :=
  if s.rbit (Reg.tdcRstat u) 0 then s.setRbit (Reg.tdcRstat u) 1 true else s.setRbit (Reg.tdcRstat u) 0 true

section
variable (s : State) (u : Nat)

theorem State.tdcFinish_eq : s.tdcFinish u = (if (s.tdcFound u).timeout then ((s.tdcResults u).tdcDone u).count (Reg.tdcToutCnt u) 1
    else (s.tdcResults u).tdcDone u).event 227 := by
  dsimp only [State.tdcFinish, State.tdcDone, State.tdcResults, State.tdcResult, TdcSt.finished]

theorem State.tdcDone_raiseOnly : s.RaiseOnly (s.tdcDone u) := by
  unfold State.tdcDone
  split
  · exact s.setReg_raiseOnly _ _
  · exact s.setReg_raiseOnly _ _

theorem State.tdcFinish_raiseOnly : (s.tdcResults u).RaiseOnly (s.tdcFinish u) := by
  rw [s.tdcFinish_eq u]
  refine .trans ((s.tdcResults u).tdcDone_raiseOnly u) (.trans ?_ (State.event_raiseOnly _ _))
  split
  · exact State.setReg_raiseOnly _ _ _
  · exact .refl _

theorem State.tdcResults_reg (a : Nat) : (s.tdcResults u).reg a = s.reg a := by
  rw [State.tdcResults, State.reg_setWreg, State.reg_setWreg, State.reg_setTdc]

theorem State.tdcFinish_tdcs : (s.tdcFinish u).tdcs = (s.setTdc u (s.tdc u).finished).tdcs := by
  rw [(s.tdcFinish_raiseOnly u).tdcs, State.tdcResults, State.setWreg_tdcs, State.setWreg_tdcs]

theorem State.tdcFinish_ces : (s.tdcFinish u).ces = s.ces := by
  rw [(s.tdcFinish_raiseOnly u).ces, State.tdcResults, State.setWreg_ces, State.setWreg_ces, State.setTdc_ces]

theorem State.tdcFinish_tstart : (s.tdcFinish u).wreg (Reg.tdcTstart u) = (s.tdc u).startAt := by
  rw [State.wreg, (s.tdcFinish_raiseOnly u).wide, ← State.wreg, State.tdcResults, State.wreg_setWreg_same]

theorem State.tdcFinish_result : (s.tdcFinish u).wreg (Reg.tdcResult u) = s.tdcResult u := by
  rw [State.wreg, (s.tdcFinish_raiseOnly u).wide, ← State.wreg, State.tdcResults, State.wreg_setWreg_ne _ _ (by lia),
    State.wreg_setWreg_same]

variable {s u}

theorem State.tdcDone_reg_of_ne {a : Nat} (ne : a ≠ Reg.tdcRstat u) : (s.tdcDone u).reg a = s.reg a := by
  unfold State.tdcDone
  split
  · exact s.reg_setReg_ne _ ne
  · exact s.reg_setReg_ne _ ne

theorem State.tdcDone_done : (s.tdcDone u).rbit (Reg.tdcRstat u) 0 = true := by
  unfold State.tdcDone
  split
  · next done => rwa [State.rbit_setRbit_ne _ _ _ (by decide) (by decide)]
  · exact State.rbit_setRbit_same _ _ _ _ (by decide)

theorem State.tdcDone_overrun : (s.tdcDone u).rbit (Reg.tdcRstat u) 1 =
    (s.rbit (Reg.tdcRstat u) 0 || s.rbit (Reg.tdcRstat u) 1) := by
  unfold State.tdcDone
  split
  · next done => rw [State.rbit_setRbit_same _ _ _ _ (by decide), done, Bool.true_or]
  · next idle => rw [State.rbit_setRbit_ne _ _ _ (by decide) (by decide), Bool.eq_false_iff.mpr idle, Bool.false_or]

variable (s u)

theorem State.tdcFinish_reg {a : Nat} (spared : RaiseSpares a) (notTout : a ≠ Reg.tdcToutCnt u) :
    (s.tdcFinish u).reg a = ((s.tdcResults u).tdcDone u).reg a := by
  rw [s.tdcFinish_eq u, State.event_reg_of_spared _ spared (by decide)]
  split
  · exact State.reg_setReg_ne _ _ notTout
  · rfl

theorem State.tdcFinish_reg_of_ne {a : Nat} (spared : RaiseSpares a) (notTout : a ≠ Reg.tdcToutCnt u)
    (notRstat : a ≠ Reg.tdcRstat u) : (s.tdcFinish u).reg a = s.reg a := by
  rw [s.tdcFinish_reg u spared notTout, State.tdcDone_reg_of_ne notRstat, s.tdcResults_reg]

theorem State.tdcFinish_tout (hu : u < 40) : (s.tdcFinish u).reg (Reg.tdcToutCnt u) =
    if (s.tdcFound u).timeout then s.reg (Reg.tdcToutCnt u) + 1 else s.reg (Reg.tdcToutCnt u) := by
  have same : ((s.tdcResults u).tdcDone u).reg (Reg.tdcToutCnt u) = s.reg (Reg.tdcToutCnt u) :=
    (State.tdcDone_reg_of_ne (by lia)).trans (s.tdcResults_reg u _)
  rw [s.tdcFinish_eq u, State.event_reg_of_spared _ (raiseSpares_of_lt (by lia)) (by decide)]
  split
  · rw [State.count, State.reg_setReg_same, same]
    rfl
  · exact same

theorem State.tdcFinish_done (hu : u < 40) : (s.tdcFinish u).rbit (Reg.tdcRstat u) 0 = true := by
  rw [State.rbit, s.tdcFinish_reg u (raiseSpares_of_lt (by lia)) (by lia)]
  exact State.tdcDone_done

theorem State.tdcFinish_overrun (hu : u < 40) : (s.tdcFinish u).rbit (Reg.tdcRstat u) 1 =
    (s.rbit (Reg.tdcRstat u) 0 || s.rbit (Reg.tdcRstat u) 1) := by
  rw [State.rbit, s.tdcFinish_reg u (raiseSpares_of_lt (by lia)) (by lia), ← State.rbit, State.tdcDone_overrun, State.rbit, State.rbit, s.tdcResults_reg, State.rbit, State.rbit]

end

/-! ## The hand-over to the engine (R125, R126) -/

/-- t shows the units, the 72-bit values and the registers below the attention block as s does. -/
structure State.UnitsKept (s t : State) : Prop where
  tdcs : t.tdcs = s.tdcs
  wide : t.wide = s.wide
  reg : ∀ a < 0xD0000, t.reg a = s.reg a

section
variable {s t : State}

theorem State.UnitsKept.refl (s : State) : s.UnitsKept s := ⟨rfl, rfl, fun _ _ => rfl⟩

theorem State.UnitsKept.trans {v : State} (h : s.UnitsKept t) (k : t.UnitsKept v) : s.UnitsKept v :=
  ⟨k.tdcs.trans h.tdcs, k.wide.trans h.wide, fun a low => (k.reg a low).trans (h.reg a low)⟩

theorem State.UnitsKept.setCe (h : s.UnitsKept t) (ch : Nat) (x : CeSt) : s.UnitsKept (t.setCe ch x) := ⟨h.tdcs, h.wide, h.reg⟩

theorem State.UnitsKept.setReg (h : s.UnitsKept t) {a : Nat} (high : 0xD0000 ≤ a) (v : W32) : s.UnitsKept (t.setReg a v) :=
  ⟨h.tdcs, h.wide, fun b low => (t.reg_setReg_ne v (by omega)).trans (h.reg b low)⟩

theorem State.UnitsKept.fault (h : s.UnitsKept t) {a : Nat} (high : 0xD0000 ≤ a) (m : Nat) : s.UnitsKept (t.fault a m) :=
  ⟨(t.fault_raiseOnly a m).tdcs.trans h.tdcs, (t.fault_raiseOnly a m).wide.trans h.wide,
    fun b low => (t.fault_reg_of_ne (raiseSpares_of_lt low) (by omega) m).trans (h.reg b low)⟩

end

theorem State.traceGauges_unitsKept (s : State) (ch : Nat) (i : BitVec 48) (outs : List (Array Int)) (vs : List (Array Bool)) :
    s.UnitsKept (s.traceGauges ch i outs vs) := by
  unfold State.traceGauges
  dsimp only
  split
  · exact .refl s
  · exact (((State.UnitsKept.refl s).setCe ch _).setReg (by lia) _).fault (by lia) _

theorem State.ceTakeTdc_unitsKept (s : State) (ch : Nat) (i : BitVec 48) (f : TdcFound) : s.UnitsKept (s.ceTakeTdc ch i f) := by
  unfold State.ceTakeTdc
  dsimp only
  split
  · exact .refl s
  · next r _ =>
    have taken (x : CeSt) (v : W32) : s.UnitsKept ((s.setCe ch x).setReg (Reg.ceTauLast ch) v) :=
      ((State.UnitsKept.refl s).setCe ch x).setReg (by lia) v
    have told (x : CeSt) (v : W32) (c : Prop) [Decidable c] :
        s.UnitsKept (if c then (s.setCe ch x).setReg (Reg.ceTauLast ch) v else
          (((s.setCe ch x).setReg (Reg.ceTauLast ch) v).count (Reg.ceHoldCnt ch) 1).fault (Reg.ceFault ch) 1) := by
      split
      · exact taken x v
      · exact ((taken x v).setReg (by lia) _).fault (by lia) 1
    split
    · exact (told _ _ _).trans (State.traceGauges_unitsKept _ _ _ _ _)
    · exact told _ _ _

theorem State.tdcEnd_unitsKept (s : State) (u : Nat) : (s.tdcFinish u).UnitsKept (s.tdcEnd u) := by
  unfold State.tdcEnd
  dsimp only
  split
  · exact State.ceTakeTdc_unitsKept _ _ _ _
  · exact .refl _

/-- A list keeps its members but for the one changed, which is the first that passes the test. -/
theorem mem_updFirst {α : Type} {p : α → Bool} {f : α → α} {x : α} {l : List α} (mem : x ∈ l) :
    x ∈ updFirst p f l ∨ l.find? p = some x ∧ f x ∈ updFirst p f l := by
  induction l with
  | nil => cases mem
  | cons y l ih =>
    by_cases hy : p y = true
    · rw [updFirst, if_pos hy, List.find?_cons_of_pos hy]
      obtain rfl | later := List.mem_cons.mp mem
      · exact .inr ⟨rfl, List.mem_cons_self⟩
      · exact .inl (List.mem_cons_of_mem _ later)
    · rw [updFirst, if_neg hy, List.find?_cons_of_neg hy]
      obtain rfl | later := List.mem_cons.mp mem
      · exact .inl List.mem_cons_self
      · exact (ih later).imp (List.mem_cons_of_mem _) fun ⟨found, there⟩ => ⟨found, List.mem_cons_of_mem _ there⟩

theorem mem_updFirst_of_find? {α : Type} {p : α → Bool} (f : α → α) {x : α} {l : List α} (found : l.find? p = some x) :
    f x ∈ updFirst p f l := by
  induction l with
  | nil => cases found
  | cons y l ih =>
    by_cases hy : p y = true
    · rw [List.find?_cons_of_pos hy] at found
      cases found
      rw [updFirst, if_pos hy]
      exact List.mem_cons_self
    · rw [List.find?_cons_of_neg hy] at found
      rw [updFirst, if_neg hy]
      exact List.mem_cons_of_mem _ (ih found)

/-- A record of shot i has taken the launch offset q, held or of its own, and the extra edges of its unit. -/
def CeSt.HasOffset (x : CeSt) (i : BitVec 48) (hold : Bool) (extra : Nat) (q : Int) : Prop :=
  ∃ r ∈ x.recs, r.index = i ∧ r.hold = hold ∧ r.extra = extra ∧ r.q = some q

section
variable {s : State} {ch : Nat} {i : BitVec 48} {hold : Bool} {extra : Nat} {q : Int}

/-- Gauge words change nothing of a record's offset (R127 to R136). -/
theorem State.traceGauges_hasOffset (k : BitVec 48) (outs : List (Array Int)) (vs : List (Array Bool))
    (has : (s.ce ch).HasOffset i hold extra q) : ((s.traceGauges ch k outs vs).ce ch).HasOffset i hold extra q := by
  unfold State.traceGauges
  dsimp only
  split
  · exact has
  · next r found =>
    obtain ⟨x, mem, offset⟩ := has
    rw [State.ce, (State.fault_raiseOnly _ _ _).ces]
    show CeSt.HasOffset (State.ce (State.setCe s ch _) ch) i hold extra q
    rw [State.ce_setCe_same]
    obtain other | ⟨first, there⟩ := mem_updFirst (p := fun r => r.lacksGauges && decide (r.index = k))
      (f := fun _ => { (gaugeWords r (r.q.getD 0) outs vs).1 with span := none }) mem
    · exact ⟨x, other, offset⟩
    · cases first.symm.trans found
      exact ⟨_, there, offset⟩

/-- The launch offset record r takes from a result that came in time: its own, or the held one where the unit saw a loop unlocked
(R125, R126). -/
def State.offsetTaken (s : State) (ch : Nat) (f : TdcFound) (r : RecSt) : Int :=
  if f.unlocked then s.heldQ ch r.alignOfs else tauQ (r.mark * 2000 - f.iv + r.alignOfs)

/-- The record that waits for the shot of a unit takes its offset, and its gauge words keep it. -/
theorem State.ceTakeTdc_hasOffset {f : TdcFound} {r : RecSt} (onTime : f.timeout = false)
    (waits : (s.ce ch).recs.find? (fun r => r.waitsQ && decide (r.index = i)) = some r) :
    ((s.ceTakeTdc ch i f).ce ch).HasOffset r.index f.unlocked f.extra (s.offsetTaken ch f r) := by
  have afterGauges (t : State) (given : (t.ce ch).HasOffset r.index f.unlocked f.extra (s.offsetTaken ch f r)) :
      ((match r.span with
        | some (outs, vs) => t.traceGauges ch i outs vs
        | none => t).ce ch).HasOffset r.index f.unlocked f.extra (s.offsetTaken ch f r) := by
    split
    · exact State.traceGauges_hasOffset _ _ _ given
    · exact given
  unfold State.ceTakeTdc
  simp only [waits]
  refine afterGauges _ ?_
  unfold State.offsetTaken
  cases seen : f.unlocked with
  | false =>
    simp only [onTime, Bool.not_false, Bool.and_self, if_true, Bool.false_eq_true, if_false, State.ce_setReg, State.ce_setCe_same]
    exact ⟨_, mem_updFirst_of_find? _ waits, rfl, rfl, rfl, rfl⟩
  | true =>
    simp only [onTime, Bool.not_false, Bool.not_true, Bool.and_false, Bool.false_eq_true, if_true, if_false]
    rw [State.ce, (State.fault_raiseOnly _ _ _).ces, ← State.ce, State.count, State.ce_setReg, State.ce_setReg, State.ce_setCe_same]
    exact ⟨_, mem_updFirst_of_find? _ waits, rfl, rfl, rfl, rfl⟩

end

/-! ## The end of a window (R111, R114, R116) -/

section
variable (s : State) (u : Nat)

theorem State.tdcEnd_tdc_same : (s.tdcEnd u).tdc u = (s.tdc u).finished := by
  rw [State.tdc, (s.tdcEnd_unitsKept u).tdcs, s.tdcFinish_tdcs, ← State.tdc, State.tdc_setTdc_same]

theorem State.tdcEnd_armed : ((s.tdcEnd u).tdc u).armed = false := by
  rw [s.tdcEnd_tdc_same u, TdcSt.finished]

theorem State.tdcEnd_tdc_ne {k : Nat} (ne : k ≠ u) : (s.tdcEnd u).tdc k = s.tdc k := by
  rw [State.tdc, (s.tdcEnd_unitsKept u).tdcs, s.tdcFinish_tdcs, ← State.tdc, State.tdc_setTdc_ne _ _ ne]

theorem State.tdcEnd_result : (s.tdcEnd u).wreg (Reg.tdcResult u) = s.tdcResult u := by
  rw [State.wreg, (s.tdcEnd_unitsKept u).wide, ← State.wreg, s.tdcFinish_result]

theorem State.tdcEnd_interval :
    ((s.tdcEnd u).wreg (Reg.tdcResult u)).extractLsb' 0 48 = BitVec.ofInt 48 (s.tdcFound u).iv := by
  rw [s.tdcEnd_result u, State.tdcResult, tdcWord_interval]

theorem State.tdcEnd_extra :
    ((s.tdcEnd u).wreg (Reg.tdcResult u)).extractLsb' 48 2 = BitVec.ofNat 2 (s.tdcFound u).extra := by
  rw [s.tdcEnd_result u, State.tdcResult, tdcWord_extra]

/-- TAG is the shot of a channel unit, and the count of results of a general one (R112). -/
theorem State.tdcEnd_tag : ((s.tdcEnd u).wreg (Reg.tdcResult u)).extractLsb' 56 16 =
    if u < 32 then (s.tdc u).shot.extractLsb' 0 16 else (s.tdc u).count := by
  rw [s.tdcEnd_result u, State.tdcResult, tdcWord_tag]
  split
  · apply BitVec.eq_of_toNat_eq
    rw [BitVec.toNat_ofNat, BitVec.extractLsb'_toNat, Nat.shiftRight_zero]
  · rw [BitVec.ofNat_toNat, BitVec.setWidth_eq]

/-- The flags of RESULT, from bit 50 up. -/
theorem State.tdcEnd_flags : let w := (s.tdcEnd u).wreg (Reg.tdcResult u)
    w.getLsbD 50 = (s.tdc u).stop.isSome ∧ w.getLsbD 51 = (s.tdc u).start.isSome ∧ w.getLsbD 52 = (s.tdcFound u).near ∧
      w.getLsbD 53 = (s.tdcFound u).order ∧ w.getLsbD 54 = (s.tdcFound u).timeout ∧
      w.getLsbD 55 = (s.tdcFound u).unlocked := by
  rw [s.tdcEnd_result u]
  exact tdcWord_flags _ _ _ _

theorem State.tdcEnd_tstart : (s.tdcEnd u).wreg (Reg.tdcTstart u) = (s.tdc u).startAt := by
  rw [State.wreg, (s.tdcEnd_unitsKept u).wide, ← State.wreg, s.tdcFinish_tstart]

variable {u} (hu : u < 40)
include hu

theorem State.tdcEnd_done : (s.tdcEnd u).rbit (Reg.tdcRstat u) 0 = true := by
  rw [State.rbit, (s.tdcEnd_unitsKept u).reg _ (by lia), ← State.rbit, s.tdcFinish_done u hu]

theorem State.tdcEnd_overrun : (s.tdcEnd u).rbit (Reg.tdcRstat u) 1 =
    (s.rbit (Reg.tdcRstat u) 0 || s.rbit (Reg.tdcRstat u) 1) := by
  rw [State.rbit, (s.tdcEnd_unitsKept u).reg _ (by lia), ← State.rbit, s.tdcFinish_overrun u hu]

theorem State.tdcEnd_tout : (s.tdcEnd u).reg (Reg.tdcToutCnt u) =
    if (s.tdcFound u).timeout then s.reg (Reg.tdcToutCnt u) + 1 else s.reg (Reg.tdcToutCnt u) := by
  rw [(s.tdcEnd_unitsKept u).reg _ (by lia), s.tdcFinish_tout u hu]

end

section
variable {s : State} {u : Nat}

theorem State.tdcFinish_heldQ (s : State) {u : Nat} (_ : u < 40) (ch : Nat) (ofs : Int) :
    (s.tdcFinish u).heldQ ch ofs = s.heldQ ch ofs := by
  have init : (s.tdcFinish u).reg (Reg.ceTauInit ch) = s.reg (Reg.ceTauInit ch) :=
    s.tdcFinish_reg_of_ne u (raiseSpares_of_headBase_le (by lia)) (by lia) (by lia)
  simp only [State.heldQ, State.ce, s.tdcFinish_ces, State.fldS, init]

/-- A completed channel unit gives the record of its shot its offset (R125, R126). -/
theorem State.tdcEnd_hasOffset {r : RecSt} (channel : u < 32) (onTime : (s.tdcFound u).timeout = false)
    (waits : (s.ce u).recs.find? (fun r => r.waitsQ && decide (r.index = (s.tdc u).shot)) = some r) :
    ((s.tdcEnd u).ce u).HasOffset r.index (s.tdcFound u).unlocked (s.tdcFound u).extra
      (s.offsetTaken u (s.tdcFound u) r) := by
  unfold State.tdcEnd
  dsimp only
  rw [if_pos channel, State.offsetTaken, ← s.tdcFinish_heldQ (u := u) (by omega)]
  exact State.ceTakeTdc_hasOffset onTime (by rwa [State.ce, s.tdcFinish_ces])

/-- Both edges are seen: the interval of R110, and the flags of R111. -/
theorem State.tdcFound_of_seen {a b : Nat} (start : (s.tdc u).start = some a) (stop : (s.tdc u).stop = some b) :
    let iv := stampDiff b a - s.fldS (Reg.tdcTrim u) 15 0 - s.fldS (Reg.tdcOfsAdj u) 15 0
    s.tdcFound u = ⟨iv, (s.tdc u).unlocked, false, decide (iv < -1) && s.rbit (tdcCfgAt u) 0, decide (iv.natAbs ≤ 1),
      (s.tdc u).extra⟩ := by
  simp only [State.tdcFound, start, stop]

/-- An edge is missing: a time-out, and no interval (R111). -/
theorem State.tdcFound_of_missing (missing : (s.tdc u).start = none ∨ (s.tdc u).stop = none) :
    s.tdcFound u = ⟨0, (s.tdc u).unlocked, true, false, false, (s.tdc u).extra⟩ := by
  unfold State.tdcFound
  dsimp only
  split
  · next start stop => simp [start, stop] at missing
  · rfl

end

/-! ## Edges at a pin, and gates (R117, R119) -/

/-- What one step brings about, and the others neither prevent nor undo, holds after a repetition with that step in it once. -/
theorem forEach_once {σ : Type} {before after : σ → Prop} {f : Nat → σ → σ} {i : Nat}
    (kept : ∀ j ≠ i, ∀ t, before t → before (f j t)) (reached : ∀ t, before t → after (f i t))
    (stays : ∀ j ≠ i, ∀ t, after t → after (f j t)) :
    (l : List Nat) → (s : σ) → l.Nodup → i ∈ l → before s → after (forEach l f s)
  | j :: l, s, once, mem, h => by
    obtain ⟨notIn, later⟩ := List.nodup_cons.mp once
    by_cases here : j = i
    · subst here
      exact List.foldlRecOn (motive := after) l _ (reached s h) fun t ht k hk => stays k (fun same => notIn (same ▸ hk)) t ht
    · exact forEach_once kept reached stays l (f j s) later ((List.mem_cons.mp mem).resolve_left (Ne.symm here))
        (kept j here s h)

/-- A kept edge of a pin at general unit u (R117). -/
def State.pinEdge (pin e ofs u : Nat) (s : State) : State :=
  let t := if s.tdcSrc u false = pin then s.tdcEdge u false e ofs else s
  if t.tdcSrc u true = pin then t.tdcEdge u true e ofs else t

theorem exec_tinEdge_rise (s : State) (pin : Fin 8) (e ofs : Nat) : exec (.tinEdge pin true e ofs) s =
    .next ((if s.rbit (0x40104 + 0x40 * (32 + pin.val)) 0 = true then s
      else forEach ((List.range 8).map (· + 32)) (State.pinEdge pin e ofs) s).gateRise pin) := rfl

theorem State.gateRise_of_ungated {s : State} (pin : Nat) (ungated : ∀ u, 32 ≤ u → u < 40 → s.armMode u ≠ 2) :
    s.gateRise pin = s :=
  forEach_of_fixed fun u mem => if_neg fun gated => ungated u (lt_of_mem_generalUnits mem).1 (lt_of_mem_generalUnits mem).2 gated.1

theorem State.pinEdge_of_unarmed {s : State} {u : Nat} (pin e ofs : Nat) (unarmed : (s.tdc u).armed = false) :
    s.pinEdge pin e ofs u = s := by
  have edge (stop : Bool) : s.tdcEdge u stop e ofs = s := State.tdcEdgeAt_of_unarmed _ e ofs stop unarmed
  simp only [State.pinEdge, edge, ite_self]

/-- What an edge at unit u keeps, a kept edge of a pin keeps at u. -/
theorem State.pinEdge_keeps {P : State → Prop} {s : State} {pin e ofs u : Nat}
    (kept : ∀ t stop, P t → P (t.tdcEdge u stop e ofs)) (h : P s) : P (s.pinEdge pin e ofs u) := by
  have input (t : State) (ht : P t) (stop : Bool) : P (if t.tdcSrc u stop = pin then t.tdcEdge u stop e ofs else t) := by
    split
    · exact kept t stop ht
    · exact ht
  exact input _ (input s h false) true

/-- t shows local time and CFG of every unit as s does, and unit u as x. -/
structure State.EdgeShows (s : State) (u : Nat) (x : TdcSt) (t : State) : Prop where
  time : t.time = s.time
  cfg : ∀ k, t.reg (tdcCfgAt k) = s.reg (tdcCfgAt k)
  unit : t.tdc u = x

theorem State.tdcEdge_edgeShows {s t : State} {u k : Nat} {x : TdcSt} {stop : Bool} {e ofs : Nat} (ne : u ≠ k)
    (shows : s.EdgeShows u x t) : s.EdgeShows u x (t.tdcEdge k stop e ofs) where
  time := (t.tdcEdgeAt_time _ k stop e ofs).trans shows.time
  cfg j := (t.tdcEdgeAt_reg _ k stop e ofs (by simp only [tdcCfgAt, tdcBase]; lia)).trans (shows.cfg j)
  unit := (State.tdcEdgeAt_tdc_ne _ e ofs stop ne).trans shows.unit

/-- The first start edge of an armed unit that names the pin for its start alone. -/
theorem State.pinEdge_first_start {s t : State} {u pin : Nat} {x : TdcSt} (e ofs : Nat) (start : s.tdcSrc u false = pin)
    (stop : s.tdcSrc u true ≠ pin) (armed : x.armed = true) (first : x.start = none) (shows : s.EdgeShows u x t) :
    s.EdgeShows u { x with start := some (e % stampMod), startAt := tstart s.time.now ofs } (t.pinEdge pin e ofs u) := by
  obtain ⟨time, cfg, rfl⟩ := shows
  have src (b : Bool) : t.tdcSrc u b = s.tdcSrc u b := by simp only [State.tdcSrc, State.fld, cfg]
  have edge : t.tdcEdge u false e ofs =
      t.setTdc u { t.tdc u with start := some (e % stampMod), startAt := tstart s.time.now ofs } := by
    rw [State.tdcEdge, State.tdcEdgeAt_first_start _ _ _ armed first, time]
  have same (y : TdcSt) : (t.setTdc u y).tdcSrc u true = s.tdcSrc u true := src true
  simp only [State.pinEdge, src, start, edge, if_true, same, stop, if_false]
  exact ⟨time, cfg, State.tdc_setTdc_same _ _ _⟩

/-! ## Arming, holding and the locking loops (R113, R117, R118) -/

theorem State.tdcMarkUnlocked_regs (s : State) : s.tdcMarkUnlocked.regs = s.regs := by
  refine forEach_keeps (fun t : State => t.regs = s.regs) _ _ s (fun u t same => ?_) rfl
  split
  · exact same
  · exact same

/-- A unit that has seen a loop unlocked while it was armed. -/
def TdcSt.marked (x : TdcSt) : TdcSt := { x with unlocked := x.unlocked || x.armed }

theorem TdcSt.marked_of_armed {x : TdcSt} (armed : x.armed = true) : x.marked = { x with unlocked := true } := by
  rw [TdcSt.marked, armed, Bool.or_true]

theorem TdcSt.marked_of_unarmed {x : TdcSt} (unarmed : x.armed = false) : x.marked = x := by
  cases x
  simp_all [TdcSt.marked]

theorem State.tdcMarkUnlocked_tdc (s : State) (u : Unit40) : s.tdcMarkUnlocked.tdc u = (s.tdc u).marked := by
  refine forEach_once (before := fun t => t.tdc u = s.tdc u) (after := fun t => t.tdc u = (s.tdc u).marked) (i := u)
    (fun j ne t same => ?_) (fun t same => ?_) (fun j ne t same => ?_) _ s (List.nodup_range) (List.mem_range.mpr u.isLt) rfl
  · dsimp only
    split
    · rwa [State.tdc_setTdc_ne _ _ ne.symm]
    · exact same
  · dsimp only
    split
    · next armed =>
      rw [same] at armed
      rw [State.tdc_setTdc_same, same, TdcSt.marked_of_armed armed]
    · next idle =>
      rw [same] at idle
      rw [same, TdcSt.marked_of_unarmed (Bool.eq_false_iff.mpr idle)]
  · dsimp only
    split
    · rwa [State.tdc_setTdc_ne _ _ ne.symm]
    · exact same

theorem State.tdcMarkUnlocked_fault_rbit (s : State) (i : Nat) :
    (s.tdcMarkUnlocked.fault Reg.tdcFault 1).rbit Reg.tdcStatus i = s.rbit Reg.tdcStatus i := by
  rw [State.rbit, State.fault_reg_of_ne _ (raiseSpares_of_lt (by decide)) (by decide), State.reg, s.tdcMarkUnlocked_regs]
  rfl

theorem State.tdcMarkUnlocked_fault_tdc (s : State) (u : Unit40) :
    (s.tdcMarkUnlocked.fault Reg.tdcFault 1).tdc u = (s.tdc u).marked := by
  rw [State.tdc, (State.fault_raiseOnly _ _ _).tdcs]
  exact s.tdcMarkUnlocked_tdc u

theorem State.tdcArm_general {s : State} {u : Nat} (general : 32 ≤ u) : s.tdcArm u = s.setTdc u { s.tdc u with
    armed := true, start := none, startAt := 0, stop := none, extra := 0, holdAfter := false, shot := 0
    unlocked := !(s.rbit Reg.tdcStatus 0 && s.rbit Reg.tdcStatus 1) } := by
  rw [State.tdcArm, if_neg (by omega)]
  rfl

theorem State.tdcGo_of_oneShot {s : State} {u : Nat} (q : Req) (unarmed : (s.tdc u).armed = false) (free : (s.tdc u).hold = false)
    (oneShot : s.armMode u = 0) : s.tdcGo u q = s.tdcArm u := by
  simp [State.tdcGo, unarmed, free, oneShot]

theorem State.tdcDisarm_of_idle {s : State} {u : Nat} (unarmed : (s.tdc u).armed = false) (free : (s.tdc u).hold = false) :
    s.tdcDisarm u = s.setTdc u { s.tdc u with hold := true } := by
  simp [State.tdcDisarm, unarmed, free]

/-- ARM.GO and ARM.DISARM of a general unit (R117, R118). -/
theorem exec_tdcArmGo {s : State} (q : Req) {u : Unit40} (notShut : s.shut = false) (general : 32 ≤ u.val) :
    exec (.tdcArmGo q u) s = .next (s.tdcGo u q) :=
  (next_of_not_shut _ notShut).trans (congrArg Host.Outcome.next (if_neg (by omega)))

theorem exec_tdcDisarm {s : State} (q : Req) {u : Unit40} (notShut : s.shut = false) (general : 32 ≤ u.val) :
    exec (.tdcDisarm q u) s = .next (s.tdcDisarm u) :=
  (next_of_not_shut _ notShut).trans (congrArg Host.Outcome.next (if_neg (by omega)))

theorem exec_tdcUnlock {s : State} {slow fast : Bool} (notShut : s.shut = false) (enabled : s.rbit Reg.tdcCtrl 0 = true)
    (lost : (slow && s.rbit Reg.tdcStatus 0 || fast && s.rbit Reg.tdcStatus 1) = true) :
    exec (.tdcUnlock slow fast) s = .next (((s.when slow (·.setRbit Reg.tdcStatus 0 false)).when fast
      (·.setRbit Reg.tdcStatus 1 false)).tdcMarkUnlocked.fault Reg.tdcFault 1) :=
  (if_neg (by rw [notShut]; decide)).trans (if_neg (by rw [enabled, lost]; decide))

/-- A bit that is cleared where a condition holds. -/
theorem State.when_clearRbit (s : State) (c : Bool) (a : Nat) {i : Nat} (hi : i < 32) :
    let t := s.when c (·.setRbit a i false)
    t.tdcs = s.tdcs ∧ t.rbit a i = (s.rbit a i && !c) ∧ ∀ j, j ≠ i → t.rbit a j = s.rbit a j := by
  cases c with
  | false => exact ⟨rfl, (Bool.and_true _).symm, fun _ _ => rfl⟩
  | true => exact ⟨rfl, (s.rbit_setRbit_same a i false hi).trans (Bool.and_false _).symm,
      fun j ne => s.rbit_setRbit_ne a false hi ne⟩

/-! ## The obligation -/

/-- Settles O13: one rule per command. Completion and the window's end both end in `tdcEnd`, whose result word, flags and hand-over
are read once; an edge at a pin reaches each general unit once, and only the unit itself changes. -/
theorem timeIntervalUnits : Obligations.TimeIntervalUnits := by
  refine ⟨?unarmed, ?start, ?stop, ?complete, ?windowEnd, ?idle, ?goArmed, ?go, ?disarm, ?rearm, ?held, ?locked, ?unlock,
    ?pinQuiet, ?pinStart⟩
  case unarmed =>
    intro s u stop e ofs unarmed
    rw [exec_tdcEdge, State.tdcEdgeAt_of_unarmed _ e ofs stop unarmed]
    simp only [ite_self]
  case start =>
    intro s u e ofs outside armed first
    rw [exec_tdcEdge, State.tdcEdgeAt_first_start _ e ofs armed first]
    obtain channel | (src : s.tdcSrc u false < 8) := outside
    · rw [if_pos channel]; rfl
    · rw [if_pos src]; exact congrArg Host.Outcome.next (ite_self _)
  case stop =>
    intro s u e ofs general src armed first
    rw [exec_tdcEdge, State.tdcEdgeAt_first_stop _ e ofs armed first, if_neg (by omega)]
    exact congrArg Host.Outcome.next (if_pos src)
  case complete =>
    intro s u a b armed start stop d iv
    have found : s.tdcFound u = ⟨iv, (s.tdc u).unlocked, false, decide (iv < -1) && s.rbit (tdcCfgAt u) 0,
      decide (iv.natAbs ≤ 1), (s.tdc u).extra⟩ := State.tdcFound_of_seen start stop
    obtain ⟨stopSeen, startSeen, near, order, timeout, unlocked⟩ := s.tdcEnd_flags u
    have interval := s.tdcEnd_interval u
    have extra := s.tdcEnd_extra u
    have tout := s.tdcEnd_tout u.isLt
    have offset (r : RecSt) (channel : u.val < 32) := State.tdcEnd_hasOffset (r := r) channel (by rw [found])
    rw [stop] at stopSeen
    rw [start] at startSeen
    rw [found] at near order timeout unlocked interval extra tout
    simp only [found] at offset
    have close : decide (iv.natAbs ≤ 1) = decide (-1 ≤ iv ∧ iv ≤ 1) := decide_eq_decide.mpr (by omega)
    exact ⟨s.tdcEnd u, if_pos ⟨armed, by rw [start]; rfl, by rw [stop]; rfl⟩, s.tdcEnd_armed u, s.tdcEnd_tstart u,
      s.tdcEnd_done u.isLt, s.tdcEnd_overrun u.isLt, tout, interval, extra, stopSeen, startSeen, near.trans close, order,
      timeout, unlocked, s.tdcEnd_tag u, fun k ne => s.tdcEnd_tdc_ne u ne, offset⟩
  case windowEnd =>
    intro s u armed missing
    obtain ⟨stopSeen, startSeen, near, order, timeout, unlocked⟩ := s.tdcEnd_flags u
    have interval := s.tdcEnd_interval u
    have tout := s.tdcEnd_tout u.isLt
    rw [State.tdcFound_of_missing missing] at near order timeout unlocked interval tout
    exact ⟨s.tdcEnd u, if_pos armed, s.tdcEnd_armed u, tout, s.tdcEnd_tstart u, s.tdcEnd_done u.isLt, s.tdcEnd_overrun u.isLt,
      interval, timeout, near, order, startSeen, stopSeen, unlocked⟩
  case idle =>
    intro s u unarmed
    have off : ¬(s.tdc u).armed = true := by rw [unarmed]; decide
    exact ⟨if_neg fun h => off h.1, if_neg off⟩
  case goArmed =>
    intro s q u notShut general armed
    exact (exec_tdcArmGo q notShut general).trans (congrArg Host.Outcome.next (if_pos armed))
  case go =>
    intro s q u notShut general unarmed free oneShot
    rw [exec_tdcArmGo q notShut general, State.tdcGo_of_oneShot q unarmed free oneShot, State.tdcArm_general general]
  case disarm =>
    intro s q u notShut general unarmed free
    rw [exec_tdcDisarm q notShut general, State.tdcDisarm_of_idle unarmed free]
  case rearm =>
    intro s u general continuous unarmed free
    refine ⟨s.tdcArm u, if_pos ⟨general, continuous, by rw [unarmed]; decide, by rw [free]; decide⟩, ?_⟩
    rw [State.tdcArm, State.tdc_setTdc_same]
    exact ⟨rfl, rfl, rfl, rfl, fun k ne => s.tdc_setTdc_ne _ ne⟩
  case held =>
    intro s u held
    exact if_neg fun h => h.2.2.2 held
  case locked =>
    intro s notShut enabled
    exact (if_neg (by rw [notShut]; decide)).trans (if_pos enabled)
  case unlock =>
    intro s slow fast notShut enabled lost
    obtain ⟨tdcs0, slow0, other0⟩ := s.when_clearRbit slow Reg.tdcStatus (i := 0) (by decide)
    obtain ⟨tdcs1, fast1, other1⟩ := (s.when slow (·.setRbit Reg.tdcStatus 0 false)).when_clearRbit fast Reg.tdcStatus
      (i := 1) (by decide)
    refine ⟨_, exec_tdcUnlock notShut enabled lost, ?_, ?_, State.fault_rbit_self _ (raiseSpares_of_lt (by decide)) (by decide)
      (by decide), fun u => ?_⟩
    · rw [State.tdcMarkUnlocked_fault_rbit, other1 0 (by decide), slow0]
    · rw [State.tdcMarkUnlocked_fault_rbit, fast1, other0 1 (by decide)]
    · rw [State.tdcMarkUnlocked_fault_tdc, State.tdc, tdcs1, tdcs0]
      rfl
  case pinQuiet =>
    intro s pin e ofs quiet
    have edges : forEach ((List.range 8).map (· + 32)) (State.pinEdge pin e ofs) s = s :=
      forEach_of_fixed fun u mem => State.pinEdge_of_unarmed pin e ofs
        (quiet u (lt_of_mem_generalUnits mem).1 (lt_of_mem_generalUnits mem).2).1
    rw [exec_tinEdge_rise, edges, ite_self, State.gateRise_of_ungated pin fun u low high => (quiet u low high).2]
  case pinStart =>
    intro s pin u e ofs general rising ungated start stop armed first
    have seen : s.EdgeShows u { s.tdc u with start := some (e % stampMod), startAt := tstart s.time.now ofs }
        (forEach ((List.range 8).map (· + 32)) (State.pinEdge pin e ofs) s) :=
      forEach_once (before := s.EdgeShows u (s.tdc u)) (i := u)
        (fun j ne t shows => State.pinEdge_keeps (fun _ _ h => State.tdcEdge_edgeShows ne.symm h) shows)
        (fun t shows => State.pinEdge_first_start e ofs start stop armed first shows)
        (fun j ne t shows => State.pinEdge_keeps (fun _ _ h => State.tdcEdge_edgeShows ne.symm h) shows)
        _ s (by decide) (List.mem_map.mpr ⟨u - 32, List.mem_range.mpr (by omega), by omega⟩) ⟨rfl, fun _ => rfl, rfl⟩
    rw [exec_tinEdge_rise, if_neg (by rw [rising]; decide), State.gateRise_of_ungated]
    · exact ⟨_, rfl, seen.unit⟩
    · intro k low high
      rw [State.armMode, State.fld, seen.cfg]
      exact ungated k low high

end Sys2Proof.Machine
end

section
/-!
PROOFS. PTP ports, links and frames (O53): what a port's entry into a state leaves alone, the settings an announce interval
puts in force, the servo and SYNCED, and the answers of a port to Ethernet frames.
-/
namespace Sys2Proof.Machine

/-! ## Raises and the open sessions -/

/-- t has the sessions open that s has. -/
structure State.OpenAsIn (s t : State) : Prop where
  active : ∀ i, (t.session i).active = (s.session i).active

section
variable {s t : State}

theorem State.OpenAsIn.refl (s : State) : s.OpenAsIn s := ⟨fun _ => rfl⟩

theorem State.OpenAsIn.same {u : State} (h : s.OpenAsIn t) (same : u.sessions = t.sessions) : s.OpenAsIn u :=
  ⟨fun i => by rw [State.session, same]; exact h.active i⟩

theorem State.OpenAsIn.setSession (h : s.OpenAsIn t) {i : Nat} {x : SessionSt} (same : x.active = (t.session i).active) :
    s.OpenAsIn (t.setSession i x) := by
  refine ⟨fun k => ?_⟩
  by_cases here : k = i
  · rw [here, State.session_setSession_same, same, h.active]
  · rw [State.session_setSession_ne _ _ here, h.active]

theorem State.OpenAsIn.setReg (h : s.OpenAsIn t) (a : Nat) (v : W32) : s.OpenAsIn (t.setReg a v) := h.same (t.setReg_sessions a v)
theorem State.OpenAsIn.setVec (h : s.OpenAsIn t) (i : Nat) (x : VecSt) : s.OpenAsIn (t.setVec i x) := h.same (t.setVec_sessions i x)

theorem State.OpenAsIn.datagram (h : s.OpenAsIn t) (ip : IpAddr) (b : List Byte) : s.OpenAsIn (t.datagram ip b) := by
  unfold State.datagram
  split
  · exact forEach_keeps s.OpenAsIn _ _ t (fun n u k => (k.same (u.emit_sessions _)).setReg _ _) h
  · exact h

theorem State.OpenAsIn.sessionSend (h : s.OpenAsIn t) (i type flags reqId : Nat) (payload : List Byte) :
    s.OpenAsIn (t.sessionSend i type flags reqId payload) := by
  unfold State.sessionSend
  refine State.OpenAsIn.datagram ?_ _ _
  exact h.setSession rfl

theorem State.OpenAsIn.notifySend (h : s.OpenAsIn t) (v : Nat) (w : W72) : s.OpenAsIn (t.notifySend v w) := by
  refine forEach_keeps s.OpenAsIn _ _ t (fun i u k => ?_) h
  split
  · exact k.sessionSend _ _ _ _ _
  · exact k

theorem State.OpenAsIn.notifyFlush (h : s.OpenAsIn t) (v : Nat) : s.OpenAsIn (t.notifyFlush v) := by
  have drawn := h.same t.drawn_sessions
  unfold State.notifyFlush
  split
  · exact h
  · split
    · exact drawn
    · exact (drawn.setVec v _).notifySend v _

theorem State.OpenAsIn.notify (h : s.OpenAsIn t) (v : Nat) : s.OpenAsIn (t.notify v) := by
  unfold State.notify
  split
  · exact (h.setVec v _).notifyFlush v
  · exact h

theorem State.OpenAsIn.msixRaise (h : s.OpenAsIn t) (v : Nat) : s.OpenAsIn (t.msixRaise v) := by
  unfold State.msixRaise
  split
  · exact h.same (t.setMsixWord_sessions _ _)
  · split
    · exact h.same (t.emit_sessions _)
    · exact h

theorem State.OpenAsIn.raise (h : s.OpenAsIn t) (v : Nat) : s.OpenAsIn (t.raise v) :=
  (((h.setVec v _).setReg _ _).msixRaise v).notify v

theorem State.OpenAsIn.event (h : s.OpenAsIn t) (v : Nat) : s.OpenAsIn (t.event v) := by
  have moderated (u : State) (k : s.OpenAsIn u) :
      s.OpenAsIn (if u.modReached v then (u.setVec v { u.vec v with cnt := 0 }).raise v else u) := by
    split
    · exact (k.setVec v _).raise v
    · exact k
  unfold State.event
  split
  · exact moderated _ (h.setVec v _)
  · split
    · exact h
    · exact h.raise v

theorem State.OpenAsIn.fault (h : s.OpenAsIn t) (a m : Nat) : s.OpenAsIn (t.fault a m) := by
  unfold State.fault
  dsimp only
  split
  · exact h
  · split
    · exact ((h.setReg a _).event 224).event 235
    · exact (h.setReg a _).event 224

end

/-- A fault clears no fault bit of its register (R40). -/
theorem State.fault_rbit_kept {s : State} {a i : Nat} (spared : RaiseSpares a) (m : Nat) (hi : i < 24)
    (set : s.rbit a i = true) : (s.fault a m).rbit a i = true := by
  rw [State.rbit, s.fault_reg_eq spared]
  dsimp only
  split
  · exact set
  · rw [s.reg_setReg_same, bitOf_withField_below _ _ _ hi, bitOf, BitVec.getLsbD_or]
    exact Bool.or_eq_true_iff.mpr (.inl set)

/-! ## The state of a port (R410, R411) -/

/-- A port that enters a state, from another one or with another master (R411). -/
def PtpSt.entered (x : PtpSt) (st : Nat) (parent : Option (List Byte)) : PtpSt :=
  if followsMaster x.state && followsMaster st && decide (x.parent = parent) then { x with state := st }
  else { x with state := st, parent := parent, syncRx := none, delayTx := none, delay := 0, ms := 0, pd := none, inLock := 0,
                outLock := 0, sum := 0 }

section
variable (x : PtpSt) (st : Nat) (parent : Option (List Byte))

theorem PtpSt.entered_state : (x.entered st parent).state = st := by
  unfold PtpSt.entered
  split <;> rfl

theorem PtpSt.entered_foreign : (x.entered st parent).foreign = x.foreign := by
  unfold PtpSt.entered
  split <;> rfl

theorem PtpSt.entered_cfg : (x.entered st parent).cfg = x.cfg := by
  unfold PtpSt.entered
  split <;> rfl

end

section
variable {P : State → Prop} {s : State} {n : Nat} (synced : ∀ t b, P t → P (t.setSynced b))
include synced

theorem State.masterSynced_keeps (h : P s) : P s.masterSynced := by
  unfold State.masterSynced
  dsimp only
  split
  · exact h
  · split
    · exact synced _ _ h
    · exact h

/-- What a port's new state, a write of SYNCED and NET.FAULT.PTP keep, the entry of a port into a state keeps. -/
theorem State.ptpEnter_keeps (st : Nat) (parent : Option (List Byte)) (fault : ∀ t, P t → P (t.fault Reg.netFault 64))
    (same : P s) (entered : P (s.setPtp n ((s.ptp n).entered st parent))) : P (s.ptpEnter n st parent) := by
  have left (t : State) (c : Prop) [Decidable c] (h : P t) : P (if c then t.setSynced false else t) := by
    split
    · exact synced _ _ h
    · exact h
  have failed (t : State) (c : Prop) [Decidable c] (h : P t) : P (if c then t.fault Reg.netFault 64 else t) := by
    split
    · exact fault _ h
    · exact h
  unfold State.ptpEnter
  dsimp only
  split
  · exact same
  · exact State.masterSynced_keeps synced (failed _ _ (left _ _ entered))

end

theorem State.RaiseOnly.ptp {s t : State} (h : s.RaiseOnly t) (n : Nat) : t.ptp n = s.ptp n := by
  obtain ⟨r, v, x, y, m, f, rfl⟩ := h
  rfl

/-- A port that enters another state shows itself entered. -/
theorem State.ptpEnter_ptp {s : State} {n st : Nat} (parent : Option (List Byte)) (other : (s.ptp n).state ≠ st) :
    (s.ptpEnter n st parent).ptp n = (s.ptp n).entered st parent := by
  have synced (t : State) (b : Bool) (h : t.ptp n = (s.ptp n).entered st parent) :
      (t.setSynced b).ptp n = (s.ptp n).entered st parent := h
  have entered : (s.setPtp n ((s.ptp n).entered st parent)).ptp n = (s.ptp n).entered st parent := s.ptp_setPtp_same n _
  have left (t : State) (c : Prop) [Decidable c] : (if c then t.setSynced false else t).ptp n = t.ptp n := by
    split <;> rfl
  have failed (t : State) (c : Prop) [Decidable c] : (if c then t.fault Reg.netFault 64 else t).ptp n = t.ptp n := by
    split
    · exact (t.fault_raiseOnly _ _).ptp n
    · rfl
  unfold State.ptpEnter
  rw [if_neg fun same => other same.1]
  refine State.masterSynced_keeps synced ?_
  rw [failed, left]
  exact entered

/-! ## Settings in force (R412) -/

/-- Port n of t has the settings in force that it has in s, and the dictionary is that of s. -/
structure State.SettingsKept (n : Nat) (s t : State) : Prop where
  cfg : (t.ptp n).cfg = (s.ptp n).cfg
  od : t.od = s.od

section
variable {n : Nat} {s t : State}

theorem State.SettingsKept.refl (s : State) : s.SettingsKept n s := ⟨rfl, rfl⟩

theorem State.SettingsKept.setPtp (h : State.SettingsKept n s t) {x : PtpSt} (same : x.cfg = (t.ptp n).cfg) :
    State.SettingsKept n s (t.setPtp n x) :=
  ⟨by rw [State.ptp_setPtp_same, same, h.cfg], h.od⟩

theorem State.SettingsKept.setReg (h : State.SettingsKept n s t) (a : Nat) (v : W32) : State.SettingsKept n s (t.setReg a v) :=
  ⟨h.cfg, h.od⟩

theorem State.SettingsKept.fault (h : State.SettingsKept n s t) (a m : Nat) : State.SettingsKept n s (t.fault a m) :=
  ⟨by rw [(t.fault_raiseOnly a m).ptp, h.cfg], by
    obtain ⟨r, v, x, y, k, f, same⟩ := t.fault_raiseOnly a m
    rw [same]
    exact h.od⟩

theorem State.SettingsKept.masterSynced (h : State.SettingsKept n s t) : State.SettingsKept n s t.masterSynced :=
  State.masterSynced_keeps (fun _ _ k => k.setReg _ _) h

theorem State.SettingsKept.ptpEnter (h : State.SettingsKept n s t) (st : Nat) (parent : Option (List Byte)) :
    State.SettingsKept n s (t.ptpEnter n st parent) :=
  State.ptpEnter_keeps (fun _ _ k => k.setReg _ _) st parent (fun _ k => k.fault _ _) h (h.setPtp (PtpSt.entered_cfg _ _ _))

theorem State.SettingsKept.ite {c : Prop} [Decidable c] {u : State} (ht : State.SettingsKept n s t) (hu : State.SettingsKept n s u) :
    State.SettingsKept n s (if c then t else u) := by
  split
  · exact ht
  · exact hu

theorem State.SettingsKept.ptpQualify (h : State.SettingsKept n s t) (best : List Byte) :
    State.SettingsKept n s (t.ptpQualify n best) :=
  h.ite ((h.ptpEnter _ _).setPtp rfl)

theorem State.SettingsKept.ptpQualified (h : State.SettingsKept n s t) : State.SettingsKept n s (t.ptpQualified n) :=
  h.ite ((h.ptpEnter _ _).ite (h.setPtp rfl))

theorem State.SettingsKept.ptpDecide (h : State.SettingsKept n s t) : State.SettingsKept n s (t.ptpDecide n) := by
  unfold State.ptpDecide
  dsimp only
  refine h.ite ?_
  split
  · exact h.ite (h.ptpEnter _ _)
  · refine (h.ptpEnter _ _).ite ((h.ptpEnter _ _).ite ?_)
    split
    · exact (h.ptpEnter _ _).ite (h.ptpQualify _)
    · exact h.ite (h.ptpQualify _)

theorem State.SettingsKept.ptpNumbered (h : State.SettingsKept n s t) (k kind : Nat) (body : List Byte) :
    State.SettingsKept n s (t.ptpNumbered n k kind body) := by
  have numbered := h.setPtp (x := { t.ptp n with seqNos := setNth (t.ptp n).seqNos k ((nth (t.ptp n).seqNos k 0 + 1) % 65536) }) rfl
  exact ⟨numbered.cfg, numbered.od⟩

end

theorem exec_ptpAnnounceInterval {s : State} {n : Port2} (on : s.ptpOn n = true) :
    ∃ t, exec (.ptpAnnounceInterval n) s = .next t ∧
      State.SettingsKept n (s.setPtp n { s.ptp n with cfg := s.ptpSettings }) t := by
  have decided :=
    ((State.SettingsKept.refl (n := n) (s.setPtp n { s.ptp n with cfg := s.ptpSettings })).ptpQualified.ptpDecide).masterSynced
  change ∃ t, execPtpAnnounceInterval n s = .next t ∧ _
  unfold execPtpAnnounceInterval
  rw [if_neg (by rw [on]; decide)]
  dsimp only
  split
  · exact ⟨_, rfl, decided.ptpNumbered _ _ _⟩
  · exact ⟨_, rfl, decided⟩


/-! ## Counters of frames, and what stands beside them -/

section
variable (s : State) (n : Nat) {a : Nat} (v : W32)

theorem State.portUp_setReg (cfg : a ≠ Reg.netPortCfg n) (status : a ≠ Reg.netPortStatus n) (life : a ≠ Reg.lifeState) :
    (s.setReg a v).portUp n = s.portUp n := by
  simp only [State.portUp, State.rbit, s.reg_setReg_ne v cfg.symm, s.reg_setReg_ne v status.symm, s.shut_setReg v life]

theorem State.portVid_setReg (cfg : a ≠ Reg.netPortCfg n) : (s.setReg a v).portVid n = s.portVid n :=
  congrArg (fun w => if bitOf w 4 then some (field w 27 16) else none) (s.reg_setReg_ne v cfg.symm)

theorem State.portUp_countRx : (s.count (Reg.netPortRxFrames n) 1).portUp n = s.portUp n :=
  s.portUp_setReg n _ (by lia) (by lia) (by lia)

theorem State.ptpOn_countRx : (s.count (Reg.netPortRxFrames n) 1).ptpOn n = s.ptpOn n := by
  rw [State.ptpOn, s.portUp_countRx, State.count, State.rbit, s.reg_setReg_ne _ (by lia)]
  rfl

theorem State.count_reg (a k : Nat) : (s.count a k).reg a = s.reg a + BitVec.ofNat 32 k := s.reg_setReg_same a _

end

/-! ## Interval timers and messages (R109, R410, R411) -/

theorem exec_ptpMessageRx (s : State) (n : Port2) (m : PtpMsg) (up : s.portUp n = true) : exec (.ptpMessageRx n m) s =
    if s.ptpOn n ∧ pListening ≤ (s.ptp n).state ∧ m.domain.toNat = (s.ptp n).set 1 then
      .next ((s.count (Reg.netPortRxFrames n) 1).ptpTake n m)
    else .next (s.count (Reg.netPortRxFrames n) 1) := by
  change execPtpMessageRx n m s = _
  unfold execPtpMessageRx
  rw [if_neg (by rw [up]; decide), ← s.ptpOn_countRx]
  rfl

theorem exec_ptpMessageRx_of_slave {s : State} {n : Port2} {m : PtpMsg} (on : s.ptpOn n = true) (slave : (s.ptp n).state = pSlave)
    (domain : m.domain.toNat = (s.ptp n).set 1) :
    exec (.ptpMessageRx n m) s = .next ((s.count (Reg.netPortRxFrames n) 1).ptpTake n m) := by
  rw [exec_ptpMessageRx s n m (Bool.and_eq_true_iff.mp on).2]
  exact if_pos ⟨on, by rw [slave]; decide, domain⟩

/-- A listening port whose announce time passes is MASTER, and has forgotten the masters it heard. -/
theorem exec_ptpAnnounceTimeout {s : State} {n : Port2} (on : s.ptpOn n = true) (listening : (s.ptp n).state = pListening) :
    ∃ t, exec (.ptpAnnounceTimeout n) s = .next t ∧ (t.ptp n).state = pMaster ∧ (t.ptp n).foreign = [] := by
  have forgot : (s.setPtp n { s.ptp n with foreign := [], heard := false }).ptp n =
      { s.ptp n with foreign := [], heard := false } := s.ptp_setPtp_same n _
  have waits : ((s.setPtp n { s.ptp n with foreign := [], heard := false }).ptp n).state = pListening := by rw [forgot, listening]
  refine ⟨_, (if_neg (by rw [on, listening]; decide)).trans (if_pos waits), ?_⟩
  rw [State.ptpEnter_ptp none (by rw [waits]; decide), PtpSt.entered_state, PtpSt.entered_foreign, forgot]
  exact ⟨rfl, rfl⟩

section
variable {s : State} {n : Nat} {m : PtpMsg}

theorem State.ptpTake_sync (slave : (s.ptp n).state = pSlave) (kind : m.kind = 0) (parent : (s.ptp n).parent = some m.source) :
    s.ptpTake n m = s.setPtp n { s.ptp n with syncRx := some (m.seqId.toNat, s.time.now) } := by
  simp [State.ptpTake, kind, parent, slave, followsMaster]

theorem State.ptpTake_followUp {rx : Nat} (kind : m.kind = 8) (parent : (s.ptp n).parent = some m.source)
    (sync : (s.ptp n).syncRx = some (m.seqId.toNat, rx)) :
    s.ptpTake n m = (s.setPtp n { s.ptp n with syncRx := none }).ptpSynced n ((rx : Int) - m.stamp - correction m) := by
  simp [State.ptpTake, kind, parent, sync]

theorem State.ptpSynced_of_slave (slave : (s.ptp n).state = pSlave) (ms : Int) :
    s.ptpSynced n ms = (s.setPtp n { s.ptp n with ms := ms }).servo n (ms - (s.ptp n).delay) := by
  simp [State.ptpSynced, slave]

/-- A slave's Follow_Up of the Sync it has stamped hands the offset to the servo, which finds the settings and runs of the port. -/
theorem State.ptpTake_servo {rx : Nat} (slave : (s.ptp n).state = pSlave) (kind : m.kind = 8)
    (parent : (s.ptp n).parent = some m.source) (sync : (s.ptp n).syncRx = some (m.seqId.toNat, rx)) :
    ∃ x y, s.ptpTake n m = ((s.setPtp n x).setPtp n y).servo n ((rx : Int) - m.stamp - correction m - (s.ptp n).delay) ∧
      y.cfg = (s.ptp n).cfg ∧ y.inLock = (s.ptp n).inLock ∧ y.outLock = (s.ptp n).outLock := by
  have taken : (s.setPtp n { s.ptp n with syncRx := none }).ptp n = { s.ptp n with syncRx := none } := s.ptp_setPtp_same n _
  refine ⟨{ s.ptp n with syncRx := none }, { s.ptp n with syncRx := none, ms := (rx : Int) - m.stamp - correction m }, ?_, rfl, rfl, rfl⟩
  rw [State.ptpTake_followUp kind parent sync, State.ptpSynced_of_slave (by rw [taken, slave]), taken]

end

/-! ## Messages sent (R109, R410) -/

section
variable (s : State) (n kind : Nat) (body : List Byte)

theorem State.ptpSend_tx : (s.ptpSend n kind body).tx = s.tx ++ [.ptp n (s.portVid n) kind body s.stamp] := rfl

theorem State.ptpSend_stamp : (s.ptpSend n kind body).stamp = s.stamp := rfl

theorem State.ptpSend_portVid : (s.ptpSend n kind body).portVid n = s.portVid n :=
  State.portVid_setReg _ n _ (by lia)

theorem State.ptpSend_txFrames :
    (s.ptpSend n kind body).reg (Reg.netPortTxFrames n) = s.reg (Reg.netPortTxFrames n) + 1 :=
  State.count_reg _ _ 1

end

theorem exec_ptpSyncInterval {s : State} {n : Port2} (on : s.ptpOn n = true) (master : (s.ptp n).state = pMaster) :
    ∃ x a b, exec (.ptpSyncInterval n) s = .next (((s.setPtp n x).ptpSend n 0 a).ptpSend n 8 b) :=
  ⟨_, _, _, if_neg (by rw [on, master]; decide)⟩

/-- A slave that measures the delay end to end asks its master for it. -/
theorem exec_delayReqInterval {s : State} {n : Port2} (on : s.ptpOn n = true) (slave : (s.ptp n).state = pSlave)
    (endToEnd : (s.ptp n).set 4 = 1) : ∃ x y a, exec (.delayReqInterval n) s =
      .next (((s.setPtp n x).setPtp n y).ptpSend n 1 a) ∧ y.delayTx = some s.time.now := by
  have asked : (s.setPtp n { s.ptp n with delayTx := some s.time.now }).ptp n =
      { s.ptp n with delayTx := some s.time.now } := s.ptp_setPtp_same n _
  refine ⟨{ s.ptp n with delayTx := some s.time.now }, _, _, (if_neg (by rw [on]; decide)).trans ((if_neg (by rw [endToEnd]; decide)).trans
    (if_pos (by rw [slave]; decide))), ?_⟩
  rw [asked]

/-! ## The servo (R108, R411) -/

theorem State.setSynced_rbit (s : State) (b : Bool) : (s.setSynced b).rbit Reg.timeSync 0 = b :=
  s.rbit_setRbit_same _ 0 b (by decide)

theorem State.alignLost_wide (s : State) (lost : Nat → Bool) : (s.alignLost lost).wide = s.wide :=
  (State.fault_raiseOnly _ _ _).wide.trans (forEach_keeps (fun t : State => t.wide = s.wide) _ _ s (fun _ _ same => same) rfl)

theorem State.timeStep_wreg (s : State) (v : W72) : (s.timeStep v).wreg Reg.timeStep = v := by
  unfold State.timeStep
  dsimp only
  rw [State.wreg, State.alignLost_wide, ← State.wreg]
  refine forEach_keeps (fun t : State => t.wreg Reg.timeStep = v) _ _ _ (fun h t same => ?_) ?_
  · split
    · exact same
    · exact same
  · split
    · exact State.wreg_setWreg_same _ _ _
    · exact State.wreg_setWreg_same _ _ _

section
variable {s : State} {n : Nat} {off : Int}

/-- An offset beyond STEP_THR, with STEP_EN: local time steps by it and SYNCED is cleared. -/
theorem State.servo_of_far (far : (s.ptp n).set 9 * 2 ^ 32 < off.natAbs) (stepEn : s.rbit Reg.timeSrcPolicy 2 = true) :
    (s.servo n off).rbit Reg.timeSync 0 = false ∧ (s.servo n off).wreg Reg.timeStep = toW 72 (-(off / 2 ^ 22)) := by
  unfold State.servo
  dsimp only
  rw [if_pos ⟨far, stepEn⟩]
  exact ⟨State.rbit_setRbit_same _ _ _ _ (by decide), State.timeStep_wreg _ _⟩

/-- Offsets in a row beyond 10 LOCK_THR, and within LOCK_THR, once this one is counted (R411). -/
def PtpSt.outRun (x : PtpSt) (off : Int) : Nat := if 10 * (x.set 10 * 2 ^ 32) < off.natAbs then x.outLock + 1 else 0
def PtpSt.inRun (x : PtpSt) (off : Int) : Nat := if off.natAbs ≤ x.set 10 * 2 ^ 32 then x.inLock + 1 else 0

section
variable {x : PtpSt} {off : Int}

theorem PtpSt.outRun_le : x.outRun off ≤ x.outLock + 1 := by
  unfold PtpSt.outRun
  split <;> omega

theorem PtpSt.inRun_le : x.inRun off ≤ x.inLock + 1 := by
  unfold PtpSt.inRun
  split <;> omega

theorem PtpSt.outRun_of_far (far : 10 * x.set 10 * 2 ^ 32 < off.natAbs) : x.outRun off = x.outLock + 1 :=
  if_pos (by omega)

theorem PtpSt.outRun_of_near (near : off.natAbs ≤ x.set 10 * 2 ^ 32) : x.outRun off = 0 :=
  if_neg (by omega)

theorem PtpSt.inRun_of_near (near : off.natAbs ≤ x.set 10 * 2 ^ 32) : x.inRun off = x.inLock + 1 :=
  if_pos near

end

theorem State.judged_rbit (s : State) (out within : Prop) [Decidable out] [Decidable within] :
    (if out then s.setSynced false else if within then s.setSynced true else s).rbit Reg.timeSync 0 =
      if out then false else if within then true else s.rbit Reg.timeSync 0 := by
  split
  · exact s.setSynced_rbit false
  · split
    · exact s.setSynced_rbit true
    · rfl

/-- Without STEP_EN SYNCED follows the runs of offsets within LOCK_THR and beyond 10 LOCK_THR. -/
theorem State.servo_synced (noStep : s.rbit Reg.timeSrcPolicy 2 = false) : (s.servo n off).rbit Reg.timeSync 0 =
    if 3 ≤ (s.ptp n).outRun off then false else if 16 ≤ (s.ptp n).inRun off then true else s.rbit Reg.timeSync 0 := by
  have outLock : ((s.servoRate n off).ptp n).outLock = (s.ptp n).outLock := by
    rw [State.servoRate, State.ptp_setReg, State.ptp_setPtp_same]
  have inLock : ((s.servoRate n off).ptp n).inLock = (s.ptp n).inLock := by
    rw [State.servoRate, State.ptp_setReg, State.ptp_setPtp_same]
  have kept (x : PtpSt) : ((s.servoRate n off).setPtp n x).rbit Reg.timeSync 0 = s.rbit Reg.timeSync 0 := by
    rw [State.rbit, State.reg_setPtp, State.servoRate, State.reg_setReg_ne _ _ (by decide)]
    rfl
  unfold State.servo
  dsimp only
  rw [if_neg fun far => Bool.false_ne_true (noStep.symm.trans far.2), outLock, inLock, State.judged_rbit, kept]
  rfl

end

theorem exec_ptpMessageRx_followUp {s : State} {n : Port2} {m : PtpMsg} {rx : Nat} (on : s.ptpOn n = true)
    (slave : (s.ptp n).state = pSlave) (domain : m.domain.toNat = (s.ptp n).set 1) (kind : m.kind = 8)
    (parent : (s.ptp n).parent = some m.source) (sync : (s.ptp n).syncRx = some (m.seqId.toNat, rx)) :
    let off := (rx : Int) - m.stamp - m.correction * 2 ^ 16 - (s.ptp n).delay
    ∃ t, exec (.ptpMessageRx n m) s = .next t ∧
      ((s.ptp n).set 9 * 2 ^ 32 < off.natAbs → s.rbit Reg.timeSrcPolicy 2 = true →
        t.rbit Reg.timeSync 0 = false ∧ t.wreg Reg.timeStep = toW 72 (-(off / 2 ^ 22))) ∧
      (s.rbit Reg.timeSrcPolicy 2 = false → t.rbit Reg.timeSync 0 =
        if 3 ≤ (s.ptp n).outRun off then false else if 16 ≤ (s.ptp n).inRun off then true else s.rbit Reg.timeSync 0) := by
  intro off
  obtain ⟨x, y, taken, cfg, inLock, outLock⟩ :=
    State.ptpTake_servo (s := s.count (Reg.netPortRxFrames n) 1) slave kind parent sync
  have port : (((s.count (Reg.netPortRxFrames n) 1).setPtp n x).setPtp n y).ptp n = y := State.ptp_setPtp_same _ _ _
  have bit (a i : Nat) (ne : a ≠ Reg.netPortRxFrames n) :
      (((s.count (Reg.netPortRxFrames n) 1).setPtp n x).setPtp n y).rbit a i = s.rbit a i :=
    congrArg (bitOf · i) (s.reg_setReg_ne _ ne)
  have set (k : Nat) : y.set k = (s.ptp n).set k := congrArg (nth · (k - 1) 0) cfg
  refine ⟨_, exec_ptpMessageRx_of_slave on slave domain, ?_⟩
  rw [taken]
  refine ⟨fun far stepEn => ?_, fun noStep => ?_⟩
  · refine State.servo_of_far ?_ ((bit _ _ (by lia)).trans stepEn)
    rw [port, set]
    exact far
  · rw [State.servo_synced ((bit _ _ (by lia)).trans noStep), port, bit _ _ (by lia)]
    simp only [PtpSt.outRun, PtpSt.inRun, set, inLock, outLock]
    rfl

/-! ## Links (R419, R421) -/

/-- t has the status register of port n, the fault bits and the open sessions of s. -/
structure State.LinkKept (n : Nat) (s t : State) : Prop where
  status : t.reg (Reg.netPortStatus n) = s.reg (Reg.netPortStatus n)
  faults : ∀ i < 24, s.rbit Reg.netFault i = true → t.rbit Reg.netFault i = true
  sessions : s.OpenAsIn t

theorem raiseSpares_netFault : RaiseSpares Reg.netFault := ⟨fun k _ => by lia, fun n _ => by lia⟩

theorem raiseSpares_netPortStatus (n : Nat) : RaiseSpares (Reg.netPortStatus n) := ⟨fun k _ => by lia, fun m _ => by lia⟩

section
variable {n : Nat} {s t : State}

theorem State.LinkKept.refl (n : Nat) (s : State) : s.LinkKept n s := ⟨rfl, fun _ _ set => set, .refl s⟩

theorem State.LinkKept.ite {c : Prop} [Decidable c] {u : State} (ht : State.LinkKept n s t) (hu : State.LinkKept n s u) :
    State.LinkKept n s (if c then t else u) := by
  split
  · exact ht
  · exact hu

theorem State.LinkKept.setPtp (h : State.LinkKept n s t) (x : PtpSt) : State.LinkKept n s (t.setPtp n x) :=
  ⟨h.status, h.faults, h.sessions.same (t.setPtp_sessions n x)⟩

theorem State.LinkKept.setSynced (h : State.LinkKept n s t) (b : Bool) : State.LinkKept n s (t.setSynced b) :=
  ⟨(t.reg_setReg_ne _ (by lia)).trans h.status,
    fun i hi set => (congrArg (bitOf · i) (t.reg_setReg_ne _ (by decide))).trans (h.faults i hi set), h.sessions.setReg _ _⟩

theorem State.LinkKept.fault (h : State.LinkKept n s t) (m : Nat) : State.LinkKept n s (t.fault Reg.netFault m) :=
  ⟨(t.fault_reg_of_ne (raiseSpares_netPortStatus n) (by lia) m).trans h.status,
    fun i hi set => State.fault_rbit_kept raiseSpares_netFault m hi (h.faults i hi set), h.sessions.fault _ m⟩

theorem State.LinkKept.ptpEnter (h : State.LinkKept n s t) (st : Nat) (parent : Option (List Byte)) :
    State.LinkKept n s (t.ptpEnter n st parent) :=
  State.ptpEnter_keeps (fun _ b k => k.setSynced b) st parent (fun _ k => k.fault 64) h (h.setPtp _)

theorem State.LinkKept.ptpFollow (h : State.LinkKept n s t) : State.LinkKept n s (t.ptpFollow n) :=
  ((((h.setPtp _).ptpEnter _ _).ite h)).ite ((h.ite (h.ptpEnter _ _)).ite ((h.ptpEnter _ _).ite h))

end

theorem exec_linkLoss {s : State} {n : Port2} (up : s.fld (Reg.netPortStatus n) 2 0 ≠ 0) :
    ∃ t, exec (.linkLoss n) s = .next t ∧ t.reg (Reg.netPortStatus n) = 0 ∧ t.rbit Reg.netFault n = true ∧
      ∀ i, (t.session i).active = (s.session i).active := by
  have kept := (State.LinkKept.refl n ((s.setReg (Reg.netPortStatus n) 0).fault Reg.netFault (2 ^ n.val))).ptpFollow
  refine ⟨_, if_neg up, ?_, kept.faults n (by omega) ?_, fun i => (kept.sessions.active i).trans ?_⟩
  · rw [kept.status, State.fault_reg_of_ne _ (raiseSpares_netPortStatus n) (by lia), State.reg_setReg_same]
  · exact State.fault_rbit_self _ raiseSpares_netFault (by omega) (Nat.testBit_two_pow_self)
  · exact (((State.OpenAsIn.refl s).setReg _ 0).fault _ _).active i

theorem exec_linkUp {s : State} {n : Port2} (an : Bool) (enabled : s.rbit (Reg.netPortCfg n) 0 = true) (notShut : s.shut = false)
    (noAn : s.rbit (Reg.netPortCfg n) 3 = false) :
    ∃ t, exec (.linkUp n an) s = .next t ∧ t.reg (Reg.netPortStatus n) = 5 := by
  refine ⟨_, if_neg (by rw [enabled, notShut]; decide), ?_⟩
  rw [(State.LinkKept.refl n _).ptpFollow.status, State.reg_setReg_same, noAn]
  rfl

/-! ## Ethernet frames (R419) -/

section
variable (s : State) (n : Nat) {a : Nat} (v : W32)

theorem State.ownIp_setReg (lo : a ≠ Reg.netPortMacLo n) (hi : a ≠ Reg.netPortMacHi n) (ip : IpAddr) :
    (s.setReg a v).ownIp n ip = s.ownIp n ip := by
  cases ip with
  | v4 => rfl
  | v6 x =>
    have mac : (s.setReg a v).portMac n = s.portMac n := by
      simp only [State.portMac, State.fld, s.reg_setReg_ne v lo.symm, s.reg_setReg_ne v hi.symm]
    simp only [State.ownIp, State.linkLocal, mac]
    rfl

theorem State.ownIp_v4 {s : State} {n : Nat} {x : BitVec 32} (nonzero : x ≠ 0) (own : x = s.portIp4 n) : s.ownIp n (.v4 x) = true := by
  rw [State.ownIp, decide_eq_true nonzero, decide_eq_true own]
  rfl

theorem State.ownIp_v6 {s : State} {n : Nat} {x : BitVec 128} (nonzero : x ≠ 0) (own : x = s.portIp6 n ∨ x = s.linkLocal n) :
    s.ownIp n (.v6 x) = true := by
  rw [State.ownIp, decide_eq_true nonzero, Bool.true_and, Bool.or_eq_true, decide_eq_true_eq, decide_eq_true_eq]
  exact own

theorem State.ownIp_countRx (ip : IpAddr) : (s.count (Reg.netPortRxFrames n) 1).ownIp n ip = s.ownIp n ip :=
  s.ownIp_setReg n _ (by lia) (by lia) ip

end

/-- The answer to a counted frame leaves the port tagged as the port is, and counts. -/
theorem State.ethSend_countRx (s : State) (n : Nat) (mac : BitVec 48) (k : EthKind) :
    let t := (s.count (Reg.netPortRxFrames n) 1).ethSend n mac k
    t.tx = s.tx ++ [.eth n (s.portVid n) mac k] ∧ t.reg (Reg.netPortTxFrames n) = s.reg (Reg.netPortTxFrames n) + 1 ∧
      t.reg (Reg.netPortRxFrames n) = s.reg (Reg.netPortRxFrames n) + 1 := by
  have vid := s.portVid_setReg n (a := Reg.netPortRxFrames n) (s.reg (Reg.netPortRxFrames n) + BitVec.ofNat 32 1) (by lia)
  refine ⟨?_, ?_, ?_⟩
  · rw [← vid]
    rfl
  · rw [State.ethSend, State.count_reg, State.reg_emit, State.count, State.reg_setReg_ne _ _ (by lia)]
    rfl
  · rw [State.ethSend, State.count, State.reg_setReg_ne _ _ (by lia), State.reg_emit, State.count_reg]
    rfl

section
variable {s : State} {n : Port2} {f : EthFrame} (up : s.portUp n = true) (intact : f.fcsOk = true)
include up intact

theorem exec_ethernetFrameRx_of_long (long : 1522 < f.len) :
    exec (.ethernetFrameRx n f) s = .next (s.count (Reg.netPortRxDrop n) 1) := by
  change execEthernetFrameRx n f s = _
  simp only [execEthernetFrameRx, up, intact, Bool.not_true, Bool.false_eq_true, if_false, long, if_true]

variable (fits : f.len ≤ 1522)
include fits

theorem exec_ethernetFrameRx_of_udp {p : Nat} (kind : f.kind = .udp p) : exec (.ethernetFrameRx n f) s =
    .next (if p = 319 ∨ p = 320 then s else if p = 50170 then s.count (Reg.netPortRxFrames n) 1
      else (s.count (Reg.netPortRxFrames n) 1).count (Reg.netPortRxDrop n) 1) := by
  change execEthernetFrameRx n f s = _
  simp only [execEthernetFrameRx, up, intact, Bool.not_true, Bool.false_eq_true, if_false, Nat.not_lt.mpr fits, kind]

/-- An answer leaves the port tagged as the port is, and both frames count. -/
theorem exec_ethernetFrameRx_of_answer {k : EthKind}
    (answer : (s.count (Reg.netPortRxFrames n) 1).ethAnswer n f.kind = some k) :
    ∃ t, exec (.ethernetFrameRx n f) s = .next t ∧ t.tx = s.tx ++ [.eth n (s.portVid n) f.mac k] ∧
      t.reg (Reg.netPortTxFrames n) = s.reg (Reg.netPortTxFrames n) + 1 ∧
      t.reg (Reg.netPortRxFrames n) = s.reg (Reg.netPortRxFrames n) + 1 := by
  refine ⟨(s.count (Reg.netPortRxFrames n) 1).ethSend n f.mac k, ?_, s.ethSend_countRx n f.mac k⟩
  change execEthernetFrameRx n f s = _
  simp only [execEthernetFrameRx, up, intact, Bool.not_true, Bool.false_eq_true, if_false, Nat.not_lt.mpr fits]
  cases kind : f.kind with
  | udp p => rw [kind] at answer; cases answer
  | _ => rw [kind] at answer; simp only [answer]

theorem exec_ethernetFrameRx_of_no_answer (notUdp : ∀ p, f.kind ≠ .udp p)
    (silent : (s.count (Reg.netPortRxFrames n) 1).ethAnswer n f.kind = none) :
    exec (.ethernetFrameRx n f) s = .next (s.count (Reg.netPortRxFrames n) 1) := by
  change execEthernetFrameRx n f s = _
  simp only [execEthernetFrameRx, up, intact, Bool.not_true, Bool.false_eq_true, if_false, Nat.not_lt.mpr fits]
  cases kind : f.kind with
  | udp p => exact absurd kind (notUdp p)
  | _ => rw [kind] at silent; simp only [silent]

end

/-! ## The obligation -/

/-- Settles O53: one rule per command. What a port's state keeps is said once for every entry into a state, and SYNCED follows the
runs of the servo. -/
theorem ptpPortsAndLinks : Obligations.PtpPortsAndLinks := by
  refine ⟨?off, ?announce, ?timeout, ?sync, ?delayReq, ?syncRx, ?followUp, ?loss, ?lost, ?up, ?long, ?unused, ?answers⟩
  case off =>
    intro s n m off
    refine ⟨if_pos (by rw [off]; rfl), if_pos (.inl (by rw [off]; rfl)), if_pos (.inl (by rw [off]; rfl)), if_pos (by rw [off]; rfl),
      fun down => if_pos (by rw [down]; rfl), fun up => ?_⟩
    rw [exec_ptpMessageRx s n m up]
    exact if_neg fun running => Bool.false_ne_true (off.symm.trans running.1)
  case announce =>
    intro s n on
    obtain ⟨t, next, kept⟩ := exec_ptpAnnounceInterval on
    exact ⟨t, next, kept.cfg.trans (congrArg PtpSt.cfg (s.ptp_setPtp_same n _)), kept.od⟩
  case timeout =>
    intro s n on listening
    exact exec_ptpAnnounceTimeout on listening
  case sync =>
    intro s n on master
    obtain ⟨x, a, b, next⟩ := exec_ptpSyncInterval on master
    refine ⟨_, a, b, next, ?_, ?_⟩
    · rw [State.ptpSend_tx, State.ptpSend_tx, State.ptpSend_portVid, State.ptpSend_stamp, List.append_assoc]
      rfl
    · rw [State.ptpSend_txFrames, State.ptpSend_txFrames, State.reg_setPtp, BitVec.add_assoc]
      rfl
  case delayReq =>
    intro s n on slave endToEnd
    obtain ⟨x, y, a, next, asked⟩ := exec_delayReqInterval on slave endToEnd
    exact ⟨_, a, next, rfl, (congrArg PtpSt.delayTx (State.ptp_setPtp_same _ _ _)).trans asked⟩
  case syncRx =>
    intro s n m on slave domain kind parent
    rw [exec_ptpMessageRx_of_slave on slave domain,
      State.ptpTake_sync (s := s.count (Reg.netPortRxFrames n) 1) slave kind parent]
    refine ⟨_, rfl, ?_, ?_⟩
    · rw [State.ptp_setPtp_same]
      rfl
    · rw [State.reg_setPtp, State.count_reg]
      rfl
  case followUp =>
    intro s n m rx on slave domain kind parent sync off
    obtain ⟨t, next, stepped, judged⟩ := exec_ptpMessageRx_followUp on slave domain kind parent sync
    refine ⟨t, next, stepped, fun noStep near locked => ?_, fun noStep far unlocked => ?_, fun noStep fewIn fewOut => ?_⟩
    · rw [judged noStep, PtpSt.outRun_of_near near, PtpSt.inRun_of_near near, if_neg (by decide), if_pos (by omega)]
    · rw [judged noStep, PtpSt.outRun_of_far far, if_pos (by omega)]
    · rw [judged noStep, if_neg (Nat.not_le.mpr (PtpSt.outRun_le.trans_lt (by omega))),
        if_neg (Nat.not_le.mpr (PtpSt.inRun_le.trans_lt (by omega)))]
  case loss =>
    intro s n up
    exact exec_linkLoss up
  case lost =>
    intro s n down
    exact if_pos down
  case up =>
    intro s n an enabled notShut noAn
    exact exec_linkUp an enabled notShut noAn
  case long =>
    intro s n f up intact long
    exact exec_ethernetFrameRx_of_long up intact long
  case unused =>
    intro s n f p up intact fits kind unused
    simp only [List.mem_cons, List.not_mem_nil, or_false, not_or] at unused
    obtain ⟨notEvent, notGeneral, notYarfel⟩ := unused
    rw [exec_ethernetFrameRx_of_udp up intact fits kind, if_neg (by omega), if_neg notYarfel]
  case answers =>
    intro s n f up intact fits
    refine ⟨fun from4 asked kind nonzero own => ?_, fun from6 asked kind nonzero own => ?_, fun src dst d kind own => ?_,
      fun from4 asked kind other => ?_⟩
    · obtain ⟨t, next, tx, frames, -⟩ := exec_ethernetFrameRx_of_answer (k := .arpReply asked from4) up intact fits (by
        rw [kind]; exact if_pos ((s.ownIp_countRx n _).trans (State.ownIp_v4 nonzero own)))
      exact ⟨t, next, tx, frames⟩
    · obtain ⟨t, next, tx, -⟩ := exec_ethernetFrameRx_of_answer (k := .advertise asked from6) up intact fits (by
        rw [kind]; exact if_pos ((s.ownIp_countRx n _).trans (State.ownIp_v6 nonzero own)))
      exact ⟨t, next, tx⟩
    · obtain ⟨t, next, tx, -, frames⟩ := exec_ethernetFrameRx_of_answer (k := .echoReply dst src d) up intact fits (by
        rw [kind]; exact if_pos ((s.ownIp_countRx n _).trans own))
      exact ⟨t, next, tx, frames⟩
    · refine exec_ethernetFrameRx_of_no_answer up intact fits (by rw [kind]; exact fun _ => EthKind.noConfusion) ?_
      rw [kind]
      refine if_neg fun own => other ?_
      have mine := (s.ownIp_countRx n _).symm.trans own
      simp only [State.ownIp, Bool.and_eq_true, decide_eq_true_eq] at mine
      exact mine.2

end Sys2Proof.Machine
end

section
/-!
PROOFS. What the service of DRAM and a frame that goes out may touch, said once: reads and writes of DRAM reach the
controllers, what they log and what a fault raises; a frame beside that the queues of frames, SRAM and the last frames.
-/
namespace Sys2Proof.Machine

/-! ## The service of DRAM -/

/-- t differs from s at most in what the service of DRAM may touch: the stored words, the controllers and their banks, the word a
read delivers, the logs, and what a raise may touch. -/
def State.ServeOnly (s t : State) : Prop :=
  ∃ w d o b m, State.RaiseOnly { s with wide := w, dram := d, dramOut := o, banks := b, mcs := m } t

section
variable {s t u : State}

theorem State.RaiseOnly.serveOnly (h : s.RaiseOnly t) : s.ServeOnly t :=
  ⟨s.wide, s.dram, s.dramOut, s.banks, s.mcs, h⟩

theorem State.ServeOnly.refl (s : State) : s.ServeOnly s := (State.RaiseOnly.refl s).serveOnly

theorem State.ServeOnly.trans (h : s.ServeOnly t) (k : t.ServeOnly u) : s.ServeOnly u := by
  obtain ⟨w, d, o, b, m, r, v, x, y, n, f, rfl⟩ := h
  obtain ⟨w', d', o', b', m', r', v', x', y', n', f', rfl⟩ := k
  exact ⟨w', d', o', b', m', r', v', x', y', n', f', rfl⟩

theorem State.ServeOnly.raise (h : s.ServeOnly t) (k : t.RaiseOnly u) : s.ServeOnly u := h.trans k.serveOnly

/-- What changes only in the words, the controllers and the logs. -/
theorem State.ServeOnly.served {w d o b m} (h : s.ServeOnly t) :
    s.ServeOnly { t with wide := w, dram := d, dramOut := o, banks := b, mcs := m } :=
  h.trans ⟨w, d, o, b, m, .refl _⟩

theorem State.ServeOnly.ite {c : Prop} {d : Decidable c} (h : s.ServeOnly t) (k : s.ServeOnly u) :
    s.ServeOnly (if c then t else u) := by
  split
  · exact h
  · exact k

theorem State.ServeOnly.iteSnd {α : Type} {c : Prop} {d : Decidable c} {x y : α × State} (h : s.ServeOnly x.2)
    (k : s.ServeOnly y.2) : s.ServeOnly (if c then x else y).2 := by
  split
  · exact h
  · exact k

theorem State.ServeOnly.setReg (h : s.ServeOnly t) {a : Nat} {v : W32} : s.ServeOnly (t.setReg a v) :=
  h.raise (t.setReg_raiseOnly a v)
theorem State.ServeOnly.countFault (h : s.ServeOnly t) {a n b m : Nat} : s.ServeOnly ((t.count a n).fault b m) :=
  h.setReg.raise (State.fault_raiseOnly _ b m)
theorem State.ServeOnly.setMc (h : s.ServeOnly t) {m : Nat} {x : McSt} : s.ServeOnly (t.setMc m x) := h.served
theorem State.ServeOnly.setBank (h : s.ServeOnly t) {k : Nat} {x : BankSt} : s.ServeOnly (t.setBank k x) := h.served

theorem State.ServeOnly.retryPush (h : s.ServeOnly t) {m : Nat} {c : RetryCmd} : s.ServeOnly (t.retryPush m c) :=
  .ite h.setMc h.setMc

theorem State.ServeOnly.activate (h : s.ServeOnly t) {m bank row : Nat} : s.ServeOnly (t.activate m bank row).2 :=
  have pushed := h.retryPush
  .iteSnd (.iteSnd pushed.setReg pushed.setReg) pushed

theorem State.ServeOnly.neighbourRefresh {m bank n : Nat} {l : List Nat} (h : s.ServeOnly t) :
    s.ServeOnly (State.neighbourRefresh m bank n l t) := by
  induction n generalizing l t with
  | zero => exact h
  | succ n ih =>
    cases l with
    | nil => exact h
    | cons r l => exact ih h.activate.retryPush.setReg

theorem State.ServeOnly.rowOpen (h : s.ServeOnly t) {m bank row : Nat} : s.ServeOnly (t.rowOpen m bank row).2 := by
  unfold State.rowOpen
  refine .setBank ?_
  split
  · exact .iteSnd h h.retryPush.activate
  · exact h.activate

theorem State.ServeOnly.rowClose (h : s.ServeOnly t) {m bank row : Nat} {last : Bool} {ns : List Nat} :
    s.ServeOnly (t.rowClose m bank row last ns) :=
  (State.ServeOnly.ite h.setBank (.ite h.retryPush.setBank h.setBank)).neighbourRefresh

theorem State.ServeOnly.mcCommand (h : s.ServeOnly t) {m bank col : Nat} {r : McReq} {shut : Bool} :
    s.ServeOnly (t.mcCommand m bank col r shut) := by
  unfold State.mcCommand
  dsimp only
  refine .ite h.retryPush.served ?_
  have read (o : W72 × Bool) : s.ServeOnly { t.retryPush m (.rd bank col r.a shut) with dramOut := o } := h.retryPush.served
  split
  · exact read _
  · exact .ite (read _).countFault.setMc (read _).countFault
  · exact (read _).served.countFault
  · exact (read _).served.countFault

theorem State.ServeOnly.mcServeOne (h : s.ServeOnly t) {m : Nat} {r : McReq} : s.ServeOnly (t.mcServeOne m r) :=
  h.rowOpen.mcCommand.rowClose

theorem State.ServeOnly.mcServe {m n : Nat} (h : s.ServeOnly t) : s.ServeOnly (State.mcServe m n t) := by
  induction n generalizing t with
  | zero => exact h
  | succ n ih =>
    refine .ite h ?_
    dsimp only
    split
    · exact h
    · exact ih h.setMc.mcServeOne

theorem State.ServeOnly.mcRequest (h : s.ServeOnly t) {m : Nat} {r : McReq} : s.ServeOnly (t.mcRequest m r) :=
  .ite h.setMc h.mcServeOne.mcServe

theorem State.ServeOnly.dramRead (h : s.ServeOnly t) (a : Nat) : s.ServeOnly (t.dramRead a).2 := by
  unfold State.dramRead
  dsimp only
  split
  · exact h.raise (t.fault_raiseOnly _ _)
  · split
    · exact h
    · split
      · exact h
      · exact h.mcRequest

theorem State.ServeOnly.dramWrite (h : s.ServeOnly t) (a : Nat) (v : W72) (poison : Bool) :
    s.ServeOnly (t.dramWrite a v poison) :=
  .ite (h.raise (t.fault_raiseOnly _ _)) (.ite h (State.ServeOnly.ite h h.setMc).mcRequest)

theorem State.ServeOnly.dramWriteMany {l : List W72} {a : Nat} (h : s.ServeOnly t) :
    s.ServeOnly (State.dramWriteMany l a t) := by
  induction l generalizing a t with
  | nil => exact h
  | cons v l ih => exact ih (h.dramWrite a v false)

theorem State.ServeOnly.dramReadMany {n a : Nat} (h : s.ServeOnly t) : s.ServeOnly (State.dramReadMany n a t).2 := by
  induction n generalizing a t with
  | zero => exact h
  | succ n ih => exact ih (h.dramRead a)

/-- The service of DRAM leaves the engines, the chains, what FUSE keeps by gauge, the last frames and the dictionary alone. -/
theorem State.ServeOnly.frame (h : s.ServeOnly t) : t.ces = s.ces ∧ t.chains = s.chains ∧ t.fuses = s.fuses ∧
    t.frames = s.frames ∧ t.od = s.od := by
  obtain ⟨w, d, o, b, m, r, v, x, y, n, f, rfl⟩ := h
  exact ⟨rfl, rfl, rfl, rfl, rfl⟩

theorem State.ServeOnly.ces (h : s.ServeOnly t) : t.ces = s.ces := h.frame.1
theorem State.ServeOnly.ce (h : s.ServeOnly t) (ch : Nat) : t.ce ch = s.ce ch := by rw [State.ce, h.ces]; rfl

end

/-! ## A frame that goes out -/

/-- t has the engines, the chains, the last frames and the dictionary's values of s. -/
structure State.ChannelsKept (s t : State) : Prop where
  ces : t.ces = s.ces
  chains : t.chains = s.chains
  frames : t.frames = s.frames
  od : t.od = s.od

section
variable {s t u : State}

theorem State.ChannelsKept.refl (s : State) : s.ChannelsKept s := ⟨rfl, rfl, rfl, rfl⟩

theorem State.ChannelsKept.trans (h : s.ChannelsKept t) (k : t.ChannelsKept u) : s.ChannelsKept u :=
  ⟨k.ces.trans h.ces, k.chains.trans h.chains, k.frames.trans h.frames, k.od.trans h.od⟩

theorem State.ServeOnly.channelsKept (h : s.ServeOnly t) : s.ChannelsKept t := by
  obtain ⟨ces, chains, -, frames, od⟩ := h.frame
  exact ⟨ces, chains, frames, od⟩

theorem State.ChannelsKept.ce (h : s.ChannelsKept t) (ch : Nat) : t.ce ch = s.ce ch := by rw [State.ce, h.ces]; rfl
theorem State.ChannelsKept.chain (h : s.ChannelsKept t) (ch : Nat) : t.chain ch = s.chain ch := by rw [State.chain, h.chains]; rfl
theorem State.ChannelsKept.odv (h : s.ChannelsKept t) (idx sub : Nat) : t.odv idx sub = s.odv idx sub := by
  rw [State.odv, h.od]; rfl

/-- The zones a frame is reduced for keep it; nothing else changes (R255). -/
theorem State.zoneFrame_channelsKept (s : State) (src ch : Nat) (view : W72 → FrameView) :
    s.ChannelsKept (s.zoneFrame src ch view) := by
  unfold State.zoneFrame
  split
  · exact .refl s
  · exact forEach_keeps s.ChannelsKept _ _ s (fun _ _ kept => ⟨kept.ces, kept.chains, kept.frames, kept.od⟩) (.refl s)

/-- What a queue of frames does with one more (R318, R319) changes no channel. -/
theorem State.queueFrame_channelsKept {p q : Prop} {_ : Decidable p} {_ : Decidable q} {v a n b m : Nat} {x y : QueueSt} (s : State) :
    s.ChannelsKept ((if p then if q then s.setQueue v x else ((s.setQueue v y).count a n).fault b m else s).event v) := by
  have raised (t : State) (k : s.ChannelsKept t) : s.ChannelsKept (t.event v) :=
    k.trans (t.event_raiseOnly v).serveOnly.channelsKept
  have queued (z : QueueSt) : s.ChannelsKept (s.setQueue v z) := ⟨rfl, rfl, rfl, rfl⟩
  refine raised _ ?_
  split
  · split
    · exact queued x
    · exact (queued y).trans (State.ServeOnly.refl _).countFault.channelsKept
  · exact .refl s

/-- A frame that goes out becomes the last of its kind; engines, chains and dictionary stay (R160, R192, R318). -/
theorem State.frameOut_channelsKept (s : State) (ch kind : Nat) (ws : List W72) :
    State.ChannelsKept { s with frames := s.frames.set [] (4 * ch + kind) ws } (s.frameOut ch kind ws) := by
  have drawn (t : State) : t.ChannelsKept t.drawn := ⟨rfl, rfl, rfl, rfl⟩
  have words (t : State) (cl a : Nat) : t.ChannelsKept (t.sramWords cl a ws) := ⟨rfl, rfl, rfl, rfl⟩
  unfold State.frameOut
  dsimp only
  split
  · exact ((drawn _).trans (words _ _ _)).trans (State.queueFrame_channelsKept _)
  · split
    · exact ((drawn _).trans (State.ServeOnly.refl _).dramWriteMany.channelsKept).trans (State.queueFrame_channelsKept _)
    · exact (drawn _).trans (State.queueFrame_channelsKept _)

/-- A chain that is changed, shown to the zones and whose frame goes out is the chain as changed. -/
theorem State.frameOut_zoneFrame_chain (s : State) (src ch kind : Nat) (view : W72 → FrameView) (ws : List W72) (k : Nat) :
    ((s.zoneFrame src ch view).frameOut ch kind ws).chain k = s.chain k :=
  (State.frameOut_channelsKept _ ch kind ws |>.chain k).trans (s.zoneFrame_channelsKept src ch view |>.chain k)

/-- The frame that goes out is the last of its kind. -/
theorem State.frameOut_last (s : State) (ch kind : Nat) (ws : List W72) :
    (s.frameOut ch kind ws).frames.get [] (4 * ch + kind) = ws := by
  rw [(s.frameOut_channelsKept ch kind ws).frames, Store.get_set_same]

end

end Sys2Proof.Machine
end

section
/-!
PROOFS. Gauge words (O15): the samples of a record's sub-probes, mixed, correlated, aligned and decimated, as the words its
record carries (R127, R131 to R133, R136).
-/
namespace Sys2Proof.Machine

/-! ## Lists and arrays -/

/-- An element of a list put together from parts of one length. -/
theorem getElem?_flatMap_of_length {α β : Type} {f : α → List β} {n : Nat} {l : List α} (len : ∀ x ∈ l, (f x).length = n) (i : Nat)
    {j : Nat} (hj : j < n) : (l.flatMap f)[n * i + j]? = l[i]?.bind fun x => (f x)[j]? := by
  induction l generalizing i with
  | nil => rfl
  | cons x l ih =>
    have first : (f x).length = n := len x List.mem_cons_self
    cases i with
    | zero => rw [List.flatMap_cons, List.getElem?_append_left (by omega), Nat.mul_zero, Nat.zero_add]; rfl
    | succ i =>
      rw [List.flatMap_cons, List.getElem?_append_right (by rw [first, Nat.mul_succ]; omega), first,
        show n * (i + 1) + j - n = n * i + j by rw [Nat.mul_succ]; omega]
      exact ih (fun y hy => len y (List.mem_cons_of_mem _ hy)) i

theorem length_flatMap_of_length {α β : Type} {f : α → List β} {n : Nat} {l : List α} (len : ∀ x ∈ l, (f x).length = n) :
    (l.flatMap f).length = l.length * n := by
  rw [List.length_flatMap, List.map_congr_left len, List.map_const', List.sum_replicate_nat]

/-- Two sums in one pass. -/
theorem foldl_add_pair {α : Type} (f g : α → Int) (l : List α) (a b : Int) :
    l.foldl (fun (v : Int × Int) m => (v.1 + f m, v.2 + g m)) (a, b) =
      (l.foldl (fun v m => v + f m) a, l.foldl (fun v m => v + g m) b) := by
  induction l generalizing a b with
  | nil => rfl
  | cons x l ih => exact ih _ _

/-- A flag held for the samples below n reads true from n on. -/
theorem getD_map_range (n i : Nat) (f : Nat → Bool) : ((Array.range n).map f).getD i true = (decide (n ≤ i) || f i) := by
  by_cases hi : i < n
  · simp [Array.getD, hi, Nat.not_le.mpr hi]
  · simp [Array.getD, hi, Nat.not_lt.mp hi]

/-! ## The words -/

/-- Sample m of the eight about sample c of a correlation, (0, 0) before its first (R133). -/
def sampleAbout (y : Cplx) (c : Int) (m : Nat) : Int × Int :=
  if c + (m : Int) - 3 < 0 then (0, 0) else y.getD (c + (m : Int) - 3).toNat (0, 0)

/-- A gauge's value before saturation, part by part (R133). -/
theorem gaugeOut_eq (y : Cplx) (cd : List Int) (c : Int) : gaugeOut y cd c =
    (rne ((List.range 8).foldl (fun v m => v + cd.getD m 0 * (sampleAbout y c m).1) 0) 15,
      rne ((List.range 8).foldl (fun v m => v + cd.getD m 0 * (sampleAbout y c m).2) 0) 15) := by
  simp only [gaugeOut, nth, foldl_add_pair]
  rfl

/-- A CQ36 word is its two parts, I above Q. -/
theorem cq36_eq_append (z : Int × Int) : cq36 z = BitVec.ofInt 36 z.1 ++ BitVec.ofInt 36 z.2 := by
  have part (x : Int) : (x % 2 ^ 36).toNat < 2 ^ 36 := by omega
  have i := part z.1
  have q := part z.2
  have size : ((2 ^ 36 : Nat) : Int) = 2 ^ 36 := rfl
  refine BitVec.eq_of_toNat_eq ?_
  rw [BitVec.toNat_append, BitVec.toNat_ofInt, BitVec.toNat_ofInt, cq36, BitVec.toNat_ofNat, size,
    ← Nat.shiftLeft_add_eq_or_of_lt q, Nat.shiftLeft_eq, Nat.mod_eq_of_lt (by omega)]

/-- The mixed input of sub-probe k of a record in one polarisation (R127). -/
def RecSt.mixedInput (r : RecSt) (q : Int) (outs : List (Array Int)) (vs : List (Array Bool)) (k p : Nat) : Cplx :=
  mixed (wrap (4 * fieldS (r.probe.slots.getD k 0) 31 0 + r.ffc) 32) q (nth outs (2 * p) #[]) (nth outs (2 * p + 1) #[])
    ((Array.range (nth outs (2 * p) #[]).size).map fun n => (nth vs (2 * p) #[]).getD n true || (nth vs (2 * p + 1) #[]).getD n true)
    (24 + k * r.period / trainLen r.train) r.trace

/-- The gauges of a sub-probe (R124). -/
def RecSt.subGauges (r : RecSt) : Nat := (r.gaugeCount + trainLen r.train - 1) / trainLen r.train

/-- What the correlation of sub-probe k in one polarisation gives (R132 to R134). -/
def RecSt.gaugesAt (r : RecSt) (q : Int) (outs : List (Array Int)) (vs : List (Array Bool)) (k p : Nat) : GaugeOut :=
  gaugesOf (r.mixedInput q outs vs k p) r.spectrum.toArray (sizeLog r.specSize) (lrOf r.probe.len) r.er r.outShift (trainLen r.train)
    r.subGauges q

section
variable (r : RecSt) (q : Int) (outs : List (Array Int)) (vs : List (Array Bool))

/-- The words of sub-probe k, the two polarisations of a gauge in turn (R136). -/
def RecSt.subWords (k : Nat) : List W72 :=
  ((r.gaugesAt q outs vs k 0).z.zip (r.gaugesAt q outs vs k 1).z).flatMap fun v => [v.1, v.2]

theorem gaugeWords_gauges : (gaugeWords r q outs vs).1.gauges =
    some ((List.range (trainLen r.train)).flatMap (r.subWords q outs vs)) := by
  simp only [gaugeWords, List.flatMap_map]
  rfl

theorem RecSt.gaugesAt_z_length (k p : Nat) : (r.gaugesAt q outs vs k p).z.length = r.subGauges := by
  simp [RecSt.gaugesAt, gaugesOf, satBlock]

theorem RecSt.subWords_length (k : Nat) : (r.subWords q outs vs k).length = 2 * r.subGauges := by
  rw [RecSt.subWords, length_flatMap_of_length (n := 2) fun _ _ => rfl, List.length_zip, r.gaugesAt_z_length, r.gaugesAt_z_length,
    Nat.min_self, Nat.mul_comm]

/-- The gauge values of a sub-probe: eight taps about each gauge's sample, saturated (R133). -/
theorem RecSt.gaugesAt_z (k p : Nat) {g : Nat} (hg : g < r.subGauges) :
    let hop := 2 * ((2 ^ sizeLog r.specSize - lrOf r.probe.len + 1) / 2)
    let last : Int := 2 * trainLen r.train * ((r.subGauges : Int) - 1) + q / 256 + 4
    let y := (corrBlocks (r.mixedInput q outs vs k p) r.spectrum.toArray (sizeLog r.specSize) hop r.er r.outShift
      (if last < 0 ∨ hop = 0 then 0 else last.toNat / hop + 1)).y
    let z := gaugeOut y (taps 256 (q % 256).toNat) (2 * trainLen r.train * (g : Int) + q / 256)
    (r.gaugesAt q outs vs k p).z[g]? = some (cq36 (sat z.1 36, sat z.2 36)) := by
  simp [RecSt.gaugesAt, gaugesOf, satBlock, hg]

/-- Where the word of gauge g of sub-probe k lies in a record (R136). -/
theorem gaugeWord_at {k g p : Nat} (hk : k < trainLen r.train) (hg : g < r.subGauges) (hp : p < 2) :
    ((List.range (trainLen r.train)).flatMap (r.subWords q outs vs)).getD (2 * (k * r.subGauges + g) + p) 0 =
      (r.gaugesAt q outs vs k p).z.getD g 0 := by
  have inSub : 2 * g + p < 2 * r.subGauges := by omega
  have pair (i : Nat) : g < (r.gaugesAt q outs vs k i).z.length := by rw [r.gaugesAt_z_length]; exact hg
  rw [List.getD_eq_getElem?_getD, List.getD_eq_getElem?_getD,
    show 2 * (k * r.subGauges + g) + p = 2 * r.subGauges * k + (2 * g + p) by ring,
    getElem?_flatMap_of_length (fun k _ => r.subWords_length q outs vs k) k inSub, List.getElem?_range hk, Option.bind_some,
    RecSt.subWords, getElem?_flatMap_of_length (n := 2) (fun _ _ => rfl) g hp, List.getElem?_zip_eq_some (z := (_, _)) |>.mpr
      ⟨List.getElem?_eq_getElem (pair 0), List.getElem?_eq_getElem (pair 1)⟩, Option.bind_some]
  obtain rfl | rfl : p = 0 ∨ p = 1 := by omega
  · rw [List.getElem?_eq_getElem (pair 0)]; rfl
  · rw [List.getElem?_eq_getElem (pair 1)]; rfl

end

end Sys2Proof.Machine
end

section
/-!
PROOFS. Compression engines (O15): late offsets, the trace of a launched record, ring words freed and totals flushed.
-/
namespace Sys2Proof.Machine

/-! ## Launch offsets (R126) -/

/-- A further test that the first match passes changes nothing. -/
theorem find?_and_of_find? {α : Type} {p q : α → Bool} {l : List α} {x : α} (found : l.find? p = some x) (hq : q x = true) :
    l.find? (fun y => p y && q y) = some x := by
  rw [List.find?_eq_some_iff_append] at found ⊢
  obtain ⟨hp, before, after, rfl, none⟩ := found
  refine ⟨by rw [hp, hq]; rfl, before, after, rfl, fun y hy => ?_⟩
  have := none y hy
  simp_all

theorem State.tdcLate_of_waits {s : State} {ch : Nat} {r : RecSt} (waits : (s.ce ch).recs.find? RecSt.waitsQ = some r) :
    s.tdcLate ch = if r.samples < 8192 then s else s.tdcLateFor ch r.index := by
  simp only [State.tdcLate, waits, ← Nat.not_lt, ite_not]

/-! ## The trace of a launched record (R123, R126) -/

section
variable {s : State} {ch : Nat}

theorem State.tailCounts_of_none {raw : ChCodes} (ended : (s.lane ch).tail = none) : s.tailCounts ch raw = s := by
  rw [State.tailCounts, ended]

theorem exec_traceWindowEnd_of_none {ch : Chan} (raw : ChCodes) (ended : (s.lane ch).tail = none) (none : (s.ce ch).traceDue = none) :
    exec (.traceWindowEnd ch raw) s = .next s := by
  change execTraceWindowEnd ch raw s = _
  simp only [execTraceWindowEnd, none, State.tailCounts_of_none ended, ite_self]

theorem exec_traceWindowEnd_of_due {ch : Chan} {i : BitVec 48} (raw : ChCodes) (ended : (s.lane ch).tail = none)
    (due : (s.ce ch).traceDue = some i) : exec (.traceWindowEnd ch raw) s =
      .next (((s.iqTap ch i (s.spanOuts ch i raw)).traceRaman ch i (s.spanOuts ch i raw).out (s.spanOuts ch i raw).v).traceRecord
        ch i (s.spanOuts ch i raw).out (s.spanOuts ch i raw).v) := by
  change execTraceWindowEnd ch raw s = _
  simp only [execTraceWindowEnd, due, State.tailCounts_of_none ended, ite_self, ended, Option.isSome_none, Bool.false_eq_true,
    false_and, if_false]

theorem State.iqTap_ces (i : BitVec 48) (x : SpanOut) : (s.iqTap ch i x).ces = s.ces := by
  unfold State.iqTap
  split
  · split <;> rfl
  · rfl

theorem State.iqTap_ce (i : BitVec 48) (x : SpanOut) (k : Nat) : (s.iqTap ch i x).ce k = s.ce k := by
  rw [State.ce, State.iqTap_ces]; rfl

theorem State.traceRaman_of_nil {i : BitVec 48} {outs : List (Array Int)} {vs : List (Array Bool)} (none : (s.ce ch).ramans = []) :
    s.traceRaman ch i outs vs = s := by
  rw [State.traceRaman, none]

variable {r : RecSt} {rest : List RecSt} {q : Int} (outs : List (Array Int)) (vs : List (Array Bool))

theorem CeSt.traceDue_of_first {x : CeSt} (recs : x.recs = r :: rest) (lacks : r.lacksTrace = true) (none : x.ramans = []) :
    x.traceDue = some r.index := by
  rw [CeSt.traceDue, recs, none, List.find?_cons_of_pos lacks]
  rfl

/-- The oldest record takes its gauge words; no other engine changes. -/
theorem State.traceGauges_ce (recs : (s.ce ch).recs = r :: rest) (lacks : r.lacksGauges = true) :
    ((s.traceGauges ch r.index outs vs).ce ch).recs = { (gaugeWords r (r.q.getD 0) outs vs).1 with span := none } :: rest ∧
      ∀ k, k ≠ ch → (s.traceGauges ch r.index outs vs).ce k = s.ce k := by
  have first : (r.lacksGauges && decide (r.index = r.index)) = true := by rw [lacks]; simp
  have found : (s.ce ch).recs.find? (fun x => x.lacksGauges && decide (x.index = r.index)) = some r := by
    rw [recs]; exact List.find?_cons_of_pos first
  have faulted (t : State) (a m k : Nat) : (t.fault a m).ce k = t.ce k := (t.fault_raiseOnly a m).serveOnly.ce k
  simp only [State.traceGauges, found, faulted, State.count, State.ce_setReg, State.ce_setCe_same]
  refine ⟨?_, fun k ne => s.ce_setCe_ne _ ne⟩
  rw [recs, updFirst, if_pos first]

/-- The oldest record takes its trace, its offset known (R126). -/
theorem State.traceRecord_of_offset (recs : (s.ce ch).recs = r :: rest) (lacks : r.lacksTrace = true) (known : r.q = some q) :
    s.traceRecord ch r.index outs vs = s.traceGauges ch r.index outs vs := by
  have found : (s.ce ch).recs.find? (fun x => x.lacksTrace && decide (x.index = r.index)) = some r := by
    rw [recs]; exact List.find?_cons_of_pos (by rw [lacks]; simp)
  simp only [State.traceRecord, found, known, Option.isSome_some, if_true]

/-- The window of a launched record ends, its offset known and nothing else waiting: the record takes its gauge words. -/
theorem exec_traceWindowEnd_of_first {ch : Chan} (raw : ChCodes) (ended : (s.lane ch).tail = none) (recs : (s.ce ch).recs = r :: rest)
    (ramans : (s.ce ch).ramans = []) (lacks : r.lacksTrace = true) (known : r.q = some q) :
    ∃ t, exec (.traceWindowEnd ch raw) s = .next t ∧
      (t.ce ch).recs = { (gaugeWords r q (s.spanOuts ch r.index raw).out (s.spanOuts ch r.index raw).v).1 with span := none } :: rest ∧
      ∀ k, k ≠ ch.val → t.ce k = s.ce k := by
  have tapped (k : Nat) := s.iqTap_ce (ch := ch) r.index (s.spanOuts ch r.index raw) k
  have recs' := recs
  have ramans' := ramans
  rw [← tapped] at recs' ramans'
  have lacksG : r.lacksGauges = true := by
    simp only [RecSt.lacksTrace, Bool.and_eq_true] at lacks
    rw [RecSt.lacksGauges, lacks.1.1, lacks.1.2]; rfl
  have gauges := State.traceGauges_ce (s.spanOuts ch r.index raw).out (s.spanOuts ch r.index raw).v recs' lacksG
  rw [exec_traceWindowEnd_of_due raw ended (CeSt.traceDue_of_first recs lacks ramans), State.traceRaman_of_nil ramans',
    State.traceRecord_of_offset _ _ recs' lacks known]
  rw [known] at gauges
  exact ⟨_, rfl, gauges.1, fun k ne => (gauges.2 k ne).trans (tapped k)⟩

end

/-! ## Totals (R140 to R142) -/

section
variable {s t : State}

theorem State.ServeOnly.flushBins {ch bank st a : Nat} {old : List (W72 × Bool)} {fresh : Bool} {n b : Nat} (h : s.ServeOnly t) :
    s.ServeOnly (State.flushBins ch bank st a old fresh n b t) := by
  induction n generalizing b t with
  | zero => exact h
  | succ n ih => exact ih (h.dramWrite _ _ _)

theorem State.ServeOnly.flushSeqEnd {ch : Nat} (h : s.ServeOnly t) : s.ServeOnly (t.flushSeqEnd ch) :=
  (h.dramRead _).dramWrite _ _ _

/-- A read of stored words, skipped where they are to be replaced. -/
theorem State.ServeOnly.dramReadIfNot {c : Prop} {d : Decidable c} {n a : Nat} (h : s.ServeOnly t) :
    s.ServeOnly (if c then ([], t) else State.dramReadMany n a t).2 :=
  .iteSnd h h.dramReadMany

/-- A flush ends with its totals written, and holds no batch any more: the totals are read where they are not replaced, then
written (R140 to R142). -/
theorem exec_flushDone_of_covered {ch : Chan} {b : BatchSt} {rep : Bool} (flush : (s.ce ch).flush = some (b, rep))
    (noneUnderWay : (s.ce ch).coveredBy b b.last.toNat = []) :
    ∃ u, s.ServeOnly u ∧ exec (.flushDone ch) s =
      .next ((u.setCe ch { u.ce ch with flush := none }).setRbit (Reg.ceStatus ch) 3 false) := by
  change ∃ u, s.ServeOnly u ∧ execFlushDone ch s = _
  simp only [execFlushDone, flush, noneUnderWay, ne_eq, not_true_eq_false, if_false]
  refine ⟨_, .flushSeqEnd (.flushBins (.flushBins (State.ServeOnly.trans ?_ (.ite (State.ServeOnly.refl _).dramWriteMany (.refl _))))), rfl⟩
  refine .dramWrite (.dramWrite (.dramWrite (.dramWrite (State.ServeOnly.trans ?_ (.ite (State.fault_raiseOnly _ _ _).serveOnly
    (.refl _))) _ _ _) _ _ _) _ _ _) _ _ _
  exact (State.ServeOnly.refl s).dramReadIfNot.dramReadIfNot.dramReadIfNot.dramRead _

theorem exec_flushDone_frame {ch : Chan} {b : BatchSt} {rep : Bool} (flush : (s.ce ch).flush = some (b, rep))
    (noneUnderWay : (s.ce ch).coveredBy b b.last.toNat = []) :
    ∃ t, exec (.flushDone ch) s = .next t ∧ (t.ce ch).flush = none ∧ t.rbit (Reg.ceStatus ch) 3 = false ∧
      ∀ k, k ≠ ch.val → t.ce k = s.ce k := by
  obtain ⟨u, served, next⟩ := exec_flushDone_of_covered flush noneUnderWay
  refine ⟨_, next, ?_, State.rbit_setRbit_same _ _ _ _ (by decide), fun k ne => ?_⟩
  · rw [State.setRbit, State.ce_setReg, State.ce_setCe_same]
  · rw [State.setRbit, State.ce_setReg, State.ce_setCe_ne _ _ ne, served.ce]

end

/-! ## The ring (R135) -/

theorem exec_outRpWrite {s : State} (q : Req) (ch : Chan) (v : W32) (notShut : s.shut = false) : exec (.outRpWrite q ch v) s =
    .next (if s.fld (Reg.ceOutLen ch) 16 0 < (s.reg (Reg.ceOutWp ch) - v).toNat then s.err (ceBase ch) .range 0x30 q
      else s.setReg (Reg.ceOutRp ch) v) := by
  change Host.Outcome.next (if s.shut then s else s.outRpWrite ch v q) = _
  simp only [notShut, Bool.false_eq_true, if_false, State.outRpWrite, ceCheck]
  by_cases beyond : s.fld (Reg.ceOutLen ch) 16 0 < (s.reg (Reg.ceOutWp ch) - v).toNat
  · simp only [if_pos beyond]
  · simp only [if_neg beyond]

/-! ## The obligation -/

/-- Settles O15: one rule per command; the words of a trace's record are found by place, through the lists they are put together
from. -/
theorem compressionRecordsAndTotals : Obligations.CompressionRecordsAndTotals := by
  refine ⟨?notLate, ?late, fun _ _ => rfl, ?noTrace, ?trace, ?complete, ?incomplete, ?freed, ?refused, ?clear, ?flush⟩
  case notLate =>
    intro s ch none
    change Host.Outcome.next (s.tdcLate ch) = _
    rw [State.tdcLate, none]
  case late =>
    intro s ch r waits
    change Host.Outcome.next (s.tdcLate ch) = _
    rw [State.tdcLate_of_waits waits]
    have found := find?_and_of_find? (q := fun x => decide (x.index = r.index)) waits (decide_eq_true rfl)
    simp only [State.tdcLateFor, found]
    rfl
  case noTrace =>
    intro s ch raw recs ramans ended
    refine exec_traceWindowEnd_of_none raw ended ?_
    rw [CeSt.traceDue, recs, ramans]
    rfl
  case trace =>
    intro s ch raw r rest q recs ramans launched known lacks noSpan ended x n w bad li lq gc lr hop ni last blocks
    obtain ⟨t, next, took, others⟩ := exec_traceWindowEnd_of_first (s := s) (ch := ch) raw ended recs ramans
      (by rw [RecSt.lacksTrace, launched, lacks, noSpan]; rfl) known
    refine ⟨t, _, next, took, rfl, rfl, rfl, rfl, others, _, gaugeWords_gauges r q x.out x.v, ?_, ?_⟩
    · rw [length_flatMap_of_length fun k _ => r.subWords_length q x.out x.v k, List.length_range]
      show n * (2 * gc) = 2 * n * gc
      ring
    · intro k g p hk hg hp a y c tap cd z
      have input : r.mixedInput q x.out x.v k p = a := by
        refine congrArg (Array.map · _) (funext fun m => ?_)
        simp only [nth, getD_map_range, ← Bool.or_assoc]
        rfl
      have word : (r.gaugesAt q x.out x.v k p).z[g]? = some (cq36 (sat (gaugeOut y cd c).1 36, sat (gaugeOut y cd c).2 36)) := by
        have word := r.gaugesAt_z q x.out x.v k p hg
        rw [input] at word
        exact word
      refine (gaugeWord_at r q x.out x.v hk hg hp).trans ?_
      rw [List.getD_eq_getElem?_getD, word, gaugeOut_eq, Option.getD_some, cq36_eq_append]
      rfl
  case complete =>
    intro s ch r rest recs ready
    change execRecordComplete ch s = _
    simp only [execRecordComplete, recs, ready, if_true]
  case incomplete =>
    intro s ch r rest recs open'
    change execRecordComplete ch s = _
    simp only [execRecordComplete, recs, open', Bool.false_eq_true, if_false]
  case freed =>
    intro s q ch v notShut fits
    rw [exec_outRpWrite q ch v notShut, if_neg (Nat.not_lt.mpr fits)]
  case refused =>
    intro s q ch v notShut beyond
    rw [exec_outRpWrite q ch v notShut, if_pos beyond]
  case clear =>
    intro s q ch notShut
    change Host.Outcome.next (if s.shut then s else s.totClear ch) = _
    rw [notShut]
    rfl
  case flush =>
    intro s ch b rep flush noneUnderWay
    exact exec_flushDone_frame flush noneUnderWay

end Sys2Proof.Machine
end

section
/-!
PROOFS. Temperature (O37), the windows of DTS: what a flush of a channel does to its window, and that a formed frame leaves the
window's mark in the chain and its first index in the frame (R141, R170, R171, R177, R190).
-/
namespace Sys2Proof.Machine

/-! ## The totals a flush reads -/

section
variable {s t : State}

theorem State.ServeOnly.totalsHead (h : s.ServeOnly t) (ch : Nat) : s.ServeOnly (t.totalsHead ch).2 := by
  unfold State.totalsHead
  exact h.dramReadMany

/-- The words of the odd channel's totals, where the owner has a pair, and the state after the reads of a flush. -/
def State.pairHead (s : State) (ow : Nat) : List W72 × State :=
  if s.double ow then (s.totalsHead ow).2.totalsHead (ow + 1) else ([], (s.totalsHead ow).2)

theorem State.pairHead_of_single {ow : Nat} (single : s.double ow = false) : s.pairHead ow = ([], (s.totalsHead ow).2) := by
  rw [State.pairHead, single]; rfl

theorem State.pairHead_of_double {ow : Nat} (double : s.double ow = true) :
    s.pairHead ow = (s.totalsHead ow).2.totalsHead (ow + 1) := by
  rw [State.pairHead, double]; rfl

theorem State.pairHead_kept (s : State) (ow : Nat) : s.ChannelsKept (s.pairHead ow).2 := by
  have read := (State.ServeOnly.refl s).totalsHead ow
  unfold State.pairHead
  refine State.ServeOnly.channelsKept ?_
  exact .iteSnd (read.totalsHead (ow + 1)) read

end

/-- The first and the last index of totals, by their words (R143). -/
def firstOf (w : List W72) : Nat := field (w.getD 0 0) 47 0
def lastOf (w : List W72) : Nat := field (w.getD 1 0) 47 0

theorem firstOf_lt (w : List W72) : firstOf w < 2 ^ 48 := Nat.mod_lt _ (by decide)

/-! ## What a flush does -/

section
variable {s : State} {ow ch : Nat}

/-- Totals whose FLUSH_SEQ is odd form nothing (R141). -/
theorem State.dtsAct_of_odd (odd : ((s.totalsHead ow).1.getD 3 0).getLsbD 0 = true) : s.dtsAct ow ch = (s.pairHead ow).2 := by
  unfold State.dtsAct
  dsimp only
  rw [← State.pairHead]
  exact if_pos (.inl odd)

/-- The odd channel's flush does nothing unless the owner waits for it (R177). -/
theorem State.dtsAct_of_other (other : ch ≠ ow) (idle : (s.chain ow).dts.waiting = none) : s.dtsAct ow ch = (s.pairHead ow).2 := by
  rw [← (s.pairHead_kept ow).chain] at idle
  unfold State.dtsAct
  dsimp only
  rw [← State.pairHead, idle]
  exact if_pos (.inr ⟨other, rfl⟩)

/-- The window of a flush is open at its first index: v differs from u in nothing else of the engines, frames and dictionary. -/
structure State.WindowOpen (ow first : Nat) (u v : State) : Prop where
  ces : v.ces = u.ces
  frames : v.frames = u.frames
  od : v.od = u.od
  formed : (v.chain ow).dts.formed = none
  expect : (v.chain ow).dts.expect = some first

theorem State.windowOpen_setChain {u : State} {x : ChainSt} {first : Nat} (kept : s.ChannelsKept u) (formed : x.dts.formed = none)
    (expect : x.dts.expect = some first) : State.WindowOpen ow first s (u.setChain ow x) :=
  ⟨kept.ces, kept.frames, kept.od, by rw [State.chain_setChain_same, formed], by rw [State.chain_setChain_same, expect]⟩

variable (even : ((s.totalsHead ow).1.getD 3 0).getLsbD 0 = false)
include even

theorem State.not_idle_of_even (c : Prop) :
    ¬(((nth (s.totalsHead ow).1 3 0).getLsbD 0 = true) ∨ ow ≠ ow ∧ c) := by
  rw [nth, even]
  simp

/-- A flush whose totals start at another index than the window formed opens or keeps the window of its own (R170, R171). -/
theorem State.dtsAct_of_new (new : ∀ f l, (s.chain ow).dts.formed = some (f, l) → f ≠ firstOf (s.totalsHead ow).1) :
    ∃ v, State.WindowOpen ow (firstOf (s.totalsHead ow).1) s v ∧
      s.dtsAct ow ow = v.dtsGrow ow ow (s.double ow) (s.totalsHead ow).1 (s.pairHead ow).1 (firstOf (s.totalsHead ow).1)
        (lastOf (s.totalsHead ow).1) id := by
  have kept := s.pairHead_kept ow
  unfold State.dtsAct
  dsimp only
  rw [← State.pairHead, if_neg (State.not_idle_of_even even _)]
  cases before : ((s.pairHead ow).2.chain ow).dts.formed with
  | some window =>
    have other : firstOf (s.totalsHead ow).1 ≠ window.1 := fun same =>
      new window.1 window.2 (by rw [← kept.chain, before]) same.symm
    exact ⟨_, State.windowOpen_setChain kept rfl rfl, if_neg other⟩
  | none =>
    by_cases here : ((s.pairHead ow).2.chain ow).dts.expect = some (firstOf (s.totalsHead ow).1)
    · exact ⟨_, ⟨kept.ces, kept.frames, kept.od, before, here⟩, if_pos here⟩
    · exact ⟨_, State.windowOpen_setChain kept rfl rfl, if_neg here⟩

/-- A flush of the window formed: the batches beyond it are lost, and the totals to be cleared (R171). -/
theorem State.dtsAct_of_formed {l : Nat} (formed : (s.chain ow).dts.formed = some (firstOf (s.totalsHead ow).1, l)) :
    ∃ u, s.ChannelsKept u ∧ s.dtsAct ow ow = if lastOf (s.totalsHead ow).1 ≤ l then u
      else ((u.setOdv (odDts ow) 0xC ((u.odv (odDts ow) 0xC + (lastOf (s.totalsHead ow).1 - l + 255) / 256) % 2 ^ 32)).setChain ow
        { u.chain ow with dts := { (u.chain ow).dts with formed := some (firstOf (s.totalsHead ow).1, lastOf (s.totalsHead ow).1) } }).dtsClear
          ow (s.double ow) := by
  have kept := s.pairHead_kept ow
  refine ⟨_, kept, ?_⟩
  have formed' := formed
  rw [← kept.chain] at formed'
  unfold State.dtsAct
  dsimp only
  rw [← State.pairHead, if_neg (State.not_idle_of_even even _), formed']
  exact if_pos rfl

end

/-! ## What grows, and what is formed -/

section
variable {v : State} {ow first last : Nat} {w odd : List W72}

/-- A window short of its batches waits (R170). -/
theorem State.dtsGrow_of_short {pair : Bool} (short : last + 1 - first < 256 * v.odv (odDts ow) 2) :
    v.dtsGrow ow ow pair w odd first last id = v :=
  if_pos short

/-- A window with its batches is formed, a pair's where the odd channel's totals reach as far and are not being written
(R170, R177, R179). -/
theorem State.dtsGrow_of_full {pair : Bool} (full : 256 * v.odv (odDts ow) 2 ≤ last + 1 - first)
    (meets : pair = true → (odd.getD 3 0).getLsbD 0 = false ∧ last ≤ lastOf odd) :
    v.dtsGrow ow ow pair w odd first last id = (v.dtsForm ow pair w odd).dtsClear ow pair := by
  refine (if_neg (Nat.not_lt.mpr full)).trans (if_neg ?_)
  rintro ⟨isPair, writes | behind, -⟩
  · exact Bool.false_ne_true ((meets isPair).1.symm.trans writes)
  · exact Nat.not_lt.mpr (meets isPair).2 behind

/-- Word 1 of a temperature frame holds its first index (R190). -/
theorem tempHeader_index {ch kind flags train index nt b2 c2 d2 anchors : Nat} {stamp : W72} {restart : Bool} {tc : Option Int}
    {delta : Int} (ws : List W72) :
    field ((tempHeader ch kind stamp flags train restart index nt b2 c2 d2 tc delta anchors ++ ws).getD 1 0) 47 0 =
      index % 2 ^ 48 := by
  show (BitVec.ofNat 72 _).toNat / 2 ^ 0 % 2 ^ 48 = _
  rw [BitVec.toNat_ofNat]
  omega

/-- A window is formed in one change of the owner's chain, shown to the zones and sent (R173 to R180, R190). -/
theorem State.dtsForm_eq (s : State) (ow : Nat) (pair : Bool) (w odd : List W72) :
    ∃ (u : State) (x : ChainSt) (view : W72 → FrameView) (ws : List W72),
    x.dts.formed = some (firstOf w, lastOf w) ∧ x.dts.restart = false ∧ field (ws.getD 1 0) 47 0 = firstOf w ∧
      s.dtsForm ow pair w odd = ((u.setChain ow x).zoneFrame 2 ow view).frameOut ow 2 ws :=
  ⟨_, _, _, _, rfl, rfl, (tempHeader_index _).trans (Nat.mod_eq_of_lt (firstOf_lt w)), rfl⟩

/-- A formed window's mark in the chain, and its frame. -/
theorem State.dtsForm_marks (s : State) (ow : Nat) (pair : Bool) (w odd : List W72) :
    let t := s.dtsForm ow pair w odd
    (t.chain ow).dts.formed = some (firstOf w, lastOf w) ∧ (t.chain ow).dts.restart = false ∧
      field ((t.frames.get [] (4 * ow + 2)).getD 1 0) 47 0 = firstOf w := by
  obtain ⟨u, x, view, ws, formed, restart, index, e⟩ := s.dtsForm_eq ow pair w odd
  dsimp only
  rw [e, State.frameOut_zoneFrame_chain, State.frameOut_last, State.chain_setChain_same]
  exact ⟨formed, restart, index⟩

end

/-! ## Totals cleared -/

section
variable (s : State) (ow : Nat) (pair : Bool)

theorem State.totClear_replace (ch : Nat) : ((s.totClear ch).ce ch).replace = true :=
  congrArg CeSt.replace (s.ce_setCe_same ch _)

theorem State.dtsClear_replace : ((s.dtsClear ow pair).ce ow).replace = true := by
  cases pair with
  | true =>
    refine (congrArg CeSt.replace (State.ce_setCe_ne (s.totClear ow) _ ?_)).trans (s.totClear_replace ow)
    omega
  | false => exact s.totClear_replace ow

theorem State.dtsClear_replace_odd : ((s.dtsClear ow true).ce (ow + 1)).replace = true := State.totClear_replace _ _

theorem State.dtsClear_frame : (s.dtsClear ow pair).chains = s.chains ∧ (s.dtsClear ow pair).frames = s.frames ∧
    (s.dtsClear ow pair).od = s.od := by
  cases pair <;> exact ⟨rfl, rfl, rfl⟩

theorem State.dtsClear_chain (ch : Nat) : (s.dtsClear ow pair).chain ch = s.chain ch := by
  rw [State.chain, (s.dtsClear_frame ow pair).1]; rfl

end

/-! ## A flush, by what its window becomes -/

section
variable {s : State} {ow : Nat} (even : ((s.totalsHead ow).1.getD 3 0).getLsbD 0 = false)
include even

/-- A window short of its batches is open, and nothing is formed (R170). -/
theorem State.dtsAct_of_short (new : ∀ f l, (s.chain ow).dts.formed = some (f, l) → f ≠ firstOf (s.totalsHead ow).1)
    (short : lastOf (s.totalsHead ow).1 + 1 - firstOf (s.totalsHead ow).1 < 256 * s.odv (odDts ow) 2) :
    State.WindowOpen ow (firstOf (s.totalsHead ow).1) s (s.dtsAct ow ow) := by
  obtain ⟨v, window, grows⟩ := State.dtsAct_of_new even new
  have odv : v.odv (odDts ow) 2 = s.odv (odDts ow) 2 := by rw [State.odv, window.od]; rfl
  rw [grows, State.dtsGrow_of_short (by rw [odv]; exact short)]
  exact window

/-- A window with its batches is formed, and its totals are cleared (R170, R177). -/
theorem State.dtsAct_of_full (new : ∀ f l, (s.chain ow).dts.formed = some (f, l) → f ≠ firstOf (s.totalsHead ow).1)
    (full : 256 * s.odv (odDts ow) 2 ≤ lastOf (s.totalsHead ow).1 + 1 - firstOf (s.totalsHead ow).1)
    (meets : s.double ow = true → ((s.pairHead ow).1.getD 3 0).getLsbD 0 = false ∧
      lastOf (s.totalsHead ow).1 ≤ lastOf (s.pairHead ow).1) :
    let t := s.dtsAct ow ow
    (t.ce ow).replace = true ∧ (s.double ow = true → (t.ce (ow + 1)).replace = true) ∧
      (t.chain ow).dts.formed = some (firstOf (s.totalsHead ow).1, lastOf (s.totalsHead ow).1) ∧ (t.chain ow).dts.restart = false ∧
      field ((t.frames.get [] (4 * ow + 2)).getD 1 0) 47 0 = firstOf (s.totalsHead ow).1 := by
  obtain ⟨v, window, grows⟩ := State.dtsAct_of_new even new
  have odv : v.odv (odDts ow) 2 = s.odv (odDts ow) 2 := by rw [State.odv, window.od]; rfl
  have marks := v.dtsForm_marks ow (s.double ow) (s.totalsHead ow).1 (s.pairHead ow).1
  dsimp only
  rw [grows, State.dtsGrow_of_full (by rw [odv]; exact full) meets, State.dtsClear_chain, (State.dtsClear_frame _ _ _).2.1]
  refine ⟨State.dtsClear_replace _ _ _, fun double => ?_, marks⟩
  rw [double]
  exact State.dtsClear_replace_odd _ _

/-- A flush of the window formed forms nothing; what it adds is lost (R171). -/
theorem State.dtsAct_of_formed_frame {l : Nat} (formed : (s.chain ow).dts.formed = some (firstOf (s.totalsHead ow).1, l)) :
    let t := s.dtsAct ow ow
    let last := lastOf (s.totalsHead ow).1
    t.frames = s.frames ∧ if last ≤ l then t.chain ow = s.chain ow
      else (t.chain ow).dts.formed = some (firstOf (s.totalsHead ow).1, last) ∧ (t.ce ow).replace = true ∧
        t.odv (odDts ow) 0xC = (s.odv (odDts ow) 0xC + (last - l + 255) / 256) % 2 ^ 32 := by
  obtain ⟨u, kept, e⟩ := State.dtsAct_of_formed even formed
  dsimp only
  rw [e]
  split
  · exact ⟨kept.frames, kept.chain ow⟩
  · refine ⟨(State.dtsClear_frame _ _ _).2.1.trans kept.frames, ?_, State.dtsClear_replace _ _ _, ?_⟩
    · rw [State.dtsClear_chain, State.chain_setChain_same]
    · rw [State.odv, (State.dtsClear_frame _ _ _).2.2, ← kept.odv]
      exact u.od.get_set_same _ _ _

end

end Sys2Proof.Machine
end

section
/-!
PROOFS. Temperature (O37), FUSE: the increments of a shot, the phases of a frame less its drift, and the obligation
(R183 to R187).
-/
namespace Sys2Proof.Machine

/-! ## A store with several keys set -/

theorem Store.get_setMany_of_not_mem {α : Type} [DecidableEq α] (d e : α) {l : List (Nat × α)} {k : Nat}
    (absent : k ∉ l.map Prod.fst) (m : Store α) : (Store.setMany d l m).get e k = m.get e k := by
  induction l generalizing m with
  | nil => rfl
  | cons c l ih =>
    rw [List.map_cons, List.mem_cons, not_or] at absent
    exact (ih absent.2 _).trans (m.get_set_ne d e c.2 absent.1)

theorem Store.get_setMany_of_mem {α : Type} [DecidableEq α] (d : α) {l : List (Nat × α)} {c : Nat × α}
    (once : (l.map Prod.fst).Nodup) (mem : c ∈ l) (m : Store α) : (Store.setMany d l m).get d c.1 = c.2 := by
  induction l generalizing m with
  | nil => cases mem
  | cons b l ih =>
    rw [List.map_cons, List.nodup_cons] at once
    obtain rfl | later := List.mem_cons.mp mem
    · exact (Store.get_setMany_of_not_mem d d once.1 _).trans (m.get_set_same d _ _)
    · exact ih once.2 later _

/-! ## The increment of a gauge (R157, R183) -/

/-- The increment is the step of the phase, modulo a turn. -/
theorem incOf_step {q : Nat} (good : q ≠ 0) (phi last vb : Int) : ((incOf q phi last vb).1 - (phi - last)) % 65536 = 0 := by
  simp only [incOf, if_neg good, wrap]
  split <;> omega

/-! ## A shot (R183, R187) -/

section
variable (s : State) (ch : Nat)

/-- What FUSE keeps of gauge g of a channel. -/
def State.fuseAt (g : Nat) : FuseO := s.fuses.get {} (65536 * ch + g)

/-- Gauge g after all gauges below n were changed. -/
theorem State.mapFuses_fuseAt {n g : Nat} (hg : g < n) (f : Nat → FuseO → FuseO) :
    (s.mapFuses ch n f).fuseAt ch g = f g (s.fuseAt ch g) := by
  have once : (((List.range n).map fun g => (65536 * ch + g, f g (s.fuseAt ch g))).map Prod.fst).Nodup := by
    rw [List.map_map]
    exact List.nodup_range.map fun a b same => Nat.add_left_cancel same
  exact Store.get_setMany_of_mem {} once (List.mem_map.mpr ⟨g, List.mem_range.mpr hg, rfl⟩) s.fuses

/-- A gauge as a frame opens: its sum starts anew, its last phase stands (R183). -/
def FuseO.opened (f : FuseO) : FuseO := { f with sum := 0, any0 := false, any1 := false, all0 := true }

/-- FUSE opens a frame of n gauges at index idx (R183). -/
def State.fuseOpen (n idx : Nat) (sh : ChainShot) : State :=
  let t := s.mapFuses ch n fun _ f => f.opened
  t.setChain ch { t.chain ch with fuse := { (t.chain ch).fuse with
    inFrame := true, flags := 0, stamp := sh.stamp, first := idx, train := sh.cfg.train } }

/-- FUSE adds the increments of a shot, and a frame is due once it has fdec of them (R183). -/
def State.fuseAdd (fdec : Nat) (i : FuseIn) : State :=
  let t := s.mapFuses ch (vibG i.shot.cfg) fun g f => fuseGauge (i.row.toArray.getD g (0, 0)).1 (i.row.toArray.getD g (0, 0)).2 f
  let f := { (t.chain ch).fuse with flags := (t.chain ch).fuse.flags ||| field i.w1 71 66 }
  t.setChain ch { t.chain ch with fuse := { f with
    due := if f.inFrame && decide (i.shot.index.toNat + 1 = f.first + fdec) then some i.shot else none } }

theorem State.fuseTake_eq (i : FuseIn) (c : FuseCfg) : s.fuseTake ch i c =
    (let t := if i.shot.fuseRestart then s.fuseRestart ch else s
      if i.shot.index.toNat % max c.fdec 1 = 0 then t.fuseOpen ch (vibG i.shot.cfg) i.shot.index.toNat i.shot else t).fuseAdd
      ch (max c.fdec 1) i := rfl

variable {s ch}

theorem State.fuseAdd_chain (fdec : Nat) (i : FuseIn) : ((s.fuseAdd ch fdec i).chain ch) = { s.chain ch with
    fuse := { (s.chain ch).fuse with
      flags := (s.chain ch).fuse.flags ||| field i.w1 71 66
      due := if (s.chain ch).fuse.inFrame && decide (i.shot.index.toNat + 1 = (s.chain ch).fuse.first + fdec) then some i.shot
        else none } } :=
  State.chain_setChain_same _ _ _

theorem State.fuseOpen_chain (n idx : Nat) (sh : ChainShot) : (s.fuseOpen ch n idx sh).chain ch = { s.chain ch with
    fuse := { (s.chain ch).fuse with inFrame := true, flags := 0, stamp := sh.stamp, first := idx, train := sh.cfg.train } } :=
  State.chain_setChain_same _ _ _

theorem State.fuseRestart_chain : (s.fuseRestart ch).chain ch = { s.chain ch with
    fuse := { tcPrev := (s.chain ch).fuse.tcPrev, windows := (s.chain ch).fuse.windows, kept := (s.chain ch).fuse.kept, restart := true } } :=
  State.chain_setChain_same _ _ _

/-- A shot adds to each gauge the increment of its row, and the row's phase is the last (R183). -/
theorem State.fuseAdd_fuseAt (fdec : Nat) {i : FuseIn} {g : Nat} (hg : g < vibG i.shot.cfg) :
    (s.fuseAdd ch fdec i).fuseAt ch g = fuseGauge (i.row.getD g (0, 0)).1 (i.row.getD g (0, 0)).2 (s.fuseAt ch g) := by
  have row : i.row.toArray.getD g (0, 0) = i.row.getD g (0, 0) := by simp [Array.getD_eq_getD_getElem?]
  rw [← row]
  exact s.mapFuses_fuseAt ch hg _

theorem State.fuseOpen_fuseAt {n g : Nat} (hg : g < n) (idx : Nat) (sh : ChainShot) : (s.fuseOpen ch n idx sh).fuseAt ch g =
    (s.fuseAt ch g).opened :=
  s.mapFuses_fuseAt ch hg fun _ f => f.opened

/-- A shot of the running frame, or the first of its own. -/
theorem State.fuseTake_of_going {i : FuseIn} (c : FuseCfg) (going : i.shot.fuseRestart = false) :
    let fdec := max c.fdec 1
    let opens := decide (i.shot.index.toNat % fdec = 0)
    let t := s.fuseTake ch i c
    (t.chain ch).fuseIn = (s.chain ch).fuseIn ∧
      (t.chain ch).fuse.due = (if (opens || (s.chain ch).fuse.inFrame) &&
        decide (i.shot.index.toNat + 1 = (if opens then i.shot.index.toNat else (s.chain ch).fuse.first) + fdec)
        then some i.shot else none) ∧
      ∀ g, g < vibG i.shot.cfg → ∃ x : Int, (t.fuseAt ch g).sum = (if opens then 0 else (s.fuseAt ch g).sum) + x ∧
        (t.fuseAt ch g).phiLast = (i.row.getD g (0, 0)).1 ∧ ((i.row.getD g (0, 0)).2 = 0 → x = 0) ∧
        ((i.row.getD g (0, 0)).2 ≠ 0 → (x - ((i.row.getD g (0, 0)).1 - (s.fuseAt ch g).phiLast)) % 65536 = 0) := by
  have added (t : State) (g : Nat) (hg : g < vibG i.shot.cfg) (same : (t.fuseAt ch g).phiLast = (s.fuseAt ch g).phiLast) :
      ∃ x : Int, ((t.fuseAdd ch (max c.fdec 1) i).fuseAt ch g).sum = (t.fuseAt ch g).sum + x ∧
        ((t.fuseAdd ch (max c.fdec 1) i).fuseAt ch g).phiLast = (i.row.getD g (0, 0)).1 ∧ ((i.row.getD g (0, 0)).2 = 0 → x = 0) ∧
        ((i.row.getD g (0, 0)).2 ≠ 0 → (x - ((i.row.getD g (0, 0)).1 - (s.fuseAt ch g).phiLast)) % 65536 = 0) := by
    rw [State.fuseAdd_fuseAt _ hg, ← same]
    exact ⟨(incOf (i.row.getD g (0, 0)).2 (i.row.getD g (0, 0)).1 (t.fuseAt ch g).phiLast (t.fuseAt ch g).vb).1, rfl, rfl,
      fun bad => by rw [bad]; rfl, fun good => incOf_step good _ _ _⟩
  rw [State.fuseTake_eq, going]
  dsimp only
  by_cases opens : i.shot.index.toNat % max c.fdec 1 = 0
  · simp only [opens, Bool.false_eq_true, if_true, if_false, decide_true, Bool.true_or]
    refine ⟨?_, ?_, fun g hg => ?_⟩
    · rw [State.fuseAdd_chain, State.fuseOpen_chain]
    · rw [State.fuseAdd_chain, State.fuseOpen_chain]
    · have opened := s.fuseOpen_fuseAt (ch := ch) hg i.shot.index.toNat i.shot
      have sums := added (s.fuseOpen ch (vibG i.shot.cfg) i.shot.index.toNat i.shot) g hg (by rw [opened]; rfl)
      rw [opened] at sums
      exact sums
  · simp only [opens, Bool.false_eq_true, if_false, decide_false, Bool.false_or]
    exact ⟨by rw [State.fuseAdd_chain], by rw [State.fuseAdd_chain], fun g hg => added s g hg rfl⟩

/-- A shot that restarts FUSE (R187). -/
theorem State.fuseTake_of_restart {i : FuseIn} (c : FuseCfg) (restarts : i.shot.fuseRestart = true) :
    let t := s.fuseTake ch i c
    (t.chain ch).fuseIn = (s.chain ch).fuseIn ∧ (t.chain ch).fuse.p = [] ∧ (t.chain ch).fuse.anchors = 0 ∧
      (t.chain ch).fuse.restart = true ∧
      (decide (i.shot.index.toNat % max c.fdec 1 = 0) = false → (t.chain ch).fuse.due = none) := by
  rw [State.fuseTake_eq, restarts]
  dsimp only
  rw [State.fuseAdd_chain]
  by_cases opens : i.shot.index.toNat % max c.fdec 1 = 0
  · rw [if_pos opens, State.fuseOpen_chain, if_pos rfl, State.fuseRestart_chain]
    exact ⟨rfl, rfl, rfl, rfl, fun not => absurd opens (of_decide_eq_false not)⟩
  · rw [if_neg opens, if_pos rfl, State.fuseRestart_chain]
    exact ⟨rfl, rfl, rfl, rfl, fun _ => rfl⟩

theorem exec_fuseShot_of_first {ch : Chan} {i : FuseIn} {rest : List FuseIn} {c : FuseCfg} (idle : (s.chain ch).fuse.due = none)
    (first : (s.chain ch).fuseIn = i :: rest) (on : i.shot.fuse = some c) : exec (.fuseShot ch) s =
      .next ((s.setChain ch { s.chain ch with fuseIn := rest }).fuseTake ch i c) := by
  change execFuseShot ch s = _
  simp only [execFuseShot, idle, first, on, Option.isSome_none, Bool.false_eq_true, if_false]

end

/-! ## A frame (R184 to R186) -/

section
variable (s : State) (ch : Nat) (sh : ChainShot)

/-- The gauges of a shot that lie in the coil and took part in full, by number (R184). -/
def State.coilGauges : List Nat :=
  (List.range (vibG sh.cfg)).filter fun i => !(s.fuseAt ch i).any0 &&
    decide (s.fld (Reg.headCoil (ch / 8)) 7 0 + sh.cfg.len / 2 ≤ i) &&
    decide (i + (sh.cfg.len - sh.cfg.len / 2) + 1 ≤ s.fld (Reg.headCoil (ch / 8)) 7 0 + s.fld (Reg.headCoil (ch / 8)) 26 16)

/-- The gauges of a shot with their sums. -/
def State.fuseGauges : List (Nat × FuseO) := (List.range (vibG sh.cfg)).map fun i => (i, s.fuseAt ch i)

/-- The gauges of a shot that lie in the coil (R184). -/
def State.inCoil : List (Nat × FuseO) := (s.fuseGauges ch sh).filter fun y =>
  decide (s.coilStart (ch / 8) ≤ (y.1 : Int) - vibH1 sh.cfg) &&
    decide ((y.1 : Int) + vibH2 sh.cfg ≤ s.coilStart (ch / 8) + s.coilLen (ch / 8) - 1)

theorem State.inCoil_full : (s.inCoil ch sh).filter (fun g => !g.2.any0) = (s.coilGauges ch sh).map fun i => (i, s.fuseAt ch i) := by
  rw [State.inCoil, List.filter_filter, State.fuseGauges, List.filter_map, State.coilGauges]
  congr 1
  refine List.filter_congr fun i _ => ?_
  simp only [Function.comp, State.coilStart, State.coilLen, vibH1, vibH2, Bool.and_assoc]
  congr 2
  · exact decide_eq_decide.mpr (by omega)
  · exact decide_eq_decide.mpr (by omega)

variable {s ch sh}

theorem orElse_eq_ite {α : Type} (a b : Option α) : (a.orElse fun _ => b) = if a.isSome then a else b := by
  cases a <;> rfl

theorem sumInt_eq_sum (l : List Int) : sumInt l = l.sum := List.sum_eq_foldl.symm

/-- The drift of a frame by the coil's gauges: none without a coil temperature at both its ends, or with fewer than eight of them
(R184). -/
theorem State.fuseDrift_inCoil (on : Bool) (fk : Int) (tc prev : Option Int) : (fuseDrift on (s.inCoil ch sh) fk tc prev).1 =
    match tc, prev with
    | some a, some b => if (!on) = true ∨ (s.coilGauges ch sh).length < 8 then 0
      else divr (((s.coilGauges ch sh).map fun i => (s.fuseAt ch i).sum).sum -
        divr ((a - b) * (s.coilGauges ch sh).length * 2 ^ 32) fk) (s.coilGauges ch sh).length
    | _, _ => 0 := by
  cases tc with
  | none => rfl
  | some a =>
    cases prev with
    | none => rfl
    | some b =>
      simp only [fuseDrift, s.inCoil_full ch sh, List.length_map, sumInt_eq_sum, List.map_map, Function.comp_def]
      split <;> rfl

/-- The gauges of fused gauge j, f of them but at the end of the fibre, as a frame takes them (R185). -/
def State.fusedGauges (s : State) (ch : Nat) (sh : ChainShot) (f j : Nat) : List FuseO :=
  (List.range (min f (vibG sh.cfg - j * f))).map fun i => ((s.fuseGauges ch sh).toArray.getD (j * f + i) (0, {})).2

theorem State.fusedGauges_sums (s : State) (ch : Nat) (sh : ChainShot) (f j : Nat) : (s.fusedGauges ch sh f j).map FuseO.sum =
    (List.range (min f (vibG sh.cfg - j * f))).map fun i => (s.fuseAt ch (j * f + i)).sum := by
  rw [State.fusedGauges, List.map_map]
  refine List.map_congr_left fun i hi => ?_
  have inside : j * f + i < vibG sh.cfg := by have := List.mem_range.mp hi; omega
  simp [State.fuseGauges, Array.getD_eq_getD_getElem?, inside]

variable (s ch sh)

/-- The drift per section of the frame that ends with a shot (R184). -/
def State.fuseDriftAt (c : FuseCfg) : Int :=
  (fuseDrift (s.odv (odFuse ch) 6 ≠ 0) (s.inCoil ch sh) c.fk (s.coilLast (ch / 8) (tsNum (s.stampOf ch (sh.index.toNat + 1))))
    (s.chain ch).fuse.tcPrev).1

/-- Where fused phase j stands after the frame that ends with a shot: it moves on by its gauges' sums less the drift of each
(R185). -/
def State.fusedPhase (c : FuseCfg) (j : Nat) : Int :=
  wrap (nth (s.chain ch).fuse.p j 0 + sumInt ((s.fusedGauges ch sh (max c.favg 1) j).map (·.sum)) -
    (s.fusedGauges ch sh (max c.favg 1) j).length * s.fuseDriftAt ch sh c) 64

theorem State.fusedPhase_eq (c : FuseCfg) (j : Nat) :
    let sums := (List.range (min (max c.favg 1) (vibG sh.cfg - j * max c.favg 1))).map fun i =>
      (s.fuseAt ch (j * max c.favg 1 + i)).sum
    s.fusedPhase ch sh c j =
      wrap ((s.chain ch).fuse.p.getD j 0 + sums.sum - sums.length * s.fuseDriftAt ch sh c) 64 := by
  dsimp only
  rw [State.fusedPhase, sumInt_eq_sum, ← State.fusedGauges_sums, List.length_map, nth]

/-- A frame of FUSE is one change of the chain, shown to the zones and sent (R184 to R186, R190). -/
theorem State.fuseForm_eq (c : FuseCfg) : ∃ (u : State) (x : ChainSt) (anchors : Nat) (view : W72 → FrameView) (ws : List W72),
    x.fuse.due = none ∧ x.fuse.inFrame = false ∧
      x.fuse.tcPrev = (s.coilLast (ch / 8) (tsNum (s.stampOf ch (sh.index.toNat + 1)))).orElse (fun _ => (s.chain ch).fuse.tcPrev) ∧
      x.fuse.p = (List.range ((vibG sh.cfg + max c.favg 1 - 1) / max c.favg 1)).map (s.fusedPhase ch sh c) ∧
      s.fuseForm ch sh c = (((u.setChain ch x).setOdv (odFuse ch) 8 anchors).zoneFrame 3 ch view).frameOut ch 3 ws :=
  ⟨_, _, _, _, _, rfl, rfl, rfl, rfl, rfl⟩

/-- What a frame of FUSE leaves in the chain. -/
theorem State.fuseForm_chain (c : FuseCfg) :
    let x := (s.fuseForm ch sh c).chain ch
    x.fuse.due = none ∧ x.fuse.inFrame = false ∧
      x.fuse.tcPrev = (s.coilLast (ch / 8) (tsNum (s.stampOf ch (sh.index.toNat + 1)))).orElse (fun _ => (s.chain ch).fuse.tcPrev) ∧
      x.fuse.p = (List.range ((vibG sh.cfg + max c.favg 1 - 1) / max c.favg 1)).map (s.fusedPhase ch sh c) := by
  obtain ⟨u, x, anchors, view, ws, due, inFrame, tcPrev, p, e⟩ := s.fuseForm_eq ch sh c
  have after : (s.fuseForm ch sh c).chain ch = x := by
    rw [e, State.frameOut_zoneFrame_chain]
    exact u.chain_setChain_same ch x
  dsimp only
  rw [after]
  exact ⟨due, inFrame, tcPrev, p⟩

end

theorem exec_fuseFrameEnd_of_due {s : State} {ch : Chan} {sh : ChainShot} {c : FuseCfg} (due : (s.chain ch).fuse.due = some sh)
    (on : sh.fuse = some c) : exec (.fuseFrameEnd ch) s = .next (s.fuseForm ch sh c) := by
  change execFuseFrameEnd ch s = _
  simp only [execFuseFrameEnd, due, on]

/-! ## Flushes of a channel (R141, R166, R170, R177) -/

section
variable {s : State} {ch : Chan}

theorem exec_dtsFlushRead_of_owner (owner : s.dtsOwner ch = ch) (on : s.dtsEn ch = true) (loaded : s.tempLoaded ch = true) :
    exec (.dtsFlushRead ch) s = .next (s.dtsAct ch ch) := by
  change execDtsFlushRead ch s = _
  simp only [execDtsFlushRead, owner, on, loaded, Bool.and_self, if_true]

theorem exec_dtsFlushRead_of_off (owner : s.dtsOwner ch = ch) (off : s.dtsEn ch = false ∨ s.tempLoaded ch = false) :
    exec (.dtsFlushRead ch) s = .next s := by
  change execDtsFlushRead ch s = _
  have idle : (s.dtsEn ch && s.tempLoaded ch) = false := by
    obtain off | off := off
    · rw [off, Bool.false_and]
    · rw [off, Bool.and_false]
  simp only [execDtsFlushRead, owner, idle, Bool.false_eq_true, if_false]

theorem State.dtsOwner_of_even (even : s.oddOfPair ch = false) : s.dtsOwner ch = ch := by
  rw [State.dtsOwner, even]; rfl

/-- The flush of the odd channel of a pair whose owner does not wait for it (R177). -/
theorem exec_dtsFlushRead_of_odd (odd : s.oddOfPair ch = true) (idle : (s.chain (ch - 1)).dts.waiting = none) :
    ∃ t, exec (.dtsFlushRead ch) s = .next t ∧ t.frames = s.frames ∧ t.chains = s.chains := by
  have owner : s.dtsOwner ch = ch - 1 := by rw [State.dtsOwner, odd]; rfl
  have other : ch.val ≠ ch - 1 := by
    simp only [State.oddOfPair, Bool.and_eq_true, decide_eq_true_eq] at odd
    omega
  have kept := s.pairHead_kept (ch - 1)
  change ∃ t, execDtsFlushRead ch s = _ ∧ _
  simp only [execDtsFlushRead, owner, State.dtsAct_of_other other idle]
  split
  · exact ⟨_, rfl, kept.frames, kept.chains⟩
  · exact ⟨s, rfl, rfl, rfl⟩

end

/-! ## The obligation -/

/-- Settles O37: a flush of DTS by what its window becomes, a shot and a frame of FUSE by what they leave in the chain. -/
theorem temperatureChain : Obligations.TemperatureChain := by
  refine ⟨?off, ?oddSeq, ?window, ?pair, ?oddChannel, ?shot, ?noShot, ?frame, ?noFrame⟩
  case off =>
    intro s ch even off
    exact exec_dtsFlushRead_of_off (s.dtsOwner_of_even even) off
  case oddSeq =>
    intro s ch even on loaded single odd
    rw [exec_dtsFlushRead_of_owner (s.dtsOwner_of_even even) on loaded, State.dtsAct_of_odd odd, State.pairHead_of_single single]
  case window =>
    intro s ch even on loaded single w first last complete
    refine ⟨_, exec_dtsFlushRead_of_owner (s.dtsOwner_of_even even) on loaded, fun new short => ?_, fun new full => ?_,
      fun l formed => State.dtsAct_of_formed_frame complete formed⟩
    · have window := State.dtsAct_of_short complete new short
      exact ⟨window.formed, window.expect, window.frames, by rw [State.ce, window.ces]; rfl⟩
    · obtain ⟨replace, -, marks⟩ := State.dtsAct_of_full complete new full fun double => absurd (single.symm.trans double)
        Bool.false_ne_true
      exact ⟨replace, marks⟩
  case pair =>
    intro s ch even on loaded double w v first last complete oddComplete meets new full
    obtain ⟨replace, replaceOdd, formed, -⟩ := State.dtsAct_of_full complete new full fun _ => by
      rw [State.pairHead_of_double double]
      exact ⟨oddComplete, meets⟩
    exact ⟨_, exec_dtsFlushRead_of_owner (s.dtsOwner_of_even even) on loaded, replace, replaceOdd double, formed⟩
  case oddChannel =>
    intro s ch odd _ idle
    exact exec_dtsFlushRead_of_odd odd idle
  case shot =>
    intro s ch i rest c idle first on fdec idx opens
    have taking := State.chain_setChain_same s ch { s.chain ch with fuseIn := rest }
    refine ⟨_, exec_fuseShot_of_first idle first on, ?_⟩
    cases restarts : i.shot.fuseRestart with
    | true =>
      obtain ⟨taken, cleared⟩ := State.fuseTake_of_restart (s := s.setChain ch { s.chain ch with fuseIn := rest }) (ch := ch) c restarts
      exact ⟨taken.trans (congrArg ChainSt.fuseIn taking), fun _ => cleared, fun no => absurd no.symm Bool.false_ne_true⟩
    | false =>
      obtain ⟨taken, due, gauges⟩ := State.fuseTake_of_going (s := s.setChain ch { s.chain ch with fuseIn := rest }) (ch := ch) c restarts
      rw [taking] at taken due
      exact ⟨taken, fun no => absurd no Bool.false_ne_true, fun _ => ⟨due, fun g hg _ => gauges g hg⟩⟩
  case noShot =>
    intro s ch idle none
    change execFuseShot ch s = _
    simp only [execFuseShot, idle, none, Option.isSome_none, Bool.false_eq_true, if_false]
  case frame =>
    intro s ch sh c due on n g coil dc tc dr
    obtain ⟨taken, closed, tcPrev, p⟩ := s.fuseForm_chain ch sh c
    have drift : s.fuseDriftAt ch sh c = dr := by
      refine (State.fuseDrift_inCoil _ _ _ _).trans ?_
      simp only [decide_not, Bool.not_not, decide_eq_true_eq]
      rfl
    refine ⟨_, exec_fuseFrameEnd_of_due due on, taken, closed, tcPrev.trans (orElse_eq_ite _ _), fun j hj => ?_⟩
    rw [p, List.getD_eq_getElem?_getD, List.getElem?_map, List.getElem?_range hj, Option.map_some, Option.getD_some,
      State.fusedPhase_eq, drift]
    rfl
  case noFrame =>
    intro s ch none
    change execFuseFrameEnd ch s = _
    simp only [execFuseFrameEnd, none]

end Sys2Proof.Machine
end

section
/-!
PROOFS. An instruction with one move (O29): what passes after its write back, what the write back of a move makes of the core,
and what a load and a store of one slot read and leave.
-/
namespace Sys2Proof.Machine

/-! ## What stands after the write back: the time that passes and the next address -/

/-- From s to t the time of core c passes and its PC goes on: its G registers, pointers and BEXP, the memories, the clusters and the
ring pointers of the channels stay, and so does FAULT.PORT of its cluster once set. -/
structure State.Passes (c : Nat) (s t : State) : Prop where
  g : (t.core c).g = (s.core c).g
  p : (t.core c).p = (s.core c).p
  bexp : (t.core c).bexp = (s.core c).bexp
  cmem : t.cmem = s.cmem
  sram : t.sram = s.sram
  clusters : t.clusters = s.clusters
  outRp : ∀ ch < 32, t.reg (Reg.ceOutRp ch) = s.reg (Reg.ceOutRp ch)
  portFault : s.rbit (Reg.clFault (c / 8)) 9 = true → t.rbit (Reg.clFault (c / 8)) 9 = true

theorem State.Passes.trans {c : Nat} {s t u : State} (h : s.Passes c t) (k : t.Passes c u) : s.Passes c u :=
  ⟨k.g.trans h.g, k.p.trans h.p, k.bexp.trans h.bexp, k.cmem.trans h.cmem, k.sram.trans h.sram, k.clusters.trans h.clusters,
    fun ch hch => (k.outRp ch hch).trans (h.outRp ch hch), fun set => k.portFault (h.portFault set)⟩

/-- A core that keeps its G registers, pointers and BEXP. -/
theorem State.passes_setCore (s : State) (c : Nat) (x : CoreSt) (g : x.g = (s.core c).g) (p : x.p = (s.core c).p)
    (bexp : x.bexp = (s.core c).bexp) : s.Passes c (s.setCore c x) := by
  refine ⟨?_, ?_, ?_, rfl, rfl, rfl, fun _ _ => rfl, id⟩ <;> simpa only [State.core_setCore_same]

/-- A counter that is neither OUT_RP of a channel nor FAULT of the core's cluster. -/
theorem State.passes_count (s : State) (c n : Nat) {a : Nat} (ring : ∀ ch < 32, Reg.ceOutRp ch ≠ a) (fault : Reg.clFault (c / 8) ≠ a) :
    s.Passes c (s.count a n) :=
  ⟨rfl, rfl, rfl, rfl, rfl, rfl, fun ch hch => s.reg_setReg_ne _ (ring ch hch),
    fun set => (congrArg (bitOf · 9) (s.reg_setReg_ne _ fault)).trans set⟩

/-- A fault of the core's cluster. -/
theorem State.passes_fault (s : State) (c m : Nat) : s.Passes c (s.fault (Reg.clFault (c / 8)) m) := by
  have clusterSpared : RaiseSpares (Reg.clFault (c / 8)) := raiseSpares_of_headBase_le (by lia)
  have ringSpared (ch : Nat) : RaiseSpares (Reg.ceOutRp ch) := raiseSpares_of_headBase_le (by lia)
  have ring (ch : Nat) (hch : ch < 32) : (s.fault (Reg.clFault (c / 8)) m).reg (Reg.ceOutRp ch) = s.reg (Reg.ceOutRp ch) :=
    s.fault_reg_of_ne (ringSpared ch) (by lia) m
  have port (set : s.rbit (Reg.clFault (c / 8)) 9 = true) := State.fault_rbit_kept clusterSpared m (by decide) set
  obtain ⟨r, v, x, y, n, f, raised⟩ := s.fault_raiseOnly (Reg.clFault (c / 8)) m
  rw [raised] at ring port ⊢
  exact ⟨rfl, rfl, rfl, rfl, rfl, rfl, ring, port⟩

theorem State.passes_coreTime (s : State) (c t n stalls : Nat) (gives : List (Nat × Nat)) :
    s.Passes c (s.coreTime c t n stalls gives) := by
  have cycles (u : State) (k : Nat) : u.Passes c (u.count (Reg.clCoreCycles (c / 8) (c % 8)) k) :=
    u.passes_count c k (fun ch _ => by lia) (by lia)
  have stalled (u : State) (k : Nat) : u.Passes c (u.count (Reg.clCoreStalls (c / 8) (c % 8)) k) :=
    u.passes_count c k (fun ch _ => by lia) (by lia)
  have timed := s.passes_setCore c { s.core c with cycle := t + 1 + n, ready := readyAfter (s.core c) t gives } rfl rfl rfl
  exact timed.trans ((cycles _ _).trans (stalled _ _))

theorem State.passes_coreFault (s : State) (c why pc : Nat) : s.Passes c (s.coreFault c why pc) :=
  (s.passes_setCore c { s.core c with mode := .fault, why := why, faultPc := pc } rfl rfl rfl).trans (State.passes_fault _ c _)

theorem State.passes_sequence (s : State) (c pc : Nat) : s.Passes c (s.sequence c pc) := by
  have goesOn (loops : List LoopSt) (lc : List (BitVec 16)) (next : Nat) :
      s.Passes c (s.setCore c { s.core c with loops := loops, lc := lc, pc := next }) := s.passes_setCore c _ rfl rfl rfl
  unfold State.sequence
  dsimp only
  split
  · exact (goesOn _ _ _).trans (State.passes_coreFault _ c _ _)
  · exact goesOn _ _ _

theorem State.passes_tail (s : State) (c t n stalls pc : Nat) (gives : List (Nat × Nat)) :
    s.Passes c ((s.coreTime c t n stalls gives).sequence c pc) :=
  (s.passes_coreTime c t n stalls gives).trans (State.passes_sequence _ c pc)

/-! ## The write back of a move -/

/-- The core x after the write back of the move m alone: what it loads and the class it detects are given. -/
def moveWrite (x : CoreSt) (pc : Nat) (m : MoveF) (loads : List (Nat × W72)) (det : Option Nat) : CoreSt :=
  writeBack x pc {} loads det (if moveMods m then [m.ptr.toNat] else [])

theorem moveWrite_g_of_load (x : CoreSt) (pc : Nat) (m : MoveF) (i : Nat) (w : W72) (det : Option Nat) :
    (moveWrite x pc m [(i, w)] det).g = x.g.set i w := rfl

theorem moveWrite_g_of_store (x : CoreSt) (pc : Nat) (m : MoveF) (det : Option Nat) : (moveWrite x pc m [] det).g = x.g := rfl

theorem moveWrite_p (x : CoreSt) (pc : Nat) (m : MoveF) (loads : List (Nat × W72)) (det : Option Nat) (whole : x.p.length = 8) :
    (moveWrite x pc m loads det).p.getD m.ptr.toNat 0 =
      if moveMods m then (postMod x m.ptr.toNat).1 else x.p.getD m.ptr.toNat 0 := by
  have inside : m.ptr.toNat < x.p.length := by have := m.ptr.isLt; omega
  unfold moveWrite
  split
  · show (x.p.set m.ptr.toNat (postMod x m.ptr.toNat).1).getD m.ptr.toNat 0 = _
    rw [List.getD_eq_getElem?_getD, List.getElem?_set_self inside]
    rfl
  · rfl

/-! ## BEXP after a detected class (R206) -/

/-- A field below the one written stays. -/
theorem field_withField_below {w hi lo top bot : Nat} (v : BitVec w) (x : Nat) (below : top < lo) :
    field (withField v hi lo x) top bot = field v top bot := by
  refine Nat.eq_of_testBit_eq fun i => ?_
  rw [field, field, Nat.testBit_mod_two_pow, Nat.testBit_mod_two_pow, Nat.testBit_div_two_pow, Nat.testBit_div_two_pow]
  by_cases inside : i < top + 1 - bot
  · have same := bitOf_withField_below v hi x (show i + bot < lo by omega)
    simp only [bitOf, BitVec.getLsbD] at same
    rw [same]
  · simp only [inside, decide_false, Bool.false_and]

theorem detected_exponents (v : BitVec 10) (d : Nat) : field (detected v d) 6 0 = field v 6 0 :=
  field_withField_below v _ (by decide)

theorem detected_class (v : BitVec 10) {d : Nat} (hd : d < 4) : field (detected v d) 9 8 = max (field v 9 8) d := by
  have small : field v 9 8 < 4 := Nat.mod_lt _ (by decide)
  rw [detected, field_withField v _ (by decide)]
  exact Nat.mod_eq_of_lt (by omega)

theorem detClass_lt (v : W72) : detClass v < 4 := by
  unfold detClass
  dsimp only
  split_ifs <;> decide

/-- MOVE_STD detects the class of the word it stores, and no other part of BEXP changes. -/
theorem moveWrite_bexp_of_std (x : CoreSt) (pc : Nat) (m : MoveF) (loads : List (Nat × W72)) (v : W72) :
    field (moveWrite x pc m loads (some (detClass v))).bexp 9 8 = max (field x.bexp 9 8) (detClass v) ∧
      field (moveWrite x pc m loads (some (detClass v))).bexp 6 0 = field x.bexp 6 0 := by
  have written : (moveWrite x pc m loads (some (detClass v))).bexp = detected (detected x.bexp 0) (detClass v) := rfl
  rw [written]
  constructor
  · rw [detected_class _ (detClass_lt v), detected_class _ (by decide), Nat.max_zero]
  · rw [detected_exponents, detected_exponents]

end Sys2Proof.Machine
end

section
/-!
PROOFS. An instruction with one move (O29): by its X slot or by its Y slot it comes to the same grant, load, store and write back.
-/
namespace Sys2Proof.Machine

/-! ## The parts of one move -/

/-- The address a pointer of core c names. -/
def State.pointer (s : State) (c : Nat) (ptr : BitVec 3) : Nat := ((s.core c).p.getD ptr.toNat 0).toNat

section
variable (s : State) (c own : Nat) (m : MoveF)

/-- What the slot loads, the latency of it when its grant took n cycles, and the state it leaves (R226, R249). -/
def State.moveLoaded (n : Nat) : List (Nat × W72) × List (Nat × Nat) × State :=
  if moveLoads m then
    let r := s.slotLoad c own m.space (s.pointer c m.ptr)
    ([(m.greg.toNat, r.1)], [(m.greg.toNat, if m.space = 0 then 1 else 6 + n)], r.2)
  else ([], [], s)

/-- The class the slot detects (R206). -/
def State.moveDetects : Option Nat := if m.mop = 3 then some (detClass (nth (s.core c).g m.greg.toNat 0)) else none

/-- What the slot leaves before its write back: granted, it loads, then stores. -/
def State.moveActs : List (Nat × W72) × List (Nat × Nat) × State :=
  let grant := s.slotGrant c m none
  let load := grant.2.moveLoaded c own m grant.1
  (load.1, load.2.1, if moveStores m then
    load.2.2.slotStore c own m.space (s.pointer c m.ptr) (nth (s.core c).g m.greg.toNat 0) else load.2.2)

/-- The state the slot leaves with its write back (R228). -/
def State.moveDone : State :=
  let acts := s.moveActs c own m
  acts.2.2.setCore c (moveWrite (acts.2.2.core c) (s.core c).pc m acts.1 (s.moveDetects c m))

/-! ## The empty slots (R226, R231) -/

theorem State.slotGrants_left : s.slotGrants c m noMove = ((s.slotGrant c m none).1, 0, (s.slotGrant c m none).2) := rfl

theorem State.slotGrants_right : s.slotGrants c noMove m = (0, (s.slotGrant c m none).1, (s.slotGrant c m none).2) := rfl

theorem State.slotLoads_left (n k : Nat) : s.slotLoads c m noMove n k = s.moveLoaded c 0 m n := by
  have noLoad : moveLoads noMove = false := rfl
  cases load : moveLoads m with
  | true => simp only [State.slotLoads, State.moveLoaded, State.pointer, nth, load, noLoad, Bool.not_true, Bool.not_false,
      Bool.false_eq_true, if_true, if_false, List.append_nil]
  | false => simp only [State.slotLoads, State.moveLoaded, load, noLoad, Bool.not_false, Bool.false_eq_true, if_true, if_false,
      List.append_nil]

theorem State.slotLoads_right (n k : Nat) : s.slotLoads c noMove m k n = s.moveLoaded c 1 m n := by
  have noLoad : moveLoads noMove = false := rfl
  cases load : moveLoads m with
  | true => simp only [State.slotLoads, State.moveLoaded, State.pointer, nth, load, noLoad, Bool.not_true, Bool.not_false,
      Bool.false_eq_true, if_true, if_false, List.nil_append]
  | false => simp only [State.slotLoads, State.moveLoaded, load, noLoad, Bool.not_false, Bool.false_eq_true, if_true, if_false,
      List.nil_append]

/-- The greatest of the classes one slot may detect. -/
theorem foldl_max_of_one (p : Prop) [Decidable p] (d : Nat) :
    (if (if p then [d] else []) = [] then none else some ((if p then [d] else []).foldl max 0)) = if p then some d else none := by
  by_cases h : p
  · simp only [h, if_true, reduceCtorEq, if_false, List.foldl_cons, List.foldl_nil, Nat.zero_max]
  · simp only [h, if_false, if_true]

theorem nopSlot_cMods : nopSlot.cMods = [] := rfl

/-- A move in the X slot alone. -/
theorem State.passes_parallel_left : (s.moveDone c 0 m).Passes c (s.parallel c nopSlot m noMove) := by
  have idle : moveStores noMove = false ∧ moveMods noMove = false ∧ noMove.mop ≠ 3 := by decide
  obtain ⟨noStore, noMod, noDet⟩ := idle
  unfold State.parallel
  rw [State.slotGrants_left]
  simp only [State.slotLoads_left, noStore, noMod, noDet, nopSlot_cMods, Bool.false_eq_true, if_false, List.append_nil, List.nil_append,
    foldl_max_of_one]
  exact State.passes_tail (s.moveDone c 0 m) c _ _ _ _ _

/-- A move in the Y slot alone. -/
theorem State.passes_parallel_right : (s.moveDone c 1 m).Passes c (s.parallel c nopSlot noMove m) := by
  have idle : moveStores noMove = false ∧ moveMods noMove = false ∧ noMove.mop ≠ 3 := by decide
  obtain ⟨noStore, noMod, noDet⟩ := idle
  unfold State.parallel
  rw [State.slotGrants_right]
  simp only [State.slotLoads_right, noStore, noMod, noDet, nopSlot_cMods, Bool.false_eq_true, if_false, List.append_nil, List.nil_append,
    foldl_max_of_one]
  exact State.passes_tail (s.moveDone c 1 m) c _ _ _ _ _

end

/-! ## The issue of one move -/

/-- An instruction that can issue acts. -/
theorem State.issue_of_canIssue {s : State} {c : Nat} {i : Soric} (can : s.canIssue c i = true) : s.issue c i = s.act c i := by
  simp only [State.canIssue, Bool.and_eq_true, decide_eq_true_eq, Bool.not_eq_true', Option.isNone_iff_eq_none] at can
  obtain ⟨⟨⟨running, user⟩, awake⟩, noFault⟩ := can
  simp only [State.issue, running, user, awake, noFault, ne_eq, not_true_eq_false, Bool.false_eq_true, or_self, if_false]

/-- A move that can issue leaves its state, and what passes after. -/
theorem State.passes_issue {s : State} {c : Nat} {ys : Bool} {m : MoveF} (can : s.canIssue c (oneMove ys m) = true) :
    (s.moveDone c (if ys then 1 else 0) m).Passes c (s.issue c (oneMove ys m)) := by
  rw [State.issue_of_canIssue can]
  cases ys with
  | false => exact s.passes_parallel_left c m
  | true => exact s.passes_parallel_right c m

end Sys2Proof.Machine
end

section
/-!
PROOFS. MOVE_LD, MOVE_ST, MOVE_STD and MOVE_MODIFY (O29): the ports of the core complex, what a load and a store reach, and the
four moves.
-/
namespace Sys2Proof.Machine

/-! ## What a grant leaves (R195) -/

section
variable (s : State) (c : Nat) (m : MoveF)

theorem State.slotGrant_frame : let t := (s.slotGrant c m none).2
    t.cores = s.cores ∧ t.cmem = s.cmem ∧ t.sram = s.sram := by
  unfold State.slotGrant
  dsimp only
  split_ifs <;> exact ⟨rfl, rfl, rfl⟩

theorem State.slotGrant_of_not_shared (load : moveLoads m = false) (store : moveStores m = false) :
    (s.slotGrant c m none).2 = s := by
  simp only [State.slotGrant, moveShared, load, store, Bool.or_self, Bool.false_and, Bool.false_eq_true, if_false]

/-- A store elsewhere than to shared SRAM waits for no grant. -/
theorem State.slotGrant_of_store (load : moveLoads m = false) (space : m.space ≠ 1) : (s.slotGrant c m none).2 = s := by
  simp only [State.slotGrant, moveShared, load, space, decide_false, Bool.and_false, Bool.false_and, Bool.false_eq_true, if_false]

end

/-! ## What a slot leaves (R198, R226) -/

section
variable (s : State) (c own : Nat) (space : BitVec 2) (a : Nat) (v : W72)

theorem State.portRead_frame : let t := (s.portRead c a).2
    t.cores = s.cores ∧ t.cmem = s.cmem ∧ t.sram = s.sram := by
  unfold State.portRead
  split
  any_goals exact ⟨rfl, rfl, rfl⟩
  dsimp only
  split_ifs <;> exact ⟨rfl, rfl, rfl⟩

theorem State.slotLoad_frame : let t := (s.slotLoad c own space a).2
    t.cores = s.cores ∧ t.cmem = s.cmem ∧ t.sram = s.sram := by
  unfold State.slotLoad
  split
  · exact ⟨rfl, rfl, rfl⟩
  · exact ⟨rfl, rfl, rfl⟩
  · exact s.portRead_frame c a

theorem State.fault_moveFrame (m : Nat) : let t := s.fault a m
    t.cores = s.cores ∧ t.cmem = s.cmem ∧ t.sram = s.sram ∧ t.clusters = s.clusters := by
  obtain ⟨r, v, x, y, n, f, raised⟩ := s.fault_raiseOnly a m
  rw [raised]
  exact ⟨rfl, rfl, rfl, rfl⟩

theorem State.portWrite_frame : let t := s.portWrite c a v
    t.cores = s.cores ∧ t.cmem = s.cmem ∧ t.sram = s.sram := by
  unfold State.portWrite
  dsimp only
  split_ifs
  · split
    · exact ⟨rfl, rfl, rfl⟩
    · split
      · obtain ⟨cores, cmem, sram, -⟩ := s.fault_moveFrame (Reg.clFault (c / 8)) (2 ^ 9)
        exact ⟨cores, cmem, sram⟩
      · exact ⟨rfl, rfl, rfl⟩
  · exact ⟨rfl, rfl, rfl⟩
  · exact ⟨rfl, rfl, rfl⟩

theorem State.slotStore_cores : (s.slotStore c own space a v).cores = s.cores := by
  unfold State.slotStore
  split
  · rfl
  · rfl
  · exact (s.portWrite_frame c a v).1

end

/-! ## The ports (R198) -/

section
variable (s : State) (c : Nat)

/-- A load of a port from 4 on: a semaphore, whose bit 0 sets, or 0. -/
theorem State.portRead_of_four_le {a : Nat} (high : 4 ≤ a) : s.portRead c a =
    let x := s.cluster (c / 8)
    if 8 ≤ a ∧ a < 16 then
      (nth x.sems (a - 8) 0, s.setCluster (c / 8) { x with sems := setNth x.sems (a - 8) (nth x.sems (a - 8) 0 ||| 1) })
    else (0, s) := by
  unfold State.portRead
  split
  · omega
  · omega
  · omega
  · omega
  · rfl

theorem State.portRead_of_ring_served {ch : Nat} (served : s.served (c / 8) = some ch) :
    (s.portRead c 0).1 = (s.reg (Reg.ceOutWp ch)).zeroExtend 72 ∧ (s.portRead c 1).1 = (s.reg (Reg.ceOutRp ch)).zeroExtend 72 := by
  simp only [State.portRead, served]
  exact ⟨BitVec.ofNat_toNat _ _, BitVec.ofNat_toNat _ _⟩

theorem State.portRead_of_ring_unserved (unserved : s.served (c / 8) = none) :
    (s.portRead c 0).1 = 0 ∧ (s.portRead c 1).1 = 0 := by
  simp only [State.portRead, unserved, and_self]

theorem State.portRead_identity_served {ch : Nat} (served : s.served (c / 8) = some ch) :
    (s.portRead c 3).1 = BitVec.ofNat 72 (c / 8 * 2 ^ 16 + c % 8 * 2 ^ 8 + 2 ^ 5 + ch) := by
  simp only [State.portRead, served, Nat.add_assoc]
  rfl

theorem State.portRead_identity_unserved (unserved : s.served (c / 8) = none) :
    (s.portRead c 3).1 = BitVec.ofNat 72 (c / 8 * 2 ^ 16 + c % 8 * 2 ^ 8 + s.fld (Reg.clAssign (c / 8)) 4 0) := by
  simp only [State.portRead, unserved]

theorem State.served_lt {s : State} {cl ch : Nat} (served : s.served cl = some ch) : ch < 32 := by
  simp only [State.served, Option.ite_none_right_eq_some, Option.some.injEq] at served
  exact served.2 ▸ Nat.mod_lt _ (by decide)

/-- A store to OUT_RP of the served channel: it moves where R135 allows it, and else FAULT.PORT sets alone. -/
theorem State.portWrite_ring {ch : Nat} (served : s.served (c / 8) = some ch) (v : W72) :
    if (s.reg (Reg.ceOutWp ch) - v.extractLsb' 0 32).toNat ≤ s.fld (Reg.ceOutLen ch) 16 0 then
      (s.portWrite c 1 v).reg (Reg.ceOutRp ch) = v.extractLsb' 0 32
    else (s.portWrite c 1 v).reg (Reg.ceOutRp ch) = s.reg (Reg.ceOutRp ch) ∧ (s.portWrite c 1 v).rbit (Reg.clFault (c / 8)) 9 = true := by
  have word : BitVec.ofNat 32 v.toNat = v.extractLsb' 0 32 := by simp only [BitVec.extractLsb', Nat.shiftRight_zero]
  have written : s.portWrite c 1 v = if s.fld (Reg.ceOutLen ch) 16 0 < (s.reg (Reg.ceOutWp ch) - v.extractLsb' 0 32).toNat then
      s.fault (Reg.clFault (c / 8)) (2 ^ 9) else s.setReg (Reg.ceOutRp ch) (v.extractLsb' 0 32) := by
    simp only [State.portWrite, served, word, ceCheck, if_true]
    by_cases refused : s.fld (Reg.ceOutLen ch) 16 0 < (s.reg (Reg.ceOutWp ch) - v.extractLsb' 0 32).toNat
    · simp only [refused, if_true, Option.isSome_some]
    · simp only [refused, if_false, Option.isSome_none, Bool.false_eq_true]
  rw [written]
  split
  · next fits =>
    rw [if_neg (Nat.not_lt.mpr fits)]
    exact s.reg_setReg_same _ _
  · next refused =>
    rw [if_pos (Nat.not_le.mp refused)]
    exact ⟨s.fault_reg_of_ne (raiseSpares_of_headBase_le (by lia)) (by lia) _,
      s.fault_rbit_self (raiseSpares_of_headBase_le (by lia)) (by decide) (by decide)⟩

theorem State.portWrite_semaphore {a : Nat} (low : 8 ≤ a) (high : a < 16) (whole : (s.cluster (c / 8)).sems.length = 8) (v : W72) :
    ((s.portWrite c a v).cluster (c / 8)).sems.getD (a - 8) 0 = v := by
  have inside : a - 8 < (s.cluster (c / 8)).sems.length := by omega
  have notRing : a ≠ 1 := by omega
  simp only [State.portWrite, notRing, low, high, and_self, if_true, if_false, State.cluster_setCluster_same, setNth,
    List.getD_eq_getElem?_getD, List.getElem?_set_self inside, Option.getD_some]

theorem State.portWrite_clusters {a : Nat} (other : a < 8 ∨ 16 ≤ a) (v : W72) : (s.portWrite c a v).clusters = s.clusters := by
  unfold State.portWrite
  dsimp only
  split_ifs
  · split
    · rfl
    · split
      · exact (s.fault_moveFrame _ _).2.2.2
      · rfl
  · omega
  · rfl

end

/-! ## The state one move leaves -/

section
variable {s : State} {c own : Nat} {m : MoveF}

/-- What a load finds and leaves. -/
def State.moveReads (s : State) (c own : Nat) (m : MoveF) : W72 × State :=
  (s.slotGrant c m none).2.slotLoad c own m.space (s.pointer c m.ptr)

/-- What a store leaves. -/
def State.moveWrites (s : State) (c own : Nat) (m : MoveF) : State :=
  (s.slotGrant c m none).2.slotStore c own m.space (s.pointer c m.ptr) (nth (s.core c).g m.greg.toNat 0)

theorem State.moveReads_frame (s : State) (c own : Nat) (m : MoveF) : let t := (s.moveReads c own m).2
    t.cores = s.cores ∧ t.cmem = s.cmem ∧ t.sram = s.sram := by
  obtain ⟨cores, cmem, sram⟩ := s.slotGrant_frame c m
  obtain ⟨cores', cmem', sram'⟩ := (s.slotGrant c m none).2.slotLoad_frame c own m.space (s.pointer c m.ptr)
  exact ⟨cores'.trans cores, cmem'.trans cmem, sram'.trans sram⟩

theorem State.core_of_cores {t : State} (same : t.cores = s.cores) (k : Nat) : t.core k = s.core k := by
  rw [State.core, same]; rfl

theorem State.moveDone_of_load (load : m.mop = 1) : s.moveDone c own m = (s.moveReads c own m).2.setCore c
    (moveWrite (s.core c) (s.core c).pc m [(m.greg.toNat, (s.moveReads c own m).1)] none) := by
  have loads : moveLoads m = true := by simp only [moveLoads, load, decide_true]
  have noStore : moveStores m = false := by simp only [moveStores, load]; rfl
  have noDet : m.mop ≠ 3 := by rw [load]; decide
  have addr : (s.slotGrant c m none).2.pointer c m.ptr = s.pointer c m.ptr := by
    rw [State.pointer, State.core_of_cores (s.slotGrant_frame c m).1]; rfl
  have core : (s.moveReads c own m).2.core c = s.core c := State.core_of_cores (s.moveReads_frame c own m).1 c
  simp only [State.moveDone, State.moveActs, State.moveLoaded, State.moveDetects, loads, noStore, noDet, addr, if_true, if_false,
    Bool.false_eq_true]
  rw [State.moveReads] at core ⊢
  rw [core]

theorem State.moveDone_of_store (store : m.mop = 2 ∨ m.mop = 3) : s.moveDone c own m = (s.moveWrites c own m).setCore c
    (moveWrite (s.core c) (s.core c).pc m [] (s.moveDetects c m)) := by
  have noLoad : moveLoads m = false := by rcases store with h | h <;> (rw [moveLoads, h]; rfl)
  have stores : moveStores m = true := by rcases store with h | h <;> (rw [moveStores, h]; rfl)
  have core : (s.moveWrites c own m).core c = s.core c :=
    State.core_of_cores ((State.slotStore_cores _ _ _ _ _ _).trans (s.slotGrant_frame c m).1) c
  simp only [State.moveDone, State.moveActs, State.moveLoaded, noLoad, stores, if_true, if_false, Bool.false_eq_true]
  rw [State.moveWrites] at core ⊢
  rw [core]

theorem State.moveDone_of_modify (modify : m.mop = 4) : s.moveDone c own m =
    s.setCore c (moveWrite (s.core c) (s.core c).pc m [] none) := by
  have noLoad : moveLoads m = false := by rw [moveLoads, modify]; rfl
  have noStore : moveStores m = false := by rw [moveStores, modify]; rfl
  have noDet : m.mop ≠ 3 := by rw [modify]; decide
  simp only [State.moveDone, State.moveActs, State.moveLoaded, State.moveDetects, noLoad, noStore, noDet, if_false,
    Bool.false_eq_true, s.slotGrant_of_not_shared c m noLoad noStore]

end

end Sys2Proof.Machine
end

section
/-!
PROOFS. The four moves as commands, and O29.
-/
namespace Sys2Proof.Machine

theorem CoreSt.sized_g_p {x : CoreSt} (whole : x.sized = true) : x.g.length = 16 ∧ x.p.length = 8 := by
  simp only [CoreSt.sized, Bool.and_eq_true, decide_eq_true_eq] at whole
  obtain ⟨⟨⟨⟨⟨⟨g, -⟩, p⟩, -⟩, -⟩, -⟩, -⟩ := whole
  exact ⟨g, p⟩

section
variable {s : State} {c : Core} {ys : Bool}

/-! ## MOVE_LD -/

/-- A load gives G the word it finds and moves its pointer when told to. -/
theorem State.issue_load {space : BitVec 2} {ptr : BitVec 3} {pm : Bool} {g : BitVec 4} (whole : (s.core c).sized = true)
    (can : s.canIssue c (oneMove ys ⟨1, space, ptr, pm, g⟩) = true) :
    let r := s.moveReads c (if ys then 1 else 0) ⟨1, space, ptr, pm, g⟩
    let t := s.issue c (oneMove ys ⟨1, space, ptr, pm, g⟩)
    t.greg c g = r.1 ∧
      (t.core c).p.getD ptr.toNat 0 = (if pm then (postMod (s.core c) ptr.toNat).1 else (s.core c).p.getD ptr.toNat 0) ∧
      t.cmem = s.cmem ∧ t.sram = s.sram ∧ t.clusters = r.2.clusters := by
  intro r t
  obtain ⟨lengthG, lengthP⟩ := CoreSt.sized_g_p whole
  have inside : g.toNat < (s.core c).g.length := by have := g.isLt; omega
  obtain ⟨-, cmem, sram⟩ := s.moveReads_frame c (if ys then 1 else 0) ⟨1, space, ptr, pm, g⟩
  have passes := State.passes_issue can
  rw [State.moveDone_of_load rfl] at passes
  refine ⟨?_, ?_, passes.cmem.trans cmem, passes.sram.trans sram, passes.clusters⟩
  · rw [State.greg, passes.g, State.core_setCore_same, moveWrite_g_of_load, List.getD_eq_getElem?_getD,
      List.getElem?_set_self inside, Option.getD_some]
  · rw [passes.p, State.core_setCore_same]
    refine (moveWrite_p _ _ ⟨1, space, ptr, pm, g⟩ _ none lengthP).trans ?_
    rw [moveMods]
    simp only [ne_eq, show (1 : BitVec 3) ≠ 0 by decide, not_false_eq_true, decide_true, Bool.and_true]

section
variable {ptr : BitVec 3} {pm : Bool} {g : BitVec 4} {own : Nat}

theorem State.moveReads_own (s : State) (c : Nat) :
    (s.moveReads c own ⟨1, 0, ptr, pm, g⟩).1 = s.cmem.get 0 (cmemKey c own (s.pointer c ptr)) := rfl

theorem State.moveReads_shared (s : State) (c : Nat) :
    (s.moveReads c own ⟨1, 1, ptr, pm, g⟩).1 = s.sram.get 0 (65536 * (c / 8) + s.pointer c ptr) := rfl

theorem State.moveReads_port (s : State) (c : Nat) :
    s.moveReads c own ⟨1, 2, ptr, pm, g⟩ = s.drawn.portRead c (s.pointer c ptr) := rfl

end

/-! ## MOVE_ST and MOVE_STD -/

/-- A store leaves what its slot leaves, and G as it was. -/
theorem State.issue_store {m : MoveF} (store : m.mop = 2 ∨ m.mop = 3) (can : s.canIssue c (oneMove ys m) = true) :
    let u := s.moveWrites c (if ys then 1 else 0) m
    let t := s.issue c (oneMove ys m)
    t.cmem = u.cmem ∧ t.sram = u.sram ∧ t.clusters = u.clusters ∧ (t.core c).g = (s.core c).g := by
  have passes := State.passes_issue can
  rw [State.moveDone_of_store store] at passes
  exact ⟨passes.cmem, passes.sram, passes.clusters, by rw [passes.g, State.core_setCore_same, moveWrite_g_of_store]⟩

/-- A store leaves the ring pointers its slot leaves, and FAULT.PORT where its slot sets it. -/
theorem State.issue_store_ring {m : MoveF} (store : m.mop = 2 ∨ m.mop = 3) (can : s.canIssue c (oneMove ys m) = true) :
    let u := s.moveWrites c (if ys then 1 else 0) m
    let t := s.issue c (oneMove ys m)
    (∀ ch < 32, t.reg (Reg.ceOutRp ch) = u.reg (Reg.ceOutRp ch)) ∧
      (u.rbit (Reg.clFault (c / 8)) 9 = true → t.rbit (Reg.clFault (c / 8)) 9 = true) := by
  have passes := State.passes_issue can
  rw [State.moveDone_of_store store] at passes
  exact ⟨passes.outRp, passes.portFault⟩

/-- MOVE_STD detects the class of what it stores (R206). -/
theorem State.issue_std_bexp {space : BitVec 2} {ptr : BitVec 3} {pm : Bool} {g : BitVec 4}
    (can : s.canIssue c (oneMove ys ⟨3, space, ptr, pm, g⟩) = true) :
    let t := s.issue c (oneMove ys ⟨3, space, ptr, pm, g⟩)
    field (t.core c).bexp 9 8 = max (field (s.core c).bexp 9 8) (detClass (s.greg c g)) ∧
      field (t.core c).bexp 6 0 = field (s.core c).bexp 6 0 := by
  intro t
  have passes := State.passes_issue can
  rw [State.moveDone_of_store (.inr rfl)] at passes
  have bexp := passes.bexp
  rw [State.core_setCore_same] at bexp
  rw [show (t.core c).bexp = _ from bexp]
  exact moveWrite_bexp_of_std (s.core c) _ ⟨3, space, ptr, pm, g⟩ [] (s.greg c g)

section
variable {mop : BitVec 3} (store : mop = 2 ∨ mop = 3) (s : State) (c own : Nat) (ptr : BitVec 3) (pm : Bool) (g : BitVec 4)

theorem State.moveWrites_shared : let u := s.moveWrites c own ⟨mop, 1, ptr, pm, g⟩
    u.sram = s.sram.set 0 (65536 * (c / 8) + s.pointer c ptr) (s.greg c g) ∧ u.cmem = s.cmem := by
  obtain ⟨-, cmem, sram⟩ := s.slotGrant_frame c ⟨mop, 1, ptr, pm, g⟩
  exact ⟨congrArg (Store.set · 0 (65536 * (c / 8) + s.pointer c ptr) (s.greg c g)) sram, cmem⟩

include store

theorem moveLoads_of_store {space : BitVec 2} : moveLoads ⟨mop, space, ptr, pm, g⟩ = false := by
  rcases store with rfl | rfl
  · rfl
  · rfl

theorem State.moveWrites_own : let u := s.moveWrites c own ⟨mop, 0, ptr, pm, g⟩
    u.cmem = s.cmem.set 0 (cmemKey c own (s.pointer c ptr)) (s.greg c g) ∧ u.sram = s.sram := by
  unfold State.moveWrites
  rw [s.slotGrant_of_store c _ (moveLoads_of_store store ptr pm g) (by decide : (0 : BitVec 2) ≠ 1)]
  exact ⟨rfl, rfl⟩

theorem State.moveWrites_port : s.moveWrites c own ⟨mop, 2, ptr, pm, g⟩ = s.portWrite c (s.pointer c ptr) (s.greg c g) := by
  unfold State.moveWrites
  rw [s.slotGrant_of_store c _ (moveLoads_of_store store ptr pm g) (by decide : (2 : BitVec 2) ≠ 1)]
  rfl

end

/-! ## MOVE_MODIFY -/

/-- MOVE_MODIFY moves its pointer on, and nothing else of the core's words. -/
theorem State.issue_modify {ptr : BitVec 3} (whole : (s.core c).sized = true)
    (can : s.canIssue c (oneMove ys ⟨4, 0, ptr, true, 0⟩) = true) :
    let t := s.issue c (oneMove ys ⟨4, 0, ptr, true, 0⟩)
    (t.core c).p.getD ptr.toNat 0 = (postMod (s.core c) ptr.toNat).1 ∧ (t.core c).g = (s.core c).g ∧ t.cmem = s.cmem ∧
      t.sram = s.sram := by
  intro t
  have passes := State.passes_issue can
  rw [State.moveDone_of_modify rfl] at passes
  refine ⟨?_, ?_, passes.cmem, passes.sram⟩
  · rw [passes.p, State.core_setCore_same]
    exact moveWrite_p _ _ ⟨4, 0, ptr, true, 0⟩ [] none (CoreSt.sized_g_p whole).2
  · rw [passes.g, State.core_setCore_same, moveWrite_g_of_store]

end

/-! ## Post-modification (R207) -/

/-- A linear pointer advances by its modifier. -/
theorem postMod_of_linear (x : CoreSt) {i : Nat} (linear : field (x.l.getD i 0) 17 16 = 0) :
    postMod x i = (x.p.getD i 0 + x.m.getD i 0, false) := by
  have advanced (p m : BitVec 16) : BitVec.ofInt 16 ((p.toNat : Int) + m.toInt) = p + m := by
    rw [BitVec.ofInt_add, BitVec.ofInt_natCast, BitVec.ofNat_toNat, BitVec.setWidth_eq, BitVec.ofInt_toInt]
  simp only [postMod, nth, linear, advanced]

/-! ## Ports -/

section
variable {s : State} {c : Core} {ys pm : Bool} {ptr : BitVec 3} {g : BitVec 4}

/-- A load of a port gives G the port's word, and the clusters stand as the port leaves them. -/
theorem State.issue_load_port (whole : (s.core c).sized = true) (can : s.canIssue c (oneMove ys ⟨1, 2, ptr, pm, g⟩) = true) :
    let t := s.issue c (oneMove ys ⟨1, 2, ptr, pm, g⟩)
    t.greg c g = (s.drawn.portRead c (s.pointer c ptr)).1 ∧ t.clusters = (s.drawn.portRead c (s.pointer c ptr)).2.clusters := by
  obtain ⟨loaded, -, -, -, clusters⟩ := State.issue_load whole can
  rw [State.moveReads_port] at loaded clusters
  exact ⟨loaded, clusters⟩

theorem State.cluster_of_clusters {t u : State} (same : t.clusters = u.clusters) (k : Nat) : t.cluster k = u.cluster k := by
  rw [State.cluster, same]; rfl

/-- A load of a semaphore (R198). -/
theorem State.portRead_semaphore (s : State) (c : Nat) {a : Nat} (low : 8 ≤ a) (high : a < 16)
    (whole : (s.cluster (c / 8)).sems.length = 8) : let sem := (s.cluster (c / 8)).sems.getD (a - 8) 0
    (s.portRead c a).1 = sem ∧ ((s.portRead c a).2.cluster (c / 8)).sems.getD (a - 8) 0 = sem ||| 1 := by
  have inside : a - 8 < (s.cluster (c / 8)).sems.length := by omega
  rw [s.portRead_of_four_le c (by omega : 4 ≤ a)]
  simp only [low, high, and_self, if_true, State.cluster_setCluster_same, nth, setNth, List.getD_eq_getElem?_getD,
    List.getElem?_set_self inside, Option.getD_some]

/-- A load of a port that is no port (R198). -/
theorem State.portRead_of_none (s : State) (c : Nat) {a : Nat} (other : 4 ≤ a ∧ a < 8 ∨ 16 ≤ a) : s.portRead c a = (0, s) := by
  rw [s.portRead_of_four_le c (by omega)]
  exact if_neg (by omega)

end

/-- The command that stores by a slot, MOVE_STD or MOVE_ST. -/
theorem exec_store (c : Core) (ys std pm : Bool) (space : BitVec 2) (ptr : BitVec 3) (g : BitVec 4) (s : State) :
    exec (if std then .moveStd c ys space ptr pm g else .moveSt c ys space ptr pm g) s =
      .next (s.issue c (oneMove ys ⟨if std then 3 else 2, space, ptr, pm, g⟩)) := by
  cases std with
  | false => rfl
  | true => rfl

theorem State.issue_load_ports {s : State} {c : Core} {ys pm : Bool} {ptr : BitVec 3} {g : BitVec 4}
    (whole : (s.core c).sized = true) (can : s.canIssue c (oneMove ys ⟨1, 2, ptr, pm, g⟩) = true) :
    let a := s.pointer c ptr
    let sem := (s.cluster (c / 8)).sems.getD (a - 8) 0
    let t := s.issue c (oneMove ys ⟨1, 2, ptr, pm, g⟩)
    (∀ ch, s.served (c / 8) = some ch → (a = 0 → t.greg c g = (s.reg (Reg.ceOutWp ch)).zeroExtend 72) ∧
        (a = 1 → t.greg c g = (s.reg (Reg.ceOutRp ch)).zeroExtend 72) ∧
        (a = 3 → t.greg c g = BitVec.ofNat 72 (c / 8 * 2 ^ 16 + c % 8 * 2 ^ 8 + 2 ^ 5 + ch))) ∧
      (s.served (c / 8) = none → (a = 0 ∨ a = 1 → t.greg c g = 0) ∧
        (a = 3 → t.greg c g = BitVec.ofNat 72 (c / 8 * 2 ^ 16 + c % 8 * 2 ^ 8 + s.fld (Reg.clAssign (c / 8)) 4 0))) ∧
      (8 ≤ a → a < 16 → (s.cluster (c / 8)).sems.length = 8 → t.greg c g = sem ∧
        (t.cluster (c / 8)).sems.getD (a - 8) 0 = sem ||| 1) ∧
      (4 ≤ a → a < 8 ∨ 16 ≤ a → t.greg c g = 0 ∧ t.cluster (c / 8) = s.cluster (c / 8)) := by
  obtain ⟨loaded, clusters⟩ := State.issue_load_port whole can
  have cluster := State.cluster_of_clusters clusters (c / 8)
  intro a sem t
  have reads (k : Nat) (names : a = k) : t.greg c g = (s.drawn.portRead c k).1 := names ▸ loaded
  refine ⟨fun ch served => ?_, fun unserved => ?_, fun low high lengthSem => ?_, fun four other => ?_⟩
  · obtain ⟨wp, rp⟩ := s.drawn.portRead_of_ring_served c (ch := ch) served
    have identity := s.drawn.portRead_identity_served c (ch := ch) served
    exact ⟨fun at0 => (reads 0 at0).trans wp, fun at1 => (reads 1 at1).trans rp, fun at3 => (reads 3 at3).trans identity⟩
  · obtain ⟨wp, rp⟩ := s.drawn.portRead_of_ring_unserved c unserved
    have identity := s.drawn.portRead_identity_unserved c unserved
    refine ⟨?_, fun at3 => (reads 3 at3).trans identity⟩
    rintro (at0 | at1)
    · exact (reads 0 at0).trans wp
    · exact (reads 1 at1).trans rp
  · obtain ⟨read, set⟩ := s.drawn.portRead_semaphore c low high lengthSem
    exact ⟨loaded.trans read, (congrArg (fun x : ClusterSt => x.sems.getD (a - 8) 0) cluster).trans set⟩
  · have none := s.drawn.portRead_of_none c (show 4 ≤ a ∧ a < 8 ∨ 16 ≤ a by omega)
    rw [none] at loaded cluster
    exact ⟨loaded, cluster⟩

theorem State.issue_store_ports {s : State} {c : Core} {ys pm : Bool} {mop : BitVec 3} {ptr : BitVec 3} {g : BitVec 4}
    (store : mop = 2 ∨ mop = 3) (can : s.canIssue c (oneMove ys ⟨mop, 2, ptr, pm, g⟩) = true) :
    let a := s.pointer c ptr
    let t := s.issue c (oneMove ys ⟨mop, 2, ptr, pm, g⟩)
    t.cmem = s.cmem ∧ t.sram = s.sram ∧
      (∀ ch, a = 1 → s.served (c / 8) = some ch →
        if (s.reg (Reg.ceOutWp ch) - (s.greg c g).extractLsb' 0 32).toNat ≤ s.fld (Reg.ceOutLen ch) 16 0 then
          t.reg (Reg.ceOutRp ch) = (s.greg c g).extractLsb' 0 32
        else t.reg (Reg.ceOutRp ch) = s.reg (Reg.ceOutRp ch) ∧ t.rbit (Reg.clFault (c / 8)) 9 = true) ∧
      (8 ≤ a → a < 16 → (s.cluster (c / 8)).sems.length = 8 → (t.cluster (c / 8)).sems.getD (a - 8) 0 = s.greg c g) ∧
      (a < 8 ∨ 16 ≤ a → t.cluster (c / 8) = s.cluster (c / 8)) := by
  have left := State.issue_store (m := ⟨mop, 2, ptr, pm, g⟩) store can
  have ring := State.issue_store_ring (m := ⟨mop, 2, ptr, pm, g⟩) store can
  dsimp only at left ring
  rw [State.moveWrites_port store s c _ ptr pm g] at left ring
  obtain ⟨cmem, sram, clusters, -⟩ := left
  obtain ⟨outRp, portFault⟩ := ring
  obtain ⟨-, keptCmem, keptSram⟩ := s.portWrite_frame c (s.pointer c ptr) (s.greg c g)
  have cluster := State.cluster_of_clusters clusters (c / 8)
  intro a t
  refine ⟨cmem.trans keptCmem, sram.trans keptSram, fun ch at1 served => ?_, fun low high lengthSem => ?_, fun other => ?_⟩
  · have moved := outRp ch (State.served_lt served)
    have written := s.portWrite_ring c served (s.greg c g)
    rw [show s.pointer c ptr = 1 from at1] at moved portFault
    split
    · next fits =>
      rw [if_pos fits] at written
      exact moved.trans written
    · next refused =>
      rw [if_neg refused] at written
      exact ⟨moved.trans written.1, portFault written.2⟩
  · exact (congrArg (fun x : ClusterSt => x.sems.getD (a - 8) 0) cluster).trans
      (s.portWrite_semaphore c low high lengthSem (s.greg c g))
  · exact cluster.trans (State.cluster_of_clusters (s.portWrite_clusters c other (s.greg c g)) _)

/-- Settles O29, each command by what the issue of its one move reads, stores and writes back. -/
theorem moveInstructions : Obligations.MoveInstructions := by
  unfold Obligations.MoveInstructions
  refine ⟨?_, ?_, ?_, ?_, ?_, ?_, ?_, ?_, ?_, ?_, fun x i => postMod_of_linear x⟩
  · intro s c ys pm ptr g whole can
    obtain ⟨loaded, pointer, cmem, sram, -⟩ := State.issue_load whole can
    exact ⟨_, rfl, loaded.trans (State.moveReads_own s c), pointer, cmem, sram⟩
  · intro s c ys pm ptr g whole can
    obtain ⟨loaded, -, cmem, sram, -⟩ := State.issue_load whole can
    exact ⟨_, rfl, loaded.trans (State.moveReads_shared s c), cmem, sram⟩
  · intro s c ys pm ptr g whole at2 can
    obtain ⟨loaded, -⟩ := State.issue_load_port whole can
    rw [State.pointer, at2] at loaded
    exact ⟨_, rfl, loaded⟩
  · intro s c ys pm ptr g whole can
    exact ⟨_, rfl, State.issue_load_ports whole can⟩
  · intro s c ys pm std ptr g can
    have store : (if std then 3 else 2 : BitVec 3) = 2 ∨ (if std then 3 else 2 : BitVec 3) = 3 := by cases std <;> decide
    exact ⟨_, exec_store c ys std pm 2 ptr g s, State.issue_store_ports store can⟩
  · intro s c ys pm ptr g can
    obtain ⟨cmem, sram, -, -⟩ := State.issue_store (.inr rfl) can
    obtain ⟨stored, kept⟩ := State.moveWrites_shared (mop := 3) s c (if ys then 1 else 0) ptr pm g
    exact ⟨_, rfl, sram.trans stored, cmem.trans kept, (State.issue_std_bexp can).1⟩
  · intro s c ys pm ptr g can
    obtain ⟨cmem, sram, -, registers⟩ := State.issue_store (.inl rfl) can
    obtain ⟨stored, kept⟩ := State.moveWrites_own (.inl rfl) s c (if ys then 1 else 0) ptr pm g
    exact ⟨_, rfl, cmem.trans stored, sram.trans kept, registers⟩
  · intro s c ys pm ptr g can
    obtain ⟨cmem, sram, -, -⟩ := State.issue_store (.inl rfl) can
    obtain ⟨stored, kept⟩ := State.moveWrites_shared (mop := 2) s c (if ys then 1 else 0) ptr pm g
    exact ⟨_, rfl, sram.trans stored, cmem.trans kept⟩
  · intro s c ys pm ptr g can
    obtain ⟨cmem, -, -, -⟩ := State.issue_store (.inr rfl) can
    obtain ⟨stored, -⟩ := State.moveWrites_own (.inr rfl) s c (if ys then 1 else 0) ptr pm g
    obtain ⟨detects, exponents⟩ := State.issue_std_bexp can
    exact ⟨_, rfl, cmem.trans stored, detects, exponents⟩
  · intro s c ys ptr whole can
    exact ⟨_, rfl, State.issue_modify whole can⟩

end Sys2Proof.Machine
end

section
/-!
PROOFS. A frame that goes to the zones and out, and a capture that ends: what they may touch at most, so that the chains, the
phases of UNWRAP and the gauges of BAND are found as they were left (R154, R160, R255, R266).
-/
namespace Sys2Proof.Machine

/-- t differs from s at most in what a frame that goes out and a capture that ends may touch: the last frames, the queues, SRAM, the
zones, the captures, and what the service of DRAM may touch. -/
def State.SendOnly (s t : State) : Prop :=
  ∃ f q r z c, State.ServeOnly { s with frames := f, queues := q, sram := r, zoneSts := z, caps := c } t

section
variable {s t u : State}

theorem State.ServeOnly.sendOnly (h : s.ServeOnly t) : s.SendOnly t := ⟨s.frames, s.queues, s.sram, s.zoneSts, s.caps, h⟩

theorem State.SendOnly.refl (s : State) : s.SendOnly s := (State.ServeOnly.refl s).sendOnly

theorem State.SendOnly.trans (h : s.SendOnly t) (k : t.SendOnly u) : s.SendOnly u := by
  obtain ⟨f, q, r, z, c, w, d, o, b, m, g, v, x, y, n, p, rfl⟩ := h
  obtain ⟨f', q', r', z', c', w', d', o', b', m', g', v', x', y', n', p', rfl⟩ := k
  exact ⟨f', q', r', z', c', w', d', o', b', m', g', v', x', y', n', p', rfl⟩

theorem State.SendOnly.sent {f q r z c} (h : s.SendOnly t) :
    s.SendOnly { t with frames := f, queues := q, sram := r, zoneSts := z, caps := c } :=
  h.trans ⟨f, q, r, z, c, .refl _⟩

theorem State.SendOnly.serve (h : s.SendOnly t) (k : t.ServeOnly u) : s.SendOnly u := h.trans k.sendOnly

/-- What a queue of frames does with one more (R318, R319). -/
theorem State.SendOnly.queueFrame {p q : Prop} {_ : Decidable p} {_ : Decidable q} {v a n b m : Nat} {x y : QueueSt}
    (h : s.SendOnly t) :
    s.SendOnly ((if p then if q then t.setQueue v x else ((t.setQueue v y).count a n).fault b m else t).event v) := by
  refine State.SendOnly.serve ?_ (State.event_raiseOnly _ v).serveOnly
  split
  · split
    · exact h.sent
    · exact State.SendOnly.serve h.sent (State.ServeOnly.refl _).countFault
  · exact h

theorem State.SendOnly.zoneFrame {src ch : Nat} {view : W72 → FrameView} (h : s.SendOnly t) :
    s.SendOnly (t.zoneFrame src ch view) := by
  unfold State.zoneFrame
  split
  · exact h
  · exact forEach_keeps s.SendOnly _ _ t (fun _ _ kept => kept.sent) h

theorem State.SendOnly.capEnd {ch : Nat} (h : s.SendOnly t) : s.SendOnly (t.capEnd ch) := by
  refine forEach_keeps s.SendOnly _ _ t (fun _ u kept => ?_) h
  split
  · split
    · exact kept.sent
    · exact kept
  · exact kept

theorem State.SendOnly.frameOut {ch kind : Nat} {ws : List W72} (h : s.SendOnly t) : s.SendOnly (t.frameOut ch kind ws) := by
  have drawn (u : State) (k : s.SendOnly u) : s.SendOnly u.drawn := k.serve u.drawn_raiseOnly.serveOnly
  unfold State.frameOut
  dsimp only
  split
  · exact (drawn _ h.sent).sent.queueFrame
  · split
    · exact ((drawn _ h.sent).serve (State.ServeOnly.refl _).dramWriteMany).queueFrame
    · exact (drawn _ h.sent).queueFrame

/-- A frame that goes out leaves the chains, the phases and what BAND keeps by gauge alone. -/
theorem State.SendOnly.frame (h : s.SendOnly t) : t.chains = s.chains ∧ t.phis = s.phis ∧ t.bands = s.bands := by
  obtain ⟨f, q, r, z, c, w, d, o, b, m, g, v, x, y, n, p, rfl⟩ := h
  exact ⟨rfl, rfl, rfl⟩

end

end Sys2Proof.Machine
end

section
/-!
PROOFS. Vibration (O36), PHASE and UNWRAP: what a record adds to the increments, what a shot makes of the phases and of the PHASE4
frame, and the clear of the header ring (R149 to R155, R165).
-/
namespace Sys2Proof.Machine

/-! ## PHASE (R149, R151) -/

/-- A fold whose every step adds one to a measure. -/
theorem foldl_measure {α β : Type} (n : β → Nat) (f : β → α → β) (l : List α) (b : β) (one : ∀ b a, n (f b a) = n b + 1) :
    n (l.foldl f b) = n b + l.length := by
  induction l generalizing b with
  | nil => rfl
  | cons a l ih => rw [List.foldl_cons, ih, one, List.length_cons]; omega

theorem phaseRows_length (c : VibCfg) (ch : Nat) (z : Nat → Nat → Nat → Int × Int) (st : Store (Option Int)) :
    (phaseRows c ch z st).1.length = vibRows c := by
  unfold phaseRows
  rw [foldl_measure (fun acc : List (List (Int × Nat)) × Store (Option Int) => acc.1.length) _ _ _
    fun _ _ => List.length_append, List.length_range]
  exact Nat.zero_add _

section
variable (s : State) (ch : Nat) (sh : ChainShot) (r : RecOut)

/-- What PHASE adds to the increments of a channel by a shot's record, none of it where the record was discarded (R149, R151). -/
theorem State.phaseTake_chain : ∃ x : IncSt,
    (s.phaseTake ch sh r).chain ch = { s.chain ch with incs := (s.chain ch).incs ++ [x] } ∧ x.shot = sh ∧ x.dropped = !r.full ∧
      (r.full = false → x.hold = true ∧ x.w1 = r.w1 ∧ x.w2 = 0 ∧ x.dc = [] ∧ x.amp = []) ∧
      (r.full = true → x.w1 = s.recordWord ch r 1 ∧ x.w2 = s.recordWord ch r 2 ∧
        x.hold = (x.w1.getLsbD 71 || x.w1.getLsbD 70) ∧
        (x.w1.getLsbD 71 = false → x.dc.length = vibRows sh.cfg ∧ x.amp.length = vibRows sh.cfg)) := by
  unfold State.phaseTake
  dsimp only
  rw [State.chain_setChain_same]
  refine ⟨_, rfl, rfl, rfl, fun discarded => ?_, fun whole => ?_⟩
  · simp only [discarded, Bool.false_and, Bool.not_false, Bool.true_or, Bool.false_eq_true, if_false, List.map_nil, and_self]
  · simp only [whole, if_true, Bool.not_true, Bool.false_or, Bool.true_and, true_and]
    intro launched
    simp only [launched, Bool.not_false, if_true, List.length_map, phaseRows_length, and_self]

theorem State.chain_setCe (k : Nat) (x : CeSt) (j : Nat) : (s.setCe k x).chain j = s.chain j := rfl

theorem State.consume_chain (k : Nat) : (s.consume ch r).chain k = s.chain k := by
  unfold State.consume
  dsimp only
  split <;> rfl

end

section
variable {s : State} {ch : Chan} {sh : ChainShot} {rest : List ChainShot}

/-- A record in the ring for the oldest shot moves that shot on with what PHASE makes of it. -/
theorem exec_phaseRecord_of_record {r : RecOut} (shots : s.chainShots ch = sh :: rest)
    (record : (s.ce ch).out.find? (fun r => decide (r.index = sh.index)) = some r) : ∃ t, exec (.phaseRecord ch) s = .next t ∧
      t.chain ch = { (s.phaseTake ch sh r).chain ch with shots := rest } := by
  change ∃ t, execPhaseRecord ch s = _ ∧ _
  simp only [execPhaseRecord, shots, record]
  refine ⟨_, rfl, ?_⟩
  rw [State.chain_setChain_same, State.chain_setCe, State.consume_chain]

theorem exec_phaseRecord_of_none (shots : s.chainShots ch = sh :: rest)
    (none : (s.ce ch).out.find? (fun r => decide (r.index = sh.index)) = none) : exec (.phaseRecord ch) s = .next s := by
  change execPhaseRecord ch s = _
  simp only [execPhaseRecord, shots, none]

end

/-- A branch below SLOT_MIN adds nothing and is not valid (R149). -/
theorem phaseBranch_of_weak {m : Nat} {a b : Int × Int} (prev : Option Int)
    (weak : mag (sat (rne (a.1 * b.1 + a.2 * b.2) 35) 36) (sat (rne (a.2 * b.1 - a.1 * b.2) 35) 36) < m) :
    phaseBranch m a b prev = ((0, 0), none) := by
  unfold phaseBranch
  exact if_pos weak

/-! ## UNWRAP (R150, R154, R155) -/

theorem unwrapRows_length (c : VibCfg) (ch : Nat) (x : IncSt) (phis : Store (Int × Int)) :
    (unwrapRows c ch x phis).length = vibRows c := by
  unfold unwrapRows
  rw [foldl_measure List.length _ _ _ fun _ _ => List.length_append, List.length_range]
  exact Nat.zero_add _

/-! One gauge, in the 16-bit range of its phase and predictor. -/

theorem wrap16_range (x : Int) : -32768 ≤ wrap x 16 ∧ wrap x 16 ≤ 32767 := by
  simp only [wrap]
  split <;> omega

theorem wrap16_emod (x : Int) : wrap x 16 % 65536 = x % 65536 := by
  simp only [wrap]
  split <;> omega

/-- The phase of row 0 moves on by its increment in the 16-bit range, and a step larger than π has quality STEP (R150, R152). -/
theorem unwrapGauge_of_strong {c : VibCfg} {amp : Nat} (strong : c.fade ≤ amp) (dc phi v phi0 : Int) :
    let step := v + wrap (dc - v) 16
    let u := unwrapGauge c 0 false dc amp phi v phi0
    u.1 = wrap (phi + step) 16 ∧ (u.2.2 = 1 ↔ 32768 < step.natAbs) := by
  have clear : ¬(false || decide (amp < c.fade)) = true := by simp [strong]
  simp only [unwrapGauge, if_neg clear]
  refine ⟨if_neg (by decide), ?_⟩
  split
  · omega
  · split <;> omega

/-- What UNWRAP keeps of channel ch between its own changes: the phases, and the increments that wait. -/
structure State.UnwrapKept (ch : Nat) (s t : State) : Prop where
  phis : t.phis = s.phis
  incs : (t.chain ch).incs = (s.chain ch).incs

section
variable {ch : Nat} {s t u : State}

theorem State.UnwrapKept.refl (ch : Nat) (s : State) : s.UnwrapKept ch s := ⟨rfl, rfl⟩

theorem State.UnwrapKept.send (h : s.UnwrapKept ch t) (k : t.SendOnly u) : s.UnwrapKept ch u := by
  obtain ⟨chains, phis, -⟩ := k.frame
  exact ⟨phis.trans h.phis, by rw [State.chain, chains]; exact h.incs⟩

theorem State.UnwrapKept.setChain {x : ChainSt} (h : s.UnwrapKept ch t) (same : x.incs = (t.chain ch).incs) :
    s.UnwrapKept ch (t.setChain ch x) :=
  ⟨h.phis, by rw [State.chain_setChain_same, same, h.incs]⟩

theorem State.UnwrapKept.setOdv {idx sub v : Nat} (h : s.UnwrapKept ch t) : s.UnwrapKept ch (t.setOdv idx sub v) :=
  ⟨h.phis, h.incs⟩

theorem State.UnwrapKept.capEnd (h : s.UnwrapKept ch t) : s.UnwrapKept ch (t.capEnd ch) := h.send (State.SendOnly.refl t).capEnd

theorem State.UnwrapKept.ringShape {c : VibCfg} (h : s.UnwrapKept ch t) : s.UnwrapKept ch (t.ringShape ch c) := by
  unfold State.ringShape
  dsimp only
  split
  · exact h.setChain rfl
  · exact .capEnd (h.setChain rfl)

theorem State.UnwrapKept.historyWrite {index : BitVec 48} {head data : List W72} (h : s.UnwrapKept ch t) :
    s.UnwrapKept ch (t.historyWrite ch index head data) := by
  unfold State.historyWrite
  dsimp only
  split
  · exact h
  · refine State.UnwrapKept.setChain (h.send (State.ServeOnly.sendOnly ?_)) rfl
    exact ((((State.ServeOnly.refl t).dramWrite _ _ _).dramWriteMany.dramWrite _ _ _).dramWriteMany).dramWrite _ _ _

theorem State.UnwrapKept.bandShot {sh : ChainShot} {last : Option Nat} (h : s.UnwrapKept ch t) :
    s.UnwrapKept ch (t.bandShot ch sh last) := by
  unfold State.bandShot
  dsimp only
  split
  · split
    · exact h.setChain rfl
    · exact h
  · split
    · exact h.setChain rfl
    · exact h

/-- UNWRAP leaves the phases its rows give and the frame they form, and the increments that wait as they were (R150, R154). -/
theorem State.unwrapTake_frame (s : State) (ch : Nat) (x : IncSt) :
    let phis := if x.shot.restart then s.phis.dropRange (65536 * 8 * ch) (65536 * 8 * (ch + 1)) else s.phis
    let rows := unwrapRows x.shot.cfg ch x phis
    let t := s.unwrapTake ch x
    t.phis = phisAfter ch rows phis ∧ (t.chain ch).incs = (s.chain ch).incs ∧
      t.frames.get [] (4 * ch) = phase4Header ch x rows ++ rows.flatMap phase4Row := by
  intro phis rows t
  have written := (State.UnwrapKept.refl ch { s with phis := phisAfter ch rows phis }).ringShape (c := x.shot.cfg)
    |>.historyWrite (index := x.shot.index) (head := phase4Header ch x rows) (data := rows.flatMap phase4Row)
  have kept : State.UnwrapKept ch { s with phis := phisAfter ch rows phis } t := by
    refine State.UnwrapKept.send ?_ (State.SendOnly.refl _).frameOut
    split
    · exact written.bandShot.setOdv.setOdv.send (State.SendOnly.refl _).zoneFrame
    · exact (written.bandShot.setOdv.setOdv.send (State.SendOnly.refl _).zoneFrame).setChain rfl
  exact ⟨kept.phis, kept.incs, State.frameOut_last _ ch 0 _⟩

end

theorem exec_unwrapShot_of_first {s : State} {ch : Chan} {x : IncSt} {rest : List IncSt} (first : (s.chain ch).incs = x :: rest) :
    exec (.unwrapShot ch) s = .next ((s.setChain ch { s.chain ch with incs := rest }).unwrapTake ch x) := by
  change execUnwrapShot ch s = _
  simp only [execUnwrapShot, first]

/-! ## The header ring (R165) -/

section
variable {s : State} {ch : Chan}

theorem exec_headerRingClear_of_due (due : (s.chain ch).clearDue = true) (on : s.histEn ch = true) :
    ∃ t, exec (.headerRingClear ch) s = .next t ∧ (t.chain ch).clearDue = false ∧
      t.dram = (State.dramWriteMany (List.replicate (4 * s.odv (odHist ch) 5) 0) (s.odv (odHist ch) 4) s).dram := by
  change ∃ t, execHeaderRingClear ch s = _ ∧ _
  simp only [execHeaderRingClear, due, on, Bool.not_true, Bool.or_self, Bool.false_eq_true, if_false]
  exact ⟨_, rfl, by rw [State.chain_setChain_same], rfl⟩

theorem exec_headerRingClear_of_idle (idle : (s.chain ch).clearDue = false ∨ s.histEn ch = false) :
    exec (.headerRingClear ch) s = .next s := by
  change execHeaderRingClear ch s = _
  unfold execHeaderRingClear
  refine if_pos ?_
  obtain idle | off := idle
  · rw [idle]; rfl
  · rw [off]; exact Bool.or_true _

end

end Sys2Proof.Machine
end

section
/-!
PROOFS. Vibration (O36), BAND: the next sample, the end of a band frame, and the obligation (R157 to R160).
-/
namespace Sys2Proof.Machine

/-! ## A sample (R157, R160) -/

section
variable {s : State} {ch : Nat}

/-- With no restart due, BAND's place stands. -/
theorem State.bandRestart_of_none (none : (s.chain ch).band.stops = []) : s.bandRestart ch = s.setChain ch (s.chain ch) := by
  have same : { (s.chain ch).band with stops := [] } = (s.chain ch).band := by rw [← none]
  simp only [State.bandRestart, none, bandJumps, same]
  rfl

theorem State.bandReady_setChain_self : (s.setChain ch (s.chain ch)).bandReady ch = s.bandReady ch := by
  simp only [State.bandReady, State.bandRoom, State.ringShots, State.histW, State.chain_setChain_same]
  rfl

theorem State.bandSample_next : ((s.bandSample ch).chain ch).band.next = (s.chain ch).band.next + 1 :=
  congrArg (·.band.next) (State.chain_setChain_same _ _ _)

theorem State.bandTake_of_going (going : s.bandEn ch ≠ 0 ∨ (s.chain ch).band.next % 2 ^ s.odv (odVib ch) 10 ≠ 0) :
    s.bandTake ch = s.bandSample ch := by
  unfold State.bandTake
  exact if_neg (not_and_or.mpr going)

theorem State.bandTake_of_end (off : s.bandEn ch = 0) (start : (s.chain ch).band.next % 2 ^ s.odv (odVib ch) 10 = 0) :
    ((s.bandTake ch).chain ch).band.active = false := by
  unfold State.bandTake
  dsimp only
  rw [if_pos ⟨off, start⟩, State.chain_setChain_same]

end

/-- Where no frame waits and no restart is due, BAND takes the next sample once the ring has it. -/
theorem exec_bandSample_of_idle {s : State} {ch : Chan} (idle : (s.chain ch).band.due = false)
    (none : (s.chain ch).band.stops = []) : exec (.bandSample ch) s =
      .next (if s.bandReady ch then (s.setChain ch (s.chain ch)).bandTake ch else s.setChain ch (s.chain ch)) := by
  change execBandSample ch s = _
  simp only [execBandSample, idle, Bool.false_eq_true, if_false, State.bandRestart_of_none none, State.bandReady_setChain_self]

/-- A sample of quality 0 counts as faded and enters as 0 (R157). -/
theorem bandGauge_of_faded (cfg : List BandCfg) (phi : Int) (b : BandG) : let t := bandGauge cfg phi 0 b
    t.n0 = b.n0 + 1 ∧ t.n1 = b.n1 ∧ t.n2 = b.n2 ∧ t.x1 = 0 ∧ t.vb = 0 :=
  ⟨rfl, rfl, rfl, rfl, rfl⟩

/-! ## A band frame (R158, R159) -/

theorem Store.get_setMany_range {α : Type} [DecidableEq α] (d : α) {n g : Nat} (hg : g < n) (base : Nat) (f : Nat → α)
    (m : Store α) : (Store.setMany d ((List.range n).map fun g => (base + g, f g)) m).get d (base + g) = f g := by
  have once : (((List.range n).map fun g => (base + g, f g)).map Prod.fst).Nodup := by
    rw [List.map_map]
    exact List.nodup_range.map fun a b same => Nat.add_left_cancel same
  exact Store.get_setMany_of_mem d once (List.mem_map.mpr ⟨g, List.mem_range.mpr hg, rfl⟩) m

/-- A gauge as a band frame starts has its counts and its sums at 0 (R158, R159). -/
theorem bandFresh_clear (old new : List BandCfg) (b : BandG) : let t := bandFresh old new b
    t.n0 = 0 ∧ t.n1 = 0 ∧ t.n2 = 0 ∧ ∀ f ∈ t.filt, f.es = 0 := by
  refine ⟨rfl, rfl, rfl, fun f mem => ?_⟩
  obtain ⟨i, inside, rfl⟩ := List.mem_mapIdx.mp mem
  dsimp only
  split <;> rfl

/-- What a band frame holds and leaves (R158, R159). -/
theorem exec_bandFrameEnd_of_due {s : State} {ch : Chan} (due : (s.chain ch).band.due = true) :
    let b := (s.chain ch).band
    let gauge (g : Nat) := s.bands.get {} (65536 * ch + g)
    ∃ t, exec (.bandFrameEnd ch) s = .next t ∧ t.chain ch = { s.chain ch with
        band := { b with due := false, inFrame := false, restart := false } } ∧
      t.frames.get [] (4 * ch + 1) = bandHeader ch b.vib b ++ (List.range (vibG b.vib)).flatMap (fun g => bandWords b (gauge g)) ∧
      ∀ g, g < vibG b.vib → t.bands.get {} (65536 * ch + g) = bandFresh b.cfg b.cfg (gauge g) := by
  intro b gauge
  change ∃ t, execBandFrameEnd ch s = _ ∧ _
  simp only [execBandFrameEnd, due, Bool.not_true, Bool.false_eq_true, if_false, List.flatMap_map]
  obtain ⟨chains, -, bands⟩ := ((State.SendOnly.refl _).zoneFrame.frameOut).frame
  refine ⟨_, rfl, ?_, State.frameOut_last _ ch 1 _, fun g hg => ?_⟩
  · rw [State.chain, chains]
    exact State.chain_setChain_same _ _ _
  · rw [bands]
    exact Store.get_setMany_range {} hg (65536 * ch) _ s.bands

/-- An energy is limited to 32 bits (R158). -/
theorem bandEnergy_lt (c : BandCfg) (k : Nat) (f : FiltSt) : bandEnergy c k f < 2 ^ 32 := by
  unfold bandEnergy satu
  split <;> omega

theorem bandEnergy_of_off {c : BandCfg} (off : c.on = false) (k : Nat) (f : FiltSt) : bandEnergy c k f = 0 := by
  rw [bandEnergy, off]
  rfl

/-! ## The obligation -/

/-- Settles O36: the commands of PHASE, UNWRAP and BAND by what each leaves in the chain, and one gauge of each role by the values
it gets. -/
theorem vibrationAndBandChains : Obligations.VibrationAndBandChains := by
  refine ⟨⟨?record, ?noShot, fun _ _ _ _ => exec_phaseRecord_of_none, ?edge, fun _ _ _ => phaseBranch_of_weak, ?held, ?moved, ?shot,
    ?noIncs, fun _ _ => exec_headerRingClear_of_due, fun _ _ => exec_headerRingClear_of_idle⟩,
    ?sample, ?ends, ?stands, ?waits, bandGauge_of_faded, ?step, ?frame, ?noFrame, ?energy⟩
  case record =>
    intro s ch sh rest r shots record
    obtain ⟨t, next, chain⟩ := exec_phaseRecord_of_record shots record
    obtain ⟨x, taken, increments⟩ := s.phaseTake_chain ch sh r
    exact ⟨t, x, next, by rw [chain], by rw [chain, taken], increments⟩
  case noShot =>
    intro s ch none
    change execPhaseRecord ch s = _
    simp only [execPhaseRecord, none]
  case edge =>
    intro c ch t g z st edge
    exact if_pos edge
  case held =>
    intro c hold dc phi v phi0 amp held
    exact if_pos held
  case moved =>
    intro c dc phi v phi0 amp strong
    obtain ⟨phase, quality⟩ := unwrapGauge_of_strong strong dc phi v phi0
    obtain ⟨low, high⟩ := wrap16_range (phi + (v + wrap (dc - v) 16))
    have stepped := wrap16_emod (dc - v)
    rw [phase]
    refine ⟨?_, low, high, quality⟩
    rw [wrap16_emod]
    omega
  case shot =>
    intro s ch x rest first phis rows
    obtain ⟨phases, incs, frame⟩ := (s.setChain ch { s.chain ch with incs := rest }).unwrapTake_frame ch x
    rw [State.chain_setChain_same] at incs
    exact ⟨_, exec_unwrapShot_of_first first, incs, phases, frame, unwrapRows_length _ _ _ _⟩
  case noIncs =>
    intro s ch none
    change execUnwrapShot ch s = _
    simp only [execUnwrapShot, none]
  case sample =>
    intro s ch idle none ready going
    refine ⟨_, exec_bandSample_of_idle idle none, ?_⟩
    have same := State.chain_setChain_same s ch (s.chain ch)
    rw [if_pos ready, State.bandTake_of_going (by rw [same]; exact going), State.bandSample_next, same]
  case ends =>
    intro s ch idle none ready off start
    refine ⟨_, exec_bandSample_of_idle idle none, ?_⟩
    rw [if_pos ready]
    exact State.bandTake_of_end off (by rw [State.chain_setChain_same]; exact start)
  case stands =>
    intro s ch idle none unready
    refine ⟨_, exec_bandSample_of_idle idle none, ?_⟩
    rw [unready]
    exact State.chain_setChain_same _ _ _
  case waits =>
    intro s ch due
    change execBandSample ch s = _
    simp only [execBandSample, due, if_true]
  case step =>
    intro cfg phi q b good
    exact ⟨incOf_step good phi b.phiLast b.vb, rfl, rfl⟩
  case frame =>
    intro s ch due
    obtain ⟨t, next, chain, words, gauges⟩ := exec_bandFrameEnd_of_due due
    refine ⟨t, next, by rw [chain], by rw [chain], words, fun g hg => ?_⟩
    rw [gauges g hg]
    exact bandFresh_clear _ _ _
  case noFrame =>
    intro s ch idle
    change execBandFrameEnd ch s = _
    simp only [execBandFrameEnd, idle, Bool.not_false, if_true]
  case energy =>
    intro c k f
    exact ⟨bandEnergy_lt c k f, fun off => bandEnergy_of_off off k f⟩

end Sys2Proof.Machine
end

section
/-!
PROOFS. A parallel instruction with any move slots (R228): what its two slots load and leave, and what its write back makes of the
G registers and of the flags.
-/
namespace Sys2Proof.Machine

/-! ## What stands after the write back: SSTAT -/

/-- Time that passes and the next address leave SSTAT (R205). -/
theorem State.tail_sstat (s : State) (c t n stalls pc : Nat) (gives : List (Nat × Nat)) :
    (((s.coreTime c t n stalls gives).sequence c pc).core c).sstat = (s.core c).sstat := by
  have timed : ((s.coreTime c t n stalls gives).core c).sstat = (s.core c).sstat := by
    simp only [State.coreTime, State.count, State.core_setReg, State.core_setCore_same]
  have faulted (u : State) (why addr : Nat) : ((u.coreFault c why addr).core c).sstat = (u.core c).sstat := by
    rw [State.coreFault, State.core_of_cores (State.fault_moveFrame _ _ _).1, State.core_setCore_same]
  refine Eq.trans ?_ timed
  unfold State.sequence
  dsimp only
  split
  · rw [faulted, State.core_setCore_same]
  · rw [State.core_setCore_same]

/-! ## The move slots -/

/-- The G register a move slot loads, if it loads one. -/
def moveDest (m : MoveF) : List Nat := if moveLoads m then [m.greg.toNat] else []

section
variable (s : State) (c : Nat) (x y : MoveF)

/-- What the slots of an instruction load, the latency of each load, and the state that leaves (R226, R228). -/
def State.slotsLoaded : List (Nat × W72) × List (Nat × Nat) × State :=
  let grants := s.slotGrants c x y
  grants.2.2.slotLoads c x y grants.1 grants.2.1

/-- The state the slots of an instruction leave before its write back: stores come after loads (R228). -/
def State.slotsStored : State :=
  let stores (u : State) (own : Nat) (m : MoveF) : State :=
    if moveStores m then u.slotStore c own m.space (s.pointer c m.ptr) (nth (s.core c).g m.greg.toNat 0) else u
  stores (stores (s.slotsLoaded c x y).2.2 0 x) 1 y

theorem State.slotGrant_cores (before : Option (Nat × Nat)) : (s.slotGrant c x before).2.cores = s.cores := by
  unfold State.slotGrant
  dsimp only
  split_ifs <;> rfl

theorem State.slotGrants_cores : (s.slotGrants c x y).2.2.cores = s.cores :=
  (State.slotGrant_cores _ c y _).trans (s.slotGrant_cores c x none)

theorem State.slotLoads_frame (nx ny : Nat) : (s.slotLoads c x y nx ny).2.2.cores = s.cores ∧
    (s.slotLoads c x y nx ny).1.map Prod.fst = moveDest x ++ moveDest y := by
  have loads (u : State) (own : Nat) (m : MoveF) (a : Nat) : (u.slotLoad c own m.space a).2.cores = u.cores :=
    (u.slotLoad_frame c own m.space a).1
  unfold State.slotLoads
  cases loadX : moveLoads x with
  | false => cases loadY : moveLoads y with
    | false => simp [moveDest, loadX, loadY]
    | true => simp [moveDest, loadX, loadY, loads]
  | true => cases loadY : moveLoads y with
    | false => simp [moveDest, loadX, loadY, loads]
    | true => simp [moveDest, loadX, loadY, loads]

theorem State.slotsStored_cores : (s.slotsStored c x y).cores = s.cores := by
  have stores (u : State) (own : Nat) (m : MoveF) (a : Nat) (v : W72) :
      (if moveStores m then u.slotStore c own m.space a v else u).cores = u.cores := by
    split
    · exact u.slotStore_cores c own m.space a v
    · rfl
  exact (stores _ _ _ _ _).trans ((stores _ _ _ _ _).trans
    ((State.slotLoads_frame _ c x y _ _).1.trans (s.slotGrants_cores c x y)))

/-- The word of C a compute slot reads (R230). -/
def State.slotWord (sl : Slot) : W72 :=
  match slotC sl with
  | some p => s.cmem.get 0 (cmemKey c 2 (nth (s.core c).p p 0).toNat)
  | none => 0

/-- The slots' loads and stores, the write back, and then time and the sequence. -/
theorem State.parallel_eq (sl : Slot) : ∃ det mods t n stalls gives, s.parallel c sl x y =
    (((s.slotsStored c x y).setCore c (writeBack ((s.slotsStored c x y).core c) (s.core c).pc
      (slotEffect (s.core c) (s.slotWord c sl) sl) (s.slotsLoaded c x y).1 det mods)).coreTime c t n stalls gives).sequence c
        (s.core c).pc :=
  ⟨_, _, _, _, _, _, rfl⟩

/-- After a parallel instruction G and SSTAT are what its write back makes of the core it found. -/
theorem State.parallel_g_sstat (sl : Slot) : ∃ loads det mods, loads.map Prod.fst = moveDest x ++ moveDest y ∧
    let w := writeBack (s.core c) (s.core c).pc (slotEffect (s.core c) (s.slotWord c sl) sl) loads det mods
    ((s.parallel c sl x y).core c).g = w.g ∧ ((s.parallel c sl x y).core c).sstat = w.sstat := by
  obtain ⟨det, mods, t, n, stalls, gives, parallel⟩ := s.parallel_eq c x y sl
  have core : (s.slotsStored c x y).core c = s.core c := State.core_of_cores (s.slotsStored_cores c x y) c
  refine ⟨(s.slotsLoaded c x y).1, det, mods, (State.slotLoads_frame _ c x y _ _).2, ?_, ?_⟩
  · rw [parallel, (State.passes_tail _ c t n stalls _ gives).g, State.core_setCore_same, core]
  · rw [parallel, State.tail_sstat, State.core_setCore_same, core]

end

/-! ## The write back of an effect -/

theorem getD_foldl_setNth_of_notMem {d : Nat} (l : List (Nat × W72)) (g : List W72) (fresh : d ∉ l.map Prod.fst) :
    (l.foldl (fun g w => setNth g w.1 w.2) g).getD d 0 = g.getD d 0 := by
  induction l generalizing g with
  | nil => rfl
  | cons w l ih =>
    simp only [List.map_cons, List.mem_cons, not_or] at fresh
    obtain ⟨ne, rest⟩ := fresh
    rw [List.foldl_cons, ih _ rest, setNth, List.getD_eq_getElem?_getD, List.getElem?_set_ne (Ne.symm ne),
      List.getD_eq_getElem?_getD]

section
variable {x : CoreSt} {pc d : Nat} {e : Effect} {loads : List (Nat × W72)} {det : Option Nat} {mods : List Nat} {r : W72}

/-- The one result of an effect stands in its register where no load takes that register. -/
theorem writeBack_g_result (noSpecial : e.sr = none) (result : e.gs = [(d, r)]) (fresh : d ∉ loads.map Prod.fst)
    (inside : d < x.g.length) : (writeBack x pc e loads det mods).g.getD d 0 = r := by
  have written : (writeBack x pc e loads det mods).g = loads.foldl (fun g w => setNth g w.1 w.2) (x.g.set d r) := by
    simp only [writeBack, noSpecial, result]
    rfl
  rw [written, getD_foldl_setNth_of_notMem _ _ fresh, List.getD_eq_getElem?_getD, List.getElem?_set_self inside, Option.getD_some]

/-- The sticky flags a write back sets lie above Z, N, V and C. -/
theorem writeBack_flag (noSpecial : e.sr = none) {i : Nat} (low : i < 4) :
    (writeBack x pc e loads det mods).sstat.getLsbD i = (newFlags (BitVec.ofNat 4 x.sstat.toNat) e).getLsbD i := by
  have masks : ∀ i < 4, (0xFFF0 : BitVec 16).getLsbD i = false ∧ (0x40 : BitVec 16).getLsbD i = false ∧
      (0x10 : BitVec 16).getLsbD i = false ∧ (0x20 : BitVec 16).getLsbD i = false := by decide
  obtain ⟨kept, saturated, overflowed, forced⟩ := masks i low
  have inside : i < 16 := by omega
  simp only [writeBack, noSpecial]
  split_ifs <;> simp only [BitVec.getLsbD_or, BitVec.getLsbD_and, BitVec.getLsbD_setWidth, kept, saturated, overflowed, forced, inside,
    decide_true, Bool.true_and, Bool.and_false, Bool.false_or, Bool.or_false]

theorem getLsbD_withBit {w i : Nat} (v : BitVec w) (b : Bool) (j : Nat) (inside : i < w) :
    (withBit v i b).getLsbD j = if j = i then b else v.getLsbD j := bitOf_withBit v b j inside

/-- Each flag is the one an effect gives, or else as it was (R242). -/
theorem newFlags_flags (f : BitVec 4) (e : Effect) : (newFlags f e).getLsbD 3 = e.z.getD (f.getLsbD 3) ∧
    (newFlags f e).getLsbD 2 = e.n.getD (f.getLsbD 2) ∧ (newFlags f e).getLsbD 1 = e.v.getD (f.getLsbD 1) ∧
    (newFlags f e).getLsbD 0 = e.c.getD (f.getLsbD 0) := by
  simp only [newFlags, getLsbD_withBit _ _ _ (show 3 < 4 by decide), getLsbD_withBit _ _ _ (show 2 < 4 by decide),
    getLsbD_withBit _ _ _ (show 1 < 4 by decide), getLsbD_withBit _ _ _ (show 0 < 4 by decide)]
  exact ⟨rfl, rfl, rfl, rfl⟩

end

/-! ## The issue of a form R instruction -/

section
variable {s : State} {c : Core} {op : BitVec 7} {f : FormR} {x y : MoveF} {e : Effect} {r : W72}

theorem State.ok_of_canIssue {i : Soric} (can : s.canIssue c i = true) : i.ok (s.core c).pc = true := by
  simp only [State.canIssue, Bool.and_eq_true, Option.isNone_iff_eq_none] at can
  obtain ⟨-, noFault⟩ := can
  unfold State.issueFault at noFault
  dsimp only at noFault
  split at noFault
  · cases noFault
  · next legal => simpa using legal

/-- No load of an instruction that can issue takes a register its compute slot writes (R229). -/
theorem State.notMem_moveDest_of_canIssue {sl : Slot} (can : s.canIssue c (.par sl x y) = true) {d : Nat} (dest : d ∈ sl.dests) :
    d ∉ moveDest x ++ moveDest y := by
  have legal := State.ok_of_canIssue can
  simp only [Soric.ok, partsOk, Bool.and_eq_true, decide_eq_true_eq] at legal
  obtain ⟨-, ⟨once, -⟩, -⟩ := legal
  rw [List.append_assoc] at once
  exact List.disjoint_of_nodup_append once dest

/-- The effect of a form R compute slot of core c, with the operands it reads (R230). -/
def State.formREffect (s : State) (c : Nat) (op : Nat) (f : FormR) : Effect :=
  effR (s.core c) op f (s.greg c f.sa) (s.operandB c f)

theorem State.slotEffect_reg (s : State) (c : Nat) (op : BitVec 7) (f : FormR) :
    slotEffect (s.core c) (s.slotWord c (.reg op f)) (.reg op f) = s.formREffect c op.toNat f := by
  simp only [slotEffect, State.slotWord, slotC, State.formREffect, State.operandB, State.greg, nth]
  cases f.cs with
  | true => rfl
  | false => rfl

/-- An instruction of form R that writes no special register leaves the flags its effect gives. -/
theorem State.issue_reg_flags (can : s.canIssue c (.par (.reg op f) x y) = true) (effect : s.formREffect c op.toNat f = e)
    (noSpecial : e.sr = none) : let t := s.issue c (.par (.reg op f) x y)
    t.flag c 3 = e.z.getD (s.flag c 3) ∧ t.flag c 2 = e.n.getD (s.flag c 2) ∧ t.flag c 1 = e.v.getD (s.flag c 1) ∧
      t.flag c 0 = e.c.getD (s.flag c 0) := by
  intro t
  obtain ⟨loads, det, mods, -, -, sstat⟩ := s.parallel_g_sstat c x y (.reg op f)
  rw [State.slotEffect_reg, effect] at sstat
  have acts : t = s.parallel c (.reg op f) x y := State.issue_of_canIssue can
  have flag {i : Nat} (low : i < 4) : t.flag c i = (newFlags (BitVec.ofNat 4 (s.core c).sstat.toNat) e).getLsbD i := by
    rw [State.flag, acts, sstat, writeBack_flag noSpecial low]
  have before {i : Nat} (low : i < 4) : (BitVec.ofNat 4 (s.core c).sstat.toNat).getLsbD i = s.flag c i := by
    rw [BitVec.getLsbD_ofNat, BitVec.testBit_toNat, decide_eq_true low, Bool.true_and, State.flag]
  have given := newFlags_flags (BitVec.ofNat 4 (s.core c).sstat.toNat) e
  simpa only [← flag (show 3 < 4 by decide), ← flag (show 2 < 4 by decide), ← flag (show 1 < 4 by decide),
    ← flag (show 0 < 4 by decide), before (show 3 < 4 by decide), before (show 2 < 4 by decide), before (show 1 < 4 by decide),
    before (show 0 < 4 by decide)] using given

/-- An instruction of form R with one result takes it, and the flags its effect gives. -/
theorem State.issue_reg_took (whole : (s.core c).sized = true) (can : s.canIssue c (.par (.reg op f) x y) = true)
    (dest : f.d.toNat ∈ (Slot.reg op f).dests) (effect : s.formREffect c op.toNat f = e) (noSpecial : e.sr = none)
    (result : e.gs = [(f.d.toNat, r)]) : s.tookResult (s.issue c (.par (.reg op f) x y)) c f.d r e.z e.n e.v e.c := by
  refine ⟨?_, State.issue_reg_flags can effect noSpecial⟩
  obtain ⟨loads, det, mods, names, g, -⟩ := s.parallel_g_sstat c x y (.reg op f)
  rw [State.slotEffect_reg, effect] at g
  have inside : f.d.toNat < (s.core c).g.length := by have := (CoreSt.sized_g_p whole).1; have := f.d.isLt; omega
  have acts : s.issue c (.par (.reg op f) x y) = s.parallel c (.reg op f) x y := State.issue_of_canIssue can
  rw [State.greg, acts, g]
  exact writeBack_g_result noSpecial result (names ▸ State.notMem_moveDest_of_canIssue can dest) inside

theorem State.issue_reg_tookZN (whole : (s.core c).sized = true) (can : s.canIssue c (.par (.reg op f) x y) = true)
    (dest : f.d.toNat ∈ (Slot.reg op f).dests) (effect : s.formREffect c op.toNat f = effZN f.d.toNat r) :
    s.tookZN (s.issue c (.par (.reg op f) x y)) c f.d r :=
  State.issue_reg_took whole can dest effect rfl rfl

theorem State.issue_reg_tookZNV {v : Bool} (whole : (s.core c).sized = true) (can : s.canIssue c (.par (.reg op f) x y) = true)
    (dest : f.d.toNat ∈ (Slot.reg op f).dests) (effect : s.formREffect c op.toNat f = effZNV f.d.toNat r v) :
    s.tookZNV (s.issue c (.par (.reg op f) x y)) c f.d r v :=
  State.issue_reg_took whole can dest effect rfl rfl

end

end Sys2Proof.Machine
end

section
/-!
PROOFS. The values of MULL, DIVR and LNQ (R232), and O20.
-/
namespace Sys2Proof.Machine

/-- A number that wraps to another lies outside the 72-bit range. -/
theorem wrap72_ne_iff (x : Int) : wrap x 72 ≠ x ↔ x < -2 ^ 71 ∨ 2 ^ 71 ≤ x := by
  simp only [wrap]
  omega

theorem effMull_eq (d : Nat) (a b : W72) :
    effMull d a b = effZNV d (a * b) (decide (a.toInt * b.toInt < -2 ^ 71 ∨ 2 ^ 71 ≤ a.toInt * b.toInt)) := by
  rw [effMull]
  congr 1
  exact decide_eq_decide.mpr (wrap72_ne_iff _)

theorem effDivr_eq (d : Nat) (a b : W72) :
    effDivr d a b = effZNV d (if b.toInt ≤ 0 then 0 else BitVec.ofInt 72 (divr a.toInt b.toInt)) (decide (b.toInt ≤ 0)) := by
  unfold effDivr ww
  split
  · next low => rw [decide_eq_true low]
  · next high => rw [decide_eq_false high]; rfl

theorem effLnq_eq (d : Nat) (a : W72) :
    effLnq d a = effZNV d (if a.toInt ≤ 0 then 0 else BitVec.ofInt 72 (lnq a.toNat)) (decide (a.toInt ≤ 0)) := by
  unfold effLnq ww
  split
  · next low => rw [decide_eq_true low]
  · next high =>
    have unsigned : a.toInt.toNat = a.toNat := by
      have := BitVec.toInt_eq_toNat_cond a
      split at this <;> omega
    rw [decide_eq_false high, unsigned]
    rfl

/-- The quotient by a positive number, from that of the magnitudes. -/
theorem divr_of_pos (a : Int) {b : Int} (pos : 0 < b) :
    divr a b = if 0 ≤ a then (2 * a + b) / (2 * b) else -((2 * -a + b) / (2 * b)) := by
  simp only [divr, pos.ne', if_false, pos.le, eq_iff_iff, iff_true]
  split
  · next sign => push_cast; rw [abs_of_pos pos, abs_of_nonneg sign]
  · next sign => push_cast; rw [abs_of_pos pos, abs_of_neg (not_le.mp sign)]

/-- The nearest integer to a quotient by a positive number, ties away from zero. -/
theorem divr_nearest (a : Int) {b : Int} (pos : 0 < b) : 2 * (divr a b * b - a).natAbs ≤ b.natAbs ∧
    (2 * (divr a b * b - a).natAbs = b.natAbs → a.natAbs < (divr a b * b).natAbs) := by
  have nearest (m q : Int) (quotient : q = (2 * m + b) / (2 * b)) : -b < 2 * (q * b - m) ∧ 2 * (q * b - m) ≤ b := by
    have floor := Int.mul_ediv_self_le (x := 2 * m + b) (k := 2 * b) (by omega)
    have floor' := Int.lt_mul_ediv_self_add (x := 2 * m + b) (k := 2 * b) (by omega)
    rw [← quotient, mul_assoc, mul_comm b q] at floor floor'
    omega
  rw [divr_of_pos a pos]
  split
  · next sign =>
    obtain ⟨low, high⟩ := nearest a _ rfl
    generalize (2 * a + b) / (2 * b) * b = p at low high ⊢
    omega
  · next sign =>
    obtain ⟨low, high⟩ := nearest (-a) _ rfl
    rw [neg_mul]
    generalize (2 * -a + b) / (2 * b) * b = p at low high ⊢
    omega

/-- Settles O20, each instruction by its effect: a form R instruction takes its one result and the flags of its effect. -/
theorem scalarLogicProductsAndQuotients : Obligations.ScalarLogicProductsAndQuotients := by
  unfold Obligations.ScalarLogicProductsAndQuotients
  intro s c f x y whole
  refine ⟨fun can => ⟨_, rfl, State.issue_reg_flags can rfl rfl⟩, fun can => ⟨_, rfl, ?and⟩, fun can => ⟨_, rfl, ?or⟩,
    fun can => ⟨_, rfl, ?xor⟩, fun can => ⟨_, rfl, ?andn⟩, fun can => ⟨_, rfl, ?mull⟩,
    fun can => ⟨_, rfl, ?divr, fun pos => divr_nearest _ pos⟩, fun can => ⟨_, rfl, ?lnq⟩⟩
  case and => exact State.issue_reg_tookZN whole can (List.mem_singleton_self _) rfl
  case or => exact State.issue_reg_tookZN whole can (List.mem_singleton_self _) rfl
  case xor => exact State.issue_reg_tookZN whole can (List.mem_singleton_self _) rfl
  case andn => exact State.issue_reg_tookZN whole can (List.mem_singleton_self _) rfl
  case mull => exact State.issue_reg_tookZNV whole can (List.mem_singleton_self _) (effMull_eq _ _ _)
  case divr => exact State.issue_reg_tookZNV whole can (List.mem_singleton_self _) (effDivr_eq _ _ _)
  case lnq => exact State.issue_reg_tookZNV whole can (List.mem_singleton_self _) (effLnq_eq _ _)

end Sys2Proof.Machine
end

section
/-!
PROOFS. The natural logarithm of LNQ (R172): what each fixed-point operation loses, what the 64 terms of fxAtanh lose together, and
O26.
-/
namespace Sys2Proof.Machine

/-! ## Fixed-point values that lie below a real number -/

/-- The fixed-point value a lies below the real number r, by at most e units of its last place. -/
def FxBelow (e : ℝ) (a : Int) (r : ℝ) : Prop := (a : ℝ) ≤ 2 ^ prec * r ∧ 2 ^ prec * r ≤ a + e

theorem two_pow_prec_pos : (0 : ℝ) < 2 ^ prec := by positivity

section
variable {e f r t : ℝ} {a b : Int}

theorem FxBelow.mono (h : FxBelow e a r) (le : e ≤ f) : FxBelow f a r := ⟨h.1, h.2.trans (by gcongr)⟩

theorem FxBelow.add (h : FxBelow e a r) (k : FxBelow f b t) : FxBelow (e + f) (a + b) (r + t) := by
  obtain ⟨low, high⟩ := h
  obtain ⟨low', high'⟩ := k
  constructor <;> push_cast <;> linarith

theorem FxBelow.natMul (h : FxBelow e a r) (n : Nat) : FxBelow (n * e) (n * a) (n * r) := by
  have scaled := mul_le_mul_of_nonneg_left h.1 n.cast_nonneg
  have scaled' := mul_le_mul_of_nonneg_left h.2 n.cast_nonneg
  constructor <;> push_cast <;> linarith

/-- A quotient rounded down, as the real numbers have it. -/
theorem ediv_bounds (x : Int) {d : Int} (pos : 0 < d) : ((x / d : Int) : ℝ) ≤ x / d ∧ (x : ℝ) / d ≤ (x / d : Int) + 1 := by
  have posR : (0 : ℝ) < d := Int.cast_pos.mpr pos
  rw [le_div_iff₀ posR, div_le_iff₀ posR]
  exact ⟨mod_cast Int.ediv_mul_le x pos.ne', mod_cast (Int.lt_ediv_add_one_mul_self x pos).le⟩

/-- A quotient taken into fixed point loses one unit. -/
theorem fxBelow_quotient (x : Int) {d : Int} (pos : 0 < d) : FxBelow 1 (x * 2 ^ prec / d) (x / d) := by
  have bounds := ediv_bounds (x * 2 ^ prec) pos
  push_cast at bounds
  rw [FxBelow, ← mul_div_assoc, mul_comm (2 ^ prec : ℝ)]
  exact bounds

/-- A quotient by a whole number loses one unit more. -/
theorem FxBelow.ediv (h : FxBelow e a r) (nonneg : 0 ≤ e) {k : Int} (pos : 1 ≤ k) : FxBelow (e + 1) (a / k) (r / k) := by
  obtain ⟨low, high⟩ := h
  obtain ⟨floor, floor'⟩ := ediv_bounds a pos
  have posR : (1 : ℝ) ≤ k := mod_cast pos
  have lost : e / k ≤ e := div_le_self nonneg posR
  rw [FxBelow, ← mul_div_assoc]
  constructor
  · exact floor.trans (by gcongr)
  · calc 2 ^ prec * r / k ≤ (a + e) / k := by gcongr
      _ = a / k + e / k := add_div _ _ _
      _ ≤ (a / k : Int) + (e + 1) := by linarith

/-- A product loses what each factor loses, scaled by the other, and one unit. -/
theorem FxBelow.fxMul (h : FxBelow e a r) (k : FxBelow f b t) (ha : 0 ≤ a) (hb : 0 ≤ b) :
    FxBelow (e * t + f * r + 1) (fxMul a b) (r * t) := by
  obtain ⟨low, high⟩ := h
  obtain ⟨low', high'⟩ := k
  have haR : (0 : ℝ) ≤ a := mod_cast ha
  have hbR : (0 : ℝ) ≤ b := mod_cast hb
  obtain ⟨floor, floor'⟩ := ediv_bounds (a * b) (pow_pos two_pos prec : (0 : Int) < 2 ^ prec)
  push_cast at floor floor'
  have product : (a * b : ℝ) ≤ 2 ^ prec * r * (2 ^ prec * t) := mul_le_mul low low' hbR (haR.trans low)
  have product' : 2 ^ prec * r * (2 ^ prec * t) ≤ (a * b : ℝ) + 2 ^ prec * (e * t + f * r) := by
    have left : 2 ^ prec * r * (2 ^ prec * t - b) ≤ 2 ^ prec * r * f := mul_le_mul_of_nonneg_left (by linarith) (haR.trans low)
    have right : b * (2 ^ prec * r - a) ≤ 2 ^ prec * t * e :=
      mul_le_mul low' (by linarith) (by linarith) (hbR.trans low')
    linarith
  rw [FxBelow, Machine.fxMul]
  constructor
  · refine floor.trans ((div_le_iff₀ two_pow_prec_pos).mpr (product.trans_eq (by ring)))
  · have scaled : 2 ^ prec * (r * t) ≤ (a * b : ℝ) / 2 ^ prec + (e * t + f * r) := by
      rw [← mul_le_mul_iff_right₀ two_pow_prec_pos, mul_add, mul_div_cancel₀ _ two_pow_prec_pos.ne']
      linarith
    linarith

end

theorem fxMul_nonneg {a b : Int} (ha : 0 ≤ a) (hb : 0 ≤ b) : 0 ≤ fxMul a b :=
  Int.ediv_nonneg (mul_nonneg ha hb) (by positivity)

/-- The integer nearest to a fixed-point value. -/
theorem abs_sub_fxNearest_le (a : Int) : |(a : ℝ) / 2 ^ prec - fxNearest a| ≤ 1 / 2 := by
  obtain ⟨floor, floor'⟩ := ediv_bounds (a + fxOne / 2) (pow_pos two_pos prec : (0 : Int) < 2 ^ prec)
  have half : ((a + fxOne / 2 : Int) : ℝ) / ((2 ^ prec : Int) : ℝ) = a / 2 ^ prec + 1 / 2 := by
    have halved : fxOne / 2 = 2 ^ 199 := by decide
    rw [halved, prec]
    push_cast
    ring
  rw [half] at floor floor'
  rw [fxNearest, abs_le]
  constructor <;> linarith

/-! ## The series of fxAtanh -/

/-- The terms of fxAtanh, each at most three units of the last place below the real one. -/
theorem fxAtanh_below {z2 : Int} {q : ℝ} (z2_nonneg : 0 ≤ z2) (square : FxBelow 2 z2 q) (q_nonneg : 0 ≤ q) (small : q ≤ 1 / 9)
    (n : Nat) {p k : Int} {v : ℝ} (p_nonneg : 0 ≤ p) (power : FxBelow 2 p v) (v_nonneg : 0 ≤ v) (v_small : v ≤ 1 / 3) (k_pos : 1 ≤ k) :
    FxBelow (3 * n) (fxAtanh z2 n p k) (∑ i ∈ Finset.range n, v * q ^ i / (k + 2 * i)) := by
  induction n generalizing p k v with
  | zero => simp [FxBelow, fxAtanh]
  | succ n ih =>
    have next : FxBelow 2 (fxMul p z2) (v * q) := (power.fxMul square p_nonneg z2_nonneg).mono (by linarith)
    have smaller : v * q ≤ 1 / 3 := by nlinarith
    have rest := ih (k := k + 2) (fxMul_nonneg p_nonneg z2_nonneg) next (mul_nonneg v_nonneg q_nonneg) smaller (by omega)
    have first : FxBelow 3 (p / k) (v / k) := (power.ediv zero_le_two k_pos).mono (by norm_num)
    have both := first.add rest
    rw [Finset.sum_range_succ', fxAtanh]
    convert both using 1
    · push_cast; ring
    · rw [add_comm]
      congr 1
      · simp
      · refine Finset.sum_congr rfl fun i _ => ?_
        push_cast
        ring

/-! ## The logarithms -/

/-- Of the series of the inverse hyperbolic tangent of at most 1 / 3, what follows its first 64 terms is below a unit of the last
place. -/
theorem atanh_tail_le {w : ℝ} (nonneg : 0 ≤ w) (small : w ≤ 1 / 3) : 2 ^ prec * (2 * (w ^ (2 * 64 + 1) / (1 - w ^ 2))) ≤ 1 := by
  have power : w ^ (2 * 64 + 1) ≤ (1 / 3) ^ (2 * 64 + 1) := by gcongr
  have square : w ^ 2 ≤ (1 / 3) ^ 2 := by gcongr
  calc 2 ^ prec * (2 * (w ^ (2 * 64 + 1) / (1 - w ^ 2)))
      ≤ 2 ^ prec * (2 * ((1 / 3) ^ (2 * 64 + 1) / (1 - (1 / 3) ^ 2))) := by gcongr
    _ ≤ 1 := by rw [prec]; norm_num

/-- The terms of fxAtanh for an argument of at most 1 / 3, doubled, come to a logarithm. -/
theorem two_mul_fxAtanh_below {z : Int} {w : ℝ} (z_nonneg : 0 ≤ z) (argument : FxBelow 1 z w) (nonneg : 0 ≤ w) (small : w ≤ 1 / 3) :
    FxBelow 385 (2 * fxAtanh (fxMul z z) 64 z 1) (Real.log ((1 + w) / (1 - w))) := by
  have square : FxBelow 2 (fxMul z z) (w * w) := (argument.fxMul argument z_nonneg z_nonneg).mono (by linarith)
  have series := fxAtanh_below (fxMul_nonneg z_nonneg z_nonneg) square (mul_nonneg nonneg nonneg) (by nlinarith) 64 (k := 1)
    z_nonneg (argument.mono one_le_two) nonneg small le_rfl
  have terms : ∑ i ∈ Finset.range 64, w * (w * w) ^ i / (((1 : Int) : ℝ) + 2 * i) =
      ∑ i ∈ Finset.range 64, w ^ (2 * i + 1) / (2 * i + 1) := by
    refine Finset.sum_congr rfl fun i _ => ?_
    push_cast
    ring
  rw [terms] at series
  obtain ⟨series_low, series_high⟩ := series.natMul 2
  have below := mul_le_mul_of_nonneg_left (Real.sum_range_le_log_div nonneg (by linarith) 64) two_pow_prec_pos.le
  have above := mul_le_mul_of_nonneg_left (Real.log_div_le_sum_range_add nonneg (by linarith) 64) two_pow_prec_pos.le
  have tail := atanh_tail_le nonneg small
  push_cast at series_low series_high
  constructor
  · push_cast
    linarith
  · push_cast
    linarith

/-- The argument of the inverse hyperbolic tangent for the logarithm of a quotient. -/
theorem one_add_div_one_sub {a b : ℝ} (ne : a + b ≠ 0) : (1 + (a - b) / (a + b)) / (1 - (a - b) / (a + b)) = a / b := by
  rw [one_add_div ne, one_sub_div ne, div_div_div_cancel_right₀ ne, show a + b + (a - b) = 2 * a by ring,
    show a + b - (a - b) = 2 * b by ring, mul_div_mul_left _ _ two_ne_zero]

/-- The logarithm of a quotient from 1 to 2. -/
theorem fxLnSmall_below {a b : Nat} (pos : 0 < b) (low : b ≤ a) (high : a ≤ 2 * b) :
    FxBelow 385 (fxLnSmall a b) (Real.log (a / b)) := by
  have posR : (0 : ℝ) < b := mod_cast pos
  have lowR : (b : ℝ) ≤ a := mod_cast low
  have highR : (a : ℝ) ≤ 2 * b := mod_cast high
  have argument := fxBelow_quotient (a - b) (show (0 : Int) < a + b by omega)
  push_cast at argument
  rw [← one_add_div_one_sub (show (a + b : ℝ) ≠ 0 by linarith)]
  refine two_mul_fxAtanh_below (Int.ediv_nonneg (mul_nonneg (by omega) (by positivity)) (by omega)) argument
    (div_nonneg (by linarith) (by linarith)) ?_
  rw [div_le_iff₀ (by linarith)]
  linarith

/-- The logarithm of a whole number, from that of its mantissa and that of 2. -/
theorem fxLn_below {x : Nat} (pos : 1 ≤ x) : FxBelow (385 * (x.log2 + 1)) (fxLn x) (Real.log x) := by
  have low : 2 ^ x.log2 ≤ x := Nat.log2_self_le (by omega)
  have high : x ≤ 2 * 2 ^ x.log2 := by have := @Nat.lt_log2_self x; omega
  have mantissa := fxLnSmall_below (pow_pos two_pos _) low high
  have two := (fxLnSmall_below one_pos one_le_two le_rfl).natMul x.log2
  have parts : Real.log x = Real.log (x / (2 ^ x.log2 : Nat)) + x.log2 * Real.log ((2 : Nat) / (1 : Nat)) := by
    rw [Real.log_div (by positivity) (by positivity)]
    push_cast
    rw [Real.log_pow, div_one, sub_add_cancel]
  rw [parts, fxLn]
  exact (mantissa.add two).mono (by linarith)

/-- Settles O26: the 64 terms and the 200 fraction bits leave the logarithm far less than 2^-100 before it is rounded. -/
theorem logarithmOfLnq : Obligations.LogarithmOfLnq := by
  unfold Obligations.LogarithmOfLnq
  intro x pos high
  have bits : (x.log2 : ℝ) ≤ 70 := by
    have : x.log2 < 71 := (Nat.log2_lt (by omega)).mpr high
    exact mod_cast (show x.log2 ≤ 70 by omega)
  obtain ⟨below, above⟩ := (fxLn_below pos).mono (f := 2 ^ 76) (by linarith)
  have rounded := abs_sub_fxNearest_le (2 ^ 24 * fxLn x)
  rw [abs_le] at rounded ⊢
  rw [lnq]
  push_cast [prec] at rounded below above
  constructor <;> linarith

end Sys2Proof.Machine
end

section
/-!
PROOFS. The commands that are instructions of a core (O27, O32): each issues its instruction, and what refuses an issue.
-/
namespace Sys2Proof.Machine

/-- A command that is an instruction of a core issues it. -/
theorem exec_of_coreWord {i : Instr} {c : Core} {w : Soric} (word : coreWord i = some (c, w)) (s : State) :
    exec i s = .next (s.issue c w) := by
  unfold coreWord at word
  split at word
  all_goals cases word
  all_goals rfl

/-- Settles O32: the command at the front issues, and an issue keeps a whole state whole. -/
theorem coreInstructionsKeepStateWellFormed : Obligations.CoreInstructionsKeepStateWellFormed := by
  intro s t i rest c w front word mem cores stepped
  have issued : step s = .next (State.issue { s with pending := rest } c w) := by
    rw [← exec_of_coreWord word, step, front]
  obtain rfl : State.issue { s with pending := rest } c w = t := Host.Outcome.next.inj (issued.symm.trans stepped)
  have start : Whole rest { s with pending := rest } := ⟨mem, cores, rfl⟩
  obtain ⟨mem', cores', queue⟩ := start.issue (c := c) (i := w)
  exact ⟨mem', cores', queue⟩

/-! ## What an issue comes to (R210, R211, R248) -/

section
variable {s : State} {c : Nat} {w : Soric}

theorem State.issue_of_idle (idle : (s.core c).mode ≠ .running ∨ (s.core c).vendor = true ∨ s.stalled = true) :
    s.issue c w = s := if_pos idle

theorem State.issue_of_issueFault {why : Nat} (running : (s.core c).mode = .running) (user : (s.core c).vendor = false)
    (awake : s.stalled = false) (refused : s.issueFault c w = some why) : s.issue c w = s.coreFault c why (s.core c).pc := by
  have acts : ¬((s.core c).mode ≠ .running ∨ (s.core c).vendor = true ∨ s.stalled = true) := by
    simp only [running, user, awake, ne_eq, not_true_eq_false, Bool.false_eq_true, or_self, not_false_eq_true]
  rw [State.issue, if_neg acts, refused]

theorem State.issueFault_of_illegal (illegal : w.ok (s.core c).pc = false) : s.issueFault c w = some whyIllegal := by
  simp only [State.issueFault, illegal, Bool.not_false, if_true]

/-- A legal LOOP faults as a third level, and as a second one that ends beyond the level around it (R245). -/
theorem State.issueFault_of_loop {rc : Bool} {a : BitVec 4} {n : BitVec 16} {e : BitVec 11}
    (legal : (Soric.loop rc a n e).ok (s.core c).pc = true) :
    (2 ≤ (s.core c).loops.length → s.issueFault c (.loop rc a n e) = some whyLoop) ∧
    (∀ o, (s.core c).loops = [o] → s.issueFault c (.loop rc a n e) = if o.last < e.toNat then some whyLoop else none) ∧
    ((s.core c).loops = [] → s.issueFault c (.loop rc a n e) = none) := by
  unfold State.issueFault
  simp only [legal, Bool.not_true, Bool.false_eq_true, if_false]
  refine ⟨fun two => ?_, fun o one => ?_, fun none => ?_⟩
  · match loops : (s.core c).loops with
    | [] => simp [loops] at two
    | [_] => simp [loops] at two
    | _ :: _ :: _ => rfl
  · rw [one]
  · rw [none]

/-- BR and JMP fault where they end more levels than are active (R244). -/
theorem State.issueFault_of_branch {cc a : BitVec 4} {tg : BitVec 11} {n : BitVec 2} :
    s.issueFault c (.br cc tg n) = (if (s.core c).loops.length < n.toNat then some whyLoop else none) ∧
    s.issueFault c (.jmp cc a n) = if (s.core c).loops.length < n.toNat then some whyLoop else none := ⟨rfl, rfl⟩

/-- A legal parallel instruction faults for its C pointer and for the addresses of its slots (R230, R248). -/
theorem State.issueFault_of_par {sl : Slot} {x y : MoveF} (legal : (Soric.par sl x y).ok (s.core c).pc = true) :
    s.issueFault c (.par sl x y) =
      if ((slotC sl).any fun p => decide (2048 ≤ (nth (s.core c).p p 0).toNat)) || s.slotAddrBad c x || s.slotAddrBad c y then
        some whyAddr else none := by
  simp only [State.issueFault, legal, Bool.not_true, Bool.false_eq_true, if_false]
  cases slotC sl with
  | none => rfl
  | some p => rfl

end

theorem spaceSize_eq (space : BitVec 2) : spaceSize space = if space = 0 then 4096 else if space = 1 then 65536 else 64 := by
  revert space
  decide

/-! ## What makes an instruction illegal (R227, R229, R237, R241, R245, R247) -/

/-- An extraction of more than 79 bits, or SAT or WRAP to 0 bits or to more than 72 (R237, R241). -/
theorem Slot.con_not_ok {op : BitVec 7} {f : FormK} (count : (op = 0x22 ∨ op = 0x23 ∨ op = 0x24) ∧ 79 < f.k.toNat ∨
    (op = 0x45 ∨ op = 0x47) ∧ (f.k = 0 ∨ 72 < f.k.toNat)) : (Slot.con op f).ok = false := by
  rcases count with ⟨rfl | rfl | rfl, big⟩ | ⟨rfl | rfl, zero | big⟩
  all_goals simp_all [Slot.ok, opRow]

theorem Slot.fld_not_ok {op : BitVec 7} {f : FormF} (beyond : 71 < f.k.toNat + f.w.toNat) : (Slot.fld op f).ok = false := by
  rw [Slot.ok]
  split
  · rfl
  · rw [decide_eq_false (Nat.not_le.mpr beyond), Bool.and_false]

theorem Soric.par_not_ok {sl : Slot} {x y : MoveF} {pc : Nat} (bad : sl.ok = false ∨ moveOk x = false ∨ moveOk y = false ∨
    ¬ (sl.dests ++ (if moveLoads x then [x.greg.toNat] else []) ++ (if moveLoads y then [y.greg.toNat] else [])).Nodup ∨
    ¬ (sl.cMods ++ (if moveMods x then [x.ptr.toNat] else []) ++ (if moveMods y then [y.ptr.toNat] else [])).Nodup) :
    (Soric.par sl x y).ok pc = false := by
  rw [Soric.ok, partsOk]
  rcases bad with slot | left | right | registers | pointers
  · rw [slot]; rfl
  · rw [left, Bool.and_false]; rfl
  · rw [right, Bool.and_false]; rfl
  · rw [decide_eq_false registers, Bool.false_and, Bool.false_and, Bool.and_false]
  · rw [decide_eq_false pointers, Bool.and_false, Bool.false_and, Bool.and_false]

/-- A body that ends before its first address (R245). -/
theorem Soric.loop_not_ok {rc : Bool} {a : BitVec 4} {n : BitVec 16} {e : BitVec 11} {pc : Nat} (short : e.toNat < pc + 1) :
    (Soric.loop rc a n e).ok pc = false := by
  rw [Soric.ok, decide_eq_false (Nat.not_le.mpr short), Bool.false_and]

/-- A message register that is no multiple of 4 (R246). -/
theorem Soric.message_not_ok {r : BitVec 4} (odd : r.toNat % 4 ≠ 0) (wt : Bool) (pc : Nat) :
    (Soric.send r).ok pc = false ∧ (Soric.recv r wt).ok pc = false ∧ (Soric.rbnc r wt).ok pc = false :=
  ⟨decide_eq_false odd, decide_eq_false odd, decide_eq_false odd⟩

/-- Settles O27: an issue by what the core does, and each fault by the check that finds it. -/
theorem coreCommandsIssueTheirInstruction : Obligations.CoreCommandsIssueTheirInstruction := by
  refine ⟨fun i c w s word can => ?_, fun i c w s why word running user awake refused => ?_, fun i c w s word idle => ?_,
    fun s c w illegal => State.issueFault_of_illegal illegal, fun op f count => Slot.con_not_ok count,
    fun op f beyond => Slot.fld_not_ok beyond, fun sl x y pc bad => Soric.par_not_ok bad,
    fun rc a n e pc short => Soric.loop_not_ok short, fun r wt pc odd => Soric.message_not_ok odd wt pc,
    fun s c rc a n e legal => State.issueFault_of_loop legal, fun s c cc a tg n => State.issueFault_of_branch,
    fun s c sl x y legal => ?_⟩
  · rw [exec_of_coreWord word, State.issue_of_canIssue can]
  · rw [exec_of_coreWord word, State.issue_of_issueFault running user awake refused]
    rfl
  · rw [exec_of_coreWord word, State.issue_of_idle idle]
  · rw [State.issueFault_of_par legal]
    simp only [State.slotAddrBad, spaceSize_eq]
    cases sl with
    | reg op f => cases cs : f.cs <;> simp only [slotC, cs] <;> rfl
    | con op f => rfl
    | fld op f => rfl

end Sys2Proof.Machine
end

section
/-!
PROOFS. Words by their bits, and the whole of what a core does after its registers are written: time passes and the PC goes on.
-/
namespace Sys2Proof.Machine

/-! ## Fields by their bits -/

theorem testBit_field {w : Nat} (v : BitVec w) (hi lo j : Nat) :
    (field v hi lo).testBit j = (decide (j < hi + 1 - lo) && v.getLsbD (j + lo)) := by
  rw [field, Nat.testBit_mod_two_pow, Nat.testBit_div_two_pow, BitVec.testBit_toNat]

theorem getLsbD_withField {w : Nat} (v : BitVec w) (hi lo x i : Nat) : (withField v hi lo x).getLsbD i =
    if lo ≤ i ∧ i ≤ hi then decide (i < w) && x.testBit (i - lo) else v.getLsbD i := by
  have mask : ((2 ^ (hi + 1 - lo) - 1) * 2 ^ lo).testBit i = decide (lo ≤ i ∧ i ≤ hi) := by
    rw [Nat.testBit_mul_two_pow, Nat.testBit_two_pow_sub_one, ← Bool.decide_and]
    exact decide_eq_decide.mpr (by omega)
  simp only [withField, BitVec.getLsbD_or, BitVec.getLsbD_and, BitVec.getLsbD_not, BitVec.getLsbD_ofNat, mask,
    Nat.testBit_mul_two_pow]
  by_cases inside : lo ≤ i ∧ i ≤ hi
  · by_cases word : i < w <;> simp [inside, word]
  · by_cases word : i < w
    · simp [inside, word]
    · simp [inside, word, BitVec.getLsbD_of_ge v i (by omega)]

/-- A field written with what it holds. -/
theorem withField_field {w : Nat} (v : BitVec w) (hi lo : Nat) : withField v hi lo (field v hi lo) = v := by
  refine BitVec.eq_of_getLsbD_eq fun i word => ?_
  rw [getLsbD_withField]
  split
  · next inside =>
    rw [testBit_field, decide_eq_true word, decide_eq_true (by omega : i - lo < hi + 1 - lo), Nat.sub_add_cancel inside.1,
      Bool.true_and, Bool.true_and]
  · rfl

/-- No class detected leaves BEXP (R206). -/
theorem detected_zero (v : BitVec 10) : detected v 0 = v := by rw [detected, Nat.max_zero, withField_field]

/-! ## Time and the next address -/

/-- From x to y time passes and the PC goes on: nothing but the state of the core, its addresses, its loops and its time changes, and
outside a loop no loop counter. -/
structure CoreSt.Ran (x y : CoreSt) : Prop where
  rest : y = { x with mode := y.mode, why := y.why, faultPc := y.faultPc, pc := y.pc, loops := y.loops, lc := y.lc, cycle := y.cycle,
                      ready := y.ready }
  level : x.loops = [] → y.loops = [] ∧ y.lc = x.lc

section
variable {x y z : CoreSt}

theorem CoreSt.Ran.trans (h : x.Ran y) (k : y.Ran z) : x.Ran z := by
  refine ⟨?_, fun outside => ?_⟩
  · rw [k.rest, h.rest]
  · obtain ⟨loops, lc⟩ := h.level outside
    obtain ⟨loops', lc'⟩ := k.level loops
    exact ⟨loops', lc'.trans lc⟩

theorem CoreSt.Ran.g (h : x.Ran y) : y.g = x.g := by rw [h.rest]
theorem CoreSt.Ran.acc (h : x.Ran y) : y.acc = x.acc := by rw [h.rest]
theorem CoreSt.Ran.bexp (h : x.Ran y) : y.bexp = x.bexp := by rw [h.rest]
theorem CoreSt.Ran.sstat (h : x.Ran y) : y.sstat = x.sstat := by rw [h.rest]
theorem CoreSt.Ran.govPc (h : x.Ran y) : y.govPc = x.govPc := by rw [h.rest]
theorem CoreSt.Ran.inbox (h : x.Ran y) : y.inbox = x.inbox := by rw [h.rest]
theorem CoreSt.Ran.bounce (h : x.Ran y) : y.bounce = x.bounce := by rw [h.rest]

/-- Outside a loop no special register changes (R205). -/
theorem CoreSt.Ran.special (h : x.Ran y) (outside : x.loops = []) (k : Nat) : y.special k = x.special k := by
  obtain ⟨loops, lc⟩ := h.level outside
  rw [h.rest]
  simp only [CoreSt.special, CoreSt.status, loops, lc, outside]

end

theorem CoreSt.ran_of_time (x : CoreSt) (cycle : Nat) (ready : Store Nat) : x.Ran { x with cycle := cycle, ready := ready } :=
  ⟨rfl, fun outside => ⟨outside, rfl⟩⟩

section
variable (s : State) (c : Nat)

theorem State.coreTime_core (t n stalls : Nat) (gives : List (Nat × Nat)) :
    (s.coreTime c t n stalls gives).core c = { s.core c with cycle := t + 1 + n, ready := readyAfter (s.core c) t gives } :=
  s.core_setCore_same c _

theorem State.coreFault_core (why pc : Nat) :
    (s.coreFault c why pc).core c = { s.core c with mode := .fault, why := why, faultPc := pc } := by
  rw [State.coreFault, State.core_of_cores (State.fault_moveFrame _ _ _).1, State.core_setCore_same]

theorem State.sequence_ran (pc : Nat) : (s.core c).Ran ((s.sequence c pc).core c) := by
  have goesOn (loops : List LoopSt) (lc : List (BitVec 16)) (next : Nat) (outside : (s.core c).loops = [] →
      loops = [] ∧ lc = (s.core c).lc) : (s.core c).Ran { s.core c with loops := loops, lc := lc, pc := next } := ⟨rfl, outside⟩
  have loopEnd_outside (next : Nat) (outside : (s.core c).loops = []) :
      (loopEnd pc (s.core c).lc (s.core c).loops.reverse next).1 = [] ∧
        (loopEnd pc (s.core c).lc (s.core c).loops.reverse next).2.1 = (s.core c).lc := by
    rw [outside]
    exact ⟨rfl, rfl⟩
  unfold State.sequence
  dsimp only
  split
  · rw [State.coreFault_core, State.core_setCore_same]
    exact ⟨rfl, loopEnd_outside _⟩
  · rw [State.core_setCore_same]
    exact goesOn _ _ _ (loopEnd_outside _)

theorem State.tail_ran (t n stalls pc : Nat) (gives : List (Nat × Nat)) :
    (s.core c).Ran (((s.coreTime c t n stalls gives).sequence c pc).core c) := by
  have timed := CoreSt.ran_of_time (s.core c) (t + 1 + n) (readyAfter (s.core c) t gives)
  rw [← s.coreTime_core c t n stalls gives] at timed
  exact timed.trans (State.sequence_ran _ c pc)

/-- Where no loop body ends and below the last address the next instruction follows. -/
theorem State.sequence_of_stays {s : State} {c pc : Nat} (below : pc < 2047)
    (stays : loopEnd pc (s.core c).lc (s.core c).loops.reverse (pc + 1) = ((s.core c).loops, (s.core c).lc, pc + 1)) :
    s.sequence c pc = s.setCore c { s.core c with pc := pc + 1 } := by
  unfold State.sequence
  simp only [stays]
  rw [if_neg (by omega), Nat.mod_eq_of_lt (by omega)]

theorem State.sequence_of_outside {s : State} {c pc : Nat} (outside : (s.core c).loops = []) (below : pc < 2047) :
    s.sequence c pc = s.setCore c { s.core c with pc := pc + 1 } := by
  refine State.sequence_of_stays below ?_
  rw [outside]
  rfl

/-- Inside a body the next instruction follows. -/
theorem State.sequence_of_inside {s : State} {c pc : Nat} {outer : List LoopSt} {l : LoopSt} (below : pc < 2047)
    (inner : (s.core c).loops = outer ++ [l]) (before : pc ≠ l.last) :
    s.sequence c pc = s.setCore c { s.core c with pc := pc + 1 } := by
  refine State.sequence_of_stays below ?_
  rw [inner, List.reverse_append, List.reverse_singleton, List.singleton_append, loopEnd, if_pos before, List.reverse_cons,
    List.reverse_reverse]

end

end Sys2Proof.Machine
end

section
/-!
PROOFS. A parallel instruction of any form (R228): the core after it, and what its write back makes of registers, accumulators,
flags and BEXP.
-/
namespace Sys2Proof.Machine

/-! ## The write back of an effect -/

theorem getLsbD_ite_or {w : Nat} (b : Bool) (v m : BitVec w) (i : Nat) :
    (if b then v ||| m else v).getLsbD i = (v.getLsbD i || b && m.getLsbD i) := by
  cases b with
  | true => rw [if_pos rfl, BitVec.getLsbD_or, Bool.true_and]
  | false => rw [if_neg Bool.false_ne_true, Bool.false_and, Bool.or_false]

section
variable {x : CoreSt} {pc : Nat} {e : Effect} {loads : List (Nat × W72)} {det : Option Nat} {mods : List Nat}

theorem writeBack_acc (noSpecial : e.sr = none) {n : Nat} {v : Int × Int} (result : e.acc = some (n, v)) :
    (writeBack x pc e loads det mods).acc = x.acc.set n v := by
  simp only [writeBack, noSpecial, result, setNth]

/-- GOV_PC keeps the address of the first overflow (R204). -/
theorem writeBack_govPc (noSpecial : e.sr = none) :
    (writeBack x pc e loads det mods).govPc = if e.gov && !x.sstat.getLsbD 4 then pc else x.govPc := by
  simp only [writeBack, noSpecial]

/-- The sticky flags set with an effect that saturates or overflows, or with a pointer forced to its base (R205). -/
theorem writeBack_sticky (noSpecial : e.sr = none) {i : Nat} (high : 4 ≤ i) (inside : i < 16) :
    (writeBack x pc e loads det mods).sstat.getLsbD i = (x.sstat.getLsbD i || e.satd && decide (i = 6) || e.gov && decide (i = 4) ||
      (mods.any fun k => (postMod x k).2) && decide (i = 5)) := by
  have masks : ∀ i < 16, 4 ≤ i → (0xFFF0 : BitVec 16).getLsbD i = true ∧ (0x40 : BitVec 16).getLsbD i = decide (i = 6) ∧
      (0x10 : BitVec 16).getLsbD i = decide (i = 4) ∧ (0x20 : BitVec 16).getLsbD i = decide (i = 5) := by decide
  obtain ⟨kept, saturated, overflowed, forced⟩ := masks i inside high
  have flagsBelow (f : BitVec 4) : (f.zeroExtend 16).getLsbD i = false := by
    rw [BitVec.getLsbD_setWidth, BitVec.getLsbD_of_ge f i high, Bool.and_false]
  have anyForced : ((mods.map fun k => (k, postMod x k)).any fun m => m.2.2) = mods.any fun k => (postMod x k).2 := by
    rw [List.any_map]; rfl
  simp only [writeBack, noSpecial, anyForced, getLsbD_ite_or, BitVec.getLsbD_or, BitVec.getLsbD_and, kept, flagsBelow, saturated,
    overflowed, forced, Bool.and_true, Bool.or_false]

/-- BEXP after a stage end and a detected class (R206), where no move detects one. -/
theorem writeBack_bexp (noSpecial : e.sr = none) : (writeBack x pc e loads none mods).bexp =
    detected (if e.stgend then stageEnd x.bexp else x.bexp) e.det := by
  simp only [writeBack, noSpecial]

theorem writeBack_p (noSpecial : e.sr = none) : (writeBack x pc e loads det mods).p =
    (mods.map fun k => (k, postMod x k)).foldl (fun p m => setNth p m.1 m.2.1) x.p := by
  simp only [writeBack, noSpecial]

/-- Two results of an effect stand in their registers where no load takes them. -/
theorem writeBack_g_results {a b : Nat} {r q : W72} (noSpecial : e.sr = none) (results : e.gs = [(a, r), (b, q)]) (other : a ≠ b)
    (freshA : a ∉ loads.map Prod.fst) (freshB : b ∉ loads.map Prod.fst) (insideA : a < x.g.length) (insideB : b < x.g.length) :
    (writeBack x pc e loads det mods).g.getD a 0 = r ∧ (writeBack x pc e loads det mods).g.getD b 0 = q := by
  have written : (writeBack x pc e loads det mods).g = loads.foldl (fun g w => setNth g w.1 w.2) ((x.g.set a r).set b q) := by
    simp only [writeBack, noSpecial, results]
    rfl
  constructor
  · rw [written, getD_foldl_setNth_of_notMem _ _ freshA, List.getD_eq_getElem?_getD, List.getElem?_set_ne other.symm,
      List.getElem?_set_self insideA, Option.getD_some]
  · have insideB' : b < (x.g.set a r).length := by rwa [List.length_set]
    rw [written, getD_foldl_setNth_of_notMem _ _ freshB, List.getD_eq_getElem?_getD, List.getElem?_set_self insideB', Option.getD_some]

end

/-- The flags stay where an effect gives none (R242). -/
theorem newFlags_none (f : BitVec 4) {e : Effect} (z : e.z = none) (n : e.n = none) (v : e.v = none) (c : e.c = none) :
    newFlags f e = f := by
  obtain ⟨flagZ, flagN, flagV, flagC⟩ := newFlags_flags f e
  simp only [z, n, v, c, Option.getD_none] at flagZ flagN flagV flagC
  refine BitVec.eq_of_getLsbD_eq fun i inside => ?_
  match i, inside with
  | 0, _ => exact flagC
  | 1, _ => exact flagV
  | 2, _ => exact flagN
  | 3, _ => exact flagZ

/-- MSR alone writes its special register and nothing else (R234). -/
theorem writeBack_special (x : CoreSt) (pc k : Nat) (v : W72) :
    writeBack x pc { sr := some (k, v) } [] none [] = x.setSpecial k v := by
  have flagsKept (y : BitVec 16) : (y &&& 0xFFF0) ||| (BitVec.ofNat 4 y.toNat).zeroExtend 16 = y := by
    have masks : ∀ i < 16, (0xFFF0 : BitVec 16).getLsbD i = decide (4 ≤ i) := by decide
    refine BitVec.eq_of_getLsbD_eq fun i inside => ?_
    rw [BitVec.getLsbD_or, BitVec.getLsbD_and, masks i inside, BitVec.getLsbD_setWidth, BitVec.getLsbD_ofNat, BitVec.testBit_toNat]
    by_cases low : i < 4 <;> simp [low, inside, Nat.not_le.mpr, Nat.not_lt.mp]
  have flags (f : BitVec 4) : newFlags f { sr := some (k, v) } = f := newFlags_none f rfl rfl rfl rfl
  simp only [writeBack, flags, flagsKept, detected_zero]
  rfl

/-! ## The core after a parallel instruction -/

section
variable (s : State) (c : Nat) (x y : MoveF)

/-- The class the slots detect (R206). -/
def State.slotsDetect : Option Nat :=
  let dets := (if x.mop = 3 then [detClass (nth (s.core c).g x.greg.toNat 0)] else []) ++
    (if y.mop = 3 then [detClass (nth (s.core c).g y.greg.toNat 0)] else [])
  if dets = [] then none else some (dets.foldl max 0)

/-- The pointers a parallel instruction post-modifies (R207). -/
def parMods (sl : Slot) (x y : MoveF) : List Nat :=
  sl.cMods ++ (if moveMods x then [x.ptr.toNat] else []) ++ (if moveMods y then [y.ptr.toNat] else [])

/-- The core a parallel instruction writes back. -/
def State.parWritten (sl : Slot) : CoreSt :=
  writeBack (s.core c) (s.core c).pc (slotEffect (s.core c) (s.slotWord c sl) sl) (s.slotsLoaded c x y).1 (s.slotsDetect c x y)
    (parMods sl x y)

theorem State.parallel_ran (sl : Slot) : (s.parWritten c x y sl).Ran ((s.parallel c sl x y).core c) := by
  have core : (s.slotsStored c x y).core c = s.core c := State.core_of_cores (s.slotsStored_cores c x y) c
  have ran (t n stalls : Nat) (gives : List (Nat × Nat)) :=
    State.tail_ran ((s.slotsStored c x y).setCore c (s.parWritten c x y sl)) c t n stalls (s.core c).pc gives
  simp only [State.core_setCore_same] at ran
  have parallel : ∃ t n stalls gives, s.parallel c sl x y = (((s.slotsStored c x y).setCore c
      (writeBack ((s.slotsStored c x y).core c) (s.core c).pc (slotEffect (s.core c) (s.slotWord c sl) sl) (s.slotsLoaded c x y).1
        (s.slotsDetect c x y) (parMods sl x y))).coreTime c t n stalls gives).sequence c (s.core c).pc := ⟨_, _, _, _, rfl⟩
  obtain ⟨t, n, stalls, gives, parallel⟩ := parallel
  rw [core] at parallel
  rw [parallel]
  exact ran t n stalls gives

/-- With no moves the write back is that of the compute slot alone. -/
theorem State.parWritten_alone (sl : Slot) : s.parWritten c noMove noMove sl =
    writeBack (s.core c) (s.core c).pc (slotEffect (s.core c) (s.slotWord c sl) sl) [] none sl.cMods := by
  simp only [State.parWritten, parMods, show moveMods noMove = false from rfl, Bool.false_eq_true, if_false, List.append_nil]
  rfl

end

/-! ## The issue of a parallel instruction -/

section
variable {s : State} {c : Core} {sl : Slot} {x y : MoveF} {e : Effect}

theorem CoreSt.sized_acc {x : CoreSt} (whole : x.sized = true) : x.acc.length = 4 := by
  simp only [CoreSt.sized, Bool.and_eq_true, decide_eq_true_eq] at whole
  obtain ⟨⟨⟨⟨⟨⟨-, acc⟩, -⟩, -⟩, -⟩, -⟩, -⟩ := whole
  exact acc

theorem State.issue_par_ran (can : s.canIssue c (.par sl x y) = true) :
    (s.parWritten c x y sl).Ran ((s.issue c (.par sl x y)).core c) := by
  rw [State.issue_of_canIssue can]
  exact s.parallel_ran c x y sl

theorem State.slotsLoaded_fresh (can : s.canIssue c (.par sl x y) = true) {d : Nat} (dest : d ∈ sl.dests) :
    d ∉ (s.slotsLoaded c x y).1.map Prod.fst :=
  (State.slotLoads_frame _ c x y _ _).2 ▸ State.notMem_moveDest_of_canIssue can dest

section
variable (can : s.canIssue c (.par sl x y) = true) (effect : slotEffect (s.core c) (s.slotWord c sl) sl = e) (noSpecial : e.sr = none)
include can effect noSpecial

/-- The flags Z, N, V and C an instruction leaves are those its effect gives. -/
theorem State.issue_par_flags : let t := s.issue c (.par sl x y)
    t.flag c 3 = e.z.getD (s.flag c 3) ∧ t.flag c 2 = e.n.getD (s.flag c 2) ∧ t.flag c 1 = e.v.getD (s.flag c 1) ∧
      t.flag c 0 = e.c.getD (s.flag c 0) := by
  intro t
  have flag {i : Nat} (low : i < 4) : t.flag c i = (newFlags (BitVec.ofNat 4 (s.core c).sstat.toNat) e).getLsbD i := by
    rw [State.flag, (State.issue_par_ran can).sstat, State.parWritten, effect, writeBack_flag noSpecial low]
  have before {i : Nat} (low : i < 4) : (BitVec.ofNat 4 (s.core c).sstat.toNat).getLsbD i = s.flag c i := by
    rw [BitVec.getLsbD_ofNat, BitVec.testBit_toNat, decide_eq_true low, Bool.true_and, State.flag]
  have given := newFlags_flags (BitVec.ofNat 4 (s.core c).sstat.toNat) e
  simpa only [← flag (show 3 < 4 by decide), ← flag (show 2 < 4 by decide), ← flag (show 1 < 4 by decide),
    ← flag (show 0 < 4 by decide), before (show 3 < 4 by decide), before (show 2 < 4 by decide), before (show 1 < 4 by decide),
    before (show 0 < 4 by decide)] using given

/-- An effect without flags leaves Z, N, V and C. -/
theorem State.issue_par_flags_kept (z : e.z = none) (n : e.n = none) (v : e.v = none) (k : e.c = none) (i : Nat) (low : i < 4) :
    (s.issue c (.par sl x y)).flag c i = s.flag c i := by
  rw [State.flag, (State.issue_par_ran can).sstat, State.parWritten, effect, writeBack_flag noSpecial low,
    newFlags_none _ z n v k, BitVec.getLsbD_ofNat, BitVec.testBit_toNat, decide_eq_true low, Bool.true_and, State.flag]

/-- An instruction with one result takes it, and the flags its effect gives. -/
theorem State.issue_par_took {d : BitVec 4} {r : W72} (whole : (s.core c).sized = true) (dest : d.toNat ∈ sl.dests)
    (result : e.gs = [(d.toNat, r)]) : s.tookResult (s.issue c (.par sl x y)) c d r e.z e.n e.v e.c := by
  refine ⟨?_, State.issue_par_flags can effect noSpecial⟩
  have inside : d.toNat < (s.core c).g.length := by have := (CoreSt.sized_g_p whole).1; have := d.isLt; omega
  rw [State.greg, (State.issue_par_ran can).g, State.parWritten, effect]
  exact writeBack_g_result noSpecial result (State.slotsLoaded_fresh can dest) inside

/-- An instruction whose effect names an accumulator leaves its value there. -/
theorem State.issue_par_accum {n : BitVec 2} {v : Int × Int} (whole : (s.core c).sized = true) (result : e.acc = some (n.toNat, v)) :
    (s.issue c (.par sl x y)).accum c n = v := by
  have inside : n.toNat < (s.core c).acc.length := by have := CoreSt.sized_acc whole; have := n.isLt; omega
  rw [State.accum, (State.issue_par_ran can).acc, State.parWritten, effect, writeBack_acc noSpecial result,
    List.getD_eq_getElem?_getD, List.getElem?_set_self inside, Option.getD_some]

/-- GOV, with GOV_PC, and SATD after an instruction (R204, R205). -/
theorem State.issue_par_sticky : let t := s.issue c (.par sl x y)
    t.flag c 4 = (s.flag c 4 || e.gov) ∧ t.flag c 6 = (s.flag c 6 || e.satd) ∧
      (t.core c).govPc = if e.gov && !s.flag c 4 then (s.core c).pc else (s.core c).govPc := by
  intro t
  have sticky {i : Nat} (high : 4 ≤ i) (inside : i < 16) := writeBack_sticky (x := s.core c) (pc := (s.core c).pc)
    (loads := (s.slotsLoaded c x y).1) (det := s.slotsDetect c x y) (mods := parMods sl x y) noSpecial high inside
  refine ⟨?_, ?_, ?_⟩
  · rw [State.flag, (State.issue_par_ran can).sstat, State.parWritten, effect, sticky (by decide) (by decide)]
    simp only [Nat.reduceEqDiff, decide_true, decide_false, Bool.and_true, Bool.and_false, Bool.or_false, State.flag]
  · rw [State.flag, (State.issue_par_ran can).sstat, State.parWritten, effect, sticky (by decide) (by decide)]
    simp only [Nat.reduceEqDiff, decide_true, decide_false, Bool.and_true, Bool.and_false, Bool.or_false, State.flag]
  · rw [(State.issue_par_ran can).govPc, State.parWritten, effect, writeBack_govPc noSpecial, State.flag]

end

/-! ## Forms K and F -/

section
variable {op : BitVec 7} {f : FormK} {r : W72}

/-- An instruction of form K with one result takes it. -/
theorem State.issue_con_took (whole : (s.core c).sized = true) (can : s.canIssue c (.par (.con op f) x y) = true)
    (dest : f.d.toNat ∈ (Slot.con op f).dests) (effect : effK (s.core c) op.toNat f = e) (noSpecial : e.sr = none)
    (result : e.gs = [(f.d.toNat, r)]) : s.tookResult (s.issue c (.par (.con op f) x y)) c f.d r e.z e.n e.v e.c :=
  State.issue_par_took can effect noSpecial whole dest result

theorem State.issue_con_tookZN (whole : (s.core c).sized = true) (can : s.canIssue c (.par (.con op f) x y) = true)
    (dest : f.d.toNat ∈ (Slot.con op f).dests) (effect : effK (s.core c) op.toNat f = effZN f.d.toNat r) :
    s.tookZN (s.issue c (.par (.con op f) x y)) c f.d r :=
  State.issue_con_took whole can dest effect rfl rfl

theorem State.issue_con_tookZNV {v : Bool} (whole : (s.core c).sized = true) (can : s.canIssue c (.par (.con op f) x y) = true)
    (dest : f.d.toNat ∈ (Slot.con op f).dests) (effect : effK (s.core c) op.toNat f = effZNV f.d.toNat r v) :
    s.tookZNV (s.issue c (.par (.con op f) x y)) c f.d r v :=
  State.issue_con_took whole can dest effect rfl rfl

end

end

end Sys2Proof.Machine
end

section
/-!
PROOFS. The accumulators (R204, R236, R237), and O22.
-/
namespace Sys2Proof.Machine

/-- The effect of a form R slot is that of its operands (R230). -/
theorem State.slotEffect_of_formR {s : State} {c : Nat} {op : BitVec 7} {f : FormR} {e : Effect}
    (effect : s.formREffect c op.toNat f = e) : slotEffect (s.core c) (s.slotWord c (.reg op f)) (.reg op f) = e :=
  (s.slotEffect_reg c op f).trans effect

/-- With bit 2 of MOD the product replaces the accumulator (R236). -/
theorem effCmac_of_replace {md : BitVec 4} (replace : md.getLsbD 2 = true) (n : Nat) (satmode : Bool) (acc : Int × Int) (a b : W72) :
    effCmac n md satmode acc a b = { acc := some (n, signedProduct md a b) } := by
  simp only [effCmac, replace, if_true]

/-- Without it the product is added, part by part (R236). -/
theorem effCmac_of_add {md : BitVec 4} (add : md.getLsbD 2 = false) (n : Nat) (satmode : Bool) (acc : Int × Int) (a b : W72) :
    let r := accPart satmode (acc.1 + (signedProduct md a b).1)
    let i := accPart satmode (acc.2 + (signedProduct md a b).2)
    effCmac n md satmode acc a b = { acc := some (n, (r.1, i.1)), gov := r.2 || i.2 } := by
  simp only [effCmac, add, Bool.false_eq_true, if_false]

/-- A part that does not fit 80 bits saturates or wraps, and overflows (R204). -/
theorem accPart_eq (satmode : Bool) (v : Int) : accPart satmode v =
    (if v < -2 ^ 79 ∨ 2 ^ 79 - 1 < v then (if satmode then sat v 80 else wrap v 80) else v,
      decide (v < -2 ^ 79 ∨ 2 ^ 79 - 1 < v)) := by
  unfold accPart
  split
  · next high => rw [decide_eq_true high]
  · next fits => rw [decide_eq_false fits]

section
variable {s : State} {c : Core} {x y : MoveF}

/-- CMAC that replaces (R236). -/
theorem State.issue_cmac_of_replace {f : FormR} (whole : (s.core c).sized = true)
    (can : s.canIssue c (.par (.reg 0x21 f) x y) = true) (replace : f.md.getLsbD 2 = true) :
    let t := s.issue c (.par (.reg 0x21 f) x y)
    (∀ k, k < 4 → t.flag c k = s.flag c k) ∧ t.accum c f.acc = signedProduct f.md (s.greg c f.sa) (s.operandB c f) ∧
      t.flag c 4 = s.flag c 4 ∧ (t.core c).govPc = (s.core c).govPc := by
  have effect := State.slotEffect_of_formR (s := s) (c := c) (op := 0x21) (f := f) (effCmac_of_replace replace _ _ _ _ _)
  obtain ⟨gov, -, govPc⟩ := State.issue_par_sticky can effect rfl
  exact ⟨State.issue_par_flags_kept can effect rfl rfl rfl rfl rfl, State.issue_par_accum can effect rfl whole rfl,
    gov.trans (Bool.or_false _), govPc⟩

/-- CMAC that adds (R204, R236). -/
theorem State.issue_cmac_of_add {f : FormR} (whole : (s.core c).sized = true)
    (can : s.canIssue c (.par (.reg 0x21 f) x y) = true) (add : f.md.getLsbD 2 = false) :
    let t := s.issue c (.par (.reg 0x21 f) x y)
    let r := accPart (s.flag c 15) ((s.accum c f.acc).1 + (signedProduct f.md (s.greg c f.sa) (s.operandB c f)).1)
    let i := accPart (s.flag c 15) ((s.accum c f.acc).2 + (signedProduct f.md (s.greg c f.sa) (s.operandB c f)).2)
    (∀ k, k < 4 → t.flag c k = s.flag c k) ∧ t.accum c f.acc = (r.1, i.1) ∧ t.flag c 4 = (s.flag c 4 || (r.2 || i.2)) ∧
      (t.core c).govPc = if (r.2 || i.2) && !s.flag c 4 then (s.core c).pc else (s.core c).govPc := by
  have effect := State.slotEffect_of_formR (s := s) (c := c) (op := 0x21) (f := f) (effCmac_of_add add _ _ _ _ _)
  obtain ⟨gov, -, govPc⟩ := State.issue_par_sticky can effect rfl
  exact ⟨State.issue_par_flags_kept can effect rfl rfl rfl rfl rfl, State.issue_par_accum can effect rfl whole rfl, gov, govPc⟩

/-- ACLR and AMOV: an accumulator takes a value, and no flag changes (R237). -/
theorem State.issue_reg_accum {op : BitVec 7} {f : FormR} {v : Int × Int} (whole : (s.core c).sized = true)
    (can : s.canIssue c (.par (.reg op f) x y) = true) (effect : s.formREffect c op.toNat f = { acc := some (f.acc.toNat, v) }) :
    let t := s.issue c (.par (.reg op f) x y)
    t.accum c f.acc = v ∧ ∀ k, k < 4 → t.flag c k = s.flag c k :=
  ⟨State.issue_par_accum can (State.slotEffect_of_formR effect) rfl whole rfl,
    State.issue_par_flags_kept can (State.slotEffect_of_formR effect) rfl rfl rfl rfl rfl⟩

/-- LDA (R237). -/
theorem State.issue_lda {f : FormK} (whole : (s.core c).sized = true) (can : s.canIssue c (.par (.con 0x25 f) x y) = true) :
    let t := s.issue c (.par (.con 0x25 f) x y)
    t.accum c f.acc = (if f.x then ((s.greg c f.sa).toInt * 2 ^ f.k.toNat, 0) else
      (re (s.greg c f.sa) * 2 ^ f.k.toNat, im (s.greg c f.sa) * 2 ^ f.k.toNat)) ∧ ∀ k, k < 4 → t.flag c k = s.flag c k :=
  have effect : slotEffect (s.core c) (s.slotWord c (.con 0x25 f)) (.con 0x25 f) =
    effLda f.acc.toNat f.k.toNat f.x (s.greg c f.sa) := rfl
  ⟨State.issue_par_accum can effect rfl whole rfl, State.issue_par_flags_kept can effect rfl rfl rfl rfl rfl⟩

/-- An extraction takes the rounded accumulator, V where it does not fit, and SATD where it then saturates (R237). -/
theorem State.issue_extract {op : BitVec 7} {f : FormK} {r : W72} {out : Bool} (whole : (s.core c).sized = true)
    (can : s.canIssue c (.par (.con op f) x y) = true) (dest : f.d.toNat ∈ (Slot.con op f).dests)
    (effect : effK (s.core c) op.toNat f = { gs := [(f.d.toNat, r)], v := some out, satd := !f.x && out }) :
    let t := s.issue c (.par (.con op f) x y)
    s.tookResult t c f.d r none none (some out) none ∧ t.flag c 6 = (s.flag c 6 || !f.x && t.flag c 1) := by
  have took := State.issue_con_took whole can dest effect rfl rfl
  obtain ⟨-, satd, -⟩ := State.issue_par_sticky can (sl := .con op f) effect rfl
  refine ⟨took, ?_⟩
  obtain ⟨-, -, -, v, -⟩ := took
  rw [satd, v]
  rfl

end

theorem effExtc_eq (d k : Nat) (x : Bool) (acc : Int × Int) : effExtc d k x acc =
    let out := decide (sat (rne acc.1 k) 36 ≠ rne acc.1 k ∨ sat (rne acc.2 k) 36 ≠ rne acc.2 k)
    { gs := [(d, if x then cqw (wrap (rne acc.1 k) 36) (wrap (rne acc.2 k) 36) else cqw (sat (rne acc.1 k) 36) (sat (rne acc.2 k) 36))],
      v := some out, satd := !x && out } := by
  simp only [effExtc, Bool.decide_or]

/-- Settles O22, each instruction by its effect: CMAC part by part, an extraction by the one rule for all three. -/
theorem accumulatorInstructions : Obligations.AccumulatorInstructions := by
  refine ⟨fun s c f x y whole => ⟨fun can => ?cmac, fun can => ?aclr, fun can => ?amov⟩,
    fun s c f x y whole => ⟨fun can => ?extc, fun can => ?extr, fun can => ?exti, fun can => ?lda⟩⟩
  case cmac =>
    refine ⟨_, rfl, ?_, fun replace => (State.issue_cmac_of_replace whole can replace).2, fun add => ?_⟩
    · cases mode : f.md.getLsbD 2 with
      | true => exact (State.issue_cmac_of_replace whole can mode).1
      | false => exact (State.issue_cmac_of_add whole can mode).1
    · obtain ⟨-, accum, gov, govPc⟩ := State.issue_cmac_of_add whole can add
      simp only [accPart_eq] at accum gov govPc
      simp only [decide_eq_true_eq, Bool.or_assoc]
      exact ⟨accum, gov, govPc⟩
  case aclr => exact ⟨_, rfl, State.issue_reg_accum whole can rfl⟩
  case amov => exact ⟨_, rfl, State.issue_reg_accum whole can rfl⟩
  case extc => exact ⟨_, rfl, State.issue_extract whole can (List.mem_singleton_self _) (effExtc_eq _ _ _ _)⟩
  case extr => exact ⟨_, rfl, State.issue_extract whole can (List.mem_singleton_self _) rfl⟩
  case exti => exact ⟨_, rfl, State.issue_extract whole can (List.mem_singleton_self _) rfl⟩
  case lda => exact ⟨_, rfl, State.issue_lda whole can⟩

end Sys2Proof.Machine
end

section
/-!
PROOFS. Shifts, fields and special registers (R234, R241), and O24.
-/
namespace Sys2Proof.Machine

/-! ## Values -/

theorem effLsr_eq (d k : Nat) (a : W72) : effLsr d k a = effZN d (a >>> k) := by
  have shifted : BitVec.ofNat 72 (a.toNat / 2 ^ k) = a >>> k := by
    rw [← Nat.shiftRight_eq_div_pow, ← BitVec.toNat_ushiftRight, BitVec.ofNat_toNat, BitVec.setWidth_eq]
  rw [effLsr, shifted]

theorem effShlw_eq (d k : Nat) (a : W72) : effShlw d k a = effZN d (a <<< k) := by
  have shifted : BitVec.ofInt 72 (a.toInt * 2 ^ k) = a <<< k := by
    have power : BitVec.ofInt 72 (2 ^ k) = BitVec.twoPow 72 k := by
      rw [← BitVec.toNat_inj, BitVec.toNat_twoPow, ← BitVec.toNat_ofNat, ← BitVec.ofInt_natCast, Nat.cast_pow, Nat.cast_ofNat]
    rw [BitVec.shiftLeft_eq_mul_twoPow, BitVec.ofInt_mul, BitVec.ofInt_toInt, power]
  rw [effShlw, ww, ofInt, toW, shifted]

/-- The bits that fit a field. -/
theorem field_low {w : Nat} (v : BitVec w) (n : Nat) : field v n 0 = v.toNat % 2 ^ (n + 1) := by
  rw [field, Nat.pow_zero, Nat.div_one]
  rfl

theorem field_between {w : Nat} (v : BitVec w) (k n : Nat) : field v (k + n) k = v.toNat / 2 ^ k % 2 ^ (n + 1) := by
  rw [field, show k + n + 1 - k = n + 1 by omega]

/-! ## Complex results -/

section
variable {s : State} {c : Core} {x y : MoveF} {r i : Int}

/-- A complex result whose parts saturate, V telling that one changed (R233). -/
theorem effSat_eq (d : Nat) (r i : Int) : effSat d r i =
    { gs := [(d, cqw (sat r 36) (sat i 36))], v := some (decide (sat r 36 ≠ r ∨ sat i 36 ≠ i)) } := by
  rw [effSat, Bool.decide_or]

theorem State.issue_reg_tookComplex {op : BitVec 7} {f : FormR} (whole : (s.core c).sized = true)
    (can : s.canIssue c (.par (.reg op f) x y) = true) (dest : f.d.toNat ∈ (Slot.reg op f).dests)
    (effect : s.formREffect c op.toNat f = effSat f.d.toNat r i) :
    s.tookComplex (s.issue c (.par (.reg op f) x y)) c f.d r i :=
  State.issue_reg_took whole can dest (effect.trans (effSat_eq _ r i)) rfl rfl

theorem State.issue_con_tookComplex {op : BitVec 7} {f : FormK} (whole : (s.core c).sized = true)
    (can : s.canIssue c (.par (.con op f) x y) = true) (dest : f.d.toNat ∈ (Slot.con op f).dests)
    (effect : effK (s.core c) op.toNat f = effSat f.d.toNat r i) :
    s.tookComplex (s.issue c (.par (.con op f) x y)) c f.d r i :=
  State.issue_con_took whole can dest (effect.trans (effSat_eq _ r i)) rfl rfl

/-! ## MSR -/

theorem CoreSt.setSpecial_loops (x : CoreSt) (k : Nat) (v : W72) : (x.setSpecial k v).loops = x.loops := by
  unfold CoreSt.setSpecial
  dsimp only
  split_ifs <;> rfl

/-- MSR alone outside a loop gives the special register its value as that register keeps it (R234). -/
theorem State.issue_msr {f : FormK} (can : s.canIssue c (.par (.con 0x13 f) noMove noMove) = true) (outside : (s.core c).loops = []) :
    ((s.issue c (.par (.con 0x13 f) noMove noMove)).core c).special f.k.toNat =
      ((s.core c).setSpecial f.k.toNat (s.greg c f.sa)).special f.k.toNat := by
  have written : s.parWritten c noMove noMove (.con 0x13 f) = (s.core c).setSpecial f.k.toNat (s.greg c f.sa) :=
    (s.parWritten_alone c _).trans (writeBack_special _ _ _ _)
  have ran := State.issue_par_ran can
  rw [written] at ran
  exact ran.special ((CoreSt.setSpecial_loops _ _ _).trans outside) _

end

/-- Settles O24, each instruction by its effect. -/
theorem shiftsFieldsAndSpecialRegisters : Obligations.ShiftsFieldsAndSpecialRegisters := by
  refine ⟨fun s c f x y whole => ⟨fun can => ⟨_, rfl, ?asr⟩, fun can => ⟨_, rfl, ?lsr⟩, fun can => ⟨_, rfl, ?rne⟩,
    fun can => ⟨_, rfl, ?shl⟩, fun can => ⟨_, rfl, ?shlw⟩, fun can => ⟨_, rfl, ?sat⟩, fun can => ⟨_, rfl, ?satu⟩,
    fun can => ⟨_, rfl, ?wrap⟩, fun can => ⟨_, rfl, ?casr⟩, fun can => ⟨_, rfl, ?crne⟩, fun can => ⟨_, rfl, ?cshl⟩,
    fun can => ⟨_, rfl, ?mrs⟩, fun can => ⟨_, rfl, fun outside noX noY => ?msr⟩⟩,
    fun s c f x y whole => ⟨fun can => ⟨_, rfl, ?bits⟩, fun can => ⟨_, rfl, ?ins⟩⟩,
    fun s c f x y whole can => ⟨_, rfl, ?cls⟩⟩
  case asr => exact State.issue_con_tookZN whole can (List.mem_singleton_self _) rfl
  case lsr => exact State.issue_con_tookZN whole can (List.mem_singleton_self _) (effLsr_eq _ _ _)
  case rne => exact State.issue_con_tookZN whole can (List.mem_singleton_self _) rfl
  case shl => exact State.issue_con_tookZNV whole can (List.mem_singleton_self _) rfl
  case shlw => exact State.issue_con_tookZN whole can (List.mem_singleton_self _) (effShlw_eq _ _ _)
  case sat => exact State.issue_con_tookZNV whole can (List.mem_singleton_self _) rfl
  case satu => exact State.issue_con_tookZNV whole can (List.mem_singleton_self _) rfl
  case wrap => exact State.issue_con_tookZN whole can (List.mem_singleton_self _) rfl
  case casr => exact State.issue_con_took whole can (List.mem_singleton_self _) rfl rfl rfl
  case crne => exact State.issue_con_took whole can (List.mem_singleton_self _) rfl rfl rfl
  case cshl => exact State.issue_con_tookComplex whole can (List.mem_singleton_self _) rfl
  case mrs => exact State.issue_con_tookZN whole can (List.mem_singleton_self _) rfl
  case msr =>
    subst noX noY
    exact State.issue_msr can outside
  case bits =>
    rw [← field_between]
    exact State.issue_par_took can (sl := .fld 0x4B f) rfl rfl whole (List.mem_singleton_self _) rfl
  case ins =>
    rw [← field_low]
    exact State.issue_par_took can (sl := .fld 0x4C f) rfl rfl whole (List.mem_singleton_self _) rfl
  case cls => exact State.issue_reg_took whole can (List.mem_singleton_self _) rfl rfl rfl

end Sys2Proof.Machine
end

section
/-!
PROOFS. The butterfly, the stage end and the phase group (R206, R238 to R240), and O23.
-/
namespace Sys2Proof.Machine

/-! ## Complex words -/

theorem sat36_range (x : Int) : -2 ^ 35 ≤ sat x 36 ∧ sat x 36 < 2 ^ 35 := by
  unfold sat
  omega

/-- A part in the 36-bit range is read as it was packed (R223). -/
theorem re_im_cqw {r i : Int} (lowR : -2 ^ 35 ≤ r) (highR : r < 2 ^ 35) (lowI : -2 ^ 35 ≤ i) (highI : i < 2 ^ 35) :
    re (cqw r i) = r ∧ im (cqw r i) = i := by
  unfold re im cqw fieldS field wrap
  simp only [BitVec.toNat_ofNat]
  constructor
  · split <;> omega
  · split <;> omega

/-! ## The class of the outputs (R206) -/

/-- The detection class of a magnitude. -/
def magnitudeClass (m : Nat) : Nat := if m < 2 ^ 33 then 0 else if m < 2 ^ 34 then 1 else 2

theorem detClass_cqw {r i : Int} (lowR : -2 ^ 35 ≤ r) (highR : r < 2 ^ 35) (lowI : -2 ^ 35 ≤ i) (highI : i < 2 ^ 35) :
    detClass (cqw r i) = magnitudeClass (max r.natAbs i.natAbs) := by
  obtain ⟨real, imaginary⟩ := re_im_cqw lowR highR lowI highI
  rw [detClass, real, imaginary, magnitudeClass]

theorem magnitudeClass_max (m n : Nat) : max (magnitudeClass m) (magnitudeClass n) = magnitudeClass (max m n) := by
  unfold magnitudeClass
  split_ifs <;> omega

theorem magnitudeClass_lt (m : Nat) : magnitudeClass m < 4 := by
  unfold magnitudeClass
  split_ifs <;> decide

/-! ## The butterfly (R238) -/

/-- The sum and the difference of a butterfly, part by part, before the stage shift: the bottom input is rotated by the twiddle,
conjugated where MOD bit 1 says so. -/
def butterflySums (md : BitVec 4) (top bottom w : W72) : List Int :=
  let wi := if md.getLsbD 1 then -im w else im w
  let tr := rne (re bottom * re w - im bottom * wi) 17
  let ti := rne (re bottom * wi + im bottom * re w) 17
  [re top + tr, im top + ti, re top - tr, im top - ti]

/-- The effect of a butterfly whose four sums are p, q, u and v, at stage shift k. -/
def sumsEffect (d k : Nat) (detects : Bool) (p q u v : Int) : Effect :=
  let part (z : Int) : Int := sat (rne z k) 36
  { gs := [(d, cqw (part p) (part q)), (Nat.xor d 1, cqw (part u) (part v))]
    v := some ([p, q, u, v].any fun z => decide (part z ≠ rne z k))
    det := if detects then magnitudeClass ([p, q, u, v].foldl (fun m z => max m (part z).natAbs) 0) else 0 }

/-- The outputs of a butterfly are those of two complex results, the sum's and the difference's. -/
theorem effBfly_of_sums (d : Nat) (md : BitVec 4) (k : Nat) (top bottom w : W72) {p q u v : Int}
    (sums : butterflySums md top bottom w = [p, q, u, v]) : effBfly d md k top bottom w =
      let e1 := effSat d (rne p k) (rne q k)
      let e2 := effSat (Nat.xor d 1) (rne u k) (rne v k)
      { gs := e1.gs ++ e2.gs, v := some (e1.v = some true || e2.v = some true),
        det := if md.getLsbD 0 then (e1.gs ++ e2.gs).foldl (fun m g => max m (detClass g.2)) 0 else 0 } := by
  simp only [butterflySums, List.cons.injEq, and_true] at sums
  obtain ⟨rfl, rfl, rfl, rfl⟩ := sums
  rfl

theorem effBfly_eq (d : Nat) (md : BitVec 4) (k : Nat) (top bottom w : W72) {p q u v : Int}
    (sums : butterflySums md top bottom w = [p, q, u, v]) :
    effBfly d md k top bottom w = sumsEffect d k (md.getLsbD 0) p q u v := by
  have outputClass (z y : Int) :
      detClass (cqw (sat z 36) (sat y 36)) = magnitudeClass (max (sat z 36).natAbs (sat y 36).natAbs) :=
    detClass_cqw (sat36_range z).1 (sat36_range z).2 (sat36_range y).1 (sat36_range y).2
  rw [effBfly_of_sums d md k top bottom w sums]
  simp only [effSat, sumsEffect, List.singleton_append, List.foldl_cons, List.foldl_nil, List.any_cons, List.any_nil,
    outputClass, Nat.zero_max, magnitudeClass_max, Option.some.injEq, Bool.decide_eq_true, Bool.or_false, Bool.or_assoc, max_assoc]

section
variable {s : State} {c : Core} {x y : MoveF} {f : FormR}

theorem toNat_xor_one (d : BitVec 4) : (d ^^^ 1).toNat = Nat.xor d.toNat 1 := BitVec.toNat_xor d 1

/-- BFLY writes both outputs, V telling that a part changed, and no other flag (R238). -/
theorem State.issue_bfly {p q u v : Int} {k : Nat} (whole : (s.core c).sized = true)
    (can : s.canIssue c (.par (.reg 0x30 f) x y) = true)
    (effect : s.formREffect c 0x30 f = sumsEffect f.d.toNat k (f.md.getLsbD 0) p q u v) :
    let t := s.issue c (.par (.reg 0x30 f) x y)
    t.greg c f.d = cqw (sat (rne p k) 36) (sat (rne q k) 36) ∧ t.greg c (f.d ^^^ 1) = cqw (sat (rne u k) 36) (sat (rne v k) 36) ∧
      t.flag c 1 = [p, q, u, v].any (fun z => decide (sat (rne z k) 36 ≠ rne z k)) ∧
      t.flag c 3 = s.flag c 3 ∧ t.flag c 2 = s.flag c 2 ∧ t.flag c 0 = s.flag c 0 := by
  intro t
  have effect' := State.slotEffect_of_formR (op := 0x30) effect
  have length := (CoreSt.sized_g_p whole).1
  have ran := (State.issue_par_ran can).g
  rw [State.parWritten, effect'] at ran
  have other : f.d.toNat ≠ (f.d ^^^ 1).toNat := by
    have differ : ∀ d : BitVec 4, d.toNat ≠ (d ^^^ 1).toNat := by decide
    exact differ f.d
  rw [toNat_xor_one] at other
  have outputs := writeBack_g_results (x := s.core c) (pc := (s.core c).pc) (det := s.slotsDetect c x y)
    (mods := parMods (.reg 0x30 f) x y) (loads := (s.slotsLoaded c x y).1)
    (e := sumsEffect f.d.toNat k (f.md.getLsbD 0) p q u v) rfl rfl other
    (State.slotsLoaded_fresh can (List.mem_cons_self ..))
    (State.slotsLoaded_fresh can (List.mem_cons_of_mem _ (List.mem_singleton_self _)))
    (by have := f.d.isLt; omega) (by have := (f.d ^^^ 1).isLt; rw [toNat_xor_one] at this; omega)
  obtain ⟨first, second⟩ := outputs
  obtain ⟨z, n, changed, k⟩ := State.issue_par_flags can effect' rfl
  refine ⟨?_, ?_, changed, z, n, k⟩
  · rw [State.greg, ran, first]
  · rw [State.greg, ran, toNat_xor_one, second]

/-- BFLY alone detects the class of its outputs where MOD bit 0 says so, and leaves the rest of BEXP (R206, R238). -/
theorem State.issue_bfly_bexp {p q u v : Int} {k : Nat} (can : s.canIssue c (.par (.reg 0x30 f) noMove noMove) = true)
    (effect : s.formREffect c 0x30 f = sumsEffect f.d.toNat k (f.md.getLsbD 0) p q u v) :
    let t := s.issue c (.par (.reg 0x30 f) noMove noMove)
    field (t.core c).bexp 9 8 = (if f.md.getLsbD 0 then max (field (s.core c).bexp 9 8)
        (magnitudeClass ([p, q, u, v].foldl (fun m z => max m (sat (rne z k) 36).natAbs) 0)) else field (s.core c).bexp 9 8) ∧
      field (t.core c).bexp 6 0 = field (s.core c).bexp 6 0 := by
  intro t
  have bexp : (t.core c).bexp = detected (s.core c).bexp (sumsEffect f.d.toNat k (f.md.getLsbD 0) p q u v).det := by
    rw [(State.issue_par_ran can).bexp, State.parWritten_alone, State.slotEffect_of_formR (op := 0x30) effect, writeBack_bexp rfl]
    rfl
  rw [bexp]
  refine ⟨?_, detected_exponents _ _⟩
  unfold sumsEffect
  cases detects : f.md.getLsbD 0 with
  | true => exact detected_class _ (magnitudeClass_lt _)
  | false => exact congrArg (field · 9 8) (detected_zero _)

/-- STGEND alone leaves BEXP after the stage end (R206). -/
theorem State.issue_stgend (can : s.canIssue c (.par (.reg 0x31 f) noMove noMove) = true) :
    ((s.issue c (.par (.reg 0x31 f) noMove noMove)).core c).bexp = stageEnd (s.core c).bexp := by
  have effect := State.slotEffect_of_formR (s := s) (c := c) (op := 0x31) (f := f) (e := effStgend) rfl
  rw [(State.issue_par_ran can).bexp, State.parWritten_alone, effect, writeBack_bexp rfl]
  exact detected_zero _

end

theorem effUnw_eq (d : Nat) (a b : W72) : effUnw d a b = effZNV d (BitVec.ofInt 72 (b.toInt + wrap (a.toInt - b.toInt) 16))
    (decide (32768 < b.toInt + wrap (a.toInt - b.toInt) 16 ∨ b.toInt + wrap (a.toInt - b.toInt) 16 < -32768)) := by
  rw [effUnw, Bool.decide_or]
  rfl

/-- Settles O23: BFLY through its four sums, the others each by its effect. -/
theorem butterflyAndPhaseInstructions : Obligations.ButterflyAndPhaseInstructions := by
  intro s c f x y whole
  refine ⟨fun can => ⟨_, rfl, ?bfly⟩, fun can => ⟨_, rfl, fun noX noY => ?stgend⟩, fun can => ⟨_, rfl, ?ang⟩,
    fun can => ⟨_, rfl, ?mag⟩, fun can => ⟨_, rfl, ?cis⟩, fun can => ⟨_, rfl, ?rot⟩, fun can => ⟨_, rfl, ?unw⟩⟩
  case bfly =>
    have effect := effBfly_eq f.d.toNat f.md (field (s.core c).bexp 6 5) (s.greg c f.sa) (s.greg c f.sb)
      (if f.cs then s.operandB c f else s.greg c f.d) rfl
    obtain ⟨first, second, changed, z, n, k⟩ := State.issue_bfly whole can effect
    refine ⟨first, second, changed, z, n, k, fun noX noY => ?_⟩
    subst noX noY
    exact State.issue_bfly_bexp can effect
  case stgend =>
    subst noX noY
    exact State.issue_stgend can
  case ang => exact State.issue_reg_tookZN whole can (List.mem_singleton_self _) rfl
  case mag => exact State.issue_reg_took whole can (List.mem_singleton_self _) rfl rfl rfl
  case cis => exact State.issue_reg_took whole can (List.mem_singleton_self _) rfl rfl rfl
  case rot => exact State.issue_reg_tookComplex whole can (List.mem_singleton_self _) rfl
  case unw => exact State.issue_reg_tookZNV whole can (List.mem_singleton_self _) (effUnw_eq _ _ _)

end Sys2Proof.Machine
end

section
/-!
PROOFS. Bit-reversed addressing (R209), and O57.
-/
namespace Sys2Proof.Machine

/-! ## The reversal of k bits -/

theorem bitRev_lt : (k x : Nat) → bitRev k x < 2 ^ k
  | 0, _ => Nat.one_pos
  | k + 1, x => by
    have low := bitRev_lt k (x / 2)
    rw [bitRev, Nat.pow_succ]
    rcases Nat.mod_two_eq_zero_or_one x with even | odd
    · rw [even]
      omega
    · rw [odd]
      omega

theorem testBit_bitRev : (k x j : Nat) → (bitRev k x).testBit j = (decide (j < k) && x.testBit (k - 1 - j))
  | 0, x, j => by simp [bitRev]
  | k + 1, x, j => by
    rw [bitRev, Nat.mul_comm, Nat.testBit_two_pow_mul_add _ (bitRev_lt k _)]
    split
    · next low =>
      rw [testBit_bitRev k, Nat.testBit_div_two, show k - 1 - j + 1 = k + 1 - 1 - j by omega]
      simp only [low, show j < k + 1 by omega, decide_true]
    · next high =>
      by_cases top : j = k
      · subst top
        simp [Nat.testBit_zero]
      · have beyond : x % 2 < 2 ^ (j - k) := lt_of_lt_of_le (Nat.mod_lt _ Nat.two_pos) (Nat.le_self_pow (by omega) 2)
        rw [Nat.testBit_lt_two_pow beyond, decide_eq_false (show ¬j < k + 1 by omega), Bool.false_and]

theorem testBit_revBits (k x j : Nat) : (revBits k x).testBit j = (decide (j < k) && x.testBit (k - 1 - j)) := by
  rw [revBits, testBit_bitRev, Nat.testBit_mod_two_pow]
  by_cases inside : j < k
  · simp only [inside, show k - 1 - j < k by omega, decide_true, Bool.true_and]
  · simp only [inside, decide_false, Bool.false_and]

theorem revBits_lt (k x : Nat) : revBits k x < 2 ^ k := bitRev_lt k _

theorem revBits_revBits {k n : Nat} (inside : n < 2 ^ k) : revBits k (revBits k n) = n := by
  refine Nat.eq_of_testBit_eq fun j => ?_
  rw [testBit_revBits, testBit_revBits]
  by_cases low : j < k
  · simp only [low, show k - 1 - j < k by omega, show k - 1 - (k - 1 - j) = j by omega, decide_true, Bool.true_and]
  · have zero := Nat.testBit_lt_two_pow (lt_of_lt_of_le inside (Nat.pow_le_pow_right Nat.two_pos (Nat.not_lt.mp low)))
    simp only [low, zero, decide_false, Bool.false_and]

/-- The top bit of k comes to bit 0. -/
theorem revBits_top {k : Nat} (pos : 0 < k) : revBits k (2 ^ (k - 1)) = 1 := by
  refine Nat.eq_of_testBit_eq fun j => ?_
  show (revBits k (2 ^ (k - 1))).testBit j = (2 ^ 0).testBit j
  rw [testBit_revBits, Nat.testBit_two_pow, Nat.testBit_two_pow, ← Bool.decide_and]
  exact decide_eq_decide.mpr (by omega)

/-! ## The pointer -/

section
variable {x : CoreSt} {i : Nat}

/-- A pointer's offset from its base, modulo 2^16. -/
theorem offset_emod (p b : BitVec 16) : (((p.toNat : Int) - b.toNat) % 65536).toNat = (p - b).toNat := by
  have := p.isLt
  have := b.isLt
  rw [BitVec.toNat_sub]
  omega

/-- In BITREV mode a pointer within 2^k words of its base steps by the sum of the reversed offsets, and any other is forced to its
base (R209). -/
theorem postMod_of_bitRev (mode : field (nth x.l i 0) 17 16 = 2) (long : 2 ≤ field (nth x.l i 0) 15 0) :
    let k := (field (nth x.l i 0) 15 0).log2
    let b := nth x.b i 0
    let o := (nth x.p i 0 - b).toNat
    let m := ((nth x.m i 0).toInt % 2 ^ k).toNat
    postMod x i = if 2 ^ k ≤ o then (b, true)
      else (b + BitVec.ofNat 16 (revBits k ((revBits k o + revBits k m) % 2 ^ k)), false) := by
  have based (n : Nat) : BitVec.ofInt 16 ((nth x.b i 0).toNat + (n : Int)) = nth x.b i 0 + BitVec.ofNat 16 n := by
    rw [BitVec.ofInt_add, BitVec.ofInt_natCast, BitVec.ofInt_natCast, BitVec.ofNat_toNat, BitVec.setWidth_eq]
  have base : BitVec.ofInt 16 ((nth x.b i 0).toNat : Int) = nth x.b i 0 := by
    rw [BitVec.ofInt_natCast, BitVec.ofNat_toNat, BitVec.setWidth_eq]
  intro k b o m
  unfold postMod
  simp only [mode, Nat.not_lt.mpr long, if_false, stepRev, offset_emod]
  split
  · rw [base]
  · rw [based]

/-- With M = 2^(k-1) the pointer at place n of the bit-reversed order steps to place n + 1 (R209). -/
theorem postMod_of_bitRev_order (mode : field (nth x.l i 0) 17 16 = 2) (long : 2 ≤ field (nth x.l i 0) 15 0) {n : Nat}
    (inside : n < 2 ^ (field (nth x.l i 0) 15 0).log2)
    (half : nth x.m i 0 = BitVec.ofNat 16 (2 ^ ((field (nth x.l i 0) 15 0).log2 - 1)))
    (place : nth x.p i 0 = nth x.b i 0 + BitVec.ofNat 16 (revBits (field (nth x.l i 0) 15 0).log2 n)) :
    postMod x i = (nth x.b i 0 + BitVec.ofNat 16 (revBits (field (nth x.l i 0) 15 0).log2
      ((n + 1) % 2 ^ (field (nth x.l i 0) 15 0).log2)), false) := by
  have step := postMod_of_bitRev mode long
  have short : field (nth x.l i 0) 15 0 < 2 ^ 16 := Nat.mod_lt _ (Nat.two_pow_pos _)
  generalize field (nth x.l i 0) 15 0 = len at *
  have pos : 1 ≤ len.log2 := (Nat.le_log2 (by omega)).mpr long
  have within : len.log2 < 16 := (Nat.log2_lt (by omega)).mpr short
  generalize len.log2 = k at *
  have fits : 2 ^ k ≤ 2 ^ 15 := Nat.pow_le_pow_right Nat.two_pos (by omega)
  have offset : (nth x.p i 0 - nth x.b i 0).toNat = revBits k n := by
    rw [place, BitVec.add_comm, BitVec.add_sub_cancel, BitVec.toNat_ofNat]
    exact Nat.mod_eq_of_lt (by have := revBits_lt k n; omega)
  have modifier : ((nth x.m i 0).toInt % 2 ^ k).toNat = 2 ^ (k - 1) := by
    have halved : 2 ^ k = 2 * 2 ^ (k - 1) := by rw [← Nat.pow_succ', Nat.succ_eq_add_one, Nat.sub_add_cancel pos]
    have small : (BitVec.ofNat 16 (2 ^ (k - 1))).toNat = 2 ^ (k - 1) := by
      rw [BitVec.toNat_ofNat]
      exact Nat.mod_eq_of_lt (by omega)
    rw [half, BitVec.toInt_eq_toNat_of_lt (by omega), small]
    have power : (2 : Int) ^ k = ((2 ^ k : Nat) : Int) := by push_cast; rfl
    rw [power, ← Int.natCast_mod, Int.toNat_natCast, Nat.mod_eq_of_lt (by omega)]
  rw [step, offset, modifier, if_neg (Nat.not_le.mpr (revBits_lt k n)), revBits_revBits inside, revBits_top pos]

end

/-- Settles O57: the step by the reversed offsets, which with M = 2^(k-1) adds 1 to the place, and what a write back makes of it. -/
theorem bitReversedPointers : Obligations.BitReversedPointers := by
  refine ⟨testBit_revBits, fun x i mode long => ⟨fun outside => ?_, fun within => ?_, fun n inside half place => ?_⟩,
    fun x i pc e l d inside noSpecial => ⟨?_, ?_⟩⟩
  · exact (postMod_of_bitRev mode long).trans (if_pos outside)
  · exact (postMod_of_bitRev mode long).trans (if_neg (Nat.not_le.mpr within))
  · exact postMod_of_bitRev_order mode long inside half place
  · rw [writeBack_p noSpecial, nth]
    show (x.p.set i (postMod x i).1).getD i 0 = _
    rw [List.getD_eq_getElem?_getD, List.getElem?_set_self inside, Option.getD_some]
  · rw [writeBack_sticky noSpecial (by decide) (by decide)]
    simp only [Nat.reduceEqDiff, decide_true, decide_false, Bool.and_true, Bool.and_false, Bool.or_false, List.any_cons, List.any_nil]

end Sys2Proof.Machine
end

section
/-!
PROOFS. Control instructions (R244 to R246): what a plain instruction and a branch leave, and O30.
-/
namespace Sys2Proof.Machine

section
variable {s : State} {c : Nat}

/-! ## A plain instruction and a branch -/

theorem State.plain_ran (uses : List Nat) (gives : List (Nat × Nat)) (f : CoreSt → CoreSt) :
    (f (s.core c)).Ran ((s.plain c uses gives f).core c) := by
  have ran := State.tail_ran (s.setCore c (f (s.core c))) c (issueAt (s.core c) uses) 0 0 (s.core c).pc gives
  rwa [State.core_setCore_same] at ran

/-- A plain instruction outside a loop goes on to the next address, and keeps the state it gives its core. -/
theorem State.plain_of_outside {uses : List Nat} {gives : List (Nat × Nat)} {f : CoreSt → CoreSt} (outside : (f (s.core c)).loops = [])
    (below : (s.core c).pc < 2047) :
    let y := (s.plain c uses gives f).core c
    y.pc = (s.core c).pc + 1 ∧ y.mode = (f (s.core c)).mode := by
  have timed := State.coreTime_core (s.setCore c (f (s.core c))) c (issueAt (s.core c) uses) 0 0 gives
  rw [State.core_setCore_same] at timed
  rw [State.plain, State.sequence_of_outside (by rw [timed]; exact outside) below, State.core_setCore_same, timed]
  exact ⟨rfl, rfl⟩

/-- A branch goes to its target and ends the loops it names (R244). -/
theorem State.branchTo_core (uses : List Nat) (gives : List (Nat × Nat)) (n target : Nat) :
    let y := (s.branchTo c uses gives n target).core c
    y.pc = target ∧ y.loops = (s.core c).loops.take ((s.core c).loops.length - n) ∧ y.g = (s.core c).g := by
  rw [State.branchTo, State.branch, State.core_setCore_same, State.coreTime_core]
  exact ⟨rfl, rfl, rfl⟩

/-- A LOOP whose body lies behind it starts a level with its count (R245). -/
theorem State.loopStart_core {rc : Bool} {a : BitVec 4} {count : BitVec 16} {last : BitVec 11} (behind : (s.core c).pc + 1 ≤ last.toNat) :
    let y := (s.loopStart c rc a count last).core c
    y.lc = (s.core c).lc.set (s.core c).loops.length (if rc then BitVec.ofNat 16 (s.greg c a).toNat else count) ∧
      y.loops = (s.core c).loops ++ [{ first := (s.core c).pc + 1, last := last.toNat }] ∧ y.pc = (s.core c).pc + 1 := by
  have below : (s.core c).pc < 2047 := by have := last.isLt; omega
  have before : (s.core c).pc ≠ last.toNat := by omega
  have timed (x : CoreSt) (t : Nat) := State.coreTime_core (s.setCore c x) c t 0 0 []
  simp only [State.core_setCore_same] at timed
  rw [State.loopStart, State.plain, State.sequence_of_inside (outer := (s.core c).loops)
    (l := { first := (s.core c).pc + 1, last := last.toNat }) below (by rw [timed]) before, State.core_setCore_same, timed]
  exact ⟨rfl, rfl, rfl⟩

theorem State.haltCore_core : let y := (s.haltCore c).core c
    y.mode = .halted ∧ y.pc = (s.core c).pc ∧ y.g = (s.core c).g := by
  have halted : (s.haltCore c).core c = { s.core c with
      mode := .halted, cycle := ((s.core c).ready.cells.map Prod.snd).foldl max (s.core c).cycle, ready := .empty } := by
    rw [State.haltCore, State.count, State.core_setReg, State.core_setCore_same]
  rw [halted]
  exact ⟨rfl, rfl, rfl⟩

end

section
variable {s : State} {c : Core}

theorem State.running_of_canIssue {i : Soric} (can : s.canIssue c i = true) : (s.core c).mode = .running := by
  simp only [State.canIssue, Bool.and_eq_true, decide_eq_true_eq] at can
  obtain ⟨⟨⟨running, -⟩, -⟩, -⟩ := can
  exact running

theorem State.issueFault_of_canIssue {i : Soric} (can : s.canIssue c i = true) : s.issueFault c i = none := by
  simp only [State.canIssue, Bool.and_eq_true, Option.isNone_iff_eq_none] at can
  exact can.2

/-- A LOOP that can issue finds a level free (R245). -/
theorem State.loops_lt_of_canIssue {rc : Bool} {a : BitVec 4} {n : BitVec 16} {e : BitVec 11}
    (can : s.canIssue c (.loop rc a n e) = true) : (s.core c).loops.length < 2 := by
  obtain ⟨third, -⟩ := State.issueFault_of_loop (State.ok_of_canIssue can)
  by_contra full
  have refused := third (Nat.not_lt.mp full)
  rw [State.issueFault_of_canIssue can] at refused
  cases refused

theorem CoreSt.sized_lc {x : CoreSt} (whole : x.sized = true) : x.lc.length = 2 := by
  simp only [CoreSt.sized, Bool.and_eq_true, decide_eq_true_eq] at whole
  exact whole.2

/-! ## The instructions -/

/-- A branch that can issue and whose condition holds (R244). -/
theorem State.issue_branch {cc : BitVec 4} {tg : BitVec 11} {n : BitVec 2} (can : s.canIssue c (.br cc tg n) = true)
    (holds : (s.core c).cond cc = true) : s.issue c (.br cc tg n) = s.branchTo c (condUses cc) [] n.toNat tg.toNat := by
  rw [State.issue_of_canIssue can]
  exact if_pos holds

/-- A branch whose condition does not hold is a plain instruction (R244). -/
theorem State.issue_branch_not {cc : BitVec 4} {tg : BitVec 11} {n : BitVec 2} (can : s.canIssue c (.br cc tg n) = true)
    (fails : (s.core c).cond cc = false) : s.issue c (.br cc tg n) = s.plain c (condUses cc) [] id := by
  rw [State.issue_of_canIssue can]
  exact if_neg (by rw [fails]; exact Bool.false_ne_true)

theorem State.issue_jump {cc a : BitVec 4} {n : BitVec 2} (can : s.canIssue c (.jmp cc a n) = true)
    (holds : (s.core c).cond cc = true) : s.issue c (.jmp cc a n) =
      s.branchTo c (a.toNat :: condUses cc) [] n.toNat (field (s.greg c a) 10 0) := by
  rw [State.issue_of_canIssue can]
  exact if_pos holds

/-- CALL leaves the next address in its register and goes to its target (R244). -/
theorem State.issue_call {d : BitVec 4} {tg : BitVec 11} (can : s.canIssue c (.call d tg) = true) :
    let y := (s.issue c (.call d tg)).core c
    y.pc = tg.toNat ∧ y.g = (s.core c).g.set d.toNat (BitVec.ofNat 72 ((s.core c).pc + 1)) ∧ y.loops = (s.core c).loops := by
  rw [State.issue_of_canIssue can]
  have branched := State.branchTo_core (s := s.setCore c { s.core c with
    g := setNth (s.core c).g d.toNat (BitVec.ofNat 72 ((s.core c).pc + 1)) }) (c := c) [] [(d.toNat, 1)] 0 tg.toNat
  simp only [State.core_setCore_same, Nat.sub_zero, List.take_length] at branched
  obtain ⟨pc, loops, g⟩ := branched
  exact ⟨pc, g, loops⟩

/-- HALT outside a loop halts the core at the next address (R246). -/
theorem State.issue_halt (can : s.canIssue c .halt = true) (outside : (s.core c).loops = []) (below : (s.core c).pc < 2047) :
    let y := (s.issue c .halt).core c
    y.mode = .halted ∧ y.pc = (s.core c).pc + 1 ∧ y.g = (s.core c).g := by
  obtain ⟨next, mode⟩ := State.plain_of_outside (s := s) (c := c) (uses := []) (gives := []) (f := id) outside below
  have running : ((s.plain c [] [] id).core c).mode = .running := mode.trans (State.running_of_canIssue can)
  have halts : s.issue c .halt = (s.plain c [] [] id).haltCore c := by
    rw [State.issue_of_canIssue can]
    simp only [State.act, running, if_true]
  obtain ⟨halted, pc, g⟩ := State.haltCore_core (s := s.plain c [] [] id) (c := c)
  rw [halts]
  exact ⟨halted, pc.trans next, g.trans (State.plain_ran [] [] id).g⟩

end

/-- Settles O30, by what a branch, a plain instruction and a loop start leave. -/
theorem branchesAndLoops : Obligations.BranchesAndLoops := by
  refine ⟨fun s c cc tg n can holds => ⟨_, rfl, ?taken⟩, fun s c cc tg n can fails outside below => ⟨_, rfl, ?not⟩,
    fun s c d tg can whole => ⟨_, rfl, ?call⟩, fun s c cc a n can holds => ⟨_, rfl, ?jmp⟩,
    fun s c rc a n e can whole => ⟨_, rfl, ?loop⟩, fun s c can outside below => ⟨_, rfl, State.issue_halt can outside below⟩⟩
  case taken =>
    rw [State.issue_branch can holds]
    exact State.branchTo_core _ _ _ _
  case not =>
    rw [State.issue_branch_not can fails]
    obtain ⟨next, mode⟩ := State.plain_of_outside (s := s) (c := c) (uses := condUses cc) (gives := []) (f := id) outside below
    exact ⟨next, mode.trans (State.running_of_canIssue can), (State.plain_ran _ _ _).g⟩
  case call =>
    obtain ⟨pc, g, loops⟩ := State.issue_call can
    have inside : d.toNat < (s.core c).g.length := by have := (CoreSt.sized_g_p whole).1; have := d.isLt; omega
    refine ⟨pc, ?_, loops⟩
    rw [State.greg, g, List.getD_eq_getElem?_getD, List.getElem?_set_self inside, Option.getD_some]
  case jmp =>
    rw [State.issue_jump can holds]
    obtain ⟨pc, -, g⟩ := State.branchTo_core (s := s) (c := c) (a.toNat :: condUses cc) [] n.toNat (field (s.greg c a) 10 0)
    exact ⟨pc.trans (field_low _ _), g⟩
  case loop =>
    have legal := State.ok_of_canIssue can
    rw [Soric.ok, Bool.and_eq_true, decide_eq_true_eq] at legal
    obtain ⟨lc, loops, pc⟩ := State.loopStart_core (s := s) (c := c) (rc := rc) (a := a) (count := n) legal.1
    have inside : (s.core c).loops.length < (s.core c).lc.length := by
      have := CoreSt.sized_lc whole
      have := State.loops_lt_of_canIssue can
      omega
    rw [State.issue_of_canIssue can]
    refine ⟨?_, loops, pc⟩
    show (((s.loopStart c rc a n e).core c).lc).getD _ 0 = _
    rw [lc, List.getD_eq_getElem?_getD, List.getElem?_set_self inside, Option.getD_some]

end Sys2Proof.Machine
end

section
/-!
PROOFS. Messages, doorbells and constants (R215 to R217, R246, R247), and O31.
-/
namespace Sys2Proof.Machine

/-! ## What passes after a plain instruction leaves alone -/

section
variable (s : State) (c : Nat)

/-- A register that no raise of a vector below 256 touches and that is not the core's own. -/
structure CoreSpares (c a : Nat) : Prop where
  raise : RaiseSpares a
  cycles : a ≠ Reg.clCoreCycles (c / 8) (c % 8)
  stalls : a ≠ Reg.clCoreStalls (c / 8) (c % 8)
  fault : a ≠ Reg.clFault (c / 8)

theorem State.sequence_reg {a : Nat} (spared : CoreSpares c a) (pc : Nat) : (s.sequence c pc).reg a = s.reg a := by
  unfold State.sequence
  dsimp only
  split
  · exact State.fault_reg_of_ne _ spared.raise spared.fault _
  · rfl

theorem State.plain_reg {a : Nat} (spared : CoreSpares c a) (uses : List Nat) (gives : List (Nat × Nat)) (f : CoreSt → CoreSt) :
    (s.plain c uses gives f).reg a = s.reg a := by
  rw [State.plain, State.sequence_reg _ c spared, State.coreTime]
  exact (State.reg_setReg_ne _ _ spared.stalls).trans (State.reg_setReg_ne _ _ spared.cycles)

theorem State.fault_fabric (a m : Nat) : (s.fault a m).fabric = s.fabric := by
  obtain ⟨r, v, x, y, n, f, raised⟩ := s.fault_raiseOnly a m
  rw [raised]

theorem State.sequence_fabric (pc : Nat) : (s.sequence c pc).fabric = s.fabric := by
  unfold State.sequence
  dsimp only
  split
  · exact State.fault_fabric _ _ _
  · rfl

theorem State.plain_fabric (uses : List Nat) (gives : List (Nat × Nat)) (f : CoreSt → CoreSt) :
    (s.plain c uses gives f).fabric = s.fabric := State.sequence_fabric _ c _

theorem State.event_core (v k : Nat) : (s.event v).core k = s.core k := by
  obtain ⟨r, w, x, y, n, f, raised⟩ := s.event_raiseOnly v
  rw [raised]
  rfl

/-! ## The doorbell (R217) -/

/-- The LATCH words of the doorbells lie above those of the faults. -/
theorem coreSpares_doorbell {c : Nat} (inside : c < 256) : CoreSpares c (Reg.attnLatch (8 + c / 32)) :=
  ⟨⟨fun k _ => by lia, fun n _ => by lia⟩, by lia, by lia, by lia⟩

/-- A doorbell sets the LATCH bit of the core's vector. -/
theorem State.doorbell_latch (inside : c < 256) : (s.event (256 + c)).rbit (Reg.attnLatch (8 + c / 32)) (c % 32) = true := by
  have raised : s.event (256 + c) = s.raise (256 + c) := by
    rw [State.event, if_neg (by omega), if_neg (by omega)]
  rw [raised, State.raise, State.rbit, State.notify_reg_of_spared _ (coreSpares_doorbell inside).raise, State.reg,
    State.msixRaise_regs, show (256 + c) / 32 = 8 + c / 32 by omega, show (256 + c) % 32 = c % 32 by omega]
  exact State.rbit_setRbit_same _ _ _ _ (Nat.mod_lt _ (by decide))

/-! ## Messages (R246) -/

/-- RECV and RBNC of a message: it fills four registers, Z clears, and the queue loses it. -/
def CoreSt.received (x : CoreSt) (r : Nat) (bnc : Bool) (m : Msg) (rest : List Msg) : CoreSt :=
  let y := (x.takeMsg r m).setZ false
  if bnc then { y with bounce := rest } else { y with inbox := rest }

variable {s c}

theorem State.receive_of_message {r : BitVec 4} {wait bnc : Bool} {m : Msg} {rest : List Msg}
    (queue : (if bnc then (s.core c).bounce else (s.core c).inbox) = m :: rest) :
    ((s.core c).received r.toNat bnc m rest).Ran ((s.receive c r wait bnc).core c) := by
  have plain : ∃ gives, s.receive c r wait bnc = s.plain c [] gives fun y => y.received r.toNat bnc m rest := by
    unfold State.receive
    dsimp only
    rw [queue]
    exact ⟨_, rfl⟩
  obtain ⟨gives, plain⟩ := plain
  rw [plain]
  exact State.plain_ran [] gives fun y => y.received r.toNat bnc m rest

/-- An empty queue with WAIT: only time passes. -/
theorem State.receive_of_wait {r : BitVec 4} {bnc : Bool} (queue : (if bnc then (s.core c).bounce else (s.core c).inbox) = []) :
    let y := (s.receive c r true bnc).core c
    y.pc = (s.core c).pc ∧ y.g = (s.core c).g ∧ y.inbox = (s.core c).inbox := by
  have waits : s.receive c r true bnc = s.coreTime c (issueAt (s.core c) []) 0 1 [] := by
    unfold State.receive
    dsimp only
    rw [queue]
    rfl
  rw [waits, State.coreTime_core]
  exact ⟨rfl, rfl, rfl⟩

/-- An empty queue without WAIT: Z sets. -/
theorem State.receive_of_none {r : BitVec 4} {bnc : Bool} (queue : (if bnc then (s.core c).bounce else (s.core c).inbox) = []) :
    ((s.core c).setZ true).Ran ((s.receive c r false bnc).core c) := by
  have plain : s.receive c r false bnc = s.plain c [] [(useFlags + 3, 1)] (fun y => y.setZ true) := by
    unfold State.receive
    dsimp only
    rw [queue]
    rfl
  rw [plain]
  exact State.plain_ran [] [(useFlags + 3, 1)] fun y => y.setZ true

end

theorem CoreSt.setZ_flag (x : CoreSt) (z : Bool) : (x.setZ z).sstat.getLsbD 3 = z :=
  (getLsbD_withBit x.sstat z 3 (by decide)).trans (if_pos rfl)

/-- Four registers from r on hold the words of a message. -/
theorem CoreSt.takeMsg_g (x : CoreSt) {r i : Nat} (m : Msg) (inside : r + 3 < x.g.length) (word : i < 4) :
    (x.takeMsg r m).g.getD (r + i) 0 = m.word i := by
  have written : (x.takeMsg r m).g =
      (((x.g.set r (m.word 0)).set (r + 1) (m.word 1)).set (r + 2) (m.word 2)).set (r + 3) (m.word 3) := rfl
  rw [written, List.getD_eq_getElem?_getD]
  match i, word with
  | 0, _ => simp [show r < x.g.length by omega]
  | 1, _ => simp [show r + 1 < x.g.length by omega]
  | 2, _ => simp [show r + 2 < x.g.length by omega]
  | 3, _ => simp [inside]

section
variable {s : State} {c : Core}

/-- The place of the registers that follow a message register (R246). -/
theorem toNat_add_of_aligned {r : BitVec 4} (aligned : r.toNat % 4 = 0) :
    (r + 1).toNat = r.toNat + 1 ∧ (r + 2).toNat = r.toNat + 2 ∧ (r + 3).toNat = r.toNat + 3 := by
  revert r
  decide

/-- What a message that was taken leaves in registers, flag Z and queues. -/
theorem State.greg_of_received {t : State} {r : BitVec 4} {bnc : Bool} {m : Msg} {rest : List Msg} (aligned : r.toNat % 4 = 0)
    (whole : (s.core c).sized = true) (ran : ((s.core c).received r.toNat bnc m rest).Ran (t.core c)) :
    t.greg c r = m.h ∧ t.greg c (r + 1) = m.w1 ∧ t.greg c (r + 2) = m.w2 ∧ t.greg c (r + 3) = m.w3 ∧ t.flag c 3 = false := by
  obtain ⟨one, two, three⟩ := toNat_add_of_aligned aligned
  have inside : r.toNat + 3 < (s.core c).g.length := by have := (CoreSt.sized_g_p whole).1; have := r.isLt; omega
  have g : (t.core c).g = ((s.core c).takeMsg r.toNat m).g := by rw [ran.g]; cases bnc <;> rfl
  have sstat : (t.core c).sstat = withBit (s.core c).sstat 3 false := by rw [ran.sstat]; cases bnc <;> rfl
  have took {i : Nat} (word : i < 4) := CoreSt.takeMsg_g (s.core c) m inside word
  simp only [State.greg, g, one, two, three]
  refine ⟨took (i := 0) (by decide), took (i := 1) (by decide), took (i := 2) (by decide), took (i := 3) (by decide), ?_⟩
  rw [State.flag, sstat]
  exact CoreSt.setZ_flag (s.core c) false

/-- SEND appends its message to the fabric (R246). -/
theorem State.issue_send {r : BitVec 4} (can : s.canIssue c (.send r) = true) :
    let t := s.issue c (.send r)
    t.fabric = s.fabric ++ [⟨sendHeader (s.greg c r) 0 (c / 8) (c.val % 8) (s.core c).role.toNat (s.core c).epoch.toNat,
      s.greg c (r + 1), s.greg c (r + 2), s.greg c (r + 3)⟩] ∧ (t.core c).g = (s.core c).g := by
  have legal := State.ok_of_canIssue can
  rw [Soric.ok, decide_eq_true_eq] at legal
  obtain ⟨one, two, three⟩ := toNat_add_of_aligned legal
  rw [State.issue_of_canIssue can]
  refine ⟨(State.plain_fabric _ c _ _ _).trans ?_, (State.plain_ran _ _ id).g⟩
  simp only [State.greg, one, two, three]
  rfl

/-- A register that a plain instruction loads, and the others. -/
theorem State.greg_of_set {t : State} {r : BitVec 4} {v : W72} (whole : (s.core c).sized = true)
    (g : (t.core c).g = (s.core c).g.set r.toNat v) : t.greg c r = v ∧ ∀ k, k ≠ r → t.greg c k = s.greg c k := by
  have inside : r.toNat < (s.core c).g.length := by have := (CoreSt.sized_g_p whole).1; have := r.isLt; omega
  refine ⟨?_, fun k ne => ?_⟩
  · rw [State.greg, g, List.getD_eq_getElem?_getD, List.getElem?_set_self inside, Option.getD_some]
  · have other : r.toNat ≠ k.toNat := fun same => ne (BitVec.eq_of_toNat_eq same.symm)
    rw [State.greg, g, List.getD_eq_getElem?_getD, List.getElem?_set_ne other, ← List.getD_eq_getElem?_getD, State.greg]

/-- LIG and LIH load their register (R247). -/
theorem State.issue_lig {r : BitVec 4} {v : BitVec 56} (can : s.canIssue c (.lig r v) = true) :
    ((s.issue c (.lig r v)).core c).g = (s.core c).g.set r.toNat (v.signExtend 72) := by
  have loads : s.act c (.lig r v) =
    s.plain c [] [(r.toNat, 1)] fun y => { y with g := setNth y.g r.toNat (v.signExtend 72) } := rfl
  rw [State.issue_of_canIssue can, loads, CoreSt.Ran.g (State.plain_ran [] [(r.toNat, 1)] _)]
  rfl

theorem State.issue_lih {r : BitVec 4} {v : BitVec 16} (can : s.canIssue c (.lih r v) = true) :
    ((s.issue c (.lih r v)).core c).g = (s.core c).g.set r.toNat (withField (s.greg c r) 71 56 v.toNat) := by
  have loads : s.act c (.lih r v) = s.plain c [r.toNat] [(r.toNat, 1)] fun y =>
    { y with g := setNth y.g r.toNat (withField (nth y.g r.toNat 0) 71 56 v.toNat) } := rfl
  rw [State.issue_of_canIssue can, loads, CoreSt.Ran.g (State.plain_ran [r.toNat] [(r.toNat, 1)] _)]
  rfl

/-- The high 16 bits replaced (R247). -/
theorem withField_71_56 (v : W72) (x : BitVec 16) : withField v 71 56 x.toNat = x ++ v.extractLsb' 0 56 := by
  refine BitVec.eq_of_getLsbD_eq fun i word => ?_
  rw [getLsbD_withField, BitVec.getLsbD_append, BitVec.getLsbD_extractLsb', Nat.zero_add]
  by_cases high : 56 ≤ i
  · rw [if_pos ⟨high, by omega⟩, if_neg (by omega), decide_eq_true word, Bool.true_and, BitVec.testBit_toNat]
  · rw [if_neg (by omega), if_pos (by omega), decide_eq_true (by omega : i < 56), Bool.true_and]

theorem CoreSt.setSpecial_g (x : CoreSt) (k : Nat) (v : W72) : (x.setSpecial k v).g = x.g := by
  unfold CoreSt.setSpecial
  dsimp only
  split_ifs <;> rfl

end

/-- Settles O31: each instruction is a plain one, by what it makes of its core. -/
theorem messagesDoorbellsAndConstants : Obligations.MessagesDoorbellsAndConstants := by
  refine ⟨fun s c r can => ⟨_, rfl, State.issue_send can⟩, fun s c r w m rest can whole queue => ⟨_, rfl, ?recv⟩,
    fun s c r can queue => ⟨_, rfl, ?recvWait⟩, fun s c r can queue => ⟨_, rfl, ?recvNone⟩,
    fun s c r w m rest can whole queue => ⟨_, rfl, ?rbnc⟩, fun s c r can queue => ⟨_, rfl, ?rbncWait⟩,
    fun s c r can queue => ⟨_, rfl, ?rbncNone⟩, fun s c can => ⟨_, rfl, ?dbell⟩, fun s c r v can whole => ⟨_, rfl, ?lig⟩,
    fun s c r v can whole => ⟨_, rfl, ?lih⟩, fun s c k v can whole outside => ⟨_, rfl, ?lis⟩⟩
  case recv =>
    have legal := State.ok_of_canIssue can
    rw [Soric.ok, decide_eq_true_eq] at legal
    have ran : ((s.core c).received r.toNat false m rest).Ran ((s.receive c r w false).core c) := State.receive_of_message queue
    rw [State.issue_of_canIssue can]
    obtain ⟨h, w1, w2, w3, z⟩ := State.greg_of_received legal whole ran
    exact ⟨h, w1, w2, w3, z, ran.inbox, ran.bounce⟩
  case recvWait =>
    rw [State.issue_of_canIssue can]
    obtain ⟨pc, g, -⟩ := State.receive_of_wait (s := s) (c := c) (r := r) (bnc := false) queue
    exact ⟨pc, g⟩
  case recvNone =>
    have ran : ((s.core c).setZ true).Ran ((s.receive c r false false).core c) := State.receive_of_none queue
    rw [State.issue_of_canIssue can]
    exact ⟨(congrArg (·.getLsbD 3) ran.sstat).trans (CoreSt.setZ_flag _ true), ran.g⟩
  case rbnc =>
    have legal := State.ok_of_canIssue can
    rw [Soric.ok, decide_eq_true_eq] at legal
    have ran : ((s.core c).received r.toNat true m rest).Ran ((s.receive c r w true).core c) := State.receive_of_message queue
    rw [State.issue_of_canIssue can]
    obtain ⟨h, w1, w2, w3, z⟩ := State.greg_of_received legal whole ran
    exact ⟨h, w1, w2, w3, z, ran.bounce, ran.inbox⟩
  case rbncWait =>
    rw [State.issue_of_canIssue can]
    exact State.receive_of_wait (s := s) (c := c) (r := r) (bnc := true) queue
  case rbncNone =>
    have ran : ((s.core c).setZ true).Ran ((s.receive c r false true).core c) := State.receive_of_none queue
    rw [State.issue_of_canIssue can]
    exact ⟨(congrArg (·.getLsbD 3) ran.sstat).trans (CoreSt.setZ_flag _ true), ran.g, ran.inbox⟩
  case dbell =>
    have rings : s.act c .dbell = (s.event (256 + c)).plain c [] [] id := rfl
    rw [State.issue_of_canIssue can, rings]
    refine ⟨?_, ?_⟩
    · rw [State.rbit, State.plain_reg _ c (coreSpares_doorbell c.isLt)]
      exact s.doorbell_latch c c.isLt
    · rw [(State.plain_ran (s := s.event (256 + c)) (c := c) [] [] id).g, id, State.event_core]
  case lig => exact State.greg_of_set whole (State.issue_lig can)
  case lih =>
    rw [← withField_71_56]
    exact State.greg_of_set whole (State.issue_lih can)
  case lis =>
    have ran := State.plain_ran (s := s) (c := c) [] (slotGives (.con 0x13 ⟨0, 0, 0, 0, k, false⟩))
      fun y => y.setSpecial k.toNat (v.zeroExtend 72)
    rw [State.issue_of_canIssue can]
    exact ⟨ran.g.trans (CoreSt.setSpecial_g _ _ _), ran.special ((CoreSt.setSpecial_loops _ _ _).trans outside) _⟩

end Sys2Proof.Machine
end

section
/-!
PROOFS. Messages on their way and bounced, and the host queues (R215 to R217), and O35.
-/
namespace Sys2Proof.Machine

/-! ## The oldest message of a way -/

theorem sameWay_self (m : Msg) : sameWay m m = true := by
  simp only [sameWay, decide_true, beq_self_eq_true, Bool.or_true, Bool.and_self]

theorem takeFirst_append {α : Type} {p : α → Bool} {x : α} (found : p x = true) (r : List α) :
    (a : List α) → (∀ z ∈ a, p z = false) → takeFirst p (a ++ x :: r) = some (x, a ++ r)
  | [], _ => if_pos found
  | z :: a, skipped => by
    have rest := takeFirst_append found r a fun y mem => skipped y (List.mem_cons_of_mem _ mem)
    rw [List.cons_append, takeFirst, skipped z List.mem_cons_self, rest]
    rfl

section
variable {s : State} {m : Msg} {a r : List Msg}

/-- The oldest message of its way reaches its check (R216). -/
theorem exec_messageArrive (waits : s.fabric = a ++ m :: r) (oldest : ∀ z ∈ a, sameWay m z = false) :
    exec (.messageArrive a.length) s = .next (State.deliver { s with fabric := a ++ r } m) := by
  have here : s.fabric[a.length]? = some m := by rw [waits, List.getElem?_append_right (Nat.le_refl _), Nat.sub_self]; rfl
  have taken : takeFirst (sameWay m) s.fabric = some (m, a ++ r) := waits ▸ takeFirst_append (sameWay_self m) r a oldest
  show execMessageArrive a.length s = _
  rw [execMessageArrive, here]
  dsimp only
  rw [taken]

theorem exec_messageArrive_first (waits : s.fabric = m :: r) :
    exec (.messageArrive 0) s = .next (State.deliver { s with fabric := r } m) :=
  exec_messageArrive (a := []) waits fun _ mem => absurd mem List.not_mem_nil

theorem exec_messageBounce_first (waits : s.returning = m :: r) :
    exec (.messageBounce 0) s = .next (State.bounceArrive { s with returning := r } m) := by
  have taken : takeFirst (sameWay m) s.returning = some (m, r) := waits ▸ if_pos (sameWay_self m)
  have here : s.returning[0]? = some m := by rw [waits]; rfl
  show execMessageBounce 0 s = _
  rw [execMessageBounce, here]
  dsimp only
  rw [taken]

/-! ## Delivery (R216, R217) -/

theorem State.deliver_of_passes (toCore : msgHost m = false) (passes : s.msgFails m = none) :
    s.deliver m = s.setCore (8 * msgDcl m + msgDcore m) { s.core (8 * msgDcl m + msgDcore m) with
      inbox := (s.core (8 * msgDcl m + msgDcore m)).inbox ++ [m] } := by
  rw [State.deliver, toCore, if_neg Bool.false_ne_true, passes]
  rfl

theorem State.deliver_of_fails {why : Nat} (toCore : msgHost m = false) (fails : s.msgFails m = some why) :
    s.deliver m = s.bounceBack m why := by
  rw [State.deliver, toCore, if_neg Bool.false_ne_true, fails]

theorem State.deliver_to_host (toHost : msgHost m = true) : s.deliver m =
    if 16 ≤ (s.cluster (msgScl m)).hostOut.length then s.bounceBack m 4
    else (s.setCluster (msgScl m) { s.cluster (msgScl m) with hostOut := (s.cluster (msgScl m)).hostOut ++ [m] }).mailbox (msgScl m)
      ((s.cluster (msgScl m)).hostOut = []) := by
  rw [State.deliver, toHost, if_pos rfl]

/-! ## What goes back (R216) -/

theorem State.bounceBack_of_core {why : Nat} (kind : msgKind m = 0) :
    s.bounceBack m why = { s with returning := s.returning ++ [bounced m why] } := by
  simp only [State.bounceBack, kind]

theorem State.bounceBack_of_host {why : Nat} (kind : msgKind m = 1 ∨ msgKind m = 2) : s.bounceBack m why =
    if 8 ≤ (s.cluster (msgScl m)).hostBnc.length then s.fault (Reg.clFault (msgScl m)) (2 ^ 10)
    else (s.setCluster (msgScl m) { s.cluster (msgScl m) with
      hostBnc := (s.cluster (msgScl m)).hostBnc ++ [bounced m why] }).mailbox (msgScl m) ((s.cluster (msgScl m)).hostBnc = []) := by
  rcases kind with kind | kind
  · simp only [State.bounceBack, kind]
  · simp only [State.bounceBack, kind]

end

/-- An event leaves the cores, the clusters and the fabric. -/
theorem State.event_frame (s : State) (v : Nat) : (s.event v).cores = s.cores ∧ (s.event v).clusters = s.clusters ∧
    (s.event v).fabric = s.fabric ∧ (s.event v).returning = s.returning := by
  obtain ⟨r, w, x, y, n, f, raised⟩ := s.event_raiseOnly v
  rw [raised]
  exact ⟨rfl, rfl, rfl, rfl⟩

theorem State.fault_frame (s : State) (a m : Nat) : (s.fault a m).cores = s.cores ∧ (s.fault a m).clusters = s.clusters ∧
    (s.fault a m).fabric = s.fabric ∧ (s.fault a m).returning = s.returning := by
  obtain ⟨r, w, x, y, n, f, raised⟩ := s.fault_raiseOnly a m
  rw [raised]
  exact ⟨rfl, rfl, rfl, rfl⟩

theorem State.mailbox_frame (s : State) (cl : Nat) (was : Bool) : (s.mailbox cl was).cores = s.cores ∧
    (s.mailbox cl was).clusters = s.clusters ∧ (s.mailbox cl was).fabric = s.fabric ∧ (s.mailbox cl was).returning = s.returning := by
  cases was with
  | true => exact s.event_frame _
  | false => exact ⟨rfl, rfl, rfl, rfl⟩

theorem raiseSpares_clFault (cl : Nat) : RaiseSpares (Reg.clFault cl) := raiseSpares_of_headBase_le (by lia)

/-- A host's message that fails goes to HOST_BOUNCE, or is lost with FAULT.HOST_BLOST where that is full (R217). -/
theorem State.bounceBack_to_host {s : State} {m : Msg} {why : Nat} (kind : msgKind m = 1 ∨ msgKind m = 2) :
    let t := s.bounceBack m why
    t.fabric = s.fabric ∧ (∀ k, t.core k = s.core k) ∧ (t.cluster (msgScl m)).hostOut = (s.cluster (msgScl m)).hostOut ∧
      ((s.cluster (msgScl m)).hostBnc.length < 8 →
        (t.cluster (msgScl m)).hostBnc = (s.cluster (msgScl m)).hostBnc ++ [bounced m why]) ∧
      (8 ≤ (s.cluster (msgScl m)).hostBnc.length → (t.cluster (msgScl m)).hostBnc = (s.cluster (msgScl m)).hostBnc ∧
        t.rbit (Reg.clFault (msgScl m)) 10 = true) := by
  rw [State.bounceBack_of_host kind]
  split
  · next full =>
    obtain ⟨cores, clusters, fabric, -⟩ := s.fault_frame (Reg.clFault (msgScl m)) (2 ^ 10)
    have cluster := State.cluster_of_clusters clusters (msgScl m)
    exact ⟨fabric, State.core_of_cores cores, congrArg ClusterSt.hostOut cluster, fun room => absurd full (Nat.not_le.mpr room),
      fun _ => ⟨congrArg ClusterSt.hostBnc cluster, s.fault_rbit_self (raiseSpares_clFault _) (by decide) (by decide)⟩⟩
  · next room =>
    obtain ⟨cores, clusters, fabric, -⟩ := State.mailbox_frame (s.setCluster (msgScl m) { s.cluster (msgScl m) with
      hostBnc := (s.cluster (msgScl m)).hostBnc ++ [bounced m why] }) (msgScl m) ((s.cluster (msgScl m)).hostBnc = [])
    have cluster := (State.cluster_of_clusters clusters (msgScl m)).trans (s.cluster_setCluster_same _ _)
    exact ⟨fabric, State.core_of_cores cores, (congrArg ClusterSt.hostOut cluster).trans rfl, fun _ => congrArg ClusterSt.hostBnc cluster,
      fun full => absurd full room⟩

/-! ## A bounced message at its sender (R216) -/

/-- A bounced message enters BOUNCE, or is lost with SSTAT.BLOST and FAULT.BLOST; BOUNCE_CNT advances either way. -/
theorem State.bounceArrive_core {s : State} {m : Msg} :
    let k := 8 * msgScl m + msgScore m
    let t := s.bounceArrive m
    t.returning = s.returning ∧
      t.reg (Reg.clCoreBounceCnt (msgScl m) (msgScore m)) = s.reg (Reg.clCoreBounceCnt (msgScl m) (msgScore m)) + 1 ∧
      ((s.core k).bounce.length < 8 → (t.core k).bounce = (s.core k).bounce ++ [m]) ∧
      (8 ≤ (s.core k).bounce.length → (t.core k).bounce = (s.core k).bounce ∧ (t.core k).sstat.getLsbD 9 = true ∧
        t.rbit (Reg.clFault (msgScl m)) 12 = true) := by
  intro k t
  have counted (x : CoreSt) : ((s.count (Reg.clCoreBounceCnt (msgScl m) (msgScore m)) 1).setCore k x).reg
      (Reg.clCoreBounceCnt (msgScl m) (msgScore m)) = s.reg (Reg.clCoreBounceCnt (msgScl m) (msgScore m)) + 1 := s.reg_setReg_same _ _
  by_cases full : 8 ≤ (s.core k).bounce.length
  · have lost : t = ((s.count (Reg.clCoreBounceCnt (msgScl m) (msgScore m)) 1).setCore k { s.core k with
        sstat := (s.core k).sstat ||| 0x200 }).fault (Reg.clFault (msgScl m)) (2 ^ 12) := if_pos full
    obtain ⟨cores, -, -, returning⟩ := State.fault_frame ((s.count (Reg.clCoreBounceCnt (msgScl m) (msgScore m)) 1).setCore k
      { s.core k with sstat := (s.core k).sstat ||| 0x200 }) (Reg.clFault (msgScl m)) (2 ^ 12)
    have core := (State.core_of_cores cores k).trans (State.core_setCore_same _ k _)
    rw [← lost] at core returning
    refine ⟨returning, ?_, fun room => absurd full (Nat.not_le.mpr room), fun _ => ⟨(congrArg CoreSt.bounce core).trans rfl, ?_, ?_⟩⟩
    · rw [lost, State.fault_reg_of_ne _ (raiseSpares_of_headBase_le (by lia)) (by lia)]
      exact counted _
    · rw [core, BitVec.getLsbD_or]
      exact Bool.or_true _
    · rw [lost]
      exact State.fault_rbit_self _ (raiseSpares_clFault _) (by decide) (by decide)
  · have entered : t = (s.count (Reg.clCoreBounceCnt (msgScl m) (msgScore m)) 1).setCore k { s.core k with
        bounce := (s.core k).bounce ++ [m] } := if_neg full
    have core := State.core_setCore_same (s.count (Reg.clCoreBounceCnt (msgScl m) (msgScore m)) 1) k
      { s.core k with bounce := (s.core k).bounce ++ [m] }
    rw [← entered] at core
    refine ⟨by rw [entered]; rfl, ?_, fun _ => congrArg CoreSt.bounce core, fun isFull => absurd isFull full⟩
    rw [entered]
    exact counted _

/-! ## The header hardware fills (R215) -/

theorem getLsbD_sendHeader (h : W72) (kind scl score role epoch i : Nat) : (sendHeader h kind scl score role epoch).getLsbD i =
    if i = 16 ∨ i = 18 then false
    else if 19 ≤ i ∧ i ≤ 47 then (kind * 2 ^ 27 + scl * 2 ^ 22 + score * 2 ^ 19 + role * 2 ^ 15 + epoch * 2 ^ 3).testBit (i - 19)
    else h.getLsbD i := by
  rw [sendHeader, getLsbD_withBit _ _ _ (by decide), getLsbD_withField, getLsbD_withField]
  by_cases bouncedBit : i = 18
  · simp [bouncedBit]
  · by_cases zeroBit : i = 16
    · simp [zeroBit]
    · simp only [bouncedBit, zeroBit, or_self, if_false, show ¬(18 ≤ i ∧ i ≤ 18) by omega]
      split
      · next filled => rw [decide_eq_true (by omega : i < 72), Bool.true_and]
      · rfl

/-- A field of a header that hardware does not fill. -/
theorem field_sendHeader_kept (h : W72) (kind scl score role epoch : Nat) {hi lo : Nat} (kept : 48 ≤ lo ∨ hi ≤ 15) :
    field (sendHeader h kind scl score role epoch) hi lo = field h hi lo := by
  refine Nat.eq_of_testBit_eq fun i => ?_
  rw [testBit_field, testBit_field, getLsbD_sendHeader]
  by_cases inside : i < hi + 1 - lo
  · rw [if_neg (by omega), if_neg (by omega)]
  · rw [decide_eq_false inside, Bool.false_and, Bool.false_and]

/-- A field of a header that hardware fills. -/
theorem field_sendHeader_filled (h : W72) (kind scl score role epoch : Nat) {hi lo : Nat} (low : 19 ≤ lo) (high : hi ≤ 47) :
    field (sendHeader h kind scl score role epoch) hi lo =
      (kind * 2 ^ 27 + scl * 2 ^ 22 + score * 2 ^ 19 + role * 2 ^ 15 + epoch * 2 ^ 3) / 2 ^ (lo - 19) % 2 ^ (hi + 1 - lo) := by
  refine Nat.eq_of_testBit_eq fun i => ?_
  rw [testBit_field, Nat.testBit_mod_two_pow, Nat.testBit_div_two_pow, getLsbD_sendHeader]
  by_cases inside : i < hi + 1 - lo
  · rw [if_neg (by omega), if_pos (by omega), show i + lo - 19 = i + (lo - 19) by omega]
  · rw [decide_eq_false inside, Bool.false_and, Bool.false_and]

/-- A header's bit 18 is clear: the message is not bounced (R215). -/
theorem field_sendHeader_18 (h : W72) (kind scl score role epoch : Nat) (clear : field (sendHeader h kind scl score role epoch) 40 19 = 0) :
    field (sendHeader h kind scl score role epoch) 40 18 = 0 := by
  refine Nat.eq_of_testBit_eq fun i => ?_
  rw [testBit_field, Nat.zero_testBit]
  match i with
  | 0 => rw [getLsbD_sendHeader, if_pos (.inr rfl), Bool.and_false]
  | i + 1 =>
    have bit := testBit_field (sendHeader h kind scl score role epoch) 40 19 i
    rw [clear, Nat.zero_testBit] at bit
    rw [show i + 1 + 18 = i + 19 by omega, bit]
    exact congrArg (· && _) (decide_eq_decide.mpr (by omega))

/-- The fields of the sender in a header that a host sends. -/
theorem field_sendHeader_host (h : W72) {kind scl : Nat} (kindFits : kind < 4) (sclFits : scl < 32) :
    field (sendHeader h kind scl 0 0 0) 47 46 = kind ∧ field (sendHeader h kind scl 0 0 0) 45 41 = scl ∧
      field (sendHeader h kind scl 0 0 0) 40 18 = 0 := by
  refine ⟨?_, ?_, field_sendHeader_18 _ _ _ _ _ _ ?_⟩
  · rw [field_sendHeader_filled _ _ _ _ _ _ (by decide) (by decide)]
    omega
  · rw [field_sendHeader_filled _ _ _ _ _ _ (by decide) (by decide)]
    omega
  · rw [field_sendHeader_filled _ _ _ _ _ _ (by decide) (by decide)]
    omega

/-! ## The host's commands (R217) -/

section
variable {s : State} (q : Req) {cl : Clus} (open' : s.shut = false)
include open'

theorem exec_hostSend_of_range (wrong : field (s.wreg (Reg.clHostMsg cl 0)) 71 67 ≠ cl.val) :
    exec (.hostSend q cl) s = .next (s.err (clBase cl) .range 0x50 q) := by
  show execHostSend q cl s = _
  rw [execHostSend, open', if_neg Bool.false_ne_true, State.hostSend]
  exact congrArg _ (if_pos wrong)

theorem exec_hostSend (own : field (s.wreg (Reg.clHostMsg cl 0)) 71 67 = cl.val) :
    exec (.hostSend q cl) s = .next { s with fabric := s.fabric ++ [
      { h := sendHeader (s.wreg (Reg.clHostMsg cl 0)) (if q = .cp then 2 else 1) cl 0 0 0, w1 := s.wreg (Reg.clHostMsg cl 1),
        w2 := s.wreg (Reg.clHostMsg cl 2), w3 := s.wreg (Reg.clHostMsg cl 3) }] } := by
  show execHostSend q cl s = _
  rw [execHostSend, open', if_neg Bool.false_ne_true, State.hostSend]
  exact congrArg _ (if_neg (not_not.mpr own))

theorem exec_hostOutPop : exec (.hostOutPop q cl) s = .next (s.hostOutPop cl) := by
  show execHostOutPop q cl s = _
  rw [execHostOutPop, open', if_neg Bool.false_ne_true]

theorem exec_hostBncPop : exec (.hostBncPop q cl) s = .next (s.hostBncPop cl) := by
  show execHostBncPop q cl s = _
  rw [execHostBncPop, open', if_neg Bool.false_ne_true]

end

/-- A pop of a non-empty queue takes its oldest entry and raises the attention where either queue still holds one. -/
theorem State.popped_eq (s : State) (cl : Nat) (x : ClusterSt) : (s.setCluster cl x).popped cl =
    if x.hostOut ≠ [] ∨ x.hostBnc ≠ [] then (s.setCluster cl x).event (192 + cl) else s.setCluster cl x := by
  rw [State.popped, State.cluster_setCluster_same]

theorem State.hostOutPop_of_cons {s : State} {cl : Nat} {m : Msg} {r : List Msg} (queue : (s.cluster cl).hostOut = m :: r) :
    s.hostOutPop cl = (s.setCluster cl { s.cluster cl with hostOut := r }).popped cl := by
  simp only [State.hostOutPop, queue, reduceCtorEq, if_false, List.drop_succ_cons, List.drop_zero]

theorem State.hostBncPop_of_cons {s : State} {cl : Nat} {m : Msg} {r : List Msg} (queue : (s.cluster cl).hostBnc = m :: r) :
    s.hostBncPop cl = (s.setCluster cl { s.cluster cl with hostBnc := r }).popped cl := by
  simp only [State.hostBncPop, queue, reduceCtorEq, if_false, List.drop_succ_cons, List.drop_zero]

/-- Settles O35: a message by where its check sends it, a host command by what it takes or appends. -/
theorem messagesAndHostQueues : Obligations.MessagesAndHostQueues := by
  refine ⟨fun s m a r waits oldest toCore passes => ?_, fun s m a r why waits oldest toCore fails kind => ?_,
    fun s m r why waits toCore fails kind => ⟨_, exec_messageArrive_first waits, ?_⟩, fun s m r waits toHost kind full => ?_,
    fun s m r waits toHost filled room => ?_, fun s m r waits toHost empty => ?_,
    fun s m r waits room => ⟨_, exec_messageBounce_first waits, ?_⟩, fun s m r waits full => ⟨_, exec_messageBounce_first waits, ?_⟩,
    fun s q cl open' own => ⟨_, exec_hostSend q open' own, ?_⟩, fun s q cl open' wrong => exec_hostSend_of_range q open' wrong,
    fun s q cl m open' queue other => ?_, fun s q cl m n r open' queue => ?_, fun s q cl m open' queue other => ?_,
    fun s q cl m n r open' queue => ?_, fun s q cl empty => ?_⟩
  · rw [exec_messageArrive waits oldest]
    exact congrArg _ (State.deliver_of_passes (s := { s with fabric := a ++ r }) toCore passes)
  · rw [exec_messageArrive waits oldest, State.deliver_of_fails (s := { s with fabric := a ++ r }) toCore fails,
      State.bounceBack_of_core kind]
  · rw [State.deliver_of_fails (s := { s with fabric := r }) toCore fails]
    exact State.bounceBack_to_host kind
  · rw [exec_messageArrive_first waits, State.deliver_to_host toHost, State.bounceBack_of_core kind]
    exact congrArg _ (if_pos full)
  · rw [exec_messageArrive_first waits, State.deliver_to_host toHost, State.mailbox]
    exact congrArg _ ((if_neg (Nat.not_le.mpr room)).trans (if_neg (mt of_decide_eq_true filled)))
  · rw [exec_messageArrive_first waits, State.deliver_to_host toHost, State.mailbox]
    have room : ¬16 ≤ (s.cluster (msgScl m)).hostOut.length := by rw [empty]; decide
    refine congrArg _ ((if_neg room).trans ((if_pos (decide_eq_true empty)).trans ?_))
    rw [show (State.cluster { s with fabric := r } (msgScl m)).hostOut = [] from empty]
    rfl
  · obtain ⟨returning, count, entered, -⟩ := State.bounceArrive_core (s := { s with returning := r }) (m := m)
    exact ⟨returning, entered room, count⟩
  · obtain ⟨returning, count, -, lost⟩ := State.bounceArrive_core (s := { s with returning := r }) (m := m)
    obtain ⟨bounce, sstat, fault⟩ := lost full
    exact ⟨returning, bounce, sstat, fault, count⟩
  · have kindFits : (if q = .cp then 2 else 1) < 4 := by split <;> decide
    obtain ⟨kind, scl, zero⟩ := field_sendHeader_host (s.wreg (Reg.clHostMsg cl 0)) kindFits cl.isLt
    exact ⟨field_sendHeader_kept _ _ _ _ _ _ (.inl (by decide)), kind, scl, zero,
      field_sendHeader_kept _ _ _ _ _ _ (.inr (by decide)), (getLsbD_sendHeader _ _ _ _ _ _ _).trans (if_pos (.inl rfl)), rfl, rfl, rfl⟩
  · rw [exec_hostOutPop q open', State.hostOutPop_of_cons queue, State.popped_eq]
    exact congrArg _ (if_neg (by simp [other]))
  · rw [exec_hostOutPop q open', State.hostOutPop_of_cons queue, State.popped_eq]
    exact congrArg _ (if_pos (.inl (List.cons_ne_nil n r)))
  · rw [exec_hostBncPop q open', State.hostBncPop_of_cons queue, State.popped_eq]
    exact congrArg _ (if_neg (by simp [other]))
  · rw [exec_hostBncPop q open', State.hostBncPop_of_cons queue, State.popped_eq]
    exact congrArg _ (if_pos (.inr (List.cons_ne_nil n r)))
  · have nothing : s.hostOutPop cl = s := if_pos empty
    show execHostOutPop q cl s = _
    rw [execHostOutPop, nothing, ite_self]

end Sys2Proof.Machine
end

section
/-!
PROOFS. Commands of user cores (R210, R219), and the refutation of O33: RELEASE loads the vendor roles of its cluster again, which
unloads a core that holds a role its cluster does not need.
-/
namespace Sys2Proof.Machine

/-- Cluster 0 is powered and needs no vendor role; its core 0 is halted, and its core 1 still runs a vendor role. -/
def staleVendor : State :=
  (((State.reset.setRbit (Reg.clStatus 0) 16 true).setRbit Reg.sysPwrCtrl 0 true).setCore 0 { mode := .halted }).setCore 1
    { mode := .running, vendor := true, role := 1 }

theorem staleVendor_needed (p : Nat) : staleVendor.needed (coreCl 0) p = none := by
  have served : staleVendor.served (coreCl 0) = some 0 := by decide
  have noRole : staleVendor.roleNeeds 0 = [] := by decide
  rw [State.needed, served]
  dsimp only
  rw [noRole]
  rfl

/-- The release of core 0 unloads core 1. -/
theorem staleVendor_released : ((staleVendor.coreCtrlWrite (coreCl 0) (corePl 0) (staleVendor.coreCmd 0 3) .cp).core 1).vendor = false := by
  decide

/-- Refutes O33: core 1 of a cluster that needs no vendor role holds one, and the release of core 0 unloads it. -/
theorem not_userCoreCommands : ¬ Obligations.UserCoreCommands := by
  rintro ⟨-, -, -, release, -⟩
  have working : staleVendor.shut = false := by decide
  obtain ⟨t, released, -, -, others⟩ := release staleVendor .cp 0 working (by decide) (.inl (by decide)) staleVendor_needed
  have next : exec (.coreRelease .cp 0) staleVendor =
      .next (staleVendor.coreCtrlWrite (coreCl 0) (corePl 0) (staleVendor.coreCmd 0 3) .cp) := congrArg _ (if_neg (by rw [working]; decide))
  obtain rfl := Host.Outcome.next.inj (next.symm.trans released)
  have kept : (staleVendor.core 1).vendor = false := by rw [← others 1 (by decide)]; exact staleVendor_released
  exact absurd kept (by decide)

end Sys2Proof.Machine
end

section
/-!
PROOFS. What the zones' evaluations leave of the clusters' registers (R258 to R270): they reach registers of ZONE and of the memory
controllers, what a raise may touch and the ports' frame counters, all outside the blocks of the clusters.
-/
namespace Sys2Proof.Machine

/-- t has the registers of the clusters' blocks that s has. -/
def State.ClusterRegsKept (s t : State) : Prop := ∀ a, 0x600000 ≤ a → a < 0x800000 → t.reg a = s.reg a

theorem field_lt {w : Nat} (v : BitVec w) (hi lo : Nat) : field v hi lo < 2 ^ (hi + 1 - lo) := Nat.mod_lt _ (Nat.two_pow_pos _)

section
variable {s t u : State}

theorem State.ClusterRegsKept.refl (s : State) : s.ClusterRegsKept s := fun _ _ _ => rfl

theorem State.ClusterRegsKept.trans (h : s.ClusterRegsKept t) (k : t.ClusterRegsKept u) : s.ClusterRegsKept u :=
  fun a low high => (k a low high).trans (h a low high)

/-- What changes no register. -/
theorem State.ClusterRegsKept.same (h : s.ClusterRegsKept t) (regs : u.regs = t.regs) : s.ClusterRegsKept u :=
  h.trans fun a _ _ => by rw [State.reg, regs]; rfl

theorem State.ClusterRegsKept.ite {c : Prop} {d : Decidable c} (h : s.ClusterRegsKept t) (k : s.ClusterRegsKept u) :
    s.ClusterRegsKept (if c then t else u) := by
  split
  · exact h
  · exact k

theorem State.ClusterRegsKept.iteSnd {α : Type} {c : Prop} {d : Decidable c} {x y : α × State} (h : s.ClusterRegsKept x.2)
    (k : s.ClusterRegsKept y.2) : s.ClusterRegsKept (if c then x else y).2 := by
  split
  · exact h
  · exact k

theorem State.ClusterRegsKept.setReg (h : s.ClusterRegsKept t) {a : Nat} {v : W32} (out : a < 0x600000 ∨ 0x800000 ≤ a) :
    s.ClusterRegsKept (t.setReg a v) :=
  h.trans fun b low high => t.reg_setReg_ne v (by omega)

theorem State.ClusterRegsKept.event (h : s.ClusterRegsKept t) {v : Nat} (hv : v < 256) : s.ClusterRegsKept (t.event v) :=
  h.trans fun _ low _ => t.event_reg_of_spared (raiseSpares_of_headBase_le (by omega)) hv

theorem State.ClusterRegsKept.fault (h : s.ClusterRegsKept t) {a m : Nat} (out : a < 0x600000 ∨ 0x800000 ≤ a) :
    s.ClusterRegsKept (t.fault a m) :=
  h.trans fun b low high => t.fault_reg_of_ne (raiseSpares_of_headBase_le (by omega)) (by omega) m

theorem State.ClusterRegsKept.datagram (h : s.ClusterRegsKept t) {ip : IpAddr} {b : List Byte} :
    s.ClusterRegsKept (t.datagram ip b) :=
  h.trans fun _ low _ => t.datagram_reg_of_spared (raiseSpares_of_headBase_le (by omega)) ip b

theorem State.ClusterRegsKept.setMc (h : s.ClusterRegsKept t) {m : Nat} {x : McSt} : s.ClusterRegsKept (t.setMc m x) := h.same rfl
theorem State.ClusterRegsKept.setBank (h : s.ClusterRegsKept t) {k : Nat} {x : BankSt} : s.ClusterRegsKept (t.setBank k x) := h.same rfl
theorem State.ClusterRegsKept.setDramCell (h : s.ClusterRegsKept t) {m a : Nat} {w : BitVec 80} :
    s.ClusterRegsKept (t.setDramCell m a w) := h.same rfl
theorem State.ClusterRegsKept.setWreg (h : s.ClusterRegsKept t) {a : Nat} {v : W72} : s.ClusterRegsKept (t.setWreg a v) := h.same rfl
theorem State.ClusterRegsKept.setZone (h : s.ClusterRegsKept t) {z : Nat} {x : ZoneSt} : s.ClusterRegsKept (t.setZone z x) := h.same rfl
theorem State.ClusterRegsKept.setCap (h : s.ClusterRegsKept t) {k : Nat} {x : Option CapSt} : s.ClusterRegsKept (t.setCap k x) :=
  h.same rfl
theorem State.ClusterRegsKept.setEstate (h : s.ClusterRegsKept t) {e : EstateSt} : s.ClusterRegsKept (t.setEstate e) := h.same rfl

/-! ## The service of DRAM -/

theorem State.ClusterRegsKept.retryPush (h : s.ClusterRegsKept t) {m : Nat} {c : RetryCmd} :
    s.ClusterRegsKept (t.retryPush m c) := .ite h.setMc h.setMc

theorem State.ClusterRegsKept.activate (h : s.ClusterRegsKept t) {m bank row : Nat} :
    s.ClusterRegsKept (t.activate m bank row).2 :=
  have pushed := h.retryPush
  .iteSnd (.iteSnd (pushed.setReg (.inr (by lia))) (pushed.setReg (.inr (by lia)))) pushed

theorem State.ClusterRegsKept.neighbourRefresh {m bank n : Nat} {l : List Nat} (h : s.ClusterRegsKept t) :
    s.ClusterRegsKept (State.neighbourRefresh m bank n l t) := by
  induction n generalizing l t with
  | zero => exact h
  | succ n ih =>
    cases l with
    | nil => exact h
    | cons r l => exact ih (h.activate.retryPush.setReg (.inr (by lia)))

theorem State.ClusterRegsKept.rowOpen (h : s.ClusterRegsKept t) {m bank row : Nat} :
    s.ClusterRegsKept (t.rowOpen m bank row).2 := by
  unfold State.rowOpen
  refine .setBank ?_
  split
  · exact .iteSnd h h.retryPush.activate
  · exact h.activate

theorem State.ClusterRegsKept.rowClose (h : s.ClusterRegsKept t) {m bank row : Nat} {last : Bool} {ns : List Nat} :
    s.ClusterRegsKept (t.rowClose m bank row last ns) :=
  (State.ClusterRegsKept.ite h.setBank (.ite h.retryPush.setBank h.setBank)).neighbourRefresh

theorem State.ClusterRegsKept.countFault (h : s.ClusterRegsKept t) {a n b m : Nat} (count : 0x800000 ≤ a) (fault : 0x800000 ≤ b) :
    s.ClusterRegsKept ((t.count a n).fault b m) :=
  State.ClusterRegsKept.fault (h.setReg (.inr count)) (.inr fault)

theorem State.ClusterRegsKept.mcCommand (h : s.ClusterRegsKept t) {m bank col : Nat} {r : McReq} {shut : Bool} :
    s.ClusterRegsKept (t.mcCommand m bank col r shut) := by
  have read (o : W72 × Bool) : s.ClusterRegsKept { t.retryPush m (.rd bank col r.a shut) with dramOut := o } := h.retryPush.same rfl
  have fault : 0x800000 ≤ Reg.mcFault m := by lia
  unfold State.mcCommand
  dsimp only
  refine .ite h.retryPush.setDramCell ?_
  split
  · exact read _
  · have corrected : 0x800000 ≤ Reg.mcCeCnt m := by lia
    exact .ite ((read _).countFault corrected fault).setMc ((read _).countFault corrected fault)
  · have poisoned : 0x800000 ≤ Reg.mcPoisonCnt m := by lia
    exact (read _).setWreg.countFault poisoned fault
  · have bad : 0x800000 ≤ Reg.mcUeCnt m := by lia
    exact (read _).setWreg.countFault bad fault

theorem State.ClusterRegsKept.mcServeOne (h : s.ClusterRegsKept t) {m : Nat} {r : McReq} :
    s.ClusterRegsKept (t.mcServeOne m r) := h.rowOpen.mcCommand.rowClose

theorem State.ClusterRegsKept.mcServe {m n : Nat} (h : s.ClusterRegsKept t) : s.ClusterRegsKept (State.mcServe m n t) := by
  induction n generalizing t with
  | zero => exact h
  | succ n ih =>
    refine .ite h ?_
    dsimp only
    split
    · exact h
    · exact ih h.setMc.mcServeOne

theorem State.ClusterRegsKept.mcRequest (h : s.ClusterRegsKept t) {m : Nat} {r : McReq} :
    s.ClusterRegsKept (t.mcRequest m r) := .ite h.setMc h.mcServeOne.mcServe

theorem State.ClusterRegsKept.dramWrite (h : s.ClusterRegsKept t) (a : Nat) (v : W72) (poison : Bool) :
    s.ClusterRegsKept (t.dramWrite a v poison) :=
  .ite (h.fault (.inr (by decide))) (.ite h (State.ClusterRegsKept.ite h h.setMc).mcRequest)

theorem State.ClusterRegsKept.dramWriteMany {l : List W72} {a : Nat} (h : s.ClusterRegsKept t) :
    s.ClusterRegsKept (State.dramWriteMany l a t) := by
  induction l generalizing a t with
  | nil => exact h
  | cons v l ih => exact ih (h.dramWrite a v false)

/-! ## The actions of a zone -/

theorem State.ClusterRegsKept.queued (h : s.ClusterRegsKept t) {q : List (List W72)} {lost : Nat} {seq : W32} :
    s.ClusterRegsKept { t with evq := q, evLost := lost, evSeq := seq } := h.same rfl

theorem State.ClusterRegsKept.evPush (h : s.ClusterRegsKept t) {ch : Nat} (vector : ch < 32) {rec : W32 → List W72} :
    s.ClusterRegsKept (t.evPush ch rec) := by
  unfold State.evPush
  extract_lets level owes need lostRec afterLost pushed shown wm full
  have pushed_kept : s.ClusterRegsKept pushed := (State.ClusterRegsKept.ite h.queued h).queued
  have shown_kept : s.ClusterRegsKept shown := .ite (pushed_kept.setReg (.inl (by decide))) pushed_kept
  have full_kept : s.ClusterRegsKept full := .ite (shown_kept.setReg (.inl (by decide))) shown_kept
  exact .ite (.event (.fault (h.queued.setReg (.inl (by decide))) (.inl (by decide))) (by decide)) (full_kept.event (by omega))

theorem State.ClusterRegsKept.tpdoAsk (h : s.ClusterRegsKept t) {c i : Nat} (asked : t.tpdoAsk c i = some u) :
    s.ClusterRegsKept u := by
  unfold State.tpdoAsk at asked
  split at asked
  · cases asked
  · cases asked
    exact h.same rfl

theorem State.ClusterRegsKept.estateOpen (h : s.ClusterRegsKept t) {dev : Nat} : s.ClusterRegsKept (t.estateOpen dev) :=
  have drawn : s.ClusterRegsKept t.drawNonce.2 := h.same rfl
  drawn.setEstate.datagram

theorem State.ClusterRegsKept.estateWrite (h : s.ClusterRegsKept t) {dev id : Nat} {b : List Byte} :
    s.ClusterRegsKept (t.estateWrite dev id b) := by
  unfold State.estateWrite
  split
  · exact .ite h.setEstate.datagram h.estateOpen
  · exact h.estateOpen

theorem State.ClusterRegsKept.remotePut (h : s.ClusterRegsKept t) {z : Nat} {r : RemoteSt} : s.ClusterRegsKept (t.remotePut z r) := by
  have put := h.setZone (z := z) (x := { t.zone z with remote := some r })
  have emitted (o : Out) : s.ClusterRegsKept ((t.setZone z { t.zone z with remote := some r }).emit o) := put.same rfl
  exact .ite (put.same rfl) (emitted _).estateWrite

theorem State.ClusterRegsKept.remoteSend (h : s.ClusterRegsKept t) {z : Nat} : s.ClusterRegsKept (t.remoteSend z) :=
  have numbered (n : NetSt) : s.ClusterRegsKept { t with net := n } := h.same rfl
  (numbered _).remotePut

theorem zoneCh_lt (w : W72) : zoneCh w < 32 := field_lt w 58 54

theorem State.ClusterRegsKept.capShow (h : s.ClusterRegsKept t) : s.ClusterRegsKept t.capShow :=
  (h.setReg (.inl (by decide))).setReg (.inl (by decide))

theorem State.ClusterRegsKept.capStart (h : s.ClusterRegsKept t) {z : Nat} {c : ChangeSt} :
    s.ClusterRegsKept (t.capStart z c) := by
  unfold State.capStart
  dsimp only
  split
  · exact (h.evPush (zoneCh_lt _)).fault (.inl (by decide))
  · exact h.setCap.capShow.dramWriteMany

theorem State.ClusterRegsKept.zoneChanged (h : s.ClusterRegsKept t) {z old : Nat} {e : EvalSt} :
    s.ClusterRegsKept (t.zoneChanged z old e) := by
  unfold State.zoneChanged
  extract_lets x w4 ch asks cap tpdo fail asked acts c zone last event void remote
  have asks_kept : s.ClusterRegsKept asks := h.setZone
  have asked_kept : s.ClusterRegsKept asked := by
    unfold asked
    cases found : tpdo with
    | none => exact asks_kept
    | some u =>
      unfold tpdo at found
      split at found
      · exact asks_kept.tpdoAsk found
      · cases found
  have last_kept : s.ClusterRegsKept last := asked_kept.setZone
  have event_kept : s.ClusterRegsKept event := .ite (last_kept.evPush (zoneCh_lt _)) last_kept
  have void_kept : s.ClusterRegsKept void := .ite (event_kept.fault (.inl (by decide))) event_kept
  have remote_kept : s.ClusterRegsKept remote := .ite void_kept.remoteSend void_kept
  exact .ite remote_kept.capStart remote_kept

theorem State.ClusterRegsKept.zoneEval (h : s.ClusterRegsKept t) {z : Nat} {e : EvalSt} : s.ClusterRegsKept (t.zoneEval z e) :=
  have counted : s.ClusterRegsKept (t.count Reg.zoneEvalCnt 1) := h.setReg (.inl (by decide))
  .ite counted.setZone counted.setZone.zoneChanged

theorem State.ClusterRegsKept.zoneFinish (h : s.ClusterRegsKept t) {z : Nat} : s.ClusterRegsKept (t.zoneFinish z) :=
  .ite (List.foldlRecOn (motive := s.ClusterRegsKept) _ _ h fun _ kept _ _ => kept.zoneEval) h

theorem State.ClusterRegsKept.zonesRest (h : s.ClusterRegsKept t) {ch : Nat} : s.ClusterRegsKept (t.zonesRest ch) :=
  forEach_keeps s.ClusterRegsKept _ _ _ (fun _ _ kept => kept.zoneFinish.setZone) h

end

end Sys2Proof.Machine
end

section
/-!
PROOFS. Service of a channel (R194, R211 to R219, R427), and O34: what a bounced inbox leaves alone, how a core is renewed, and what
ASSIGN, the vendor reload and the gating of a domain do with it.
-/
namespace Sys2Proof.Machine

/-! ## What a bounced inbox leaves alone -/

/-- P speaks of what a message that goes back does not touch: it survives each of the steps that send one back. -/
structure KeptByBounce (P : State → Prop) : Prop where
  same : ∀ {t u : State}, u.regs = t.regs → u.cores = t.cores → P t → P u
  event : ∀ {t : State} {v : Nat}, v < 256 → P t → P (t.event v)
  fault : ∀ {t : State} (cl m : Nat), P t → P (t.fault (Reg.clFault cl) m)
  count : ∀ {t : State} (cl : Nat), P t → P (t.count (Reg.clNoteLost cl) 1)

section
variable {P : State → Prop} (kept : KeptByBounce P)
include kept

theorem KeptByBounce.bounceBack {s : State} (m : Msg) (why : Nat) (h : P s) : P (s.bounceBack m why) := by
  have scl : msgScl m < 32 := field_lt m.h 45 41
  have toHost (x : ClusterSt) (was : Bool) : P ((s.setCluster (msgScl m) x).mailbox (msgScl m) was) := by
    have set : P (s.setCluster (msgScl m) x) := kept.same (t := s) rfl rfl h
    cases was with
    | true => exact kept.event (by omega) set
    | false => exact set
  unfold State.bounceBack
  dsimp only
  split
  · exact kept.same (t := s) rfl rfl h
  · split
    · exact kept.fault _ _ h
    · exact toHost _ _
  · split
    · exact kept.fault _ _ h
    · exact toHost _ _
  · exact kept.fault _ _ (kept.count _ h)
  · exact h

theorem KeptByBounce.inbox {s : State} (l : List Msg) (why : Nat) (h : P s) : P (l.foldl (fun t m => t.bounceBack m why) s) :=
  List.foldlRecOn (motive := P) l _ h fun _ ht m _ => kept.bounceBack m why ht

/-- What does not speak of the cores, a renewal keeps. -/
theorem KeptByBounce.renewCore {s : State} (set : ∀ (t : State) (k : Nat) (x : CoreSt), P t → P (t.setCore k x)) (c : Nat)
    (mode : CoreMode) (vendor : Bool) (role : BitVec 4) (pc why : Nat) (h : P s) : P (s.renewCore c mode vendor role pc why) :=
  kept.inbox _ _ (set _ _ _ h)

end

theorem keptByBounce_core (k : Nat) (x : CoreSt) : KeptByBounce fun t => t.core k = x where
  same := fun _ cores h => (State.core_of_cores cores k).trans h
  event := fun _ h => (State.core_of_cores (State.event_frame _ _).1 k).trans h
  fault := fun _ _ h => (State.core_of_cores (State.fault_frame _ _ _).1 k).trans h
  count := fun _ h => h

/-- A register beside FAULT and NOTE_LOST of the clusters that no raise touches. -/
theorem keptByBounce_reg {a : Nat} (v : W32) (spared : RaiseSpares a) (notFault : ∀ cl, a ≠ Reg.clFault cl)
    (notLost : ∀ cl, a ≠ Reg.clNoteLost cl) : KeptByBounce fun t => t.reg a = v where
  same := fun regs _ h => by rw [State.reg, regs]; exact h
  event := fun below h => (State.event_reg_of_spared _ spared below).trans h
  fault := fun cl m h => (State.fault_reg_of_ne _ spared (notFault cl) m).trans h
  count := fun cl h => (State.reg_setReg_ne _ _ (notLost cl)).trans h

theorem keptByBounce_clAssign (cl : Nat) (v : W32) : KeptByBounce fun t => t.reg (Reg.clAssign cl) = v :=
  keptByBounce_reg v (raiseSpares_of_headBase_le (by lia)) (fun _ => by lia) fun _ => by lia

theorem keptByBounce_clStatus (cl : Nat) (v : W32) : KeptByBounce fun t => t.reg (Reg.clStatus cl) = v :=
  keptByBounce_reg v (raiseSpares_of_headBase_le (by lia)) (fun _ => by lia) fun _ => by lia

/-- A fault bit of a cluster stays set. -/
theorem keptByBounce_clFault (cl : Nat) {i : Nat} (hi : i < 24) : KeptByBounce fun t => t.rbit (Reg.clFault cl) i = true where
  same := fun regs _ h => by rw [State.rbit, State.reg, regs]; exact h
  event := fun below h => by rw [State.rbit, State.event_reg_of_spared _ (raiseSpares_clFault cl) below]; exact h
  fault := fun other m h => by
    by_cases own : other = cl
    · exact own ▸ State.fault_rbit_kept (raiseSpares_clFault other) m hi (own ▸ h)
    · rw [State.rbit, State.fault_reg_of_ne _ (raiseSpares_clFault cl) (by lia)]; exact h
  count := fun other h => by rw [State.rbit, State.count, State.reg_setReg_ne _ _ (by lia)]; exact h

/-! ## A core takes a new life (R200, R210) -/

section
variable (s : State) (mode : CoreMode) (vendor : Bool) (role : BitVec 4) (pc why : Nat)

theorem State.renewCore_core_same (k : Nat) : (s.renewCore k mode vendor role pc why).core k =
    { mode := mode, vendor := vendor, role := role, epoch := (s.core k).epoch + 1, pc := pc } :=
  (keptByBounce_core k _).inbox _ _ (s.core_setCore_same _ _)

theorem State.renewCore_core_ne {k c : Nat} (other : k ≠ c) : (s.renewCore c mode vendor role pc why).core k = s.core k :=
  (keptByBounce_core k _).inbox _ _ (s.core_setCore_ne _ other)

end

/-! ## ASSIGN (R218) -/

theorem State.served_of_reg {s t : State} {cl : Nat} (same : t.reg (Reg.clAssign cl) = s.reg (Reg.clAssign cl)) :
    t.served cl = s.served cl := by
  unfold State.served State.rbit State.fld
  rw [same]

/-- Loading and unloading roles leaves what is served. -/
theorem State.vendorLoad_served (s : State) (cl k : Nat) : (s.vendorLoad cl).served k = s.served k := by
  have renewed (t : State) (c : Nat) (mode : CoreMode) (vendor : Bool) (role : BitVec 4) (pc why : Nat)
      (h : t.reg (Reg.clAssign k) = s.reg (Reg.clAssign k)) :
      (t.renewCore c mode vendor role pc why).reg (Reg.clAssign k) = s.reg (Reg.clAssign k) :=
    (keptByBounce_clAssign k _).renewCore (fun _ _ _ set => set) c mode vendor role pc why h
  refine State.served_of_reg ?_
  unfold State.vendorLoad
  split
  · rfl
  · refine forEach_keeps (fun t => t.reg (Reg.clAssign k) = s.reg (Reg.clAssign k)) _ _ s (fun c t h => ?_) rfl
    dsimp only
    split
    · split
      · exact h
      · exact renewed t _ _ _ _ _ _ h
    · split
      · exact renewed t _ _ _ _ _ _ h
      · exact h

/-- Once ASSIGN is written, what follows leaves what each cluster serves. -/
theorem State.assignWrite_served {s : State} {cl : Nat} {v : W32} (ok : s.assignCheck cl v = none) (q : Req) {k : Nat} (hk : k < 32) :
    (s.assignWrite cl v q).served k = (s.setReg (Reg.clAssign cl) (v &&& 0x11F)).served k := by
  have rests (o : Option Nat) {t u : State} (h : t.ClusterRegsKept u) :
      t.ClusterRegsKept (match o with | some ch => u.zonesRest ch | none => u) := by
    cases o with
    | none => exact h
    | some ch => exact h.zonesRest
  unfold State.assignWrite
  simp only [ok]
  split
  · rfl
  · rw [State.vendorLoad_served]
    exact State.served_of_reg (rests _ (rests _ (.refl _)) _ (by lia) (by lia))

/-- ASSIGN holds its SERVE and CH. -/
theorem State.setReg_clAssign_served (s : State) (cl : Nat) (v : W32) :
    (s.setReg (Reg.clAssign cl) (v &&& 0x11F)).served cl = if bitOf v 8 then some (field v 4 0) else none := by
  have low : ∀ i < 5, (0x11F : W32).getLsbD i = true := by decide
  have serve : bitOf (v &&& 0x11F) 8 = bitOf v 8 := by simp [bitOf]
  have channel : field (v &&& 0x11F) 4 0 = field v 4 0 := Nat.eq_of_testBit_eq fun i => by
    by_cases hi : i < 5
    · simp only [testBit_field, BitVec.getLsbD_and, Nat.add_zero, low i hi, Bool.and_true]
    · simp [testBit_field, hi]
  simp only [State.served, State.rbit, State.fld, State.reg_setReg_same, serve, channel]

/-! ## The vendor reload (R213) -/

/-- A core that holds a vendor role starts it anew. -/
def State.vendorRenewed (s : State) (k : Nat) : State :=
  if (s.core k).vendor then s.renewCore k .running true (s.core k).role 0 badEpoch else s

/-- The reload of a cluster whose core f has faulted, but for its chains. -/
def State.vendorReloaded (s : State) (f : Core) : State :=
  (forEach (List.range 8) (fun c t => t.vendorRenewed (coreOf (f / 8) c)) (s.fault (Reg.clFault (f / 8)) (2 ^ (f.val % 8)))).fault
    (Reg.clFault (f / 8)) (2 ^ 8)

theorem exec_vendorReload {s : State} {f : Core} {ch : Nat} (vendor : (s.core f).vendor = true)
    (served : (s.vendorReloaded f).served (f / 8) = some ch) : exec (.vendorReload f) s =
      .next ((s.vendorReloaded f).setChain ch { (s.vendorReloaded f).chain ch with restart := true }) := by
  have loaded : exec (.vendorReload f) s = match (s.vendorReloaded f).served (f / 8) with
      | none => .next (s.vendorReloaded f)
      | some ch => .next ((s.vendorReloaded f).setChain ch { (s.vendorReloaded f).chain ch with restart := true }) :=
    if_neg (by simp [vendor])
  rw [loaded, served]

theorem exec_vendorReload_of_user {s : State} {f : Core} (user : (s.core f).vendor = false) : exec (.vendorReload f) s = .next s :=
  if_pos (by simp [user])

theorem KeptByBounce.vendorRenewed {P : State → Prop} (kept : KeptByBounce P)
    (set : ∀ (t : State) (k : Nat) (x : CoreSt), P t → P (t.setCore k x)) {s : State} (k : Nat) (h : P s) : P (s.vendorRenewed k) := by
  unfold State.vendorRenewed
  split
  · exact kept.renewCore set _ _ _ _ _ _ h
  · exact h

theorem State.vendorRenewed_core_ne (s : State) {k c : Nat} (other : k ≠ c) : (s.vendorRenewed c).core k = s.core k := by
  unfold State.vendorRenewed
  split
  · exact s.renewCore_core_ne _ _ _ _ _ other
  · rfl

/-- A vendor core's record after the reload; a user core's stays. -/
def CoreSt.reloaded (x : CoreSt) : CoreSt :=
  if x.vendor then { mode := .running, vendor := true, role := x.role, epoch := x.epoch + 1 } else x

theorem State.vendorRenewed_core_same (s : State) (k : Nat) : (s.vendorRenewed k).core k = (s.core k).reloaded := by
  unfold State.vendorRenewed CoreSt.reloaded
  split
  · exact s.renewCore_core_same _ _ _ _ _ k
  · rfl

section
variable (s : State) (f : Core)

/-- What neither bounces nor core records touch, a reload keeps. -/
theorem KeptByBounce.vendorReloaded {P : State → Prop} (kept : KeptByBounce P)
    (set : ∀ (t : State) (k : Nat) (x : CoreSt), P t → P (t.setCore k x))
    (h : P (s.fault (Reg.clFault (f / 8)) (2 ^ (f.val % 8)))) : P (s.vendorReloaded f) :=
  kept.fault _ _ (forEach_keeps P _ _ _ (fun _ _ ht => kept.vendorRenewed set _ ht) h)

theorem State.vendorReloaded_served (k : Nat) : (s.vendorReloaded f).served k = s.served k :=
  have kept := keptByBounce_clAssign k (s.reg (Reg.clAssign k))
  State.served_of_reg (kept.vendorReloaded s f (fun _ _ _ h => h) (kept.fault _ _ rfl))

theorem State.vendorReloaded_core_bit : (s.vendorReloaded f).rbit (Reg.clFault (f / 8)) (f % 8) = true :=
  have below : f.val % 8 < 24 := by omega
  (keptByBounce_clFault (f / 8) below).vendorReloaded s f (fun _ _ _ h => h)
    (s.fault_rbit_self (raiseSpares_clFault _) below Nat.testBit_two_pow_self)

theorem State.vendorReloaded_vendor_bit : (s.vendorReloaded f).rbit (Reg.clFault (f / 8)) 8 = true :=
  State.fault_rbit_self _ (raiseSpares_clFault _) (by decide) (by decide)

theorem State.vendorReloaded_core {c : Nat} (hc : c < 8) :
    (s.vendorReloaded f).core (coreOf (f / 8) c) = (s.core (coreOf (f / 8) c)).reloaded := by
  have apart {j : Nat} (other : j ≠ c) : coreOf (f / 8) c ≠ coreOf (f / 8) j := by unfold coreOf; omega
  refine (State.core_of_cores (State.fault_frame _ _ _).1 _).trans ?_
  refine forEach_once (before := fun t : State => t.core (coreOf (f / 8) c) = s.core (coreOf (f / 8) c))
    (after := fun t => t.core (coreOf (f / 8) c) = (s.core (coreOf (f / 8) c)).reloaded) (i := c)
    (fun j other t h => ?_) (fun t h => ?_) (fun j other t h => ?_) _ _ List.nodup_range (List.mem_range.mpr hc) ?_
  · exact (t.vendorRenewed_core_ne (apart other)).trans h
  · exact (t.vendorRenewed_core_same _).trans (congrArg _ h)
  · exact (t.vendorRenewed_core_ne (apart other)).trans h
  · exact State.core_of_cores (State.fault_frame _ _ _).1 _

end

/-! ## A domain is gated (R194) -/

theorem cellsGet_of_not_mem {α : Type} {d : α} {k : Nat} : (l : List (Nat × α)) → (∀ c ∈ l, c.1 ≠ k) → cellsGet d k l = d
  | [], _ => rfl
  | (j, v) :: l, absent => by
    rw [cellsGet, if_neg (absent (j, v) List.mem_cons_self)]
    exact cellsGet_of_not_mem l fun c mem => absent c (List.mem_cons_of_mem _ mem)

/-- A dropped range reads its default. -/
theorem Store.get_dropRange {α : Type} (m : Store α) (d : α) {lo hi k : Nat} (low : lo ≤ k) (high : k < hi) :
    (m.dropRange lo hi).get d k = d := by
  refine cellsGet_of_not_mem _ fun c mem same => ?_
  have out := (List.mem_filter.mp mem).2
  simp [same, low, high] at out

theorem forEach_keeps_of_mem {σ : Type} (P : σ → Prop) {f : Nat → σ → σ} {l : List Nat} {s : σ}
    (step : ∀ i ∈ l, ∀ t, P t → P (f i t)) (h : P s) : P (forEach l f s) :=
  List.foldlRecOn (motive := P) l _ h fun t ht i hi => step i hi t ht

/-- A cluster loses its power and its cores go FREE. -/
def State.clusterGated (s : State) (cl : Nat) : State :=
  forEach (List.range 8) (fun c t => t.renewCore (coreOf cl c) .free false 0 0 notRunning) (s.setRbit (Reg.clStatus cl) 16 false)

/-- The sixteen clusters from lo on lose their power. -/
def State.clustersGated (s : State) (lo : Nat) : State :=
  forEach ((List.range 16).map (· + lo)) (fun cl t => t.clusterGated cl) s

/-- The first cluster of a domain. -/
def domainFirst (b : Bool) : Nat := if b then 16 else 0

/-- t has the cores and the registers of s. -/
def State.CoresRegsKept (s t : State) : Prop := t.cores = s.cores ∧ t.regs = s.regs

/-- The chains and the memories a gated domain loses are no core's and no register's. -/
theorem State.dspGated_frame (s : State) (b : Bool) : (s.clustersGated (domainFirst b)).CoresRegsKept (s.dspGated b) := by
  refine forEach_keeps (s.clustersGated (domainFirst b)).CoresRegsKept _ _ _ (fun ch t h => ?_) ⟨rfl, rfl⟩
  have lost : (s.clustersGated (domainFirst b)).CoresRegsKept (t.chainLost ch) := h
  cases t.clusterOf ch with
  | some cl => exact iteInduction (fun _ => lost) fun _ => h
  | none => exact h

section
variable (s : State) (cl : Nat)

theorem State.clusterGated_core {c : Nat} (hc : c < 8) :
    (s.clusterGated cl).core (coreOf cl c) = { epoch := (s.core (coreOf cl c)).epoch + 1 } := by
  have apart {j : Nat} (other : j ≠ c) : coreOf cl c ≠ coreOf cl j := by unfold coreOf; omega
  refine forEach_once (before := fun t : State => t.core (coreOf cl c) = s.core (coreOf cl c))
    (after := fun t => t.core (coreOf cl c) = { epoch := (s.core (coreOf cl c)).epoch + 1 }) (i := c)
    (fun j other t h => ?_) (fun t h => ?_) (fun j other t h => ?_) _ _ List.nodup_range (List.mem_range.mpr hc) rfl
  · exact (t.renewCore_core_ne _ _ _ _ _ (apart other)).trans h
  · rw [t.renewCore_core_same, h]
  · exact (t.renewCore_core_ne _ _ _ _ _ (apart other)).trans h

/-- The cores of the other clusters stay. -/
theorem State.clusterGated_core_ne {k : Nat} (out : k / 8 ≠ cl) : (s.clusterGated cl).core k = s.core k :=
  forEach_keeps_of_mem (fun t : State => t.core k = s.core k) (s := s.setRbit (Reg.clStatus cl) 16 false)
    (fun c mem t h => (t.renewCore_core_ne _ _ _ _ _ (by have := List.mem_range.mp mem; unfold coreOf; omega)).trans h) rfl

theorem State.clusterGated_reg (k : Nat) :
    (s.clusterGated cl).reg (Reg.clStatus k) = (s.setRbit (Reg.clStatus cl) 16 false).reg (Reg.clStatus k) :=
  have kept := keptByBounce_clStatus k ((s.setRbit (Reg.clStatus cl) 16 false).reg (Reg.clStatus k))
  forEach_keeps_of_mem (fun t : State => t.reg (Reg.clStatus k) = (s.setRbit (Reg.clStatus cl) 16 false).reg (Reg.clStatus k))
    (s := s.setRbit (Reg.clStatus cl) 16 false) (fun _ _ _ h => kept.renewCore (fun _ _ _ set => set) _ _ _ _ _ _ h) rfl

theorem State.clusterGated_powered_self : (s.clusterGated cl).dspPowered cl = false := by
  rw [State.dspPowered, State.rbit, s.clusterGated_reg]
  exact s.rbit_setRbit_same _ _ _ (by decide)

theorem State.clusterGated_powered_kept {k : Nat} (off : s.dspPowered k = false) : (s.clusterGated cl).dspPowered k = false := by
  by_cases own : k = cl
  · subst own
    exact s.clusterGated_powered_self k
  · rw [State.dspPowered, State.rbit, s.clusterGated_reg, State.setRbit, State.reg_setReg_ne _ _ (by lia)]
    exact off

end

section
variable (s : State) {lo cl : Nat} (hcl : cl < 16)
include hcl

theorem mem_domain : lo + cl ∈ (List.range 16).map (· + lo) :=
  List.mem_map.mpr ⟨cl, List.mem_range.mpr hcl, Nat.add_comm _ _⟩

theorem State.clustersGated_powered : (s.clustersGated lo).dspPowered (lo + cl) = false :=
  forEach_reaches (fun t => t.dspPowered (lo + cl) = false) (fun j t => t.clusterGated_powered_kept j)
    (fun t => t.clusterGated_powered_self _) _ s (mem_domain hcl)

theorem State.clustersGated_core {c : Nat} (hc : c < 8) : (s.clustersGated lo).core (coreOf (lo + cl) c) =
    { epoch := (s.core (coreOf (lo + cl) c)).epoch + 1 } := by
  have apart {j : Nat} (other : j ≠ lo + cl) : coreOf (lo + cl) c / 8 ≠ j := by unfold coreOf; omega
  refine forEach_once (before := fun t : State => t.core (coreOf (lo + cl) c) = s.core (coreOf (lo + cl) c))
    (after := fun t => t.core (coreOf (lo + cl) c) = { epoch := (s.core (coreOf (lo + cl) c)).epoch + 1 }) (i := lo + cl)
    (fun j other t h => ?_) (fun t h => ?_) (fun j other t h => ?_) _ _
    (List.nodup_range.map (add_left_injective lo)) (mem_domain hcl) rfl
  · exact (t.clusterGated_core_ne j (apart other)).trans h
  · rw [t.clusterGated_core _ hc, h]
  · exact (t.clusterGated_core_ne j (apart other)).trans h

end

/-- The cores of the other domain stay. -/
theorem State.clustersGated_core_out (s : State) {lo k : Nat} (out : k / 8 < lo ∨ lo + 16 ≤ k / 8) :
    (s.clustersGated lo).core k = s.core k :=
  forEach_keeps_of_mem (fun t : State => t.core k = s.core k) (fun cl mem t h => by
    obtain ⟨i, hi, rfl⟩ := List.mem_map.mp mem
    have := List.mem_range.mp hi
    exact (t.clusterGated_core_ne _ (by omega)).trans h) rfl

/-- The gated state with its domain's bits of PWR_STAT cleared. -/
def State.dspGatedOff (s : State) (b : Bool) : State :=
  ((s.dspGated b).setRbit Reg.sysPwrStat (b2n b) false).setRbit Reg.sysPwrStat (8 + b2n b) false

theorem exec_dspDomainGated (s : State) (b : Bool) : exec (.dspDomainGated b) s =
    .next (if s.rbit Reg.sysPwrStat (8 + b2n b) && !s.rbit Reg.sysPwrCtrl (b2n b) && s.rbit Reg.sysPwrStat (b2n b) then s.dspGatedOff b
      else s) := rfl

section
variable (s : State) (b : Bool)

theorem State.dspGatedOff_core (k : Nat) : (s.dspGatedOff b).core k = (s.clustersGated (domainFirst b)).core k :=
  have kept (t : State) (i : Nat) : (t.setRbit Reg.sysPwrStat i false).core k = t.core k := rfl
  (kept _ _).trans ((kept _ _).trans (State.core_of_cores (s.dspGated_frame b).1 k))

theorem State.dspGatedOff_powered (cl : Nat) : (s.dspGatedOff b).dspPowered cl = (s.clustersGated (domainFirst b)).dspPowered cl := by
  have sys (t : State) (i : Nat) : (t.setRbit Reg.sysPwrStat i false).reg (Reg.clStatus cl) = t.reg (Reg.clStatus cl) :=
    t.reg_setReg_ne _ (by lia)
  simp only [State.dspPowered, State.rbit, State.dspGatedOff, sys]
  rw [State.reg, (s.dspGated_frame b).2]
  rfl

end

theorem domainFirst_eq (b : Bool) : domainFirst b = 16 * b.toNat := by cases b <;> rfl
theorem b2n_eq_toNat (b : Bool) : b2n b = b.toNat := by cases b <;> rfl

/-- Settles O34: each command through what it does to the cores, the registers and the memories it names. -/
theorem serviceOfAChannel : Obligations.ServiceOfAChannel := by
  refine ⟨?accepted, ?refused, ?reload, fun s f => exec_vendorReload_of_user, ?idle, ?gated⟩
  case accepted =>
    intro s q cl v working ok
    refine ⟨s.assignWrite cl v q, congrArg _ (if_neg (by simp [working])), ?_, fun k hk other => ?_⟩
    · exact (State.assignWrite_served ok q cl.isLt).trans (s.setReg_clAssign_served cl v)
    · exact (State.assignWrite_served ok q hk).trans (State.served_of_reg (s.reg_setReg_ne _ (by lia)))
  case refused =>
    intro s q cl v c working bad
    refine congrArg _ ((if_neg (by simp [working])).trans ?_)
    simp only [State.assignWrite, bad]
  case reload =>
    intro s f ch vendor served
    refine ⟨_, exec_vendorReload vendor ((s.vendorReloaded_served f _).trans served), fun c => s.vendorReloaded_core f c.isLt,
      s.vendorReloaded_core_bit f, s.vendorReloaded_vendor_bit f, ?_⟩
    rw [State.chain_setChain_same]
  case idle =>
    intro s b still
    rw [exec_dspDomainGated, b2n_eq_toNat]
    rcases still with off | settled | on
    · simp [off]
    · simp [settled]
    · simp [on]
  case gated =>
    intro s b on moving off
    have first := domainFirst_eq b
    have number := b2n_eq_toNat b
    have bit : b.toNat < 2 := b.toNat_lt
    refine ⟨s.dspGatedOff b, ?_, ?_, ?_, fun cl => ⟨?_, fun c => ?_⟩, fun a ha => ?_, fun a ha => ?_, fun a ha => ?_, fun k hk => ?_⟩
    · rw [exec_dspDomainGated, number, if_pos (by simp [on, moving, off])]
    · rw [State.dspGatedOff, number, State.rbit_setRbit_ne _ _ _ (by omega) (by omega), State.rbit_setRbit_same _ _ _ _ (by omega)]
    · rw [State.dspGatedOff, number, State.rbit_setRbit_same _ _ _ _ (by omega)]
    · rw [State.dspGatedOff_powered, ← first]
      exact s.clustersGated_powered cl.isLt
    · rw [State.dspGatedOff_core, ← first]
      exact s.clustersGated_core cl.isLt c.isLt
    · exact Store.get_dropRange _ _ (by change 65536 * domainFirst b ≤ _; omega) (by change _ < 65536 * (domainFirst b + 16); omega)
    · exact Store.get_dropRange _ _ (by change 131072 * domainFirst b ≤ _; omega) (by change _ < 131072 * (domainFirst b + 16); omega)
    · exact Store.get_dropRange _ _ (by change 16384 * domainFirst b ≤ _; omega) (by change _ < 16384 * (domainFirst b + 16); omega)
    · have other : (!b).toNat = 1 - b.toNat := by cases b <;> rfl
      rw [State.dspGatedOff_core]
      exact s.clustersGated_core_out (by omega)

end Sys2Proof.Machine
end

section
/-!
PROOFS. Sums, differences, negations and selections of the scalar group (R232), and O19.
-/
namespace Sys2Proof.Machine

/-! ## Values -/

/-- An exact result that does not fit 72 bits. -/
theorem over72_eq (t : Int) : over72 t = decide (t < -2 ^ 71 ∨ 2 ^ 71 ≤ t) := by
  have upper : decide (2 ^ 71 - 1 < t) = decide (2 ^ 71 ≤ t) := decide_eq_decide.mpr Int.sub_one_lt_iff
  rw [over72, upper, Bool.decide_or]

theorem effAdd_eq (d : Nat) (a b : W72) : effAdd d a b =
    { effZNV d (a + b) (decide (a.toInt + b.toInt < -2 ^ 71 ∨ 2 ^ 71 ≤ a.toInt + b.toInt)) with
      c := some (decide (2 ^ 72 ≤ a.toNat + b.toNat)) } := by
  rw [effAdd, over72_eq, ww, ww]

theorem effSub_eq (d : Nat) (a b : W72) : effSub d a b =
    { effZNV d (a - b) (decide (a.toInt - b.toInt < -2 ^ 71 ∨ 2 ^ 71 ≤ a.toInt - b.toInt)) with
      c := some (decide (b.toNat ≤ a.toNat)) } := by
  rw [effSub, over72_eq, ww, ww]

/-- CMP has the flags of SUB, whose zero is the equality of the operands. -/
theorem effCmp_eq (a b : W72) : effCmp a b =
    { z := some (decide (a = b)), n := some (a - b).msb,
      v := some (decide (a.toInt - b.toInt < -2 ^ 71 ∨ 2 ^ 71 ≤ a.toInt - b.toInt)), c := some (decide (b.toNat ≤ a.toNat)) } := by
  have zero : decide (a - b = 0) = decide (a = b) := decide_eq_decide.mpr sub_eq_zero
  rw [effCmp, effSub_eq, ← zero]
  rfl

/-- Settles O19, each instruction by its effect: the saturating ones by the one effect that saturates to 72 bits. -/
theorem scalarSumsAndComparisons : Obligations.ScalarSumsAndComparisons := by
  intro s c f x y whole
  refine ⟨fun can => ⟨_, rfl, ?mov⟩, fun can => ⟨_, rfl, ?add⟩, fun can => ⟨_, rfl, ?adds⟩, fun can => ⟨_, rfl, ?sub⟩,
    fun can => ⟨_, rfl, ?subs⟩, fun can => ⟨_, rfl, State.issue_reg_flags can (effCmp_eq _ _) rfl⟩, fun can => ⟨_, rfl, ?neg⟩,
    fun can => ⟨_, rfl, ?abs⟩, fun can => ⟨_, rfl, ?min⟩, fun can => ⟨_, rfl, ?max⟩⟩
  case mov => exact State.issue_reg_tookZN whole can (List.mem_singleton_self _) rfl
  case add => exact State.issue_reg_took whole can (List.mem_singleton_self _) (effAdd_eq _ _ _) rfl rfl
  case adds => exact State.issue_reg_tookZNV whole can (List.mem_singleton_self _) rfl
  case sub => exact State.issue_reg_took whole can (List.mem_singleton_self _) (effSub_eq _ _ _) rfl rfl
  case subs => exact State.issue_reg_tookZNV whole can (List.mem_singleton_self _) rfl
  case neg => exact State.issue_reg_tookZNV whole can (List.mem_singleton_self _) rfl
  case abs => exact State.issue_reg_tookZNV whole can (List.mem_singleton_self _) rfl
  case min => exact State.issue_reg_tookZN whole can (List.mem_singleton_self _) rfl
  case max => exact State.issue_reg_tookZN whole can (List.mem_singleton_self _) rfl

end Sys2Proof.Machine
end

section
/-!
PROOFS. Sums, negation, conjugate, swap and product of the complex group (R233, R236), and O21.
-/
namespace Sys2Proof.Machine

/-- Bit 3 of MOD negates both parts of a product (R236). -/
theorem signedProduct_of_negated {md : BitVec 4} (negated : md.getLsbD 3 = true) (a b : W72) : signedProduct md a b =
    (-(product (md.extractLsb' 0 2).toNat a b).1, -(product (md.extractLsb' 0 2).toNat a b).2) := by
  simp only [signedProduct, negated, if_true]

/-- Settles O21, each instruction by its effect, which saturates both parts but for CSWP. -/
theorem complexSumsAndProducts : Obligations.ComplexSumsAndProducts := by
  refine ⟨fun s c f x y whole => ⟨fun can => ⟨_, rfl, ?cadd⟩, fun can => ⟨_, rfl, ?csub⟩, fun can => ⟨_, rfl, ?cneg⟩,
    fun can => ⟨_, rfl, ?conj⟩, fun can => ⟨_, rfl, ?cswp⟩, fun can => ⟨_, rfl, ?cmul⟩⟩,
    fun a b => ⟨rfl, rfl, rfl, rfl⟩, fun md a b negated => signedProduct_of_negated negated a b⟩
  case cadd => exact State.issue_reg_tookComplex whole can (List.mem_singleton_self _) rfl
  case csub => exact State.issue_reg_tookComplex whole can (List.mem_singleton_self _) rfl
  case cneg => exact State.issue_reg_tookComplex whole can (List.mem_singleton_self _) rfl
  case conj => exact State.issue_reg_tookComplex whole can (List.mem_singleton_self _) rfl
  case cswp => exact State.issue_reg_took whole can (List.mem_singleton_self _) rfl rfl rfl
  case cmul => exact State.issue_reg_tookComplex whole can (List.mem_singleton_self _) rfl

end Sys2Proof.Machine
end

section
/-!
PROOFS. The encoding of the Soric instructions (R224 to R231, R243, R247): each field of a word stands where the decoder reads it,
and O25.
-/
namespace Sys2Proof.Machine

/-! ## Fields of a word put together from parts

The words of an encoding write their width as a numeral. The library's lemmas on the parts of a word look for the sum of the parts'
widths there; these look for none, so that `simp` finds them.
-/

section
variable {v w : Nat} {high : BitVec v} {low : BitVec w} {start : Nat}

theorem extractLsb'_high_part {len : Nat} (above : w ≤ start) :
    BitVec.extractLsb' (n := no_index (v + w)) start len (no_index (high ++ low)) = high.extractLsb' (start - w) len :=
  BitVec.extractLsb'_append_eq_of_le above

theorem extractLsb'_low_part {len : Nat} (below : start + len ≤ w) :
    BitVec.extractLsb' (n := no_index (v + w)) start len (no_index (high ++ low)) = low.extractLsb' start len :=
  BitVec.extractLsb'_append_eq_of_add_le below

theorem getLsbD_parts : BitVec.getLsbD (w := no_index (v + w)) (no_index (high ++ low)) start =
    if start < w then low.getLsbD start else high.getLsbD (start - w) :=
  BitVec.getLsbD_append

end

/-! ## Slots (R225, R226) -/

theorem decodeMove_moveBits (m : MoveF) : decodeMove (moveBits m) = some m := by
  simp [decodeMove, moveBits, extractLsb'_high_part, extractLsb'_low_part, getLsbD_parts, -BitVec.getLsbD_eq_getElem]

/-- The number the opcode table gives a slot's form (R225, R231). -/
def Slot.form : Slot → Nat
  | .reg _ _ => 0
  | .con _ _ => 1
  | .fld _ _ => 2

/-- The opcode of a legal slot is listed, in the form the slot has (R231). -/
theorem Slot.listed_of_ok {sl : Slot} (legal : sl.ok = true) : ∃ row, opRow sl.op = some row ∧ row.form = sl.form := by
  obtain ⟨op, f⟩ | ⟨op, f⟩ | ⟨op, f⟩ := sl
  all_goals
    simp only [Slot.ok] at legal
    split at legal
    · cases legal
    · next row listed =>
      simp only [Bool.and_eq_true, decide_eq_true_eq, and_assoc] at legal
      obtain ⟨form, -⟩ := legal
      exact ⟨row, listed, form⟩

/-- The decoder reads a slot in the form its opcode is listed with, so a legal slot comes back. -/
theorem decodeSlot_bits {sl : Slot} (legal : sl.ok = true) : decodeSlot sl.bits = some sl := by
  obtain ⟨row, listed, form⟩ := Slot.listed_of_ok legal
  obtain ⟨op, f⟩ | ⟨op, f⟩ | ⟨op, f⟩ := sl
  all_goals
    simp only [Slot.op, Slot.form] at listed form
    simp [decodeSlot, Slot.bits, listed, form, extractLsb'_high_part, extractLsb'_low_part, getLsbD_parts,
      -BitVec.getLsbD_eq_getElem, -BitVec.extractLsb'_toNat]

/-! ## Words (R224, R243, R247) -/

/-- A parallel word is decoded slot by slot. -/
theorem decodeSoric_encode_par (sl : Slot) (x y : MoveF) : decodeSoric (Soric.par sl x y).encode =
    (decodeSlot sl.bits).map fun sl => .par sl x y := by
  simp only [decodeSoric, Soric.encode, extractLsb'_high_part, extractLsb'_low_part, BitVec.extractLsb'_eq_self,
    decodeMove_moveBits, Nat.reduceLeDiff, Nat.reduceAdd, Nat.reduceSub, Nat.le_refl]
  cases decodeSlot sl.bits with
  | none => rfl
  | some _ => rfl

/-- A legal parallel word by its slots; of every other word, legal or not, each field is read where its layout puts it. -/
theorem decodeSoric_encode {i : Soric} {pc : Nat} (legal : i.ok pc = true) : decodeSoric i.encode = some i := by
  cases i
  case par sl x y =>
    simp only [Soric.ok, Bool.and_eq_true, and_assoc] at legal
    obtain ⟨legalSlot, -⟩ := legal
    rw [decodeSoric_encode_par, decodeSlot_bits legalSlot, Option.map_some]
  all_goals
    simp [decodeSoric, decodeControl, Soric.encode, extractLsb'_high_part, extractLsb'_low_part, getLsbD_parts,
      -BitVec.getLsbD_eq_getElem, -BitVec.extractLsb'_toNat]

/-- Settles O25: each field of a legal instruction's word stands where the decoder reads it, and the words written out decode by
evaluation. -/
theorem soricDecodeOfEncode : Obligations.SoricDecodeOfEncode :=
  ⟨fun _ _ legal => decodeSoric_encode legal, by decide, by decide, by decide, by decide, by decide, by decide, by decide,
    by decide⟩

end Sys2Proof.Machine
end

section
/-!
PROOFS. What a step does at all: it runs the front command (O1), and every command answers a next state (O2).
-/
namespace Sys2Proof.Machine

/-- The outcome o is a next state. -/
inductive Answers : Host.Outcome State Fault Refusal → Prop
  | next {t : State} : Answers (.next t)

theorem Answers.ite {c : Prop} {d : Decidable c} {x y : Host.Outcome State Fault Refusal} (hx : Answers x) (hy : Answers y) :
    Answers (if c then x else y) := by
  split
  · exact hx
  · exact hy

theorem Answers.exists_next {o : Host.Outcome State Fault Refusal} : Answers o → ∃ t, o = .next t
  | .next => ⟨_, rfl⟩

/-- Every meaning ends in next states only: at once, behind one condition or two, or behind a look at what the state holds. -/
theorem exec_answers (i : Instr) (s : State) : Answers (exec i s) := by
  cases i
  case headokQualified | chirpDone | lmonEdge | headTempReading | calSlotStart | ocxoCheckDone | refPllUnlock | tdcComplete |
    tdcWindowEnd | tdcRearm | headerRingClear | bandSample | bandFrameEnd | dtsFlushRead | zoneInputTick |
    remoteRefresh | dramRead | dramWrite | retryRetire | alertNFall | trainingDone | freqChangeSre | memPllRelock |
    freqChangeDone | idleSelfRefresh | selfRefreshExit | bar2Write | attnEvent | msixUnmask | lampFrameStart |
    busReplyTimeout | refSettled | loopTargetUpdate | loopReadback | loopHostTimeout | loopMismatch | loopOpen |
    quinceTempRead | subscribeAdd | subscribeRemove | subscribeClear | subscriptionLeaseExpire | yarfelFrameRx |
    sessionOpen | sessionConfirmTimeout | sessionIdleTimeout | broadcastWrite | ptpSyncInterval | heartbeatProduce |
    tpdoTransmit | tpdoEventTimer | rpdoReceive | canBusOff | canBusOffRecovery | linkLoss | watchdog | supplyWarn |
    bootFailure | dramFillDone | bootDone | pwrCtrlWrite | domainPowered | domainReadyToGate | domainFail |
    cclkSelChange | lifeGo | configurationSpaceWrite | vrefxRangeChange | loopMismatchClear | loopOpenClear |
    canErrstateChange | linkUp | dieHotWarning | refPllRelock | boReqInterval =>
    exact .ite .next .next
  case lmonMiss | tdcLoopsLocked | tdcUnlock | caReplay | bar2Read | lampShiftDone | busReply | ptpMessageRx |
    ptpAnnounceInterval | ptpAnnounceTimeout | sdoRequest | heartbeatLoss | alertNRise =>
    exact .ite .next (.ite .next .next)
  case ocxoLoss | traceWindowEnd | recordComplete | flushDone | phaseRecord | unwrapShot | fuseShot | fuseFrameEnd |
    vendorReload | messageArrive | messageBounce | zoneEvaluate | remoteWriteTimeout | captureShotCopy | captureDone |
    rowTimeout | lampFrameEnd | psync | matrixPlane | dictRead | store | restoreDefaults | ethernetFrameRx |
    bootAttempt | imageWrite | nvmOperationDone | delayReqInterval =>
    simp only [exec, execOcxoLoss, execTraceWindowEnd, execRecordComplete, execFlushDone, execPhaseRecord, execUnwrapShot,
      execFuseShot, execFuseFrameEnd, execVendorReload, execMessageArrive, execMessageBounce, execZoneEvaluate,
      execRemoteWriteTimeout, execCaptureShotCopy, execCaptureDone, execRowTimeout, execLampFrameEnd, execPsync,
      execMatrixPlane, execDictRead, execStore, execRestoreDefaults, execEthernetFrameRx, execBootAttempt,
      execImageWrite, execNvmOperationDone, execDelayReqInterval]
    (repeat' split) <;> exact .next
  all_goals exact .next

/-- Settles O2: no meaning refuses, and there is no fault to raise. -/
theorem everyCommandAnswersNextState : Obligations.EveryCommandAnswersNextState :=
  fun c s => (exec_answers c s).exists_next

/-- Settles O1: `step` looks at the front of the queue. -/
theorem stepRunsFrontCommand : Obligations.StepRunsFrontCommand := by
  refine ⟨fun s c rest front => ?_, fun s empty => ?_⟩
  · rw [step, front]
  · rw [step, empty]

end Sys2Proof.Machine
end

section
/-!
PROOFS. The code that guards a stored word (R274 to R276): check bits are linear in the data, so a flipped bit adds its column to
the syndrome. Columns have odd weight, which sets one flipped bit apart from two (O56).
-/
namespace Sys2Proof.Machine

/-! ## Check bits and the columns -/

/-- The exclusive or of the columns of l, numbered from j on, of the data bits that are 1. -/
theorem eccFold_eq_foldl (d : W72) (l : List Nat) (j : Nat) (c : BitVec 8) : eccFold d l j c =
    (List.range l.length).foldl (fun c i => if d.getLsbD (j + i) then c ^^^ BitVec.ofNat 8 (nth l i 0) else c) c := by
  induction l generalizing j c with
  | nil => rfl
  | cons h r ih =>
    rw [eccFold, ih, List.length_cons, List.range_succ_eq_map, List.foldl_cons, List.foldl_map]
    simp only [nth, List.getD_cons_zero, List.getD_cons_succ, Nat.add_zero, Nat.add_assoc, Nat.add_comm 1]

theorem eccColumns_length : eccColumns.length = 72 := by decide +kernel

theorem eccCheck_eq_foldl (d : W72) : eccCheck d =
    (List.range 72).foldl (fun c j => if d.getLsbD j then c ^^^ BitVec.ofNat 8 (nth eccColumns j 0) else c) 0 := by
  rw [eccCheck, eccFold_eq_foldl, eccColumns_length]
  simp only [Nat.zero_add]

theorem eccFold_xor (a b : W72) (l : List Nat) (j : Nat) (x y : BitVec 8) :
    eccFold (a ^^^ b) l j (x ^^^ y) = eccFold a l j x ^^^ eccFold b l j y := by
  induction l generalizing j x y with
  | nil => rfl
  | cons h r ih =>
    rw [eccFold, eccFold, eccFold, ← ih]
    congr 1
    rw [BitVec.getLsbD_xor]
    generalize BitVec.ofNat 8 h = column
    cases a.getLsbD j <;> cases b.getLsbD j
    · rfl
    · exact BitVec.xor_assoc x y column
    · change (x ^^^ y) ^^^ column = (x ^^^ column) ^^^ y
      ac_rfl
    · change x ^^^ y = (x ^^^ column) ^^^ (y ^^^ column)
      rw [show (x ^^^ column) ^^^ (y ^^^ column) = (x ^^^ y) ^^^ (column ^^^ column) by ac_rfl, BitVec.xor_self,
        BitVec.xor_zero]

/-- Check bits are linear in the data. -/
theorem eccCheck_xor (a b : W72) : eccCheck (a ^^^ b) = eccCheck a ^^^ eccCheck b := eccFold_xor a b eccColumns 0 0 0

/-- The column of bit i of a stored word: h(i) for a data bit, 2^k for check bit k (R274). -/
def eccColumn (i : Nat) : BitVec 8 := BitVec.ofNat 8 (if i < 72 then nth eccColumns i 0 else 2 ^ (i - 72))

theorem eccCheck_two_pow : ∀ j < 72, eccCheck (BitVec.ofNat 72 (2 ^ j)) = eccColumn j := by decide +kernel

/-- A stored word of which bit i alone is 1: its data part and its check part. -/
theorem extractLsb'_two_pow_data {i : Nat} (hi : i < 80) : (BitVec.ofNat 80 (2 ^ i)).extractLsb' 0 72 =
    if i < 72 then BitVec.ofNat 72 (2 ^ i) else 0 := by
  revert i; decide

theorem extractLsb'_two_pow_check {i : Nat} (hi : i < 80) : (BitVec.ofNat 80 (2 ^ i)).extractLsb' 72 8 =
    if i < 72 then 0 else BitVec.ofNat 8 (2 ^ (i - 72)) := by
  revert i; decide

theorem eccSyndrome_two_pow {i : Nat} (hi : i < 80) : eccSyndrome (BitVec.ofNat 80 (2 ^ i)) = eccColumn i := by
  rw [eccSyndrome, extractLsb'_two_pow_data hi, extractLsb'_two_pow_check hi]
  split
  · next data => rw [eccCheck_two_pow i data]; exact BitVec.zero_xor
  · next check => rw [eccColumn, if_neg check]; exact BitVec.xor_zero

theorem eccSyndrome_xor (v w : BitVec 80) : eccSyndrome (v ^^^ w) = eccSyndrome v ^^^ eccSyndrome w := by
  simp only [eccSyndrome, BitVec.extractLsb'_xor, eccCheck_xor]
  rw [BitVec.xor_assoc, BitVec.xor_assoc, ← BitVec.xor_assoc (w.extractLsb' 72 8), BitVec.xor_comm (w.extractLsb' 72 8),
    BitVec.xor_assoc (eccCheck (v.extractLsb' 0 72))]

/-- A flipped bit adds its column to the syndrome. -/
theorem eccSyndrome_flip (w : BitVec 80) {i : Nat} (hi : i < 80) :
    eccSyndrome (w ^^^ BitVec.ofNat 80 (2 ^ i)) = eccSyndrome w ^^^ eccColumn i := by
  rw [eccSyndrome_xor, eccSyndrome_two_pow hi]

/-- Settles O56: the fold over the columns taken bit by bit, the columns themselves evaluated, and the syndrome's linearity. -/
theorem checkBitColumns : Obligations.CheckBitColumns := by
  refine ⟨eccCheck_eq_foldl, by decide +kernel, fun j low high => ?five, fun w i hi => ?check, by decide +kernel,
    by decide +kernel, by decide +kernel, by decide +kernel⟩
  case five =>
    obtain ⟨k, rfl⟩ := Nat.exists_eq_add_of_le low
    have each : ∀ k < 16, nth eccColumns (56 + k) 0 < 256 ∧
        ((List.range 8).filter fun b => (nth eccColumns (56 + k) 0).testBit b).length = 5 ∧
        ((List.range (nth eccColumns (56 + k) 0)).filter fun x =>
          decide (((List.range 8).filter fun b => x.testBit b).length = 5)).length = k := by decide +kernel
    simpa using each k (by omega)
  case check =>
    rw [eccSyndrome_flip w (by omega), eccColumn, if_neg (by omega), Nat.add_sub_cancel_left]

/-! ## What a read finds in a stored word -/

/-- The number of bits set below bit n is odd. -/
def oddBelow (x : BitVec 8) : Nat → Bool
  | 0 => false
  | n + 1 => oddBelow x n ^^ x.getLsbD n

theorem oddBelow_xor (x y : BitVec 8) (n : Nat) : oddBelow (x ^^^ y) n = (oddBelow x n ^^ oddBelow y n) := by
  induction n with
  | zero => rfl
  | succ n ih => rw [oddBelow, oddBelow, oddBelow, ih, BitVec.getLsbD_xor, Bool.xor_assoc, Bool.xor_assoc,
    Bool.xor_left_comm (oddBelow y n)]

/-- The number of bits set is odd. -/
def oddWeight (x : BitVec 8) : Bool := oddBelow x 8

theorem oddWeight_xor (x y : BitVec 8) : oddWeight (x ^^^ y) = (oddWeight x ^^ oddWeight y) := oddBelow_xor x y 8

theorem oddWeight_eccColumn : ∀ i < 80, oddWeight (eccColumn i) = true := by decide +kernel

theorem eccColumn_injective {i j : Nat} (hi : i < 80) (hj : j < 80) (ne : i ≠ j) : eccColumn i ≠ eccColumn j := by
  have distinct : ((List.range 80).map eccColumn).Nodup := by decide +kernel
  intro same
  exact ne (List.inj_on_of_nodup_map distinct (List.mem_range.mpr hi) (List.mem_range.mpr hj) same)

/-- Data and syndrome of a word decide what its read gives. -/
theorem eccRead_eq (w : BitVec 80) : eccRead w =
    if (eccSyndrome w).toNat = 0 then (w.extractLsb' 0 72, .good)
    else match eccColumns.findIdx? (· == (eccSyndrome w).toNat) with
      | some j => (w.extractLsb' 0 72 ^^^ BitVec.ofNat 72 (2 ^ j), .corrected)
      | none => if (List.range 8).any fun i => (eccSyndrome w).toNat = 2 ^ i then (w.extractLsb' 0 72, .corrected)
        else if (eccSyndrome w).toNat = 0x7F then (w.extractLsb' 0 72, .poison) else (w.extractLsb' 0 72, .bad) := rfl

theorem eccRead_of_syndrome_zero {w : BitVec 80} (y : eccSyndrome w = 0) : eccRead w = (w.extractLsb' 0 72, .good) := by
  rw [eccRead_eq, y]; rfl

theorem eccRead_of_syndrome_poison {w : BitVec 80} (y : eccSyndrome w = 0x7F) :
    eccRead w = (w.extractLsb' 0 72, .poison) := by
  have none : eccColumns.findIdx? (· == (0x7F : BitVec 8).toNat) = .none := by decide +kernel
  rw [eccRead_eq, y, none]; rfl

/-- The syndrome of one flipped bit names that bit: a data bit is turned back. -/
theorem eccRead_of_syndrome_column {w : BitVec 80} {i : Nat} (hi : i < 80) (y : eccSyndrome w = eccColumn i) :
    eccRead w = (w.extractLsb' 0 72 ^^^ (BitVec.ofNat 80 (2 ^ i)).extractLsb' 0 72, .corrected) := by
  have nonzero : ∀ i < 80, (eccColumn i).toNat ≠ 0 := by decide +kernel
  have found : ∀ i < 80, eccColumns.findIdx? (· == (eccColumn i).toNat) = if i < 72 then some i else none := by decide +kernel
  have single : ∀ i < 80, 72 ≤ i → (List.range 8).any fun k => (eccColumn i).toNat = 2 ^ k := by decide +kernel
  rw [eccRead_eq, y, if_neg (nonzero i hi), found i hi, extractLsb'_two_pow_data hi]
  by_cases data : i < 72
  · rw [if_pos data, if_pos data]
  · rw [if_neg data, if_neg data]
    simp only [single i hi (by omega), if_true]
    exact congrArg (·, EccClass.corrected) BitVec.xor_zero.symm

/-- A syndrome of even weight is neither a column nor the poison mark. -/
theorem eccRead_of_syndrome_even {w : BitVec 80} (nonzero : eccSyndrome w ≠ 0) (even : oddWeight (eccSyndrome w) = false) :
    (eccRead w).2 = .bad := by
  have unknown : ∀ y : BitVec 8, y ≠ 0 → oddWeight y = false → y.toNat ≠ 0 ∧ eccColumns.findIdx? (· == y.toNat) = none ∧
      ((List.range 8).any fun i => y.toNat = 2 ^ i) = false ∧ y.toNat ≠ 0x7F := by decide +kernel
  obtain ⟨zero, column, single, poison⟩ := unknown _ nonzero even
  simp [eccRead_eq, zero, column, single, poison]

theorem extractLsb'_eccStore (d : W72) (p : Bool) : (eccStore d p).extractLsb' 0 72 = d := by
  simp [eccStore, extractLsb'_low_part]

theorem eccSyndrome_eccStore (d : W72) (p : Bool) : eccSyndrome (eccStore d p) = if p then 0x7F else 0 := by
  rw [eccSyndrome, extractLsb'_eccStore]
  have high : (eccStore d p).extractLsb' 72 8 = if p then eccCheck d ^^^ 0x7F else eccCheck d := by
    simp [eccStore, extractLsb'_high_part]
  rw [high]
  cases p
  · exact BitVec.xor_self
  · change (eccCheck d ^^^ 0x7F) ^^^ eccCheck d = 0x7F
    rw [BitVec.xor_comm, ← BitVec.xor_assoc, BitVec.xor_self, BitVec.zero_xor]

/-- A stored word is read with the tag it was stored with. -/
theorem eccRead_eccStore (d : W72) (p : Bool) : eccRead (eccStore d p) = (d, if p then .poison else .good) := by
  cases p
  · rw [eccRead_of_syndrome_zero (eccSyndrome_eccStore d false), extractLsb'_eccStore]; rfl
  · rw [eccRead_of_syndrome_poison (eccSyndrome_eccStore d true), extractLsb'_eccStore]; rfl

/-- Any one bit flipped is corrected. -/
theorem eccRead_eccStore_flip (d : W72) {i : Nat} (hi : i < 80) :
    eccRead (eccStore d false ^^^ BitVec.ofNat 80 (2 ^ i)) = (d, .corrected) := by
  have y : eccSyndrome (eccStore d false ^^^ BitVec.ofNat 80 (2 ^ i)) = eccColumn i := by
    rw [eccSyndrome_flip _ hi, eccSyndrome_eccStore]
    exact BitVec.zero_xor
  rw [eccRead_of_syndrome_column hi y, BitVec.extractLsb'_xor, extractLsb'_eccStore, BitVec.xor_assoc, BitVec.xor_self,
    BitVec.xor_zero]

/-- Any two bits flipped are an uncorrectable error: the syndrome is the sum of two distinct columns of odd weight. -/
theorem eccRead_eccStore_flip_flip (d : W72) {i j : Nat} (hi : i < 80) (hj : j < 80) (ne : i ≠ j) :
    (eccRead (eccStore d false ^^^ BitVec.ofNat 80 (2 ^ i) ^^^ BitVec.ofNat 80 (2 ^ j))).2 = .bad := by
  have y : eccSyndrome (eccStore d false ^^^ BitVec.ofNat 80 (2 ^ i) ^^^ BitVec.ofNat 80 (2 ^ j)) =
      eccColumn i ^^^ eccColumn j := by
    rw [eccSyndrome_flip _ hj, eccSyndrome_flip _ hi, eccSyndrome_eccStore]
    exact congrArg (· ^^^ eccColumn j) BitVec.zero_xor
  refine eccRead_of_syndrome_even ?_ ?_
  · rw [y]
    exact fun zero => eccColumn_injective hi hj ne (BitVec.xor_eq_zero_iff.mp zero)
  · rw [y, oddWeight_xor, oddWeight_eccColumn i hi, oddWeight_eccColumn j hj]; rfl

end Sys2Proof.Machine
end

section
/-!
PROOFS. The service of a DRAM request, said once for every property of states: what is kept by the few updates that opening a row,
issuing a command and closing the row are made of is kept by the whole service (R275, R282, R283, R285, R288).
-/
namespace Sys2Proof.Machine

/-! ## Rows -/

/-- P is kept by the updates that opening and closing rows of channel m consist of: the retry buffer, the banks, and what an ACT draws
and a neighbour refresh counts (R283, R285, R288). -/
structure RowClosed (m : Nat) (P : State → Prop) : Prop where
  push : ∀ t r n, P t → P (t.setMc m { t.mc m with retry := r, replays := n })
  bank : ∀ t k x, P t → P (t.setBank k x)
  seed : ∀ t v, P t → P (t.setReg (Reg.mcNrfSeed m) v)
  refreshed : ∀ t, P t → P (t.count (Reg.mcNrfCnt m) 1)

section
variable {m : Nat} {P : State → Prop} (c : RowClosed m P) {s : State}
include c

theorem RowClosed.retryPush (h : P s) (x : RetryCmd) : P (s.retryPush m x) := by
  unfold State.retryPush
  dsimp only
  split
  · exact c.push _ _ _ h
  · exact c.push _ _ _ h

theorem RowClosed.activate (h : P s) (bank row : Nat) : P (s.activate m bank row).2 := by
  unfold State.activate State.actDraw
  have pushed := c.retryPush h (.act bank row)
  split
  · dsimp only
    split
    · exact c.seed _ _ pushed
    · exact c.seed _ _ pushed
  · exact pushed

theorem RowClosed.neighbourRefresh {bank n : Nat} {l : List Nat} (h : P s) : P (State.neighbourRefresh m bank n l s) := by
  induction n generalizing l s with
  | zero => exact h
  | succ n ih =>
    cases l with
    | nil => exact h
    | cons r l => exact ih (c.refreshed _ (c.retryPush (c.activate h bank r) _))

theorem RowClosed.rowOpen (h : P s) (bank row : Nat) : P (s.rowOpen m bank row).2 := by
  unfold State.rowOpen
  refine c.bank _ _ _ ?_
  split
  · split
    · exact h
    · exact c.activate (c.retryPush h _) _ _
  · exact c.activate h _ _

theorem RowClosed.rowClose (h : P s) (bank row : Nat) (last : Bool) (ns : List Nat) : P (s.rowClose m bank row last ns) := by
  refine c.neighbourRefresh ?_
  split
  · exact c.bank _ _ _ h
  · split
    · exact c.bank _ _ _ (c.retryPush h _)
    · exact c.bank _ _ _ h

/-- A write is served by opening its row, storing its word and closing the row. -/
theorem RowClosed.mcServeOne_write {r : McReq} (write : r.rd = false) (stored : ∀ t, P t → P (t.setDramCell m r.a r.w))
    (h : P s) : P (s.mcServeOne m r) := by
  have command (t : State) (bank col : Nat) (shut : Bool) (k : P t) : P (t.mcCommand m bank col r shut) := by
    unfold State.mcCommand
    rw [write]
    exact stored _ (c.retryPush k _)
  exact c.rowClose (command _ _ _ _ (c.rowOpen h _ _)) _ _ _ _

end

/-- Two properties that rows keep are kept together. -/
theorem RowClosed.and {m : Nat} {P Q : State → Prop} (c : RowClosed m P) (d : RowClosed m Q) : RowClosed m fun t => P t ∧ Q t where
  push _ _ _ h := ⟨c.push _ _ _ h.1, d.push _ _ _ h.2⟩
  bank _ _ _ h := ⟨c.bank _ _ _ h.1, d.bank _ _ _ h.2⟩
  seed _ _ h := ⟨c.seed _ _ h.1, d.seed _ _ h.2⟩
  refreshed _ h := ⟨c.refreshed _ h.1, d.refreshed _ h.2⟩

/-- What stays of s while rows of channel m open and close: everything but the retry buffer, the banks and two registers. -/
structure State.RowsOnly (m : Nat) (s t : State) : Prop where
  regs : ∀ a, a ≠ Reg.mcNrfSeed m → a ≠ Reg.mcNrfCnt m → t.reg a = s.reg a
  mc : ∃ r n, t.mc m = { s.mc m with retry := r, replays := n }
  rest : ∃ r b x, t = { s with regs := r, banks := b, mcs := x }

theorem State.RowsOnly.refl (m : Nat) (s : State) : State.RowsOnly m s s := ⟨fun _ _ _ => rfl, ⟨_, _, rfl⟩, ⟨_, _, _, rfl⟩⟩

theorem State.RowsOnly.trans {m : Nat} {s t u : State} (h : State.RowsOnly m s t) (k : State.RowsOnly m t u) :
    State.RowsOnly m s u := by
  refine ⟨fun a seed cnt => (k.regs a seed cnt).trans (h.regs a seed cnt), ?_, ?_⟩
  · obtain ⟨_, _, e⟩ := h.mc
    obtain ⟨r, n, f⟩ := k.mc
    exact ⟨r, n, by rw [f, e]⟩
  · obtain ⟨_, _, _, rfl⟩ := h.rest
    obtain ⟨r, b, x, rfl⟩ := k.rest
    exact ⟨r, b, x, rfl⟩

theorem State.rowsOnly_closed (m : Nat) (s : State) : RowClosed m (State.RowsOnly m s) where
  push t r n h := h.trans ⟨fun _ _ _ => rfl, ⟨r, n, t.mc_setMc_same m _⟩, ⟨_, _, _, rfl⟩⟩
  bank _ _ _ h := h.trans ⟨fun _ _ _ => rfl, ⟨_, _, rfl⟩, ⟨_, _, _, rfl⟩⟩
  seed t v h := h.trans ⟨fun _ seed _ => t.reg_setReg_ne v seed, ⟨_, _, rfl⟩, ⟨_, _, _, rfl⟩⟩
  refreshed t h := h.trans ⟨fun _ _ cnt => t.reg_setReg_ne _ cnt, ⟨_, _, rfl⟩, ⟨_, _, _, rfl⟩⟩

theorem State.RowsOnly.dram {m : Nat} {s t : State} (h : State.RowsOnly m s t) : t.dram = s.dram := by
  obtain ⟨_, _, _, rfl⟩ := h.rest; rfl

theorem State.RowsOnly.queue {m : Nat} {s t : State} (h : State.RowsOnly m s t) : (t.mc m).queue = (s.mc m).queue := by
  obtain ⟨_, _, e⟩ := h.mc
  rw [e]

/-! ## Requests -/

/-- P is kept by the updates that the service of requests of channel m consists of: those of its rows, the queue, the stored words,
the word delivered, and what is counted, logged and raised (R275, R282). -/
structure ServeClosed (m : Nat) (P : State → Prop) : Prop extends RowClosed m P where
  queue : ∀ t q d, P t → P (t.setMc m { t.mc m with queue := q, draining := d })
  written : ∀ t a w, P t → P (t.setDramCell m a w)
  delivered : ∀ (t : State) o, P t → P { t with dramOut := o }
  logged : ∀ t v, P t → P (t.setWreg (Reg.mcUeLog m) v)
  counted : ∀ t, ∀ a ∈ [Reg.mcCeCnt m, Reg.mcPoisonCnt m, Reg.mcUeCnt m], P t → P (t.count a 1)
  fault : ∀ t k, P t → P (t.fault (Reg.mcFault m) k)

section
variable {m : Nat} {P : State → Prop} (c : ServeClosed m P) {s : State}
include c

theorem ServeClosed.mcCommand (h : P s) (bank col : Nat) (r : McReq) (shut : Bool) : P (s.mcCommand m bank col r shut) := by
  have read (o : W72 × Bool) := c.delivered _ o (c.retryPush h (.rd bank col r.a shut))
  have counted (t : State) (k : P t) (a f : Nat) (ha : a ∈ [Reg.mcCeCnt m, Reg.mcPoisonCnt m, Reg.mcUeCnt m]) :=
    c.fault _ f (c.counted t a ha k)
  unfold State.mcCommand
  dsimp only
  split
  · exact c.written _ _ _ (c.retryPush h _)
  · split
    · exact read _
    · split
      · exact c.queue _ _ _ (counted _ (read _) (Reg.mcCeCnt m) 1 (by simp))
      · exact counted _ (read _) (Reg.mcCeCnt m) 1 (by simp)
    · exact counted _ (c.logged _ _ (read _)) (Reg.mcPoisonCnt m) 4 (by simp)
    · exact counted _ (c.logged _ _ (read _)) (Reg.mcUeCnt m) 2 (by simp)

theorem ServeClosed.mcServeOne (h : P s) (r : McReq) : P (s.mcServeOne m r) :=
  c.rowClose (c.mcCommand (c.rowOpen h _ _) _ _ _ _) _ _ _ _

theorem ServeClosed.mcServe (n : Nat) (h : P s) : P (State.mcServe m n s) := by
  induction n generalizing s with
  | zero => exact h
  | succ n ih =>
    unfold State.mcServe
    split
    · exact h
    · dsimp only
      split
      · exact h
      · exact ih (c.mcServeOne (c.queue _ _ _ h) _)

theorem ServeClosed.mcDrain (h : P s) : P (s.mcDrain m) := c.mcServe _ h

theorem ServeClosed.mcRequest (h : P s) (r : McReq) : P (s.mcRequest m r) := by
  unfold State.mcRequest
  split
  · exact c.queue _ _ _ h
  · exact c.mcDrain (c.mcServeOne h _)

end

/-- With no request queued there is nothing to serve. -/
theorem State.mcDrain_of_empty {s : State} {m : Nat} (empty : (s.mc m).queue = []) : s.mcDrain m = s := by
  rw [State.mcDrain, empty]; rfl

/-- The service of queued writes keeps what rows keep and what the queue and the stored words do not touch. -/
theorem RowClosed.mcServe_writes {m : Nat} {P : State → Prop} (c : RowClosed m P)
    (queue : ∀ t q d, P t → P (t.setMc m { t.mc m with queue := q, draining := d }))
    (written : ∀ t a w, P t → P (t.setDramCell m a w)) (n : Nat) {s : State} (writes : ∀ r ∈ (s.mc m).queue, r.rd = false)
    (h : P s) : P (State.mcServe m n s) := by
  induction n generalizing s with
  | zero => exact h
  | succ n ih =>
    unfold State.mcServe
    split
    · exact h
    · dsimp only
      split
      · exact h
      · next i _ =>
        have write : (nth (s.mc m).queue i ⟨false, 0, 0, 0, 0, false⟩).rd = false := by
          rw [nth, List.getD_eq_getElem?_getD]
          cases found : (s.mc m).queue[i]? with
          | none => rfl
          | some r => exact writes r (List.mem_of_getElem? found)
        have left (t : State) (k : (t.mc m).queue = (s.mc m).queue.eraseIdx i) : ∀ r ∈ (t.mc m).queue, r.rd = false :=
          fun r hr => writes r (List.mem_of_mem_eraseIdx (k ▸ hr))
        have same : RowClosed m fun t => (t.mc m).queue = (s.mc m).queue.eraseIdx i :=
          { push := fun t _ _ k => by rw [t.mc_setMc_same]; exact k
            bank := fun _ _ _ k => k
            seed := fun _ _ k => k
            refreshed := fun _ k => k }
        refine ih (left _ ?_) (c.mcServeOne_write write (fun t => written t _ _) (queue _ _ _ h))
        exact same.mcServeOne_write write (fun _ k => k) (by rw [State.mc_setMc_same])

end Sys2Proof.Machine
end

section
/-!
PROOFS. DRAM reads after writes (O38): where a request goes, what a served write stores, and what a read of the word then delivers.
-/
namespace Sys2Proof.Machine

/-! ## Where a request goes -/

/-- t has the registers and the channels of s that decide where a request goes and whether it waits. -/
structure State.RoutesAs (s t : State) : Prop where
  boot : t.boot = s.boot
  life : t.reg Reg.lifeState = s.reg Reg.lifeState
  geom : ∀ m, t.reg (Reg.mcGeom m) = s.reg (Reg.mcGeom m)
  status : ∀ m, t.reg (Reg.mcStatus m) = s.reg (Reg.mcStatus m)

section
variable {s t : State}

theorem State.RowsOnly.routesAs {m : Nat} (h : State.RowsOnly m s t) : s.RoutesAs t where
  boot := by obtain ⟨_, _, _, rfl⟩ := h.rest; rfl
  life := h.regs _ (by lia) (by lia)
  geom _ := h.regs _ (by lia) (by lia)
  status _ := h.regs _ (by lia) (by lia)

theorem State.RoutesAs.shut (h : s.RoutesAs t) : t.shut = s.shut := by
  rw [State.shut, State.scrapped, State.fld, h.boot, h.life]; rfl

theorem State.RoutesAs.mcCapacity (h : s.RoutesAs t) (m : Nat) : t.mcCapacity m = s.mcCapacity m := by
  rw [State.mcCapacity, State.fld, State.rbit, h.geom]; rfl

theorem State.RoutesAs.dramWords (h : s.RoutesAs t) : t.dramWords = s.dramWords := by
  rw [State.dramWords, h.mcCapacity, h.mcCapacity]; rfl

theorem State.RoutesAs.dramMap (h : s.RoutesAs t) (a : Nat) : t.dramMap a = s.dramMap a := by
  rw [State.dramMap, State.rbit, h.geom, h.mcCapacity]; rfl

theorem State.RoutesAs.mcFailed (h : s.RoutesAs t) (m : Nat) : t.mcFailed m = s.mcFailed m := by
  rw [State.mcFailed, State.rbit, h.status]; rfl

theorem State.RowsOnly.mcHeld {m : Nat} (h : State.RowsOnly m s t) (a : Nat) : t.mcHeld m a = s.mcHeld m a := by
  have ctrl : t.reg (Reg.mcCtrl m) = s.reg (Reg.mcCtrl m) := h.regs _ (by lia) (by lia)
  obtain ⟨_, _, mc⟩ := h.mc
  rw [State.mcHeld, State.mcWaits, State.dramRow, State.rbit, State.rbit, State.rbit, State.fld, mc, ctrl, h.routesAs.geom,
    h.routesAs.status]
  rfl

end

/-! ## A write -/

section
variable {s : State} {a : Nat} {v : W72} {p : Bool}

/-- The request a write of a device address makes (R282). -/
def State.writeReq (s : State) (a : Nat) (v : W72) (p : Bool) : McReq :=
  { rd := false, a := (s.dramMap a).2, dev := a, w := eccStore v p, came := s.time.up }

section
variable (below : a < s.dramWords) (sound : s.mcFailed (s.dramMap a).1 = false) (empty : (s.mc (s.dramMap a).1).queue = [])
include below sound empty

theorem State.dramWrite_eq_mcRequest : s.dramWrite a v p = s.mcRequest (s.dramMap a).1 (s.writeReq a v p) := by
  rw [State.dramWrite, if_neg (by omega)]
  dsimp only
  rw [if_neg (by simp [sound]), if_pos empty]
  rfl

theorem State.dramWrite_of_held (held : s.mcHeld (s.dramMap a).1 (s.dramMap a).2 = true) : s.dramWrite a v p =
    s.setMc (s.dramMap a).1 { s.mc (s.dramMap a).1 with queue := [s.writeReq a v p] } := by
  rw [State.dramWrite_eq_mcRequest below sound empty, State.mcRequest, if_pos (by exact held), empty]
  rfl

end

theorem State.RowsOnly.setDramCell {m k l : Nat} {s t : State} {w : BitVec 80} (h : State.RowsOnly m s t) :
    State.RowsOnly m (s.setDramCell k l w) (t.setDramCell k l w) := by
  obtain ⟨regs, mc, r, b, x, rfl⟩ := h
  exact ⟨regs, mc, r, b, x, rfl⟩

/-- A served write stores its word, and otherwise only opens and closes rows. -/
theorem State.mcServeOne_write {m : Nat} {r : McReq} (write : r.rd = false) :
    State.RowsOnly m (s.setDramCell m r.a r.w) (s.mcServeOne m r) := by
  have opened := s.rowsOnly_closed m
  have command (t : State) (bank col : Nat) (shut : Bool) (h : State.RowsOnly m s t) :
      State.RowsOnly m (s.setDramCell m r.a r.w) (t.mcCommand m bank col r shut) := by
    unfold State.mcCommand
    rw [write]
    exact (opened.retryPush h _).setDramCell
  exact (State.rowsOnly_closed m _).rowClose (command _ _ _ _ (opened.rowOpen (.refl m s) _ _)) _ _ _ _

theorem State.dramWrite_of_free (below : a < s.dramWords) (sound : s.mcFailed (s.dramMap a).1 = false)
    (empty : (s.mc (s.dramMap a).1).queue = []) (free : s.mcHeld (s.dramMap a).1 (s.dramMap a).2 = false) :
    State.RowsOnly (s.dramMap a).1 (s.setDramCell (s.dramMap a).1 (s.dramMap a).2 (eccStore v p)) (s.dramWrite a v p) := by
  have served := s.mcServeOne_write (m := (s.dramMap a).1) (r := s.writeReq a v p) rfl
  rw [State.dramWrite_eq_mcRequest below sound empty, State.mcRequest, if_neg (by rw [State.writeReq, free]; decide),
    State.mcDrain_of_empty (served.queue.trans empty)]
  exact served

theorem exec_dramWrite (s : State) (a : Nat) (v : W72) (p : Bool) :
    exec (.dramWrite a v p) s = .next (if s.shut then s else s.dramWrite a v p) := by
  change execDramWrite a v p s = _
  unfold execDramWrite
  split <;> rfl

theorem exec_dramWrite_held (v : W72) (p : Bool) (notShut : s.shut = false) (below : a < s.dramWords)
    (sound : s.mcFailed (s.dramMap a).1 = false) (empty : (s.mc (s.dramMap a).1).queue = [])
    (held : s.mcHeld (s.dramMap a).1 (s.dramMap a).2 = true) : exec (.dramWrite a v p) s =
      .next (s.setMc (s.dramMap a).1 { s.mc (s.dramMap a).1 with queue := [s.writeReq a v p] }) := by
  rw [exec_dramWrite, notShut]
  exact congrArg _ (State.dramWrite_of_held below sound empty held)

end

/-! ## A read -/

/-- What a read of a stored word delivers: the word, and whether it is tagged poisoned (R275). -/
def eccGive (w : BitVec 80) : W72 × Bool := ((eccRead w).1, (eccRead w).2 = .poison || (eccRead w).2 = .bad)

theorem eccGive_eccStore (v : W72) (p : Bool) : eccGive (eccStore v p) = (v, p) := by
  rw [eccGive, eccRead_eccStore]
  cases p <;> rfl

theorem eccGive_flip (v : W72) {i : Nat} (hi : i < 80) : eccGive (eccStore v false ^^^ BitVec.ofNat 80 (2 ^ i)) = (v, false) := by
  rw [eccGive, eccRead_eccStore_flip v hi]
  rfl

/-- The stored word at a device address with some of its bits flipped. -/
def State.flipped (s : State) (a : Nat) (f : BitVec 80) : State :=
  s.setDramCell (s.dramMap a).1 (s.dramMap a).2 (s.dramCell (s.dramMap a).1 (s.dramMap a).2 ^^^ f)

/-- A read of a device address waits for its channel (R282, R293, R296). -/
def State.readWaits (s : State) (a : Nat) : Bool :=
  decide (a < s.dramWords) && !s.mcFailed (s.dramMap a).1 && (s.mcForward (s.dramMap a).1 (s.dramMap a).2).isNone &&
    s.mcHeld (s.dramMap a).1 (s.dramMap a).2

/-- The word of a read that waits is delivered by its service; any other is there at once. -/
def State.readDone (s : State) (a : Nat) : State :=
  if s.readWaits a then (s.dramRead a).2 else { (s.dramRead a).2 with dramOut := (s.dramRead a).1 }

theorem exec_dramRead_of_below {s : State} {a : Nat} (f : BitVec 80) (notShut : s.shut = false) (below : a < s.dramWords) :
    exec (.dramRead a f) s = .next ((s.flipped a f).readDone a) := by
  have hit : (if a < s.dramWords then s.setDramCell (s.dramMap a).1 (s.dramMap a).2
      (s.dramCell (s.dramMap a).1 (s.dramMap a).2 ^^^ f) else s) = s.flipped a f := if_pos below
  change execDramRead a f s = _
  unfold execDramRead
  rw [if_neg (by simp [notShut])]
  dsimp only
  rw [hit]
  rfl

theorem exec_dramRead_of_beyond {s : State} {a : Nat} (f : BitVec 80) (notShut : s.shut = false) (beyond : s.dramWords ≤ a) :
    exec (.dramRead a f) s = .next { s.fault (Reg.mcFault 0) 128 with dramOut := (0, true) } := by
  have read : s.dramRead a = ((0, true), s.fault (Reg.mcFault 0) (2 ^ 7)) := if_pos beyond
  have missed : (if a < s.dramWords then s.setDramCell (s.dramMap a).1 (s.dramMap a).2
      (s.dramCell (s.dramMap a).1 (s.dramMap a).2 ^^^ f) else s) = s := if_neg (by omega)
  change execDramRead a f s = _
  unfold execDramRead
  rw [if_neg (by simp [notShut])]
  dsimp only
  rw [missed, read, decide_eq_false (Nat.not_lt.mpr beyond)]
  rfl

section
variable {s : State} {a : Nat} (below : a < s.dramWords)
include below

theorem State.readDone_of_failed (failed : s.mcFailed (s.dramMap a).1 = true) :
    s.readDone a = { s with dramOut := (0, true) } := by
  have read : s.dramRead a = ((0, true), s) := by
    rw [State.dramRead, if_neg (by omega)]
    exact if_pos failed
  rw [State.readDone, State.readWaits, failed, read]
  simp only [Bool.not_true, Bool.and_false, Bool.false_and, Bool.false_eq_true, if_false]

/-- A read of a word with a queued write is answered from the queue (R282). -/
theorem State.readDone_of_forward {w : BitVec 80} (sound : s.mcFailed (s.dramMap a).1 = false)
    (queued : s.mcForward (s.dramMap a).1 (s.dramMap a).2 = some w) : s.readDone a = { s with dramOut := eccGive w } := by
  have read : s.dramRead a = (eccGive w, s) := by
    rw [State.dramRead, if_neg (by omega)]
    dsimp only
    rw [if_neg (by simp [sound]), queued]
    rfl
  rw [State.readDone, State.readWaits, queued, read]
  simp only [Option.isNone_some, Bool.and_false, Bool.false_and, Bool.false_eq_true, if_false]

/-- The request a read of a device address makes (R282). -/
def State.readReq (s : State) (a : Nat) : McReq := { rd := true, a := (s.dramMap a).2, dev := a, came := s.time.up }

/-- A read of a free channel with nothing queued for it is served: it delivers the stored word (R275). -/
theorem State.readDone_of_free (sound : s.mcFailed (s.dramMap a).1 = false) (empty : (s.mc (s.dramMap a).1).queue = [])
    (free : s.mcHeld (s.dramMap a).1 (s.dramMap a).2 = false) : s.readDone a =
      { (s.mcServeOne (s.dramMap a).1 (s.readReq a)).mcDrain (s.dramMap a).1 with
        dramOut := eccGive (s.dramCell (s.dramMap a).1 (s.dramMap a).2) } := by
  have nothing : s.mcForward (s.dramMap a).1 (s.dramMap a).2 = none := by rw [State.mcForward, empty]; rfl
  have read : s.dramRead a = (eccGive (s.dramCell (s.dramMap a).1 (s.dramMap a).2),
      (s.mcServeOne (s.dramMap a).1 (s.readReq a)).mcDrain (s.dramMap a).1) := by
    rw [State.dramRead, if_neg (by omega)]
    dsimp only
    rw [if_neg (by simp [sound]), nothing, State.mcRequest, if_neg (by simp [free])]
    rfl
  rw [State.readDone, State.readWaits, free, read]
  simp only [Bool.and_false, Bool.false_eq_true, if_false]

end

/-- CE_CNT of channel m reads n and its CE is set (R275). -/
structure State.CeCounted (m : Nat) (n : W32) (s : State) : Prop where
  count : s.reg (Reg.mcCeCnt m) = n
  fault : s.rbit (Reg.mcFault m) 0 = true

theorem State.CeCounted.setReg {m a : Nat} {n v : W32} {s : State} (h : State.CeCounted m n s) (count : Reg.mcCeCnt m ≠ a)
    (fault : Reg.mcFault m ≠ a) : State.CeCounted m n (s.setReg a v) :=
  ⟨(s.reg_setReg_ne v count).trans h.count, (congrArg (bitOf · 0) (s.reg_setReg_ne v fault)).trans h.fault⟩

theorem State.CeCounted.same {m : Nat} {n : W32} {s t : State} (h : State.CeCounted m n s) (regs : t.regs = s.regs) :
    State.CeCounted m n t := by
  obtain ⟨count, fault⟩ := h
  exact ⟨by rw [State.reg, regs]; exact count, by rw [State.rbit, State.reg, regs]; exact fault⟩

theorem State.ceCounted_closed (m : Nat) (n : W32) : RowClosed m (State.CeCounted m n) where
  push _ _ _ h := h.same rfl
  bank _ _ _ h := h.same rfl
  seed _ _ h := h.setReg (by lia) (by lia)
  refreshed _ h := h.setReg (by lia) (by lia)

/-- Every request queued for channel m is a write. -/
def State.OnlyWrites (m : Nat) (s : State) : Prop := ∀ x ∈ (s.mc m).queue, x.rd = false

theorem State.onlyWrites_closed (m : Nat) : RowClosed m (State.OnlyWrites m) where
  push t _ _ h x hx := by rw [t.mc_setMc_same] at hx; exact h x hx
  bank _ _ _ h := h
  seed _ _ h := h
  refreshed _ h := h

/-- The service of a read that finds an error it corrects counts it and sets CE; what it may queue is the write-back (R275, R277). -/
theorem State.mcServeOne_corrected {s : State} {m : Nat} {r : McReq} (read : r.rd = true)
    (found : (eccRead (s.dramCell m r.a)).2 = .corrected) (empty : (s.mc m).queue = []) :
    State.CeCounted m (s.reg (Reg.mcCeCnt m) + 1) ((s.mcServeOne m r).mcDrain m) := by
  have counted := State.ceCounted_closed m (s.reg (Reg.mcCeCnt m) + 1)
  have command (t : State) (bank col : Nat) (shut : Bool) (h : State.RowsOnly m s t) :
      State.CeCounted m (s.reg (Reg.mcCeCnt m) + 1) (t.mcCommand m bank col r shut) ∧
        State.OnlyWrites m (t.mcCommand m bank col r shut) := by
    have pushed := (s.rowsOnly_closed m).retryPush h (.rd bank col r.a shut)
    have cell : (t.retryPush m (.rd bank col r.a shut)).dramCell m r.a = s.dramCell m r.a := by
      rw [State.dramCell, pushed.dram]; rfl
    have after (o : W72 × Bool) : let x : State := { t.retryPush m (.rd bank col r.a shut) with dramOut := o }
        let y := (x.count (Reg.mcCeCnt m) 1).fault (Reg.mcFault m) 1
        State.CeCounted m (s.reg (Reg.mcCeCnt m) + 1) y ∧ (y.mc m).queue = [] := by
      intro x y
      have spared (a : Nat) (ha : 0x800000 ≤ a) : RaiseSpares a := raiseSpares_of_headBase_le (by omega)
      refine ⟨⟨?_, State.fault_rbit_self _ (spared _ (by lia)) (by decide) rfl⟩, ?_⟩
      · rw [State.fault_reg_of_ne _ (spared _ (by lia)) (by lia), State.count_reg]
        exact congrArg (· + 1) (pushed.regs _ (by lia) (by lia))
      · obtain ⟨_, _, _, _, _, _, same⟩ := State.fault_raiseOnly (x.count (Reg.mcCeCnt m) 1) (Reg.mcFault m) 1
        change (State.mc ((x.count (Reg.mcCeCnt m) 1).fault (Reg.mcFault m) 1) m).queue = []
        rw [same]
        exact pushed.queue.trans empty
    unfold State.mcCommand
    rw [read]
    simp only [Bool.not_true, Bool.false_eq_true, if_false, cell, found]
    split
    · refine ⟨(after _).1.same rfl, fun x hx => ?_⟩
      rw [State.mc_setMc_same, (after _).2] at hx
      rw [List.mem_singleton.mp hx]
    · exact ⟨(after _).1, fun x hx => by rw [(after _).2] at hx; cases hx⟩
  obtain ⟨once, queued⟩ := (counted.and (State.onlyWrites_closed m)).rowClose
    (command _ _ _ _ ((s.rowsOnly_closed m).rowOpen (.refl m s) _ _)) _ _ _ _
  exact counted.mcServe_writes (fun _ _ _ h => h.same rfl) (fun _ _ _ h => h.same rfl) _ queued once

/-! ## Addresses -/

theorem State.mcCapacity_le {s : State} {m : Nat} (ranks : s.fld (Reg.mcGeom m) 1 0 ≤ 2) : s.mcCapacity m ≤ 2 ^ 32 := by
  unfold State.mcCapacity
  split <;> omega

theorem dramKey_injective {m n a b : Nat} (ha : a < 2 ^ 32) (hb : b < 2 ^ 32) (same : dramKey m a = dramKey n b) :
    m = n ∧ a = b := by
  unfold dramKey at same
  omega

/-- Interleaved, a device address is given by its local address and its channel (R279). -/
theorem interleaved_injective {a b : Nat}
    (channel : (a / 2 ^ 8 + a / 2 ^ 16 + a / 2 ^ 24 + a / 2 ^ 32) % 2 = (b / 2 ^ 8 + b / 2 ^ 16 + b / 2 ^ 24 + b / 2 ^ 32) % 2)
    (loc : 256 * (a / 512) + a % 256 = 256 * (b / 512) + b % 256) : a = b := by
  have low : a % 256 = b % 256 := by omega
  have high : a / 512 = b / 512 := by omega
  have above (n : Nat) : a / 2 ^ (9 + n) = b / 2 ^ (9 + n) := by
    rw [Nat.pow_add, ← Nat.div_div_eq_div_mul, ← Nat.div_div_eq_div_mul]
    exact congrArg (· / 2 ^ n) high
  rw [above 7, above 15, above 23] at channel
  have bit : a / 2 ^ 8 % 2 = b / 2 ^ 8 % 2 := by
    generalize b / 2 ^ 16 = x at channel
    generalize b / 2 ^ 24 = y at channel
    generalize b / 2 ^ 32 = z at channel
    omega
  omega
/-- Different device addresses below D are stored in different words (R279). -/
theorem State.dramKey_dramMap_ne {s : State} {a b : Nat} (ha : a < s.dramWords) (hb : b < s.dramWords) (ne : b ≠ a)
    (ranks0 : s.fld (Reg.mcGeom 0) 1 0 ≤ 2) (ranks1 : s.fld (Reg.mcGeom 1) 1 0 ≤ 2) :
    dramKey (s.dramMap b).1 (s.dramMap b).2 ≠ dramKey (s.dramMap a).1 (s.dramMap a).2 := by
  have cap0 := State.mcCapacity_le ranks0
  have cap1 := State.mcCapacity_le ranks1
  have within {x : Nat} (hx : x < s.dramWords) : (s.dramMap x).2 < 2 ^ 32 := by
    unfold State.dramWords at hx
    unfold State.dramMap
    split
    · change 256 * (x / 512) + x % 256 < 2 ^ 32
      omega
    · split <;> dsimp only <;> omega
  intro same
  obtain ⟨channel, loc⟩ := dramKey_injective (within hb) (within ha) same
  revert channel loc
  unfold State.dramMap
  split
  · exact fun channel loc => ne (interleaved_injective channel loc)
  · split <;> split <;> dsimp only <;> omega

theorem State.dramCell_flipped (s : State) (a : Nat) (f : BitVec 80) :
    (s.flipped a f).dramCell (s.dramMap a).1 (s.dramMap a).2 = s.dramCell (s.dramMap a).1 (s.dramMap a).2 ^^^ f :=
  Store.get_set_same _ _ _ _

/-- t is s after a write of a word to a free channel: the word is stored, and the channel takes a read of it as it took the write. -/
structure State.WrittenFree (s : State) (a : Nat) (v : W72) (p : Bool) (t : State) : Prop where
  notShut : t.shut = false
  below : a < t.dramWords
  map : t.dramMap a = s.dramMap a
  sound : t.mcFailed (t.dramMap a).1 = false
  empty : (t.mc (t.dramMap a).1).queue = []
  free : t.mcHeld (t.dramMap a).1 (t.dramMap a).2 = false
  cell : t.dramCell (t.dramMap a).1 (t.dramMap a).2 = eccStore v p
  ceCnt : t.reg (Reg.mcCeCnt (t.dramMap a).1) = s.reg (Reg.mcCeCnt (t.dramMap a).1)

theorem exec_dramWrite_free {s : State} {a : Nat} (v : W72) (p : Bool) (notShut : s.shut = false) (below : a < s.dramWords)
    (sound : s.mcFailed (s.dramMap a).1 = false) (empty : (s.mc (s.dramMap a).1).queue = [])
    (free : s.mcHeld (s.dramMap a).1 (s.dramMap a).2 = false) :
    ∃ t, exec (.dramWrite a v p) s = .next t ∧ s.WrittenFree a v p t := by
  have rows := State.dramWrite_of_free (v := v) (p := p) below sound empty free
  have routes := rows.routesAs
  have map : (s.dramWrite a v p).dramMap a = s.dramMap a := routes.dramMap a
  refine ⟨s.dramWrite a v p, by rw [exec_dramWrite, notShut]; rfl, ?_⟩
  constructor
  case map => exact map
  case notShut => exact routes.shut.trans notShut
  case below => exact below.trans_eq routes.dramWords.symm
  case sound => rw [map]; exact (routes.mcFailed _).trans sound
  case empty => rw [map]; exact rows.queue.trans empty
  case free => rw [map]; exact (rows.mcHeld _).trans free
  case cell => rw [map, State.dramCell, rows.dram]; exact Store.get_set_same _ _ _ _
  case ceCnt => exact rows.regs _ (by rw [map]; lia) (by rw [map]; lia)

/-- Settles O38: the code of a stored word, and a request followed through the queue or through its service. -/
theorem dramReadAfterWrite : Obligations.DramReadAfterWrite := by
  refine ⟨?code, ?written, ?flipped, ?others, ?waits, ?beyondWrite, fun s a f => exec_dramRead_of_beyond f, ?failedRead,
    ?failedWrite⟩
  case code =>
    exact fun d => ⟨eccRead_eccStore d false, eccRead_eccStore d true, fun i => eccRead_eccStore_flip d,
      fun i j => eccRead_eccStore_flip_flip d⟩
  case written =>
    intro s a v p notShut below sound empty
    cases held : s.mcHeld (s.dramMap a).1 (s.dramMap a).2 with
    | true =>
      let t := s.setMc (s.dramMap a).1 { s.mc (s.dramMap a).1 with queue := [s.writeReq a v p] }
      have queued : (t.flipped a 0).mcForward (s.dramMap a).1 (s.dramMap a).2 = some (eccStore v p) := by
        change ((((t.mc (s.dramMap a).1).queue).filter fun r => !r.rd && decide (r.a = (s.dramMap a).2)).getLast?).map McReq.w = _
        rw [State.mc_setMc_same]
        simp [State.writeReq]
      refine ⟨t, _, exec_dramWrite_held v p notShut below sound empty held, exec_dramRead_of_below 0 notShut below, ?_⟩
      rw [State.readDone_of_forward (s := t.flipped a 0) below sound queued]
      exact eccGive_eccStore v p
    | false =>
      obtain ⟨t, et, free⟩ := exec_dramWrite_free v p notShut below sound empty held
      refine ⟨t, _, et, exec_dramRead_of_below 0 free.notShut free.below, ?_⟩
      rw [State.readDone_of_free (s := t.flipped a 0) free.below free.sound free.empty free.free]
      change eccGive ((t.flipped a 0).dramCell (t.dramMap a).1 (t.dramMap a).2) = (v, p)
      rw [State.dramCell_flipped, free.cell]
      exact (congrArg eccGive BitVec.xor_zero).trans (eccGive_eccStore v p)
  case flipped =>
    intro s a i v notShut below sound empty held hi
    obtain ⟨t, et, free⟩ := exec_dramWrite_free v false notShut below sound empty held
    have cell : (t.flipped a (BitVec.ofNat 80 (2 ^ i))).dramCell (t.dramMap a).1 (t.dramMap a).2 =
        eccStore v false ^^^ BitVec.ofNat 80 (2 ^ i) := by rw [State.dramCell_flipped, free.cell]
    obtain ⟨count, fault⟩ := State.mcServeOne_corrected (s := t.flipped a (BitVec.ofNat 80 (2 ^ i)))
      (m := (t.dramMap a).1) (r := (t.flipped a (BitVec.ofNat 80 (2 ^ i))).readReq a) rfl
      ((congrArg (fun w => (eccRead w).2) cell).trans (congrArg Prod.snd (eccRead_eccStore_flip v hi))) free.empty
    refine ⟨t, _, et, exec_dramRead_of_below _ free.notShut free.below, ?_⟩
    rw [State.readDone_of_free (s := t.flipped a (BitVec.ofNat 80 (2 ^ i))) free.below free.sound free.empty free.free]
    refine ⟨(congrArg eccGive cell).trans (eccGive_flip v hi), ?_, ?_⟩
    · rw [← free.map]
      exact count.trans (congrArg (· + 1) (free.ceCnt.trans (by rw [free.map])))
    · rw [← free.map]
      exact fault
  case others =>
    intro s a b v p notShut below belowB ne ranks0 ranks1 sound empty
    have apart := State.dramKey_dramMap_ne below belowB ne ranks0 ranks1
    refine ⟨_, exec_dramWrite s a v p, ?_⟩
    rw [notShut]
    cases held : s.mcHeld (s.dramMap a).1 (s.dramMap a).2 with
    | true => rw [State.dramWrite_of_held below sound empty held]; exact ⟨rfl, rfl⟩
    | false =>
      have rows := State.dramWrite_of_free (v := v) (p := p) below sound empty held
      refine ⟨rows.routesAs.dramMap b, ?_⟩
      change State.dramCell (s.dramWrite a v p) _ _ = _
      rw [State.dramCell, rows.dram]
      exact Store.get_set_ne _ _ _ _ apart
  case waits => exact fun s a v p => exec_dramWrite_held v p
  case beyondWrite =>
    intro s a v p notShut beyond
    rw [exec_dramWrite, notShut]
    exact congrArg _ (if_pos beyond)
  case failedRead =>
    intro s a f notShut below failed
    refine ⟨_, exec_dramRead_of_below f notShut below, ?_⟩
    rw [State.readDone_of_failed (s := s.flipped a f) below failed]
  case failedWrite =>
    intro s a v p below failed
    have ignored : s.dramWrite a v p = s := by
      rw [State.dramWrite, if_neg (by omega)]
      exact if_pos failed
    rw [exec_dramWrite, ignored, ite_self]

end Sys2Proof.Machine
end

section
/-!
PROOFS. Reading back after an update: what a raise leaves of any part of the state, and registers outside the blocks a fault's
raises touch. Side conditions are inequalities of addresses, which the arithmetic of the caller's `simp` settles.
-/
namespace Sys2Proof.Machine

/-! ## Bits and fields of a word -/

/-- Bits outside a written field stay. -/
theorem bitOf_withField_out {w hi lo j : Nat} (v : BitVec w) (x : Nat) (out : j < lo ∨ hi < j) (inside : j < w) :
    bitOf (withField v hi lo x) j = bitOf v j := by
  have clear : ((2 ^ (hi + 1 - lo) - 1) * 2 ^ lo).testBit j = false := by
    rw [Nat.testBit_mul_two_pow, Nat.testBit_two_pow_sub_one]
    simp only [Bool.and_eq_false_iff, decide_eq_false_iff_not]
    omega
  simp only [bitOf, withField, BitVec.getLsbD_or, BitVec.getLsbD_and, BitVec.getLsbD_not, BitVec.getLsbD_ofNat, clear, inside]
  simp

/-- A field is read off its bits. -/
theorem field_of_bits {w hi lo : Nat} {u v : BitVec w} (same : ∀ j, lo ≤ j → j ≤ hi → bitOf u j = bitOf v j) :
    field u hi lo = field v hi lo := by
  refine Nat.eq_of_testBit_eq fun i => ?_
  simp only [field, Nat.testBit_mod_two_pow, Nat.testBit_div_two_pow, BitVec.testBit_toNat]
  by_cases small : i < hi + 1 - lo
  · rw [show u.getLsbD (i + lo) = v.getLsbD (i + lo) from same _ (by omega) (by omega)]
  · simp [small]

theorem field_withBit_out {w hi lo i : Nat} (v : BitVec w) (b : Bool) (out : i < lo ∨ hi < i) (inside : i < w) :
    field (withBit v i b) hi lo = field v hi lo :=
  field_of_bits fun j low high => by rw [bitOf_withBit _ _ _ inside, if_neg (by omega)]

theorem field_withField_out {w hi lo top bot : Nat} (v : BitVec w) (x : Nat) (out : hi < bot ∨ top < lo) (inside : hi < w) :
    field (withField v top bot x) hi lo = field v hi lo :=
  field_of_bits fun j low high => bitOf_withField_out v x (by omega) (by omega)

section
variable (s : State)

theorem State.fld_setRbit_out (a : Nat) {hi lo i : Nat} (b : Bool) (out : i < lo ∨ hi < i) (inside : i < 32) :
    (s.setRbit a i b).fld a hi lo = s.fld a hi lo := by
  simp [State.fld, State.setRbit, field_withBit_out _ _ out inside]

theorem State.rbit_setFld_out (a : Nat) {hi lo i : Nat} (x : Nat) (out : i < lo ∨ hi < i) (inside : i < 32) :
    (s.setFld a hi lo x).rbit a i = s.rbit a i := by
  simp [State.rbit, State.setFld, bitOf_withField_out _ _ out inside]

theorem State.fld_setFld_out (a : Nat) {hi lo top bot : Nat} (x : Nat) (out : hi < bot ∨ top < lo) (inside : hi < 32) :
    (s.setFld a top bot x).fld a hi lo = s.fld a hi lo := by
  simp [State.fld, State.setFld, field_withField_out _ _ out inside]

end

/-! ## Registers and the rest of the state under raises -/

/-- A part of the state that no raise touches. -/
theorem State.RaiseOnly.keeps {α : Type} {s t : State} (h : s.RaiseOnly t) (f : State → α)
    (same : ∀ r v x m n k, f { s with regs := r, vecs := v, tx := x, msix := m, sessions := n, fresh := k } = f s) : f t = f s := by
  obtain ⟨r, v, x, m, n, k, rfl⟩ := h
  exact same r v x m n k

theorem raiseSpares_of_out {a : Nat} (out : a < 0xD0000 ∨ 0xF0000 ≤ a) : RaiseSpares a := ⟨fun k _ => by lia, fun n _ => by lia⟩

section
variable (s : State)

/-- A fault leaves the other registers outside the attention and network blocks. -/
theorem State.reg_fault_ne {a b : Nat} (m : Nat) (out : a < 0xD0000 ∨ 0xF0000 ≤ a) (ne : a ≠ b) : (s.fault b m).reg a = s.reg a :=
  s.fault_reg_of_ne (raiseSpares_of_out out) ne m

/-- A bit a fault sets. -/
theorem State.rbit_fault_set {a m i : Nat} (out : a < 0xD0000 ∨ 0xF0000 ≤ a) (hi : i < 24) (asked : m.testBit i = true) :
    (s.fault a m).rbit a i = true :=
  s.fault_rbit_self (raiseSpares_of_out out) hi asked

/-- A refused access leaves the registers other than its block's record of it (R41). -/
theorem State.reg_err_ne {a b : Nat} (c : Cause) (o : Nat) (q : Req) (out : a < 0xD0000 ∨ 0xF0000 ≤ a) (ne : a ≠ b + 0x3FF0)
    (ne' : a ≠ b + 0x3FF8) : (s.err b c o q).reg a = s.reg a := by
  unfold State.err errOff
  rw [State.reg_fault_ne _ _ out ne]
  split
  · exact s.reg_setReg_ne _ ne'
  · rfl

theorem State.reg_event_of_out {a v : Nat} (out : a < 0xD0000 ∨ 0xF0000 ≤ a) (hv : v < 256) : (s.event v).reg a = s.reg a :=
  s.event_reg_of_spared (raiseSpares_of_out out) hv

theorem State.reg_setRbit_ne {a b : Nat} (i : Nat) (v : Bool) (ne : b ≠ a) : (s.setRbit a i v).reg b = s.reg b := s.reg_setReg_ne _ ne

theorem State.reg_setFld_ne {a b : Nat} (hi lo x : Nat) (ne : b ≠ a) : (s.setFld a hi lo x).reg b = s.reg b := s.reg_setReg_ne _ ne

theorem State.reg_count_ne {a b : Nat} (n : Nat) (ne : b ≠ a) : (s.count a n).reg b = s.reg b := s.reg_setReg_ne _ ne

theorem State.rbit_of_reg {s t : State} {a : Nat} (same : t.reg a = s.reg a) (i : Nat) : t.rbit a i = s.rbit a i :=
  congrArg (bitOf · i) same

theorem State.fld_of_reg {s t : State} {a : Nat} (same : t.reg a = s.reg a) (hi lo : Nat) : t.fld a hi lo = s.fld a hi lo :=
  congrArg (field · hi lo) same

end

end Sys2Proof.Machine
end

section
/-!
PROOFS. The controller's rows and refreshes, and the recovery from an alert (R283, R285, R286, R287).
-/
namespace Sys2Proof.Machine

section
variable (s : State)

@[simp] theorem State.bank_setBank_same (k : Nat) (b : BankSt) : (s.setBank k b).bank k = b := Store.get_set_same _ _ _ _

@[simp] theorem State.bank_retryPush (m : Nat) (c : RetryCmd) (k : Nat) : (s.retryPush m c).bank k = s.bank k := by
  unfold State.retryPush; dsimp only; split <;> rfl

theorem State.rowsOnly_retryPush (m : Nat) (c : RetryCmd) : State.RowsOnly m s (s.retryPush m c) :=
  (State.rowsOnly_closed m s).retryPush (.refl m s) c

theorem State.retry_retryPush_ne_nil (m : Nat) (c : RetryCmd) : ((s.retryPush m c).mc m).retry ≠ [] := by
  unfold State.retryPush
  dsimp only
  split <;> simp

end

/-! ## Rows closed by a precharge -/

/-- A bank whose open row is closed, its history as it was. -/
def BankSt.closed (b : BankSt) : BankSt := if b.openRow.isSome then { b with row := .idle } else b

@[simp] theorem BankSt.closed_h (b : BankSt) : b.closed.h = b.h := by
  unfold BankSt.closed; split <;> rfl

@[simp] theorem BankSt.closed_openRow (b : BankSt) : b.closed.openRow = none := by
  unfold BankSt.closed
  split
  · rfl
  · next shut => simpa using shut

@[simp] theorem BankSt.closed_closed (b : BankSt) : b.closed.closed = b.closed := if_neg (by simp)

theorem BankSt.closed_of_shut {b : BankSt} (shut : b.openRow = none) : b.closed = b := if_neg (by simp [shut])

/-- Closing a list of banks changes banks alone: those of the list are closed. -/
theorem State.closeBanks_eq (l : List Nat) (s : State) :
    ∃ b, forEach l (fun k t => if (t.bank k).openRow.isSome then t.setBank k { t.bank k with row := .idle } else t) s =
        { s with banks := b } ∧
      ∀ k, b.get {} k = if k ∈ l then (s.bank k).closed else s.bank k := by
  induction l generalizing s with
  | nil => exact ⟨s.banks, rfl, fun k => by simp [State.bank]⟩
  | cons j l ih =>
    have step : ∃ b, (if (s.bank j).openRow.isSome then s.setBank j { s.bank j with row := .idle } else s) = { s with banks := b } ∧
        ∀ k, b.get {} k = if k = j then (s.bank k).closed else s.bank k := by
      split
      · next isOpen =>
        refine ⟨_, rfl, fun k => ?_⟩
        split
        · next same => subst same; exact (Store.get_set_same _ _ _ _).trans (if_pos isOpen).symm
        · next ne => exact Store.get_set_ne _ _ _ _ ne
      · next shut =>
        refine ⟨s.banks, rfl, fun k => ?_⟩
        split
        · next same => subst same; exact (if_neg shut).symm
        · rfl
    obtain ⟨b, made, banks⟩ := step
    obtain ⟨c, rest, closed⟩ := ih { s with banks := b }
    refine ⟨c, ?_, fun k => ?_⟩
    · simpa only [forEach, List.foldl_cons, made] using rest
    · rw [closed k]
      change (if k ∈ l then (b.get {} k).closed else b.get {} k) = _
      rw [banks k]
      by_cases same : k = j <;> by_cases mem : k ∈ l <;> simp [same, mem]

/-- A precharge of a rank changes banks alone: those of the rank are closed (R283). -/
theorem State.closeRank_eq (s : State) (m rank : Nat) : ∃ b, s.closeRank m rank = { s with banks := b } ∧
    ∀ k, b.get {} k = if k ∈ rankBanks m rank then (s.bank k).closed else s.bank k := State.closeBanks_eq _ _

theorem State.bank_closeRank (s : State) (m rank k : Nat) :
    (s.closeRank m rank).bank k = if k ∈ rankBanks m rank then (s.bank k).closed else s.bank k := by
  obtain ⟨b, made, banks⟩ := s.closeRank_eq m rank
  rw [made]
  exact banks k

theorem State.rowsOnly_precharge (s : State) (m rank : Nat) : State.RowsOnly m s (s.precharge m rank) := by
  obtain ⟨b, made, _⟩ := (s.retryPush m (.prea rank)).closeRank_eq m rank
  refine (s.rowsOnly_retryPush m (.prea rank)).trans ?_
  rw [State.precharge, made]
  exact ⟨fun _ _ _ => rfl, ⟨_, _, rfl⟩, ⟨_, _, _, rfl⟩⟩

theorem State.bank_precharge (s : State) (m rank k : Nat) :
    (s.precharge m rank).bank k = if k ∈ rankBanks m rank then (s.bank k).closed else s.bank k := by
  rw [State.precharge, State.bank_closeRank, State.bank_retryPush]

/-! ## Refreshes -/

/-- Refreshes of a rank fill the retry buffer and leave the banks. -/
theorem State.refreshRun (m rank : Nat) (l : List Nat) (s : State) :
    State.RowsOnly m s (forEach l (fun _ t => t.retryPush m (.ref rank)) s) ∧
      (∀ k, (forEach l (fun _ t => t.retryPush m (.ref rank)) s).bank k = s.bank k) ∧
      (l ≠ [] → ((forEach l (fun _ t => t.retryPush m (.ref rank)) s).mc m).retry ≠ []) := by
  induction l generalizing s with
  | nil => exact ⟨.refl m s, fun _ => rfl, fun h => absurd rfl h⟩
  | cons j l ih =>
    obtain ⟨only, banks, filled⟩ := ih (s.retryPush m (.ref rank))
    refine ⟨(s.rowsOnly_retryPush m _).trans only, fun k => (banks k).trans (s.bank_retryPush m _ k), fun _ => ?_⟩
    by_cases last : l = []
    · subst last; exact s.retry_retryPush_ne_nil m _
    · exact filled last

/-- REF commands of a rank change what rows change; every row of the rank is closed, its history as it was (R287). -/
theorem State.refreshes_spec (s : State) (m rank n : Nat) :
    State.RowsOnly m s (s.refreshes m rank n) ∧
      (∀ k, (s.refreshes m rank n).bank k = if k ∈ rankBanks m rank then (s.bank k).closed else s.bank k) ∧
      (n ≠ 0 → ((s.refreshes m rank n).mc m).retry ≠ []) := by
  have some (t : State) (only : State.RowsOnly m s t)
      (closed : ∀ k, t.bank k = if k ∈ rankBanks m rank then (s.bank k).closed else s.bank k) :
      State.RowsOnly m s (forEach (List.range n) (fun _ t => t.retryPush m (.ref rank)) t) ∧
        (∀ k, (forEach (List.range n) (fun _ t => t.retryPush m (.ref rank)) t).bank k =
          if k ∈ rankBanks m rank then (s.bank k).closed else s.bank k) ∧
        (n ≠ 0 → ((forEach (List.range n) (fun _ t => t.retryPush m (.ref rank)) t).mc m).retry ≠ []) := by
    obtain ⟨run, banks, filled⟩ := State.refreshRun m rank (List.range n) t
    exact ⟨only.trans run, fun k => (banks k).trans (closed k), fun h => filled (by simpa using h)⟩
  unfold State.refreshes
  dsimp only
  split
  · exact some _ (s.rowsOnly_precharge m rank) (s.bank_precharge m rank)
  · next shut =>
    refine some _ (.refl m s) fun k => ?_
    split
    · next mem => exact (BankSt.closed_of_shut (by simpa using fun h => shut (List.any_eq_true.mpr ⟨k, mem, h⟩))).symm
    · rfl

theorem mem_rankBanks (m rank : Nat) (i : Fin 16) : 64 * m + 16 * rank + i ∈ rankBanks m rank :=
  List.mem_map.mpr ⟨i, List.mem_range.mpr i.isLt, rfl⟩

/-- A rank just refreshed has no row open, and every history as it was. -/
theorem State.refreshes_closed (s : State) (m rank n : Nat) (i : Fin 16) :
    ((s.refreshes m rank n).bank (64 * m + 16 * rank + i)).openRow = none ∧
      ((s.refreshes m rank n).bank (64 * m + 16 * rank + i)).h = (s.bank (64 * m + 16 * rank + i)).h := by
  obtain ⟨_, banks, _⟩ := s.refreshes_spec m rank n
  rw [banks, if_pos (mem_rankBanks m rank i)]
  exact ⟨BankSt.closed_openRow _, BankSt.closed_h _⟩

/-- REFRESH_DUE, by what decides it (R285, R287). -/
theorem exec_refreshDue (s : State) (m : Mc) (rank queued : Bool) (present : rank.toNat < s.fld (Reg.mcGeom m) 1 0)
    (awake : (s.mc m).sr.getLsbD rank.toNat = false) :
    exec (.refreshDue m rank queued) s = .next (
      if s.mcStill m || queued && decide ((s.mc m).postponed.getD rank.toNat 0 < 8) then
        s.owe m rank.toNat ((s.mc m).postponed.getD rank.toNat 0 + 1)
      else if queued then s.refreshes m rank.toNat 1
      else (s.refreshes m rank.toNat ((s.mc m).postponed.getD rank.toNat 0 + 1)).owe m rank.toNat 0) := by
  have here : (decide (s.fld (Reg.mcGeom m) 1 0 ≤ rank.toNat) || bitOf (s.mc m).sr rank.toNat) = false := by
    simp [bitOf, awake, present]
  change execRefreshDue m rank queued s = _
  rw [execRefreshDue, b2n_eq_toNat, if_neg (by simp [here])]
  rfl

/-! ## The replay -/

/-- A replayed command changes banks, stored words and the word delivered alone. -/
theorem State.replayOne_eq (s : State) (m : Nat) (c : RetryCmd) :
    ∃ b d o, s.replayOne m c = { s with banks := b, dram := d, dramOut := o } := by
  have shut (t : State) (bank : Nat) (f : Bool) : ∃ b, t.replayShut bank f = { t with banks := b } := by
    unfold State.replayShut; split <;> exact ⟨_, rfl⟩
  cases c with
  | act | pre | ref => exact ⟨_, _, _, rfl⟩
  | prea rank => obtain ⟨b, made, _⟩ := s.closeRank_eq m rank; exact ⟨b, _, _, made⟩
  | rd bank col a f => obtain ⟨b, made⟩ := shut { s with dramOut := _ } bank f; exact ⟨b, _, _, made⟩
  | wr bank col a w f => obtain ⟨b, made⟩ := shut (s.setDramCell m a w) bank f; exact ⟨b, _, _, made⟩

theorem State.replay_eq (m : Nat) (l : List RetryCmd) (s : State) :
    ∃ b d o, l.foldl (fun t c => t.replayOne m c) s = { s with banks := b, dram := d, dramOut := o } := by
  induction l generalizing s with
  | nil => exact ⟨_, _, _, rfl⟩
  | cons c l ih =>
    obtain ⟨b, d, o, made⟩ := s.replayOne_eq m c
    obtain ⟨b', d', o', rest⟩ := ih { s with banks := b, dram := d, dramOut := o }
    exact ⟨b', d', o', by rw [List.foldl_cons, made, rest]⟩

/-- The state after the commands of a recovery are replayed and counted. -/
def State.replayed (s : State) (m : Nat) (b : Store BankSt) (d : Store (BitVec 80)) (o : W72 × Bool) : State :=
  (State.setMc { s with banks := b, dram := d, dramOut := o } m
    { s.mc m with waiting := false, replays := (s.mc m).replays + 1 }).count (Reg.mcReplayCnt m) 1

theorem State.refreshOverdue_mc (t : State) (m rank : Nat) : ((t.refreshOverdue m rank).mc m).queue = (t.mc m).queue ∧
    ((t.refreshOverdue m rank).mc m).wants = (t.mc m).wants := by
  unfold State.refreshOverdue
  dsimp only
  split
  · obtain ⟨only, _, _⟩ := t.refreshes_spec m rank (nth (t.mc m).postponed rank 0 - 8)
    obtain ⟨_, _, e⟩ := only.mc
    simp [State.owe, e]
  · exact ⟨rfl, rfl⟩

theorem State.mc_replayed (s : State) (m : Nat) (b : Store BankSt) (d : Store (BitVec 80)) (o : W72 × Bool) :
    (s.replayed m b d o).mc m = { s.mc m with waiting := false, replays := (s.mc m).replays + 1 } := State.mc_setMc_same _ _ _

theorem State.refreshOverdue_of_few {s : State} {m rank : Nat} (few : (s.mc m).postponed.getD rank 0 ≤ 8) :
    s.refreshOverdue m rank = s := if_neg (Nat.not_lt.mpr few)

/-- A replay with nothing queued and no change asked for: what is unretired is replayed, and refreshes owed beyond eight are issued. -/
theorem exec_caReplay (s : State) (m : Mc) (waiting : (s.mc m).waiting = true) (few : (s.mc m).replays < 3)
    (empty : (s.mc m).queue = []) (still : (s.mc m).wants = false) :
    ∃ b d o, exec (.caReplay m) s = .next (((s.replayed m b d o).refreshOverdue m 0).refreshOverdue m 1) := by
  obtain ⟨b₀, made₀, _⟩ := s.closeRank_eq m 0
  obtain ⟨b₁, made₁, _⟩ := (s.closeRank m 0).closeRank_eq m 1
  have closed : (s.closeRank m 0).closeRank m 1 = { s with banks := b₁ } := by rw [made₁, made₀]
  obtain ⟨b, d, o, made⟩ := State.replay_eq m (State.mc { s with banks := b₁ } m).retry { s with banks := b₁ }
  let t := ((s.replayed m b d o).refreshOverdue m 0).refreshOverdue m 1
  have start : ((s.replayed m b d o).mc m).queue = [] ∧ ((s.replayed m b d o).mc m).wants = false := by
    rw [State.mc_replayed]
    exact ⟨empty, still⟩
  have quiet : (t.mc m).queue = [] ∧ (t.mc m).wants = false := by
    simp only [t, (State.refreshOverdue_mc _ _ _).1, (State.refreshOverdue_mc _ _ _).2, start, and_self]
  refine ⟨b, d, o, ?_⟩
  have run : exec (.caReplay m) s = .next (if ((t.mcDrain m).mc m).wants then
      (t.mcDrain m).freqStart m ((t.mcDrain m).mc m).target else t.mcDrain m) := by
    change execCaReplay m s = _
    unfold execCaReplay
    rw [if_neg (by simp [waiting]), if_neg (by omega)]
    dsimp only
    rw [closed, made]
    rfl
  rw [run, State.mcDrain_of_empty quiet.1, if_neg (by simp [quiet.2])]

theorem State.refreshOverdue_spec (s : State) (m rank : Nat) (beyond : 8 < (s.mc m).postponed.getD rank 0) :
    ((s.refreshOverdue m rank).mc m).postponed = (s.mc m).postponed.set rank 8 ∧
      ((s.refreshOverdue m rank).mc m).waiting = (s.mc m).waiting := by
  obtain ⟨only, _, _⟩ := s.refreshes_spec m rank ((s.mc m).postponed.getD rank 0 - 8)
  obtain ⟨_, _, e⟩ := only.mc
  have run : s.refreshOverdue m rank = (s.refreshes m rank ((s.mc m).postponed.getD rank 0 - 8)).owe m rank 8 := if_pos beyond
  rw [run, State.owe, State.mc_setMc_same, e]
  exact ⟨rfl, rfl⟩

/-- What is owed beyond eight is issued, and eight stay owed; a rank owed less is left as it was (R287). -/
theorem State.refreshOverdue_owed (s : State) (m rank k : Nat) (two : k < (s.mc m).postponed.length) :
    ((s.refreshOverdue m rank).mc m).postponed.getD k 0 =
        (if k = rank then min 8 ((s.mc m).postponed.getD k 0) else (s.mc m).postponed.getD k 0) ∧
      ((s.refreshOverdue m rank).mc m).postponed.length = (s.mc m).postponed.length ∧
      ((s.refreshOverdue m rank).mc m).waiting = (s.mc m).waiting := by
  by_cases beyond : 8 < (s.mc m).postponed.getD rank 0
  · obtain ⟨owed, waiting⟩ := s.refreshOverdue_spec m rank beyond
    rw [owed]
    refine ⟨?_, List.length_set, waiting⟩
    by_cases same : k = rank
    · subst same
      rw [List.getD_eq_getElem _ 0 two] at beyond ⊢
      simp [two]
      omega
    · simp [List.getD_eq_getElem?_getD, List.getElem?_set_ne (Ne.symm same), same]
  · rw [State.refreshOverdue_of_few (by omega)]
    refine ⟨?_, rfl, rfl⟩
    split
    · next same => subst same; omega
    · rfl

/-! ## A channel that fails -/

/-- What a failed channel shows (R286). -/
theorem State.mcFail_spec (s : State) (m : Mc) : (s.mcFail m).mc m = { s.mc m with queue := [] } ∧
    (s.mcFail m).rbit (Reg.mcStatus m) 6 = true ∧ (s.mcFail m).rbit (Reg.mcCtrl m) 0 = false ∧
    (s.mcFail m).rbit (Reg.mcFault m) 5 = true ∧ (s.mcFail m).dram = s.dram ∧
    (s.mcFail m).dramOut = if (s.mc m).queue.any McReq.rd then (0, true) else s.dramOut := by
  let u := if (s.mc m).queue.any McReq.rd then { s with dramOut := (0, true) } else s
  let v := ((u.setMc m { u.mc m with queue := [] }).setRbit (Reg.mcStatus m) 6 true).setRbit (Reg.mcCtrl m) 0 false
  have mcs : u.mcs = s.mcs := by dsimp only [u]; split <;> rfl
  have dram : u.dram = s.dram := by dsimp only [u]; split <;> rfl
  have out : u.dramOut = if (s.mc m).queue.any McReq.rd then (0, true) else s.dramOut := by dsimp only [u]; split <;> rfl
  have run : s.mcFail m = v.fault (Reg.mcFault m) (2 ^ 5) := rfl
  have raised := v.fault_raiseOnly (Reg.mcFault m) (2 ^ 5)
  rw [run]
  refine ⟨?_, ?_, ?_, State.rbit_fault_set v (by lia) (by decide) (by decide), ?_, ?_⟩
  · exact (raised.keeps (State.mc · m) fun _ _ _ _ _ _ => rfl).trans ((State.mc_setMc_same _ _ _).trans (by rw [State.mc, mcs, State.mc]))
  · rw [State.rbit_of_reg (State.reg_fault_ne v _ (by lia) (by lia)), State.rbit_of_reg (State.reg_setRbit_ne _ _ _ (by lia))]
    exact State.rbit_setRbit_same _ _ _ _ (by decide)
  · rw [State.rbit_of_reg (State.reg_fault_ne v _ (by lia) (by lia))]
    exact State.rbit_setRbit_same _ _ _ _ (by decide)
  · exact (raised.keeps State.dram fun _ _ _ _ _ _ => rfl).trans dram
  · exact (raised.keeps State.dramOut fun _ _ _ _ _ _ => rfl).trans out

/-! ## The end of an alert -/

/-- The state after ALERT_n rises, by the counter and the fault bit of the error it reported. -/
def State.risen (s : State) (m a i : Nat) : State :=
  (((s.setMc m { s.mc m with alert := false, waiting := true }).setRbit (Reg.mcStatus m) 16 false).count a 1).fault
    (Reg.mcFault m) (2 ^ i)

theorem State.risen_spec (s : State) (m : Mc) {a i : Nat} (counter : a = Reg.mcCrcCnt m ∨ a = Reg.mcParCnt m) (small : i < 24) :
    (s.risen m a i).mc m = { s.mc m with alert := false, waiting := true } ∧ (s.risen m a i).rbit (Reg.mcStatus m) 16 = false ∧
      (s.risen m a i).rbit (Reg.mcFault m) i = true ∧ (s.risen m a i).reg a = s.reg a + 1 ∧
      ∀ b, b = Reg.mcCrcCnt m ∨ b = Reg.mcParCnt m → b ≠ a → (s.risen m a i).reg b = s.reg b := by
  refine ⟨?_, ?_, State.rbit_fault_set _ (by lia) small (by simp), ?_, fun b other ne => ?_⟩
  · exact ((State.fault_raiseOnly _ _ _).keeps (State.mc · m) fun _ _ _ _ _ _ => rfl).trans (State.mc_setMc_same _ _ _)
  · rw [State.risen, State.rbit_of_reg (State.reg_fault_ne _ _ (by lia) (by lia)),
      State.rbit_of_reg (State.reg_count_ne _ _ (by lia))]
    exact State.rbit_setRbit_same _ _ _ _ (by decide)
  · rw [State.risen, State.reg_fault_ne _ _ (by lia) (by lia), State.count_reg, State.reg_setRbit_ne _ _ _ (by lia)]
    rfl
  · rw [State.risen, State.reg_fault_ne _ _ (by lia) (by lia), State.reg_count_ne _ _ ne, State.reg_setRbit_ne _ _ _ (by lia)]
    rfl

/-- ALERT_n rises: the low it ends is counted, and the recovery wait starts (R285). -/
theorem exec_alertNRise (s : State) (m : Mc) (tck : Nat) (alert : (s.mc m).alert = true) :
    exec (.alertNRise m tck) s =
      .next (s.risen m (if tck ≤ 24 then Reg.mcCrcCnt m else Reg.mcParCnt m) (if tck ≤ 24 then 4 else 3)) := by
  change execAlertNRise m tck s = _
  unfold execAlertNRise
  rw [if_neg (by simp [alert])]
  dsimp only
  split <;> rfl

/-! ## The obligation -/

/-- Settles O39, by the rows that a precharge closes, and what REF commands and a replay leave of the controller. -/
theorem dramRowsRefreshAndRetry : Obligations.DramRowsRefreshAndRetry := by
  refine ⟨?timeout, ?stillRow, ?postpone, ?owed, ?ninth, ?absent, ?idle, ?retire, ?fall, ?rise, ?replay, ?overdue, ?fatal⟩
  case timeout =>
    intro s m bank row small left free
    have run : exec (.rowTimeout m bank) s = .next ((s.retryPush m (.pre (64 * m + bank))).setBank (64 * m + bank)
        { s.bank (64 * m + bank) with row := .idle }) := by
      change execRowTimeout m bank s = _
      rw [execRowTimeout, Nat.mod_eq_of_lt small]
      simp [left, free]
    refine ⟨_, run, ?_, ?_, ?_⟩
    · rw [State.bank_setBank_same]
    · rw [State.bank_setBank_same]
    · exact (s.rowsOnly_retryPush m _).dram
  case stillRow =>
    intro s m bank still
    change execRowTimeout m bank s = _
    unfold execRowTimeout
    dsimp only
    split
    · rw [if_pos still]
    · rfl
  case postpone =>
    intro s m rank few present awake
    rw [exec_refreshDue s m rank true present awake, decide_eq_true few, if_pos (by simp)]
    rfl
  case owed =>
    intro s m rank queued present awake still
    rw [exec_refreshDue s m rank queued present awake, if_pos (by simp [still])]
    rfl
  case ninth =>
    intro s m rank owed present awake free
    have run : exec (.refreshDue m rank true) s = .next (s.refreshes m rank.toNat 1) := by
      rw [exec_refreshDue s m rank true present awake, if_neg (by simpa [free] using owed), if_pos rfl]
    obtain ⟨only, _, filled⟩ := s.refreshes_spec m rank.toNat 1
    refine ⟨_, run, ?_, filled (by decide), only.dram, s.refreshes_closed m rank.toNat 1⟩
    obtain ⟨_, _, e⟩ := only.mc
    rw [e]
  case absent =>
    intro s m rank queued gone
    change execRefreshDue m rank queued s = _
    unfold execRefreshDue
    dsimp only
    rw [b2n_eq_toNat, if_pos (by simpa [bitOf] using gone)]
  case idle =>
    intro s m rank two present awake calm rest
    let n := (s.mc m).postponed.getD rank.toNat 0 + 1
    have run : exec (.refreshDue m rank false) s = .next ((s.refreshes m rank.toNat n).owe m rank.toNat 0) := by
      rw [exec_refreshDue s m rank false present awake, if_neg (by simp [State.mcStill, calm, rest]), if_neg (by simp)]
    obtain ⟨only, _, _⟩ := s.refreshes_spec m rank.toNat n
    obtain ⟨_, _, e⟩ := only.mc
    refine ⟨_, run, ?_, only.dram, s.refreshes_closed m rank.toNat n⟩
    rw [State.owe, State.mc_setMc_same, e]
    cases rank <;> simp [setNth, two]
  case retire =>
    intro s m c r held calm rest
    change execRetryRetire m s = _
    rw [execRetryRetire, if_neg (by simp [held, calm, rest]), held]
    rfl
  case fall =>
    intro s m up
    change execAlertNFall m s = _
    rw [execAlertNFall, if_neg (by simp [up])]
  case rise =>
    intro s m tck alert
    refine ⟨_, exec_alertNRise s m tck alert, ?_⟩
    by_cases short : tck ≤ 24
    · simp only [if_pos short]
      obtain ⟨mc, status, fault, word, kept⟩ := s.risen_spec m (.inl rfl) (by decide : 4 < 24)
      exact ⟨by rw [mc], by rw [mc], status, fault, word, (kept _ (.inr rfl) (by lia)).trans (BitVec.add_zero _).symm⟩
    · simp only [if_neg short]
      obtain ⟨mc, status, fault, word, kept⟩ := s.risen_spec m (.inr rfl) (by decide : 3 < 24)
      exact ⟨by rw [mc], by rw [mc], status, fault, (kept _ (.inl rfl) (by lia)).trans (BitVec.add_zero _).symm, word⟩
  case replay =>
    intro s m waiting few empty still fair
    obtain ⟨b, d, o, run⟩ := exec_caReplay s m waiting few empty still
    have mc := s.mc_replayed m b d o
    have none₀ : (s.replayed m b d o).refreshOverdue m 0 = s.replayed m b d o :=
      State.refreshOverdue_of_few (by rw [mc]; exact fair 0)
    have none₁ : (s.replayed m b d o).refreshOverdue m 1 = s.replayed m b d o :=
      State.refreshOverdue_of_few (by rw [mc]; exact fair 1)
    rw [none₀, none₁] at run
    refine ⟨_, run, ?_, ?_, ?_, ?_⟩
    · rw [mc]
    · rw [mc]
    · rw [mc]
    · exact State.count_reg _ _ _
  case overdue =>
    intro s m rank waiting few empty still two beyond
    obtain ⟨b, d, o, run⟩ := exec_caReplay s m waiting few empty still
    have mc := s.mc_replayed m b d o
    have size : rank.toNat < 2 := by cases rank <;> decide
    have pair : ((s.replayed m b d o).mc m).postponed.length = 2 := by rw [mc]; exact two
    obtain ⟨owed₀, two₀, wait₀⟩ := (s.replayed m b d o).refreshOverdue_owed m 0 rank.toNat (by omega)
    obtain ⟨owed₁, _, wait₁⟩ := ((s.replayed m b d o).refreshOverdue m 0).refreshOverdue_owed m 1 rank.toNat (by omega)
    refine ⟨_, run, ?_, ?_⟩
    · rw [owed₁, owed₀, mc]
      cases rank <;> simp at beyond ⊢ <;> omega
    · rw [wait₁, wait₀, mc]
  case fatal =>
    intro s m waiting spent
    let u := s.setMc m { s.mc m with waiting := false, retry := [], wants := false }
    have run : exec (.caReplay m) s = .next (u.mcFail m) := by
      change execCaReplay m s = _
      rw [execCaReplay, if_neg (by simp [waiting]), if_pos spent]
    obtain ⟨mc, failed, off, fatal, dram, out⟩ := u.mcFail_spec m
    have mcu : u.mc m = { s.mc m with waiting := false, retry := [], wants := false } := s.mc_setMc_same m _
    rw [mcu] at mc out
    exact ⟨_, run, by rw [mc], failed, off, fatal, dram, by rw [mc], by rw [mc], out⟩

end Sys2Proof.Machine
end

section
/-!
PROOFS. Training, the change of timing set and self-refresh (R289 to R296): what the service of queued requests, a precharge and the end of a
training run leave of a controller.
-/
namespace Sys2Proof.Machine

/-- A register of channel m that counting, logging and raising in the service of its requests may change (R288, R297). -/
def ServeReg (m a : Nat) : Prop := a ∈ [Reg.mcNrfSeed m, Reg.mcNrfCnt m, Reg.mcCeCnt m, Reg.mcPoisonCnt m, Reg.mcUeCnt m, Reg.mcFault m]

/-- What the service of channel m's requests leaves: the other registers, fault bits that are set, and what the controller is doing. -/
structure State.Serves (m : Nat) (s t : State) : Prop where
  regs : ∀ a, ¬ServeReg m a → a < 0xD0000 ∨ 0xF0000 ≤ a → t.reg a = s.reg a
  faults : ∀ i, i < 24 → s.rbit (Reg.mcFault m) i = true → t.rbit (Reg.mcFault m) i = true
  mc : ∃ q d r n, t.mc m = { s.mc m with queue := q, draining := d, retry := r, replays := n }

theorem State.Serves.refl (m : Nat) (s : State) : State.Serves m s s := ⟨fun _ _ _ => rfl, fun _ _ h => h, ⟨_, _, _, _, rfl⟩⟩

theorem State.Serves.trans {m : Nat} {s t u : State} (h : State.Serves m s t) (k : State.Serves m t u) : State.Serves m s u := by
  refine ⟨fun a r o => (k.regs a r o).trans (h.regs a r o), fun i small set => k.faults i small (h.faults i small set), ?_⟩
  obtain ⟨_, _, _, _, e⟩ := h.mc
  obtain ⟨q, d, r, n, f⟩ := k.mc
  exact ⟨q, d, r, n, by rw [f, e]⟩

theorem State.RowsOnly.serves {m : Nat} {s t : State} (h : State.RowsOnly m s t) : State.Serves m s t := by
  refine ⟨fun a r _ => h.regs a ?_ ?_, fun i _ set => ?_, ?_⟩
  · rintro rfl; exact r (by simp [ServeReg])
  · rintro rfl; exact r (by simp [ServeReg])
  · rwa [State.rbit_of_reg (h.regs _ (by lia) (by lia))]
  · obtain ⟨r, n, e⟩ := h.mc
    exact ⟨_, _, r, n, e⟩

theorem State.serves_fault (s : State) (m k : Nat) : State.Serves m s (s.fault (Reg.mcFault m) k) := by
  refine ⟨fun a r out => State.reg_fault_ne s k out ?_, fun i small set => State.fault_rbit_kept (raiseSpares_of_out (by lia)) k small set, ?_⟩
  · rintro rfl; exact r (by simp [ServeReg])
  · exact ⟨_, _, _, _, (s.fault_raiseOnly _ _).keeps (State.mc · m) fun _ _ _ _ _ _ => rfl⟩

theorem State.serves_count (s : State) {m a : Nat} (counter : ServeReg m a) (ne : a ≠ Reg.mcFault m) (n : Nat) :
    State.Serves m s (s.count a n) := by
  refine ⟨fun b r _ => s.reg_setReg_ne _ ?_, fun i _ set => ?_, ⟨_, _, _, _, rfl⟩⟩
  · rintro rfl; exact r counter
  · rwa [State.rbit_of_reg (State.reg_count_ne s n (Ne.symm ne))]

theorem State.serves_closed (m : Nat) (s : State) : ServeClosed m (State.Serves m s) where
  push t r n h := h.trans ⟨fun _ _ _ => rfl, fun _ _ set => set, ⟨_, _, r, n, State.mc_setMc_same _ _ _⟩⟩
  bank _ _ _ h := h.trans ⟨fun _ _ _ => rfl, fun _ _ set => set, ⟨_, _, _, _, rfl⟩⟩
  seed t v h := by
    refine h.trans ⟨fun b r _ => t.reg_setReg_ne _ ?_, fun i _ set => ?_, ⟨_, _, _, _, rfl⟩⟩
    · rintro rfl; exact r (by simp [ServeReg])
    · rwa [State.rbit_of_reg (t.reg_setReg_ne v (by lia))]
  refreshed t h := h.trans (t.serves_count (by simp [ServeReg]) (by lia) 1)
  queue t q d h := h.trans ⟨fun _ _ _ => rfl, fun _ _ set => set, ⟨q, d, _, _, State.mc_setMc_same _ _ _⟩⟩
  written _ _ _ h := h.trans ⟨fun _ _ _ => rfl, fun _ _ set => set, ⟨_, _, _, _, rfl⟩⟩
  delivered _ _ h := h.trans ⟨fun _ _ _ => rfl, fun _ _ set => set, ⟨_, _, _, _, rfl⟩⟩
  logged _ _ h := h.trans ⟨fun _ _ _ => rfl, fun _ _ set => set, ⟨_, _, _, _, rfl⟩⟩
  counted t a mem h := by
    simp only [List.mem_cons, List.not_mem_nil, or_false] at mem
    refine h.trans (t.serves_count ?_ ?_ 1)
    · rcases mem with rfl | rfl | rfl <;> simp [ServeReg]
    · lia
  fault t k h := h.trans (t.serves_fault m k)

theorem State.serves_mcDrain (s : State) (m : Nat) : State.Serves m s (s.mcDrain m) := (State.serves_closed m s).mcDrain (.refl m s)

/-- Precharges of a list of ranks. -/
theorem State.rowsOnly_precharges (m : Nat) (l : List Nat) (s : State) : State.RowsOnly m s (forEach l (fun k t => t.precharge m k) s) :=
  forEach_keeps (fun t => State.RowsOnly m s t) _ _ s (fun i t h => h.trans (t.rowsOnly_precharge m i)) (.refl m s)

/-- The registers of a controller that tell what it is doing are none of those. -/
theorem not_serveReg (m : Nat) : ¬ServeReg m (Reg.mcStatus m) ∧ ¬ServeReg m (Reg.mcFreqStat m) ∧ ¬ServeReg m (Reg.mcTrainStat m) ∧
    ¬ServeReg m (Reg.mcCtrl m) ∧ ¬ServeReg m (Reg.mcSrCnt m) ∧ ¬ServeReg m (Reg.mcGeom m) := by
  simp only [ServeReg, List.mem_cons, List.not_mem_nil, or_false, not_or]
  lia

/-! ## The end of a training run -/

/-- Results of a training run are stored in its result registers alone (R289). -/
theorem State.trainStore_eq (m : Nat) (mask : W32) (rs : List (Nat × W32)) (s : State) : ∃ g, s.trainStore m mask rs = { s with regs := g } ∧
    ∀ a, a < 0x800400 + 0x10000 * m ∨ 0x8004A0 + 0x10000 * m ≤ a → (s.trainStore m mask rs).reg a = s.reg a := by
  induction rs generalizing s with
  | nil => exact ⟨s.regs, rfl, fun _ _ => rfl⟩
  | cons r rs ih =>
    by_cases here : 0x400 ≤ r.1 ∧ r.1 < 0x4A0 ∧ r.1 % 4 = 0
    · let v : W32 := mask &&& (if r.1 % 8 = 0 then 0x03FF03FF else 0x007FFFFF)
      let a := 0x800000 + 0x10000 * m + r.1
      let u := s.setReg a ((s.reg a &&& ~~~v) ||| (r.2 &&& v))
      have step : s.trainStore m mask (r :: rs) = u.trainStore m mask rs := by
        rw [State.trainStore, List.foldl_cons, if_pos here]; rfl
      obtain ⟨g, made, kept⟩ := ih u
      refine ⟨g, step.trans made, fun b out => ?_⟩
      rw [step, kept b out]
      exact s.reg_setReg_ne _ (by omega)
    · have step : s.trainStore m mask (r :: rs) = s.trainStore m mask rs := by
        rw [State.trainStore, List.foldl_cons, if_neg here]; rfl
      rw [step]
      exact ih s

theorem State.rowRestored_eq (s : State) (m rank : Nat) : ∃ d, s.rowRestored m rank = { s with dram := d } := by
  refine forEach_keeps (fun t => ∃ d, t = { s with dram := d }) _ _ s ?_ ⟨_, rfl⟩
  rintro i _ ⟨d, rfl⟩
  exact ⟨_, rfl⟩

theorem State.rowsRestored_eq (s : State) (m : Nat) (l : List Nat) : ∃ d, forEach l (fun k t => t.rowRestored m k) s = { s with dram := d } := by
  refine forEach_keeps (fun t => ∃ d, t = { s with dram := d }) _ _ s ?_ ⟨_, rfl⟩
  rintro i _ ⟨d, rfl⟩
  obtain ⟨e, made⟩ := State.rowRestored_eq { s with dram := d } m i
  exact ⟨e, made⟩

theorem State.banksFresh_eq (s : State) (m : Nat) (l : List Nat) :
    ∃ b, forEach l (fun i t => t.setBank (64 * m + i) {}) s = { s with banks := b } := by
  refine forEach_keeps (fun t => ∃ b, t = { s with banks := b }) _ _ s ?_ ⟨_, rfl⟩
  rintro i _ ⟨b, rfl⟩
  exact ⟨_, rfl⟩

/-- What the end of a training run leaves (R289, R290). -/
structure State.TrainEnds (m : Nat) (r : TrainResult) (s t : State) : Prop where
  stat : t.reg (Reg.mcTrainStat m) = trainStat r.fail
  status : t.reg (Reg.mcStatus m) = withBit (s.reg (Reg.mcStatus m)) 1 false
  freq : t.reg (Reg.mcFreqStat m) = s.reg (Reg.mcFreqStat m)
  passed : r.fail = none → t.mc m = { s.mc m with trained := true }
  failed : r.fail ≠ none → t.mc m = s.mc m ∧ t.rbit (Reg.mcFault m) 6 = true

theorem State.trainEnds (s : State) (m : Mc) (r : TrainResult) : State.TrainEnds m r s (s.trainEnd m r) := by
  let u := (s.setReg (Reg.mcTrainStat m) (trainStat r.fail)).setRbit (Reg.mcStatus m) 1 false
  obtain ⟨d, restored⟩ := u.rowsRestored_eq m (List.range (u.ranksWritten m r.fail))
  obtain ⟨b, fresh⟩ := State.banksFresh_eq { u with dram := d } m (List.range 32)
  let v : State := { u with dram := d, banks := b }
  have stat : u.reg (Reg.mcTrainStat m) = trainStat r.fail :=
    (State.reg_setRbit_ne _ _ _ (by lia)).trans (State.reg_setReg_same _ _ _)
  have status : u.reg (Reg.mcStatus m) = withBit (s.reg (Reg.mcStatus m)) 1 false :=
    (State.reg_setReg_same _ _ _).trans (congrArg (withBit · 1 false) (State.reg_setReg_ne _ _ (by lia)))
  have freq : u.reg (Reg.mcFreqStat m) = s.reg (Reg.mcFreqStat m) :=
    (State.reg_setRbit_ne _ _ _ (by lia)).trans (State.reg_setReg_ne _ _ (by lia))
  obtain ⟨outcome, results⟩ := r
  cases outcome with
  | none =>
    have run : s.trainEnd m ⟨none, results⟩ = (v.trainStore m 0xFFFFFFFF results).setMc m
        { (v.trainStore m 0xFFFFFFFF results).mc m with trained := true } := by
      unfold State.trainEnd
      dsimp only at restored fresh ⊢
      rw [restored, fresh]
    obtain ⟨g, made, kept⟩ := State.trainStore_eq m 0xFFFFFFFF results v
    rw [run]
    refine ⟨(kept _ (by lia)).trans stat, (kept _ (by lia)).trans status, (kept _ (by lia)).trans freq, fun _ => ?_,
      fun h => absurd rfl h⟩
    exact (State.mc_setMc_same _ _ _).trans (by rw [made]; rfl)
  | some f =>
    have run : s.trainEnd m ⟨some f, results⟩ = v.fault (Reg.mcFault m) (2 ^ 6) := by
      unfold State.trainEnd
      dsimp only at restored fresh ⊢
      rw [restored, fresh]
    rw [run]
    refine ⟨(State.reg_fault_ne v _ (by lia) (by lia)).trans stat, (State.reg_fault_ne v _ (by lia) (by lia)).trans status,
      (State.reg_fault_ne v _ (by lia) (by lia)).trans freq, nofun,
      fun _ => ⟨?_, State.rbit_fault_set _ (by lia) (by decide) (by decide)⟩⟩
    exact (v.fault_raiseOnly _ _).keeps (State.mc · m) fun _ _ _ _ _ _ => rfl

/-! ## The start of a change -/

/-- What the start of a change of timing set leaves (R285, R293). -/
structure State.FreqStarts (m : Nat) (s t : State) : Prop where
  regs : ∀ a, ¬ServeReg m a → a < 0xD0000 ∨ 0xF0000 ≤ a → a ≠ Reg.mcStatus m → t.reg a = s.reg a
  status : t.reg (Reg.mcStatus m) = withBit (s.reg (Reg.mcStatus m)) 4 false
  trained : (t.mc m).trained = (s.mc m).trained

theorem State.freqStarts (s : State) (m : Mc) (n : Nat) : State.FreqStarts m s (s.freqStart m n) := by
  unfold State.freqStart
  split
  · refine ⟨fun a _ _ ne => State.reg_setRbit_ne _ _ _ ne, State.reg_setReg_same _ _ _, ?_⟩
    change ((s.setMc m _).mc m).trained = _
    rw [State.mc_setMc_same]
  · let u := (s.setMc m { s.mc m with sr := 0 }).setRbit (Reg.mcStatus m) 4 false
    let v := u.mcDrain m
    have served := (u.serves_mcDrain m).trans (State.rowsOnly_precharges m (List.range (v.fld (Reg.mcGeom m) 1 0)) v).serves
    refine ⟨fun a r out ne => (served.regs a r out).trans (State.reg_setRbit_ne _ _ _ ne),
      (served.regs (Reg.mcStatus m) (not_serveReg m).1 (by lia)).trans (State.reg_setReg_same _ _ _), ?_⟩
    obtain ⟨_, _, _, _, e⟩ := served.mc
    rw [State.mc_setMc_same, e]
    change ((s.setMc m _).mc m).trained = _
    rw [State.mc_setMc_same]

/-- What the rest of a training run that ended leaves of what it reported: a pending change that starts takes bit 4 of STATUS. -/
structure State.Goes (m : Nat) (s t : State) : Prop where
  stat : t.reg (Reg.mcTrainStat m) = s.reg (Reg.mcTrainStat m)
  status : ∀ k, k ≠ 4 → t.rbit (Reg.mcStatus m) k = s.rbit (Reg.mcStatus m) k
  trained : (t.mc m).trained = (s.mc m).trained

theorem State.FreqStarts.goes {m : Mc} {s t : State} (h : State.FreqStarts m s t) : State.Goes m s t :=
  ⟨h.regs _ (not_serveReg m).2.2.1 (by lia) (by lia),
    fun k ne => by rw [State.rbit, h.status, bitOf_withBit _ _ _ (by decide), if_neg ne]; rfl, h.trained⟩

theorem State.Serves.goes {m : Mc} {s t : State} (h : State.Serves m s t) : State.Goes m s t := by
  refine ⟨h.regs _ (not_serveReg m).2.2.1 (by lia), fun k _ => State.rbit_of_reg (h.regs _ (not_serveReg m).1 (by lia)) k, ?_⟩
  obtain ⟨_, _, _, _, e⟩ := h.mc
  rw [e]

/-- What a training run that ended reports (R286, R289, R290, R292). -/
theorem State.trainOver_spec (s : State) (m : Mc) (r : TrainResult) :
    (s.trainOver m r).rbit (Reg.mcStatus m) 1 = false ∧ (s.trainOver m r).reg (Reg.mcTrainStat m) = trainStat r.fail ∧
      (r.fail = none → ((s.trainOver m r).mc m).trained = true ∧
        (s.trainOver m r).rbit (Reg.mcStatus m) 6 = (!(s.mc m).byGo && s.rbit (Reg.mcStatus m) 6)) ∧
      (r.fail ≠ none → (s.trainOver m r).rbit (Reg.mcFault m) 6 = true ∧
        (s.trainOver m r).rbit (Reg.mcStatus m) 6 = s.rbit (Reg.mcStatus m) 6) ∧
      (r.fail ≠ none → s.rbit (Reg.mcStatus m) 4 = true →
        (s.trainOver m r).rbit (Reg.mcStatus m) 4 = false ∧ (s.trainOver m r).fld (Reg.mcFreqStat m) 1 0 = 2) := by
  have ends := s.trainEnds m r
  have bit (k : Nat) : (s.trainEnd m r).rbit (Reg.mcStatus m) k = if k = 1 then false else s.rbit (Reg.mcStatus m) k := by
    rw [State.rbit, ends.status, bitOf_withBit _ _ _ (by decide)]; rfl
  cases outcome : r.fail with
  | none =>
    let u := if ((s.trainEnd m r).mc m).byGo then
        ((s.trainEnd m r).setRbit (Reg.mcStatus m) 6 false).setMc m { (s.trainEnd m r).mc m with replays := 0 } else s.trainEnd m r
    have mc := ends.passed outcome
    have went : State.Goes m u (s.trainOver m r) := by
      unfold State.trainOver
      simp only [outcome]
      split
      · exact (State.freqStarts _ m _).goes
      · exact (State.serves_mcDrain _ m).goes
    have trained : (u.mc m).trained = true := by
      dsimp only [u]
      split
      · rw [State.mc_setMc_same, mc]
      · rw [mc]
    have stat : u.reg (Reg.mcTrainStat m) = trainStat none := by
      rw [← outcome, ← ends.stat]
      dsimp only [u]
      split
      · exact State.reg_setRbit_ne _ _ _ (by lia)
      · rfl
    have status (k : Nat) : u.rbit (Reg.mcStatus m) k =
        if k = 6 ∧ (s.mc m).byGo then false else (s.trainEnd m r).rbit (Reg.mcStatus m) k := by
      dsimp only [u]
      rw [show ((s.trainEnd m r).mc m).byGo = (s.mc m).byGo by rw [mc]]
      by_cases go : (s.mc m).byGo = true <;> by_cases six : k = 6
      · subst six; rw [if_pos go, if_pos ⟨rfl, go⟩]; exact State.rbit_setRbit_same _ _ _ _ (by decide)
      · rw [if_pos go, if_neg (by simp [six])]; exact State.rbit_setRbit_ne _ _ _ (by decide) six
      · simp [go]
      · simp [go]
    refine ⟨?_, went.stat.trans stat, fun _ => ⟨went.trained.trans trained, ?_⟩, fun h => absurd rfl h, fun h => absurd rfl h⟩
    · rw [went.status 1 (by decide), status, bit]; rfl
    · rw [went.status 6 (by decide), status, bit]
      by_cases go : (s.mc m).byGo = true <;> simp [go]
  | some f =>
    let u := if (s.trainEnd m r).rbit (Reg.mcStatus m) 4 then
        ((s.trainEnd m r).setRbit (Reg.mcStatus m) 4 false).setFld (Reg.mcFreqStat m) 1 0 2 else s.trainEnd m r
    have ne : r.fail ≠ none := by rw [outcome]; exact nofun
    obtain ⟨mc, fault⟩ := ends.failed ne
    have served : State.Serves m u (s.trainOver m r) := by
      unfold State.trainOver
      simp only [outcome]
      exact State.serves_mcDrain _ m
    have other (a : Nat) (ha : a ≠ Reg.mcStatus m) (hb : a ≠ Reg.mcFreqStat m) : u.reg a = (s.trainEnd m r).reg a := by
      dsimp only [u]
      split
      · rw [State.reg_setFld_ne _ _ _ _ hb, State.reg_setRbit_ne _ _ _ ha]
      · rfl
    have status (k : Nat) : u.rbit (Reg.mcStatus m) k = if k = 4 then false else (s.trainEnd m r).rbit (Reg.mcStatus m) k := by
      dsimp only [u]
      split
      · rw [State.rbit_of_reg (State.reg_setFld_ne _ _ _ _ (by lia))]
        by_cases four : k = 4
        · subst four; exact State.rbit_setRbit_same _ _ _ _ (by decide)
        · rw [if_neg four]; exact State.rbit_setRbit_ne _ _ _ (by decide) four
      · next clear => split <;> simp_all
    have shown (k : Nat) := State.rbit_of_reg (served.regs _ (not_serveReg m).1 (by lia)) k
    refine ⟨?_, ?_, fun h => by simp at h, fun _ => ⟨served.faults 6 (by decide) ?_, ?_⟩, fun _ pend => ⟨?_, ?_⟩⟩
    · rw [shown, status, bit]; rfl
    · rw [served.regs _ (not_serveReg m).2.2.1 (by lia), other _ (by lia) (by lia), ends.stat, outcome]
    · exact (State.rbit_of_reg (other _ (by lia) (by lia)) 6).trans fault
    · rw [shown, status, bit]; rfl
    · rw [shown, status]; rfl
    · rw [State.fld_of_reg (served.regs _ (not_serveReg m).2.1 (by lia))]
      have pending : (s.trainEnd m r).rbit (Reg.mcStatus m) 4 = true := by rw [bit]; exact pend
      dsimp only [u]
      rw [if_pos pending]
      exact State.fld_setFld_same _ _ _ _ (by decide)

/-! ## SRE and the hand-over -/

/-- Word r of set n of the timing sets a hand-over lists. -/
theorem timingSets_getD (f : Nat → Nat → W32) (n : Fin 2) (r : Fin 7) :
    ([0, 1].flatMap fun n => (List.range 7).map (f n)).getD (7 * n + r) 0 = f n r := by
  fin_cases n <;> fin_cases r <;> rfl

theorem State.mc_rankSre (s : State) (m rank : Nat) :
    (s.rankSre m rank).mc m = { s.mc m with sr := withBit (s.mc m).sr rank true } := State.mc_setMc_same _ _ _

theorem State.dram_rankSre (s : State) (m rank : Nat) : (s.rankSre m rank).dram = s.dram := rfl

theorem State.reg_rankSre (s : State) (m rank : Nat) : (s.rankSre m rank).reg (Reg.mcSrCnt m) = s.reg (Reg.mcSrCnt m) + 1 :=
  State.count_reg _ _ _

theorem State.reg_tsetHandOver (s : State) (m a : Nat) : (s.tsetHandOver m).reg a = s.reg a := rfl

theorem State.dram_tsetHandOver (s : State) (m : Nat) : (s.tsetHandOver m).dram = s.dram := rfl

/-- SRE to a list of ranks: they are in self-refresh, SR_CNT counts, and nothing else changes (R295). -/
theorem State.rankSres (m : Nat) (l : List Nat) (s : State) :
    (∃ x, (forEach l (fun k t => t.rankSre m k) s).mc m = { s.mc m with sr := x } ∧
      ∀ k, k < 2 → k ∈ l ∨ (s.mc m).sr.getLsbD k = true → x.getLsbD k = true) ∧
    (∀ a, a ≠ Reg.mcSrCnt m → (forEach l (fun k t => t.rankSre m k) s).reg a = s.reg a) ∧
    (forEach l (fun k t => t.rankSre m k) s).dram = s.dram := by
  induction l generalizing s with
  | nil => exact ⟨⟨_, rfl, fun k _ h => h.resolve_left (by simp)⟩, fun _ _ => rfl, rfl⟩
  | cons j l ih =>
    have mc := s.mc_rankSre m j
    obtain ⟨⟨x, made, set⟩, regs, dram⟩ := ih (s.rankSre m j)
    rw [mc] at made set
    refine ⟨⟨x, made, fun k small h => set k small ?_⟩, fun a ne => (regs a ne).trans (State.reg_count_ne _ _ ne), dram⟩
    by_cases same : k = j
    · subst same; exact .inr ((getLsbD_withBit _ _ _ small).trans (if_pos rfl))
    · rcases h with mem | old
      · exact .inl ((List.mem_cons.mp mem).resolve_left same)
      · exact .inr (bitOf_withBit_of_set j old)

/-- A write of a timing set that meets its hand-over leaves the controller, DRAM and the registers below the sets but FAULT (R291). -/
theorem State.tsetLate_kept (s : State) (m : Mc) (late : Option TsetWrite) : (s.tsetLate m late).mcs = s.mcs ∧
    (s.tsetLate m late).dram = s.dram ∧
    ∀ a : Nat, 0x800000 ≤ a → a < 0x800100 + 0x10000 * m → a ≠ Reg.mcFault m → (s.tsetLate m late).reg a = s.reg a := by
  unfold State.tsetLate
  cases late with
  | none => exact ⟨rfl, rfl, fun _ _ _ _ => rfl⟩
  | some x =>
    dsimp only
    split
    · exact ⟨rfl, rfl, fun _ _ _ _ => rfl⟩
    · unfold State.lateWrite
      dsimp only
      split
      · next c _ =>
        have raised := s.err_raiseOnly (0x800000 + 0x10000 * m) c (0x100 + 0x40 * x.n.val + 4 * x.r.val) x.q
        exact ⟨raised.keeps State.mcs fun _ _ _ _ _ _ => rfl, raised.keeps State.dram fun _ _ _ _ _ _ => rfl,
          fun a low high ne => State.reg_err_ne _ _ _ _ (by lia) (by lia) (by lia)⟩
      · generalize (_ ||| _ : W32) = v
        have raised := (s.setReg (0x800000 + 0x10000 * m + (0x100 + 0x40 * x.n.val + 4 * x.r.val)) v).fault_raiseOnly (Reg.mcFault m) (2 ^ 8)
        refine ⟨raised.keeps State.mcs fun _ _ _ _ _ _ => rfl, raised.keeps State.dram fun _ _ _ _ _ _ => rfl, fun a low high ne => ?_⟩
        rw [State.reg_fault_ne _ _ (by lia) ne]
        exact State.reg_setReg_ne _ _ (by lia)

/-! ## A change undone -/

/-- A channel that fails keeps the other bits of STATUS and the registers but CTRL and FAULT. -/
theorem State.mcFail_kept (s : State) (m : Mc) : (s.mcFail m).reg (Reg.mcStatus m) = withBit (s.reg (Reg.mcStatus m)) 6 true ∧
    (s.mcFail m).reg (Reg.mcFreqStat m) = s.reg (Reg.mcFreqStat m) := by
  let u := if (s.mc m).queue.any McReq.rd then { s with dramOut := (0, true) } else s
  have regs (a : Nat) : u.reg a = s.reg a := by dsimp only [u]; split <;> rfl
  let v := (((u.setMc m { u.mc m with queue := [] }).setRbit (Reg.mcStatus m) 6 true).setRbit (Reg.mcCtrl m) 0 false)
  have run : s.mcFail m = v.fault (Reg.mcFault m) (2 ^ 5) := rfl
  rw [run]
  refine ⟨?_, ?_⟩
  · rw [State.reg_fault_ne v _ (by lia) (by lia), State.reg_setRbit_ne _ _ _ (by lia), State.setRbit, State.reg_setReg_same]
    exact congrArg (withBit · 6 true) (regs _)
  · rw [State.reg_fault_ne v _ (by lia) (by lia), State.reg_setRbit_ne _ _ _ (by lia), State.reg_setRbit_ne _ _ _ (by lia)]
    exact regs _

/-- A change that is over shows its result (R293, R294). -/
theorem State.freqOver_spec (s : State) (m : Mc) (code : Nat) :
    (s.freqOver m code).reg (Reg.mcStatus m) = withBit (s.reg (Reg.mcStatus m)) 3 false ∧
      (s.freqOver m code).fld (Reg.mcFreqStat m) 1 0 = code % 4 := by
  let u := (s.setRbit (Reg.mcStatus m) 3 false).setFld (Reg.mcFreqStat m) 1 0 code
  have regs (a : Nat) : (s.freqOver m code).reg a = u.reg a := rfl
  rw [regs, State.fld_of_reg (regs _)]
  refine ⟨?_, State.fld_setFld_same _ _ _ _ (by decide)⟩
  exact (State.reg_setFld_ne _ _ _ _ (by lia)).trans (State.reg_setReg_same _ _ _)

/-- What a change that is undone reports, the channel failing where RG fails too (R294). -/
theorem State.freqReturn_spec (s : State) (m : Mc) (late : Option TsetWrite) (ok : Bool) (r : TrainResult) (failed : r.fail ≠ none)
    (low : (s.mc m).target ≤ 1) :
    (s.freqReturn m late ok r).rbit (Reg.mcStatus m) 3 = false ∧ (s.freqReturn m late ok r).fld (Reg.mcFreqStat m) 1 0 = 2 ∧
      (s.freqReturn m late ok r).fld (Reg.mcStatus m) 5 5 = 1 - (s.mc m).target ∧
      (ok = false → (s.freqReturn m late ok r).rbit (Reg.mcStatus m) 6 = true ∧ (s.freqReturn m late ok r).rbit (Reg.mcCtrl m) 0 = false) := by
  let t₁ := s.trainEnd m r
  let t₂ := forEach (List.range (t₁.fld (Reg.mcGeom m) 1 0)) (fun k t => t.precharge m k) t₁
  let t₃ := forEach (List.range (t₂.fld (Reg.mcGeom m) 1 0)) (fun k t => t.rankSre m k) (t₂.tsetHandOver m)
  let t₄ := (t₃.setFld (Reg.mcStatus m) 5 5 (1 - (t₃.mc m).target)).freqOver m 2
  let t₅ := t₄.tsetLate m late
  let t₆ := t₅.setMc m { t₅.mc m with sr := 0 }
  have target : (t₃.mc m).target = (s.mc m).target := by
    obtain ⟨⟨_, e, _⟩, _, _⟩ := State.rankSres m (List.range (t₂.fld (Reg.mcGeom m) 1 0)) (t₂.tsetHandOver m)
    obtain ⟨_, _, f⟩ := (State.rowsOnly_precharges m (List.range (t₁.fld (Reg.mcGeom m) 1 0)) t₁).mc
    dsimp only [t₃]
    rw [e, State.tsetHandOver, State.mc_setMc_same, f, ((s.trainEnds m r).failed failed).1]
  obtain ⟨_, _, kept⟩ := t₄.tsetLate_kept m late
  have status : t₆.reg (Reg.mcStatus m) = t₄.reg (Reg.mcStatus m) := kept _ (by lia) (by lia) (by lia)
  have stat : t₆.reg (Reg.mcFreqStat m) = t₄.reg (Reg.mcFreqStat m) := kept _ (by lia) (by lia) (by lia)
  obtain ⟨word, result⟩ := (t₃.setFld (Reg.mcStatus m) 5 5 (1 - (t₃.mc m).target)).freqOver_spec m 2
  have idle : t₄.rbit (Reg.mcStatus m) 3 = false := by
    rw [State.rbit, word, bitOf_withBit _ _ _ (by decide)]; rfl
  have set : t₄.fld (Reg.mcStatus m) 5 5 = 1 - (s.mc m).target := by
    rw [State.fld, word, field_withBit_out _ _ (by decide) (by decide)]
    refine (State.fld_setFld_same t₃ (Reg.mcStatus m) 5 _ (by decide)).trans ?_
    rw [target]
    omega
  cases ok with
  | true =>
    let l := r.results.filter fun x => decide (x.1 % 8 = 0)
    have run : s.freqReturn m late true r = (t₆.trainStore m 0x03FF0000 l).mcDrain m := rfl
    obtain ⟨_, _, stored⟩ := State.trainStore_eq m 0x03FF0000 l t₆
    have served := State.serves_mcDrain (t₆.trainStore m 0x03FF0000 l) m
    have status' := (served.regs _ (not_serveReg m).1 (by lia)).trans ((stored _ (by lia)).trans status)
    have stat' := (served.regs _ (not_serveReg m).2.1 (by lia)).trans ((stored _ (by lia)).trans stat)
    rw [run, State.rbit_of_reg status', State.fld_of_reg stat', State.fld_of_reg status']
    exact ⟨idle, result, set, fun h => by simp at h⟩
  | false =>
    have run : s.freqReturn m late false r = t₆.mcFail m := rfl
    obtain ⟨status', stat'⟩ := t₆.mcFail_kept m
    obtain ⟨_, fatal, off, _⟩ := t₆.mcFail_spec m
    rw [run]
    refine ⟨?_, ?_, ?_, fun _ => ⟨fatal, off⟩⟩
    · rw [State.rbit, status', bitOf_withBit _ _ _ (by decide), if_neg (by decide), status]; exact idle
    · rw [State.fld_of_reg (stat'.trans stat)]; exact result
    · rw [State.fld, status', field_withBit_out _ _ (by decide) (by decide), status]; exact set

/-! ## Commands whose outcome takes more than one update -/

/-- A rank that enters self-refresh is in it, SR_CNT counts it, and DRAM stands (R295). -/
theorem State.enterSr_spec (s : State) (m : Mc) {rank : Nat} (size : rank < 2) :
    ((s.enterSr m rank).mc m).sr.getLsbD rank = true ∧ (s.enterSr m rank).reg (Reg.mcSrCnt m) = s.reg (Reg.mcSrCnt m) + 1 ∧
      (s.enterSr m rank).dram = s.dram := by
  have only := s.rowsOnly_precharge m rank
  unfold State.enterSr
  refine ⟨?_, ?_, by rw [State.dram_rankSre, State.dram_tsetHandOver, only.dram]⟩
  · rw [State.mc_rankSre]
    exact (getLsbD_withBit _ _ _ size).trans (if_pos rfl)
  · rw [State.reg_rankSre, State.reg_tsetHandOver, only.regs _ (by lia) (by lia)]

/-- A periodic training that may run reports its outcome (R290). -/
theorem periodicTrain_reports : ∀ (s : State) (m : Mc) (r : TrainResult), s.rbit (Reg.mcTrainCtrl m) 8 = true →
    s.fld (Reg.mcGeom m) 1 0 ≠ 0 → s.trainBusy m = false → s.mcFailed m = false → s.mcStill m = false → s.trainFits m r = true →
    (∀ x, r.fail = some x → x.2.1 = 1) → s.boot.running = false →
    ∃ t, exec (.periodicTrain m r) s = .next t ∧ t.reg (Reg.mcTrainStat m) = trainStat r.fail ∧ t.rbit (Reg.mcStatus m) 1 = false ∧
      (r.fail ≠ none → t.rbit (Reg.mcFault m) 6 = true) := by
  intro s m r on present free good calm fits rg quiet
  have may : s.periodicMay m r = true := by
    unfold State.periodicMay
    cases outcome : r.fail with
    | none => simp [on, present, free, good, calm, fits]
    | some x => obtain ⟨rank, k, lanes⟩ := x; simpa [on, present, free, good, calm, fits] using rg _ outcome
  have run : exec (.periodicTrain m r) s = .next (s.periodicEnd m r) := by
    change execPeriodicTrain m r s = _
    rw [execPeriodicTrain, if_pos may, State.trainFailed, if_neg (by simp [quiet])]
  have idle : s.rbit (Reg.mcStatus m) 1 = false := by
    simp only [State.trainBusy, Bool.or_eq_false_iff] at free
    exact free.1
  refine ⟨_, run, ?_⟩
  unfold State.periodicEnd
  cases outcome : r.fail with
  | none =>
    obtain ⟨_, _, kept⟩ := State.trainStore_eq m 0x03FF0000 (r.results.filter fun x => decide (x.1 % 8 = 0))
      (s.setReg (Reg.mcTrainStat m) (trainStat none))
    refine ⟨(kept _ (by lia)).trans (State.reg_setReg_same _ _ _), ?_, fun h => absurd rfl h⟩
    exact (State.rbit_of_reg ((kept _ (by lia)).trans (State.reg_setReg_ne _ _ (by lia))) 1).trans idle
  | some f =>
    refine ⟨(State.reg_fault_ne _ _ (by lia) (by lia)).trans (State.reg_setReg_same _ _ _), ?_,
      fun _ => State.rbit_fault_set _ (by lia) (by decide) (by decide)⟩
    exact (State.rbit_of_reg ((State.reg_fault_ne _ _ (by lia) (by lia)).trans (State.reg_setReg_ne _ _ (by lia))) 1).trans idle

/-- The SRE of a change takes the shadow sets as they stand, whatever write meets its cycle (R291, R293). -/
theorem freqChangeSre_handsOver : ∀ (s : State) (e : McEdge), (s.mc e.mc).changing = true → (s.mc e.mc).inSre = false →
    s.mcStill e.mc = false →
    ∃ t, exec (.freqChangeSre e) s = .next t ∧ (t.mc e.mc).inSre = true ∧ t.rbit (Reg.mcStatus e.mc) 3 = true ∧ t.dram = s.dram ∧
      (∀ k : Fin 2, k.val < s.fld (Reg.mcGeom e.mc) 1 0 → (t.mc e.mc).sr.getLsbD k = true) ∧
      ∀ (n : Fin 2) (r : Fin 7), (t.mc e.mc).work.getD (7 * n + r) 0 = s.reg (Reg.mcTsetRate e.mc n + 4 * r) := by
  intro s e changing awake calm
  let u := (s.tsetHandOver e.mc).setRbit (Reg.mcStatus e.mc) 3 true
  let v := forEach (List.range (u.fld (Reg.mcGeom e.mc) 1 0)) (fun k t => t.rankSre e.mc k) u
  let w := v.setMc e.mc { v.mc e.mc with inSre := true, locked := false, retry := [] }
  have run : exec (.freqChangeSre e) s = .next (w.tsetLate e.mc e.late) := by
    change execFreqChangeSre e s = _
    unfold execFreqChangeSre
    dsimp only
    rw [if_neg (by simp [changing, awake, calm])]
  obtain ⟨⟨x, mc, set⟩, regs, dram⟩ := State.rankSres e.mc (List.range (u.fld (Reg.mcGeom e.mc) 1 0)) u
  obtain ⟨mcs, dram', kept⟩ := w.tsetLate_kept e.mc e.late
  have mcw : (w.tsetLate e.mc e.late).mc e.mc = { v.mc e.mc with inSre := true, locked := false, retry := [] } := by
    rw [State.mc, mcs]
    exact State.mc_setMc_same _ _ _
  have ranks : u.fld (Reg.mcGeom e.mc) 1 0 = s.fld (Reg.mcGeom e.mc) 1 0 :=
    State.fld_of_reg (State.reg_setRbit_ne _ _ _ (by lia)) 1 0
  have work : (u.mc e.mc).work = [0, 1].flatMap fun n => (List.range 7).map fun r => s.reg (Reg.mcTsetRate e.mc n + 4 * r) :=
    congrArg McSt.work (State.mc_setMc_same s e.mc _)
  refine ⟨_, run, by rw [mcw], ?_, dram'.trans dram, fun k present => ?_, fun n r => ?_⟩
  · refine (State.rbit_of_reg ((kept _ (by lia) (by lia) (by lia)).trans (regs _ (by lia))) 3).trans ?_
    exact State.rbit_setRbit_same _ _ _ _ (by decide)
  · rw [mcw, mc]
    exact set k k.isLt (.inl (List.mem_range.mpr (ranks ▸ present)))
  · rw [mcw, mc]
    exact (congrArg (·.getD (7 * n + r) 0) work).trans
      (timingSets_getD (fun n r => s.reg (Reg.mcTsetRate e.mc n + 4 * r)) n r)

/-- A rank for which no request waits enters self-refresh, unless a request arrives first (R295, R296). -/
theorem idleSelfRefresh_enters : ∀ (s : State) (e : McEdge) (k : RankRest), s.rbit (Reg.mcSrCfg e.mc) 0 = true →
    k.rank.toNat < s.fld (Reg.mcGeom e.mc) 1 0 → (s.mc e.mc).sr.getLsbD k.rank.toNat = false → s.trainBusy e.mc = false →
    s.mcStill e.mc = false → (s.mc e.mc).queue.any (fun r => decide ((s.dramRow e.mc r.a).1 = k.rank.toNat)) = false →
    ∃ t, exec (.idleSelfRefresh e k) s = .next t ∧ t.dram = s.dram ∧ (t.mc e.mc).sr.getLsbD k.rank.toNat = !k.arrived ∧
      t.reg (Reg.mcSrCnt e.mc) = s.reg (Reg.mcSrCnt e.mc) + (if k.arrived then 0 else 1) := by
  intro s e k on present awake free calm none
  have size : k.rank.toNat < 2 := by cases k.rank <;> decide
  have run : exec (.idleSelfRefresh e k) s = .next (if k.arrived then s.precharge e.mc k.rank.toNat else
      (s.enterSr e.mc k.rank.toNat).tsetLate e.mc e.late) := by
    change execIdleSelfRefresh e k s = _
    unfold execIdleSelfRefresh
    dsimp only
    rw [b2n_eq_toNat, if_pos (by simpa [bitOf] using ⟨on, present, awake, free, calm, by simpa using none⟩)]
  have only := s.rowsOnly_precharge e.mc k.rank.toNat
  obtain ⟨_, _, mc⟩ := only.mc
  have count : (s.precharge e.mc k.rank.toNat).reg (Reg.mcSrCnt e.mc) = s.reg (Reg.mcSrCnt e.mc) := only.regs _ (by lia) (by lia)
  refine ⟨_, run, ?_⟩
  cases k.arrived with
  | true =>
    rw [if_pos rfl, if_pos rfl, mc]
    exact ⟨only.dram, awake, count.trans (BitVec.add_zero _).symm⟩
  | false =>
    obtain ⟨entered, counted, served⟩ := s.enterSr_spec e.mc size
    obtain ⟨mcs, dram, kept⟩ := (s.enterSr e.mc k.rank.toNat).tsetLate_kept e.mc e.late
    rw [if_neg (by decide), if_neg (by decide), kept _ (by lia) (by lia) (by lia), State.mc, mcs]
    exact ⟨dram.trans served, entered, counted⟩

/-! ## The obligation -/

/-- Settles O40, by what the end of a training run, the start of a change, SRE and the service of queued requests leave of STATUS and of
the controller. -/
theorem trainingAndFrequencyChange : Obligations.TrainingAndFrequencyChange := by
  refine ⟨?go, ?goBusy, ?done, ?doneBoot, ?periodic, ?periodicBoot, ?wants, ?starts, ?behind, ?range, ?busy, ?sre, ?relock, ?passed,
    ?undone, ?rests, ?exits, ?stays⟩
  case go =>
    intro s q m up free
    have run : exec (.trainGo q m) s =
        .next ((s.trainStart m).setMc m { (s.trainStart m).mc m with byGo := true }) := by
      change execTrainGo q m s = _
      rw [execTrainGo, if_neg (by simp [up]), State.trainGo, if_neg (by simp [free])]
    have mc : (s.trainStart m).mc m = { s.mc m with sr := 0, byGo := false } := State.mc_setMc_same s m _
    refine ⟨_, run, ?_, State.rbit_setRbit_same _ _ _ _ (by decide), rfl, fun k ne => State.rbit_setRbit_ne _ _ _ (by decide) ne⟩
    rw [State.mc_setMc_same, mc]
  case goBusy =>
    intro s q m up busy
    change execTrainGo q m s = _
    rw [execTrainGo, if_neg (by simp [up]), State.trainGo, if_pos (by simpa [State.trainBusy] using busy)]
  case done =>
    intro s m r training steady fits quiet
    refine ⟨s.trainOver m r, ?_, s.trainOver_spec m r⟩
    change execTrainingDone m r s = _
    rw [execTrainingDone, if_neg (by simp [training, steady, fits])]
    simp [quiet]
  case doneBoot =>
    intro s m r training steady fits boots runs failed
    change execTrainingDone m r s = _
    rw [execTrainingDone, if_neg (by simp [training, steady, fits])]
    simp [boots, runs, Option.isSome_iff_ne_none.mpr failed]
  case periodic => exact periodicTrain_reports
  case periodicBoot =>
    intro s m r may boots runs failed
    change execPeriodicTrain m r s = _
    rw [execPeriodicTrain, if_pos may, State.trainFailed, if_pos (by simp [boots, runs, Option.isSome_iff_ne_none.mpr failed])]
  case wants =>
    intro s q m up free idle other still
    have run : exec (.freqGo q m) s = .next (s.freqStart m (s.fld (Reg.mcFreqCtrl m) 4 4)) := by
      change execFreqGo q m s = _
      rw [execFreqGo, if_neg (by simp [up]), State.freqGo, if_neg (by simp [free]), if_neg other, if_neg (by simp [idle])]
    have start : ((s.freqStart m (s.fld (Reg.mcFreqCtrl m) 4 4)).mc m) =
        { s.mc m with target := s.fld (Reg.mcFreqCtrl m) 4 4, wants := true } := by
      rw [State.freqStart, if_pos still]
      exact State.mc_setMc_same s m _
    exact ⟨_, run, by rw [start], by rw [start], by rw [start]⟩
  case starts =>
    intro s q m up free idle other calm
    have run : exec (.freqGo q m) s = .next (s.freqStart m (s.fld (Reg.mcFreqCtrl m) 4 4)) := by
      change execFreqGo q m s = _
      rw [execFreqGo, if_neg (by simp [up]), State.freqGo, if_neg (by simp [free]), if_neg other, if_neg (by simp [idle])]
    refine ⟨_, run, ?_, ?_⟩
    · rw [State.freqStart, if_neg (by simp [calm]), State.mc_setMc_same]
    · rw [State.freqStart, if_neg (by simp [calm]), State.mc_setMc_same]
  case behind =>
    intro s q m up free training other
    change execFreqGo q m s = _
    rw [execFreqGo, if_neg (by simp [up]), State.freqGo, if_neg (by simp [free]), if_neg other, if_pos training]
  case range =>
    intro s q m up free same
    change execFreqGo q m s = _
    rw [execFreqGo, if_neg (by simp [up]), State.freqGo, if_neg (by simp [free]), if_pos same]
  case busy =>
    intro s q m up busy
    change execFreqGo q m s = _
    rw [execFreqGo, if_neg (by simp [up]), State.freqGo, if_pos (by simpa [State.freqBusy] using busy)]
  case sre => exact freqChangeSre_handsOver
  case relock =>
    intro s m inSre unlocked
    let u := (s.setMc m { s.mc m with locked := true }).setFld (Reg.mcStatus m) 5 5 ((s.setMc m { s.mc m with locked := true }).mc m).target
    have run : exec (.memPllRelock m) s = .next (u.trainStart m) := by
      change execMemPllRelock m s = _
      rw [execMemPllRelock, if_neg (by simp [inSre, unlocked])]
    have mc : u.mc m = { s.mc m with locked := true } := State.mc_setMc_same s m _
    have mc' : (u.trainStart m).mc m = { u.mc m with sr := 0, byGo := false } := State.mc_setMc_same u m _
    refine ⟨_, run, ?_, State.rbit_setRbit_same _ _ _ _ (by decide), by rw [mc', mc], by rw [mc']⟩
    rw [State.trainStart, State.fld_setRbit_out _ _ _ (by decide) (by decide)]
    change u.fld (Reg.mcStatus m) 5 5 = _
    rw [State.fld_setFld_same _ _ _ _ (by decide), State.mc_setMc_same]
    rfl
  case passed =>
    intro s m r locked passed
    have run : exec (.freqChangeDone m r) s = .next (((s.trainEnd m r).freqOver m 1).mcDrain m) := by
      change execFreqChangeDone m r s = _
      rw [execFreqChangeDone, if_neg (by simp [locked, passed])]
    have served := State.serves_mcDrain ((s.trainEnd m r).freqOver m 1) m
    have status := served.regs _ (not_serveReg m).1 (by lia)
    have stat := served.regs _ (not_serveReg m).2.1 (by lia)
    obtain ⟨word, result⟩ := (s.trainEnd m r).freqOver_spec m 1
    rw [(s.trainEnds m r).status] at word
    refine ⟨_, run, ?_, ?_, ?_⟩
    · rw [State.rbit_of_reg status, State.rbit, word, bitOf_withBit _ _ _ (by decide)]; rfl
    · rw [State.fld_of_reg stat]; exact result
    · rw [State.fld_of_reg status, State.fld, word, field_withBit_out _ _ (by decide) (by decide),
        field_withBit_out _ _ (by decide) (by decide)]; rfl
  case undone =>
    intro s e ok r locked failed fits low quiet
    refine ⟨_, ?_, s.freqReturn_spec e.mc e.late ok r failed low⟩
    change execFreqChangeReturn e ok r s = _
    rw [execFreqChangeReturn, if_neg (by simp [locked, failed, fits]), State.trainFailed, if_neg (by simp [quiet])]
  case rests => exact idleSelfRefresh_enters
  case exits =>
    intro s m rank steady asked
    have size (b : Bool) : b.toNat < 2 := by cases b <;> decide
    let u := s.setMc m { s.mc m with sr := withBit (s.mc m).sr rank.toNat false }
    have run : exec (.selfRefreshExit m rank) s = .next (u.mcDrain m) := by
      change execSelfRefreshExit m rank s = _
      unfold execSelfRefreshExit
      dsimp only
      rw [b2n_eq_toNat, asked, if_pos (by simp [steady])]
    obtain ⟨_, _, _, _, mc⟩ := (u.serves_mcDrain m).mc
    have left : ((u.mcDrain m).mc m).sr = withBit (s.mc m).sr rank.toNat false := by
      rw [mc]; exact congrArg McSt.sr (State.mc_setMc_same s m _)
    refine ⟨_, run, ?_, ?_⟩
    · rw [left, getLsbD_withBit _ _ _ (size rank), if_pos rfl]
    · rw [left, getLsbD_withBit _ _ _ (size rank), if_neg (by cases rank <;> decide)]
  case stays =>
    intro s m rank empty
    change execSelfRefreshExit m rank s = _
    unfold execSelfRefreshExit
    dsimp only
    rw [empty]
    rfl

end Sys2Proof.Machine
end

section
/-!
PROOFS. The configuration space while reset is held (R322, R429).
-/
namespace Sys2Proof.Machine

/-- A device held in reset, nothing else having happened to it. -/
def State.heldInReset : State := { boot := { held := true } }

/-- While reset is held a write of the configuration space changes nothing (R429). -/
theorem exec_configurationSpaceWrite_of_held {s : State} (held : s.boot.held = true) (bme en fm : Bool) :
    exec (.configurationSpaceWrite bme en fm) s = .next s := if_pos held

/-- Refutes O44: while reset is held (R429) a write of the configuration space that asks for MSI-X leaves MSI-X disabled. -/
theorem not_hostWindowExportsAndAttention : ¬ Obligations.HostWindowExportsAndAttention := by
  rintro ⟨_, _, _, _, _, _, _, _, _, configuration, _⟩
  obtain ⟨t, run, _, on, _⟩ := configuration State.heldInReset true false
  have held : exec (.configurationSpaceWrite false true false) State.heldInReset = .next State.heldInReset :=
    exec_configurationSpaceWrite_of_held rfl false true false
  obtain rfl : State.heldInReset = t := Host.Outcome.next.inj (held.symm.trans run)
  exact absurd on (by decide)

end Sys2Proof.Machine
end

section
/-!
PROOFS. What a read of DRAM leaves of the registers outside the controllers.
-/
namespace Sys2Proof.Machine

/-- Registers below the attention unit, those of the controllers excepted by their place, are as in s. -/
def State.LowRegs (s t : State) : Prop := ∀ a, a < 0xD0000 → t.reg a = s.reg a

theorem State.lowRegs_closed (s : State) (m : Nat) : ServeClosed m (State.LowRegs s) where
  push _ _ _ h := h
  bank _ _ _ h := h
  seed t v h a low := (t.reg_setReg_ne v (by lia)).trans (h a low)
  refreshed t h a low := (t.reg_count_ne 1 (by lia)).trans (h a low)
  queue _ _ _ h := h
  written _ _ _ h := h
  delivered _ _ h := h
  logged _ _ h := h
  counted t b mem h a low := by
    simp only [List.mem_cons, List.not_mem_nil, or_false] at mem
    exact (t.reg_count_ne 1 (by lia)).trans (h a low)
  fault t k h a low := (t.reg_fault_ne k (.inl low) (by lia)).trans (h a low)

section
variable {P : State → Prop} (c : ∀ m, ServeClosed m P) {s : State}
include c

/-- A read of DRAM keeps what the service of either channel keeps. -/
theorem ServeClosed.dramRead (h : P s) (a : Nat) : P (s.dramRead a).2 := by
  unfold State.dramRead
  dsimp only
  split
  · exact (c 0).fault _ _ h
  · split
    · exact h
    · split
      · exact h
      · exact (c _).mcRequest h _

theorem ServeClosed.dramReadMany (n a : Nat) (h : P s) : P (State.dramReadMany n a s).2 := by
  induction n generalizing a s with
  | zero => exact h
  | succ n ih => exact ih _ (ServeClosed.dramRead c h a)

end

theorem State.lowRegs_dramReadMany (n a : Nat) (s : State) : State.LowRegs s (State.dramReadMany n a s).2 :=
  ServeClosed.dramReadMany (P := State.LowRegs s) (State.lowRegs_closed s) n a fun _ _ => rfl

theorem length_dramReadMany (n a : Nat) (s : State) : (State.dramReadMany n a s).1.length = n := by
  induction n generalizing a s with
  | zero => rfl
  | succ n ih => exact congrArg (· + 1) (ih (a + 1) (s.dramRead a).2)

end Sys2Proof.Machine
end

section
/-!
PROOFS. Lamp-field ports: frames of a chain and of the bus, the status of outputs, the planes of a matrix and blanking (R330 to R347).
-/
namespace Sys2Proof.Machine

/-! ## Rules of the ports' operations -/

section
variable (s : State)

@[simp] theorem State.lamp_setRbit (a i p : Nat) (v : Bool) : (s.setRbit a i v).lamp p = s.lamp p := rfl
@[simp] theorem State.lamp_count (a n p : Nat) : (s.count a n).lamp p = s.lamp p := rfl
@[simp] theorem State.lamp_emit (o : Out) (p : Nat) : (s.emit o).lamp p = s.lamp p := rfl

@[simp] theorem State.lamp_fault (a m p : Nat) : (s.fault a m).lamp p = s.lamp p :=
  (s.fault_raiseOnly a m).keeps (State.lamp · p) fun _ _ _ _ _ _ => rfl

@[simp] theorem State.lamp_event (v p : Nat) : (s.event v).lamp p = s.lamp p :=
  (s.event_raiseOnly v).keeps (State.lamp · p) fun _ _ _ _ _ _ => rfl

@[simp] theorem State.lampOuts_fault (a m : Nat) : (s.fault a m).lampOuts = s.lampOuts :=
  (s.fault_raiseOnly a m).keeps State.lampOuts fun _ _ _ _ _ _ => rfl

@[simp] theorem State.lampOuts_event (v : Nat) : (s.event v).lampOuts = s.lampOuts :=
  (s.event_raiseOnly v).keeps State.lampOuts fun _ _ _ _ _ _ => rfl

@[simp] theorem State.lampOuts_count (a n : Nat) : (s.count a n).lampOuts = s.lampOuts := rfl

end

/-- What a frame end does beside the frame's own record (R337, R347). -/
theorem State.frameDone_spec (s : State) (p : Nat) (diag : Bool) : (s.frameDone p diag).lamp p = s.lamp p ∧
    (s.frameDone p diag).lampOuts = s.lampOuts ∧
    (p < 4 → (s.frameDone p diag).reg (Reg.lampFrameCnt p) = s.reg (Reg.lampFrameCnt p) + 1) := by
  let u := (s.count (Reg.lampFrameCnt p) 1).setRbit Reg.lampFrameStat p true
  let v := if diag then u.setRbit Reg.lampFrameStat (4 + p) true else u
  have run : s.frameDone p diag = if v.rbit (Reg.lampCtrl p) 2 then v.event 230 else v := rfl
  have lamp : v.lamp p = s.lamp p := by dsimp only [v]; split <;> rfl
  have outs : v.lampOuts = s.lampOuts := by dsimp only [v]; split <;> rfl
  have reg : v.reg (Reg.lampFrameCnt p) = s.reg (Reg.lampFrameCnt p) + 1 := by
    have counted : u.reg (Reg.lampFrameCnt p) = s.reg (Reg.lampFrameCnt p) + 1 :=
      (State.reg_setRbit_ne _ _ _ (by lia)).trans (State.count_reg _ _ _)
    dsimp only [v]
    split
    · exact (State.reg_setRbit_ne _ _ _ (by lia)).trans counted
    · exact counted
  rw [run]
  split
  · exact ⟨(v.lamp_event 230 p).trans lamp, (v.lampOuts_event 230).trans outs,
      fun small => (State.reg_event_of_out v (by lia) (by decide)).trans reg⟩
  · exact ⟨lamp, outs, fun _ => reg⟩

/-! ## The status of outputs (R343) -/

/-- What an accepted status slot touches: the output's status, and what it counts and raises. -/
theorem State.outUpdate_spec (s : State) (p o : Nat) (slot : BitVec 16) (elig : Bool) :
    (s.outUpdate p o slot elig).lampOuts = s.lampOuts.set 0 (outKey p o) (outStep slot elig (s.lampOuts.get 0 (outKey p o))) ∧
      (s.outUpdate p o slot elig).lamps = s.lamps ∧
      ∀ a, a < 0xD0000 → a ≠ Reg.lampOpenCnt p → a ≠ Reg.lampFault → (s.outUpdate p o slot elig).reg a = s.reg a := by
  let w := outStep slot elig (s.lampOuts.get 0 (outKey p o))
  let entry (t : State) : Prop := t.lampOuts = s.lampOuts.set 0 (outKey p o) w ∧ t.lamps = s.lamps ∧
    ∀ a, a < 0xD0000 → a ≠ Reg.lampOpenCnt p → a ≠ Reg.lampFault → t.reg a = s.reg a
  have raised (t : State) (m : Nat) (h : entry t) : entry (t.fault Reg.lampFault m) := by
    obtain ⟨outs, lamps, regs⟩ := h
    exact ⟨(t.lampOuts_fault _ m).trans outs, ((t.fault_raiseOnly _ m).keeps State.lamps fun _ _ _ _ _ _ => rfl).trans lamps,
      fun a low cnt ne => (t.reg_fault_ne m (.inl low) ne).trans (regs a low cnt ne)⟩
  have counted (t : State) (m : Nat) (h : entry t) : entry ((t.count (Reg.lampOpenCnt p) 1).fault Reg.lampFault m) := by
    obtain ⟨outs, lamps, regs⟩ := h
    exact raised _ m ⟨outs, lamps, fun a low cnt ne => (t.reg_count_ne 1 cnt).trans (regs a low cnt ne)⟩
  have stored : entry { s with lampOuts := s.lampOuts.set 0 (outKey p o) w } := ⟨rfl, rfl, fun _ _ _ _ => rfl⟩
  have guarded {c : Prop} {d : Decidable c} {t u : State} (h : entry t) (k : entry u) : entry (if c then t else u) := by
    split
    · exact h
    · exact k
  let entered (k : Nat) : Bool :=
    decide (field w 17 16 = k) && decide (field (s.lampOuts.get 0 (outKey p o)) 17 16 ≠ k)
  let a : State := { s with lampOuts := s.lampOuts.set 0 (outKey p o) w }
  let b := if entered 2 then (a.count (Reg.lampOpenCnt p) 1).fault Reg.lampFault (2 ^ (12 + p)) else a
  let c := if entered 3 then (b.count (Reg.lampOpenCnt p) 1).fault Reg.lampFault (2 ^ (8 + p)) else b
  have first : entry b := guarded (counted _ _ stored) stored
  have second : entry c := guarded (counted _ _ first) first
  exact guarded (t := c.fault Reg.lampFault (2 ^ (4 + p))) (u := c) (raised _ _ second) second

theorem outKey_inj {p o k : Nat} : outKey p o = outKey p k ↔ o = k := by simp [outKey]

/-- A run of status slots from output o on gives each its slot and leaves the others. -/
theorem State.outUpdates_spec (p : Nat) (elig : Array Bool) (l : List (BitVec 16)) (o : Nat) (s : State) :
    (State.outUpdates p elig l o s).lamps = s.lamps ∧
      (∀ a, a < 0xD0000 → a ≠ Reg.lampOpenCnt p → a ≠ Reg.lampFault → (State.outUpdates p elig l o s).reg a = s.reg a) ∧
      (∀ k, k < o ∨ o + l.length ≤ k → (State.outUpdates p elig l o s).lampOuts.get 0 (outKey p k) = s.lampOuts.get 0 (outKey p k)) ∧
      ∀ k (here : k < l.length), (State.outUpdates p elig l o s).lampOuts.get 0 (outKey p (o + k)) =
        outStep l[k] (elig.getD (o + k) false) (s.lampOuts.get 0 (outKey p (o + k))) := by
  induction l generalizing o s with
  | nil => exact ⟨rfl, fun _ _ _ _ => rfl, fun _ _ => rfl, fun k here => absurd here (by simp)⟩
  | cons x l ih =>
    obtain ⟨lamps, regs, others, slots⟩ := ih (o + 1) (s.outUpdate p o x (elig.getD o false))
    obtain ⟨outs, lamps', regs'⟩ := s.outUpdate_spec p o x (elig.getD o false)
    have ne (k : Nat) (h : k ≠ o) : (s.outUpdate p o x (elig.getD o false)).lampOuts.get 0 (outKey p k) = s.lampOuts.get 0 (outKey p k) := by
      rw [outs]; exact Store.get_set_ne _ _ _ _ (fun same => h (outKey_inj.mp same))
    refine ⟨lamps.trans lamps', fun a low cnt f => (regs a low cnt f).trans (regs' a low cnt f), fun k out => ?_, fun k here => ?_⟩
    · rw [List.length_cons] at out
      exact (others k (by omega)).trans (ne k (by omega))
    · cases k with
      | zero =>
        refine (others o (by omega)).trans ?_
        rw [outs]
        exact Store.get_set_same _ _ _ _
      | succ k =>
        have at' := slots k (by simpa using here)
        rw [show o + (k + 1) = o + 1 + k by omega]
        rw [ne (o + 1 + k) (by omega)] at at'
        exact at'

/-! ## The snapshot -/

theorem State.ServeOnly.lamps {s t : State} (h : s.ServeOnly t) : t.lamps = s.lamps := by
  obtain ⟨w, d, o, b, m, r, v, x, y, n, f, rfl⟩ := h
  rfl

/-- The snapshot of a frame leaves the ports' records and the registers below the attention unit but the poison count (R331). -/
theorem State.lampSnapshot_kept (s : State) (p : Nat) (diag : Bool) : (s.lampSnapshot p diag).2.lamps = s.lamps ∧
    ∀ a, a < 0xD0000 → a ≠ Reg.lampPoisonCnt p → (s.lampSnapshot p diag).2.reg a = s.reg a := by
  let n := 4 * s.lampLen p
  let a := s.fld (Reg.lampValBase p) 27 0 * 256 + 4096 * s.fld (Reg.lampCtrl p) 0 0
  let u := (State.dramReadMany n a s).2
  have lamps : u.lamps = s.lamps :=
    ((State.ServeOnly.refl s).dramReadMany (n := n) (a := a)).lamps
  have regs := State.lowRegs_dramReadMany n a s
  let bad := ((State.dramReadMany n a s).1.filter Prod.snd).length
  have run : (s.lampSnapshot p diag).2 = if bad = 0 then u else u.count (Reg.lampPoisonCnt p) bad := rfl
  rw [run]
  split
  · exact ⟨lamps, fun b low _ => regs b low⟩
  · exact ⟨lamps, fun b low ne => (u.reg_count_ne bad ne).trans (regs b low)⟩

/-- An effective code passes neither ceiling; it is 0 while blanked, and at most the code where the frame is not diagnostic (R331). -/
theorem lampCode_le (c gc per pceil : Nat) (de dark blank diag : Bool) :
    (lampCode c gc per pceil de dark blank diag).1 ≤ min (gc * per / 255) (pceil * per / 127) ∧
      (blank = true → (lampCode c gc per pceil de dark blank diag).1 = 0) ∧
      (diag = false → (lampCode c gc per pceil de dark blank diag).1 ≤ c) := by
  unfold lampCode
  dsimp only
  generalize min (gc * per / 255) (pceil * per / 127) = lim
  cases blank with
  | true => simp
  | false =>
    by_cases lift : (diag && (de && !dark && !false && decide (64 ≤ lim)) && decide (min c lim < 64)) = true
    · rw [if_neg (by decide), if_pos lift]
      simp only [Bool.and_eq_true, decide_eq_true_eq] at lift
      obtain ⟨⟨asked, _, high⟩, _⟩ := lift
      exact ⟨high, by simp, by simp [asked]⟩
    · rw [if_neg (by decide), if_neg lift]
      exact ⟨Nat.min_le_right _ _, by simp, fun _ => Nat.min_le_left _ _⟩

/-! ## Frames of a chain and of the bus -/

/-- A port's record as a frame begins (R331, R336). -/
def State.lampBegins (s : State) (p : Nat) (diag : Bool) : LampSt :=
  let l := s.lampSnapshot p diag
  { l.2.lamp p with
    inFrame := true, codes := l.1.map Prod.fst, elig := l.1.map Prod.snd, diag := diag, snapBlank := s.lampBlank p,
    marker := l.2.lampMarker p, shifted := false, slots := none, request := (l.2.lamp p).request || l.2.rbit (Reg.lampCtrl p) 1 }

/-- LAMP_FRAME_START of a port that may start one. -/
theorem exec_lampFrameStart (s : State) (p : Port4) (on : s.lampOn p = true) (idle : (s.lamp p).inFrame = false)
    (may : s.lampMode p = 0 ∨ s.lampMode p = 1 ∧ s.lampBlank p = false) :
    exec (.lampFrameStart p) s = .next
      (let diag := s.diagDue p && !s.lampBlank p
       let l := s.lampSnapshot p diag
       let t := l.2.setLamp p (s.lampBegins p diag)
       if s.lampMode p = 0 then t.emit (.lampFrame p (t.lampMarker p) (l.1.map Prod.fst).reverse)
       else t.busFrame p (l.1.map Prod.fst) diag) := by
  have go : (!s.lampOn p || (s.lamp p).inFrame || decide (2 ≤ s.lampMode p) || (decide (s.lampMode p = 1) && s.lampBlank p)) = false := by
    rcases may with chain | ⟨bus, clear⟩
    · simp [on, idle, chain]
    · simp [on, idle, bus, clear]
  change execLampFrameStart p s = _
  unfold execLampFrameStart
  dsimp only
  rw [if_neg (by simp [go])]
  rfl

/-- A bus frame's record: the codes shown and the modules to poll (R338, R339). -/
theorem State.busFrame_lamp (s : State) (p : Nat) (codes : List Nat) (diag : Bool) : (s.busFrame p codes diag).lamp p = { s.lamp p with
    past := (s.lamp p).elig :: (s.lamp p).past.take 2, active := if diag then (s.lamp p).active else codes, shown := codes,
    polls := List.range (s.lampLen p) } := by
  let f (m : Nat) (t : State) : State :=
    t.emit (.lampBus p (busMessage 0 m (((codes.drop (16 * m)).take 16).flatMap fun c => leBytes c 2)))
  have sent : (forEach (List.range (s.lampLen p)) f s).lamp p = s.lamp p :=
    forEach_keeps (fun t : State => t.lamp p = s.lamp p) f _ s (fun _ t h => (t.lamp_emit _ p).trans h) rfl
  unfold State.busFrame
  dsimp only
  rw [State.lamp_emit, State.lamp_setRbit, State.lamp_setLamp_same, State.lamp_emit]
  change (let x := (forEach (List.range (s.lampLen p)) f s).lamp p; _) = _
  rw [sent]

/-- Settles O45, by the record of a frame that begins, what a snapshot leaves of it, and what a frame end does. -/
theorem lampFramesOfAChain : Obligations.LampFramesOfAChain := by
  refine ⟨lampCode_le, ?chain, ?bus, ?off, ?behind, ?withheld, ?endNone, ?endSome, ?plain, ?diagnostic, ?nothing, ?busPeriod⟩
  case chain =>
    intro s p on chain idle l
    refine ⟨_, exec_lampFrameStart s p on idle (.inl chain), ?_⟩
    dsimp only
    rw [if_pos chain, State.lamp_emit, State.lamp_setLamp_same]
    exact ⟨rfl, rfl, rfl, rfl, rfl⟩
  case bus =>
    intro s p on bus idle clear
    refine ⟨_, exec_lampFrameStart s p on idle (.inr ⟨bus, clear⟩), ?_⟩
    dsimp only
    rw [if_neg (by rw [bus]; decide), State.busFrame_lamp, State.lamp_setLamp_same, clear, Bool.not_false, Bool.and_true]
    refine ⟨rfl, ?_, rfl⟩
    exact congrArg List.range (State.fld_of_reg ((s.lampSnapshot_kept p (s.diagDue p)).2 _ (by lia) (by lia)) 10 0)
  case off =>
    intro s p off
    change execLampFrameStart p s = _
    unfold execLampFrameStart
    dsimp only
    rw [if_pos (by simp [off])]
  case behind =>
    intro s p slots chain busy waits
    change execLampShiftDone p _ slots s = _
    unfold execLampShiftDone
    dsimp only
    rw [if_neg (by simp [chain, busy, waits]), if_pos rfl]
  case withheld =>
    intro s p m slots chain busy waits other
    let u := (s.setLamp p { s.lamp p with shifted := true, slots := none }).setRbit (Reg.lampStat p) 1 false
    have run : exec (.lampShiftDone p m slots) s = .next ((u.count (Reg.lampChainErrCnt p) 1).fault Reg.lampFault (2 ^ (16 + p.val))) := by
      change execLampShiftDone p m slots s = _
      unfold execLampShiftDone
      dsimp only
      rw [if_neg (by simp [chain, busy, waits]), if_neg other]
    have record : ((u.count (Reg.lampChainErrCnt p) 1).fault Reg.lampFault (2 ^ (16 + p.val))).lamp p =
        { s.lamp p with shifted := true, slots := none } := by
      rw [State.lamp_fault, State.lamp_count, State.lamp_setRbit, State.lamp_setLamp_same]
    refine ⟨_, run, by rw [record], by rw [record], ?_, ?_, State.rbit_fault_set _ (by lia) (by lia) (by simp)⟩
    · rw [State.rbit_of_reg (State.reg_fault_ne _ _ (by lia) (by lia)), State.rbit_of_reg (State.reg_count_ne _ _ (by lia))]
      exact State.rbit_setRbit_same _ _ _ _ (by decide)
    · rw [State.reg_fault_ne _ _ (by lia) (by lia), State.count_reg, State.reg_setRbit_ne _ _ _ (by lia), State.reg_setLamp]
      rfl
  case endNone =>
    intro s p chain busy shifted none
    have run : exec (.lampFrameEnd p) s = .next ((s.setLamp p { s.lamp p with inFrame := false }).frameDone p (s.lamp p).diag) := by
      change execLampFrameEnd p s = _
      unfold execLampFrameEnd
      dsimp only
      rw [if_neg (by simp [busy]), if_neg (by rw [chain]; decide), if_neg (by simp [shifted]), none]
    obtain ⟨record, outs, counted⟩ := (s.setLamp p { s.lamp p with inFrame := false }).frameDone_spec p (s.lamp p).diag
    rw [State.lamp_setLamp_same] at record
    exact ⟨_, run, by rw [record], by rw [record], outs, counted p.isLt⟩
  case endSome =>
    intro s p slots chain busy shifted kept
    let x := s.lamp p
    let u := State.outUpdates p (nth x.past 1 []).toArray slots 0 s
    let v := u.setLamp p { x with inFrame := false, past := x.elig :: x.past.take 2, pend := some (x.codes, x.diag) }
    let w := if x.snapBlank then v else v.setRbit (Reg.lampStat p) 3 (v.lampBlank p)
    have run : exec (.lampFrameEnd p) s = .next ((w.emit (.lampLatch p x.diag)).frameDone p x.diag) := by
      change execLampFrameEnd p s = _
      unfold execLampFrameEnd
      dsimp only
      rw [if_neg (by simp [busy]), if_neg (by rw [chain]; decide), if_neg (by simp [shifted])]
      split
      · next gone => exact absurd (gone.symm.trans kept) (by simp)
      · next l here => obtain rfl := Option.some.inj (here.symm.trans kept); rfl
    obtain ⟨_, regs, _, _⟩ := State.outUpdates_spec p (nth x.past 1 []).toArray slots 0 s
    have stored : w.lamp p = { x with inFrame := false, past := x.elig :: x.past.take 2, pend := some (x.codes, x.diag) } := by
      dsimp only [w]
      split
      · exact State.lamp_setLamp_same _ _ _
      · exact (State.lamp_setRbit _ _ _ _ _).trans (State.lamp_setLamp_same _ _ _)
    have count : w.reg (Reg.lampFrameCnt p) = s.reg (Reg.lampFrameCnt p) := by
      have same : u.reg (Reg.lampFrameCnt p) = s.reg (Reg.lampFrameCnt p) := regs _ (by lia) (by lia) (by lia)
      dsimp only [w]
      split
      · exact (State.reg_setLamp _ _ _ _).trans same
      · exact (State.reg_setRbit_ne _ _ _ (by lia)).trans same
    obtain ⟨record, _, counted⟩ := (w.emit (.lampLatch p x.diag)).frameDone_spec p x.diag
    rw [State.lamp_emit, stored] at record
    exact ⟨_, run, by rw [record], by rw [record], by rw [record], (counted p.isLt).trans (congrArg (· + 1) count)⟩
  case plain =>
    intro s p c on chain pend
    change execPsync p s = _
    unfold execPsync
    rw [if_neg (by simp [on, chain]), if_neg (by rw [chain]; decide)]
    dsimp only
    rw [pend]
  case diagnostic =>
    intro s p c on chain pend
    change execPsync p s = _
    unfold execPsync
    rw [if_neg (by simp [on, chain]), if_neg (by rw [chain]; decide)]
    dsimp only
    rw [pend]
  case nothing =>
    intro s p on chain pend
    change execPsync p s = _
    unfold execPsync
    rw [if_neg (by simp [on, chain]), if_neg (by rw [chain]; decide)]
    dsimp only
    rw [pend]
  case busPeriod =>
    intro s p on bus
    change execPsync p s = _
    unfold execPsync
    rw [if_neg (by simp [on, bus]), if_pos bus]

end Sys2Proof.Machine
end

section
/-!
PROOFS. The broadcast bus's polls, the planes of a matrix, emergency blanking and stale thermistors (R333, R338 to R346).
-/
namespace Sys2Proof.Machine

/-! ## Polls of the bus -/

/-- Polling the next module leaves all but the port's record and what is sent. -/
theorem State.nextPoll_spec (s : State) (p : Nat) : (s.nextPoll p).lamp p = { s.lamp p with polls := (s.lamp p).polls.drop 1 } ∧
    (s.nextPoll p).lampOuts = s.lampOuts ∧ (s.nextPoll p).regs = s.regs := by
  unfold State.nextPoll
  dsimp only
  split
  · exact ⟨State.lamp_setLamp_same _ _ _, rfl, rfl⟩
  · exact ⟨(State.lamp_emit _ _ _).trans (State.lamp_setLamp_same _ _ _), rfl, rfl⟩

theorem State.reg_nextPoll (s : State) (p a : Nat) : (s.nextPoll p).reg a = s.reg a :=
  congrArg (Store.get · (resetOf a) a) (s.nextPoll_spec p).2.2

/-- A reply that failed counts, sets the fault and polls on (R339). -/
theorem State.busFail_spec (s : State) (p : Port4) {m : Nat} {r : List Nat} (polls : (s.lamp p).polls = m :: r) :
    ((s.busFail p).lamp p).polls = r ∧ (s.busFail p).lampOuts = s.lampOuts ∧
      (s.busFail p).reg (Reg.lampBusErrCnt p) = s.reg (Reg.lampBusErrCnt p) + 1 ∧ (s.busFail p).rbit Reg.lampFault (20 + p) = true := by
  let u := (s.count (Reg.lampBusErrCnt p) 1).fault Reg.lampFault (2 ^ (20 + p.val))
  obtain ⟨record, outs, _⟩ := u.nextPoll_spec p
  have run : s.busFail p = u.nextPoll p := rfl
  have same : u.lamp p = s.lamp p := State.lamp_fault _ _ _ _
  rw [run, record, same, polls, outs, u.reg_nextPoll, State.rbit_of_reg (u.reg_nextPoll p _)]
  refine ⟨rfl, State.lampOuts_fault _ _ _, ?_, State.rbit_fault_set _ (by lia) (by lia) (by simp)⟩
  rw [State.reg_fault_ne _ _ (by lia) (by lia), State.count_reg]
  rfl

/-- BUS_REPLY of the module polled, its CRC right or not (R338, R339). -/
theorem exec_busReply (s : State) (p : Port4) {m : Nat} {r : List Nat} (bytes : List Byte) (busy : (s.lamp p).inFrame = true)
    (polls : (s.lamp p).polls = m :: r) :
    exec (.busReply p m bytes) s = .next (
      if bytes.length ≠ 33 ∨ crc8 (bytes.take 32) ≠ bytes.getD 32 0 then s.busFail p
      else (State.outUpdates p (((s.lamp p).past.getD 1 []).toArray)
        ((List.range 16).map fun k => BitVec.ofNat 16 (ofLeBytes ((bytes.drop (2 * k)).take 2))) (16 * m) s).nextPoll p) := by
  change execBusReply p m bytes s = _
  unfold execBusReply
  dsimp only
  rw [if_neg (by simp [busy, polls])]
  split <;> rfl

/-- The age of an output in a fault-free slot counts the eligible frames, up to 65,535 (R343). -/
theorem outStep_age (slot : BitVec 16) (v : BitVec 18) (good : slot.getLsbD 13 = false) (unlit : slot.getLsbD 15 = false) :
    field (outStep slot true v) 15 0 = min (field v 15 0 + 1) 65535 ∧ field (outStep slot false v) 15 0 = field v 15 0 := by
  have age : field v 15 0 < 65536 := field_lt v 15 0
  have low (k x : Nat) (h : x < 65536) : field (BitVec.ofNat 18 (k * 65536 + x)) 15 0 = x := by
    simp only [field, BitVec.toNat_ofNat]
    omega
  unfold outStep
  simp only [good, unlit, Bool.false_eq_true, if_false, if_true]
  exact ⟨low _ _ (by omega), low _ _ age⟩

/-! ## Planes of a matrix -/

/-- The state in which a plane is shown: a scan that does not run takes its snapshot first (R340). -/
def State.planeFrom (s : State) (p : Nat) : State := if (s.lamp p).inFrame then s else s.matrixSnapshot p

/-- Plane b of the row is latched and displayed, of planes lo to hi (R340, R341). -/
def State.planeShown (s : State) (p hi lo b : Nat) : State :=
  let w := nth (s.lamp p).words ((hi - b) * s.lampLen p + (s.lamp p).row) 0
  let lit := 2 ^ (b - lo) * s.fld (Reg.lampMxCfg p) 15 0 * s.portCeil p / 127
  ((s.setLamp p { s.lamp p with shownRow := (s.lamp p).row }).setRbit (Reg.lampStat p) 3 false).emit
    (.matrix p (s.lamp p).row b (w.extractLsb' 0 64) lit)

/-- What follows plane b: the plane below it, the next row, or the end of the frame (R340). -/
def State.planeNext (s : State) (p lo b : Nat) : State :=
  if lo < b then s.setLamp p { s.lamp p with plane := some (b - 1) }
  else if (s.lamp p).row + 1 < s.lampLen p then s.setLamp p { s.lamp p with plane := none, row := (s.lamp p).row + 1 }
  else (s.setLamp p { s.lamp p with plane := none, row := 0, inFrame := false }).frameDone p false

theorem State.lamp_planeShown (s : State) (p hi lo b : Nat) :
    (s.planeShown p hi lo b).lamp p = { s.lamp p with shownRow := (s.lamp p).row } :=
  State.lamp_setLamp_same _ _ _

theorem State.reg_planeShown (s : State) (p hi lo b : Nat) {a : Nat} (ne : a ≠ Reg.lampStat p) :
    (s.planeShown p hi lo b).reg a = s.reg a :=
  State.reg_setRbit_ne _ _ _ ne

/-- MATRIX_PLANE of a port that scans (R340, R341). -/
theorem exec_matrixPlane (s : State) (p : Port4) (on : s.lampOn p = true) (matrix : s.lampMode p = 2) (lit : s.lampBlank p = false) :
    exec (.matrixPlane p) s = .next
      (let hi := s.fld (Reg.lampMxCfg p) 31 28
       let lo := s.fld (Reg.lampMxCfg p) 27 24
       let b := ((s.planeFrom p).lamp p).plane.getD hi
       ((s.planeFrom p).planeShown p hi lo b).planeNext p lo b) := by
  change execMatrixPlane p s = _
  unfold execMatrixPlane State.planeNext
  rw [if_neg (by simp [on, matrix, lit])]
  dsimp only
  rw [apply_ite Host.Outcome.next, apply_ite Host.Outcome.next]
  rfl

/-- A plane of a scan that runs. -/
theorem exec_matrixPlane_of_running (s : State) (p : Port4) {b : Nat} (on : s.lampOn p = true) (matrix : s.lampMode p = 2)
    (lit : s.lampBlank p = false) (runs : (s.lamp p).inFrame = true) (plane : (s.lamp p).plane = some b) :
    exec (.matrixPlane p) s =
      .next ((s.planeShown p (s.fld (Reg.lampMxCfg p) 31 28) (s.fld (Reg.lampMxCfg p) 27 24) b).planeNext p
        (s.fld (Reg.lampMxCfg p) 27 24) b) := by
  have same : s.planeFrom p = s := if_pos runs
  rw [exec_matrixPlane s p on matrix lit]
  dsimp only
  rw [same, plane]
  rfl

/-- A plane shown or followed by another leaves the words of the snapshot. -/
theorem State.words_planeNext (s : State) (p lo b : Nat) : ((s.planeNext p lo b).lamp p).words = (s.lamp p).words := by
  unfold State.planeNext
  split
  · rw [State.lamp_setLamp_same]
  · split
    · rw [State.lamp_setLamp_same]
    · rw [(State.frameDone_spec _ p false).1, State.lamp_setLamp_same]

/-- The snapshot of a matrix frame holds every plane word of the half (R340). -/
theorem State.words_matrixSnapshot (s : State) (p : Nat) : ((s.matrixSnapshot p).lamp p).words.length =
    s.lampLen p * (s.fld (Reg.lampMxCfg p) 31 28 + 1 - s.fld (Reg.lampMxCfg p) 27 24) := by
  unfold State.matrixSnapshot
  dsimp only
  rw [State.lamp_setLamp_same, List.length_map, length_dramReadMany]

/-! ## The obligation -/

/-- Settles O46, by what a poll, a plane and a blanking leave of the port's record and of its registers. -/
theorem lampBusMatrixAndBlanking : Obligations.LampBusMatrixAndBlanking := by
  refine ⟨?reply, ?badReply, ?noReply, fun slot v good unlit => outStep_age slot v good unlit, ?down, ?row, ?last, ?snapshot,
    ?blank, ?clear, ?clearLate, ?clearNone, ?stale, ?fresh⟩
  case reply =>
    intro s p m r bytes busy polls small whole crc
    let slots := (List.range 16).map fun k => BitVec.ofNat 16 (ofLeBytes ((bytes.drop (2 * k)).take 2))
    let u := State.outUpdates p (((s.lamp p).past.getD 1 []).toArray) slots (16 * m) s
    have run : exec (.busReply p m bytes) s = .next (u.nextPoll p) := by
      rw [exec_busReply s p bytes busy polls, if_neg (by simp [whole, crc])]
    obtain ⟨lamps, regs, others, given⟩ := State.outUpdates_spec p (((s.lamp p).past.getD 1 []).toArray) slots (16 * m) s
    obtain ⟨record, outs, _⟩ := u.nextPoll_spec p
    have same : u.lamp p = s.lamp p := by rw [State.lamp, lamps]; rfl
    refine ⟨_, run, ?_, ?_, fun k => ?_, fun o out => ?_⟩
    · rw [record, same, polls]
      rfl
    · rw [u.reg_nextPoll]
      exact regs _ (by lia) (by lia) (by lia)
    · rw [outs, given k (by simp [slots])]
      simp [slots]
    · rw [outs]
      exact others o (by simpa [slots] using out)
  case badReply =>
    intro s p m r bytes busy polls bad
    refine ⟨s.busFail p, ?_, s.busFail_spec p polls⟩
    rw [exec_busReply s p bytes busy polls, if_pos bad]
  case noReply =>
    intro s p m r busy polls
    refine ⟨s.busFail p, ?_, s.busFail_spec p polls⟩
    change execBusReplyTimeout p m s = _
    rw [execBusReplyTimeout, if_pos ⟨busy, by rw [polls]; rfl⟩]
  case down =>
    intro s p b on matrix lit runs plane above
    refine ⟨_, exec_matrixPlane_of_running s p on matrix lit runs plane, ?_⟩
    rw [State.planeNext, if_pos above, State.lamp_setLamp_same, State.lamp_planeShown]
    exact ⟨rfl, rfl⟩
  case row =>
    intro s p b on matrix lit runs plane lowest more
    refine ⟨_, exec_matrixPlane_of_running s p on matrix lit runs plane, ?_⟩
    have len : (s.planeShown p (s.fld (Reg.lampMxCfg p) 31 28) (s.fld (Reg.lampMxCfg p) 27 24) b).lampLen p = s.lampLen p :=
      State.fld_of_reg (State.reg_planeShown s p _ _ b (by lia)) 10 0
    rw [State.planeNext, if_neg (by omega), len, State.lamp_planeShown, if_pos more, State.lamp_setLamp_same]
    exact ⟨rfl, rfl⟩
  case last =>
    intro s p b on matrix lit runs plane lowest ends
    refine ⟨_, exec_matrixPlane_of_running s p on matrix lit runs plane, ?_⟩
    let u := s.planeShown p (s.fld (Reg.lampMxCfg p) 31 28) (s.fld (Reg.lampMxCfg p) 27 24) b
    have len : u.lampLen p = s.lampLen p := State.fld_of_reg (State.reg_planeShown s p _ _ b (by lia)) 10 0
    have last : u.planeNext p (s.fld (Reg.lampMxCfg p) 27 24) b =
        (u.setLamp p { u.lamp p with plane := none, row := 0, inFrame := false }).frameDone p false := by
      rw [State.planeNext, if_neg (by omega), len, State.lamp_planeShown, if_neg (by dsimp only; omega)]
    obtain ⟨record, _, counted⟩ := (u.setLamp p { u.lamp p with plane := none, row := 0, inFrame := false }).frameDone_spec p false
    rw [State.lamp_setLamp_same] at record
    rw [last, record]
    refine ⟨rfl, (counted p.isLt).trans (congrArg (· + 1) ?_)⟩
    exact (State.reg_setLamp _ _ _ _).trans (State.reg_planeShown s p _ _ b (by lia))
  case snapshot =>
    intro s p on matrix lit idle
    have from' : s.planeFrom p = s.matrixSnapshot p := if_neg (by simp [idle])
    refine ⟨_, exec_matrixPlane s p on matrix lit, ?_⟩
    dsimp only
    rw [State.words_planeNext, State.lamp_planeShown, from']
    exact s.words_matrixSnapshot p
  case blank =>
    intro s q p up
    let u := (s.setRbit Reg.lampEmerg p true).setRbit (Reg.lampStat p) 3 true
    let v := u.setLamp p { s.lamp p with inFrame := false, polls := [], row := 0, plane := none }
    have mode : u.lampMode p = s.lampMode p :=
      (State.fld_of_reg (State.reg_setRbit_ne _ _ _ (by lia)) 5 4).trans (State.fld_of_reg (State.reg_setRbit_ne _ _ _ (by lia)) 5 4)
    have run : exec (.emergBlankSet q p) s = .next
        (if u.lampMode p = 0 then u else if v.lampMode p = 1 && (s.lamp p).inFrame then v.emit (.lampCut p) else v) := by
      change execEmergBlankSet q p s = _
      rw [execEmergBlankSet, if_neg (by simp [up])]
      rfl
    have blank : u.lampBlank p = true :=
      (State.rbit_of_reg (State.reg_setRbit_ne _ _ _ (by lia)) p).trans (State.rbit_setRbit_same _ _ _ _ (by lia))
    have shown : u.rbit (Reg.lampStat p) 3 = true := State.rbit_setRbit_same _ _ _ _ (by decide)
    have record : v.lamp p = { s.lamp p with inFrame := false, polls := [], row := 0, plane := none } := State.lamp_setLamp_same _ _ _
    rw [mode] at run
    by_cases chain : s.lampMode p = 0
    · rw [if_pos chain] at run
      exact ⟨u, run, blank, shown, fun other => absurd chain other, fun _ => rfl⟩
    · rw [if_neg chain] at run
      refine ⟨_, run, ?_⟩
      split
      · exact ⟨blank, shown, fun _ => by rw [State.lamp_emit, record]; exact ⟨rfl, rfl⟩, fun h => absurd h chain⟩
      · exact ⟨blank, shown, fun _ => by rw [record]; exact ⟨rfl, rfl⟩, fun h => absurd h chain⟩
  case clear =>
    intro s q p up set idle
    change execEmergBlankClear q p s = _
    rw [execEmergBlankClear, if_neg (by simp [up]), State.emergClear, if_neg (by simp [set])]
    dsimp only
    rw [State.lamp_setRbit, if_neg (by simp [idle])]
  case clearLate =>
    intro s q p up set busy
    change execEmergBlankClear q p s = _
    rw [execEmergBlankClear, if_neg (by simp [up]), State.emergClear, if_neg (by simp [set])]
    dsimp only
    rw [State.lamp_setRbit, if_pos busy]
  case clearNone =>
    intro s q p clear
    change execEmergBlankClear q p s = _
    have same : s.emergClear p = s := if_pos (by simp [clear])
    rw [execEmergBlankClear, same, ite_self]
  case stale =>
    intro s k valid held
    let u := s.setRbit (Reg.lampThTemp k) 17 true
    have run : exec (.thStaleExpire k) s = .next (u.fault Reg.lampFault 8) := by
      change execThStaleExpire k s = _
      rw [execThStaleExpire, State.thStale, if_pos (by simp [valid, held])]
    have marked : (u.fault Reg.lampFault 8).rbit (Reg.lampThTemp k) 17 = true :=
      (State.rbit_of_reg (State.reg_fault_ne u 8 (by lia) (by lia)) 17).trans (State.rbit_setRbit_same _ _ _ _ (by decide))
    refine ⟨_, run, marked, State.rbit_fault_set u (by lia) (by decide) (by decide), ?_⟩
    unfold State.thCeil
    dsimp only
    rw [if_pos (by simp [marked]), State.fld_of_reg (State.reg_fault_ne u 8 (by lia) (by lia)),
      State.fld_of_reg (State.reg_setRbit_ne _ _ _ (by lia))]
  case fresh =>
    intro s k fresh
    change execThStaleExpire k s = _
    rw [execThStaleExpire, State.thStale, if_neg (by rcases fresh with h | h <;> simp [h])]

end Sys2Proof.Machine
end

section
/-!
PROOFS. The housekeeping converter and the loop outputs (R364 to R371).
-/
namespace Sys2Proof.Machine

/-! ## A write of DRAM -/

/-- A write of DRAM keeps what the service of either channel keeps. -/
theorem ServeClosed.dramWrite {P : State → Prop} (c : ∀ m, ServeClosed m P) {s : State} (h : P s) (a : Nat) (v : W72) (poison : Bool) :
    P (s.dramWrite a v poison) := by
  unfold State.dramWrite
  dsimp only
  split
  · exact (c 0).fault _ _ h
  · split
    · exact h
    · refine (c _).mcRequest ?_ _
      split
      · exact h
      · exact (c _).queue _ _ _ h

theorem State.lowRegs_dramWrite (s : State) (a : Nat) (v : W72) (poison : Bool) : State.LowRegs s (s.dramWrite a v poison) :=
  ServeClosed.dramWrite (State.lowRegs_closed s) (fun _ _ => rfl) a v poison

/-- A word of a ring lies in DRAM: of the registers below the attention unit only the write pointer changes (R361). -/
theorem State.reg_ringWord (s : State) (base len wp : Nat) (w : W72) {a : Nat} (low : a < 0xD0000) (ne : a ≠ wp) :
    (s.ringWord base len wp w).reg a = s.reg a := by
  unfold State.ringWord
  dsimp only
  exact (State.reg_count_ne _ 1 ne).trans (s.lowRegs_dramWrite _ w false a low)

/-! ## The next conversion -/

/-- What choosing and showing the next conversion leaves: what the sequences are at, and the registers but two statuses. -/
structure State.HadcGoes (s t : State) : Prop where
  hadc : ∃ c, t.hadc = { s.hadc with conv := c }
  regs : ∀ a, a ≠ Reg.hkStatus → a ≠ Reg.calStatus → t.reg a = s.reg a
  settled : t.rbit Reg.hkStatus 0 = s.rbit Reg.hkStatus 0

theorem State.hadcGoes_show (s : State) : State.HadcGoes s s.hadcShow := by
  refine ⟨⟨_, rfl⟩, fun a ne ne' => ?_, ?_⟩
  · exact (State.reg_setRbit_ne _ _ _ ne').trans (State.reg_setFld_ne _ _ _ _ ne)
  · exact (State.rbit_of_reg (State.reg_setRbit_ne _ _ _ (by lia)) 0).trans (State.rbit_setFld_out _ _ _ (by decide) (by decide))

theorem State.hadcGoes_next (s : State) : State.HadcGoes s s.hadcNext := by
  let c := if !s.refOk then none else
    ((s.hadc.inj.map HadcConv.inj).or (s.hadc.quince.map HadcConv.quince)).or (s.hadc.reg.map HadcConv.reg)
  obtain ⟨⟨d, hadc⟩, regs, settled⟩ := State.hadcGoes_show { s with hadc := { s.hadc with conv := c } }
  exact ⟨⟨d, hadc⟩, regs, settled⟩

theorem State.hadcGoes_kick (s : State) : State.HadcGoes s s.hadcKick := by
  unfold State.hadcKick
  split
  · exact s.hadcGoes_next
  · exact s.hadcGoes_show

/-- The reference is judged: settled unless VREFX is chosen and out of range, which sets FAULT.REF (R364). -/
theorem State.refJudge_spec (s : State) : (s.refJudge).rbit Reg.hkStatus 0 = (s.hadc.timed && !(decide (s.refSel = 1) && s.hadc.vrefxOut)) ∧
    ((decide (s.refSel = 1) && s.hadc.vrefxOut) = true → (s.refJudge).rbit Reg.hkFault 1 = true) := by
  let bad := decide (s.refSel = 1) && s.hadc.vrefxOut
  let u := s.setRbit Reg.hkStatus 0 (s.hadc.timed && !bad)
  let v := if bad then u.fault Reg.hkFault 2 else u
  have run : s.refJudge = v.hadcKick := rfl
  have goes := v.hadcGoes_kick
  have set : u.rbit Reg.hkStatus 0 = (s.hadc.timed && !bad) := State.rbit_setRbit_same _ _ _ _ (by decide)
  have settled : v.rbit Reg.hkStatus 0 = (s.hadc.timed && !bad) := by
    dsimp only [v]
    split
    · exact (State.rbit_of_reg (State.reg_fault_ne u 2 (by lia) (by lia)) 0).trans set
    · exact set
  rw [run]
  refine ⟨goes.settled.trans settled, fun out => ?_⟩
  rw [State.rbit_of_reg (goes.regs _ (by lia) (by lia))]
  have raised : v = u.fault Reg.hkFault 2 := if_pos out
  rw [raised]
  exact State.rbit_fault_set u (by lia) (by decide) (by decide)

/-! ## Triggers -/

/-- A trigger starts an idle enabled regular sequence at slot 0 with a settled reference (R366). -/
theorem State.regTrigger_starts {s : State} (enabled : s.rbit Reg.hkCtrl 0 = true) (settled : s.rbit Reg.hkStatus 0 = true)
    (idle : s.hadc.reg = none) : s.regTrigger.hadc.reg = some 0 := by
  have run : s.regTrigger = State.hadcKick { s with hadc := { s.hadc with reg := some 0 } } := by
    rw [State.regTrigger, if_neg (by simp [State.regEn, enabled]), if_neg (by simp [State.refOk, idle, settled])]
  obtain ⟨c, hadc⟩ := (State.hadcGoes_kick { s with hadc := { s.hadc with reg := some 0 } }).hadc
  rw [run, hadc]

/-- A trigger starts an idle enabled injected sequence at slot 0 (R367). -/
theorem State.injTrigger_starts {s : State} (enabled : s.rbit Reg.hkCtrl 1 = true) (idle : s.hadc.inj = none) :
    s.injTrigger.hadc.inj = some 0 := by
  have run : s.injTrigger = State.hadcKick { s with hadc := { s.hadc with inj := some 0 } } := by
    rw [State.injTrigger, if_neg (by simp [State.injEn, enabled]), if_neg (by simp [idle])]
  obtain ⟨c, hadc⟩ := (State.hadcGoes_kick { s with hadc := { s.hadc with inj := some 0 } }).hadc
  rw [run, hadc]

/-! ## Conversions -/

theorem satu_toNat_lt (x : Int) (n : Nat) : (satu x n).toNat < 2 ^ n := by
  have one : (1 : Int) ≤ 2 ^ n := one_le_pow₀ (by decide)
  have cast : ((2 ^ n : Nat) : Int) = 2 ^ n := by push_cast; rfl
  unfold satu
  omega

theorem State.hadcCode_lt (s : State) (raw : Nat) : s.hadcCode raw < 4096 := by
  unfold State.hadcCode
  dsimp only
  generalize rne _ _ = x
  exact satu_toNat_lt x 12

theorem State.reg_hadcRequest (s : State) (a : Nat) : s.hadcRequest.reg a = s.reg a := rfl

/-- A regular conversion leaves its code in its slot's field (R366). -/
theorem State.regDone_res (s : State) {i code : Nat} (slot : i < 32) (small : code < 4096) :
    (s.regDone i code).fld (Reg.hkRegRes (i / 2)) (16 * (i % 2) + 11) (16 * (i % 2)) = code := by
  have low : Reg.hkRegRes (i / 2) < 0xD0000 := by lia
  have ring : Reg.hkRegRes (i / 2) ≠ Reg.hkRingWp := by lia
  have pass : Reg.hkRegRes (i / 2) ≠ Reg.hkPass := by lia
  have kept : (s.regDone i code).reg (Reg.hkRegRes (i / 2)) =
      (s.setFld (Reg.hkRegRes (i / 2)) (resAt i + 11) (resAt i) code).reg (Reg.hkRegRes (i / 2)) := by
    unfold State.regDone
    dsimp only
    generalize s.setFld (Reg.hkRegRes (i / 2)) (resAt i + 11) (resAt i) code = u
    generalize BitVec.ofNat 72 _ = w
    have word : (u.ringWord Reg.hkRingBase Reg.hkRingLen Reg.hkRingWp w).hadcRequest.reg (Reg.hkRegRes (i / 2)) =
        u.reg (Reg.hkRegRes (i / 2)) := (State.reg_hadcRequest _ _).trans (u.reg_ringWord _ _ _ w low ring)
    generalize (u.ringWord Reg.hkRingBase Reg.hkRingLen Reg.hkRingWp w).hadcRequest = v at word ⊢
    split
    · exact word
    · split
      · exact word
      · exact (v.reg_count_ne 1 pass).trans word
  rw [State.fld_of_reg kept, show resAt i = 16 * (i % 2) from rfl]
  refine (s.fld_setFld_same (Reg.hkRegRes (i / 2)) (16 * (i % 2)) code (by omega)).trans ?_
  rw [show 16 * (i % 2) + 11 + 1 - 16 * (i % 2) = 12 by omega]
  exact Nat.mod_eq_of_lt small

/-- A sensor's conversion makes its reading valid and goes on to the next sensor (R375). -/
theorem State.quinceDone_spec (s : State) (k : Nat) : (s.quinceDone k).rbit (Reg.calTemp k) 16 = true ∧
    (s.quinceDone k).hadc.quince = if k < 3 then some (k + 1) else none := by
  have valid : (s.tempRead k).rbit (Reg.calTemp k) 16 = true := by
    have shown : (s.tempRead k).reg (Reg.calTemp k) = BitVec.ofNat 32 (2 ^ 16 + field s.free 15 0) := State.reg_setReg_same _ _ _
    have low : field s.free 15 0 < 2 ^ 16 := field_lt s.free 15 0
    rw [State.rbit, shown, bitOf, BitVec.getLsbD_ofNat, Nat.testBit_two_pow_add_eq, Nat.testBit_lt_two_pow low]
    rfl
  unfold State.quinceDone
  dsimp only
  split
  · exact ⟨valid, rfl⟩
  · exact ⟨valid, rfl⟩

/-! ## Loop outputs -/

theorem State.loopForm_spec (s : State) (n : Fin 8) :
    (s.loopForm n).reg (Reg.loopTarget n) = BitVec.ofNat 32 (loopTarget (s.reg Reg.loopRange) (s.loopFailed n) (s.rbit (Reg.loopCfg n) 3)
      (s.loopQ n).1) ∧ (s.loopForm n).loopOuts = s.loopOuts := by
  refine ⟨?_, rfl⟩
  unfold State.loopForm
  dsimp only
  rw [State.reg_setRbit_ne _ _ _ (by lia), State.reg_setRbit_ne _ _ _ (by lia), State.reg_setRbit_ne _ _ _ (by lia),
    State.reg_setReg_ne _ _ (by lia), State.reg_setReg_same]

/-! ## The obligation -/

/-- Settles O17, by what choosing a conversion leaves of the sequences, and the equations of the triggers and the loop commands. -/
theorem housekeepingConverterAndLoopOutputs : Obligations.HousekeepingConverterAndLoopOutputs := by
  refine ⟨⟨?settled, ?vrefx, ?regGo, ?regGoOther, ?timer, ?timerMiss, ?injGo, ?injMiss, ?injHead, ?injOther, ?regular, ?sensor, ?nothing⟩,
    ?failed, ?inside, ?range, ?update, ?readback, ?timeout, ?mismatch, ?mismatchEnds, ?opens, ?notOpen, ?openEnds⟩
  case settled =>
    intro s up other
    refine ⟨State.refJudge { s with hadc := { s.hadc with timed := true } }, if_neg (by simp [up]), ?_⟩
    have internal : State.refSel { s with hadc := { s.hadc with timed := true } } ≠ 1 := other
    rw [(State.refJudge_spec _).1, decide_eq_false internal]
    rfl
  case vrefx =>
    intro s up vrefx
    refine ⟨State.refJudge { s with hadc := { s.hadc with vrefxOut := !false } }, if_neg (by simp [up]), ?_⟩
    have chosen : State.refSel { s with hadc := { s.hadc with vrefxOut := !false } } = 1 := vrefx
    obtain ⟨shown, fault⟩ := State.refJudge_spec { s with hadc := { s.hadc with vrefxOut := !false } }
    rw [decide_eq_true chosen] at shown fault
    exact ⟨shown.trans (Bool.and_false _), fault rfl⟩
  case regGo =>
    intro s q up trig enabled ok idle
    refine ⟨s.regTrigger, ?_, State.regTrigger_starts enabled ok idle⟩
    change execHadcRegGo q s = _
    rw [execHadcRegGo, if_neg (by simp [up]), State.regTriggerFrom, if_pos trig]
  case regGoOther =>
    intro s q other
    change execHadcRegGo q s = _
    rw [execHadcRegGo, State.regTriggerFrom, if_neg other, ite_self]
  case timer =>
    intro s trig enabled ok idle
    refine ⟨s.regTrigger, ?_, State.regTrigger_starts enabled ok idle⟩
    change execHadcRegTimer s = _
    rw [execHadcRegTimer, State.regTriggerFrom, if_pos trig]
  case timerMiss =>
    intro s i trig enabled busy
    change execHadcRegTimer s = _
    rw [execHadcRegTimer, State.regTriggerFrom, if_pos trig, State.regTrigger, if_neg (by simp [State.regEn, enabled]),
      if_pos (by simp [busy])]
  case injGo =>
    intro s q up trig enabled idle
    refine ⟨s.injTrigger, ?_, State.injTrigger_starts enabled idle⟩
    change execHadcInjGo q s = _
    rw [execHadcInjGo, if_neg (by simp [up]), if_pos trig]
  case injMiss =>
    intro s q i up trig enabled busy
    change execHadcInjGo q s = _
    rw [execHadcInjGo, if_neg (by simp [up]), if_pos trig, State.injTrigger, if_neg (by simp [State.injEn, enabled]),
      if_pos (by simp [busy])]
  case injHead =>
    intro s h trig head enabled idle
    refine ⟨s.injTrigger, ?_, State.injTrigger_starts enabled idle⟩
    change execHadcInjTrigger (.headok h) s = _
    simp [execHadcInjTrigger, trig, head]
  case injOther =>
    intro s src trig
    change execHadcInjTrigger src s = _
    cases src <;> simp [execHadcInjTrigger, trig]
  case regular =>
    intro s rw i conv slot
    have run : exec (.hadcConversionDone rw) s = .next ((s.regDone i (s.hadcCode rw)).hadcNext) := by
      change execHadcConversionDone rw s = _
      simp only [execHadcConversionDone, conv]
    refine ⟨_, run, ?_⟩
    rw [State.fld_of_reg ((State.hadcGoes_next _).regs _ (by lia) (by lia))]
    exact s.regDone_res slot (s.hadcCode_lt rw)
  case sensor =>
    intro s rw k conv small
    have run : exec (.hadcConversionDone rw) s = .next ((s.quinceDone k).hadcNext) := by
      change execHadcConversionDone rw s = _
      simp only [execHadcConversionDone, conv]
    obtain ⟨valid, sequence⟩ := s.quinceDone_spec k
    have goes := (s.quinceDone k).hadcGoes_next
    obtain ⟨c, hadc⟩ := goes.hadc
    refine ⟨_, run, (State.rbit_of_reg (goes.regs _ (by lia) (by lia)) 16).trans valid, ?_⟩
    rw [hadc]
    exact sequence
  case nothing =>
    intro s rw idle
    change execHadcConversionDone rw s = _
    simp only [execHadcConversionDone, idle]
  case failed => intro r d; rfl
  case inside =>
    intro r d q above below least most
    simp only [loopTarget, Bool.false_eq_true, if_false]
    rw [if_neg (by omega), if_neg (by omega)]
    omega
  case range =>
    intro r d q low band high
    simp only [loopTarget, Bool.false_eq_true, if_false]
    split
    · omega
    · split <;> omega
  case update =>
    intro s n up
    exact ⟨s.loopForm n, if_neg (by simp [up]), s.loopForm_spec n⟩
  case readback =>
    intro s n ua up small
    change execLoopReadback n ua s = _
    rw [execLoopReadback, if_neg (by simp [up]), Nat.mod_eq_of_lt (show ua < 2 ^ 16 from small)]
  case timeout =>
    intro s n up set own
    change execLoopHostTimeout n s = _
    rw [execLoopHostTimeout, if_neg (by simp [up]), if_pos ⟨set, own⟩]
  case mismatch =>
    intro s n up off closed
    change execLoopMismatch n s = _
    rw [execLoopMismatch, if_neg (by simp [up]), if_pos (by simp [off, closed])]
  case mismatchEnds =>
    intro s n up near
    change execLoopMismatchClear n s = _
    rw [execLoopMismatchClear, if_neg (by simp [up]), if_neg (by simp [near])]
  case opens =>
    intro s n up enabled high
    change execLoopOpen n s = _
    rw [execLoopOpen, if_neg (by simp [up]), if_pos ⟨by simp [State.loopDrive, enabled], high⟩]
  case notOpen =>
    intro s n off
    change execLoopOpen n s = _
    rw [execLoopOpen]
    split
    · rfl
    · rw [if_neg]
      rintro ⟨driven, high⟩
      rcases off with disabled | low
      · simp [State.loopDrive, disabled] at driven
      · omega
  case openEnds =>
    intro s n up
    change execLoopOpenClear n s = _
    rw [execLoopOpenClear, if_neg (by simp [up])]

end Sys2Proof.Machine
end

section
/-!
PROOFS. The precision sequence (R353 to R359): what a word of the ring, a slot result and an entry leave.
-/
namespace Sys2Proof.Machine

/-! ## Rules of the front end's operations -/

theorem State.ServeOnly.padc {s t : State} (h : s.ServeOnly t) : t.padc = s.padc := by
  obtain ⟨w, d, o, b, m, r, v, x, y, n, f, rfl⟩ := h
  rfl

@[simp] theorem State.padc_fault (s : State) (a m : Nat) : (s.fault a m).padc = s.padc :=
  (s.fault_raiseOnly a m).keeps State.padc fun _ _ _ _ _ _ => rfl

theorem State.reg_padcRequest (s : State) (a : Nat) : s.padcRequest.reg a = s.reg a := rfl

theorem State.padcRequest_padc (s : State) : ∃ r, s.padcRequest.padc = { s.padc with request := r } := ⟨_, rfl⟩

/-- A word of the PADC ring leaves the sequence but its request, and the registers but the write pointer (R361). -/
theorem State.padcWord_spec (s : State) (k : Nat) (result isOpen settling sat bo : Bool) (phase : Nat) (v : Int) :
    (∃ r, (s.padcWord k result isOpen settling sat bo phase v).padc = { s.padc with request := r }) ∧
      ∀ a, a < 0xD0000 → a ≠ Reg.pfeRingWp → (s.padcWord k result isOpen settling sat bo phase v).reg a = s.reg a := by
  unfold State.padcWord
  dsimp only
  generalize BitVec.ofNat 72 _ = w
  have padc : (s.ringWord Reg.pfeRingBase Reg.pfeRingLen Reg.pfeRingWp w).padc = s.padc :=
    ((State.ServeOnly.refl s).dramWrite _ w false).padc
  obtain ⟨r, made⟩ := (s.ringWord Reg.pfeRingBase Reg.pfeRingLen Reg.pfeRingWp w).padcRequest_padc
  refine ⟨⟨r, by rw [made, padc]⟩, fun a low ne => ?_⟩
  rw [State.reg_padcRequest, s.reg_ringWord _ _ _ w low ne]

/-- A result joins those due a conversion, and the slot's last result is kept (R359, R387). -/
def State.padcDue (s : State) (k : Nat) (r : Int) (isOpen : Bool) (last : Int × Int × Bool) : State :=
  { s with padc := { s.padc with due := s.padc.due ++ [⟨k, r, isOpen, s.stamp⟩], last := setNth s.padc.last k last } }

theorem State.reg_padcDue (s : State) (k : Nat) (r : Int) (isOpen : Bool) (last : Int × Int × Bool) (a : Nat) :
    (s.padcDue k r isOpen last).reg a = s.reg a := rfl

theorem State.padcDue_padc (s : State) (k : Nat) (r : Int) (isOpen : Bool) (last : Int × Int × Bool) :
    ∃ d l, (s.padcDue k r isOpen last).padc = { s.padc with due := d, last := l } := ⟨_, _, rfl⟩

/-- A slot result: its value in RESULT, and in the sequence its conversion and the last result (R356). -/
theorem State.padcResult_spec (s : State) (k : Nat) (r : Int) (isOpen settling sat : Bool) (m0 m1 : Int) :
    (∃ q d l, (s.padcResult k r isOpen settling sat m0 m1).padc = { s.padc with request := q, due := d, last := l }) ∧
      (∀ a, a < 0xD0000 → a ≠ Reg.pfeRingWp → a ≠ Reg.pfeResult k → a ≠ Reg.pfeRstat k →
        (s.padcResult k r isOpen settling sat m0 m1).reg a = s.reg a) ∧
      (k < 16 → (s.padcResult k r isOpen settling sat m0 m1).reg (Reg.pfeResult k) = BitVec.ofInt 32 (if isOpen then 0 else r)) := by
  let v := if isOpen then 0 else r
  let u := (s.setReg (Reg.pfeResult k) (toW 32 v)).setReg (Reg.pfeRstat k) (BitVec.ofNat 32 (bitsToNat [sat, settling, isOpen] * 32))
  obtain ⟨⟨q, padc⟩, regs⟩ := u.padcWord_spec k true isOpen settling sat false u.padc.phase v
  have run : s.padcResult k r isOpen settling sat m0 m1 =
      (u.padcWord k true isOpen settling sat false u.padc.phase v).padcDue k r (isOpen || settling) (m0, m1, isOpen) := rfl
  obtain ⟨d, l, due⟩ := (u.padcWord k true isOpen settling sat false u.padc.phase v).padcDue_padc k r (isOpen || settling) (m0, m1, isOpen)
  rw [run]
  refine ⟨⟨q, d, l, by rw [due, padc]; rfl⟩, fun a low ring result stat => ?_, fun small => ?_⟩
  · rw [State.reg_padcDue, regs a low ring, State.reg_setReg_ne _ _ stat, State.reg_setReg_ne _ _ result]
  · rw [State.reg_padcDue, regs _ (by lia) (by lia), State.reg_setReg_ne _ _ (by lia), State.reg_setReg_same]
    rfl

/-- What an entry and the results of the slots it passes leave: the registers below RESULT but PASS and the write pointer, and the tests. -/
theorem State.padcEnter_kept (n k : Nat) (s : State) :
    (∀ a, a < 0x80200 → a ≠ Reg.pfePass → a ≠ Reg.pfeRingWp → (State.padcEnter n k s).reg a = s.reg a) := by
  induction n generalizing k s with
  | zero => exact fun a _ pass _ => s.reg_count_ne 1 pass
  | succ n ih =>
    unfold State.padcEnter
    split
    · exact ih (k + 1) s
    · split
      · intro a low pass ring
        obtain ⟨_, regs, _⟩ := (s.padcBegin k).padcResult_spec k 0 true false false 0 0
        exact (ih (k + 1) _ a low pass ring).trans (regs a (by omega) ring (by lia) (by lia))
      · split <;> exact fun _ _ _ _ => rfl

/-- What showing the sequence changes: STATUS from bit 20 on, and the burn-out tests of an idle that begins (R358, R372). -/
theorem State.padcShow_spec (s : State) (running : Bool) : (∃ w, (s.padcShow running).padc = { s.padc with tests := w }) ∧
    (∀ a, a ≠ Reg.pfeStatus → (s.padcShow running).reg a = s.reg a) ∧
    ∀ i, i < 20 → (s.padcShow running).rbit Reg.pfeStatus i = s.rbit Reg.pfeStatus i := by
  let u := if s.padc.inPass then s else s.idleBegin
  have begun : (∃ w, u.padc = { s.padc with tests := w }) ∧ (∀ a, a ≠ Reg.pfeStatus → u.reg a = s.reg a) ∧
      ∀ i, i < 20 → u.rbit Reg.pfeStatus i = s.rbit Reg.pfeStatus i := by
    dsimp only [u]
    split
    · exact ⟨⟨_, rfl⟩, fun _ _ => rfl, fun _ _ => rfl⟩
    · exact ⟨⟨_, rfl⟩, fun a ne => State.reg_setRbit_ne s _ _ ne, fun i low => State.rbit_setRbit_ne s _ _ (by decide) (by omega)⟩
  have run : s.padcShow running = ((u.setRbit Reg.pfeStatus 31 running).setRbit Reg.pfeStatus 30
      (running && !(u.setRbit Reg.pfeStatus 31 running).padc.inPass)).setFld Reg.pfeStatus 23 20 u.padc.slot := rfl
  generalize (running && !(u.setRbit Reg.pfeStatus 31 running).padc.inPass) = idle at run
  generalize u = v at *
  obtain ⟨padc, regs, bits⟩ := begun
  rw [run]
  refine ⟨padc, fun a ne => ?_, fun i low => ?_⟩
  · rw [State.reg_setFld_ne _ _ _ _ ne, State.reg_setRbit_ne _ _ _ ne, State.reg_setRbit_ne _ _ _ ne, regs a ne]
  · rw [State.rbit_setFld_out _ _ _ (.inl low) (by omega), State.rbit_setRbit_ne _ _ _ (by decide) (by omega),
      State.rbit_setRbit_ne _ _ _ (by decide) (by omega), bits i low]

/-- The pass that moves on leaves STATUS below bit 20 and FAULT. -/
theorem State.padcNext_kept (s : State) : (s.padcNext).reg Reg.pfeFault = s.reg Reg.pfeFault ∧
    ∀ i, i < 20 → (s.padcNext).rbit Reg.pfeStatus i = s.rbit Reg.pfeStatus i := by
  have run : s.padcNext = (State.padcEnter (s.seqLen - (s.padc.slot + 1)) (s.padc.slot + 1) s).padcShow true := rfl
  have entered := State.padcEnter_kept (s.seqLen - (s.padc.slot + 1)) (s.padc.slot + 1) s
  generalize State.padcEnter (s.seqLen - (s.padc.slot + 1)) (s.padc.slot + 1) s = u at *
  obtain ⟨_, regs, bits⟩ := u.padcShow_spec true
  rw [run, regs _ (by decide), entered _ (by decide) (by decide) (by decide)]
  refine ⟨rfl, fun i low => ?_⟩
  rw [bits i low, State.rbit_of_reg (entered _ (by decide) (by decide) (by decide))]

theorem State.padcSat_spec (s : State) (isSat : Bool) : (s.padcSat isSat).padc = s.padc ∧
    ∀ a, a < 0xD0000 → a ≠ Reg.pfeSatCnt → a ≠ Reg.pfeFault → (s.padcSat isSat).reg a = s.reg a := by
  unfold State.padcSat
  split
  · exact ⟨State.padc_fault _ _ _, fun a low cnt fault => (State.reg_fault_ne _ _ (.inl low) fault).trans (s.reg_count_ne 1 cnt)⟩
  · exact ⟨rfl, fun _ _ _ _ => rfl⟩

/-- The corrected code of a raw code of the slot in progress, and the value of the output it completes (R353). -/
def State.padcCode (s : State) (xr : Int) : Int × Bool := s.padcCorrect (s.slotGain s.padc.slot) (wrap xr 24)
def State.padcValue (s : State) (xr : Int) : Int × State := s.padcMean (s.slotNavg s.padc.slot) ((s.padcCode xr).1 :: s.padc.hist)

theorem State.padcValue_spec (s : State) (xr : Int) : (s.padcValue xr).2.padc = s.padc ∧ ∀ a, (s.padcValue xr).2.reg a = s.reg a := by
  unfold State.padcValue State.padcMean
  split <;> exact ⟨rfl, fun _ => rfl⟩

/-- The state with an output's code, value and saturation gathered. -/
def State.padcTake (s : State) (x v : Int) (isSat : Bool) : State := { s with padc := s.padc.take x v isSat }

theorem State.padcTake_kept (s : State) (x v : Int) (isSat : Bool) :
    (s.padcTake x v isSat).padc.due = s.padc.due ∧ (s.padcTake x v isSat).padc.inPass = s.padc.inPass := ⟨rfl, rfl⟩

theorem State.padcForm_eq (s : State) (xr : Int) : s.padcForm xr =
    ((((s.padcValue xr).2.padcSat (s.padcCode xr).2).padcWord s.padc.slot false false (decide (s.padc.settle ≠ 0)) (s.padcCode xr).2 false
      s.padc.phase (s.padcValue xr).1).padcTake (s.padcCode xr).1 (s.padcValue xr).1 (s.padcCode xr).2,
      (s.padcValue xr).1, (s.padcCode xr).2) := rfl

/-- An output that is formed leaves the results and what is due, and goes into the gathering of the slot. -/
theorem State.padcForm_spec (s : State) (xr : Int) : (s.padcForm xr).1.padc.due = s.padc.due ∧
    (s.padcForm xr).1.padc.inPass = s.padc.inPass ∧
    ∀ a, a < 0xD0000 → a ≠ Reg.pfeSatCnt → a ≠ Reg.pfeFault → a ≠ Reg.pfeRingWp → (s.padcForm xr).1.reg a = s.reg a := by
  obtain ⟨valuePadc, valueRegs⟩ := s.padcValue_spec xr
  obtain ⟨satPadc, satRegs⟩ := (s.padcValue xr).2.padcSat_spec (s.padcCode xr).2
  rw [State.padcForm_eq]
  dsimp only
  generalize (s.padcCode xr).2 = isSat at *
  generalize (s.padcValue xr).1 = v at *
  generalize ((s.padcValue xr).2.padcSat isSat) = u at *
  obtain ⟨⟨q, padc⟩, regs⟩ := u.padcWord_spec s.padc.slot false false (decide (s.padc.settle ≠ 0)) isSat false s.padc.phase v
  generalize u.padcWord s.padc.slot false false (decide (s.padc.settle ≠ 0)) isSat false s.padc.phase v = t at *
  rw [satPadc, valuePadc] at padc
  refine ⟨?_, ?_, fun a low cnt fault ring => (regs a low ring).trans ((satRegs a low cnt fault).trans (valueRegs a))⟩
  · rw [(t.padcTake_kept _ v isSat).1, padc]
  · rw [(t.padcTake_kept _ v isSat).2, padc]

/-! ## Outputs, open leads and tests -/

/-- Rounding by 1 is the value itself. -/
theorem divr_one (a : Int) : divr a 1 = a := by
  unfold divr
  rw [if_neg (by decide), show (1 : Int).natAbs = 1 from rfl]
  dsimp only
  by_cases sign : 0 ≤ a
  · rw [if_pos (by simp [sign])]
    omega
  · rw [if_neg (by simp [sign])]
    omega

/-- A slot that averages none takes an output's corrected code as its value (R353). -/
theorem State.padcValue_of_one {s : State} {xr : Int} (one : s.slotNavg s.padc.slot = 1) : (s.padcValue xr).1 = (s.padcCode xr).1 := by
  unfold State.padcValue State.padcMean
  rw [one, if_pos (by simp)]
  simp [sumInt, divr_one]

/-- An output of a continuous slot is a result (R354). -/
theorem State.reg_padcAfter_continuous {s : State} {k : Nat} (continuous : s.slotCount k = 0) (v : Int) (settling isSat : Bool) (a : Nat) :
    (s.padcAfter k v settling isSat).reg a = (s.padcResult k v false settling isSat v 0).reg a := by
  unfold State.padcAfter
  rw [if_pos continuous]
  rfl

/-- The output of a continuous slot that averages none is its result (R354, R356). -/
theorem State.padcOutput_continuous {s : State} {xr : Int} (continuous : s.slotCount s.padc.slot = 0) (small : s.padc.slot < 16)
    (one : s.slotNavg s.padc.slot = 1) : (s.padcOutput xr).reg (Reg.pfeResult s.padc.slot) = BitVec.ofInt 32 (s.padcCode xr).1 := by
  obtain ⟨_, _, regs⟩ := s.padcForm_spec xr
  have value : (s.padcForm xr).2.1 = (s.padcCode xr).1 := State.padcValue_of_one one
  have count : (s.padcForm xr).1.slotCount s.padc.slot = 0 :=
    (State.fld_of_reg (regs (Reg.pfeSlotDest s.padc.slot) (by lia) (by lia) (by lia) (by lia)) 23 16).trans continuous
  unfold State.padcOutput
  dsimp only
  rw [State.reg_padcAfter_continuous count, value, (State.padcResult_spec _ s.padc.slot _ _ _ _ _ _).2.2 small]
  rfl

/-- A driven slot found open sets its EOPEN bit and its fault bit (R357). -/
theorem State.padcOpen_spec (s : State) (small : s.padc.slot < 16) :
    (s.padcOpen false).rbit Reg.pfeStatus s.padc.slot = true ∧ (s.padcOpen false).rbit Reg.pfeFault s.padc.slot = true := by
  let u := s.setRbit Reg.pfeStatus s.padc.slot true
  let v := u.fault Reg.pfeFault (2 ^ s.padc.slot)
  have run : s.padcOpen false = (v.padcResult s.padc.slot 0 true false false 0 0).padcNext := rfl
  have fault : v.rbit Reg.pfeFault s.padc.slot = true := State.rbit_fault_set u (by lia) (by omega) (by simp)
  have status : v.rbit Reg.pfeStatus s.padc.slot = true :=
    (State.rbit_of_reg (State.reg_fault_ne u _ (by lia) (by lia)) _).trans (State.rbit_setRbit_same s _ _ true (by omega))
  obtain ⟨_, regs, _⟩ := v.padcResult_spec s.padc.slot 0 true false false 0 0
  obtain ⟨nextFault, nextBits⟩ := (v.padcResult s.padc.slot 0 true false false 0 0).padcNext_kept
  rw [run, nextBits _ (by omega), State.rbit_of_reg nextFault, State.rbit_of_reg (regs Reg.pfeStatus (by decide) (by decide) (by lia) (by lia)),
    State.rbit_of_reg (regs Reg.pfeFault (by decide) (by decide) (by lia) (by lia))]
  exact ⟨status, fault⟩

theorem State.reg_setTests_ne (s : State) (w : W32) {a : Nat} (ne : a ≠ Reg.pfeStatus) : (s.setTests w).reg a = s.reg a :=
  s.reg_setRbit_ne _ _ ne

theorem State.rbit_setTests (s : State) (w : W32) : (s.setTests w).rbit Reg.pfeStatus 29 = decide (w ≠ 0) :=
  s.rbit_setRbit_same _ _ _ (by decide)

/-- A burn-out test that runs writes its result, clears its request and ends, and BO_RUN shows whether others still run (R358). -/
theorem State.burnout_spec (s : State) (k : Fin 16) (xr : Int) (runs : s.padc.tests.getLsbD k = true) :
    (s.burnout k xr).rbit Reg.pfeBoReq k = false ∧ (s.burnout k xr).padc.tests = withBit s.padc.tests k false ∧
      (s.burnout k xr).rbit Reg.pfeStatus 29 = decide (withBit s.padc.tests k false ≠ 0) ∧
      (s.burnout k xr).rbit Reg.pfeBoResult k = decide (s.fld Reg.pfeBoLimit 23 0 ≤ (s.padcCorrect 0 (wrap xr 24)).1.natAbs) := by
  unfold State.burnout
  rw [if_pos runs]
  dsimp only
  generalize s.padcCorrect 0 (wrap xr 24) = c
  generalize decide (s.fld Reg.pfeBoLimit 23 0 ≤ c.1.natAbs) = isOpen
  obtain ⟨satPadc, _⟩ := s.padcSat_spec c.2
  obtain ⟨⟨q, word⟩, _⟩ := (s.padcSat c.2).padcWord_spec k false isOpen false c.2 true 0 (if isOpen then 0 else c.1)
  generalize (s.padcSat c.2).padcWord k false isOpen false c.2 true 0 (if isOpen then 0 else c.1) = u at *
  have tests : u.padc.tests = s.padc.tests := by rw [word, satPadc]
  have fits : k.val < 32 := by omega
  have shown : ∀ v : State, v = ((u.setRbit Reg.pfeBoResult k isOpen).setRbit Reg.pfeBoReq k false).setTests (withBit u.padc.tests k false) →
      v.rbit Reg.pfeBoReq k = false ∧ v.padc.tests = withBit s.padc.tests k false ∧
      v.rbit Reg.pfeStatus 29 = decide (withBit s.padc.tests k false ≠ 0) ∧ v.rbit Reg.pfeBoResult k = isOpen := by
    rintro v rfl
    rw [tests, State.rbit_of_reg (State.reg_setTests_ne _ _ (show Reg.pfeBoReq ≠ Reg.pfeStatus by decide)),
      State.rbit_of_reg (State.reg_setTests_ne _ _ (show Reg.pfeBoResult ≠ Reg.pfeStatus by decide)),
      State.rbit_of_reg (State.reg_setRbit_ne _ _ _ (show Reg.pfeBoResult ≠ Reg.pfeBoReq by decide)),
      State.rbit_setRbit_same _ _ _ _ fits, State.rbit_setRbit_same _ _ _ _ fits, State.rbit_setTests]
    exact ⟨rfl, rfl, rfl, rfl⟩
  obtain ⟨req, left, run, result⟩ := shown _ rfl
  generalize ((u.setRbit Reg.pfeBoResult k isOpen).setRbit Reg.pfeBoReq k false).setTests (withBit u.padc.tests k false) = v at *
  split
  · rw [State.rbit_of_reg (State.reg_fault_ne v _ (show Reg.pfeBoReq < 0xD0000 ∨ _ by decide) (by decide)),
      State.rbit_of_reg (State.reg_fault_ne v _ (show Reg.pfeStatus < 0xD0000 ∨ _ by decide) (by decide)),
      State.rbit_of_reg (State.reg_fault_ne v _ (show Reg.pfeBoResult < 0xD0000 ∨ _ by decide) (by decide)), State.padc_fault]
    exact ⟨req, left, run, result⟩
  · exact ⟨req, left, run, result⟩

theorem State.odv_setOdv_same (s : State) (idx sub v : Nat) : (s.setOdv idx sub v).odv idx sub = v := Store.get_set_same _ _ _ _

/-! ## The obligation -/

/-- Settles O18, by what a slot result and an entry leave, and the equations of the commands. -/
theorem precisionSequence : Obligations.PrecisionSequence := by
  refine ⟨?pass, ?waits, ?passEnds, ?output, ?continuous, ?stopped, ?idle, ?corrected, ?opens, ?retry, ?held, ?noTest, ?test, ?openDue, ?due⟩
  case pass =>
    intro s o run idle none short
    change execPadcPassStart o s = _
    rw [execPadcPassStart, if_pos (by simp [State.padcRun, run, idle, none])]
    dsimp only
    rw [if_neg (by simp [short])]
    rfl
  case waits =>
    intro s o tests
    change execPadcPassStart o s = _
    rw [execPadcPassStart, if_neg (by rw [decide_eq_false tests, Bool.and_false]; decide)]
  case passEnds => exact fun s k => ⟨_, rfl, rfl, State.count_reg _ _ _⟩
  case output =>
    intro s xr pass converts
    change execPadcOutput { xr := xr } s = _
    rw [execPadcOutput, if_neg (by simp [State.converting, pass, converts]), if_neg (by simp), if_neg (by simp)]
  case continuous =>
    intro s xr pass converts continuous small few
    have one : s.slotNavg s.padc.slot = 1 := by
      unfold State.slotNavg at few ⊢
      omega
    refine ⟨s.padcOutput xr, ?_, State.padcOutput_continuous continuous small one⟩
    change execPadcOutput { xr := xr } s = _
    rw [execPadcOutput, if_neg (by simp [State.converting, pass, converts]), if_neg (by simp), if_neg (by simp)]
  case stopped =>
    intro s xr pass converts
    let u : State := { (s.padcForm xr).1 with padc := { (s.padcForm xr).1.padc with inPass := false, waitComp := false, outs := [] } }
    have run : exec (.padcOutput { xr := xr, stopped := true }) s = .next (u.padcShow false) := by
      change execPadcOutput { xr := xr, stopped := true } s = _
      rw [execPadcOutput, if_neg (by simp [State.converting, pass, converts]), if_pos rfl]
      rfl
    obtain ⟨due, _, regs⟩ := s.padcForm_spec xr
    obtain ⟨⟨w, padc⟩, shown, _⟩ := u.padcShow_spec false
    refine ⟨_, run, by rw [padc], by rw [padc]; exact due, fun k => ?_⟩
    rw [shown _ (by lia)]
    exact regs _ (by lia) (by lia) (by lia) (by lia)
  case idle =>
    intro s xr idle
    change execPadcOutput xr s = _
    rw [execPadcOutput, if_pos (by simp [State.converting, idle])]
  case corrected => exact fun s g xr => rfl
  case opens =>
    intro s pass converts small driven
    refine ⟨s.padcOpen false, ?_, s.padcOpen_spec small⟩
    change execPadcOpenDetect s = _
    rw [execPadcOpenDetect, if_pos (by simp [State.converting, pass, converts, driven])]
  case retry =>
    intro s pass waits
    change execPadcOpenRetryTimeout s = _
    rw [execPadcOpenRetryTimeout, if_pos (by simp [pass, waits])]
  case held =>
    intro s pass waits
    have run : exec .excitationComplianceHeld s = .next ((s.setRbit Reg.pfeStatus s.padc.slot false).padcBegin s.padc.slot) := by
      change execExcitationComplianceHeld s = _
      unfold execExcitationComplianceHeld
      dsimp only
      rw [if_pos (by simp [pass, waits])]
    have clear : (s.setRbit Reg.pfeStatus s.padc.slot false).rbit Reg.pfeStatus s.padc.slot = false := by
      by_cases inside : s.padc.slot < 32
      · exact State.rbit_setRbit_same _ _ _ _ inside
      · exact BitVec.getLsbD_of_ge _ _ (by omega)
    have conv := State.reg_setRbit_ne s s.padc.slot false (show Reg.pfeSlotConv s.padc.slot ≠ Reg.pfeStatus by lia)
    refine ⟨_, run, clear, rfl, ?_, rfl⟩
    change 3 + State.fld _ _ 28 28 + (State.fld _ _ 27 24 + 1) - 1 = _
    rw [State.fld_of_reg conv, State.fld_of_reg conv]
    rfl
  case noTest =>
    intro s k xr none
    change execBurnoutTest [(k.val, xr)] s = _
    simp [execBurnoutTest, State.burnout, none]
  case test =>
    intro s k xr runs
    have run : exec (.burnoutTest [(k.val, xr)]) s = .next (s.burnout k xr) := by
      change execBurnoutTest [(k.val, xr)] s = _
      simp [execBurnoutTest]
    obtain ⟨req, left, status, result⟩ := s.burnout_spec k xr runs
    refine ⟨_, run, req, fun j => ?_, by rw [left]; exact status, result⟩
    rw [left, getLsbD_withBit _ _ _ (by omega)]
    split
    · next same => simp [same]
    · next ne => simp [ne]
  case openDue =>
    intro s k d rest due slot isOpen
    have first : s.padc.due.find? (fun d => decide (d.slot = k.val)) = some d := by rw [due]; simp [slot]
    have left : s.padc.due.erase d = rest := by rw [due]; exact List.erase_cons_head _ _
    change execPadcResultConvert k s = _
    unfold execPadcResultConvert
    rw [first]
    dsimp only
    rw [if_pos isOpen, left]
  case due =>
    intro s k d rest due slot shut kind dest
    have first : s.padc.due.find? (fun d => decide (d.slot = k.val)) = some d := by rw [due]; simp [slot]
    have left : s.padc.due.erase d = rest := by rw [due]; exact List.erase_cons_head _ _
    let u : State := { s with padc := { s.padc with due := s.padc.due.erase d } }
    have own : u.convert k d.r = ((u.convert k d.r).1, u) := by
      simp only [State.convert, show u.slotKind k = 3 from kind]
    have run : exec (.padcResultConvert k) s =
        .next ((u.setOdv (odSlot k) 9 (fl64Bits (u.convert k d.r).1)).setOdv (odSlot k) 0xA d.stamp.toNat) := by
      change execPadcResultConvert k s = _
      unfold execPadcResultConvert
      rw [first]
      dsimp only
      rw [if_neg (by simp [shut]), own]
      dsimp only
      exact congrArg Host.Outcome.next (if_pos dest)
    exact ⟨_, run, left, State.odv_setOdv_same _ _ _ _⟩

end Sys2Proof.Machine
end

section
/-!
PROOFS. Network management, heartbeats and error states of the CAN ports (R414, R422). The registers of a port lie above every block
a raise touches, so what a command reads back of them goes by their addresses.
-/
namespace Sys2Proof.Machine

/-! ## What a port's predicates read -/

/-- Two states that agree on what says whether a port takes part in its bus, and on its node. -/
structure State.PortAs (s t : State) (c : Nat) : Prop where
  cfg : t.reg (Reg.canCfg c) = s.reg (Reg.canCfg c)
  node : t.reg (Reg.canNode c) = s.reg (Reg.canNode c)
  bus : t.fld (Reg.canStatus c) 1 0 = s.fld (Reg.canStatus c) 1 0
  shut : t.shut = s.shut

section
variable {s t : State} {c : Nat}

theorem State.PortAs.canOn (h : s.PortAs t c) : t.canOn c = s.canOn c := by
  unfold State.canOn
  rw [State.rbit_of_reg h.cfg, h.bus, h.shut]

theorem State.PortAs.canNodeId (h : s.PortAs t c) : t.canNodeId c = s.canNodeId c := State.fld_of_reg h.node 6 0

theorem State.PortAs.trans {u : State} (h : s.PortAs t c) (k : t.PortAs u c) : s.PortAs u c :=
  ⟨k.cfg.trans h.cfg, k.node.trans h.node, k.bus.trans h.bus, k.shut.trans h.shut⟩

end

section
variable (s : State) (c : Nat)

theorem State.portAs_setReg {a : Nat} (v : W32) (cfg : a ≠ Reg.canCfg c) (node : a ≠ Reg.canNode c) (status : a ≠ Reg.canStatus c)
    (life : a ≠ Reg.lifeState) : s.PortAs (s.setReg a v) c :=
  ⟨s.reg_setReg_ne v cfg.symm, s.reg_setReg_ne v node.symm, State.fld_of_reg (s.reg_setReg_ne v status.symm) 1 0,
    s.shut_setReg v life⟩

theorem State.portAs_setNmt (x : Nat) : s.PortAs (s.setNmt c x) c :=
  ⟨s.reg_setReg_ne _ (by lia), s.reg_setReg_ne _ (by lia), s.fld_setFld_out _ x (by omega) (by omega), s.shut_setReg _ (by lia)⟩

theorem State.portAs_count_rx : s.PortAs (s.count (Reg.canRxCnt c) 1) c :=
  s.portAs_setReg c _ (by lia) (by lia) (by lia) (by lia)

theorem State.nmt_setNmt {x : Nat} (small : x < 256) : (s.setNmt c x).nmt c = x :=
  (s.fld_setFld_same _ 8 x (by omega)).trans (Nat.mod_eq_of_lt small)

theorem State.reg_setNmt {a : Nat} (x : Nat) (ne : a ≠ Reg.canStatus c) : (s.setNmt c x).reg a = s.reg a := s.reg_setFld_ne _ _ _ ne

/-- A frame of a port that is on (R413). -/
theorem State.canSend_of_on (id : Nat) (fd : Bool) (b : List Byte) (on : s.canOn c = true) :
    s.canSend c id fd b = (s.emit (.can c id fd (fd && s.rbit (Reg.canCfg c) 2) b)).count (Reg.canTxCnt c) 1 := if_pos on

/-! ## NMT commands (R414) -/

/-- A repetition that clears TPDOs changes nothing else. -/
theorem State.clearTpdos_only (l : List Nat) :
    ∃ x, forEach l (fun t u => u.setTpdo (8 * c + t) {}) s = { s with tpdos := x } :=
  forEach_keeps (fun t => ∃ x, t = { s with tpdos := x }) _ _ _ (fun _ _ ⟨_, h⟩ => ⟨_, by rw [h]; rfl⟩) ⟨_, rfl⟩

theorem State.clearTpdos_tpdo (k : Nat) : (l : List Nat) → (s : State) → k ∈ l ∨ s.tpdo (8 * c + k) = {} →
    (forEach l (fun t u => u.setTpdo (8 * c + t) {}) s).tpdo (8 * c + k) = {}
  | [], s, h => h.resolve_left (List.not_mem_nil)
  | t :: l, s, h => by
    refine State.clearTpdos_tpdo k l (s.setTpdo (8 * c + t) {}) ?_
    by_cases same : k = t
    · exact .inr (same ▸ State.tpdo_setTpdo_same ..)
    · rw [State.tpdo_setTpdo_ne _ _ (by omega)]
      exact h.imp_left fun mem => (List.mem_cons.mp mem).resolve_left same

/-- Communication starts: the boot-up frame, and everything of the services cleared (R414). -/
theorem State.canBoot_spec (on : s.canOn c = true) :
    (s.canBoot c).nmt c = 0x7F ∧ (s.canBoot c).can c = { s.can c with sdo := none, heard := [], lost := [] } ∧
      (∀ k < 8, (s.canBoot c).tpdo (8 * c + k) = {}) ∧ (s.canBoot c).tx = s.tx ++ [.can c (0x700 + s.canNodeId c) false false [0]] := by
  obtain ⟨x, hx⟩ := (s.setCan c { s.can c with sdo := none, heard := [], lost := [] }).clearTpdos_only c (List.range 8)
  have tpdos (k : Nat) (hk : k < 8) := State.clearTpdos_tpdo c k (List.range 8)
    (s.setCan c { s.can c with sdo := none, heard := [], lost := [] }) (.inl (List.mem_range.mpr hk))
  have cans := s.can_setCan_same c { s.can c with sdo := none, heard := [], lost := [] }
  unfold State.canBoot
  dsimp only
  rw [hx] at tpdos ⊢
  generalize hu : { s.setCan c { s.can c with sdo := none, heard := [], lost := [] } with tpdos := x } = u at tpdos ⊢
  have same : s.PortAs u c := by subst hu; exact ⟨rfl, rfl, rfl, rfl⟩
  have tx : u.tx = s.tx := by subst hu; rfl
  have can : u.can c = { s.can c with sdo := none, heard := [], lost := [] } := by subst hu; exact cans
  have boot := same.trans (u.portAs_setNmt c 0)
  rw [State.canSend_of_on _ _ _ _ _ (boot.canOn.trans on), same.canNodeId]
  refine ⟨State.nmt_setNmt _ _ (by omega), can, tpdos, ?_⟩
  change u.tx ++ _ = _
  rw [tx, Bool.false_and]

/-- A frame for another node only counts. -/
theorem State.nmtCommand_other {node : Nat} (cmd : Nat) (on : s.canOn c = true) (some : node ≠ 0) (other : node ≠ s.canNodeId c) :
    s.nmtCommand c cmd node = s.count (Reg.canRxCnt c) 1 := by
  unfold State.nmtCommand
  rw [if_neg (by simp [on])]
  dsimp only
  rw [if_pos ⟨some, by rwa [(s.portAs_count_rx c).canNodeId]⟩]

/-- A port that is off takes no NMT frame. -/
theorem State.nmtCommand_off (cmd node : Nat) (off : s.canOn c = false) : s.nmtCommand c cmd node = s := if_pos (by simp [off])

theorem State.canReceive_off (f : CanFrame) (off : s.canOn c = false) : s.canReceive c f = s := if_pos (by simp [off])

theorem State.addressed {node : Nat} (mine : node = 0 ∨ node = s.canNodeId c) :
    ¬(node ≠ 0 ∧ node ≠ (s.count (Reg.canRxCnt c) 1).canNodeId c) := by
  rw [(s.portAs_count_rx c).canNodeId]
  tauto

section
variable {node : Nat} (on : s.canOn c = true) (mine : node = 0 ∨ node = s.canNodeId c)
include on mine

theorem State.nmtCommand_start : s.nmtCommand c 1 node = (s.count (Reg.canRxCnt c) 1).setNmt c 5 := by
  simp only [State.nmtCommand, on, Bool.not_true, Bool.false_eq_true, if_false, if_neg (s.addressed c mine)]

theorem State.nmtCommand_stop : s.nmtCommand c 2 node = (s.count (Reg.canRxCnt c) 1).setNmt c 4 := by
  simp only [State.nmtCommand, on, Bool.not_true, Bool.false_eq_true, if_false, if_neg (s.addressed c mine)]

theorem State.nmtCommand_preOperational : s.nmtCommand c 0x80 node = (s.count (Reg.canRxCnt c) 1).setNmt c 0x7F := by
  simp only [State.nmtCommand, on, Bool.not_true, Bool.false_eq_true, if_false, if_neg (s.addressed c mine)]

theorem State.nmtCommand_reset : s.nmtCommand c 0x82 node = (s.count (Reg.canRxCnt c) 1).canBoot c := by
  simp only [State.nmtCommand, on, Bool.not_true, Bool.false_eq_true, if_false, if_neg (s.addressed c mine)]

end

/-! ## Heartbeats (R414) -/

/-- A consumed node's heartbeat frame is heard by the port. -/
theorem State.canReceive_heartbeat {node : Nat} (x : Byte) (on : s.canOn c = true) (some : 0 < node) (small : node < 128)
    (consumed : s.consumes node = true) :
    s.canReceive c { id := BitVec.ofNat 29 (0x700 + node), ext := false, fd := false, brs := false, rtr := false, data := [x] } =
      (s.count (Reg.canRxCnt c) 1).heartbeat c node := by
  have id : (BitVec.ofNat 29 (0x700 + node)).toNat = 0x700 + node := by simp; omega
  have port : s.canNodeId c < 128 := field_lt _ 6 0
  simp only [State.canReceive, State.canService, on, id, Bool.not_true, Bool.false_eq_true, if_false, Bool.or_self, Bool.not_false,
    if_neg (show ¬(0x700 + node = 0 ∧ True) by omega), if_neg (show ¬(0x700 + node = 0x600 + s.canNodeId c ∧ True) by omega),
    Nat.add_sub_cancel_left, consumed]
  rw [if_pos ⟨by omega, by omega, trivial, trivial⟩]

theorem State.heartbeat_can (node : Nat) : node ∈ ((s.heartbeat c node).can c).heard ∧ node ∉ ((s.heartbeat c node).can c).lost := by
  unfold State.heartbeat
  rw [State.can_setCan_same]
  refine ⟨?_, fun mem => by simpa using (List.mem_filter.mp mem).2⟩
  dsimp only
  split
  · next heard => simpa using heard
  · exact List.mem_cons_self

end

/-! ## The obligation -/

/-- Settles O54: each command is its register writes, at addresses that differ and above the raises of a fault. -/
theorem canNetworkManagement : Obligations.CanNetworkManagement := by
  unfold Obligations.CanNetworkManagement
  refine ⟨?mine, ?other, ?off, ?produce, ?heard, ?loss, ?busOff, ?recovery, ?errstate⟩
  case mine =>
    intro s c node on mine
    have mine' : node.toNat = 0 ∨ node.toNat = s.canNodeId c := mine.imp_left (congrArg BitVec.toNat)
    have port := s.portAs_count_rx c
    obtain ⟨nmt, can, tpdo, tx⟩ := (s.count (Reg.canRxCnt c) 1).canBoot_spec c (port.canOn.trans on)
    refine ⟨⟨_, congrArg Host.Outcome.next (s.nmtCommand_start c on mine'), State.nmt_setNmt _ _ (by omega), ?_, ?_⟩,
      ⟨_, congrArg Host.Outcome.next (s.nmtCommand_stop c on mine'), State.nmt_setNmt _ _ (by omega)⟩,
      ⟨_, congrArg Host.Outcome.next (s.nmtCommand_preOperational c on mine'), State.nmt_setNmt _ _ (by omega)⟩,
      ⟨_, congrArg Host.Outcome.next (s.nmtCommand_reset c on mine'), nmt, by rw [can], by rw [can], fun k => tpdo k k.isLt, ?_⟩⟩
    · rw [State.reg_setNmt _ _ _ (by lia), State.count_reg]
      rfl
    · exact (port.trans (State.portAs_setNmt _ _ _)).bus
    · rw [tx, port.canNodeId]
      rfl
  case other =>
    intro s c node on some other
    have some' : node.toNat ≠ 0 := fun h => some (BitVec.eq_of_toNat_eq h)
    have rule (cmd : Nat) := congrArg (Host.Outcome.next (φ := Fault) (ρ := Refusal)) (s.nmtCommand_other c cmd on some' other)
    exact ⟨rule 1, rule 2, rule 0x80, rule 0x82⟩
  case off =>
    intro s c node f d off
    refine ⟨congrArg Host.Outcome.next (s.nmtCommand_off c _ _ off), congrArg Host.Outcome.next (s.nmtCommand_off c _ _ off),
      congrArg Host.Outcome.next (s.canReceive_off c f off), ?_, ?_⟩
    · change execSdoRequest c d s = _
      simp [execSdoRequest, off]
    · change execCanBusOff c s = _
      simp [execCanBusOff, off]
  case produce =>
    intro s c on timed booted
    have run : exec (.heartbeatProduce c) s =
        .next (s.canSend c (0x700 + s.canNodeId c) false [BitVec.ofNat 8 (s.nmt c)]) := if_pos ⟨timed, booted⟩
    rw [State.canSend_of_on _ _ _ _ _ on] at run
    exact ⟨_, run, rfl, State.count_reg ..⟩
  case heard =>
    intro s c node x on some consumed
    have some' : 0 < node.toNat := Nat.pos_of_ne_zero fun h => some (BitVec.eq_of_toNat_eq h)
    obtain ⟨heard, lost⟩ := (s.count (Reg.canRxCnt c) 1).heartbeat_can c node.toNat
    exact ⟨_, congrArg Host.Outcome.next (s.canReceive_heartbeat c x on some' node.isLt consumed), heard, lost,
      s.reg_count_ne 1 (show Reg.canRxqLevel c ≠ Reg.canRxCnt c by lia)⟩
  case loss =>
    intro s c node on consumed heard present
    let x : CanSt := { s.can c with lost := node.toNat :: (s.can c).lost }
    have lost : node.toNat ∈ ((s.setCan c x).can c).lost := by rw [State.can_setCan_same]; exact List.mem_cons_self
    have run : exec (.heartbeatLoss c node) s = if (s.setCan c x).rbit Reg.canFault (2 + c) then .next ((s.setCan c x).event 235)
        else .next ((s.setCan c x).fault Reg.canFault (4 * 2 ^ c.val)) := by
      change execHeartbeatLoss c node s = _
      unfold execHeartbeatLoss
      dsimp only
      rw [if_neg (by simp [on, consumed, heard, present])]
    rw [run]
    split
    · next stands =>
      have keeps := ((s.setCan c x).event_raiseOnly 235).keeps (·.can c) (fun _ _ _ _ _ _ => rfl)
      refine ⟨_, rfl, ?_, by rwa [keeps]⟩
      rwa [State.rbit_of_reg ((s.setCan c x).reg_event_of_out (by lia) (by omega))]
    · have keeps := ((s.setCan c x).fault_raiseOnly Reg.canFault (4 * 2 ^ c.val)).keeps (·.can c) (fun _ _ _ _ _ _ => rfl)
      refine ⟨_, rfl, State.rbit_fault_set _ (by lia) (by omega) ?_, by rwa [keeps]⟩
      exact (by decide : ∀ c : Port2, (4 * 2 ^ c.val).testBit (2 + c.val) = true) c
  case busOff =>
    intro s c on
    refine ⟨_, if_pos on, ?_, State.rbit_fault_set _ (by lia) (by omega) (Nat.testBit_two_pow_self)⟩
    exact (State.fld_of_reg (State.reg_fault_ne _ _ (by lia) (by lia)) 1 0).trans (State.fld_setFld_same _ _ _ _ (by omega))
  case recovery =>
    intro s c en auto off
    refine ⟨_, if_pos ⟨en, auto, off⟩, ?_, State.reg_setReg_same .., ?_⟩
    · exact (State.fld_of_reg (State.reg_setReg_ne _ _ (by lia)) 1 0).trans (State.fld_setFld_same _ _ _ _ (by omega))
    · unfold State.nmt
      rw [State.fld_of_reg (State.reg_setReg_ne _ _ (by lia)), State.fld_setFld_out _ _ _ (by omega) (by omega)]
  case errstate =>
    intro s c tec rec on ht hr
    have run : exec (.canErrstateChange c tec rec) s =
        .next ((s.setReg (Reg.canErrcnt c) (BitVec.ofNat 32 (tec % 512 * 2 ^ 16 + rec % 256))).setFld (Reg.canStatus c) 1 0
          (if 128 ≤ tec ∨ 128 ≤ rec then 1 else 0)) := if_neg (by simp [on])
    have counters : State.reg ((s.setReg (Reg.canErrcnt c) (BitVec.ofNat 32 (tec % 512 * 2 ^ 16 + rec % 256))).setFld
        (Reg.canStatus c) 1 0 (if 128 ≤ tec ∨ 128 ≤ rec then 1 else 0)) (Reg.canErrcnt c) =
        BitVec.ofNat 32 (tec % 512 * 2 ^ 16 + rec % 256) :=
      (State.reg_setFld_ne _ _ _ _ (by lia)).trans (State.reg_setReg_same ..)
    have width : (tec % 512 * 2 ^ 16 + rec % 256) % 2 ^ 32 = tec * 2 ^ 16 + rec := by omega
    refine ⟨_, run, ?_, ?_, (State.fld_setFld_same _ _ _ _ (by omega)).trans ?_, ?_⟩
    · rw [State.fld, counters, field, BitVec.toNat_ofNat, width]
      omega
    · rw [State.fld, counters, field, BitVec.toNat_ofNat, width]
      omega
    · split <;> rfl
    · exact (State.fld_setFld_out _ _ _ (by omega) (by omega)).trans (State.fld_of_reg (State.reg_setReg_ne _ _ (by lia)) 15 8)

end Sys2Proof.Machine
end

section
/-!
PROOFS. The CAN objects: SDO uploads and aborts, the PDOs, and the receive queue (R413 to R418).
-/
namespace Sys2Proof.Machine

/-! ## Registers of the front end under service of DRAM -/

/-- A register below the controllers and outside the blocks a raise touches is kept by what a controller's service does. -/
theorem State.regKept_closed (s : State) {a : Nat} (out : a < 0xD0000 ∨ 0xF0000 ≤ a) (low : a < 0x800000) (m : Nat) :
    ServeClosed m (fun t => t.reg a = s.reg a) where
  push _ _ _ h := h
  bank _ _ _ h := h
  seed t v h := (t.reg_setReg_ne v (by lia)).trans h
  refreshed t h := (t.reg_count_ne 1 (by lia)).trans h
  queue _ _ _ h := h
  written _ _ _ h := h
  delivered _ _ h := h
  logged _ _ h := h
  counted t b mem h := by
    simp only [List.mem_cons, List.not_mem_nil, or_false] at mem
    exact (t.reg_count_ne 1 (by lia)).trans h
  fault t k h := (t.reg_fault_ne k out (by lia)).trans h

theorem State.reg_dramWriteMany {a : Nat} (out : a < 0xD0000 ∨ 0xF0000 ≤ a) (low : a < 0x800000) :
    (ws : List W72) → (at' : Nat) → (s : State) → (State.dramWriteMany ws at' s).reg a = s.reg a
  | [], _, _ => rfl
  | w :: ws, at', s => (State.reg_dramWriteMany out low ws (at' + 1) (s.dramWrite at' w false)).trans
      (ServeClosed.dramWrite (State.regKept_closed s out low) (s := s) rfl at' w false)

/-! ## Reading the dictionary past the receive counter -/

section
variable (s : State) (c : Nat) (v : W32)

theorem rxCnt_not_rs : ∀ c : Port2, Reg.canRxCnt c ∉ allRs := by decide +kernel

/-- The receive counter is no fault register. -/
theorem State.anyFault_setRxCnt (c : Port2) : (s.setReg (Reg.canRxCnt c) v).anyFault = s.anyFault := by
  rw [State.anyFault, State.anyFault, Bool.eq_iff_iff, List.any_eq_true, List.any_eq_true]
  refine exists_congr fun a => and_congr_right fun mem => ?_
  have ne : a ≠ Reg.canRxCnt c := fun same => rxCnt_not_rs c (same ▸ mem)
  rw [State.fld_of_reg (s.reg_setReg_ne v ne)]

theorem State.cobDefault_setRxCnt (idx : Nat) : (s.setReg (Reg.canRxCnt c) v).cobDefault idx = s.cobDefault idx := by
  have node (k : Nat) := State.fld_of_reg (s.reg_setReg_ne v (show Reg.canNode k ≠ Reg.canRxCnt c by lia)) 6 0
  simp only [State.cobDefault, node]

theorem State.odNum_setRxCnt (c : Port2) (idx sub : Nat) : (s.setReg (Reg.canRxCnt c) v).odNum idx sub = s.odNum idx sub := by
  have kept {a : Nat} (ne : a ≠ Reg.canRxCnt c) (hi lo : Nat) := State.fld_of_reg (s.reg_setReg_ne v ne) hi lo
  have odv (i j : Nat) : (s.setReg (Reg.canRxCnt c) v).odv i j = s.odv i j := rfl
  have word (z w : Nat) : (s.setReg (Reg.canRxCnt c) v).zoneWord z w = s.zoneWord z w := rfl
  have status (z w : Nat) : (s.setReg (Reg.canRxCnt c) v).zoneStatus z w = s.zoneStatus z w := rfl
  have zone (z : Nat) : (s.setReg (Reg.canRxCnt c) v).zone z = s.zone z := rfl
  have shots (ch : Nat) : (s.setReg (Reg.canRxCnt c) v).ringShots ch = s.ringShots ch := rfl
  have last (ch : Nat) : (s.setReg (Reg.canRxCnt c) v).ringLast ch = s.ringLast ch := rfl
  have oldest (ch : Nat) : (s.setReg (Reg.canRxCnt c) v).ringOldest ch = s.ringOldest ch := rfl
  have live (ch k : Nat) : (s.setReg (Reg.canRxCnt c) v).channelLive ch k = s.channelLive ch k := rfl
  have strain (ch : Nat) : (s.setReg (Reg.canRxCnt c) v).strainPerPu ch = s.strainPerPu ch := rfl
  have ptp (n : Nat) : (s.setReg (Reg.canRxCnt c) v).ptp n = s.ptp n := rfl
  unfold State.odNum
  simp only [odv, word, status, zone, shots, last, oldest, live, strain, ptp, State.cobDefault_setRxCnt, State.anyFault_setRxCnt,
    kept (show Reg.sysChipId ≠ Reg.canRxCnt c by lia), kept (show Reg.sysBootWhy ≠ Reg.canRxCnt c by lia)]
  split
  · rfl
  split
  · rfl
  split
  · next loop => exact kept (by lia) _ _
  split
  · rfl
  split
  · rfl
  split
  · next head => rw [kept (by lia), kept (by lia)]
  · rfl

theorem State.odRead_setRxCnt (c : Port2) (idx sub ofs : Nat) :
    (s.setReg (Reg.canRxCnt c) v).odRead idx sub ofs = s.odRead idx sub ofs := by
  have str (i j : Nat) : (s.setReg (Reg.canRxCnt c) v).odString i j = s.odString i j := rfl
  simp only [State.odRead, State.odNum_setRxCnt, str]

end

/-! ## SDO (R414, R415) -/

section
variable (s : State) (c : Nat)

/-- An answer of the SDO server of a port that is on, which ends or sets the transfer. -/
theorem State.sdoSend_spec (x : CanSt) (b : List Byte) (on : s.canOn c = true) :
    ((s.setCan c x).sdoSend c b).od = s.od ∧ ((s.setCan c x).sdoSend c b).can c = x ∧
      ((s.setCan c x).sdoSend c b).tx = s.tx ++ [.can c (0x580 + s.canNodeId c) false false ((b ++ List.replicate 8 0).take 8)] := by
  have on' : (s.setCan c x).canOn c = true := on
  rw [State.sdoSend, State.canSend_of_on _ _ _ _ _ on']
  exact ⟨rfl, s.can_setCan_same c x, rfl⟩

/-- A request of a served port counts and goes to its SDO server. -/
theorem State.exec_sdoRequest_served (c : Port2) {l : List Byte} (served : s.sdoServed c = true) (len : l.length = 8) :
    exec (.sdoRequest c l) s = .next ((s.count (Reg.canRxCnt c) 1).sdoRequest c l) := by
  have port := s.portAs_count_rx c
  have on : s.canOn c = true := (Bool.and_eq_true_iff.mp served).1
  have nmt : (s.count (Reg.canRxCnt c) 1).nmt c = s.nmt c := State.fld_of_reg (s.reg_count_ne 1 (by lia)) 15 8
  have served' : (s.count (Reg.canRxCnt c) 1).sdoServed c = true := by
    rw [State.sdoServed, port.canOn, nmt]
    exact served
  change execSdoRequest c l s = _
  unfold execSdoRequest
  rw [if_neg (by simp [on])]
  exact if_pos ⟨served', len⟩

end

/-- The index and sub-index bytes of a request come back in its answer. -/
theorem leBytes_index (a b : Byte) : leBytes (a.toNat + 256 * b.toNat) 2 = [a, b] := by
  have low : BitVec.ofNat 8 (a.toNat + 256 * b.toNat) = a := by bv_omega
  have high : BitVec.ofNat 8 ((a.toNat + 256 * b.toNat) / 256) = b := by bv_omega
  simp only [leBytes, low, high]

theorem leBytes_byte (a : Byte) : leBytes a.toNat 1 = [a] := by
  have low : BitVec.ofNat 8 a.toNat = a := by bv_omega
  simp only [leBytes, low]

/-- Eight bytes of a frame that holds fewer are padded with 0. -/
theorem take_padded (l : List Byte) (small : l.length ≤ 8) :
    (l ++ List.replicate 8 0).take 8 = l ++ List.replicate (8 - l.length) 0 := by
  rw [List.take_append, List.take_of_length_le small, List.take_replicate, Nat.min_eq_left (by omega)]

/-! ## PDOs (R416, R417) -/

theorem foldl_add_eq_sum {α : Type} (g : α → Nat) (l : List α) (n : Nat) :
    l.foldl (fun n e => n + g e) n = n + (l.map g).sum := by
  induction l generalizing n with
  | nil => rfl
  | cons e l ih => rw [List.foldl_cons, ih, List.map_cons, List.sum_cons, Nat.add_assoc]

/-- The row of the loops' VALUE: a UNSIGNED16 that is read and written, and not stored. -/
theorem loopValue_row : ∀ n : Fin 8, (odRow (0x4430 + n.val) 1).map (fun r => (odCode r.type, r.acc, r.range)) =
    some (6, .rw, none) ∧ odRows (0x4430 + n.val) ≠ [] ∧ mapOf (0x4430 + n.val) = none ∧ odWriteRole (0x4430 + n.val) 1 = 1 := by
  decide +kernel

/-- A loop's VALUE is written by role OPERATOR with two bytes in range (R369, R400). -/
theorem State.odWrite_loopValue (s : State) (n : Fin 8) {role : Nat} {data : List Byte} (may : 1 ≤ role) (full : s.minimal = false)
    (len : data.length = 2) :
    s.odWrite role (0x4430 + n.val) 1 6 0 false data = s.loopEntryWrite n (ofLeBytes data) := by
  obtain ⟨row, rows, map, needs⟩ := loopValue_row n
  obtain ⟨r, found, r_eq⟩ := Option.map_eq_some_iff.mp row
  obtain ⟨code, acc, range⟩ : odCode r.type = 6 ∧ r.acc = .rw ∧ r.range = none := by simpa using r_eq
  have type : r.type = .u16 := by
    cases h : r.type <;> simp [h, odCode] at code ⊢
  have state : s.odState (0x4430 + n.val) 1 (ofLeBytes data) = false := by
    unfold State.odState
    rw [if_neg (by omega), if_neg (by omega), if_neg (by omega), if_neg (by omega)]
  have inRange : s.odInRange r (0x4430 + n.val) 1 (ofLeBytes data) = true := by
    unfold State.odInRange
    simp [range, type, show ¬(0x4430 + n.val < 0x3000) by omega, show ¬(0x4430 + n.val < 0x4420) by omega]
  have taken : s.odRefuse role (0x4430 + n.val) 1 6 0 data = none := by
    simp [State.odRefuse, rows, found, acc, needs, show ¬role < 1 by omega, full, type, odCode, odLengthOk, odBytesOf, len, map, state, inRange]
  unfold State.odWrite
  rw [taken]
  change s.odApply (0x4430 + n.val) 1 0 false data = _
  unfold State.odApply
  dsimp only
  rw [if_neg (by omega), if_pos (by omega), Nat.add_sub_cancel_left]

theorem State.reg_loopForm (s : State) (n : Nat) {a : Nat} (target : a ≠ Reg.loopTarget n) (dac : a ≠ Reg.loopDac n)
    (status : a ≠ Reg.loopStatus) : (s.loopForm n).reg a = s.reg a := by
  unfold State.loopForm
  dsimp only
  rw [State.reg_setRbit_ne _ _ _ status, State.reg_setRbit_ne _ _ _ status, State.reg_setRbit_ne _ _ _ status,
    State.reg_setReg_ne _ _ dac, State.reg_setReg_ne _ _ target]

theorem State.tx_loopForm (s : State) (n : Nat) : (s.loopForm n).tx = s.tx := by
  simp only [State.loopForm, State.setRbit, State.setReg_tx]

/-- A VALUE in range is written, ends a timeout and forms the target (R369, R370). -/
theorem State.loopEntryWrite_eq (s : State) (n : Fin 8) {v : Nat} (range : v ≤ 25000) :
    ∃ x, s.loopEntryWrite n v = (0, ((s.setReg (Reg.loopValue n) (BitVec.ofNat 32 v)).setLoopOut n x).loopForm n) := by
  have same : (0x104 + 0x20 * n.val - 0x100) / 0x20 = n := by omega
  unfold State.loopEntryWrite
  dsimp only
  rw [if_neg (by omega)]
  unfold loopEffect
  rw [if_neg (by omega), if_pos (by omega), same, if_pos (by omega)]
  exact ⟨_, rfl⟩

/-- What a write of a loop's VALUE leaves of the registers: VALUE itself, and those beyond the loops. -/
theorem State.loopEntryWrite_spec (s : State) (n : Fin 8) {v : Nat} (range : v ≤ 25000) :
    ∃ t, s.loopEntryWrite n v = (0, t) ∧ t.fld (Reg.loopValue n) 15 0 = v ∧ (∀ a, 0xF0000 ≤ a → t.reg a = s.reg a) ∧
      t.tx = s.tx := by
  obtain ⟨x, run⟩ := s.loopEntryWrite_eq n range
  refine ⟨_, run, ?_, fun a high => ?_, ?_⟩
  · rw [State.fld, State.reg_loopForm _ _ (by lia) (by lia) (by lia), State.reg_setLoopOut, State.reg_setReg_same, field,
      BitVec.toNat_ofNat]
    omega
  · rw [State.reg_loopForm _ _ (by lia) (by lia) (by lia), State.reg_setLoopOut, State.reg_setReg_ne _ _ (by lia)]
  · rw [State.tx_loopForm, State.setLoopOut_tx, State.setReg_tx]

/-! ## The receive queue (R418) -/

section
variable (s : State) (c : Nat) (f : CanFrame)

theorem State.filterMatch_count_rx : (s.count (Reg.canRxCnt c) 1).filterMatch c f = s.filterMatch c f := by
  have fid (k : Nat) := s.reg_count_ne 1 (show Reg.canFid0 k + 0x80 * c ≠ Reg.canRxCnt c by lia)
  have mask (k : Nat) := s.reg_count_ne 1 (show Reg.canFmask0 k + 0x80 * c ≠ Reg.canRxCnt c by lia)
  simp only [State.filterMatch, fid, mask]

/-- A frame that no service consumes is counted, and queued where a filter matches it. -/
theorem State.canReceive_unserved (on : s.canOn c = true) (none : s.canService c f = none) :
    s.canReceive c f = if s.filterMatch c f then (s.count (Reg.canRxCnt c) 1).canQueue c f else s.count (Reg.canRxCnt c) 1 := by
  unfold State.canReceive
  rw [if_neg (by simp [on]), none]
  exact if_congr (by rw [s.filterMatch_count_rx]) rfl rfl

/-- The queue at its end loses the frame. -/
theorem State.canQueue_full (full : 64 ≤ s.fld (Reg.canRxqLevel c) 6 0) :
    s.canQueue c f = (s.count (Reg.canLostCnt c) 1).fault Reg.canFault (16 * 2 ^ c) := if_pos full

theorem State.canQueue_spec (room : s.fld (Reg.canRxqLevel c) 6 0 < 64) :
    (s.canQueue c f).reg (Reg.canRxqLevel c) = BitVec.ofNat 32 (s.fld (Reg.canRxqLevel c) 6 0 + 1) ∧
      (s.canQueue c f).reg Reg.canFault = s.reg Reg.canFault := by
  unfold State.canQueue
  dsimp only
  rw [if_neg (by omega)]
  refine ⟨State.reg_setReg_same .., (State.reg_setReg_ne _ _ (by lia)).trans ?_⟩
  rw [State.reg_setCan]
  split
  · rfl
  · exact State.reg_dramWriteMany (by lia) (by lia) _ _ s

end

/-! ## The obligation -/

/-- Settles O55: the SDO server reads the dictionary past the receive counter, a PDO's bytes meet one entry, and the ring of the receive
queue leaves the port's registers. -/
theorem canObjectsAndReceiveQueue : Obligations.CanObjectsAndReceiveQueue := by
  refine ⟨?upload, ?block, ?eventTimer, ?transmit, ?notSent, ?short, ?value, ?unapplied, ?queued, ?unmatched, ?extended⟩
  case upload =>
    intro s c cmd a b sub x v served cmdIs len read some small
    have on : s.canOn c = true := (Bool.and_eq_true_iff.mp served).1
    have port := s.portAs_count_rx c
    obtain ⟨ty, w⟩ := v
    replace small : w.length ≤ 4 := small
    have read' : (s.count (Reg.canRxCnt c) 1).odRead (a.toNat + 256 * b.toNat) sub.toNat 0 = .inr (ty, w) :=
      (s.odRead_setRxCnt _ c _ _ 0).trans read
    have idx : leAt ([cmd, a, b, sub] ++ x) 1 2 = a.toNat + 256 * b.toNat := rfl
    have up : (s.count (Reg.canRxCnt c) 1).sdoRequest c ([cmd, a, b, sub] ++ x) =
        State.sdoSend ((s.count (Reg.canRxCnt c) 1).setCan c { (s.count (Reg.canRxCnt c) 1).can c with sdo := none }) c
          ([BitVec.ofNat 8 (0x43 + (4 - w.length) * 4)] ++ ([a, b] ++ [sub]) ++ w) := by
      simp only [State.sdoRequest, show leAt ([cmd, a, b, sub] ++ x) 0 1 = cmd.toNat from rfl, idx,
        show leAt ([cmd, a, b, sub] ++ x) 3 1 = sub.toNat from rfl, cmdIs, State.sdoUpload, read', leBytes_index, leBytes_byte]
      exact if_pos ⟨small, some⟩
    obtain ⟨od, can, tx⟩ := (s.count (Reg.canRxCnt c) 1).sdoSend_spec c { (s.count (Reg.canRxCnt c) 1).can c with sdo := none }
      ([BitVec.ofNat 8 (0x43 + (4 - w.length) * 4)] ++ ([a, b] ++ [sub]) ++ w) (port.canOn.trans on)
    refine ⟨_, (s.exec_sdoRequest_served c served (by simp [len])).trans (congrArg _ up), od, by rw [can], tx.trans ?_⟩
    rw [port.canNodeId, show [BitVec.ofNat 8 (0x43 + (4 - w.length) * 4)] ++ ([a, b] ++ [sub]) ++ w =
      [BitVec.ofNat 8 (0x43 + (4 - w.length) * 4), a, b, sub] ++ w from rfl, take_padded _ (by simp; omega)]
    simp [State.count]
  case block =>
    intro s c cmd a b sub x served high len
    have on : s.canOn c = true := (Bool.and_eq_true_iff.mp served).1
    have port := s.portAs_count_rx c
    have abort : (s.count (Reg.canRxCnt c) 1).sdoRequest c ([cmd, a, b, sub] ++ x) =
        State.sdoSend ((s.count (Reg.canRxCnt c) 1).setCan c { (s.count (Reg.canRxCnt c) 1).can c with sdo := none }) c
          ([0x80] ++ [a, b] ++ [sub] ++ leBytes abCommand.toNat 4) := by
      have small := cmd.isLt
      have block : cmd.toNat / 32 = 5 ∨ cmd.toNat / 32 = 6 ∨ cmd.toNat / 32 = 7 := by omega
      have idx : leAt ([cmd, a, b, sub] ++ x) 1 2 = a.toNat + 256 * b.toNat := rfl
      rcases block with block | block | block <;>
        simp only [State.sdoRequest, show leAt ([cmd, a, b, sub] ++ x) 0 1 = cmd.toNat from rfl, idx,
          show leAt ([cmd, a, b, sub] ++ x) 3 1 = sub.toNat from rfl, block, State.sdoAbort, leBytes_index, leBytes_byte]
    obtain ⟨od, can, tx⟩ := (s.count (Reg.canRxCnt c) 1).sdoSend_spec c { (s.count (Reg.canRxCnt c) 1).can c with sdo := none }
      ([0x80] ++ [a, b] ++ [sub] ++ leBytes abCommand.toNat 4) (port.canOn.trans on)
    refine ⟨_, (s.exec_sdoRequest_served c served (by simp [len])).trans (congrArg _ abort), od, tx.trans ?_⟩
    rw [port.canNodeId]
    rfl
  case eventTimer =>
    intro s c k timed valid oper
    have ask : s.tpdoAsk c k = some (s.setTpdo (8 * c + k) { s.tpdo (8 * c + k) with asked := true }) := if_neg (by simp [oper]; omega)
    have run : exec (.tpdoEventTimer c k) s = .next ((s.tpdoAsk c k).getD s) := if_neg timed
    rw [ask] at run
    refine ⟨_, run, ?_, rfl⟩
    rw [Option.getD_some, State.tpdo_setTpdo_same]
  case transmit =>
    intro s c k asked on oper valid late
    have on' : (s.setTpdo (8 * c + k) { asked := false, sentAt := some s.time.up }).canOn c = true := on
    refine ⟨_, if_pos ⟨asked, on, oper, valid, late⟩, ?_⟩
    rw [State.canSend_of_on _ _ _ _ _ on']
    refine ⟨?_, rfl, rfl⟩
    change ((s.setTpdo (8 * c + k) { asked := false, sentAt := some s.time.up }).tpdo (8 * c + k)).asked = false
    rw [State.tpdo_setTpdo_same]
  case notSent =>
    intro s c k off
    refine if_neg fun ⟨asked, _, oper, _⟩ => ?_
    rcases off with off | off <;> simp_all
  case short =>
    intro s c r data applied short
    have run : exec (.rpdoReceive c r data) s = .next ((s.count (Reg.canRxCnt c) 1).fault Reg.canFault (64 * 2 ^ c.val)) := by
      refine (if_pos applied).trans (congrArg Host.Outcome.next (if_pos ?_))
      rw [foldl_add_eq_sum (fun e : Nat × Nat × Nat => e.2.2), Nat.zero_add]
      exact short
    have kept := (s.count (Reg.canRxCnt c) 1).fault_raiseOnly Reg.canFault (64 * 2 ^ c.val)
    refine ⟨_, run, State.rbit_fault_set _ (by lia) (by omega) ?_, kept.keeps State.od fun _ _ _ _ _ _ => rfl,
      kept.keeps State.zones fun _ _ _ _ _ _ => rfl⟩
    exact (by decide : ∀ c : Port2, (64 * 2 ^ c.val).testBit (6 + c.val) = true) c
  case value =>
    intro s c r n data applied map may full len range
    have role : (s.count (Reg.canRxCnt c) 1).fld (Reg.canCfg c) 18 16 = s.fld (Reg.canCfg c) 18 16 :=
      State.fld_of_reg (s.reg_count_ne 1 (by lia)) 18 16
    obtain ⟨row, found, row_eq⟩ := Option.map_eq_some_iff.mp (loopValue_row n).1
    obtain ⟨code, -⟩ : odCode row.type = 6 ∧ row.acc = .rw ∧ row.range = none := by simpa using row_eq
    have full' : (s.count (Reg.canRxCnt c) 1).minimal = false :=
      (State.rbit_of_reg (s.reg_count_ne 1 (by lia)) _).trans full
    obtain ⟨t, wrote, value, kept, tx⟩ := (s.count (Reg.canRxCnt c) 1).loopEntryWrite_spec n range
    have run : exec (.rpdoReceive c r data) s = .next t := by
      refine (if_pos applied).trans (congrArg Host.Outcome.next ?_)
      have map' : (s.count (Reg.canRxCnt c) 1).mapping (0x1600 + 4 * c + r) = [(0x4430 + n.val, 1, 2)] := map
      unfold State.rpdo
      dsimp only
      rw [map', if_neg (by simp; omega)]
      simp only [State.rpdoWrite, found, code, role]
      rw [(s.count (Reg.canRxCnt c) 1).odWrite_loopValue n may full' (by simp [len]), wrote]
    exact ⟨t, run, value, (kept _ (by lia)).trans (s.count_reg _ 1), (kept _ (by lia)).trans (s.reg_count_ne 1 (by lia)), tx⟩
  case unapplied =>
    intro s c r data off
    exact if_neg (by simp [off])
  case queued =>
    intro s c f on none takes
    have level : (s.count (Reg.canRxCnt c) 1).fld (Reg.canRxqLevel c) 6 0 = s.fld (Reg.canRxqLevel c) 6 0 :=
      State.fld_of_reg (s.reg_count_ne 1 (by lia)) 6 0
    have run : exec (.canRxFrame c f) s = .next ((s.count (Reg.canRxCnt c) 1).canQueue c f) := by
      change Host.Outcome.next (s.canReceive c f) = _
      rw [s.canReceive_unserved c f on none, if_pos takes]
    refine ⟨_, run, fun room => ?_, fun full => ?_⟩
    · obtain ⟨up, fault⟩ := (s.count (Reg.canRxCnt c) 1).canQueue_spec c f (by rwa [level])
      rw [up, fault, level]
      exact ⟨rfl, s.reg_count_ne 1 (by lia)⟩
    · rw [State.canQueue_full _ _ _ (by rwa [level])]
      refine ⟨State.rbit_fault_set _ (by lia) (by omega) ?_, State.RaiseOnly.keeps (State.fault_raiseOnly _ _ _) State.dram
        fun _ _ _ _ _ _ => rfl, ?_⟩
      · exact (by decide : ∀ c : Port2, (16 * 2 ^ c.val).testBit (4 + c.val) = true) c
      · rw [State.reg_fault_ne _ _ (by lia) (by lia), State.count_reg, s.reg_count_ne 1 (by lia)]
        rfl
  case unmatched =>
    intro s c f on none misses
    change Host.Outcome.next (s.canReceive c f) = _
    rw [s.canReceive_unserved c f on none, if_neg (by simp [misses])]
  case extended =>
    intro s c f ext
    exact if_pos (by simp [ext])

end Sys2Proof.Machine
end

section
/-!
PROOFS. What the actions of a zone leave: frames to the estate, the event queue, remote writes and captures (R259 to R269). Each
predicate that survives the updates they consist of survives the action.
-/
namespace Sys2Proof.Machine

/-! ## Frames to the estate -/

/-- P is kept by the updates that a frame to another device consists of. -/
structure SendClosed (P : State → Prop) : Prop where
  emit : ∀ t o, P t → P (t.emit o)
  sent : ∀ t n, P t → P (t.count (Reg.netPortTxFrames n) 1)
  net : ∀ (t : State) n k, P t → P { t with net := n, fresh := k }

section
variable {P : State → Prop} (c : SendClosed P) {s : State}
include c

theorem SendClosed.datagram (h : P s) (ip : IpAddr) (b : List Byte) : P (s.datagram ip b) := by
  unfold State.datagram
  split
  · exact forEach_keeps P _ _ _ (fun n t k => c.sent _ n (c.emit _ _ k)) h
  · exact h

theorem SendClosed.estateOpen (h : P s) (dev : Nat) : P (s.estateOpen dev) :=
  c.datagram (c.net s _ _ h) _ _

theorem SendClosed.estateSend (h : P s) (e : EstateSt) (type id : Nat) (b : List Byte) : P (s.estateSend e type id b) :=
  c.datagram (c.net s _ _ h) _ _

theorem SendClosed.estateWrite (h : P s) (dev id : Nat) (b : List Byte) : P (s.estateWrite dev id b) := by
  unfold State.estateWrite
  split
  · split
    · exact c.estateSend h _ _ _ _
    · exact c.estateOpen h dev
  · exact c.estateOpen h dev

theorem SendClosed.remoteFrame (h : P s) (z : Nat) (r : RemoteSt) : P (s.remoteFrame z r) := c.estateWrite h _ _ _

end

/-! ## The event queue -/

/-- P is kept by the updates that a record's way into the event queue consists of, with the vectors of V. -/
structure EventClosed (V : Nat → Prop) (P : State → Prop) : Prop where
  event : ∀ t v, V v → P t → P (t.event v)
  fault : ∀ t m, P t → P (t.fault Reg.zoneFault m)
  queued : ∀ (t : State) q l n, P t → P { t with evq := q, evLost := l, evSeq := n }
  shown : ∀ t, ∀ a ∈ [Reg.zoneEvqLost, Reg.zoneEvqStat, Reg.zoneCapBusyLo, Reg.zoneCapBusyHi], ∀ v, P t → P (t.setReg a v)

theorem EventClosed.evPush {V : Nat → Prop} {P : State → Prop} (c : EventClosed V P) {s : State} (h : P s) {ch : Nat}
    (full : V 238) (own : V (4 * ch + 3)) (rec : W32 → List W72) : P (s.evPush ch rec) := by
  unfold State.evPush
  extract_lets level owes need lostRec afterLost pushed shown wm filled
  have lost_kept : P afterLost := by
    unfold afterLost
    split
    · exact c.queued s _ _ _ h
    · exact h
  have pushed_kept : P pushed := c.queued afterLost _ _ _ lost_kept
  have shown_kept : P shown := by
    unfold shown
    split
    · exact c.shown _ _ (by simp) _ pushed_kept
    · exact pushed_kept
  have full_kept : P filled := by
    unfold filled
    split
    · exact c.shown _ _ (by simp) _ shown_kept
    · exact shown_kept
  split
  · exact c.event _ _ full (c.fault _ _ (c.shown _ _ (by simp) _ (c.queued s _ _ _ h)))
  · exact c.event _ _ own full_kept

/-- A record enters a queue that has room and owes no LOST record. -/
theorem State.evPush_room (s : State) (ch : Nat) (rec : W32 → List W72) (none : s.evLost = 0) (room : s.evq.length < 1024) :
    (s.evPush ch rec).evq = s.evq ++ [rec s.evSeq] ∧ (s.evPush ch rec).evSeq = s.evSeq + 1 := by
  unfold State.evPush
  extract_lets level owes need lostRec afterLost pushed shown wm full
  have owes_no : owes = false := by simp [owes, none]
  have after : afterLost = s := by simp [afterLost, owes_no]
  have need_one : need = 1 := by simp [need, owes_no]
  have shown_q : shown.evq = pushed.evq ∧ shown.evSeq = pushed.evSeq := by
    unfold shown
    split <;> exact ⟨rfl, rfl⟩
  have full_q : full.evq = shown.evq ∧ full.evSeq = shown.evSeq := by
    unfold full
    split <;> exact ⟨rfl, rfl⟩
  rw [if_neg (by omega)]
  refine ⟨((full.event_raiseOnly _).keeps State.evq fun _ _ _ _ _ _ => rfl).trans ?_,
    ((full.event_raiseOnly _).keeps State.evSeq fun _ _ _ _ _ _ => rfl).trans ?_⟩
  · rw [full_q.1, shown_q.1, ← after]
  · rw [full_q.2, shown_q.2, ← after]

/-! ## The actions -/

/-- P is kept by the updates that the actions of zone z consist of (R260). -/
structure ActsClosed (z : Nat) (P : State → Prop) : Prop extends SendClosed P, EventClosed (· < 256) P where
  serve : ∀ m, ServeClosed m P
  tpdo : ∀ t k x, P t → P (t.setTpdo k x)
  asks : ∀ t a, P t → P (t.setZone z { t.zone z with asks := a })
  last : ∀ t a, P t → P (t.setZone z { t.zone z with last := a })
  remote : ∀ t a, P t → P (t.setZone z { t.zone z with remote := a })
  toSelf : ∀ (t : State) l, P t → P { t with selfWrites := l }
  cap : ∀ t k x, P t → P (t.setCap k x)

theorem ServeClosed.dramWriteMany {P : State → Prop} (c : ∀ m, ServeClosed m P) :
    (ws : List W72) → (a : Nat) → {s : State} → P s → P (State.dramWriteMany ws a s)
  | [], _, _, h => h
  | w :: ws, a, _, h => ServeClosed.dramWriteMany c ws (a + 1) (ServeClosed.dramWrite c h a w false)

theorem ServeClosed.dramCopy {P : State → Prop} (c : ∀ m, ServeClosed m P) :
    (ws : List (W72 × Bool)) → (a : Nat) → {s : State} → P s → P (State.dramCopy ws a s)
  | [], _, _, h => h
  | w :: ws, a, _, h => ServeClosed.dramCopy c ws (a + 1) (ServeClosed.dramWrite c h a w.1 w.2)

section
variable {z : Nat} {P : State → Prop} (c : ActsClosed z P) {s : State}
include c

theorem ActsClosed.remotePut (h : P s) (r : RemoteSt) : P (s.remotePut z r) := by
  have put := c.remote s (some r) h
  unfold State.remotePut
  dsimp only
  split
  · exact c.toSelf _ _ put
  · exact c.estateWrite (c.emit _ _ put) _ _ _

theorem ActsClosed.remoteSend (h : P s) : P (s.remoteSend z) := c.remotePut (c.net s _ _ h) _

theorem ActsClosed.tpdoAsk (h : P s) (d i : Nat) : P ((s.tpdoAsk d i).getD s) := by
  unfold State.tpdoAsk
  split
  · exact h
  · exact c.tpdo s _ _ h

theorem ActsClosed.capStart (h : P s) (x : ChangeSt) : P (s.capStart z x) := by
  unfold State.capStart
  dsimp only
  split
  · exact c.fault _ _ (c.evPush h (by omega) (by have := zoneCh_lt (s.zoneWord z 0); omega) _)
  · exact ServeClosed.dramWriteMany c.serve _ _ (c.shown _ _ (by simp) _ (c.shown _ _ (by simp) _ (c.cap s _ _ h)))

theorem ActsClosed.zoneChanged (h : P s) (old : Nat) (e : EvalSt) : P (s.zoneChanged z old e) := by
  unfold State.zoneChanged
  extract_lets x w4 ch asks cap tpdo fail asked acts change zone last event void remote
  have asks_kept : P asks := c.asks s true h
  have asked_kept : P asked := by
    unfold asked tpdo
    split
    · exact c.tpdoAsk asks_kept _ _
    · exact asks_kept
  have last_kept : P last := c.last asked change asked_kept
  have event_kept : P event := by
    unfold event
    split
    · exact c.evPush last_kept (by omega) (by have := zoneCh_lt (s.zoneWord z 0); omega) _
    · exact last_kept
  have void_kept : P void := by
    unfold void
    split
    · exact c.fault _ _ event_kept
    · exact event_kept
  have remote_kept : P remote := by
    unfold remote
    split
    · exact c.remoteSend void_kept
    · exact void_kept
  split
  · exact c.capStart remote_kept _
  · exact remote_kept

end

/-! ## Remote writes (R263) -/

theorem sendClosed_zoneSts (x : Store ZoneSt) : SendClosed fun t => t.zoneSts = x where
  emit _ _ h := h
  sent _ _ h := h
  net _ _ _ h := h

/-- Frames leave after what was sent before. -/
theorem sendClosed_tx (l : List Out) : SendClosed fun t => ∃ out, t.tx = l ++ out where
  emit t o h := h.imp' (· ++ [o]) fun out eq => by rw [State.emit, eq, List.append_assoc]
  sent _ _ h := h
  net _ _ _ h := h

theorem State.zone_of_sts {s t : State} (same : t.zoneSts = s.zoneSts) (z : Nat) : t.zone z = s.zone z := by
  rw [State.zone, State.zone, same]

theorem State.cap_of_caps {s t : State} (same : t.caps = s.caps) (k : Nat) : t.cap k = s.cap k := by
  rw [State.cap, State.cap, same]

theorem eventClosed_zoneSts (x : Store ZoneSt) : EventClosed (fun _ => True) fun t => t.zoneSts = x where
  event t v _ h := ((t.event_raiseOnly v).keeps State.zoneSts fun _ _ _ _ _ _ => rfl).trans h
  fault t m h := ((t.fault_raiseOnly _ m).keeps State.zoneSts fun _ _ _ _ _ _ => rfl).trans h
  queued _ _ _ _ h := h
  shown _ _ _ _ h := h

section
variable (s : State) (z : Nat)

/-- A WRITE to another device stays the zone's, and leaves. -/
theorem State.remotePut_away (r : RemoteSt) (away : field (s.zoneWord z 6) 71 56 ≠ s.odv 0x2000 1) :
    ((s.remotePut z r).zone z).remote = some r ∧ ∃ out, (s.remotePut z r).tx = s.tx ++
      .remote z (field (s.zoneWord z 6) 71 56) (field (s.zoneWord z 6) 55 40) (field (s.zoneWord z 6) 39 32) r.wide r.value :: out := by
  have run : s.remotePut z r = State.remoteFrame ((s.setZone z { s.zone z with remote := some r }).emit (.remote z
      (field (s.zoneWord z 6) 71 56) (field (s.zoneWord z 6) 55 40) (field (s.zoneWord z 6) 39 32) r.wide r.value)) z r := if_neg away
  have put := s.zone_setZone_same z { s.zone z with remote := some r }
  rw [run]
  have tx : (s.setZone z { s.zone z with remote := some r }).tx = s.tx := rfl
  generalize s.setZone z { s.zone z with remote := some r } = u at put tx ⊢
  generalize Out.remote z (field (s.zoneWord z 6) 71 56) (field (s.zoneWord z 6) 55 40) (field (s.zoneWord z 6) 39 32) r.wide
    r.value = o
  obtain ⟨out, sent⟩ := (sendClosed_tx (u.emit o).tx).remoteFrame (s := u.emit o) ⟨[], (List.append_nil _).symm⟩ z r
  have kept := (sendClosed_zoneSts u.zoneSts).remoteFrame (s := u.emit o) rfl z r
  refine ⟨?_, out, ?_⟩
  · rw [State.zone_of_sts (s := u) kept, put]
  · rw [sent, State.emit, tx, List.append_assoc]
    rfl

/-- A WRITE to this device waits to be applied. -/
theorem State.remotePut_self (r : RemoteSt) (own : field (s.zoneWord z 6) 71 56 = s.odv 0x2000 1) :
    ((s.remotePut z r).zone z).remote = some r ∧
      ⟨z, field (s.zoneWord z 6) 55 40, field (s.zoneWord z 6) 39 32, r.wide, r.value⟩ ∈ (s.remotePut z r).selfWrites := by
  have run : s.remotePut z r = { s.setZone z { s.zone z with remote := some r } with
      selfWrites := (s.selfWrites.filter fun x => x.zone ≠ z) ++
        [⟨z, field (s.zoneWord z 6) 55 40, field (s.zoneWord z 6) 39 32, r.wide, r.value⟩] } := if_pos own
  rw [run]
  exact ⟨congrArg ZoneSt.remote (s.zone_setZone_same z _), List.mem_append_right _ (List.mem_singleton.mpr rfl)⟩

/-- A WRITE that failed is no longer the zone's, is counted and shown. -/
theorem State.remoteFail_spec : ((s.remoteFail z).zone z).remote = none ∧ (s.remoteFail z).rbit Reg.zoneFault 3 = true ∧
    (s.remoteFail z).reg Reg.zoneRemFailCnt = s.reg Reg.zoneRemFailCnt + 1 := by
  unfold State.remoteFail
  dsimp only
  have count (x : W32) : EventClosed (· < 256) fun t => t.reg Reg.zoneRemFailCnt = x :=
    { event := fun t v low h => (t.reg_event_of_out (by lia) low).trans h
      fault := fun t m h => (t.reg_fault_ne m (by lia) (by lia)).trans h
      queued := fun _ _ _ _ h => h
      shown := fun t a mem v h => (t.reg_setReg_ne v (fun same => by subst same; simp at mem)).trans h }
  have put := s.zone_setZone_same z { s.zone z with remote := none }
  have old : (s.setZone z { s.zone z with remote := none }).reg Reg.zoneRemFailCnt = s.reg Reg.zoneRemFailCnt := rfl
  generalize s.setZone z { s.zone z with remote := none } = u at put old ⊢
  generalize evRecord 5 z (zoneCh (u.zoneWord z 0)) (s.zone z).last false (evMeasure (s.zone z).last.ev) = rec
  have zoneSts := (eventClosed_zoneSts u.zoneSts).evPush (s := u) (ch := zoneCh (u.zoneWord z 0)) rfl trivial trivial rec
  have low := zoneCh_lt (u.zoneWord z 0)
  have cnt := (count (u.reg Reg.zoneRemFailCnt)).evPush (s := u) (ch := zoneCh (u.zoneWord z 0)) rfl (by omega) (by omega) rec
  generalize u.evPush (zoneCh (u.zoneWord z 0)) rec = w at zoneSts cnt ⊢
  refine ⟨?_, State.rbit_fault_set _ (by lia) (by omega) (by decide), ?_⟩
  · have kept := ((w.count Reg.zoneRemFailCnt 1).fault_raiseOnly Reg.zoneFault (2 ^ 3)).keeps State.zoneSts fun _ _ _ _ _ _ => rfl
    rw [State.zone_of_sts (kept.trans zoneSts), put]
  · rw [State.reg_fault_ne _ _ (by lia) (by lia), State.count_reg, cnt, old]
    rfl

end

/-! ## Captures (R265, R266) -/

theorem serveClosed_caps (x : Store (Option CapSt)) (m : Nat) : ServeClosed m fun t => t.caps = x where
  push _ _ _ h := h
  bank _ _ _ h := h
  seed _ _ h := h
  refreshed _ h := h
  queue _ _ _ h := h
  written _ _ _ h := h
  delivered _ _ h := h
  logged _ _ h := h
  counted _ _ _ h := h
  fault t k h := ((t.fault_raiseOnly _ k).keeps State.caps fun _ _ _ _ _ _ => rfl).trans h

theorem eventClosed_caps (x : Store (Option CapSt)) : EventClosed (fun _ => True) fun t => t.caps = x where
  event t v _ h := ((t.event_raiseOnly v).keeps State.caps fun _ _ _ _ _ _ => rfl).trans h
  fault t m h := ((t.fault_raiseOnly _ m).keeps State.caps fun _ _ _ _ _ _ => rfl).trans h
  queued _ _ _ _ h := h
  shown _ _ _ _ h := h

theorem ServeClosed.slotRead {P : State → Prop} (c : ∀ m, ServeClosed m P) {s : State} (h : P s) (ch i w : Nat) :
    P (s.slotRead ch i w).2 := by
  have before := ServeClosed.dramRead c h (s.odv (odHist ch) 4 + 4 * (i % max (s.ringShots ch) 1) + 1)
  unfold State.slotRead
  dsimp only
  split
  all_goals exact ServeClosed.dramRead c (ServeClosed.dramReadMany c _ _ (ServeClosed.dramReadMany c _ _ before)) _

theorem State.caps_capShow (s : State) : s.capShow.caps = s.caps := by
  simp only [State.capShow, State.setReg_caps]

/-- The end of a capture, written and queued, leaves the capture slots. -/
theorem State.caps_captureWritten (s : State) (l : List W72) (a b : Nat) (w w' : W72) (ch : Nat) (rec : W32 → List W72) :
    ((((State.dramWriteMany l a s).dramWrite b w false).dramWrite (b + 1) w' false).evPush ch rec).caps = s.caps := by
  have kept := serveClosed_caps s.caps
  have written := ServeClosed.dramWrite kept (ServeClosed.dramWrite kept (ServeClosed.dramWriteMany kept l a (s := s) rfl) b w false)
    (b + 1) w' false
  exact (eventClosed_caps s.caps).evPush written trivial trivial rec

/-- Settles O42: a WRITE's frames and the captures' words leave the zones, the capture slots and the counters alone. -/
theorem zoneWritesCapturesAndQueue : Obligations.ZoneWritesCapturesAndQueue := by
  refine ⟨?again, ?againSelf, ?fails, ?acked, ?aborted, ?refresh, ?copy, ?done, ?busy, ?free, ?pop⟩
  case again =>
    intro s z r stands left away
    obtain ⟨remote, out, tx⟩ := s.remotePut_away z { r with tries := r.tries + 1 } away
    refine ⟨_, out, ?_, remote, tx⟩
    change execRemoteWriteTimeout z s = _
    rw [execRemoteWriteTimeout, stands]
    exact congrArg Host.Outcome.next (if_pos left)
  case againSelf =>
    intro s z r stands left own
    obtain ⟨remote, waits⟩ := s.remotePut_self z { r with tries := r.tries + 1 } own
    refine ⟨_, ?_, remote, waits⟩
    change execRemoteWriteTimeout z s = _
    rw [execRemoteWriteTimeout, stands]
    exact congrArg Host.Outcome.next (if_pos left)
  case fails =>
    intro s z r stands spent
    refine ⟨_, ?_, (s.estateDrop (field (s.zoneWord z 6) 71 56)).remoteFail_spec z⟩
    change execRemoteWriteTimeout z s = _
    rw [execRemoteWriteTimeout, stands]
    exact congrArg Host.Outcome.next (if_neg (by omega))
  case acked =>
    intro s z r stands
    change Host.Outcome.next (s.remoteAck z 0) = _
    rw [State.remoteAck, if_neg (by simp [stands]), if_pos rfl]
  case aborted =>
    intro s z r abort stands bad
    refine ⟨_, ?_, s.remoteFail_spec z⟩
    change Host.Outcome.next (s.remoteAck z abort) = _
    rw [State.remoteAck, if_neg (by simp [stands]), if_neg bad]
  case refresh =>
    intro s z on acts timed away
    let u : State := { s with net := { s.net with reqId := (s.net.reqId + 1) % 2 ^ 16 } }
    obtain ⟨remote, out, tx⟩ := u.remotePut_away z
      { wide := (s.remoteValue z).1, value := (s.remoteValue z).2, reqId := (s.net.reqId + 1) % 2 ^ 16 } away
    exact ⟨_, out, _, if_pos ⟨on, acts, timed⟩, remote, rfl, rfl, tx⟩
  case copy =>
    intro s k c slot copying going left first complete
    have lost : b2n (s.slotRead c.ch c.next c.w).1.isNone = if (s.slotRead c.ch c.next c.w).1 = none then 1 else 0 := by
      cases (s.slotRead c.ch c.next c.w).1 <;> rfl
    change ∃ t, execCaptureShotCopy k s = .next t ∧ _
    unfold execCaptureShotCopy
    rw [slot]
    dsimp only
    rw [if_neg (by simp [copying, going]; exact ⟨left, by simpa [Option.isSome_iff_ne_none] using first, complete⟩)]
    refine ⟨_, rfl, ?_⟩
    rw [State.cap_of_caps (ServeClosed.dramCopy (serveClosed_caps _) _ _ rfl), State.cap_setCap_same, lost]
  case done =>
    intro s k c slot copying last
    change ∃ t, execCaptureDone k s = .next t ∧ _
    unfold execCaptureDone
    rw [slot]
    dsimp only
    rw [if_neg (by rcases last with past | ended <;> simp_all)]
    have put := s.cap_setCap_same k (some { c with copying := false })
    generalize s.setCap k (some { c with copying := false }) = u at put ⊢
    refine ⟨_, rfl, (State.cap_of_caps ?_ k).trans put, fun torn => ?_⟩
    · split
      · exact ((State.fault_raiseOnly _ _ _).keeps State.caps fun _ _ _ _ _ _ => rfl).trans (u.caps_captureWritten ..)
      · exact u.caps_captureWritten ..
    · rw [if_pos (by simpa using torn)]
      exact State.rbit_fault_set _ (by lia) (by omega) (by decide)
  case busy =>
    intro s q v c up slot copying
    refine congrArg Host.Outcome.next ((if_neg (by simp [up])).trans ?_)
    rw [State.capFree, slot]
    exact if_pos copying
  case free =>
    intro s q v c up slot still
    have run : exec (.capFree q v) s = .next (s.setCap (field v 5 0) none).capShow := by
      refine congrArg Host.Outcome.next ((if_neg (by simp [up])).trans ?_)
      rw [State.capFree, slot]
      exact if_neg (by simp [still])
    have shown (k : Nat) : (s.setCap (field v 5 0) none).capShow.cap k = (s.setCap (field v 5 0) none).cap k :=
      State.cap_of_caps (State.caps_capShow _) k
    refine ⟨_, run, (shown _).trans (s.cap_setCap_same _ none), fun k ne => (shown k).trans (s.cap_setCap_ne none ne)⟩
  case pop =>
    intro s q up
    exact congrArg Host.Outcome.next (if_neg (by simp [up]))

end Sys2Proof.Machine
end

section
/-!
PROOFS. The zone table and the state machine (R252 to R270): an action touches no zone but its own, and of its own only the requests,
the last change and the WRITE.
-/
namespace Sys2Proof.Machine

/-! ## What an action leaves -/

/-- The table, the other zones, and of zone z all but what an action records are as in s. -/
structure State.Acted (z : Nat) (s t : State) : Prop where
  zones : t.zones = s.zones
  others : ∀ y, y ≠ z → t.zone y = s.zone y
  own : ∃ a l r, t.zone z = { s.zone z with asks := a, last := l, remote := r }
  evalCnt : t.reg Reg.zoneEvalCnt = s.reg Reg.zoneEvalCnt
  ctrl : t.reg Reg.zoneCtrl = s.reg Reg.zoneCtrl

section
variable {z : Nat} {s t u : State}

theorem State.Acted.refl (z : Nat) (s : State) : State.Acted z s s := ⟨rfl, fun _ _ => rfl, ⟨_, _, _, rfl⟩, rfl, rfl⟩

/-- An update that keeps the table, the zones and the two registers. -/
theorem State.Acted.same (h : State.Acted z s t) (zones : u.zones = t.zones) (sts : u.zoneSts = t.zoneSts)
    (evalCnt : u.reg Reg.zoneEvalCnt = t.reg Reg.zoneEvalCnt) (ctrl : u.reg Reg.zoneCtrl = t.reg Reg.zoneCtrl) : State.Acted z s u where
  zones := zones.trans h.zones
  others y ne := (State.zone_of_sts sts y).trans (h.others y ne)
  own := h.own.imp fun _ => Exists.imp fun _ => Exists.imp fun _ eq => (State.zone_of_sts sts z).trans eq
  evalCnt := evalCnt.trans h.evalCnt
  ctrl := ctrl.trans h.ctrl

/-- A change of the zone's own record. -/
theorem State.Acted.setZone (h : State.Acted z s t) {x : ZoneSt} (own : ∃ a l r, x = { t.zone z with asks := a, last := l, remote := r }) :
    State.Acted z s (t.setZone z x) where
  zones := h.zones
  others y ne := (t.zone_setZone_ne x ne).trans (h.others y ne)
  own := by
    obtain ⟨a, l, r, rfl⟩ := own
    obtain ⟨a', l', r', eq⟩ := h.own
    exact ⟨a, l, r, by rw [t.zone_setZone_same, eq]⟩
  evalCnt := h.evalCnt
  ctrl := h.ctrl

theorem State.Acted.fault (h : State.Acted z s t) {a : Nat} (m : Nat) (evalCnt : a ≠ Reg.zoneEvalCnt) (ctrl : a ≠ Reg.zoneCtrl) :
    State.Acted z s (t.fault a m) :=
  h.same ((t.fault_raiseOnly a m).keeps State.zones fun _ _ _ _ _ _ => rfl)
    ((t.fault_raiseOnly a m).keeps State.zoneSts fun _ _ _ _ _ _ => rfl)
    (t.reg_fault_ne m (by lia) evalCnt.symm) (t.reg_fault_ne m (by lia) ctrl.symm)

theorem State.Acted.setReg (h : State.Acted z s t) {a : Nat} (v : W32) (evalCnt : a ≠ Reg.zoneEvalCnt) (ctrl : a ≠ Reg.zoneCtrl) :
    State.Acted z s (t.setReg a v) :=
  h.same rfl rfl (t.reg_setReg_ne v evalCnt.symm) (t.reg_setReg_ne v ctrl.symm)

theorem State.Acted.event (h : State.Acted z s t) {v : Nat} (low : v < 256) : State.Acted z s (t.event v) :=
  h.same ((t.event_raiseOnly v).keeps State.zones fun _ _ _ _ _ _ => rfl)
    ((t.event_raiseOnly v).keeps State.zoneSts fun _ _ _ _ _ _ => rfl)
    (t.reg_event_of_out (by lia) low) (t.reg_event_of_out (by lia) low)

end

theorem State.acted_serve (z : Nat) (s : State) (m : Nat) : ServeClosed m (State.Acted z s) where
  push _ _ _ h := h.same rfl rfl rfl rfl
  bank _ _ _ h := h.same rfl rfl rfl rfl
  seed _ v h := h.setReg v (by lia) (by lia)
  refreshed _ h := h.setReg _ (by lia) (by lia)
  queue _ _ _ h := h.same rfl rfl rfl rfl
  written _ _ _ h := h.same rfl rfl rfl rfl
  delivered _ _ h := h.same rfl rfl rfl rfl
  logged _ _ h := h.same rfl rfl rfl rfl
  counted _ a mem h := by
    simp only [List.mem_cons, List.not_mem_nil, or_false] at mem
    exact h.setReg _ (by lia) (by lia)
  fault _ k h := h.fault k (by lia) (by lia)

theorem State.acted_closed (z : Nat) (s : State) : ActsClosed z (State.Acted z s) where
  emit _ _ h := h.same rfl rfl rfl rfl
  sent _ _ h := h.setReg _ (by lia) (by lia)
  net _ _ _ h := h.same rfl rfl rfl rfl
  event _ _ low h := h.event low
  fault _ m h := h.fault m (by lia) (by lia)
  queued _ _ _ _ h := h.same rfl rfl rfl rfl
  shown _ a mem v h := by
    simp only [List.mem_cons, List.not_mem_nil, or_false] at mem
    exact h.setReg v (by lia) (by lia)
  serve := State.acted_serve z s
  tpdo _ _ _ h := h.same rfl rfl rfl rfl
  asks _ _ h := h.setZone ⟨_, _, _, rfl⟩
  last _ _ h := h.setZone ⟨_, _, _, rfl⟩
  remote _ _ h := h.setZone ⟨_, _, _, rfl⟩
  toSelf _ _ h := h.same rfl rfl rfl rfl
  cap _ _ _ h := h.same rfl rfl rfl rfl

/-- What the actions of a change leave (R260). -/
theorem State.zoneChanged_acted (s : State) (z old : Nat) (e : EvalSt) : State.Acted z s (s.zoneChanged z old e) :=
  (s.acted_closed z).zoneChanged (.refl z s) old e

/-! ## A fault of the zone engine stays -/

theorem zoneFault_kept (i : Nat) (hi : i < 24) (z : Nat) : ActsClosed z fun t => t.rbit Reg.zoneFault i = true where
  emit _ _ h := h
  sent t _ h := (State.rbit_of_reg (t.reg_setReg_ne _ (by lia)) i).trans h
  net _ _ _ h := h
  event t _ low h := (State.rbit_of_reg (t.reg_event_of_out (by lia) low) i).trans h
  fault _ m h := State.fault_rbit_kept (raiseSpares_of_out (by lia)) m hi h
  queued _ _ _ _ h := h
  shown t a mem v h := by
    simp only [List.mem_cons, List.not_mem_nil, or_false] at mem
    exact (State.rbit_of_reg (t.reg_setReg_ne v (by lia)) i).trans h
  serve m :=
    { push := fun _ _ _ h => h
      bank := fun _ _ _ h => h
      seed := fun t v h => (State.rbit_of_reg (t.reg_setReg_ne v (by lia)) i).trans h
      refreshed := fun t h => (State.rbit_of_reg (t.reg_count_ne 1 (by lia)) i).trans h
      queue := fun _ _ _ h => h
      written := fun _ _ _ h => h
      delivered := fun _ _ h => h
      logged := fun _ _ h => h
      counted := fun t a mem h => by
        simp only [List.mem_cons, List.not_mem_nil, or_false] at mem
        exact (State.rbit_of_reg (t.reg_count_ne 1 (by lia)) i).trans h
      fault := fun t k h => (State.rbit_of_reg (t.reg_fault_ne k (by lia) (by lia)) i).trans h }
  tpdo _ _ _ h := h
  asks _ _ h := h
  last _ _ h := h
  remote _ _ h := h
  toSelf _ _ h := h
  cap _ _ _ h := h

/-- A change to VOID sets its fault (R258). -/
theorem State.zoneChanged_void (s : State) (z old : Nat) (e : EvalSt) (is : (s.zone z).st = 3) :
    (s.zoneChanged z old e).rbit Reg.zoneFault 4 = true := by
  have kept := zoneFault_kept 4 (by decide) z
  unfold State.zoneChanged
  extract_lets x w4 ch asks cap tpdo fail asked acts change zone last event void remote
  have shows : void.rbit Reg.zoneFault 4 = true := by
    unfold void
    rw [if_pos is]
    exact State.rbit_fault_set _ (by lia) (by decide) (by decide)
  have remote_shows : remote.rbit Reg.zoneFault 4 = true := by
    unfold remote
    split
    · exact kept.remoteSend shows
    · exact shows
  split
  · exact kept.capStart remote_shows _
  · exact remote_shows

/-! ## One evaluation (R258) -/

/-- The record of zone z after an evaluation, its actions apart. -/
def State.zoneEvaled (s : State) (z : Nat) (e : EvalSt) : ZoneSt :=
  let x := { s.zone z with clipped := e.clipped, index := e.index }
  e.m.elim (voidMove (s.zoneVoid z) x) fun m => zoneMove (zoneBelow (s.zoneWord z 0)) (s.zoneWarn z) (s.zoneAlarm z) (s.zoneHyst z)
    (zoneOn (s.zoneWord z 0)) (zoneOff (s.zoneWord z 0)) { x with m := m } m

section
variable (s : State) (z : Nat) (e : EvalSt)

theorem State.zoneEval_eq : s.zoneEval z e =
    if (s.zoneEvaled z e).st = (s.zone z).st then (s.count Reg.zoneEvalCnt 1).setZone z (s.zoneEvaled z e)
    else ((s.count Reg.zoneEvalCnt 1).setZone z (s.zoneEvaled z e)).zoneChanged z (s.zone z).st e := by
  unfold State.zoneEval State.zoneEvaled
  cases e.m <;> rfl

theorem State.zoneEval_acted :
    State.Acted z ((s.count Reg.zoneEvalCnt 1).setZone z (s.zoneEvaled z e)) (s.zoneEval z e) := by
  rw [State.zoneEval_eq]
  split
  · exact .refl z _
  · exact State.zoneChanged_acted _ z _ e

/-- An evaluation moves the zone's record, and its actions change only what they record. -/
theorem State.zoneEval_zone : ∃ a l r, (s.zoneEval z e).zone z = { s.zoneEvaled z e with asks := a, last := l, remote := r } := by
  obtain ⟨a, l, r, own⟩ := (s.zoneEval_acted z e).own
  exact ⟨a, l, r, by rw [own, State.zone_setZone_same]⟩

theorem State.zoneEval_counts : (s.zoneEval z e).reg Reg.zoneEvalCnt = s.reg Reg.zoneEvalCnt + 1 :=
  (s.zoneEval_acted z e).evalCnt.trans (s.count_reg Reg.zoneEvalCnt 1)

/-- An evaluation that changes no state queues nothing. -/
theorem State.zoneEval_quiet (still : (s.zoneEvaled z e).st = (s.zone z).st) :
    (s.zoneEval z e).zone z = s.zoneEvaled z e ∧ (s.zoneEval z e).evq = s.evq := by
  rw [State.zoneEval_eq, if_pos still]
  exact ⟨State.zone_setZone_same .., rfl⟩

theorem State.zoneEvaled_some {m : Int} (measure : e.m = some m) : s.zoneEvaled z e =
    zoneMove (zoneBelow (s.zoneWord z 0)) (s.zoneWarn z) (s.zoneAlarm z) (s.zoneHyst z) (zoneOn (s.zoneWord z 0))
      (zoneOff (s.zoneWord z 0)) { s.zone z with clipped := e.clipped, index := e.index, m := m } m := by
  rw [State.zoneEvaled, measure]
  rfl

theorem State.zoneEvaled_none (measure : e.m = none) : s.zoneEvaled z e =
    voidMove (s.zoneVoid z) { s.zone z with clipped := e.clipped, index := e.index } := by
  rw [State.zoneEvaled, measure]
  rfl

end

section
variable {warn alarm m : Int} (hyst on off : Nat) {x : ZoneSt}

/-- Below WARN a NORMAL zone stays so. -/
theorem zoneMove_calm (normal : x.st = 0) (low : m < warn) (order : warn ≤ alarm) :
    zoneMove false warn alarm hyst on off x m = { x with vc := 0, cu := 0, cd := 0 } := by
  have notAlarm : ¬alarm ≤ m := by omega
  have notWarn : ¬warn ≤ m := by omega
  simp [zoneMove, normal, notAlarm, notWarn]

/-- A short run beyond ALARM counts. -/
theorem zoneMove_counts (normal : x.st = 0) (high : alarm ≤ m) (short : x.cu + 1 < on) :
    zoneMove false warn alarm hyst on off x m = { x with vc := 0, cu := x.cu + 1, cd := 0 } := by
  simp [zoneMove, normal, high, show ¬on ≤ x.cu + 1 by omega]

/-- A run of ON evaluations beyond ALARM raises the zone to ALARM. -/
theorem zoneMove_alarm (normal : x.st = 0) (high : alarm ≤ m) (long : on ≤ x.cu + 1) :
    zoneMove false warn alarm hyst on off x m = { x with vc := 0, st := 2, cu := 0, cd := 0 } := by
  simp [zoneMove, normal, high, long]

/-- Every measure is kept and ends a run without one. -/
theorem zoneMove_measures (below : Bool) :
    (zoneMove below warn alarm hyst on off x m).vc = 0 ∧ (zoneMove below warn alarm hyst on off x m).m = x.m := by
  unfold zoneMove
  extract_lets beyond back up
  split
  · exact ⟨rfl, rfl⟩
  · split
    · split <;> exact ⟨rfl, rfl⟩
    · split
      · split <;> exact ⟨rfl, rfl⟩
      · exact ⟨rfl, rfl⟩

end

theorem voidMove_counts (limit : Nat) (x : ZoneSt) : (voidMove limit x).vc = x.vc + 1 := by
  unfold voidMove
  dsimp only
  split <;> rfl

/-- The run that reaches VOID_LIMIT makes the zone VOID. -/
theorem voidMove_void {limit : Nat} {x : ZoneSt} (last : limit = x.vc + 1) (not : x.st < 3) :
    voidMove limit x = { x with vc := x.vc + 1, prev := x.st, st := 3 } := by
  unfold voidMove
  dsimp only
  rw [if_pos ⟨by omega, by omega, by omega⟩]

/-! ## A change whose only action is EVENT (R267) -/

theorem State.zoneActs_of_event {s : State} {z : Nat} (act : s.zoneAct z = 1) {i : Nat} (hi : i < 6) :
    s.zoneActs z i = decide (i = 0) := by
  have bit : (s.zoneAct z).testBit i = s.zoneActs z i := by
    rw [State.zoneAct, State.zoneActs, field, Nat.testBit_mod_two_pow, Nat.testBit_div_two_pow, BitVec.testBit_toNat]
    simp [hi, Nat.add_comm]
  rw [← bit, act]
  interval_cases i <;> decide

/-- The change is recorded and one record of it is queued. -/
theorem State.zoneChanged_event (s : State) (z old : Nat) (e : EvalSt) (act : s.zoneAct z = 1) (known : (s.zone z).st ≠ 3) :
    ∃ (u : State) (c : ChangeSt), c.old = old ∧ c.new = (s.zone z).st ∧ u.zone z = { s.zone z with asks := true, last := c } ∧
      u.evq = s.evq ∧ u.evLost = s.evLost ∧ u.evSeq = s.evSeq ∧ s.zoneChanged z old e =
      u.evPush (zoneCh (s.zoneWord z 0)) (evRecord 1 z (zoneCh (s.zoneWord z 0)) c false (evMeasure e)) := by
  have acts (i : Nat) (hi : i < 6) : (s.zoneWord z 4).getLsbD (64 + i) = decide (i = 0) := State.zoneActs_of_event act hi
  unfold State.zoneChanged
  extract_lets x w4 ch asks cap tpdo fail asked acts' change zone last event void remote
  have noCap : cap = false := by
    have off : asks.zoneActs z 5 = false := acts 5 (by omega)
    rw [show cap = (asks.zoneActs z 5 && asks.capOn z x.st) from rfl, off, Bool.false_and]
  have noTpdo : tpdo = none := if_neg (by simp [show asks.zoneActs z 3 = false from acts 3 (by omega)])
  have asked_eq : asked = asks := by rw [show asked = tpdo.getD asks from rfl, noTpdo]; rfl
  have event_eq : event = last.evPush ch (evRecord 1 z ch change false (evMeasure e)) := by
    have on : last.zoneActs z 0 = true := by
      change (asked.zoneWord z 4).getLsbD (64 + 0) = true
      rw [asked_eq]
      exact acts 0 (by omega)
    exact if_pos on
  have void_eq : void = event := if_neg known
  have remote_eq : remote = void := by
    have queued := (last.acted_closed z).evPush (.refl z last) (ch := ch) (by omega)
      (by have := zoneCh_lt (s.zoneWord z 0); omega) (evRecord 1 z ch change false (evMeasure e))
    have off : void.zoneActs z 4 = false := by
      rw [void_eq, event_eq, State.zoneActs, State.zoneWord, queued.zones]
      change (asked.zoneWord z 4).getLsbD (64 + 4) = false
      rw [asked_eq]
      exact acts 4 (by omega)
    exact if_neg (by simp [off])
  rw [if_neg (by simp [noCap]), remote_eq, void_eq, event_eq]
  have last_eq : last = asks.setZone z { asks.zone z with last := change } := by rw [← asked_eq]
  refine ⟨last, change, rfl, rfl, ?_, by rw [last_eq]; rfl, by rw [last_eq]; rfl, by rw [last_eq]; rfl, rfl⟩
  rw [last_eq, State.zone_setZone_same, State.zone_setZone_same]

section
variable {z ch : Nat} (c : ChangeSt) (short : Bool) (w2 : W72) (seq : W32)

/-- The fields of a STATE record: its kind, the zone and the states (R267). -/
theorem evRecord_state (zone : z < 4096) (new : c.new = 2) (old : c.old = 0) :
    field ((evRecord 1 z ch c short w2 seq).getD 1 0) 71 68 = 1 ∧ field ((evRecord 1 z ch c short w2 seq).getD 1 0) 63 52 = z ∧
      field ((evRecord 1 z ch c short w2 seq).getD 1 0) 51 50 = 2 ∧ field ((evRecord 1 z ch c short w2 seq).getD 1 0) 49 48 = 0 := by
  have flag (b : Bool) : b2n b ≤ 1 := by cases b <;> decide
  have f1 := flag c.ev.clipped
  have f2 := flag short
  have f3 := flag c.ev.unsync
  have f4 := flag c.ev.timeStep
  simp only [evRecord, List.getD_cons_succ, List.getD_cons_zero, new, old, field, BitVec.toNat_ofNat]
  refine ⟨?_, ?_, ?_, ?_⟩ <;> omega

theorem evRecord_seq (kind : Nat) : field ((evRecord kind z ch c short w2 seq).getD 3 0) 31 0 = seq.toNat := by
  simp only [evRecord, List.getD_cons_succ, List.getD_cons_zero, field, BitVec.toNat_ofNat]
  omega

end

/-! ## Roles follow the table (R219) -/

/-- Only what loading and unloading vendor roles touches differs. -/
def State.RolesOnly (s t : State) : Prop :=
  ∃ co cl re r v x m n f, t = { s with cores := co, clusters := cl, returning := re, regs := r, vecs := v, tx := x, msix := m,
                                         sessions := n, fresh := f }

theorem State.RolesOnly.trans {s t u : State} (h : s.RolesOnly t) (k : t.RolesOnly u) : s.RolesOnly u := by
  obtain ⟨_, _, _, _, _, _, _, _, _, rfl⟩ := h
  obtain ⟨_, _, _, _, _, _, _, _, _, rfl⟩ := k
  exact ⟨_, _, _, _, _, _, _, _, _, rfl⟩

theorem State.RaiseOnly.rolesOnly {s t : State} (h : s.RaiseOnly t) : s.RolesOnly t := by
  obtain ⟨_, _, _, _, _, _, rfl⟩ := h
  exact ⟨_, _, _, _, _, _, _, _, _, rfl⟩

/-- A part of the state that roles do not touch. -/
theorem State.RolesOnly.keeps {α : Type} {s t : State} (h : s.RolesOnly t) (f : State → α)
    (same : ∀ co cl re r v x m n k, f { s with cores := co, clusters := cl, returning := re, regs := r, vecs := v, tx := x, msix := m,
                                                sessions := n, fresh := k } = f s) : f t = f s := by
  obtain ⟨co, cl, re, r, v, x, m, n, k, rfl⟩ := h
  exact same co cl re r v x m n k

theorem State.bounceBack_rolesOnly (s : State) (m : Msg) (why : Nat) : s.RolesOnly (s.bounceBack m why) := by
  have toHost (x : ClusterSt) (was : Bool) : s.RolesOnly ((s.setCluster (msgScl m) x).mailbox (msgScl m) was) := by
    have set : s.RolesOnly (s.setCluster (msgScl m) x) := ⟨_, _, _, _, _, _, _, _, _, rfl⟩
    cases was with
    | true => exact set.trans (State.event_raiseOnly _ _).rolesOnly
    | false => exact set
  unfold State.bounceBack
  dsimp only
  split
  · exact ⟨_, _, _, _, _, _, _, _, _, rfl⟩
  · split
    · exact (s.fault_raiseOnly _ _).rolesOnly
    · exact toHost _ _
  · split
    · exact (s.fault_raiseOnly _ _).rolesOnly
    · exact toHost _ _
  · have counted : s.RolesOnly (s.count (Reg.clNoteLost (msgScl m)) 1) := ⟨_, _, _, _, _, _, _, _, _, rfl⟩
    exact counted.trans (State.fault_raiseOnly _ _ _).rolesOnly
  · exact ⟨_, _, _, _, _, _, _, _, _, rfl⟩

theorem State.renewCore_rolesOnly (s : State) (c : Nat) (mode : CoreMode) (vendor : Bool) (role : BitVec 4) (pc why : Nat) :
    s.RolesOnly (s.renewCore c mode vendor role pc why) :=
  List.foldlRecOn (motive := s.RolesOnly) _ _ ⟨_, _, _, _, _, _, _, _, _, rfl⟩ fun t h m _ => h.trans (t.bounceBack_rolesOnly m why)

/-- What a renewal of any core keeps, loading the roles of a cluster keeps. -/
theorem vendorLoad_keeps {P : State → Prop} (renew : ∀ t k mode vendor role pc why, P t → P (t.renewCore k mode vendor role pc why))
    {s : State} (h : P s) (cl : Nat) : P (s.vendorLoad cl) := by
  unfold State.vendorLoad
  split
  · exact h
  · refine forEach_keeps P _ _ s (fun c t k => ?_) h
    dsimp only
    split
    · split
      · exact k
      · exact renew _ _ _ _ _ _ _ k
    · split
      · exact renew _ _ _ _ _ _ _ k
      · exact k

theorem State.zoneRoles_rolesOnly (s : State) (ch : Nat) : s.RolesOnly (s.zoneRoles ch) := by
  have self : s.RolesOnly s := ⟨_, _, _, _, _, _, _, _, _, rfl⟩
  unfold State.zoneRoles
  split
  · exact vendorLoad_keeps (fun t k mode vendor role pc why h => h.trans (t.renewCore_rolesOnly k mode vendor role pc why)) self _
  · exact self

theorem State.zoneRoles_evalCnt (s : State) (ch : Nat) : (s.zoneRoles ch).reg Reg.zoneEvalCnt = s.reg Reg.zoneEvalCnt := by
  have kept := keptByBounce_reg (a := Reg.zoneEvalCnt) (s.reg Reg.zoneEvalCnt) (raiseSpares_of_out (by lia)) (fun _ => by lia)
    fun _ => by lia
  unfold State.zoneRoles
  split
  · exact vendorLoad_keeps (P := fun t => t.reg Reg.zoneEvalCnt = s.reg Reg.zoneEvalCnt)
      (fun t k mode vendor role pc why h => kept.renewCore (fun _ _ _ set => set) k mode vendor role pc why h) rfl _
  · rfl

/-! ## Writes of word 0 (R254, R270) -/

section
variable (s : State) (q : Req) (z : Zone)

/-- A staged write of word 0 of a zone ends staging and is the write of the table. -/
theorem State.busWrite_zone {d : W32} {w : W72} (up : s.shut = false) (staged : s.staged72 q (0x1200000 + 0x80 * z) d = some w) :
    s.busWrite q (0x1200008 + 0x80 * z) d = (s.unstage q).zoneCommit z 0 w q := by
  have small := z.isLt
  have entry : winAt (0x1200008 + 0x80 * z.val) = some (.zone z 0) := by
    unfold winAt
    rw [if_neg (by omega), if_pos (by omega), show (0x1200008 + 0x80 * z.val - 0x1200000) / 0x80 = z by omega,
      show (0x1200008 + 0x80 * z.val) % 0x80 / 16 = 0 by omega]
  have reach : s.target (0x1200008 + 0x80 * z.val) = .win (.zone z 0) ((0x1200008 + 0x80 * z.val) % 0x10000 / 16 * 16) 2 := by
    unfold State.target
    rw [if_neg (by omega), if_neg (by omega), entry]
    simp only [State.winOk, Bool.true_or, if_true]
    rw [show (0x1200008 + 0x80 * z.val) % 16 / 4 = 2 by omega]
  have start : 0x1200008 + 0x80 * z.val - 4 * 2 = 0x1200000 + 0x80 * z.val := by omega
  unfold State.busWrite
  rw [if_neg (by simp [up]), reach]
  simp only [WinEntry.readOnly]
  rw [if_neg (by omega), if_neg (by simp), start]
  exact State.wideWrite_hi_of_staged d staged

end

/-- EN of the word a write of HI commits is bit 7 of what is written. -/
theorem zoneEn_staged {s : State} {q : Req} {a : Nat} {d : W32} {w : W72} (staged : s.staged72 q a d = some w) :
    zoneEn w = d.getLsbD 7 := by
  unfold State.staged72 at staged
  split at staged
  · split at staged
    · cases staged
      simp only [zoneEn, BitVec.getLsbD_append, BitVec.getLsbD_extractLsb']
      rfl
    · cases staged
  · cases staged

/-- Finishing what a zone has begun counts every evaluation and leaves the table. -/
theorem State.zoneFinish_spec (s : State) (z : Nat) (on : zoneEn (s.zoneWord z 0) = true) (runs : s.rbit Reg.zoneCtrl 0 = true) :
    (s.zoneFinish z).reg Reg.zoneEvalCnt = s.reg Reg.zoneEvalCnt + BitVec.ofNat 32 (s.zone z).due.length := by
  have fold : ∀ (l : List EvalSt) (t : State), (l.foldl (fun t e => t.zoneEval z e) t).reg Reg.zoneEvalCnt =
      t.reg Reg.zoneEvalCnt + BitVec.ofNat 32 l.length := by
    intro l
    induction l with
    | nil => intro t; simp
    | cons e l ih =>
      intro t
      rw [List.foldl_cons, ih, State.zoneEval_counts, List.length_cons]
      bv_omega
  unfold State.zoneFinish
  rw [if_pos (by simp [on, runs])]
  exact fold _ s

theorem State.zoneFinish_idle (s : State) (z : Nat)
    (idle : (s.zone z).due = [] ∨ zoneEn (s.zoneWord z 0) = false ∨ s.rbit Reg.zoneCtrl 0 = false) : s.zoneFinish z = s := by
  unfold State.zoneFinish
  split
  · next runs =>
    rcases idle with none | off | still
    · rw [none, List.foldl_nil]
    · simp [off] at runs
    · simp [still] at runs
  · rfl

/-! ## The enabled zones of a canonical table -/

/-- A canonical store lists what it reads. -/
theorem cellsGet_of_mem {α : Type} [DecidableEq α] {d : Nat → α} {c : Nat × α} :
    (l : List (Nat × α)) → (lo : Nat) → cellsWf d lo l = true → c ∈ l → lo ≤ c.1 ∧ ∀ e, cellsGet e c.1 l = c.2
  | (j, v) :: l, lo, wf, mem => by
    simp only [cellsWf, Bool.and_eq_true, decide_eq_true_eq] at wf
    obtain ⟨⟨low, -⟩, rest⟩ := wf
    rcases List.mem_cons.mp mem with rfl | later
    · exact ⟨low, fun e => by simp [cellsGet]⟩
    · obtain ⟨past, get⟩ := cellsGet_of_mem l (j + 1) rest later
      exact ⟨by omega, fun e => by rw [cellsGet, if_neg (by omega)]; exact get e⟩

theorem cells_keys_nodup {α : Type} [DecidableEq α] {d : Nat → α} :
    (l : List (Nat × α)) → (lo : Nat) → cellsWf d lo l = true → (l.map Prod.fst).Nodup
  | [], _, _ => List.nodup_nil
  | (j, v) :: l, lo, wf => by
    simp only [cellsWf, Bool.and_eq_true, decide_eq_true_eq] at wf
    rw [List.map_cons, List.nodup_cons]
    refine ⟨fun mem => ?_, cells_keys_nodup l (j + 1) wf.2⟩
    obtain ⟨c, inside, same⟩ := List.mem_map.mp mem
    have past := (cellsGet_of_mem l (j + 1) wf.2 inside).1
    omega

/-- A key that reads something else than the default is listed. -/
theorem mem_cells_of_get {α : Type} {e : α} {k : Nat} : (l : List (Nat × α)) → cellsGet e k l ≠ e → (k, cellsGet e k l) ∈ l
  | [], ne => (ne rfl).elim
  | (j, v) :: l, ne => by
    unfold cellsGet at ne ⊢
    split at ne
    · next same => rw [if_pos same]; exact List.mem_cons.mpr (.inl (by rw [same]))
    · next other => rw [if_neg other]; exact List.mem_cons_of_mem _ (mem_cells_of_get l ne)

section
variable {s : State} (wf : s.zones.wf (fun _ => 0) = true)
include wf

theorem State.mem_enabledZones (z : Nat) : z ∈ s.enabledZones ↔ zoneEn (s.zoneWord z 0) = true := by
  unfold State.enabledZones State.zoneWord
  simp only [List.mem_map, List.mem_filter, Bool.and_eq_true, decide_eq_true_eq]
  constructor
  · rintro ⟨c, ⟨mem, word, on⟩, rfl⟩
    have key : 8 * (c.1 / 8) + 0 = c.1 := by omega
    rw [key, show s.zones.get 0 c.1 = c.2 from (cellsGet_of_mem _ 0 wf mem).2 0]
    exact on
  · intro on
    have ne : cellsGet 0 (8 * z + 0) s.zones.cells ≠ (0 : W72) := fun zero => by
      rw [show s.zones.get 0 (8 * z + 0) = 0 from zero] at on
      exact absurd on (by decide)
    exact ⟨_, ⟨mem_cells_of_get _ ne, by simp, on⟩, by simp⟩

theorem State.enabledZones_nodup : s.enabledZones.Nodup := by
  unfold State.enabledZones
  rw [show (fun c : Nat × W72 => c.1 / 8) = (· / 8) ∘ Prod.fst from rfl, ← List.map_map]
  have keys : ((s.zones.cells.filter fun c => decide (c.1 % 8 = 0) && zoneEn c.2).map Prod.fst).Nodup :=
    (cells_keys_nodup s.zones.cells 0 wf).sublist ((List.filter_sublist).map _)
  refine keys.map_on fun a ha b hb same => ?_
  obtain ⟨c, mem, rfl⟩ := List.mem_map.mp ha
  obtain ⟨d, mem', rfl⟩ := List.mem_map.mp hb
  simp only [List.mem_filter, Bool.and_eq_true, decide_eq_true_eq] at mem mem'
  omega

end

end Sys2Proof.Machine
end

section
/-!
PROOFS. The obligation on the zone table and the state machine (R252 to R270).
-/
namespace Sys2Proof.Machine

/-! ## Enabling and disabling -/

section
variable (s : State) (q : Req) (z : Zone) (v : W32) {w : W72}

theorem State.zoneWord_setZoneWord_same (z k : Nat) (x : W72) : (s.setZoneWord z k x).zoneWord z k = x := Store.get_set_same ..

/-- A zone at rest has nothing begun, asked for or awaited. -/
theorem State.zoneRest_zone (z : Nat) : ((s.zoneRest z).zone z).st = 0 ∧ ((s.zoneRest z).zone z).due = [] ∧
    ((s.zoneRest z).zone z).asks = false ∧ ((s.zoneRest z).zone z).remote = none := by
  rw [State.zoneRest, State.zone_setZone_same]
  exact ⟨rfl, rfl, rfl, rfl⟩

/-- A word 0 that passes the checks is stored, and the zone begins at NORMAL. -/
theorem State.zoneCommit_enables (on : zoneEn w = true) (was : zoneEn (s.zoneWord z 0) = false) (ok : s.zoneCheck z w = none) :
    s.zoneCommit z 0 w q = (((s.setZoneWord z 0 w).zoneRest z).zoneAsks z).zoneRoles (zoneCh w) := by
  unfold State.zoneCommit State.zoneWrite
  simp [on, was, ok]

theorem State.zoneCommit_refused {c : Cause} (on : zoneEn w = true) (was : zoneEn (s.zoneWord z 0) = false)
    (bad : s.zoneCheck z w = some c) : s.zoneCommit z 0 w q = s.err zoneBase c (0x80 * z) q := by
  unfold State.zoneCommit State.zoneWrite
  simp [on, was, bad, zoneOff16]

/-- EN 0 finishes what the zone has begun and puts it to rest; roles change where it was enabled. -/
theorem State.zoneCommit_disables (off : zoneEn w = false) : s.zoneCommit z 0 w q =
    if zoneEn (s.zoneWord z 0) then (((s.zoneFinish z).setZoneWord z 0 w).zoneRest z).zoneRoles (zoneCh (s.zoneWord z 0))
    else ((s.zoneFinish z).setZoneWord z 0 w).zoneRest z := by
  unfold State.zoneCommit State.zoneWrite
  simp [off]

/-- Whether roles follow or not, the table, the zones and the queue stay as the disable leaves them. -/
theorem State.zoneCommit_disables_spec (off : zoneEn w = false) :
    (s.zoneCommit z 0 w q).zones = ((s.zoneFinish z).setZoneWord z 0 w).zones ∧
      (s.zoneCommit z 0 w q).zoneSts = (((s.zoneFinish z).setZoneWord z 0 w).zoneRest z).zoneSts ∧
      (s.zoneCommit z 0 w q).evq = (s.zoneFinish z).evq ∧
      (s.zoneCommit z 0 w q).reg Reg.zoneEvalCnt = (s.zoneFinish z).reg Reg.zoneEvalCnt := by
  rw [s.zoneCommit_disables q z off]
  split
  · have roles := State.zoneRoles_rolesOnly (((s.zoneFinish z).setZoneWord z 0 w).zoneRest z) (zoneCh (s.zoneWord z 0))
    exact ⟨roles.keeps State.zones fun _ _ _ _ _ _ _ _ _ => rfl, roles.keeps State.zoneSts fun _ _ _ _ _ _ _ _ _ => rfl,
      roles.keeps State.evq fun _ _ _ _ _ _ _ _ _ => rfl, State.zoneRoles_evalCnt _ _⟩
  · exact ⟨rfl, rfl, rfl, rfl⟩

end

/-! ## Evaluating -/

/-- The oldest frame of a zone that may be evaluated is. -/
theorem exec_zoneEvaluate_runs {s : State} {z : Zone} {e : EvalSt} {r : List EvalSt} (due : (s.zone z).due = e :: r)
    (on : zoneEn (s.zoneWord z 0) = true) (first : s.zoneBefore z e = false) (runs : s.rbit Reg.zoneCtrl 0 = true) :
    exec (.zoneEvaluate z) s = .next ((s.setZone z { s.zone z with due := r }).zoneEval z e) := by
  change execZoneEvaluate z s = _
  unfold execZoneEvaluate
  rw [due]
  dsimp only
  rw [if_neg (by simp [first])]
  exact if_pos ⟨on, runs⟩

/-- The record after a frame that has a measure, where the limits are upper ones. -/
theorem State.zoneEvaled_due (s : State) {z : Nat} {e : EvalSt} {m : Int} (r : List EvalSt) (measure : e.m = some m)
    (above : zoneBelow (s.zoneWord z 0) = false) : (s.setZone z { s.zone z with due := r }).zoneEvaled z e =
      zoneMove false (s.zoneWarn z) (s.zoneAlarm z) (s.zoneHyst z) (zoneOn (s.zoneWord z 0)) (zoneOff (s.zoneWord z 0))
        { s.zone z with due := r, clipped := e.clipped, index := e.index, m := m } m := by
  rw [State.zoneEvaled_some _ _ _ measure, State.zone_setZone_same, ← above]
  rfl

/-- One tick of an INPUT zone: its count advances, and a change to VOID acts. -/
theorem State.inputTick_own (t : State) (z : Nat) (e : EvalSt) :
    (State.zone (if (voidMove (t.zoneVoid z) (t.zone z)).st = (t.zone z).st then t.setZone z (voidMove (t.zoneVoid z) (t.zone z))
      else (t.setZone z (voidMove (t.zoneVoid z) (t.zone z))).zoneChanged z (t.zone z).st e) z).vc = (t.zone z).vc + 1 := by
  split
  · rw [State.zone_setZone_same, voidMove_counts]
  · obtain ⟨a, l, r, own⟩ := (State.zoneChanged_acted (t.setZone z (voidMove (t.zoneVoid z) (t.zone z))) z (t.zone z).st e).own
    rw [own, State.zone_setZone_same]
    exact voidMove_counts _ _

theorem State.inputTick_others (t : State) {z y : Nat} (e : EvalSt) (ne : y ≠ z) :
    State.zone (if (voidMove (t.zoneVoid z) (t.zone z)).st = (t.zone z).st then t.setZone z (voidMove (t.zoneVoid z) (t.zone z))
      else (t.setZone z (voidMove (t.zoneVoid z) (t.zone z))).zoneChanged z (t.zone z).st e) y = t.zone y := by
  have set := t.zone_setZone_ne (voidMove (t.zoneVoid z) (t.zone z)) ne
  split
  · exact set
  · exact ((State.zoneChanged_acted _ z (t.zone z).st e).others y ne).trans set

/-! ## The obligation -/

/-- Settles O41: a commit of word 0 is the write of the table, an evaluation is one move of the zone's record and the actions of its
change. -/
theorem zoneTableAndStateMachine : Obligations.ZoneTableAndStateMachine := by
  refine ⟨?enables, ?refused, ?disables, ?calm, ?counts, ?alarm, ?void, ?before, ?nothing, ?input, ?notInput, ?tick⟩
  case enables =>
    intro s q z v w up staged was ok
    have on : zoneEn w = true := (zoneEn_staged staged).trans ((bitOf_withBit v _ 7 (by decide)).trans (if_pos rfl))
    have run : exec (.zoneEnable q z v) s =
        .next (((((s.unstage q).setZoneWord z 0 w).zoneRest z).zoneAsks z).zoneRoles (zoneCh w)) := by
      refine congrArg Host.Outcome.next ((s.busWrite_zone q z up staged).trans ?_)
      exact (s.unstage q).zoneCommit_enables q z on was ok
    have roles := State.zoneRoles_rolesOnly ((((s.unstage q).setZoneWord z 0 w).zoneRest z).zoneAsks z) (zoneCh w)
    have rest := State.zoneRest_zone ((s.unstage q).setZoneWord z 0 w) z
    have own : (State.zoneRoles ((((s.unstage q).setZoneWord z 0 w).zoneRest z).zoneAsks z) (zoneCh w)).zone z =
        { (((s.unstage q).setZoneWord z 0 w).zoneRest z).zone z with asks := true } :=
      (State.zone_of_sts (roles.keeps State.zoneSts fun _ _ _ _ _ _ _ _ _ => rfl) z).trans (State.zone_setZone_same ..)
    obtain ⟨st, due, -, -⟩ := rest
    refine ⟨_, run, ?_, on, by rw [own]; exact st, by rw [own]; exact due, by rw [own], ?_,
      roles.keeps State.evq fun _ _ _ _ _ _ _ _ _ => rfl⟩
    · rw [State.zoneWord, roles.keeps State.zones fun _ _ _ _ _ _ _ _ _ => rfl]
      exact State.zoneWord_setZoneWord_same ..
    · rw [State.req, roles.keeps State.reqs fun _ _ _ _ _ _ _ _ _ => rfl]
      exact congrArg ReqSt.lo (s.req_setReq_same q _)
  case refused =>
    intro s q z v w c up staged was bad
    have on : zoneEn w = true := (zoneEn_staged staged).trans ((bitOf_withBit v _ 7 (by decide)).trans (if_pos rfl))
    refine congrArg Host.Outcome.next ((s.busWrite_zone q z up staged).trans ?_)
    exact (s.unstage q).zoneCommit_refused q z on was bad
  case disables =>
    intro s q z v w up staged
    have off : zoneEn w = false := (zoneEn_staged staged).trans ((bitOf_withBit v _ 7 (by decide)).trans (if_pos rfl))
    obtain ⟨zones, sts, evq, cnt⟩ := (s.unstage q).zoneCommit_disables_spec q z off
    obtain ⟨st, due, asks, remote⟩ := State.zoneRest_zone (((s.unstage q).zoneFinish z).setZoneWord z 0 w) z
    refine ⟨_, congrArg Host.Outcome.next (s.busWrite_zone q z up staged), ?_, off, ?_, ?_, ?_, ?_, fun idle => ?_, fun on runs => ?_⟩
    · rw [State.zoneWord, zones]
      exact State.zoneWord_setZoneWord_same ..
    · rw [State.zone_of_sts sts, st]
    · rw [State.zone_of_sts sts, due]
    · rw [State.zone_of_sts sts, asks]
    · rw [State.zone_of_sts sts, remote]
    · rw [evq, cnt, (s.unstage q).zoneFinish_idle z idle]
      exact ⟨rfl, rfl⟩
    · rw [cnt, (s.unstage q).zoneFinish_spec z on runs]
      rfl
  case calm =>
    intro s z e r m due on first runs measure above normal low order
    have move := (s.zoneEvaled_due r measure above).trans (zoneMove_calm _ _ _ normal low order)
    obtain ⟨own, evq⟩ := State.zoneEval_quiet (s.setZone z { s.zone z with due := r }) z e
      (by rw [move, State.zone_setZone_same])
    refine ⟨_, exec_zoneEvaluate_runs due on first runs, ?_, ?_, ?_, ?_, evq, State.zoneEval_counts _ _ _⟩ <;> rw [own, move]
    exact normal
  case counts =>
    intro s z e r m due on first runs measure above normal high short
    have move := (s.zoneEvaled_due r measure above).trans (zoneMove_counts _ _ _ normal high short)
    obtain ⟨own, evq⟩ := State.zoneEval_quiet (s.setZone z { s.zone z with due := r }) z e
      (by rw [move, State.zone_setZone_same])
    refine ⟨_, exec_zoneEvaluate_runs due on first runs, ?_, ?_, evq⟩ <;> rw [own, move]
    exact normal
  case alarm =>
    intro s z e r m due on first runs measure above normal high long act none room
    have move := (s.zoneEvaled_due r measure above).trans (zoneMove_alarm _ _ _ normal high long)
    have eval := State.zoneEval_eq (s.setZone z { s.zone z with due := r }) z e
    rw [move, State.zone_setZone_same, if_neg (by simp [normal])] at eval
    obtain ⟨x, hx⟩ : ∃ x : ZoneSt, x = { s.zone z with
      due := r, clipped := e.clipped, index := e.index, m := m, vc := 0, st := 2, cu := 0, cd := 0 } := ⟨_, rfl⟩
    obtain ⟨w, c, old, new, own, evq, lost, seq, changed⟩ := State.zoneChanged_event
      (((s.setZone z { s.zone z with due := r }).count Reg.zoneEvalCnt 1).setZone z x) z (s.zone z).st e act
      (by rw [State.zone_setZone_same, hx]; simp)
    rw [State.zone_setZone_same] at new own
    rw [← hx, changed] at eval
    generalize zoneCh (((((s.setZone z { s.zone z with due := r }).count Reg.zoneEvalCnt 1).setZone z x)).zoneWord z 0) = ch at eval
    obtain ⟨queue, next⟩ := w.evPush_room ch (evRecord 1 z ch c false (evMeasure e)) (lost.trans none) (by rw [evq]; exact room)
    have kept := (eventClosed_zoneSts w.zoneSts).evPush (s := w) (ch := ch) rfl trivial trivial (evRecord 1 z ch c false (evMeasure e))
    obtain ⟨kind, zone, after, before⟩ := evRecord_state (z := z) (ch := ch) c false (evMeasure e) w.evSeq z.isLt
      (by rw [new, hx]) (old.trans normal)
    have seqs : w.evSeq = s.evSeq := seq
    refine ⟨_, evRecord 1 z ch c false (evMeasure e) w.evSeq, (exec_zoneEvaluate_runs due on first runs).trans (congrArg _ eval),
      ?_, ?_, ?_, by rw [queue, evq]; rfl, kind, zone, after, before, ?_, by rw [next, seqs]⟩
    · rw [State.zone_of_sts kept, own, hx]
    · rw [State.zone_of_sts kept, own, hx]
    · rw [State.zone_of_sts kept, own]
    · rw [evRecord_seq, seqs]
  case void =>
    intro s z e r due on first runs measure last known
    have move : (s.setZone z { s.zone z with due := r }).zoneEvaled z e =
        { s.zone z with due := r, clipped := e.clipped, index := e.index, vc := (s.zone z).vc + 1, prev := (s.zone z).st, st := 3 } := by
      rw [State.zoneEvaled_none _ _ _ measure, State.zone_setZone_same]
      exact voidMove_void last known
    obtain ⟨a, l, r', own⟩ := State.zoneEval_zone (s.setZone z { s.zone z with due := r }) z e
    rw [move] at own
    refine ⟨_, exec_zoneEvaluate_runs due on first runs, by rw [own], by rw [own], ?_⟩
    rw [State.zoneEval_eq, move, State.zone_setZone_same, if_neg (by dsimp only; omega)]
    exact State.zoneChanged_void _ z _ e (by rw [State.zone_setZone_same])
  case before =>
    intro s z e r due waits
    change execZoneEvaluate z s = _
    unfold execZoneEvaluate
    rw [due]
    exact if_pos waits
  case nothing =>
    intro s z none
    change execZoneEvaluate z s = _
    rw [execZoneEvaluate, none]
  case input =>
    intro s z v on src runs low high
    have run : exec (.zoneInputWrite z v) s = .next (s.zoneEval z { m := some v, counted := 0, stamp := s.stamp }) := by
      change Host.Outcome.next ((s.zoneInput z v).getD s) = _
      unfold State.zoneInput
      dsimp only
      rw [if_neg (by simp [on, src]; omega), if_neg (by simp [runs]), Option.getD_some]
    obtain ⟨a, l, r, own⟩ := s.zoneEval_zone z { m := some v, counted := 0, stamp := s.stamp }
    rw [State.zoneEvaled_some _ _ _ rfl] at own
    refine ⟨_, run, ?_, ?_, s.zoneEval_counts z _⟩ <;> rw [own]
    · exact (zoneMove_measures _ _ _ _).2
    · exact (zoneMove_measures _ _ _ _).1
  case notInput =>
    intro s z v other
    change Host.Outcome.next ((s.zoneInput z v).getD s) = _
    have none : s.zoneInput z v = none := if_pos (by rcases other with off | src <;> simp [*])
    rw [none, Option.getD_none]
  case tick =>
    intro s runs wf
    refine ⟨_, if_neg (by simp [runs]), fun z => ?_⟩
    have once := (State.enabledZones_nodup wf).filter fun z => decide (zoneSrc (s.zoneWord z 0) = 4)
    have listed : z.val ∈ s.enabledZones.filter (fun z => decide (zoneSrc (s.zoneWord z 0) = 4)) ↔
        zoneEn (s.zoneWord z 0) = true ∧ zoneSrc (s.zoneWord z 0) = 4 := by
      rw [List.mem_filter, State.mem_enabledZones wf, decide_eq_true_eq]
    split
    · next input =>
      refine forEach_once (before := fun t : State => t.zone z = s.zone z) (after := fun t : State => (t.zone z).vc = (s.zone z).vc + 1) (i := z)
        (fun j ne t h => ?_) (fun t h => ?_) (fun j ne t h => ?_) _ s once (listed.mpr input) rfl
      · exact (t.inputTick_others _ ne.symm).trans h
      · exact (t.inputTick_own z _).trans (by rw [h])
      · exact (congrArg ZoneSt.vc (t.inputTick_others _ ne.symm)).trans h
    · next other =>
      refine forEach_keeps_of_mem (fun t : State => t.zone z = s.zone z) (fun j mem t h => ?_) rfl
      have ne : z.val ≠ j := fun same => other (listed.mp (by rw [same]; exact mem))
      exact (t.inputTick_others _ ne).trans h

end Sys2Proof.Machine
end

section
/-!
PROOFS. The DMA engine (R298 to R317): what a boundary, a stop and a burst leave of the registers a channel shows.
-/
namespace Sys2Proof.Machine

/-! ## Stops and boundaries -/

section
variable (s : State)

/-- A write that meets a hand-over is a raise but for the shadow it writes (R49). -/
theorem State.dmaLate_raiseOnly (n : Nat) (late : Option ShadowWrite) : s.RaiseOnly (s.dmaLate n late) := by
  unfold State.dmaLate
  split
  · exact .refl s
  · dsimp only
    split
    · exact .refl s
    · unfold State.lateWrite
      dsimp only
      split
      · exact s.err_raiseOnly _ _ _ _
      · exact ((s.setReg_raiseOnly _ _).trans (State.setReg_raiseOnly _ _ _)).trans (State.fault_raiseOnly _ _ _)

theorem State.reg_dmaFaultOf {a : Nat} (n bit : Nat) (out : a < 0xD0000 ∨ 0xF0000 ≤ a) (fault : a ≠ Reg.dmaFault)
    (channel : a ≠ Reg.dmaFaultCh) : (s.dmaFaultOf n bit).reg a = s.reg a :=
  (State.reg_fault_ne _ _ out fault).trans (s.reg_setReg_ne _ channel)

/-- A register that is neither a shadow of the channel nor a record of the engine stands under such a write. -/
theorem State.reg_dmaLate {a : Nat} (n : Nat) (late : Option ShadowWrite) (out : a < 0xC3FF0) (cfg : a ≠ Reg.dmaCfg n)
    (link : a ≠ Reg.dmaLink n) (fault : a ≠ Reg.dmaFault) (channel : a ≠ Reg.dmaFaultCh) :
    (s.dmaLate n late).reg a = s.reg a := by
  unfold State.dmaLate
  split
  · rfl
  · next x =>
    dsimp only
    have place : a ≠ dmaBase + (0x100 + 0x40 * n + if x.link then 8 else 4) := by
      unfold dmaBase
      split <;> lia
    split
    · rfl
    · unfold State.lateWrite
      dsimp only
      split
      · exact s.reg_err_ne _ _ _ (by lia) (by unfold dmaBase; omega) (by unfold dmaBase; omega)
      · exact (State.reg_dmaFaultOf _ _ _ (by lia) fault channel).trans (s.reg_setReg_ne _ place)

/-- A stop ends the descriptor and shows why (R304, R308). -/
theorem State.dmaStopped_spec (n : Fin 64) {why : Nat} (small : why < 16) :
    ((s.dmaStopped n why).dma n).desc = none ∧ (s.dmaStopped n why).fld (Reg.dmaStatus n) 27 24 = why := by
  unfold State.dmaStopped
  dsimp only
  have put := s.dma_setDma_same n { s.dma n with desc := none, stop := false, moved := 0, poisoned := false, stream := [] }
  generalize s.setDma n { s.dma n with desc := none, stop := false, moved := 0, poisoned := false, stream := [] } = u at put ⊢
  have shown : ((u.dmaRunBit n false).setFld (Reg.dmaStatus n) 27 24 why).dma n = u.dma n := by
    simp only [State.dmaRunBit, State.setRbit, State.setFld, State.dma_setReg]
  have status : ((u.dmaRunBit n false).setFld (Reg.dmaStatus n) 27 24 why).fld (Reg.dmaStatus n) 27 24 = why := by
    rw [State.fld_setFld_same _ _ _ _ (by decide)]
    exact Nat.mod_eq_of_lt small
  generalize (u.dmaRunBit n false).setFld (Reg.dmaStatus n) 27 24 why = w at shown status ⊢
  have kept := (w.event_raiseOnly (128 + n)).keeps (State.dma · n) fun _ _ _ _ _ _ => rfl
  exact ⟨(congrArg DmaSt.desc kept).trans (congrArg DmaSt.desc (shown.trans put)),
    (State.fld_of_reg (w.reg_event_of_out (by lia) (by omega)) 27 24).trans status⟩

theorem State.reg_dmaStopped {a : Nat} (n : Fin 64) (why : Nat) (out : a < 0xD0000 ∨ 0xF0000 ≤ a) (status : a ≠ Reg.dmaStatus n)
    (run : a ≠ Reg.dmaRunLo + 4 * (n / 32)) : (s.dmaStopped n why).reg a = s.reg a :=
  (State.reg_event_of_out _ out (by omega)).trans ((State.reg_setFld_ne _ _ _ _ status).trans (State.reg_setRbit_ne _ _ _ run))

/-- A boundary of a channel with a LINK goes to the descriptor it names (R304, R311). -/
theorem State.dmaBoundary_linked {n : Nat} (d : Option Desc) (late : Option ShadowWrite) (goes : (s.dma n).stop = false)
    (link : s.rbit (Reg.dmaLink n) 12 = true) :
    s.dmaBoundary n d late = ((s.dmaHandOver n).dmaLate n late).descFetch n (s.fld (Reg.dmaLink n) 11 0) := by
  have kept := (State.dmaLate_raiseOnly (s.dmaHandOver n) n late).keeps (State.dma · n) fun _ _ _ _ _ _ => rfl
  have handed : ((s.dmaHandOver n).dma n).link = some (s.fld (Reg.dmaLink n) 11 0) := by
    rw [State.dmaHandOver, State.dma_setDma_same]
    exact if_pos link
  unfold State.dmaBoundary
  rw [if_neg (by simp [goes])]
  dsimp only
  rw [show (((s.dmaHandOver n).dmaLate n late).dma n).link = some (s.fld (Reg.dmaLink n) 11 0) from
    (congrArg DmaSt.link kept).trans handed]

/-- The boundary behind the last descriptor of a channel with no LINK stops it (R304). -/
theorem State.dmaBoundary_last {n : Nat} {d : Desc} (late : Option ShadowWrite) (goes : (s.dma n).stop = false)
    (link : s.rbit (Reg.dmaLink n) 12 = false) (last : d.last = true) :
    s.dmaBoundary n (some d) late = ((s.dmaHandOver n).dmaLate n late).dmaStopped n 1 := by
  have kept := (State.dmaLate_raiseOnly (s.dmaHandOver n) n late).keeps (State.dma · n) fun _ _ _ _ _ _ => rfl
  have handed : ((s.dmaHandOver n).dma n).link = none := by
    rw [State.dmaHandOver, State.dma_setDma_same]
    exact if_neg (by simp [link])
  unfold State.dmaBoundary
  rw [if_neg (by simp [goes])]
  dsimp only
  rw [show (((s.dmaHandOver n).dmaLate n late).dma n).link = none from (congrArg DmaSt.link kept).trans handed]
  exact if_pos last

/-- The hand-over takes CFG over, clears LINK's valid bit and leaves the rest (R311). -/
theorem State.dmaHandOver_spec (n : Nat) : (s.dmaHandOver n).reg (Reg.dmaCfgAct n) = s.reg (Reg.dmaCfg n) ∧
    (s.dmaHandOver n).rbit (Reg.dmaLink n) 12 = false ∧
    ∀ a, a ≠ Reg.dmaCfgAct n → a ≠ Reg.dmaLink n → (s.dmaHandOver n).reg a = s.reg a := by
  have shown (a : Nat) : (s.dmaHandOver n).reg a =
      ((s.setReg (Reg.dmaCfgAct n) (s.reg (Reg.dmaCfg n))).setRbit (Reg.dmaLink n) 12 false).reg a := rfl
  refine ⟨?_, ?_, fun a cfg link => ?_⟩
  · rw [shown, State.reg_setRbit_ne _ _ _ (by lia), State.reg_setReg_same]
  · rw [State.rbit_of_reg (shown _), State.rbit_setRbit_same _ _ _ _ (by decide)]
  · rw [shown, State.reg_setRbit_ne _ _ _ link, State.reg_setReg_ne _ _ cfg]

end

/-! ## What the checks of a descriptor read (R303) -/

/-- The regions, the cores and the zone engine's control are as in s. -/
structure State.RegionsAs (s t : State) : Prop where
  cores : t.cores = s.cores
  regs : ∀ a, a < 0xC0000 ∨ 0xC1800 ≤ a ∧ a < 0xC3FF0 → t.reg a = s.reg a

section
variable {s t u : State} (h : s.RegionsAs t)
include h

theorem State.RegionsAs.trans (k : t.RegionsAs u) : s.RegionsAs u :=
  ⟨k.cores.trans h.cores, fun a out => (k.regs a out).trans (h.regs a out)⟩

theorem State.RegionsAs.vendorOn (cl : Nat) : t.vendorOn cl = s.vendorOn cl := by
  simp only [State.vendorOn, State.core_of_cores h.cores]

theorem State.RegionsAs.dmaOwner (n : Nat) : t.dmaOwner n = s.dmaOwner n := by
  have any : t.anyVendor = s.anyVendor := by rw [State.anyVendor, State.anyVendor, funext h.vendorOn]
  simp only [State.dmaOwner, any, State.rbit_of_reg (h.regs Reg.zoneCtrl (by lia))]

theorem State.RegionsAs.descCheck (n : Nat) {d : Desc} (src : d.src < 16) (dst : d.dst < 16) : t.descCheck n d = s.descCheck n d := by
  have rgn (k : Nat) (small : k < 16) : t.rgnOn k = s.rgnOn k ∧ t.rgnSpace k = s.rgnSpace k ∧ t.rgnCl k = s.rgnCl k ∧
      t.rgnBase k = s.rgnBase k ∧ t.rgnSize k = s.rgnSize k := by
    have cfg := h.regs (Reg.dmaRgnCfg k) (by lia)
    simp only [State.rgnBase, State.rgnSize, h.regs (Reg.dmaRgnBaseHi k) (by lia), h.regs (Reg.dmaRgnBaseLo k) (by lia),
      h.regs (Reg.dmaRgnSizeHi k) (by lia), h.regs (Reg.dmaRgnSizeLo k) (by lia), and_true]
    exact ⟨State.rbit_of_reg cfg 31, State.fld_of_reg cfg 18 16, State.fld_of_reg cfg 12 8⟩
  obtain ⟨on, space, -, -, size⟩ := rgn d.src src
  obtain ⟨on', space', cl', base', size'⟩ := rgn d.dst dst
  unfold State.descCheck State.inVendorRegion
  rw [on, space, size, on', space', cl', base', size', h.dmaOwner, h.vendorOn]

end

theorem descOf_src (ws : List W72) : (descOf ws).src < 16 := field_lt _ 71 68
theorem descOf_dst (ws : List W72) : (descOf ws).dst < 16 := field_lt _ 71 68

/-! ## Fetching a descriptor (R303) -/

section
variable (s : State) (n : Fin 64) (k : Nat)

/-- A descriptor that passes its checks is the channel's current one. -/
theorem State.descFetch_passes (ok : s.descCheck n (descOf (s.descWords k)) = none) :
    ((s.descFetch n k).dma n).desc = some (s.descWords k) ∧ ((s.descFetch n k).dma n).moved = 0 ∧
      (s.descFetch n k).reg (Reg.dmaCur n) = BitVec.ofNat 32 k ∧
      (s.descFetch n k).reg (Reg.dmaRemain n) = BitVec.ofNat 32 (descOf (s.descWords k)).dstSpan ∧
      ∀ a, a ≠ Reg.dmaCur n → a ≠ Reg.dmaRemain n → (s.descFetch n k).reg a = s.reg a := by
  have shown : s.RegionsAs (s.setReg (Reg.dmaCur n) (BitVec.ofNat 32 k)) :=
    ⟨rfl, fun a out => s.reg_setReg_ne _ (by lia)⟩
  have ok' := (shown.descCheck n (descOf_src (s.descWords k)) (descOf_dst (s.descWords k))).trans ok
  have run : s.descFetch n k = ((s.setReg (Reg.dmaCur n) (BitVec.ofNat 32 k)).setReg (Reg.dmaRemain n)
      (BitVec.ofNat 32 (descOf (s.descWords k)).dstSpan)).setDma n
        { s.dma n with desc := some (s.descWords k), moved := 0, poisoned := false, stream := [] } := by
    unfold State.descFetch
    dsimp only
    rw [ok']
    rfl
  rw [run]
  refine ⟨by rw [State.dma_setDma_same], by rw [State.dma_setDma_same], ?_, State.reg_setReg_same .., fun a cur remain => ?_⟩
  · exact (State.reg_setReg_ne _ _ (by lia)).trans (s.reg_setReg_same _ _)
  · exact (State.reg_setReg_ne _ _ remain).trans (s.reg_setReg_ne _ cur)

theorem State.descCheck_range {d : Desc} {why : Nat} (bad : s.descCheck n d = some why) : 3 ≤ why ∧ why ≤ 6 := by
  unfold State.descCheck at bad
  split at bad
  · cases bad; decide
  split at bad
  · cases bad; decide
  split at bad
  · cases bad; decide
  dsimp only at bad
  split at bad
  · cases bad; decide
  split at bad
  · cases bad; decide
  · cases bad

/-- A fault of a channel that stops shows in FAULT, FAULT_CH and WHY (R304, R326). -/
theorem State.dmaFaultStop_spec {bit why : Nat} (hb : bit < 24) (hw : why < 16) :
    (((s.dmaFaultOf n bit).dmaStopped n why).dma n).desc = none ∧
      ((s.dmaFaultOf n bit).dmaStopped n why).fld (Reg.dmaStatus n) 27 24 = why ∧
      ((s.dmaFaultOf n bit).dmaStopped n why).rbit Reg.dmaFault bit = true ∧
      ((s.dmaFaultOf n bit).dmaStopped n why).reg Reg.dmaFaultCh = BitVec.ofNat 32 n := by
  obtain ⟨desc, status⟩ := (s.dmaFaultOf n bit).dmaStopped_spec n hw
  have kept (a : Nat) (low : a < 0xC0100) (run : a ≠ Reg.dmaRunLo + 4 * (n / 32)) :=
    (s.dmaFaultOf n bit).reg_dmaStopped n why (a := a) (by lia) (by lia) run
  refine ⟨desc, status, (State.rbit_of_reg (kept _ (by lia) (by lia)) bit).trans ?_, (kept _ (by lia) (by lia)).trans ?_⟩
  · exact State.rbit_fault_set _ (by lia) hb Nat.testBit_two_pow_self
  · rw [State.dmaFaultOf, State.reg_fault_ne _ _ (by lia) (by lia), State.reg_setReg_same]

/-- A descriptor that fails a check stops the channel with its WHY. -/
theorem State.descFetch_fails {why : Nat} (bad : s.descCheck n (descOf (s.descWords k)) = some why) :
    ((s.descFetch n k).dma n).desc = none ∧ (s.descFetch n k).fld (Reg.dmaStatus n) 27 24 = why ∧
      (s.descFetch n k).rbit Reg.dmaFault (why - 1) = true ∧ (s.descFetch n k).reg Reg.dmaFaultCh = BitVec.ofNat 32 n := by
  obtain ⟨low, high⟩ := s.descCheck_range n bad
  have shown : s.RegionsAs (s.setReg (Reg.dmaCur n) (BitVec.ofNat 32 k)) :=
    ⟨rfl, fun a out => s.reg_setReg_ne _ (by lia)⟩
  have bad' := (shown.descCheck n (descOf_src (s.descWords k)) (descOf_dst (s.descWords k))).trans bad
  have run : s.descFetch n k = ((s.setReg (Reg.dmaCur n) (BitVec.ofNat 32 k)).dmaFaultOf n (why - 1)).dmaStopped n why := by
    unfold State.descFetch
    dsimp only
    rw [bad']
  rw [run]
  exact State.dmaFaultStop_spec _ n (by omega) (by omega)

end

/-- GO of a channel at rest begins with its LINK (R304). -/
theorem exec_dmaGo_starts {s : State} {q : Req} {e : DmaEdge} (up : s.shut = false) (own : s.dmaOwner e.chan = 0)
    (rest : (s.dma e.chan).desc = none) (goes : (s.dma e.chan).stop = false) (link : s.rbit (Reg.dmaLink e.chan) 12 = true) :
    ∃ t : State, exec (.dmaGo q e) s = .next (t.descFetch e.chan (s.fld (Reg.dmaLink e.chan) 11 0)) ∧ s.RegionsAs t ∧ t.descs = s.descs ∧
      t.reg (Reg.dmaCfgAct e.chan) = s.reg (Reg.dmaCfg e.chan) ∧ (e.late = none → t.rbit (Reg.dmaLink e.chan) 12 = false) := by
  have check : s.dmaGoCheck e.chan = none := by simp [State.dmaGoCheck, own, rest, link]
  have shown (a : Nat) (status : a ≠ Reg.dmaStatus e.chan) (run : a ≠ Reg.dmaRunLo + 4 * (e.chan / 32)) :
      ((s.setFld (Reg.dmaStatus e.chan) 27 24 0).dmaRunBit e.chan true).reg a = s.reg a :=
    (State.reg_setRbit_ne _ _ _ run).trans (s.reg_setFld_ne _ _ _ status)
  have only : s.RaiseOnly ((s.setFld (Reg.dmaStatus e.chan) 27 24 0).dmaRunBit e.chan true) :=
    (s.setReg_raiseOnly _ _).trans (State.setReg_raiseOnly _ _ _)
  have start : exec (.dmaGo q e) s =
      .next (((s.setFld (Reg.dmaStatus e.chan) 27 24 0).dmaRunBit e.chan true).dmaBoundary e.chan none e.late) := by
    change execDmaGo q e s = _
    unfold execDmaGo
    rw [if_neg (by simp [up]), check]
    rfl
  generalize (s.setFld (Reg.dmaStatus e.chan) 27 24 0).dmaRunBit e.chan true = u at shown only start
  have dma : u.dma e.chan = s.dma e.chan := only.keeps (State.dma · e.chan) fun _ _ _ _ _ _ => rfl
  have linkReg : u.reg (Reg.dmaLink e.chan) = s.reg (Reg.dmaLink e.chan) := shown _ (by lia) (by lia)
  rw [State.dmaBoundary_linked u none e.late (by rw [dma, goes]) ((State.rbit_of_reg linkReg 12).trans link),
    State.fld_of_reg linkReg] at start
  obtain ⟨cfg, clear, others⟩ := u.dmaHandOver_spec e.chan
  have late := (u.dmaHandOver e.chan).dmaLate_raiseOnly e.chan e.late
  have kept (a : Nat) (low : a < 0xC3FF0) := (u.dmaHandOver e.chan).reg_dmaLate e.chan e.late (a := a) low
  refine ⟨_, start, ⟨?_, fun a out => ?_⟩, ?_, ?_, fun none => ?_⟩
  · exact (late.keeps State.cores fun _ _ _ _ _ _ => rfl).trans (only.keeps State.cores fun _ _ _ _ _ _ => rfl)
  · rw [kept a (by lia) (by lia) (by lia) (by lia) (by lia), others a (by lia) (by lia), shown a (by lia) (by lia)]
  · exact (late.keeps State.descs fun _ _ _ _ _ _ => rfl).trans (only.keeps State.descs fun _ _ _ _ _ _ => rfl)
  · rw [kept _ (by lia) (by lia) (by lia) (by lia) (by lia), cfg, shown _ (by lia) (by lia)]
  · rw [none]
    exact clear

end Sys2Proof.Machine
end

section
/-!
PROOFS. Bursts of the DMA engine (R306 to R316), a copy between cluster memories (R313), and the obligation on its channels.
-/
namespace Sys2Proof.Machine

/-! ## The start of a burst -/

/-- The request a burst waits for is taken at its start (R306). -/
def State.dmaTaken (s : State) (n : Nat) (d : Desc) : State := (s.dmaPace n d).elim s s.dmaTake

/-- The state in which a burst reads: a request that is gone by its end is counted (R306). -/
def State.dmaReads (s : State) (n : Nat) (d : Desc) (still : Bool) : State :=
  if (s.dmaPace n d).isSome && !still then (s.dmaTaken n d).count (Reg.dmaOrphanCnt n) 1 else s.dmaTaken n d

/-- The words a burst has formed (R309). -/
def State.dmaFormed (s : State) (n : Nat) (d : Desc) (still : Bool) (host : List Byte) : BurstSt :=
  burstWords n d (min (s.dmaBurstLen n) (d.dstSpan - (s.dma n).moved)) (s.dma n).moved
    { host := host, read := if d.op = 0 then (s.dma n).moved else (s.dma n).stream.length, st := s.dmaReads n d still }

section
variable (s : State) (n : Nat)

theorem State.reg_dmaTake {a : Nat} (req : Nat) (low : a < 0xF0000) : (s.dmaTake req).reg a = s.reg a := by
  unfold State.dmaTake
  split
  · rfl
  · split
    · rfl
    · split
      · rfl
      · split
        · exact s.reg_setFld_ne _ _ _ (by lia)
        · rfl

/-- A burst that waits for no request begins in the state as it is. -/
theorem State.dmaReads_free {d : Desc} (still : Bool) (free : s.dmaPace n d = none) :
    s.dmaTaken n d = s ∧ s.dmaReads n d still = s := by
  unfold State.dmaReads State.dmaTaken
  rw [free]
  exact ⟨rfl, rfl⟩

theorem State.reg_dmaTaken {a : Nat} (d : Desc) (low : a < 0xF0000) : (s.dmaTaken n d).reg a = s.reg a := by
  unfold State.dmaTaken
  cases s.dmaPace n d with
  | none => rfl
  | some req => exact s.reg_dmaTake req low

theorem State.reg_dmaReads {a : Nat} (d : Desc) (still : Bool) (low : a < 0xF0000) (orphan : a ≠ Reg.dmaOrphanCnt n) :
    (s.dmaReads n d still).reg a = s.reg a := by
  unfold State.dmaReads
  split
  · exact (State.reg_count_ne _ 1 orphan).trans (s.reg_dmaTaken n d low)
  · exact s.reg_dmaTaken n d low

end

section
variable (s : State) (n : Nat) (d : Desc) (still : Bool) (host : List Byte)

theorem State.dmaBurst_eq (fail : Bool) : s.dmaBurst n d still host fail =
    if ((decide (d.op ≠ 3) && decide ((s.dmaTaken n d).rgnSpace d.src = 2)) && fail) ||
        (decide ((s.dmaTaken n d).rgnSpace d.dst = 2) && !(s.dmaReads n d still).bme) then
      State.dmaStopped (State.dmaFaultOf (if (s.dmaReads n d still).rgnSpace d.dst ≤ 1 then
        (State.freeWords (min (s.dmaBurstLen n) (d.dstSpan - (s.dma n).moved)) (s.dmaReads n d still)).2.burstWrite d.dst
          (d.dstOfs + (s.dma n).moved)
          (State.freeWords (min (s.dmaBurstLen n) (d.dstSpan - (s.dma n).moved)) (s.dmaReads n d still)).1
        else s.dmaReads n d still) n 6) n 8
    else
      let t := (s.dmaFormed n d still host).st.burstWrite d.dst (d.dstOfs + (s.dma n).moved) (s.dmaFormed n d still host).out
      (t.setDma n { t.dma n with moved := (s.dma n).moved + min (s.dmaBurstLen n) (d.dstSpan - (s.dma n).moved) }).setReg (Reg.dmaRemain n)
        (BitVec.ofNat 32 (d.dstSpan - ((s.dma n).moved + min (s.dmaBurstLen n) (d.dstSpan - (s.dma n).moved)))) := by
  unfold State.dmaBurst State.dmaFormed State.dmaReads State.dmaTaken
  cases s.dmaPace n d <;> rfl

/-- A burst whose host read did not complete stops the channel (R310). -/
theorem State.dmaBurst_fails (op : d.op ≠ 3) (src : (s.dmaTaken n d).rgnSpace d.src = 2) :
    ∃ t : State, s.dmaBurst n d still host true = (t.dmaFaultOf n 6).dmaStopped n 8 :=
  ⟨_, (s.dmaBurst_eq n d still host true).trans (if_pos (by simp [op, src]))⟩

/-- A burst that does not fail writes what it formed and counts it (R306, R309). -/
theorem State.dmaBurst_moves {fail : Bool}
    (reads : (decide ((s.dmaTaken n d).rgnSpace d.src = 2) && fail) = false)
    (writes : (decide ((s.dmaTaken n d).rgnSpace d.dst = 2) && !(s.dmaReads n d still).bme) = false) :
    s.dmaBurst n d still host fail =
      let t := (s.dmaFormed n d still host).st.burstWrite d.dst (d.dstOfs + (s.dma n).moved) (s.dmaFormed n d still host).out
      (t.setDma n { t.dma n with moved := (s.dma n).moved + min (s.dmaBurstLen n) (d.dstSpan - (s.dma n).moved) }).setReg (Reg.dmaRemain n)
        (BitVec.ofNat 32 (d.dstSpan - ((s.dma n).moved + min (s.dmaBurstLen n) (d.dstSpan - (s.dma n).moved)))) :=
  (s.dmaBurst_eq n d still host fail).trans (if_neg (by rw [Bool.and_assoc, reads, writes]; simp))

end

/-! ## A copy between cluster memories (R313) -/

section
variable {s : State}

/-- The next word of a copy comes from the memory of a powered cluster. -/
theorem BurstSt.source_sram {b : BurstSt} {rgn : Nat} (n op o : Nat) (space : b.st.rgnSpace rgn = 1)
    (power : b.st.dspPowered (b.st.rgnCl rgn) = true) :
    b.source n op rgn o = ((b.st.sram.get 0 (65536 * b.st.rgnCl rgn + (b.st.rgnBase rgn + o)), false), b) := by
  simp only [BurstSt.source, space, State.sramRead, power, if_true]

/-- The words of a copy are those of its source, in order. -/
theorem burstWords_copy {d : Desc} {m : Nat} (op : d.op = 0) (ch i : Nat) {b : BurstSt} (space : b.st.rgnSpace d.src = 1)
    (power : b.st.dspPowered (b.st.rgnCl d.src) = true) :
    burstWords ch d m i b = { b with out := b.out ++ (List.range m).map fun j =>
      (b.st.sram.get 0 (65536 * b.st.rgnCl d.src + (b.st.rgnBase d.src + (d.srcOfs + (i + j)))), false) } := by
  induction m generalizing i b with
  | zero => simp [burstWords]
  | succ m ih =>
    have sources : (d.sources i).map (d.srcOfs + ·) = [d.srcOfs + i] := by simp [Desc.sources, op]
    have one : burstWords ch d (m + 1) i b = burstWords ch d m (i + 1) { b with out := b.out ++
        [(b.st.sram.get 0 (65536 * b.st.rgnCl d.src + (b.st.rgnBase d.src + (d.srcOfs + i))), false)] } := by
      rw [burstWords, sources]
      simp only [burstSources, BurstSt.source_sram ch d.op _ space power]
      simp [Desc.word, op, nth]
    rw [one, ih (i + 1) (b := { b with out := b.out ++
        [(b.st.sram.get 0 (65536 * b.st.rgnCl d.src + (b.st.rgnBase d.src + (d.srcOfs + i))), false)] }) space power,
      List.range_succ_eq_map, List.map_cons, List.map_map, List.append_assoc]
    simp only [Nat.add_zero, List.singleton_append, Function.comp_def, Nat.succ_eq_add_one, Nat.add_assoc, Nat.add_comm 1]

/-- Words written to the memory of a powered cluster, at the offsets they carry. -/
theorem State.sramWrite_fold {rgn cl c : Nat} : (l : List ((W72 × Bool) × Nat)) → (s : State) → s.rgnCl rgn = cl →
    s.dspPowered cl = true → l.foldl (fun t p => t.sramWrite (t.rgnCl rgn) (c + p.2) p.1.1) s =
      { s with sram := Store.setMany 0 (l.map fun p => (65536 * cl + (c + p.2), p.1.1)) s.sram }
  | [], _, _, _ => rfl
  | p :: l, s, at', power => by
    have one : s.sramWrite (s.rgnCl rgn) (c + p.2) p.1.1 = { s with sram := s.sram.set 0 (65536 * cl + (c + p.2)) p.1.1 } := by
      rw [State.sramWrite, at', if_pos power]
    rw [List.foldl_cons, one, State.sramWrite_fold l { s with sram := s.sram.set 0 (65536 * cl + (c + p.2)) p.1.1 } at' power]
    rfl

/-- A burst to a cluster's memory writes its words in order, and nothing else. -/
theorem State.burstWrite_sram {rgn o m : Nat} (f : Nat → W72) (space : s.rgnSpace rgn = 1)
    (power : s.dspPowered (s.rgnCl rgn) = true) : s.burstWrite rgn o ((List.range m).map fun j => (f j, false)) =
      { s with sram := Store.setMany 0 ((List.range m).map fun j =>
        (65536 * s.rgnCl rgn + (s.rgnBase rgn + o) + j, f j)) s.sram } := by
  unfold State.burstWrite
  simp only [space]
  rw [List.length_map, List.length_range, State.sramWrite_fold (cl := s.rgnCl rgn) _ s rfl power]
  have pairs : ((List.range m).map fun j => (f j, false)).zip (List.range m) = (List.range m).map fun j => ((f j, false), j) :=
    List.ext_getElem (by simp) (by simp)
  rw [pairs, List.map_map]
  simp only [Function.comp_def, Nat.add_assoc]

/-- A copy between the memories of powered clusters writes exactly the words read, word i to word i. -/
theorem State.dmaBurst_copy (n : Nat) (d : Desc) (still fail : Bool) (host : List Byte) (op : d.op = 0) (paced : d.paced = false)
    (power : s.dspPowered (s.rgnCl d.src) = true) (power' : s.dspPowered (s.rgnCl d.dst) = true) (src : s.rgnSpace d.src = 1)
    (dst : s.rgnSpace d.dst = 1) : ∃ x : DmaSt, s.dmaBurst n d still host fail =
      (State.setDma { s with sram := Store.setMany 0 ((List.range (min (s.dmaBurstLen n) (d.len - (s.dma n).moved))).map fun j =>
        (65536 * s.rgnCl d.dst + (s.rgnBase d.dst + (d.dstOfs + (s.dma n).moved)) + j,
          s.sram.get 0 (65536 * s.rgnCl d.src + (s.rgnBase d.src + (d.srcOfs + ((s.dma n).moved + j)))))) s.sram } n
        { x with moved := (s.dma n).moved + min (s.dmaBurstLen n) (d.len - (s.dma n).moved) }).setReg (Reg.dmaRemain n)
          (BitVec.ofNat 32 (d.len - ((s.dma n).moved + min (s.dmaBurstLen n) (d.len - (s.dma n).moved)))) := by
  have span : d.dstSpan = d.len := if_neg (by simp [op])
  obtain ⟨taken, reads⟩ := s.dmaReads_free (n := n) still (show s.dmaPace n d = none from if_neg (by simp [paced]))
  have moves := s.dmaBurst_moves n d still host (fail := fail) (by rw [taken, src]; rfl) (by rw [taken, dst]; rfl)
  have formed : s.dmaFormed n d still host = { host := host, read := if d.op = 0 then (s.dma n).moved else (s.dma n).stream.length
                                               st := s
                                               out := (List.range (min (s.dmaBurstLen n) (d.len - (s.dma n).moved))).map fun j =>
                                                 (s.sram.get 0 (65536 * s.rgnCl d.src +
                                                   (s.rgnBase d.src + (d.srcOfs + ((s.dma n).moved + j)))), false) } := by
    unfold State.dmaFormed
    rw [reads, span, burstWords_copy op n _ (b := { host := host, read := if d.op = 0 then (s.dma n).moved else (s.dma n).stream.length
                                                    st := s }) src power]
    rfl
  rw [formed, span] at moves
  dsimp only at moves
  rw [State.burstWrite_sram _ dst power'] at moves
  exact ⟨_, moves⟩

end

theorem State.dmaState_zero {s : State} {n : Nat} (idle : s.dmaState n = 0) : (s.dma n).desc = none := by
  unfold State.dmaState at idle
  split at idle
  · next none => exact Option.isNone_iff_eq_none.mp none
  · split at idle
    · cases idle
    · split at idle <;> cases idle

/-- The reads of the starved and the running state of a channel (R305, R326). -/
theorem State.dmaState_run {s : State} {n k : Nat} (hk : k = 1 ∨ k = 2) (state : s.dmaState n = k) :
    (s.dma n).desc.isNone = false ∧ s.dmaStarved n = decide (k = 2) := by
  unfold State.dmaState at state
  split at state
  · omega
  · next some =>
    rw [Bool.not_eq_true] at some
    split at state
    · omega
    · split at state
      · next starved => exact ⟨some, by rw [starved]; simp [← state]⟩
      · next moving => exact ⟨some, by rw [Bool.not_eq_true] at moving; rw [moving]; simp [← state]⟩

/-- The channel granted a burst moves one (R306). -/
theorem exec_dmaBurst_granted {s : State} {n : Fin 64} {ws : List W72} (r : Bool) (h : List Byte) (f : Bool)
    (desc : (s.dma n).desc = some ws) (grant : s.dmaGrant = some n.val) : exec (.dmaBurst n r h f) s =
      .next (State.dmaBurst { s with dmaLast := setNth s.dmaLast (s.dmaPrio n) n } n (descOf ws) r h f) := by
  change execDmaBurst n r h f s = _
  unfold execDmaBurst
  rw [desc]
  exact congrArg Host.Outcome.next (if_pos grant)

/-- The end of the last descriptor of a chain: it is counted, leaves its tag and stops the channel (R308). -/
theorem exec_descComplete_last {s : State} {e : DmaEdge} {ws : List W72} (desc : (s.dma e.chan).desc = some ws)
    (done : (descOf ws).dstSpan ≤ (s.dma e.chan).moved) (good : (s.dma e.chan).poisoned = false) (goes : (s.dma e.chan).stop = false)
    (link : s.rbit (Reg.dmaLink e.chan) 12 = false) (last : (descOf ws).last = true) :
    ∃ t : State, exec (.descComplete e) s = .next (t.dmaStopped e.chan 1) ∧
      t.reg (Reg.dmaLastTag e.chan) = BitVec.ofNat 32 (descOf ws).tag ∧
      t.reg (Reg.dmaDoneCnt e.chan) = s.reg (Reg.dmaDoneCnt e.chan) + 1 := by
  let v := (s.count (Reg.dmaDoneCnt e.chan) 1).setReg (Reg.dmaLastTag e.chan) (BitVec.ofNat 32 (descOf ws).tag)
  have counted : v.reg (Reg.dmaDoneCnt e.chan) = s.reg (Reg.dmaDoneCnt e.chan) + 1 :=
    (State.reg_setReg_ne _ _ (by lia)).trans (s.count_reg _ 1)
  have tagged : v.reg (Reg.dmaLastTag e.chan) = BitVec.ofNat 32 (descOf ws).tag := State.reg_setReg_same ..
  have linked : v.reg (Reg.dmaLink e.chan) = s.reg (Reg.dmaLink e.chan) :=
    (State.reg_setReg_ne _ _ (by lia)).trans (s.reg_count_ne 1 (by lia))
  have only : s.RaiseOnly v := (s.setReg_raiseOnly _ _).trans (State.setReg_raiseOnly _ _ _)
  let w := if (descOf ws).irq then v.event (128 + e.chan) else v
  have only' : s.RaiseOnly w := by
    unfold w
    split
    · exact only.trans (v.event_raiseOnly _)
    · exact only
  have kept (a : Nat) (low : a < 0xD0000) : w.reg a = v.reg a := by
    unfold w
    split
    · exact v.reg_event_of_out (.inl low) (by omega)
    · rfl
  have dma : w.dma e.chan = s.dma e.chan := only'.keeps (State.dma · e.chan) fun _ _ _ _ _ _ => rfl
  have linkOff : w.rbit (Reg.dmaLink e.chan) 12 = false := (State.rbit_of_reg ((kept _ (by lia)).trans linked) 12).trans link
  have run : exec (.descComplete e) s = .next (w.dmaBoundary e.chan (some (descOf ws)) e.late) := by
    change execDescComplete e s = _
    unfold execDescComplete
    dsimp only
    rw [desc]
    dsimp only
    rw [if_neg (by omega)]
    have poisoned : (w.dma e.chan).poisoned = false := (congrArg DmaSt.poisoned dma).trans good
    exact congrArg Host.Outcome.next (if_neg (by rw [poisoned, Bool.false_and]; decide))
  generalize w = w at kept dma linkOff run
  rw [w.dmaBoundary_last e.late ((congrArg DmaSt.stop dma).trans goes) linkOff last] at run
  obtain ⟨-, -, others⟩ := w.dmaHandOver_spec e.chan
  have late (a : Nat) (low : a < 0xC3FF0) := (w.dmaHandOver e.chan).reg_dmaLate e.chan e.late (a := a) low
  refine ⟨_, run, ?_, ?_⟩
  · rw [late _ (by lia) (by lia) (by lia) (by lia) (by lia), others _ (by lia) (by lia), kept _ (by lia), tagged]
  · rw [late _ (by lia) (by lia) (by lia) (by lia) (by lia), others _ (by lia) (by lia), kept _ (by lia), counted]

/-! ## The obligation -/

/-- Settles O43: a start, a stop and a completion are one boundary of the channel; a burst forms its words before it writes them. -/
theorem dmaChannels : Obligations.DmaChannels := by
  refine ⟨?region, ?regionBad, ?goes, ?fails, ?busy, ?noLink, ?stopIdle, ?stopRuns, ?stopStarved, ?stopOwned, ?other, ?moves,
    ?hostFails, ?copy, ?completes⟩
  case region =>
    intro s q k v up ok
    refine congrArg Host.Outcome.next ((if_neg (by simp [up])).trans ?_)
    unfold State.rgnWrite
    dsimp only
    rw [ok]
  case regionBad =>
    intro s q k v c up bad
    refine congrArg Host.Outcome.next ((if_neg (by simp [up])).trans ?_)
    unfold State.rgnWrite
    dsimp only
    rw [bad]
  case goes =>
    intro s q e up own rest goes link ok
    obtain ⟨t, run, regions, descs, cfg, clear⟩ := exec_dmaGo_starts (q := q) up own rest goes link
    have words : t.descWords (s.fld (Reg.dmaLink e.chan) 11 0) = s.descWords (s.fld (Reg.dmaLink e.chan) 11 0) := by
      rw [State.descWords, descs]; rfl
    obtain ⟨desc, moved, cur, remain, kept⟩ := t.descFetch_passes e.chan (s.fld (Reg.dmaLink e.chan) 11 0)
      (by rw [words, regions.descCheck _ (descOf_src _) (descOf_dst _)]; exact ok)
    rw [words] at desc remain
    exact ⟨_, run, desc, moved, fun none => (State.rbit_of_reg (kept _ (by lia) (by lia)) 12).trans (clear none),
      (kept _ (by lia) (by lia)).trans cfg, cur, remain⟩
  case fails =>
    intro s q e why up own rest goes link bad
    obtain ⟨t, run, regions, descs, -, -⟩ := exec_dmaGo_starts (q := q) up own rest goes link
    have words : t.descWords (s.fld (Reg.dmaLink e.chan) 11 0) = s.descWords (s.fld (Reg.dmaLink e.chan) 11 0) := by
      rw [State.descWords, descs]; rfl
    exact ⟨_, run, t.descFetch_fails e.chan (s.fld (Reg.dmaLink e.chan) 11 0)
      (by rw [words, regions.descCheck _ (descOf_src _) (descOf_dst _)]; exact bad)⟩
  case busy =>
    intro s q e up taken
    have check : s.dmaGoCheck e.chan = some .busy := if_pos taken
    refine congrArg Host.Outcome.next ((if_neg (by simp [up])).trans ?_)
    rw [check]
  case noLink =>
    intro s q e up own rest link
    have check : s.dmaGoCheck e.chan = some .range := by simp [State.dmaGoCheck, own, rest, link]
    refine congrArg Host.Outcome.next ((if_neg (by simp [up])).trans ?_)
    rw [check]
  case stopIdle =>
    intro s q n own idle
    have check : s.dmaChanCheck n = none := if_neg (by simp [own])
    change Host.Outcome.next _ = _
    split
    · rfl
    · rw [check]
      exact congrArg Host.Outcome.next (if_pos (by simp [State.dmaState_zero idle]))
  case stopRuns =>
    intro s q n up own runs
    have check : s.dmaChanCheck n = none := if_neg (by simp [own])
    obtain ⟨some, moving⟩ := State.dmaState_run (.inl rfl) runs
    refine congrArg Host.Outcome.next ((if_neg (by simp [up])).trans ?_)
    rw [check]
    exact (if_neg (by simp [some])).trans (if_neg (by simp [moving]))
  case stopStarved =>
    intro s q n up own starved
    have check : s.dmaChanCheck n = none := if_neg (by simp [own])
    obtain ⟨some, waits⟩ := State.dmaState_run (.inr rfl) starved
    have run : exec (.dmaStop q n) s = .next (s.dmaStopped n 2) := by
      refine congrArg Host.Outcome.next ((if_neg (by simp [up])).trans ?_)
      rw [check]
      exact (if_neg (by simp [some])).trans (if_pos (by simp [waits]))
    exact ⟨_, run, s.dmaStopped_spec n (by omega)⟩
  case stopOwned =>
    intro s q n up own
    have check : s.dmaChanCheck n = some .busy := if_pos own
    refine congrArg Host.Outcome.next ((if_neg (by simp [up])).trans ?_)
    rw [check]
  case other =>
    intro s n r f h other
    change execDmaBurst n r h f s = _
    unfold execDmaBurst
    split
    · rfl
    · rw [if_neg other]
  case moves =>
    intro s n ws r h desc grant master
    have bus (u : State) (same : u.regs = s.regs) : (u.dmaReads n (descOf ws) r).bme = true := by
      refine (State.rbit_of_reg (u.reg_dmaReads n (descOf ws) r (by lia) (by lia)) 1).trans ?_
      rw [State.rbit, State.reg, same]
      exact master
    have run := (exec_dmaBurst_granted r h false desc grant).trans (congrArg Host.Outcome.next
      (State.dmaBurst_moves _ n (descOf ws) r h (by simp) (by rw [bus { s with dmaLast := setNth s.dmaLast (s.dmaPrio n) n } rfl]; simp)))
    refine ⟨_, run, ?_⟩
    rw [State.dma_setReg, State.dma_setDma_same]
    rfl
  case hostFails =>
    intro s n ws r h desc grant op src
    have small := descOf_src ws
    obtain ⟨t, fails⟩ := State.dmaBurst_fails { s with dmaLast := setNth s.dmaLast (s.dmaPrio n) n } n (descOf ws) r h op
      ((State.fld_of_reg (State.reg_dmaTaken _ n (descOf ws) (by lia)) 18 16).trans src)
    exact ⟨_, (exec_dmaBurst_granted r h true desc grant).trans (congrArg _ fails), t.dmaFaultStop_spec n (by omega) (by omega)⟩
  case copy =>
    intro s n ws r f h desc grant op paced power power' src dst room d len a
    obtain ⟨x, copy⟩ := State.dmaBurst_copy (s := { s with dmaLast := setNth s.dmaLast (s.dmaPrio n) n }) n d r f h op paced power
      power' src dst
    refine ⟨_, (exec_dmaBurst_granted r h f desc grant).trans (congrArg _ copy), ?_, rfl, State.reg_setReg_same .., fun i hi => ?_,
      fun k out => ?_⟩
    · rw [State.dma_setReg, State.dma_setDma_same]
      rfl
    · exact Store.get_setMany_range 0 hi a _ s.sram
    · refine Store.get_setMany_of_not_mem 0 0 (fun mem => ?_) s.sram
      simp only [List.map_map, List.mem_map, List.mem_range, Function.comp_apply] at mem
      obtain ⟨j, hj, rfl⟩ := mem
      replace hj : j < len := hj
      replace out : a + j < a ∨ a + len ≤ a + j := out
      omega
  case completes =>
    intro s e ws desc done good goes link last
    obtain ⟨t, run, tag, count⟩ := exec_descComplete_last desc done good goes link last
    obtain ⟨ends, why⟩ := t.dmaStopped_spec e.chan (why := 1) (by omega)
    exact ⟨_, run, ends, why, (t.reg_dmaStopped e.chan 1 (by lia) (by lia) (by lia)).trans tag,
      (t.reg_dmaStopped e.chan 1 (by lia) (by lia) (by lia)).trans count⟩

end Sys2Proof.Machine
end

section
/-!
PROOFS. What a reset leaves (R429, R430): the registers that stand, the memories that are empty, and the cause and kind it reports.
-/
namespace Sys2Proof.Machine

/-! ## The registers a reset keeps -/

/-- The registers that no reset but power-on changes (R430). -/
def standingRegs : List Nat := [Reg.sysBootWhy, Reg.sysWdogCnt, Reg.lifeState, Reg.lifeTransCnt, Reg.lifeRollbackMin]

/-- The registers that need not hold their reset value after a reset (R430). -/
def leftRegs : List Nat := [Reg.sysResetWhy, Reg.sysBootStat, Reg.sysBootWhy, Reg.sysWdogCnt, Reg.lifeState, Reg.lifeTransCnt,
  Reg.lifeRollbackMin, Reg.timeSrcStatus, Reg.mcNrfSeed 0, Reg.mcNrfSeed 1]

section
variable (s : State)

theorem State.regsKept_standing {a : Nat} (stands : a ∈ standingRegs) : s.regsKept.get (resetOf a) a = s.reg a := by
  simp only [standingRegs, List.mem_cons, List.not_mem_nil, or_false] at stands
  unfold State.regsKept
  obtain rfl | rfl | rfl | rfl | rfl := stands <;>
    simp [Store.get_set_ne, Store.get_set_same]

theorem State.regsKept_srcStatus :
    s.regsKept.get (resetOf Reg.timeSrcStatus) Reg.timeSrcStatus = s.reg Reg.timeSrcStatus &&& 0x30 := by
  unfold State.regsKept
  exact Store.get_set_same ..

theorem State.regsKept_other {a : Nat} (stands : a ∉ standingRegs) (pins : a ≠ Reg.timeSrcStatus) :
    s.regsKept.get (resetOf a) a = resetOf a := by
  simp only [standingRegs, List.mem_cons, List.not_mem_nil, or_false, not_or] at stands
  obtain ⟨why, wdog, life, trans, rollback⟩ := stands
  simp [State.regsKept, Store.get_set_ne, *]

/-- The dark outputs a reset sends change nothing but what is sent (R51). -/
theorem State.darkAll_spec : ∃ sent : List Out, s.darkAll = { s with tx := sent } := by
  refine forEach_keeps (fun t : State => ∃ sent : List Out, t = { s with tx := sent }) _ _ _ (fun h t kept => ?_) ⟨s.tx, rfl⟩
  obtain ⟨sent, rfl⟩ := kept
  split
  · exact ⟨sent ++ [.dark h], rfl⟩
  · exact ⟨sent, rfl⟩

/-! ## The seeds of neighbour refresh (R288) -/

theorem State.reg_seeded_ne {a : Nat} (zero : a ≠ Reg.mcNrfSeed 0) (one : a ≠ Reg.mcNrfSeed 1) : s.seeded.reg a = s.reg a :=
  (State.reg_setReg_ne (s := State.drawn (s.setReg (Reg.mcNrfSeed 0) _)) _ one).trans (State.reg_setReg_ne (s := s) _ zero)

/-- A seed drawn from entropy is not 0 (R288). -/
theorem seed_ne_zero (v : W72) :
    (BitVec.ofNat 32 (if field v 31 0 = 0 then 1 else field v 31 0)) ≠ 0 := by
  have small := field_lt v 31 0
  intro zero
  have := congrArg BitVec.toNat zero
  split at this
  · simp at this
  · simp at this small
    omega

theorem State.seeded_ne_zero (m : Mc) : s.seeded.reg (Reg.mcNrfSeed m) ≠ 0 := by
  let first := State.drawn (s.setReg (Reg.mcNrfSeed 0) (BitVec.ofNat 32 (if field s.free 31 0 = 0 then 1 else field s.free 31 0)))
  have second : s.seeded.reg (Reg.mcNrfSeed 1) ≠ 0 := by
    refine (State.reg_setReg_same (s := first) ..).symm ▸ ?_
    exact seed_ne_zero _
  have zero : s.seeded.reg (Reg.mcNrfSeed 0) ≠ 0 := by
    refine (State.reg_setReg_ne (s := first) (a := Reg.mcNrfSeed 1) (b := Reg.mcNrfSeed 0) _ (by decide)).symm ▸ ?_
    exact (State.reg_setReg_same (s := s) ..).symm ▸ seed_ne_zero _
  fin_cases m
  · exact zero
  · exact second

/-! ## The state a reset leaves -/

/-- What a reset of a cause and kind leaves of a state (R429, R430). -/
def State.LeftByReset (s t : State) (cause : Nat) (cold : Bool) : Prop :=
  t.fld Reg.sysResetWhy 3 0 = cause ∧ t.rbit Reg.sysBootStat 5 = cold ∧ (∀ h : Head, t.lasen h = false ∧ (t.head h).gates = 0) ∧
  (∀ a, a ∉ leftRegs → t.reg a = resetOf a) ∧
  (∀ m : Mc, t.reg (Reg.mcNrfSeed m) ≠ 0) ∧
  t.cores = .empty ∧ t.zones = .empty ∧ t.sram = .empty ∧ t.cmem = .empty ∧ t.imem = .empty ∧ t.wide = .empty ∧ t.msix = .empty ∧
  t.fabric = [] ∧ t.evq = [] ∧ t.pending = s.pending ∧ t.reg Reg.lifeState = s.reg Reg.lifeState ∧
  t.reg Reg.lifeRollbackMin = s.reg Reg.lifeRollbackMin ∧ t.reg Reg.lifeTransCnt = s.reg Reg.lifeTransCnt ∧
  t.reg Reg.timeSrcStatus = s.reg Reg.timeSrcStatus &&& 0x30 ∧ t.nvm.cfg = s.nvm.cfg ∧ t.nvm.cal = s.nvm.cal ∧ t.nvm.ops = []

variable (cause : Nat) (cold : Bool)

/-- A reset replaces the registers by those that stand, the cause, the kind and the seeds. -/
theorem State.resetAs_regs : ∃ u : State, u.regs = s.regsKept ∧
    s.resetAs cause cold = ((u.setReg Reg.sysResetWhy (BitVec.ofNat 32 cause)).setRbit Reg.sysBootStat 5 cold).seeded := by
  obtain ⟨sent, dark⟩ := s.darkAll_spec
  refine ⟨_, ?_, rfl⟩
  rw [dark]
  rfl

/-- The seeds, the cause and the kind are registers: the rest of the state is the one a reset builds. -/
theorem State.resetAs_rest : ∃ sent : List Out,
    (s.resetAs cause cold).pending = ({ s with tx := sent } : State).pending ∧
    (s.resetAs cause cold).dram = ({ s with tx := sent } : State).dram ∧
    (s.resetAs cause cold).nvm = ({ s with tx := sent } : State).nvm.afterReset := by
  obtain ⟨sent, dark⟩ := s.darkAll_spec
  refine ⟨sent, ?_⟩
  unfold State.resetAs
  rw [dark]
  exact ⟨rfl, rfl, rfl⟩

theorem State.reg_resetAs {a : Nat} (why : a ≠ Reg.sysResetWhy) (stat : a ≠ Reg.sysBootStat) (zero : a ≠ Reg.mcNrfSeed 0)
    (one : a ≠ Reg.mcNrfSeed 1) : (s.resetAs cause cold).reg a = s.regsKept.get (resetOf a) a := by
  obtain ⟨u, regs, eq⟩ := s.resetAs_regs cause cold
  rw [eq, State.reg_seeded_ne _ zero one, State.reg_setRbit_ne _ _ _ stat, State.reg_setReg_ne _ _ why, State.reg, regs]

/-- What a reset keeps of the registers of AON and of the life cycle (R430). -/
theorem State.reg_resetAs_standing {a : Nat} (stands : a ∈ standingRegs) : (s.resetAs cause cold).reg a = s.reg a := by
  rw [State.reg_resetAs, State.regsKept_standing _ stands]
  all_goals rintro rfl; revert stands; decide

theorem State.reg_resetAs_other {a : Nat} (out : a ∉ leftRegs) : (s.resetAs cause cold).reg a = resetOf a := by
  have parts := out
  simp only [leftRegs, List.mem_cons, List.not_mem_nil, or_false, not_or] at parts
  obtain ⟨why, stat, bootWhy, wdog, life, trans, rollback, src, zero, one⟩ := parts
  rw [State.reg_resetAs _ _ _ why stat zero one, State.regsKept_other _ _ src]
  simp only [standingRegs, List.mem_cons, List.not_mem_nil, or_false, not_or]
  exact ⟨bootWhy, wdog, life, trans, rollback⟩

theorem State.fld_resetAs_why (fits : cause < 16) : (s.resetAs cause cold).fld Reg.sysResetWhy 3 0 = cause := by
  obtain ⟨u, regs, eq⟩ := s.resetAs_regs cause cold
  rw [State.fld, eq, State.reg_seeded_ne _ (by decide) (by decide), State.reg_setRbit_ne _ _ _ (by decide), State.reg_setReg_same, field,
    BitVec.toNat_ofNat]
  omega

theorem State.rbit_resetAs_kind : (s.resetAs cause cold).rbit Reg.sysBootStat 5 = cold := by
  obtain ⟨u, regs, eq⟩ := s.resetAs_regs cause cold
  rw [State.rbit, eq, State.reg_seeded_ne _ (by decide) (by decide)]
  exact State.rbit_setRbit_same _ _ _ _ (by decide)

/-- A head whose registers hold their reset values has no laser enabled (R70). -/
theorem State.lasen_of_reset {t : State} (reset : ∀ a, a ∉ leftRegs → t.reg a = resetOf a) (h : Head) : t.lasen h = false := by
  have ctrl : t.rbit (Reg.headCtrl h) 1 = false := by
    rw [State.rbit, reset _ (by revert h; decide)]
    revert h; decide +kernel
  simp [State.lasen, ctrl]

theorem State.pinsKept_gates (k : Nat) : (s.pinsKept.get {} k).gates = 0 := by
  refine List.foldlRecOn (motive := fun m : Store HeadSt => (m.get {} k).gates = 0) _ _ rfl fun m kept h _ => ?_
  split
  · by_cases same : k = h
    · rw [same, Store.get_set_same]
    · rwa [Store.get_set_ne _ _ _ _ same]
  · exact kept

theorem State.leftByReset_resetAs (fits : cause < 16) : s.LeftByReset (s.resetAs cause cold) cause cold := by
  obtain ⟨sent, pending, dram, nvm⟩ := s.resetAs_rest cause cold
  have reset : ∀ a, a ∉ leftRegs → (s.resetAs cause cold).reg a = resetOf a := fun a out => s.reg_resetAs_other cause cold out
  refine ⟨s.fld_resetAs_why cause cold fits, s.rbit_resetAs_kind cause cold,
    fun h => ⟨State.lasen_of_reset reset h, s.darkAll.pinsKept_gates h⟩, reset, fun m => State.seeded_ne_zero _ m,
    rfl, rfl, rfl, rfl, rfl, rfl, rfl, rfl, rfl, pending, s.reg_resetAs_standing _ _ (by decide), s.reg_resetAs_standing _ _ (by decide),
    s.reg_resetAs_standing _ _ (by decide), ?_, (congrArg NvmSt.cfg nvm).trans rfl, (congrArg NvmSt.cal nvm).trans rfl,
    congrArg NvmSt.ops nvm⟩
  rw [State.reg_resetAs _ _ _ (by decide) (by decide) (by decide) (by decide), State.regsKept_srcStatus]

theorem State.dram_resetAs : (s.resetAs cause cold).dram = s.dram := by
  obtain ⟨sent, pending, dram, nvm⟩ := s.resetAs_rest cause cold
  exact dram

theorem State.boot_resetAs : (s.resetAs cause cold).boot =
    { held := s.boot.held, fill := cold, manual := s.boot.manual, tried := s.boot.tried } := by
  obtain ⟨sent, dark⟩ := s.darkAll_spec
  change ({ held := s.darkAll.boot.held, fill := cold, manual := s.darkAll.boot.manual, tried := s.darkAll.boot.tried } : BootSt) = _
  rw [dark]

end

end Sys2Proof.Machine
end

section
/-!
PROOFS. The sources of reset (R429, R435, R438, R454), and the obligation on them.
-/
namespace Sys2Proof.Machine

section
variable {s t : State} {q : Req} {cause c : Nat} {cold : Bool}

/-! ## What a reset leaves depends on what it keeps -/

/-- Two states that agree in what a reset keeps are left alike. -/
theorem State.LeftByReset.of_kept {u : State} (left : t.LeftByReset u cause cold) (pending : t.pending = s.pending) (nvm : t.nvm = s.nvm)
    (reg : ∀ a, a ∈ [Reg.lifeState, Reg.lifeRollbackMin, Reg.lifeTransCnt, Reg.timeSrcStatus] → t.reg a = s.reg a) :
    s.LeftByReset u cause cold := by
  simp only [State.LeftByReset] at left ⊢
  rwa [pending, nvm, reg Reg.lifeState (by simp), reg Reg.lifeRollbackMin (by simp), reg Reg.lifeTransCnt (by simp),
    reg Reg.timeSrcStatus (by simp)] at left

/-- What a reset leaves is not about the boot. -/
theorem State.LeftByReset.boot (left : s.LeftByReset t cause cold) (b : BootSt) : s.LeftByReset { t with boot := b } cause cold := left

/-- Nor about the counters of AON. -/
theorem State.LeftByReset.aon {v w : W32} (left : s.LeftByReset t cause cold) :
    s.LeftByReset ((t.setReg Reg.sysBootWhy v).setReg Reg.sysWdogCnt w) cause cold := by
  have kept {a : Nat} (why : a ≠ Reg.sysBootWhy) (wdog : a ≠ Reg.sysWdogCnt) :
      ((t.setReg Reg.sysBootWhy v).setReg Reg.sysWdogCnt w).reg a = t.reg a := by
    rw [State.reg_setReg_ne _ _ wdog, State.reg_setReg_ne _ _ why]
  obtain ⟨why, kind, heads, reset, seeds, cores, zones, sram, cmem, imem, wide, msix, fabric, evq, pending, life, rollback, trans, src,
    nvm⟩ := left
  have others : ∀ a, a ∉ leftRegs → ((t.setReg Reg.sysBootWhy v).setReg Reg.sysWdogCnt w).reg a = resetOf a := fun a out => by
    rw [kept (fun same => out (by simp [leftRegs, same])) (fun same => out (by simp [leftRegs, same])), reset a out]
  refine ⟨?_, ?_, fun h => ⟨State.lasen_of_reset others h, (heads h).2⟩, others, fun m => ?_, cores, zones, sram, cmem, imem, wide, msix,
    fabric, evq, pending, ?_, ?_, ?_, ?_, nvm⟩
  · rw [State.fld, kept (by decide) (by decide)]
    exact why
  · rw [State.rbit, kept (by decide) (by decide)]
    exact kind
  · rw [kept (by revert m; decide) (by revert m; decide)]
    exact seeds m
  · rwa [kept (by decide) (by decide)]
  · rwa [kept (by decide) (by decide)]
  · rwa [kept (by decide) (by decide)]
  · rwa [kept (by decide) (by decide)]

/-! ## A source that acts, and one that is passed over (R454) -/

/-- No source of a lower code has reset the block in this cycle. -/
def State.FirstIn (s : State) (c : Nat) : Prop := ∀ k, s.boot.cause = some k → c ≤ k

/-- The state in which a source finds the block: DIE_HOT holds reset from then on (R429). -/
def State.heldBy (s : State) (c : Nat) : State := { s with boot := { s.boot with held := s.boot.held || decide (c = 9) } }

theorem State.resetBy_first (first : s.FirstIn c) :
    s.resetBy c = { (s.heldBy c).resetAs c (coldCause c) with
      boot := { ((s.heldBy c).resetAs c (coldCause c)).boot with cause := some c } } := by
  refine if_neg ?_
  rw [Bool.not_eq_true, Option.any_eq_false]
  exact fun k isCause => decide_eq_false (by have := first k isCause; omega)

theorem State.resetBy_passed {k : Nat} (isCause : s.boot.cause = some k) (lower : k < c) : s.resetBy c = s.heldBy c := by
  refine if_pos ?_
  change Option.any _ s.boot.cause = true
  rw [isCause]
  exact decide_eq_true lower

theorem State.heldBy_other (other : c ≠ 9) : s.heldBy c = s := by
  simp [State.heldBy, other]

theorem State.firstIn_of_none (none : s.boot.cause = none) : s.FirstIn c := fun k isCause => by simp [none] at isCause

/-- What a source that acts leaves (R429, R430). -/
theorem State.leftByReset_resetBy (first : s.FirstIn c) (fits : c < 16) :
    s.LeftByReset (s.resetBy c) c (coldCause c) ∧ (s.resetBy c).boot.cause = some c := by
  rw [State.resetBy_first first]
  exact ⟨((s.heldBy c).leftByReset_resetAs c (coldCause c) fits).boot _, rfl⟩

theorem State.fld_resetBy_why (first : s.FirstIn c) (fits : c < 16) : (s.resetBy c).fld Reg.sysResetWhy 3 0 = c := by
  obtain ⟨⟨why, rest⟩, -⟩ := State.leftByReset_resetBy first fits
  exact why

/-- Whether it acts or is passed over, a source leaves the counters of AON as they were (R430). -/
theorem State.reg_resetBy_standing {a : Nat} (stands : a ∈ standingRegs) : (s.resetBy c).reg a = s.reg a := by
  by_cases first : s.FirstIn c
  · rw [State.resetBy_first first]
    have kept := (s.heldBy c).reg_resetAs_standing c (coldCause c) stands
    generalize (s.heldBy c).resetAs c (coldCause c) = u at kept ⊢
    exact kept
  · simp only [State.FirstIn, not_forall, not_le] at first
    obtain ⟨k, isCause, lower⟩ := first
    rw [State.resetBy_passed isCause lower]
    rfl

theorem State.dram_resetBy (first : s.FirstIn c) : (s.resetBy c).dram = s.dram := by
  rw [State.resetBy_first first]
  have kept := (s.heldBy c).dram_resetAs c (coldCause c)
  generalize (s.heldBy c).resetAs c (coldCause c) = u at kept ⊢
  exact kept

theorem State.boot_resetBy (first : s.FirstIn c) : (s.resetBy c).boot =
    { held := s.boot.held || decide (c = 9), cause := some c, fill := coldCause c, manual := s.boot.manual, tried := s.boot.tried } := by
  rw [State.resetBy_first first]
  change ({ ((s.heldBy c).resetAs c (coldCause c)).boot with cause := some c } : BootSt) = _
  rw [State.boot_resetAs]
  rfl

theorem State.manual_resetBy : (s.resetBy c).boot.manual = s.boot.manual := by
  by_cases first : s.FirstIn c
  · rw [State.boot_resetBy first]
  · simp only [State.FirstIn, not_forall, not_le] at first
    obtain ⟨k, isCause, lower⟩ := first
    rw [State.resetBy_passed isCause lower]
    rfl

theorem State.held_resetBy : (s.resetBy c).boot.held = (s.boot.held || decide (c = 9)) := by
  by_cases first : s.FirstIn c
  · rw [State.boot_resetBy first]
  · simp only [State.FirstIn, not_forall, not_le] at first
    obtain ⟨k, isCause, lower⟩ := first
    rw [State.resetBy_passed isCause lower]
    rfl

/-! ## Sources inside the block (R429, R438) -/

theorem State.sourceShut_of_open (opened : s.shut = false) : s.sourceShut = false := by
  simp only [State.shut, Bool.or_eq_false_iff] at opened
  simp [State.sourceShut, opened]

theorem State.sourceShut_of_cause {k : Nat} (alive : s.scrapped = false) (isCause : s.boot.cause = some k) : s.sourceShut = false := by
  simp [State.sourceShut, alive, isCause]

variable (opened : s.sourceShut = false)
include opened

theorem exec_softCold : exec (.softCold q) s = .next (s.resetBy 4) :=
  congrArg Host.Outcome.next (by simp [State.resetCtrl, opened])

theorem exec_softWarm : exec (.softWarm q) s = .next (s.resetBy 5) :=
  congrArg Host.Outcome.next (by simp [State.resetCtrl, opened])

theorem exec_retry : exec (.retry q) s = .next (s.clearFails.resetBy 5) :=
  congrArg Host.Outcome.next (by simp [State.resetCtrl, opened])

theorem exec_minimal : exec (.minimal q) s = .next (State.resetBy { s with boot := { s.boot with manual := true } } 5) :=
  congrArg Host.Outcome.next (by simp [State.resetCtrl, opened])

/-- The watchdog counts and resets the block; of a boot that runs it is a failure (R429, R435). -/
theorem exec_watchdog : exec .watchdog s = .next
    (if (s.boot.running && !s.rbit Reg.sysBootStat 0) && decide (((s.count Reg.sysWdogCnt 1).resetBy 6).fld Reg.sysResetWhy 3 0 = 6)
      then ((s.count Reg.sysWdogCnt 1).resetBy 6).bootFail 1 else (s.count Reg.sysWdogCnt 1).resetBy 6) := by
  refine Eq.trans (b := execWatchdog s) rfl ?_
  rw [execWatchdog, opened]
  rfl

theorem exec_watchdog_idle (idle : s.boot.running = false) : exec .watchdog s = .next ((s.count Reg.sysWdogCnt 1).resetBy 6) := by
  rw [exec_watchdog opened, idle]
  rfl

omit opened

theorem State.fails_clearFails : s.clearFails.fails = 0 := s.fld_setFld_same _ _ _ (by decide)

/-! ## A failed boot that resets (R435, R436) -/

theorem State.bootFail_reset {why : Nat} (few : s.fails < 2) :
    s.bootFail why = ((s.shiftWhy why).setFld Reg.sysBootWhy 25 24 (s.fails + 1)).resetAs 7 false := by
  have count : min 3 (s.fails + 1) = s.fails + 1 := by omega
  simp only [State.bootFail, count]
  exact if_neg (by omega)

/-- The reason of a failure shifts into BOOT_WHY (R435). -/
theorem State.fld_shiftWhy {code : Nat} (byte : code < 256) : (s.shiftWhy code).fld Reg.sysBootWhy 7 0 = code := by
  have all : (s.shiftWhy code).fld Reg.sysBootWhy 23 0 = (s.fld Reg.sysBootWhy 15 0 * 256 + code) % 2 ^ 24 :=
    s.fld_setFld_same _ _ _ (by decide)
  simp only [State.fld, field] at all ⊢
  omega

/-- A failed boot that is not the third resets the block with its reason and its count (R435). -/
theorem State.bootFail_reset_spec {why : Nat} (few : s.fails < 2) (byte : why < 256) :
    (s.bootFail why).fld Reg.sysBootWhy 7 0 = why ∧ (s.bootFail why).fails = s.fails + 1 ∧
      (s.bootFail why).fld Reg.sysResetWhy 3 0 = 7 ∧ (s.bootFail why).reg Reg.sysWdogCnt = s.reg Reg.sysWdogCnt := by
  rw [State.bootFail_reset few]
  have kept {hi lo : Nat} : (((s.shiftWhy why).setFld Reg.sysBootWhy 25 24 (s.fails + 1)).resetAs 7 false).fld Reg.sysBootWhy hi lo =
      ((s.shiftWhy why).setFld Reg.sysBootWhy 25 24 (s.fails + 1)).fld Reg.sysBootWhy hi lo := by
    rw [State.fld, State.reg_resetAs_standing _ _ _ (by decide)]
    rfl
  refine ⟨?_, ?_, State.fld_resetAs_why _ _ _ (by decide), ?_⟩
  · rw [kept, State.fld_setFld_out _ _ _ (by decide) (by decide), State.fld_shiftWhy byte]
  · rw [State.fails, kept, State.fld_setFld_same _ _ _ _ (by decide)]
    omega
  · rw [State.reg_resetAs_standing _ _ _ (by decide), State.reg_setFld_ne _ _ _ _ (by decide)]
    exact s.reg_setFld_ne _ _ _ (by decide)

/-! ## Power-on, and heat (R429, R430) -/

theorem State.powerOn_spec :
    s.LeftByReset s.powerOn 0 true ∧ s.powerOn.dram = .empty ∧ s.powerOn.reg Reg.sysBootWhy = 0 ∧ s.powerOn.reg Reg.sysWdogCnt = 0 := by
  let cleared : State := { s with dram := .empty, boot := {} }
  have left := cleared.leftByReset_resetAs 0 true (by decide)
  have dram := cleared.dram_resetAs 0 true
  change s.LeftByReset (((cleared.resetAs 0 true).setReg Reg.sysBootWhy 0).setReg Reg.sysWdogCnt 0) 0 true ∧
    (((cleared.resetAs 0 true).setReg Reg.sysBootWhy 0).setReg Reg.sysWdogCnt 0).dram = .empty ∧
    (((cleared.resetAs 0 true).setReg Reg.sysBootWhy 0).setReg Reg.sysWdogCnt 0).reg Reg.sysBootWhy = 0 ∧
    (((cleared.resetAs 0 true).setReg Reg.sysBootWhy 0).setReg Reg.sysWdogCnt 0).reg Reg.sysWdogCnt = 0
  generalize cleared.resetAs 0 true = u at left dram ⊢
  exact ⟨State.LeftByReset.aon left, dram, by simp [State.reg_setReg_ne], State.reg_setReg_same ..⟩

end

end Sys2Proof.Machine
end

section
/-!
PROOFS. The obligation on every reset and its cause (R429, R430, R435, R438, R454).
-/
namespace Sys2Proof.Machine

section
variable {s : State} {q : Req}

/-- An expired watchdog is counted (R429). -/
theorem State.wdog_counted : ((s.count Reg.sysWdogCnt 1).resetBy 6).reg Reg.sysWdogCnt = s.reg Reg.sysWdogCnt + 1 := by
  rw [State.reg_resetBy_standing (by decide)]
  exact s.reg_setReg_same _ _

theorem State.fails_wdog : ((s.count Reg.sysWdogCnt 1).resetBy 6).fails = s.fails := by
  rw [State.fails, State.fld, State.reg_resetBy_standing (by decide), State.count, State.reg_setReg_ne _ _ (by decide)]
  rfl

/-- What a source leaves of the state it finds, after a register of AON has changed. -/
theorem State.leftByReset_after_aon {a c : Nat} {v : W32} (aon : a = Reg.sysBootWhy ∨ a = Reg.sysWdogCnt) (first : s.FirstIn c)
    (fits : c < 16) : s.LeftByReset ((s.setReg a v).resetBy c) c (coldCause c) := by
  obtain ⟨left, -⟩ := State.leftByReset_resetBy (s := s.setReg a v) first fits
  refine left.of_kept rfl rfl fun b standing => s.reg_setReg_ne _ ?_
  revert b
  obtain rfl | rfl := aon <;> decide

/-- A watchdog that expires while an image boots fails the attempt with reason 1 (R435). -/
theorem exec_watchdog_booting (opened : s.shut = false) (none : s.boot.cause = none) (runs : s.boot.running = true)
    (notDone : s.rbit Reg.sysBootStat 0 = false) (few : s.fails < 2) :
    ∃ t, exec .watchdog s = .next t ∧ t.reg Reg.sysWdogCnt = s.reg Reg.sysWdogCnt + 1 ∧ t.fails = s.fails + 1 ∧
      t.fld Reg.sysBootWhy 7 0 = 1 ∧ t.fld Reg.sysResetWhy 3 0 = 7 := by
  have why : ((s.count Reg.sysWdogCnt 1).resetBy 6).fld Reg.sysResetWhy 3 0 = 6 :=
    State.fld_resetBy_why (State.firstIn_of_none none) (by decide)
  have fails := State.fails_wdog (s := s)
  obtain ⟨reason, counted, cause, wdog⟩ :=
    State.bootFail_reset_spec (s := (s.count Reg.sysWdogCnt 1).resetBy 6) (why := 1) (by omega) (by decide)
  refine ⟨_, (exec_watchdog (State.sourceShut_of_open opened)).trans
    (congrArg Host.Outcome.next (if_pos (by simp [runs, notDone, why]))), ?_, ?_, reason, cause⟩
  · rw [wdog, State.wdog_counted]
  · rw [counted, fails]

/-- Power-on resets the block and clears what other resets keep (R430). -/
theorem exec_por : ∃ t, exec .por s = .next t ∧ s.LeftByReset t 0 true ∧ t.boot.cause = some 0 ∧ t.dram = .empty ∧
    t.reg Reg.sysBootWhy = 0 ∧ t.reg Reg.sysWdogCnt = 0 := by
  have power := s.powerOn_spec
  refine ⟨{ s.powerOn with boot := { s.powerOn.boot with cause := some 0 } }, rfl, ?_⟩
  generalize s.powerOn = u at power ⊢
  obtain ⟨left, dram, why, wdog⟩ := power
  exact ⟨left.boot _, rfl, dram, why, wdog⟩

theorem exec_dieHot (cool : s.boot.held = false) : exec .dieHot s = .next (s.resetBy 9) :=
  congrArg Host.Outcome.next (if_neg (by simp [cool]))

/-- An idle tick of a block that is shut only ends the cycle (R429, DESIGN CHOICE, log entry 1). -/
theorem step_of_shut (empty : s.pending = []) (shut : s.shut = true) :
    step s = .next { s with boot := { s.boot with cause := none } } := by
  have tick : step s = .next s.tick := by simp [step, empty]
  rw [tick]
  exact congrArg Host.Outcome.next (if_pos shut)

end

/-- Settles O48: each source resets the block as `resetBy` does, whose reset keeps the standing registers and rebuilds the rest. -/
theorem everyResetAndItsCause : Obligations.EveryResetAndItsCause := by
  unfold Obligations.EveryResetAndItsCause
  refine ⟨?_, ?_, ?_, fun s => step_of_shut, ?_, ?_, ?_, ?_, ?_, ?_, ?_, fun s => rfl, ?_, fun s opened none runs notDone few =>
    exec_watchdog_booting opened none runs notDone few⟩
  · intro s q opened left firstOf
    have shut := State.sourceShut_of_open opened
    have cool : s.boot.held = false := by
      simp only [State.shut, Bool.or_eq_false_iff] at opened
      exact opened.1
    obtain ⟨t, por, power, cause, -⟩ := exec_por (s := s)
    refine ⟨⟨t, por, power, cause⟩,
      fun first => ⟨_, rfl, State.leftByReset_resetBy first (by decide)⟩,
      fun first => ⟨_, rfl, State.leftByReset_resetBy first (by decide)⟩,
      fun first => ⟨_, rfl, State.leftByReset_resetBy first (by decide)⟩,
      fun first => ⟨_, exec_softCold shut, State.leftByReset_resetBy first (by decide)⟩,
      fun first => ⟨⟨_, exec_softWarm shut, State.leftByReset_resetBy first (by decide)⟩,
        ⟨_, exec_retry shut, State.leftByReset_after_aon (.inl rfl) first (by decide)⟩, ⟨_, exec_minimal shut, ?_⟩⟩,
      fun first idle => ⟨_, exec_watchdog_idle shut idle, State.leftByReset_after_aon (.inr rfl) first (by decide)⟩,
      fun first => ⟨_, exec_dieHot cool, (State.leftByReset_resetBy first (by decide)).1⟩⟩
    exact (State.leftByReset_resetBy (s := { s with boot := { s.boot with manual := true } }) first (by decide)).1.of_kept rfl rfl
      fun _ _ => rfl
  · intro s q k isCause
    have passed {c : Nat} (other : c ≠ 9) (lower : k < c) : s.resetBy c = s := by
      rw [State.resetBy_passed isCause lower, State.heldBy_other other]
    refine ⟨fun lower => congrArg _ (passed (by decide) lower), fun lower => congrArg _ (passed (by decide) lower),
      fun lower => congrArg _ (passed (by decide) lower),
      fun alive lower => (exec_softCold (State.sourceShut_of_cause alive isCause)).trans (congrArg _ (passed (by decide) lower)),
      fun alive lower => (exec_softWarm (State.sourceShut_of_cause alive isCause)).trans (congrArg _ (passed (by decide) lower)),
      fun lower cool => ?_⟩
    rw [exec_dieHot cool, State.resetBy_passed isCause lower, State.heldBy]
    simp
  · intro s q alive held isCause
    have first : s.FirstIn 5 := fun k same => by simp_all
    obtain ⟨⟨why, kind, -⟩, -⟩ := State.leftByReset_resetBy first (by decide)
    exact ⟨_, exec_softWarm (State.sourceShut_of_cause alive isCause), why, kind, by simp [State.held_resetBy, held]⟩
  · intro s
    obtain ⟨t, por, -, -, dram, why, wdog⟩ := exec_por (s := s)
    exact ⟨t, por, dram, why, wdog⟩
  · intro s none
    have first : s.FirstIn 1 := State.firstIn_of_none none
    exact ⟨_, rfl, State.dram_resetBy first, by rw [State.boot_resetBy first]; rfl, State.reg_resetBy_standing (by decide)⟩
  · intro s q opened none
    have first : s.FirstIn 5 := State.firstIn_of_none none
    exact ⟨_, exec_softWarm (State.sourceShut_of_open opened), State.dram_resetBy first, by rw [State.boot_resetBy first]; rfl,
      State.reg_resetBy_standing (by decide)⟩
  · intro s q opened
    refine ⟨_, exec_retry (State.sourceShut_of_open opened), ?_⟩
    rw [State.fails, State.fld, State.reg_resetBy_standing (by decide)]
    exact State.fails_clearFails
  · intro s q opened
    exact ⟨_, exec_minimal (State.sourceShut_of_open opened), State.manual_resetBy⟩
  · intro s cool
    exact ⟨_, exec_dieHot cool, by simp [State.held_resetBy]⟩
  · intro s held
    exact congrArg Host.Outcome.next (if_pos held)
  · intro s opened idle
    exact ⟨_, exec_watchdog_idle (State.sourceShut_of_open opened) idle, State.wdog_counted, State.fails_wdog⟩

end Sys2Proof.Machine
end

section
/-!
PROOFS. The obligation on boot attempts fails: the calibration that an attempt loads is written to whatever registers its slot names (R389).
-/
namespace Sys2Proof.Machine

/-- A calibration slot whose CRC and commit record fit, and whose body names BOOT_STAT. -/
def slotOfBootStat : CalSlotNv := CalSlotNv.seal { written := true, body := [(Reg.sysBootStat, 0)] }

/-- A device out of reset with a valid image in region A and no configuration stored, whose calibration slot A names BOOT_STAT. -/
def bootsOverStat : State := { nvm := { img := ({ written := true, valid := true }, {}), cal := (slotOfBootStat, {}) } }

/-- The attempt starts image A. -/
theorem exec_bootAttempt_bootsOverStat : ∃ s : State,
    exec (.bootAttempt ⟨true, false⟩ []) bootsOverStat = .next (s.imageStart false) ∧ (s.imageStart false).rbit Reg.sysBootStat 3 = false :=
  ⟨(bootsOverStat.cycleOver.nvmScan []).lifeFinish.restoreFinish, by rfl, by decide +kernel⟩

/-- Refutes O49: in its third clause the attempt starts from defaults, but the calibration in force then clears BOOT_STAT bit 3, since the
slots of the clause's state are any that verify. -/
theorem not_bootAttemptsAndMinimalMode : ¬ Obligations.BootAttemptsAndMinimalMode := by
  unfold Obligations.BootAttemptsAndMinimalMode
  intro holds
  obtain ⟨-, -, starts, -⟩ := holds
  obtain ⟨t, attempt, -, -, -, defaults, -⟩ := starts bootsOverStat true false false [] (by decide) rfl rfl rfl
    (by decide) (by decide +kernel) rfl rfl rfl
  obtain ⟨s, same, cleared⟩ := exec_bootAttempt_bootsOverStat
  rw [same, Host.Outcome.next.injEq] at attempt
  rw [← attempt, cleared] at defaults
  exact Bool.noConfusion defaults

end Sys2Proof.Machine
end

section
/-!
PROOFS. The obligation on the eNVM fails: a second life-cycle transition asked for begins no second record (R445).
-/
namespace Sys2Proof.Machine

/-- A device whose transition to INTEGRATION is asked for, its record being written. -/
def transitionAsked : State :=
  State.setReg { nvm := { ops := [.lifeRecord], lifeAsked := some 1 } } Reg.lifeStateCtrl 0x10

/-- A transition asked for while one waits adds no operation: the record in progress will name the later target. -/
theorem State.lifeGo_ops (s : State) (q : Req) (unlocked : s.rbit Reg.lifeStateCtrl 31 = false)
    (ok : s.lifeTargetOk (s.fld Reg.lifeStateCtrl 5 4) = true) (waits : s.nvm.lifeAsked.isSome = true) :
    (s.lifeGo q).nvm.ops = s.nvm.ops := by
  have asked : s.lifeGo q = State.event { s with nvm := { s.nvm with lifeAsked := some (s.fld Reg.lifeStateCtrl 5 4) } } 237 := by
    simp [State.lifeGo, State.lifeAsk, unlocked, ok, waits]
  rw [asked]
  exact (State.event_raiseOnly _ _).keeps (fun t : State => t.nvm.ops) fun _ _ _ _ _ _ => rfl

/-- Refutes O50: its clause on an accepted GO lets a transition wait already, and then no record is begun. -/
theorem not_envmImagesStoresAndLifeCycle : ¬ Obligations.EnvmImagesStoresAndLifeCycle := by
  unfold Obligations.EnvmImagesStoresAndLifeCycle
  intro holds
  obtain ⟨-, -, -, -, -, -, -, -, -, -, -, -, -, -, -, -, -, -, accepted, -⟩ := holds
  obtain ⟨t, go, -, ops⟩ := accepted transitionAsked .cp (by decide) (by decide) (by decide)
  have run : exec (.lifeGo .cp) transitionAsked = .next (transitionAsked.lifeGo .cp) := by
    rw [show exec (.lifeGo .cp) transitionAsked = execLifeGo .cp transitionAsked from rfl, execLifeGo, if_neg (by decide)]
  rw [run, Host.Outcome.next.injEq] at go
  rw [← go, State.lifeGo_ops _ _ (by decide) (by decide) rfl] at ops
  exact absurd (congrArg List.length ops) (by decide)

end Sys2Proof.Machine
end

section
/-!
PROOFS. Reads and writes of dictionary entries (R393 to R396), the PTP settings, the local window (R420), and the obligation on them.
-/
namespace Sys2Proof.Machine

section
variable {s : State} {p : Path}

/-! ## Reads -/

/-- An entry that exists has an index that exists. -/
theorem odRows_of_odRow {idx sub : Nat} {r : OdRow} (row : odRow idx sub = some r) : odRows idx ≠ [] := by
  intro none
  simp [odRow, none] at row

theorem exec_dictRead {idx : BitVec 16} {sub : Byte} {ofs : Nat} (path : s.pathRole p ≠ none) :
    exec (.dictRead p idx sub ofs) s =
      .next (s.emit (.object ((s.odRead idx.toNat sub.toNat ofs).elim id fun _ => 0)
        ((s.odRead idx.toNat sub.toNat ofs).elim (fun _ => []) Prod.snd))) := by
  refine (if_neg path).trans ?_
  cases s.odRead idx.toNat sub.toNat ofs <;> rfl

/-- The indices that hold keys have a row of sub-index 0 (R400). -/
theorem odRow_of_isKey {idx : Nat} (key : isKey idx = true) : (odRow idx 0).isSome = true := by
  simp only [isKey, Bool.and_eq_true, decide_eq_true_eq] at key
  obtain ⟨low, high⟩ := key
  interval_cases idx <;> decide +kernel

/-- A key reads as an abort (R400). -/
theorem State.odRead_key {idx ofs : Nat} (key : isKey idx = true) : s.odRead idx 0 ofs = .inl 0x08000000 := by
  obtain ⟨r, row⟩ := Option.isSome_iff_exists.mp (odRow_of_isKey key)
  unfold State.odRead
  rw [if_neg (odRows_of_odRow row), row]
  exact if_pos key

theorem State.odRead_noIndex {idx sub ofs : Nat} (none : odRows idx = []) : s.odRead idx sub ofs = .inl 0x06020000 := if_pos none

/-- Sub-index 0 without a row reads the highest sub-index (R393). -/
theorem State.odRead_top {idx : Nat} (some : odRows idx ≠ []) (none : odRow idx 0 = none) :
    s.odRead idx 0 0 = .inr (.u8, [BitVec.ofNat 8 (odTop idx)]) := by
  unfold State.odRead
  rw [if_neg some, none]
  rfl

/-- A readable entry of a fixed length reads as its number (R394, R395). -/
theorem State.odRead_number {idx sub : Nat} {r : OdRow} (row : odRow idx sub = some r) (plain : isKey idx = false) (reads : r.acc ≠ .wo)
    (fixed : odBytesOf r.type ≠ 0) : s.odRead idx sub 0 = .inr (r.type, leBytes (s.odNum idx sub) (odBytesOf r.type)) := by
  unfold State.odRead
  rw [if_neg (odRows_of_odRow row), row]
  simp [plain, reads, fixed]

/-! ## Writes -/

/-- A write request that is no STORE is answered with the code of the write. -/
theorem exec_dictWrite {role : Nat} {idx : BitVec 16} {sub ty : Byte} {ofs : Nat} {more : Bool} {data : List Byte}
    (path : s.pathRole p = some role) (plain : isStore idx.toNat sub.toNat = false) :
    exec (.dictWrite p idx sub ty ofs more data) s =
      .next ((s.odWrite role idx.toNat sub.toNat ty.toNat ofs more data).2.emit
        (.object (s.odWrite role idx.toNat sub.toNat ty.toNat ofs more data).1 [])) := by
  refine congrArg Host.Outcome.next ?_
  simp [State.odRequest, path, plain, State.answerCode]

/-- A refused write answers its code and changes nothing (R395). -/
theorem exec_dictWrite_refused {role : Nat} {idx : BitVec 16} {sub ty : Byte} {ofs : Nat} {more : Bool} {data : List Byte} {a : W32}
    (path : s.pathRole p = some role) (plain : isStore idx.toNat sub.toNat = false)
    (refused : s.odRefuse role idx.toNat sub.toNat ty.toNat ofs data = some a) :
    exec (.dictWrite p idx sub ty ofs more data) s = .next (s.emit (.object a [])) := by
  rw [exec_dictWrite path plain, State.odWrite, refused]

section
variable {role idx sub ty ofs : Nat} {data : List Byte} {r : OdRow} (row : odRow idx sub = some r)
include row

theorem State.odRefuse_readOnly (acc : r.acc = .const ∨ r.acc = .ro) : s.odRefuse role idx sub ty ofs data = some 0x06010002 := by
  unfold State.odRefuse
  rw [if_neg (odRows_of_odRow row), row]
  exact if_pos acc

theorem State.odRefuse_role (const : r.acc ≠ .const) (ro : r.acc ≠ .ro) (low : role < odWriteRole idx sub) :
    s.odRefuse role idx sub ty ofs data = some 0x06010000 := by
  unfold State.odRefuse
  rw [if_neg (odRows_of_odRow row), row]
  exact (if_neg (by simp [const, ro])).trans (if_pos low)

theorem State.odRefuse_type (const : r.acc ≠ .const) (ro : r.acc ≠ .ro) (may : odWriteRole idx sub ≤ role) (full : s.minimal = false)
    (bad : ty ≠ odCode r.type ∨ odLengthOk r idx data = false) : s.odRefuse role idx sub ty ofs data = some 0x06070010 := by
  unfold State.odRefuse
  rw [if_neg (odRows_of_odRow row), row]
  refine (if_neg (by simp [const, ro])).trans ((if_neg (by omega)).trans ((if_neg (by simp [full])).trans (if_pos ?_)))
  obtain other | other := bad
  · exact .inl other
  · exact .inr (.inl (by simp [other]))

end

/-! ## PTP settings (R412) -/

/-- The entries of PTP are numbers. -/
theorem odRow_ptp {sub : Nat} {r : OdRow} (row : odRow 0x2010 sub = some r) : r.type ≠ .oct ∧ r.type ≠ .str := by
  have all : ∀ x ∈ odRows 0x2010, x.type ≠ .oct ∧ x.type ≠ .str := by decide +kernel
  exact all r (List.mem_of_find?_eq_some row)

/-- An accepted write of a PTP setting sets that entry. -/
theorem State.odWrite_ptp {role sub ty : Nat} {more : Bool} {data : List Byte}
    (accepted : s.odRefuse role 0x2010 sub ty 0 data = none) :
    s.odWrite role 0x2010 sub ty 0 more data = (0, s.setOdv 0x2010 sub (ofLeBytes data)) := by
  have row : ∃ r, odRow 0x2010 sub = some r := by
    cases found : odRow 0x2010 sub with
    | some r => exact ⟨r, rfl⟩
    | none =>
      unfold State.odRefuse at accepted
      rw [if_neg (by decide +kernel), found] at accepted
      simp at accepted
  obtain ⟨r, row⟩ := row
  obtain ⟨oct, str⟩ := odRow_ptp row
  rw [State.odWrite, accepted]
  simp [State.odApply, isKey, isCob, row, oct, str]

/-- Entries of other keys keep their value. -/
theorem State.odv_setOdv_ne {i j k l v : Nat} (sub : j < 256) (own : l < 256) (ne : (i, j) ≠ (k, l)) :
    (s.setOdv k l v).odv i j = s.odv i j := by
  refine Store.get_set_ne _ _ _ _ fun same => ne ?_
  unfold odKey at same
  exact Prod.ext (by dsimp only; omega) (by dsimp only; omega)

/-! ## The local window (R420) -/

theorem length_leBytes (x n : Nat) : (leBytes x n).length = n := by
  induction n generalizing x with
  | zero => rfl
  | succ n ih => simp [leBytes, ih]

theorem FrameHdr.length_bytes (h : FrameHdr) : h.bytes.length = 24 := by
  simp [FrameHdr.bytes, length_leBytes]

/-- The words of LOCAL_BUF are registers. -/
theorem State.localPut_regs (n : Nat) (l : List Byte) (k : Nat) :
    ∃ r, State.localPut n l k s = { s with regs := r } := by
  induction n generalizing l k s with
  | zero => exact ⟨s.regs, rfl⟩
  | succ n ih =>
    unfold State.localPut
    split
    · exact ih _ _
    · obtain ⟨r, same⟩ := ih (s := s.setReg (Reg.netLocalBuf k) _) (l.drop 4) (k + 1)
      exact ⟨r, same⟩

/-- A reply with bytes lies in the window with its length, and DONE sets (R420). -/
theorem State.localReply_spec {flags : Nat} (payload : List Byte) (answers : flags ≠ 0) :
    (s.localReply flags payload).rbit Reg.netLocalStat 0 = true ∧ (s.localReply flags payload).net.localBusy = false ∧
      (s.localReply flags payload).reg Reg.netLocalLen = BitVec.ofNat 32 (24 + payload.length) ∧
      (s.localReply flags payload).od = s.od ∧ (s.localReply flags payload).odBytes = s.odBytes := by
  have spares {a : Nat} (at_ : a = Reg.netLocalStat ∨ a = Reg.netLocalLen) : RaiseSpares a := by
    obtain rfl | rfl := at_ <;> exact ⟨by decide, by decide⟩
  obtain ⟨r, put⟩ := s.localPut_regs 264 (FrameHdr.bytes { frameHdr s.net.localHdr with
    flags := flags, src := (frameHdr s.net.localHdr).dst, dst := (frameHdr s.net.localHdr).src, len := payload.length } ++ payload) 0
  unfold State.localReply
  dsimp only
  rw [if_neg answers, put, List.length_append, FrameHdr.length_bytes]
  generalize sets : State.setRbit _ Reg.netLocalStat 0 true = t
  have raised := t.event_raiseOnly 234
  refine ⟨?_, ?_, ?_, ?_, ?_⟩
  · rw [State.rbit, State.event_reg_of_spared t (spares (.inl rfl)) (by decide), ← sets]
    exact State.rbit_setRbit_same _ _ _ _ (by decide)
  · rw [raised.keeps (fun t : State => t.net) fun _ _ _ _ _ _ => rfl, ← sets]
    rfl
  · rw [State.event_reg_of_spared t (spares (.inr rfl)) (by decide), ← sets, State.reg_setRbit_ne _ _ _ (by decide)]
    exact State.reg_setReg_same _ _ _
  · rw [raised.keeps (fun t : State => t.od) fun _ _ _ _ _ _ => rfl, ← sets]
    rfl
  · rw [raised.keeps (fun t : State => t.odBytes) fun _ _ _ _ _ _ => rfl, ← sets]
    rfl

theorem replyFlags_ne_zero (abort : W32) (more : Bool) : replyFlags abort more ≠ 0 := by
  unfold replyFlags
  omega

/-- A READ in the window runs at once and is answered (R420). -/
theorem State.localRun_read (long : 24 ≤ s.localRequest.length) (version : leAt s.localRequest 0 1 = 1)
    (read : leAt s.localRequest 1 1 = 1) (request : leAt s.localRequest 2 1 % 2 = 0) (fits : (frameHdr s.localRequest).len ≤ 1400)
    (whole : 24 + (frameHdr s.localRequest).len ≤ s.localRequest.length) :
    ∃ n : NetSt, s.localRun = State.localReply { s with net := n }
      (replyFlags (s.readReply ((s.localRequest.drop 24).take (frameHdr s.localRequest).len)).1 false)
      (s.readReply ((s.localRequest.drop 24).take (frameHdr s.localRequest).len)).2 := by
  have type : (frameHdr s.localRequest).type = 1 := read
  have flags : (frameHdr s.localRequest).flags % 2 = 0 := request
  refine ⟨{ s.net with localBusy := true, localHdr := s.localRequest.take 24 }, ?_⟩
  unfold State.localRun
  dsimp only
  rw [if_neg (by omega), type]
  rfl

end

/-- Settles O51: reads and refusals go through the equations of `odRead` and `odRefuse`, the window through its reply. -/
theorem dictionaryAccessAndLocalWindow : Obligations.DictionaryAccessAndLocalWindow := by
  unfold Obligations.DictionaryAccessAndLocalWindow
  refine ⟨fun s p idx sub ofs none => if_pos none, ?_, ?_, ?_, ?_, ?_⟩
  · intro s p idx sub ofs path
    refine ⟨_, _, exec_dictRead path, ?_, ?_, ?_, ?_⟩
    · rintro key rfl
      simp [State.odRead_key key]
    · intro none
      simp [State.odRead_noIndex none]
    · rintro some none rfl rfl
      simp [State.odRead_top some none]
    · rintro r row plain rfl reads fixed
      simp [State.odRead_number row plain reads fixed]
  · intro s p role idx sub ty ofs more data r path row plain
    exact ⟨fun acc => exec_dictWrite_refused path plain (State.odRefuse_readOnly row acc),
      fun const ro low => exec_dictWrite_refused path plain (State.odRefuse_role row const ro low),
      fun const ro may full bad => exec_dictWrite_refused path plain (State.odRefuse_type row const ro may full bad)⟩
  · intro s p role sub ty more data path accepted
    refine ⟨_, exec_dictWrite path rfl, ?_⟩
    have wrote : s.odWrite role (0x2010 : BitVec 16).toNat sub.toNat ty.toNat 0 more data = _ := State.odWrite_ptp accepted
    rw [wrote]
    exact ⟨rfl, s.odv_setOdv_same _ _ _, fun i k _ small ne => State.odv_setOdv_ne small sub.isLt ne, fun _ => rfl⟩
  · intro s q opened busy
    exact congrArg Host.Outcome.next ((if_neg (by simp [opened])).trans (if_pos busy))
  · intro s q opened free long version read request fits whole
    obtain ⟨n, ran⟩ := State.localRun_read long version read request fits whole
    obtain ⟨done, idle, length, od, bytes⟩ := State.localReply_spec (s := { s with net := n })
      (s.readReply ((s.localRequest.drop 24).take (frameHdr s.localRequest).len)).2
      (replyFlags_ne_zero (s.readReply ((s.localRequest.drop 24).take (frameHdr s.localRequest).len)).1 false)
    refine ⟨s.localRun, congrArg Host.Outcome.next ((if_neg (by simp [opened])).trans (if_neg (by simp [free]))), ?_⟩
    rw [ran]
    exact ⟨done, idle, length, od, bytes⟩

end Sys2Proof.Machine
end

section
/-!
PROOFS. The obligation on sessions fails: a WRITE of a role's key closes the sessions of that role, the writer's among them (R405).
-/
namespace Sys2Proof.Machine

/-- A WRITE of the key of role INTEGRATOR, 0x1F82, as the peer of session 1 sends it: header and payload. -/
def keyWriteBody : List Byte :=
  FrameHdr.bytes { type := 2, flags := 0, role := 2, src := 0, dst := 0, session := 1, seq := 1, reqId := 0, len := 40 } ++
    (leBytes 0x1F82 2 ++ leBytes 0 1 ++ leBytes 0x0A 1 ++ leBytes 0 4 ++ List.replicate 32 0)

/-- The frame, tagged under the session's key. -/
def keyWriteFrame : List Byte := keyWriteBody ++ frameTag [] keyWriteBody

/-- A device with Yarfel on and one open session, of role INTEGRATOR. -/
def integratorOpen : State := (State.setReg {} Reg.netCtrl 1).setSession 0 { active := true, role := 2, sid := 1 }

/-- The write is applied and closes the session that sent it. -/
theorem exec_keyWriteFrame : ∃ t, exec (.yarfelFrameRx (.v4 0) keyWriteFrame) integratorOpen = .next t ∧ (t.session 0).rxMax = 0 := by
  have on : integratorOpen.yarfelOn = true := by decide
  refine ⟨integratorOpen.yarfelFrame (.v4 0) keyWriteFrame, ?_, by decide +kernel⟩
  rw [show exec (.yarfelFrameRx (.v4 0) keyWriteFrame) integratorOpen = execYarfelFrameRx (.v4 0) keyWriteFrame integratorOpen from rfl,
    execYarfelFrameRx, if_pos on]

/-- Refutes O52: its clause on verified frames has the session track the frame's number after every request, a WRITE of its own role's key
among them. -/
theorem not_sessionsAndSubscriptions : ¬ Obligations.SessionsAndSubscriptions := by
  unfold Obligations.SessionsAndSubscriptions
  intro holds
  obtain ⟨-, -, -, -, -, -, -, -, -, -, -, -, -, verified, -⟩ := holds
  obtain ⟨t, applied, tracked, -⟩ := verified integratorOpen (.v4 0) keyWriteFrame 0 1 [1] (by decide) (by decide +kernel) (by decide +kernel)
    (by decide +kernel) (by decide +kernel) rfl (by decide +kernel) (by decide +kernel) (fun _ listed => absurd listed List.not_mem_nil)
    (by decide +kernel) (by decide +kernel) (fun _ listed => absurd listed List.not_mem_nil)
  obtain ⟨u, closes, zero⟩ := exec_keyWriteFrame
  rw [closes, Host.Outcome.next.injEq] at applied
  rw [← applied] at tracked
  exact absurd (zero.symm.trans tracked) (by decide)

end Sys2Proof.Machine
end

section
/-!
PROOFS. The obligation on calibration steps fails: a store does not start while the eNVM still writes one that was abandoned (R390, R442).
-/
namespace Sys2Proof.Machine

/-- A device with a STORE due and permitted, while the operation of an abandoned one is in progress. -/
def storeAbandoned : State :=
  State.setReg (State.setReg { quince := { storeDue := true }, nvm := { ops := [.calibration] } } Reg.calCtrl 0x21) Reg.nvmWriteCtrl 4

/-- A STORE waits for the calibration operation in progress. -/
theorem exec_calStore_waits (s : State) (ok : Bool) (busy : s.nvm.ops.contains .calibration = true) : exec (.calStore ok) s = .next s :=
  congrArg Host.Outcome.next (if_pos (by rw [busy]; simp))

/-- Refutes O16: its clause on a due STORE lets a calibration operation be in progress, and then nothing starts. -/
theorem not_calibrationSteps : ¬ Obligations.CalibrationSteps := by
  unfold Obligations.CalibrationSteps
  intro holds
  obtain ⟨-, -, -, -, -, -, -, -, -, -, starts, -⟩ := holds
  obtain ⟨t, store, storing, -⟩ := starts storeAbandoned (by decide) (by decide) (by decide)
  rw [exec_calStore_waits _ _ (by decide), Host.Outcome.next.injEq] at store
  rw [← store] at storing
  exact absurd storing (by decide)

end Sys2Proof.Machine
end
